-- ==== Sys2Proof/Word.lean ====
section
/-! DEFINITION. The words of the machine, the register names, the operand shapes of an instruction, and the type
of sparse data. Only the plainest arithmetic stands here. -/

namespace Sys2Proof

/-- A 64-bit scalar word (02_machine R25). -/
abbrev Word := BitVec 64
/-- A byte. -/
abbrev Byte := BitVec 8
/-- A 32-bit instruction parcel (03_encoding R40). -/
abbrev Parcel := BitVec 32
/-- A scalar register s0–s31. -/
abbrev SReg := BitVec 5
/-- A vector register v0–v31. -/
abbrev VReg := BitVec 5
/-- A mask register m0–m7. -/
abbrev MReg := BitVec 3
/-- An accumulator a0–a7. -/
abbrev AReg := BitVec 3
/-- A distribution register d0–d7. -/
abbrev DReg := BitVec 3
/-- A scale register k0–k3. -/
abbrev KReg := BitVec 2

/-- Bits lo to lo + w − 1 of a word. -/
abbrev field {n : Nat} (lo w : Nat) (x : BitVec n) : BitVec w := x.extractLsb' lo w

/-- Sparse data by key: the listed pairs in strictly rising order of key; an unlisted key reads as a default that
the reader names, and no listed entry equals that default. The operations stand in Machine/Sparse.lean. -/
abbrev Sparse (α : Type) := List (Nat × α)

/-- The three harts of a context (02_machine R20): compute, fetch and drain. -/
inductive HartKind where
  | ch | fh | dh
deriving DecidableEq, Repr

/-- The control and status registers that R59, 09_page R201 and 17_reuse R383 give a selector. -/
inductive Csr where
  | pc | fflags | vl | vtype | vfill | maxlen | vcp | spc | trapinfo | trapaddr | trapvec | hb | grpid | corid
  | hartid | tenant | turncap | xtsel | xroot | xinv | xwalk | hotctl | hotres | hotlog | hotstat | migva | migcmd
  | migstat | rutsel | ruquota | rupool
deriving DecidableEq, Repr

/-- Where a scan takes its carry from (03_encoding R45, field CIN). -/
inductive CarryIn where
  | none
  | scalar (r : SReg)
  | vector (r : VReg)
  | channel (c : BitVec 4)
deriving DecidableEq, Repr

/-- Where a scan leaves its carry (03_encoding R45, field COUT). -/
inductive CarryOut where
  | none
  | scalar (r : SReg)
  | vector (r : VReg)
  | channel (c : BitVec 4)
deriving DecidableEq, Repr

end Sys2Proof
end

