-- ==== Sys2Proof/Config.lean ====
section
/-! DEFINITION. What the W9-384 fixes (00_scope R2, R3, R7), and the free values: constants without a body, for the
values that the manual leaves open (notes/assumptions/6). -/

namespace Sys2Proof.Config

/-- The units of which READOUT shifts the state (20_system R453), each with its number: a hart under three times its context's
plus the place of its kind, granules and write generations by place, tenants, dies, cores, kernels, links, routers. -/
inductive ScanUnit where
  | hart | context | kernel | trapRecord | granules | generations | errors | tenant | die | tlb | migrations | packets | pairs
  | watches | outputs | hits | reuse | window | quadBarrier | dieBarrier | reserve | copies | issue | sorusHalf | device | port
  | link | router | counters | channels
deriving DecidableEq, Repr, Inhabited

/-- A 64-bit piece of the state that READOUT shifts (20_system R453): of memory, of a hart's or a context's registers and
windows, of the device's, word i of what a unit holds, or of the storage of keys. -/
inductive ScanCell where
  | unit (u : ScanUnit) (n i : Nat)
  | mem (i : Nat)
  | hostReg (f off : Nat)
  | heartbeat
  | scalar (cid hart r : Nat)
  | pc (cid hart : Nat)
  | trapInfo (cid hart : Nat)
  | trapAddr (cid hart : Nat)
  | vector (cid i : Nat)
  | mask (cid i : Nat)
  | tile (cid i : Nat)
  | sorus (cid i : Nat)
  | scale (cid i : Nat)
  | inWindow (cid i : Nat)
  | outWindow (cid i : Nat)
  | pipeIn (cid i : Nat)
  | pipeOut (cid i : Nat)
  | granule (key : Nat)
  | tenantKey (t i : Nat)
  | stagedKey (t i : Nat)
deriving DecidableEq, Repr, Inhabited

/-- Compute dies of the device (R2). -/
def dies : Nat := 4
/-- Quadrants of a die (R2). -/
def quadsPerDie : Nat := 4
/-- Cores of a quadrant (R2). -/
def coresPerQuad : Nat := 24
/-- Cores of a die (R2). -/
def coresPerDie : Nat := 96
/-- Cores of the device (R2). -/
def cores : Nat := 384
/-- Virtual functions, one a tenant (R6). -/
def tenants : Nat := 128
/-- The physical function stands beside the tenants under this number. -/
def pf : Nat := 128
/-- Entries of the vector instruction queue (R20). -/
def viqCap : Nat := 64
/-- Entries of a pipe (R21). -/
def pipeCap : Nat := 16
/-- Pending granules of a core (R32). -/
def turnCap : Nat := 65536
/-- Commands of a copy queue (R225). -/
def copyCap : Nat := 16
/-- Records of a deque (R317). -/
def dequeCap : Nat := 64
/-- Continuations of a context (R317). -/
def contCap : Nat := 16
/-- Records of a group ready queue (R317). -/
def readyCap : Nat := 4096
/-- Records of a queue window (R344). -/
def windowCap : Nat := 32
/-- Bytes of a turn granule (R6). -/
def granule : Nat := 64
/-- Populated bytes of each die's physical range (R458). -/
def populated : Nat := 96000000000
/-- Bytes of each die's physical range (R458). -/
def dieRange : Nat := 2 ^ 37

/-- A word the manual leaves open, drawn with the counter of the state. -/
opaque freeWord : Nat → Word
/-- A byte the manual leaves open, drawn with the counter of the state. -/
opaque freeByte : Nat → Byte
/-- A choice the manual leaves open: a number to be reduced modulo the number of choices. -/
opaque freeChoice : Nat → Nat
/-- How often a die has accessed a frame in a tracker window: the counts are not kept (notes/assumptions/15). -/
opaque hotCount : Nat → Nat → Nat → Nat
/-- The CRC of a flit, of which the manual gives the width alone (18_link R417). -/
opaque linkCrc : BitVec 10 → List Byte → BitVec 32
/-- Whether the host supports the selective NAK of the CXL link (18_link R418). -/
opaque cxlSelective : Bool
/-- The router, counted in its die, at which the controller of a stack stands: the manual does not say (18_link R415). -/
opaque sliceRouter : Nat → Nat
/-- The fused rollback counter of firmware versions (R448). -/
opaque rollback : BitVec 16
/-- Which piece of the state each 64 bits of READOUT are: the manual does not give the order (R453). -/
opaque scanCell : Nat → ScanCell
/-- The identification code of the test access port (R453). -/
opaque idcode : BitVec 32

end Sys2Proof.Config
end

