-- ==== Sys2Proof/Syntax.lean ====
section
/-! DEFINITION. The instructions: one constructor for every row of spec/opcode_table.json, with its operands.
The rows that have no encoding are the moves of the other agents of the device (95_what_each_step_holds); what such a
move acts on (its job, page, record, link) is no operand of an encoding: State holds it (Machine/State.lean, EventArg).
The constructors that carry operands stand first, in the order of the opcode table, then those that carry none. -/

namespace Sys2Proof

/-- The instructions of the W9-384. -/
inductive Instr where
  /-- ADD (R87). -/
  | add (d : SReg) (a : SReg) (b : SReg)
  /-- SUB (R87). -/
  | sub (d : SReg) (a : SReg) (b : SReg)
  /-- AND (R87). -/
  | and (d : SReg) (a : SReg) (b : SReg)
  /-- OR (R87). -/
  | or (d : SReg) (a : SReg) (b : SReg)
  /-- XOR (R87). -/
  | xor (d : SReg) (a : SReg) (b : SReg)
  /-- SLL (R87). -/
  | sll (d : SReg) (a : SReg) (b : SReg)
  /-- SRL (R87). -/
  | srl (d : SReg) (a : SReg) (b : SReg)
  /-- SRA (R87). -/
  | sra (d : SReg) (a : SReg) (b : SReg)
  /-- SETLT (R87). -/
  | setlt (d : SReg) (a : SReg) (b : SReg)
  /-- SETLTU (R87). -/
  | setltu (d : SReg) (a : SReg) (b : SReg)
  /-- MIN (R87). -/
  | min (d : SReg) (a : SReg) (b : SReg)
  /-- MAX (R87). -/
  | max (d : SReg) (a : SReg) (b : SReg)
  /-- MINU (R87). -/
  | minu (d : SReg) (a : SReg) (b : SReg)
  /-- MAXU (R87). -/
  | maxu (d : SReg) (a : SReg) (b : SReg)
  /-- ANDN (R87). -/
  | andn (d : SReg) (a : SReg) (b : SReg)
  /-- ORN (R87). -/
  | orn (d : SReg) (a : SReg) (b : SReg)
  /-- ROL (R87). -/
  | rol (d : SReg) (a : SReg) (b : SReg)
  /-- ROR (R87). -/
  | ror (d : SReg) (a : SReg) (b : SReg)
  /-- MUL (R88). -/
  | mul (d : SReg) (a : SReg) (b : SReg)
  /-- MULHI_SS (R88). -/
  | mulhiSs (d : SReg) (a : SReg) (b : SReg)
  /-- MULHI_UU (R88). -/
  | mulhiUu (d : SReg) (a : SReg) (b : SReg)
  /-- MULHI_SU (R88). -/
  | mulhiSu (d : SReg) (a : SReg) (b : SReg)
  /-- DIV (R89). -/
  | div (d : SReg) (a : SReg) (b : SReg)
  /-- DIVU (R89). -/
  | divu (d : SReg) (a : SReg) (b : SReg)
  /-- REM (R89). -/
  | rem (d : SReg) (a : SReg) (b : SReg)
  /-- REMU (R89). -/
  | remu (d : SReg) (a : SReg) (b : SReg)
  /-- PMUL (R88). -/
  | pmul (d : SReg) (a : SReg) (b : SReg)
  /-- PMULHI (R88). -/
  | pmulhi (d : SReg) (a : SReg) (b : SReg)
  /-- POPC (R88). -/
  | popc (d : SReg) (a : SReg)
  /-- CLZ (R88). -/
  | clz (d : SReg) (a : SReg)
  /-- CTZ (R88). -/
  | ctz (d : SReg) (a : SReg)
  /-- BREV (R88). -/
  | brev (d : SReg) (a : SReg)
  /-- BSWAP (R88). -/
  | bswap (d : SReg) (a : SReg)
  /-- ADDI (R90). -/
  | addi (d : SReg) (a : SReg) (imm : BitVec 14)
  /-- ANDI (R90). -/
  | andi (d : SReg) (a : SReg) (imm : BitVec 14)
  /-- ORI (R90). -/
  | ori (d : SReg) (a : SReg) (imm : BitVec 14)
  /-- XORI (R90). -/
  | xori (d : SReg) (a : SReg) (imm : BitVec 14)
  /-- SETLTI (R90). -/
  | setlti (d : SReg) (a : SReg) (imm : BitVec 14)
  /-- SETLTIU (R90). -/
  | setltiu (d : SReg) (a : SReg) (imm : BitVec 14)
  /-- SLLI (R91). -/
  | slli (d : SReg) (a : SReg) (sh : BitVec 6)
  /-- SRLI (R91). -/
  | srli (d : SReg) (a : SReg) (sh : BitVec 6)
  /-- SRAI (R91). -/
  | srai (d : SReg) (a : SReg) (sh : BitVec 6)
  /-- RORI (R91). -/
  | rori (d : SReg) (a : SReg) (sh : BitVec 6)
  /-- BEXT (R92). -/
  | bext (d : SReg) (a : SReg) (offset : BitVec 6) (width : BitVec 7)
  /-- BEXTS (R92). -/
  | bexts (d : SReg) (a : SReg) (offset : BitVec 6) (width : BitVec 7)
  /-- BINS (R92). -/
  | bins (d : SReg) (a : SReg) (offset : BitVec 6) (width : BitVec 7)
  /-- LI (R93). -/
  | li (d : SReg) (imm : BitVec 19)
  /-- LI_64 (R93). -/
  | li64 (d : SReg) (imm : BitVec 32)
  /-- LI_96 (R93). -/
  | li96 (d : SReg) (lo : BitVec 32) (hi : BitVec 32)
  /-- LA (R94). -/
  | la (d : SReg) (imm : BitVec 19)
  /-- BEQ (R95). -/
  | beq (a : SReg) (b : SReg) (off : BitVec 11)
  /-- BNE (R95). -/
  | bne (a : SReg) (b : SReg) (off : BitVec 11)
  /-- BLT (R95). -/
  | blt (a : SReg) (b : SReg) (off : BitVec 11)
  /-- BGE (R95). -/
  | bge (a : SReg) (b : SReg) (off : BitVec 11)
  /-- BLTU (R95). -/
  | bltu (a : SReg) (b : SReg) (off : BitVec 11)
  /-- BGEU (R95). -/
  | bgeu (a : SReg) (b : SReg) (off : BitVec 11)
  /-- JAL (R96). -/
  | jal (d : SReg) (imm : BitVec 19)
  /-- JALR (R96). -/
  | jalr (d : SReg) (a : SReg) (imm : BitVec 14)
  /-- LB (R97). -/
  | lb (d : SReg) (a : SReg) (off : BitVec 11)
  /-- LH (R97). -/
  | lh (d : SReg) (a : SReg) (off : BitVec 11)
  /-- LW (R97). -/
  | lw (d : SReg) (a : SReg) (off : BitVec 11)
  /-- LD (R97). -/
  | ld (d : SReg) (a : SReg) (off : BitVec 11)
  /-- LBU (R97). -/
  | lbu (d : SReg) (a : SReg) (off : BitVec 11)
  /-- LHU (R97). -/
  | lhu (d : SReg) (a : SReg) (off : BitVec 11)
  /-- LWU (R97). -/
  | lwu (d : SReg) (a : SReg) (off : BitVec 11)
  /-- SB (R97). -/
  | sb (d : SReg) (a : SReg) (off : BitVec 11)
  /-- SH (R97). -/
  | sh (d : SReg) (a : SReg) (off : BitVec 11)
  /-- SW (R97). -/
  | sw (d : SReg) (a : SReg) (off : BitVec 11)
  /-- ST (R97). -/
  | st (d : SReg) (a : SReg) (off : BitVec 11)
  /-- ST_LOCAL (R102). -/
  | stLocal (d : SReg) (a : SReg) (off : BitVec 11)
  /-- LB_L (R97). -/
  | lbL (d : SReg) (a : SReg) (off : BitVec 32)
  /-- LH_L (R97). -/
  | lhL (d : SReg) (a : SReg) (off : BitVec 32)
  /-- LW_L (R97). -/
  | lwL (d : SReg) (a : SReg) (off : BitVec 32)
  /-- LD_L (R97). -/
  | ldL (d : SReg) (a : SReg) (off : BitVec 32)
  /-- LBU_L (R97). -/
  | lbuL (d : SReg) (a : SReg) (off : BitVec 32)
  /-- LHU_L (R97). -/
  | lhuL (d : SReg) (a : SReg) (off : BitVec 32)
  /-- LWU_L (R97). -/
  | lwuL (d : SReg) (a : SReg) (off : BitVec 32)
  /-- SB_L (R97). -/
  | sbL (d : SReg) (a : SReg) (off : BitVec 32)
  /-- SH_L (R97). -/
  | shL (d : SReg) (a : SReg) (off : BitVec 32)
  /-- SW_L (R97). -/
  | swL (d : SReg) (a : SReg) (off : BitVec 32)
  /-- ST_L (R97). -/
  | stL (d : SReg) (a : SReg) (off : BitVec 32)
  /-- ST_LOCAL_L (R102). -/
  | stLocalL (d : SReg) (a : SReg) (off : BitVec 32)
  /-- ATOM_SWAP (R104). -/
  | atomSwap (ord : BitVec 2) (d : SReg) (a : SReg) (b : SReg)
  /-- ATOM_ADD (R104). -/
  | atomAdd (ord : BitVec 2) (d : SReg) (a : SReg) (b : SReg)
  /-- ATOM_AND (R104). -/
  | atomAnd (ord : BitVec 2) (d : SReg) (a : SReg) (b : SReg)
  /-- ATOM_OR (R104). -/
  | atomOr (ord : BitVec 2) (d : SReg) (a : SReg) (b : SReg)
  /-- ATOM_XOR (R104). -/
  | atomXor (ord : BitVec 2) (d : SReg) (a : SReg) (b : SReg)
  /-- ATOM_MIN (R104). -/
  | atomMin (ord : BitVec 2) (d : SReg) (a : SReg) (b : SReg)
  /-- ATOM_MAX (R104). -/
  | atomMax (ord : BitVec 2) (d : SReg) (a : SReg) (b : SReg)
  /-- ATOM_MINU (R104). -/
  | atomMinu (ord : BitVec 2) (d : SReg) (a : SReg) (b : SReg)
  /-- ATOM_MAXU (R104). -/
  | atomMaxu (ord : BitVec 2) (d : SReg) (a : SReg) (b : SReg)
  /-- ATOM_CAS (R104). -/
  | atomCas (ord : BitVec 2) (d : SReg) (a : SReg) (b : SReg)
  /-- LD_ACQ (R106). -/
  | ldAcq (d : SReg) (a : SReg)
  /-- ST_REL (R106). -/
  | stRel (a : SReg) (b : SReg)
  /-- WAITV (R107). -/
  | waitv (d : SReg) (a : SReg) (b : SReg)
  /-- PSEND (R109). -/
  | psend (a : SReg)
  /-- PRECV (R109). -/
  | precv (d : SReg)
  /-- HBREAD (R315). -/
  | hbread (d : SReg)
  /-- HBWAIT (R315). -/
  | hbwait (a : SReg)
  /-- CSRR (R110). -/
  | csrr (d : SReg) (csr : Csr)
  /-- CSRW (R110). -/
  | csrw (csr : Csr) (a : SReg)
  /-- CSRS (R110). -/
  | csrs (csr : Csr) (a : SReg)
  /-- CSRC (R110). -/
  | csrc (csr : Csr) (a : SReg)
  /-- TURN (R218). -/
  | turn (lvl : BitVec 3) (d : SReg) (a : SReg) (b : SReg)
  /-- TWAIT (R223). -/
  | twait (d : SReg) (a : SReg) (b : SReg) (timeout : BitVec 32)
  /-- CPYIN (R230). -/
  | cpyin (d : SReg) (a : BitVec 5) (b : SReg) (sz : SReg) (bar : SReg) (vdst : BitVec 1) (vg : BitVec 2) (comp : BitVec 1) (toa : BitVec 3) (aoff : BitVec 16) (boff : BitVec 16)
  /-- CPYOUT (R230). -/
  | cpyout (d : SReg) (a : SReg) (b : SReg) (sz : SReg) (bar : SReg) (comp : BitVec 1) (toa : BitVec 3) (aoff : BitVec 16) (boff : BitVec 16)
  /-- CPYREG (R238). -/
  | cpyreg (d : SReg) (a : VReg) (b : VReg) (sz : SReg) (bar : SReg) (aux : SReg) (vg : BitVec 2) (comp : BitVec 1) (toa : BitVec 3)
  /-- CPYFOLD (R239). -/
  | cpyfold (d : SReg) (a : SReg) (b : SReg) (sz : SReg) (bar : SReg) (fold : BitVec 2) (ordered : BitVec 1) (comp : BitVec 1) (toa : BitVec 3) (aoff : BitVec 16) (boff : BitVec 16)
  /-- SCPY (R240). -/
  | scpy (d : SReg) (a : SReg) (b : SReg) (sz : SReg) (bar : SReg) (comp : BitVec 1) (toa : BitVec 3) (aoff : BitVec 16) (boff : BitVec 16)
  /-- EXPORT (R246). -/
  | exportPage (d : SReg) (b : SReg)
  /-- TCPY_IN (R242). -/
  | tcpyIn (d : SReg) (a : SReg) (b : SReg) (bar : SReg) (comp : BitVec 1) (toa : BitVec 3) (t0 : BitVec 16) (t1 : BitVec 16) (t2 : BitVec 16) (t3 : BitVec 16) (aoff : BitVec 16)
  /-- TCPY_OUT (R242). -/
  | tcpyOut (d : SReg) (a : SReg) (b : SReg) (bar : SReg) (comp : BitVec 1) (toa : BitVec 3) (t0 : BitVec 16) (t1 : BitVec 16) (t2 : BitVec 16) (t3 : BitVec 16) (aoff : BitVec 16)
  /-- SBIND (R248). -/
  | sbind (d : VReg) (a : SReg)
  /-- SFREE (R248). -/
  | sfree (d : VReg)
  /-- TSPAWN (R327). -/
  | tspawn (a : SReg)
  /-- TDEP (R330). -/
  | tdep (a : SReg) (b : SReg) (d : SReg)
  /-- TDEC (R331). -/
  | tdec (a : SReg)
  /-- SFARM (R339). -/
  | sfarm (a : SReg)
  /-- SNEXT (R340). -/
  | snext (d : SReg)
  /-- LAUNCH (R303). -/
  | launch (d : SReg) (a : SReg)
  /-- TSUSP (R333). -/
  | tsusp (a : SReg) (mask : BitVec 32)
  /-- QCREATE (R353). -/
  | qcreate (d : SReg) (a : SReg)
  /-- QPUSH (R354). -/
  | qpush (d : SReg) (a : SReg) (b : SReg)
  /-- QPOP (R355). -/
  | qpop (d : SReg) (a : SReg) (b : SReg)
  /-- QINFO (R356). -/
  | qinfo (d : SReg) (a : SReg)
  /-- QCLOSE (R357). -/
  | qclose (a : SReg)
  /-- BARINIT (R367). -/
  | barinit (a : SReg) (b : SReg) (d : SReg)
  /-- BARARR (R368). -/
  | bararr (a : SReg)
  /-- BARTX (R368). -/
  | bartx (a : SReg) (b : SReg)
  /-- BARWAIT (R370). -/
  | barwait (a : SReg)
  /-- BARTEST (R370). -/
  | bartest (d : SReg) (a : SReg)
  /-- COLL (R373). -/
  | coll (d : SReg) (a : SReg) (b : SReg)
  /-- CDREG (R381). -/
  | cdreg (d : SReg) (a : SReg) (b : SReg)
  /-- RUQUERY (R406). -/
  | ruquery (d : SReg) (a : SReg)
  /-- RUINVAL (R406). -/
  | ruinval (a : SReg)
  /-- RUSTAT (R408). -/
  | rustat (d : SReg) (a : SReg)
  /-- RUFLUSH (R409). -/
  | ruflush (a : SReg)
  /-- CHSEND (R170). -/
  | chsend (c : BitVec 5) (a : VReg)
  /-- CHSEND_S (R170). -/
  | chsendS (c : BitVec 5) (a : SReg)
  /-- CHRECV (R171). -/
  | chrecv (d : VReg) (c : BitVec 5)
  /-- CHRECV_S (R171). -/
  | chrecvS (d : SReg) (c : BitVec 5)
  /-- VADD (R125). -/
  | vadd (xs : BitVec 1) (k : MReg) (d : VReg) (a : VReg) (b : BitVec 5)
  /-- VSUB (R125). -/
  | vsub (xs : BitVec 1) (k : MReg) (d : VReg) (a : VReg) (b : BitVec 5)
  /-- VMUL (R125). -/
  | vmul (xs : BitVec 1) (k : MReg) (d : VReg) (a : VReg) (b : BitVec 5)
  /-- VDIV (R125). -/
  | vdiv (xs : BitVec 1) (k : MReg) (d : VReg) (a : VReg) (b : BitVec 5)
  /-- VMIN (R125). -/
  | vmin (xs : BitVec 1) (k : MReg) (d : VReg) (a : VReg) (b : BitVec 5)
  /-- VMAX (R125). -/
  | vmax (xs : BitVec 1) (k : MReg) (d : VReg) (a : VReg) (b : BitVec 5)
  /-- VAND (R126). -/
  | vand (xs : BitVec 1) (k : MReg) (d : VReg) (a : VReg) (b : BitVec 5)
  /-- VOR (R126). -/
  | vor (xs : BitVec 1) (k : MReg) (d : VReg) (a : VReg) (b : BitVec 5)
  /-- VXOR (R126). -/
  | vxor (xs : BitVec 1) (k : MReg) (d : VReg) (a : VReg) (b : BitVec 5)
  /-- VSLL (R126). -/
  | vsll (xs : BitVec 1) (k : MReg) (d : VReg) (a : VReg) (b : BitVec 5)
  /-- VSRL (R126). -/
  | vsrl (xs : BitVec 1) (k : MReg) (d : VReg) (a : VReg) (b : BitVec 5)
  /-- VSRA (R126). -/
  | vsra (xs : BitVec 1) (k : MReg) (d : VReg) (a : VReg) (b : BitVec 5)
  /-- VFMA (R125). -/
  | vfma (xs : BitVec 1) (k : MReg) (d : VReg) (a : VReg) (b : BitVec 5)
  /-- VFMS (R125). -/
  | vfms (xs : BitVec 1) (k : MReg) (d : VReg) (a : VReg) (b : BitVec 5)
  /-- VABS (R127). -/
  | vabs (k : MReg) (d : VReg) (a : VReg)
  /-- VNEG (R127). -/
  | vneg (k : MReg) (d : VReg) (a : VReg)
  /-- VSQRT (R127). -/
  | vsqrt (k : MReg) (d : VReg) (a : VReg)
  /-- VRCP (R127). -/
  | vrcp (k : MReg) (d : VReg) (a : VReg)
  /-- VRSQ (R127). -/
  | vrsq (k : MReg) (d : VReg) (a : VReg)
  /-- VEXP2 (R127). -/
  | vexp2 (k : MReg) (d : VReg) (a : VReg)
  /-- VLOG2 (R127). -/
  | vlog2 (k : MReg) (d : VReg) (a : VReg)
  /-- VTANH (R127). -/
  | vtanh (k : MReg) (d : VReg) (a : VReg)
  /-- VSIGM (R127). -/
  | vsigm (k : MReg) (d : VReg) (a : VReg)
  /-- VMOV (R128). -/
  | vmov (k : MReg) (d : VReg) (a : VReg)
  /-- VCEQ (R129). -/
  | vceq (xs : BitVec 1) (k : MReg) (d : MReg) (a : VReg) (b : BitVec 5)
  /-- VCNE (R129). -/
  | vcne (xs : BitVec 1) (k : MReg) (d : MReg) (a : VReg) (b : BitVec 5)
  /-- VCLT (R129). -/
  | vclt (xs : BitVec 1) (k : MReg) (d : MReg) (a : VReg) (b : BitVec 5)
  /-- VCLE (R129). -/
  | vcle (xs : BitVec 1) (k : MReg) (d : MReg) (a : VReg) (b : BitVec 5)
  /-- VCGT (R129). -/
  | vcgt (xs : BitVec 1) (k : MReg) (d : MReg) (a : VReg) (b : BitVec 5)
  /-- VCGE (R129). -/
  | vcge (xs : BitVec 1) (k : MReg) (d : MReg) (a : VReg) (b : BitVec 5)
  /-- MAND (R130). -/
  | mand (d : MReg) (a : MReg) (b : MReg)
  /-- MOR (R130). -/
  | mor (d : MReg) (a : MReg) (b : MReg)
  /-- MXOR (R130). -/
  | mxor (d : MReg) (a : MReg) (b : MReg)
  /-- MNOT (R130). -/
  | mnot (d : MReg) (a : MReg)
  /-- VMERGE (R131). -/
  | vmerge (xs : BitVec 1) (k : MReg) (d : VReg) (a : VReg) (b : BitVec 5)
  /-- VCVT (R132). -/
  | vcvt (k : MReg) (d : VReg) (a : VReg)
  /-- VQNT (R133). -/
  | vqnt (k : MReg) (d : VReg) (a : VReg)
  /-- VHAD (R160). -/
  | vhad (d : VReg) (a : VReg) (b : BitVec 5)
  /-- VTAG (R113). -/
  | vtag (sc : BitVec 1) (blk : BitVec 3) (bank : BitVec 2) (type : BitVec 6) (d : VReg)
  /-- VCONF (R55). -/
  | vconf (wid : BitVec 3) (sat : BitVec 2) (rm : BitVec 2) (grp : BitVec 3) (d : SReg) (a : SReg)
  /-- VCONF_R (R55). -/
  | vconfR (d : SReg) (a : SReg) (b : SReg)
  /-- VLD (R135). -/
  | vld (k : MReg) (d : VReg) (a : SReg)
  /-- VST (R135). -/
  | vst (k : MReg) (d : VReg) (a : SReg)
  /-- VLDS (R135). -/
  | vlds (k : MReg) (d : VReg) (a : SReg) (b : SReg)
  /-- VSTS (R135). -/
  | vsts (k : MReg) (d : VReg) (a : SReg) (b : SReg)
  /-- VLDX (R136). -/
  | vldx (k : MReg) (d : VReg) (a : SReg) (b : VReg)
  /-- VLDFF (R137). -/
  | vldff (k : MReg) (d : VReg) (a : SReg)
  /-- VSCADD (R138). -/
  | vscadd (k : MReg) (d : VReg) (a : SReg) (b : VReg)
  /-- VSPILL (R120). -/
  | vspill (d : VReg) (a : SReg)
  /-- VRELOAD (R120). -/
  | vreload (d : VReg) (a : SReg)
  /-- VLENQ (R120). -/
  | vlenq (d : SReg)
  /-- SCLD (R159). -/
  | scld (d : KReg) (a : SReg) (b : SReg)
  /-- VSLIDEUP (R140). -/
  | vslideup (k : MReg) (d : VReg) (a : VReg) (b : SReg)
  /-- VSLIDEDN (R140). -/
  | vslidedn (k : MReg) (d : VReg) (a : VReg) (b : SReg)
  /-- VSHUF (R141). -/
  | vshuf (xs : BitVec 1) (k : MReg) (d : VReg) (a : VReg) (b : BitVec 5)
  /-- VCOMPRESS (R142). -/
  | vcompress (k : MReg) (d : VReg) (a : VReg)
  /-- VSPLAT (R143). -/
  | vsplat (k : MReg) (d : VReg) (a : SReg)
  /-- VINS (R143). -/
  | vins (d : VReg) (a : SReg) (b : SReg)
  /-- VEXT (R143). -/
  | vext (d : SReg) (a : VReg) (b : SReg)
  /-- VRED_SUM (R144). -/
  | vredSum (k : MReg) (d : VReg) (a : VReg)
  /-- VRED_MIN (R144). -/
  | vredMin (k : MReg) (d : VReg) (a : VReg)
  /-- VRED_MAX (R144). -/
  | vredMax (k : MReg) (d : VReg) (a : VReg)
  /-- VRED_AND (R144). -/
  | vredAnd (k : MReg) (d : VReg) (a : VReg)
  /-- VRED_OR (R144). -/
  | vredOr (k : MReg) (d : VReg) (a : VReg)
  /-- VRED_XOR (R144). -/
  | vredXor (k : MReg) (d : VReg) (a : VReg)
  /-- VRED_MINI (R144). -/
  | vredMini (k : MReg) (d : VReg) (a : VReg)
  /-- VRED_MAXI (R144). -/
  | vredMaxi (k : MReg) (d : VReg) (a : VReg)
  /-- VSCAN_ADD (R164). -/
  | vscanAdd (k : MReg) (d : VReg) (a : VReg) (cin : CarryIn) (cout : CarryOut)
  /-- VSCAN_MAX (R164). -/
  | vscanMax (k : MReg) (d : VReg) (a : VReg) (cin : CarryIn) (cout : CarryOut)
  /-- VSCAN_MIN (R164). -/
  | vscanMin (k : MReg) (d : VReg) (a : VReg) (cin : CarryIn) (cout : CarryOut)
  /-- VSCAN_LIN (R164). -/
  | vscanLin (k : MReg) (d : VReg) (a : VReg) (b : VReg) (cin : CarryIn) (cout : CarryOut)
  /-- MOP (R150). -/
  | mop (k : MReg) (d : AReg) (a : VReg) (b : VReg) (cmask : MReg)
  /-- MZERO (R152). -/
  | mzero (d : AReg)
  /-- MROW (R153). -/
  | mrow (k : MReg) (d : VReg) (a : AReg) (row : BitVec 7)
  /-- MCOL (R153). -/
  | mcol (k : MReg) (d : VReg) (a : AReg) (row : BitVec 7)
  /-- MWROW (R154). -/
  | mwrow (d : AReg) (a : VReg) (row : BitVec 7)
  /-- DADD (R187). -/
  | dadd (d : DReg) (a : DReg) (b : DReg)
  /-- DSUB (R187). -/
  | dsub (d : DReg) (a : DReg) (b : DReg)
  /-- DMUL (R187). -/
  | dmul (d : DReg) (a : DReg) (b : DReg)
  /-- DMIN (R187). -/
  | dmin (d : DReg) (a : DReg) (b : DReg)
  /-- DMAX (R187). -/
  | dmax (d : DReg) (a : DReg) (b : DReg)
  /-- DFMA (R187). -/
  | dfma (d : DReg) (a : DReg) (b : DReg)
  /-- DAFF (R188). -/
  | daff (xs : BitVec 1) (d : DReg) (a : DReg) (b : BitVec 5)
  /-- DPT (R189). -/
  | dpt (d : DReg) (a : VReg)
  /-- DSET (R189). -/
  | dset (d : DReg) (a : VReg) (b : BitVec 5)
  /-- DGET (R189). -/
  | dget (d : VReg) (a : DReg) (b : BitVec 5)
  /-- DTAG (R189). -/
  | dtag (d : DReg) (a : SReg)
  /-- DMOM (R190). -/
  | dmom (d : VReg) (a : DReg) (b : BitVec 5)
  /-- DQNT (R191). -/
  | dqnt (d : VReg) (a : DReg) (b : VReg)
  /-- DCDF (R191). -/
  | dcdf (d : VReg) (a : DReg) (b : VReg)
  /-- DLD (R192). -/
  | dld (d : DReg) (a : SReg)
  /-- DST (R192). -/
  | dst (d : DReg) (a : SReg)
  /-- FMTSET (R68). -/
  | fmtset (nf : BitVec 3) (a : SReg)
  /-- HINT (R53). -/
  | hint (h : BitVec 24)
  /-- HINT_64 (R53). -/
  | hint64 (h : BitVec 24) (p1 : BitVec 32)
  /-- HINT_96 (R53). -/
  | hint96 (h : BitVec 24) (p1 : BitVec 32) (p2 : BitVec 32)
  /-- HINT_160 (R53). -/
  | hint160 (h : BitVec 24) (p1 : BitVec 32) (p2 : BitVec 32) (p3 : BitVec 32) (p4 : BitVec 32)
  /-- FENCE_CORE (R269). -/
  | fenceCore
  /-- FENCE_QUAD (R269). -/
  | fenceQuad
  /-- FENCE_DIE (R269). -/
  | fenceDie
  /-- FENCE_DEV (R269). -/
  | fenceDev
  /-- FENCE_FAB (R269). -/
  | fenceFab
  /-- FENCE_ENG (R269). -/
  | fenceEng
  /-- FENCE_SC (R270). -/
  | fenceSc
  /-- ECALL (R286). -/
  | ecall
  /-- EBREAK (R286). -/
  | ebreak
  /-- ERET (R285). -/
  | eret
  /-- TDONE (R328). -/
  | tdone
  /-- MAXLEN_WRITE (R29). -/
  | maxlenWrite
  /-- COPY_START (R235). -/
  | copyStart
  /-- COPY_ATOM (R230). -/
  | copyAtom
  /-- SCPY_STAMP (R240). -/
  | scpyStamp
  /-- TOKEN_WRITE (R231). -/
  | tokenWrite
  /-- STREAM_REFILL (R249). -/
  | streamRefill
  /-- GATHER_SERVE (R250). -/
  | gatherServe
  /-- SCATTER_UPDATE (R251). -/
  | scatterUpdate
  /-- DISPATCH (R324). -/
  | dispatch
  /-- QUEUE_REFILL (R349). -/
  | queueRefill
  /-- COLLECTIVE_RUN (R373). -/
  | collectiveRun
  /-- HIT_COPY_DONE (R392). -/
  | hitCopyDone
  /-- INSERTION_DONE (R399). -/
  | insertionDone
  /-- MESSAGE_ARRIVAL (R173). -/
  | messageArrival
  /-- TRAP_RECORD_WRITE (R288). -/
  | trapRecordWrite
  /-- ENGERR_ASYNC (R287). -/
  | engerrAsync
  /-- REPLY_RESUME (R290). -/
  | replyResume
  /-- REPLY_RESUME_AT (R290). -/
  | replyResumeAt
  /-- REPLY_RETURN (R290). -/
  | replyReturn
  /-- REPLY_DELIVER (R290). -/
  | replyDeliver
  /-- REPLY_KILL (R290). -/
  | replyKill
  /-- REPLY_SKIP (R290). -/
  | replySkip
  /-- SLOT_SWAP (R275). -/
  | slotSwap
  /-- FAIR_SHARE_EXPIRY (R311). -/
  | fairShareExpiry
  /-- CONTEXT_SAVE (R276). -/
  | contextSave
  /-- SAVE_DONE (R273). -/
  | saveDone
  /-- CONTEXT_RESTORE (R277). -/
  | contextRestore
  /-- RESTORE_DONE (R273). -/
  | restoreDone
  /-- PREEMPTION (R308). -/
  | preemption
  /-- DOORBELL (R302). -/
  | doorbell
  /-- KQ_ENTRY_TAKE (R302). -/
  | kqEntryTake
  /-- PLACEMENT (R306). -/
  | placement
  /-- AGING_STEP (R305). -/
  | agingStep
  /-- LAUNCH_TICK (R309). -/
  | launchTick
  /-- TIMED_START_SWAP (R309). -/
  | timedStartSwap
  /-- KERNEL_RETIRE (R313). -/
  | kernelRetire
  /-- WATCHDOG (R314). -/
  | watchdog
  /-- HEARTBEAT_TICK (R34). -/
  | heartbeatTick
  /-- PAGE_WALK_DONE (R199). -/
  | pageWalkDone
  /-- XINV_PAGE (R202). -/
  | xinvPage
  /-- XINV_TENANT (R202). -/
  | xinvTenant
  /-- XINV_ALL (R202). -/
  | xinvAll
  /-- MIGCMD_GO (R207). -/
  | migcmdGo
  /-- HOT_WINDOW_END (R205). -/
  | hotWindowEnd
  /-- MIGRATION_SWITCH (R204). -/
  | migrationSwitch
  /-- RUQUOTA_WRITE (R384). -/
  | ruquotaWrite
  /-- RUPOOL_WRITE (R385). -/
  | rupoolWrite
  /-- HOST_MEM_READ (R216). -/
  | hostMemRead
  /-- HOST_MEM_WRITE (R213). -/
  | hostMemWrite
  /-- HOST_REG_WRITE (R11). -/
  | hostRegWrite
  /-- ALARMPOL_WRITE (R445). -/
  | alarmpolWrite
  /-- FW_GO (R448). -/
  | fwGo
  /-- FW_VERIFY_DONE (R448). -/
  | fwVerifyDone
  /-- TKEY_WRITE (R449). -/
  | tkeyWrite
  /-- TKCTL_LOAD (R449). -/
  | tkctlLoad
  /-- TKCTL_ERASE (R386). -/
  | tkctlErase
  /-- TRESET_GO (R450). -/
  | tresetGo
  /-- FUNCTION_LEVEL_RESET (R450). -/
  | functionLevelReset
  /-- SECURITY_ALARM (R449). -/
  | securityAlarm
  /-- COLD_RESET (R451). -/
  | coldReset
  /-- WARM_RESET (R451). -/
  | warmReset
  /-- HBM_READY (R451). -/
  | hbmReady
  /-- FREEZE (R452). -/
  | freeze
  /-- IDCODE (R453). -/
  | idcode
  /-- BYPASS (R453). -/
  | bypass
  /-- UNLOCK (R453). -/
  | unlock
  /-- READOUT (R453). -/
  | readout
  /-- PATROL_SCRUB (R454). -/
  | patrolScrub
  /-- HALF_WIDTH (R455). -/
  | halfWidth
  /-- FULL_WIDTH (R455). -/
  | fullWidth
  /-- POWER_GATE (R456). -/
  | powerGate
  /-- TRAINING_DONE (R418). -/
  | trainingDone
  /-- TRAINING_FAIL (R418). -/
  | trainingFail
  /-- FLIT_RECEIVE (R419). -/
  | flitReceive
  /-- NAK_RECEIVE (R419). -/
  | nakReceive
  /-- ACK_RECEIVE (R417). -/
  | ackReceive
  /-- NAK_REPEAT (R419). -/
  | nakRepeat
  /-- NAK_TIMEOUT (R418). -/
  | nakTimeout
  /-- PACKET_DELIVER (R423). -/
  | packetDeliver
  /-- ROUTER_SLEEP (R424). -/
  | routerSleep
  /-- WAKE (R424). -/
  | wake
  /-- DEADLOCK_PROBE_SEND (R425). -/
  | deadlockProbeSend
  /-- PROBE_RECEIVE (R425). -/
  | probeReceive
  /-- DEADLOCK_STEP (R425). -/
  | deadlockStep
  /-- PROBE_RETRY (R425). -/
  | probeRetry
  /-- TWAIT_TIMEOUT (R223). -/
  | twaitTimeout
  /-- CXL_CACHE_SNOOP (R208). -/
  | cxlCacheSnoop
deriving DecidableEq, Repr

end Sys2Proof
end

