-- ==== Sys2Proof/Machine/State.lean ====
section
/-! DEFINITION. The state of the device: everything the spec gives the machine, as plain data, and its value at
reset. INVENTORY.md lists every field with the rule that names it. -/

namespace Sys2Proof.Machine

/-- A list of values by key, in rising order of key, without a default. -/
abbrev Table (α : Type) := List (Nat × α)

/-- The turn levels (03_encoding R46, 09_page R212). -/
inductive Level where
  | none | core | quad | die | dev | host
deriving DecidableEq, Repr

/-- The causes of 12_context R278. -/
inductive Cause where
  | illegal | illvtype | illfmt | pagefault | pageattr | misalign | turnfault | turnfull | chanlen | purity | depunder
  | object | engerr | eccfatal | ecall | ebreak | preempt
deriving DecidableEq, Repr

/-- A trap before it is taken: what TRAPINFO and TRAPADDR will say (R279, R280). -/
structure Trap where
  cause  : Cause
  acc    : Nat := 0
  level  : Level := .none
  writer : Nat := 0
  detail : Nat := 0
  elem   : Nat := 0
  addr   : Word := 0
deriving DecidableEq, Repr

/-- A hart by its context and its kind. -/
structure HartRef where
  cid  : Nat
  kind : HartKind
deriving DecidableEq, Repr

/-- The states of a context (12_context R272). -/
inductive SlotState where
  | free | resident | issuing | held | saving | saved | restoring
deriving DecidableEq, Repr

/-- The dispatch states of a hart (14_group R318). -/
inductive Dispatch where
  | root | task | idle
deriving DecidableEq, Repr

/-- A task record w0–w7 (14_group R319): w0, w1, w2 and the arguments w3–w7. -/
structure TaskRec where
  w0   : Word
  w1   : Word
  w2   : Word
  args : List Word
deriving DecidableEq, Repr

/-- Where a pure task stands (17_reuse R390–R399): its lookup, its run, the copy of a hit, the retirement of a hit that
has been copied, its insertion. -/
inductive PurePhase where
  | lookup
  | run
  | hit (entry : Nat)
  | retire
  | insert
deriving DecidableEq, Repr

/-- A key of a pure task with what a claim for it needs (17_reuse R387, R388, R401): the code slot, and the 64 KiB frames
of the inputs and of the code. -/
structure Keyed where
  key    : List Byte
  slot   : Nat
  reads  : List Nat              -- frames of input pages that the task's core reads
  inputs : List Nat              -- frames of input pages, of a REPL page those of every replica (R401)
  code   : List Nat
deriving DecidableEq, Repr

/-- The pure state of a task (17_reuse R391). -/
structure PureState where
  phase   : PurePhase
  desc    : Nat                  -- address of the 320 descriptor bytes
  inputs  : List (Nat × Nat)     -- start and length
  outputs : List (Nat × Nat)
  code    : Word
  byAddr  : Bool                 -- RMODE
  demote  : Bool                 -- POLICY
  fill    : Bool                 -- WAITFILL
  w0      : Word
  args    : List Word            -- of its record, until it starts
  cores   : List Nat             -- cores that have run the task
  key     : Option Keyed         -- none while no lookup has formed one
  claim   : Option Nat           -- the reuse entry it has claimed
deriving DecidableEq, Repr

/-- The watch of a waiting WAITV (05_scalar R107). -/
structure Watch where
  ref  : HartRef
  pa   : Nat
  want : Word
  hit  : Bool
deriving DecidableEq, Repr

/-- An output granule of a pure task between the raise of its TDONE and the reading of its insertion (17_reuse R399):
dirty once it has been written. -/
structure OutWatch where
  ref   : HartRef
  key   : Nat
  dirty : Bool
deriving DecidableEq, Repr

/-- An arrival record (16_barrier R364). -/
structure Arrival where
  arrph : BitVec 32
  a     : Bool
  c     : Bool
deriving DecidableEq, Repr

/-- The page kinds (02_machine R37, 09_page R196). -/
inductive PageKind where
  | stream | sync | repl | comp | pool | hostmem
deriving DecidableEq, Repr

/-- Where an address lies: its kind, the physical address of the copy the reader uses, every copy, the place of its
page, and the leaf's flags. -/
structure Place where
  kind   : PageKind
  pa     : Nat
  copies : List Nat
  pageVa : Nat
  frame  : Nat
  shift  : Nat
  pin    : Bool
  loose  : Bool
  home   : Nat
  leafAt : Nat
  leaf   : Word
deriving DecidableEq, Repr

/-- Where an access lies: in one window, or on pages. -/
inductive Region where
  | window (inbound : Bool) (off : Nat)
  | pages (ps : List (Place × Nat × Nat))   -- the place, the virtual address and the length of each piece
deriving DecidableEq, Repr

/-- An unaligned store that has passed its checks and has written some of its bytes (05_scalar R99, R100): the length of the
instruction and the registers it reads, the address, the bytes, where they go, and the places of the bytes still to be
written. -/
structure Split where
  len       : Nat
  reads     : List SReg
  base      : Nat
  data      : List Byte
  localOnly : Bool
  region    : Region
  left      : List Nat
deriving DecidableEq, Repr

/-- A wait of TWAIT that has begun (09_page R223): destination, start and length of the region, its bound in cycles, and
HB when it began. -/
structure TWait where
  d       : SReg
  start   : Nat
  len     : Nat
  timeout : Nat
  since   : Word
deriving DecidableEq, Repr

/-- A hart (02_machine R20, R30). -/
structure Hart where
  pc       : Word
  regs     : Sparse Word          -- s1–s31, 0 unlisted
  busy     : List Nat             -- registers that wait for a token or a vector result (R232, R143)
  unread   : List Nat             -- registers whose unread-error bit is set (R287)
  fflags   : BitVec 14            -- R33
  trapinfo : Word                 -- R279
  trapaddr : Word                 -- R280
  dispatch : Dispatch             -- R318
  w1       : Word                 -- task state, R322
  w2       : Word
  pure     : Option PureState     -- 17_reuse R391
  farm     : Nat                  -- R338
  arrivals : Table Arrival        -- R364, by handle
  twait    : Option TWait         -- R223
  barwait  : Option (BitVec 32)   -- the PHASE a BARWAIT without an arrival took at issue (R370)
  fenceHb  : Option Word          -- HB when a waiting FENCE.SC had drained (11_ordering R270)
  part     : Table Byte           -- bytes that its unaligned load has read so far, by place (05_scalar R100)
  split    : Option Split         -- its unaligned store under way (05_scalar R99, R100)
  pendCsr  : Option (Csr × Word)  -- a write that waits for other units (R202, R385, R29, R207)
  engErr   : List Word            -- status words of asynchronous ENGERRs (R287), oldest first
  yielding : Bool                 -- in a yielding wait (R310)
  stalled  : Option Nat           -- the trap record of a translation fault that stalls the hart (R291)
deriving DecidableEq, Repr

/-- A hart after reset, before a context starts on it. -/
def Hart.reset : Hart :=
  { pc := 0, regs := [], busy := [], unread := [], fflags := 0, trapinfo := 0, trapaddr := 0, dispatch := .idle,
    w1 := 0, w2 := 0, pure := none, farm := 0, arrivals := [], twait := none, barwait := none,
    fenceHb := none, part := [], split := none, pendCsr := none, engErr := [], yielding := false, stalled := none }

/-- What a VSCADD adds where (06_vector R138): an address, its physical address as it was checked, the merged partial and
the flags of its merging. -/
structure Target where
  va    : Nat
  pa    : Nat
  part  : Nat
  flags : BitVec 5
deriving DecidableEq, Repr

/-- The updates of a VSCADD, as its checks found them: its targets, and the fault of its first faulting element. -/
structure Scatter where
  targets : List Target
  fault   : Option Trap
deriving DecidableEq, Repr

/-- An entry of the vector instruction queue (02_machine R20, 12_context R284). -/
structure VEntry where
  instr  : Instr
  addr   : Word
  ops    : List Word              -- scalar operands as captured at push
  vl     : Nat
  vtype  : BitVec 11
  epoch  : Nat                    -- well-formed VCONFs before it in program order (R54)
  step   : Nat                    -- elements below this one have been performed (a wait inside an entry)
  scatter : Option Scatter        -- of a VSCADD whose updates have begun (06_vector R138)
  marks  : List Nat               -- those of its targets that have been updated (10_copies R251)
  popped : Bool                   -- its strips have been popped (10_copies R249)
  job    : Option Nat             -- a request that another unit serves (gather, scatter, channel)
  flags  : BitVec 5               -- raised so far; they are committed with the instruction (R33)
  index  : List Nat               -- the addresses that a gather took when it was first served (06_vector R115)
  outside : Bool                  -- fetched from outside the code of its pure task (17_reuse R396, detail 8)
deriving DecidableEq, Repr

/-- The VIQ image of a trap at VCP (12_context R284), with VL and VTYPE at SPC. -/
structure Image where
  entries : List VEntry
  vl      : Nat
  vtype   : BitVec 11
  epoch   : Nat
deriving DecidableEq, Repr

/-- An element of a stream that a refill has buffered (10_copies R249): its bits, and of what the refill read for it the
addresses with their lengths and the granules. -/
structure Buffered where
  word  : BitVec 64
  reads : List (Nat × Nat)
  keys  : List Nat
deriving DecidableEq, Repr

/-- A bound stream (10_copies R248, R249). -/
structure Stream where
  desc   : List Word              -- the eight doublewords of the descriptor
  pos    : Nat                    -- k
  strips : List (List Buffered)   -- elements buffered by refills, at most two strips
deriving DecidableEq, Repr

/-- A continuation (14_group R333). -/
structure Cont where
  id    : Nat
  pc    : Word
  saved : List (Nat × Word)
  mask  : BitVec 32
  reg   : Nat                     -- the register that receives the token
  kind  : HartKind
  w1    : Word
  w2    : Word
  pure  : Option PureState
  token : Option Word
  ready : Bool                    -- it has entered the ready queue
deriving DecidableEq, Repr

/-- The kind of an accumulator tile (07_matrix R145). -/
inductive TileKind where
  | float | int
deriving DecidableEq, Repr

/-- A context (02_machine R25, R30; 12_context R272). -/
structure Ctx where
  slotState : SlotState
  core      : Nat
  slot      : Nat
  kernel    : Nat                 -- the kernel's place in State.kernels
  member    : Nat
  full      : Bool                -- FULL or HALF (R24)
  super     : Bool                -- SUPER or USER (R38)
  tenant    : Nat
  ch        : Hart
  fh        : Hart
  dh        : Hart
  vl        : Nat                 -- in force at the front end (R54)
  vtype     : BitVec 11           -- bits 10–0
  epoch     : Nat
  vfill     : Word
  maxlen    : BitVec 2
  vcp       : Word
  spc       : Word
  trapvec   : Word                -- EN and BASE (R281)
  handler   : Option HartKind     -- the hart in its handler; INH is set while there is one
  v         : Sparse Byte         -- byte i of v[r] under r × 12,288 + i
  vtag      : Sparse (BitVec 12)  -- 0x01A unlisted (06_vector R112)
  m         : Sparse (BitVec 1)   -- bit i of m[r] under r × 98,304 + i
  tile      : Sparse (BitVec 32)  -- word (row, col) of a[r] under (r × 128 + row) × 128 + col
  tileKind  : Sparse TileKind
  sorus     : Sparse (BitVec 32)  -- of d[r]: values and weights (08_sorus R181)
  lineage   : Sparse (BitVec 8)
  scale     : Sparse (BitVec 16)  -- entry j of k[r] under r × 512 + j
  scaleMode : Sparse (BitVec 1)   -- 0 K8, 1 K16 (06_vector R158)
  nf        : Sparse (BitVec 32)
  isw       : Sparse Byte         -- the IS window
  osw       : Sparse Byte         -- the OS window
  pipeIn    : List Word
  pipeOut   : List Word
  viq       : List VEntry
  image     : Option Image
  streams   : Table Stream        -- by vector register
  deque     : List TaskRec        -- head first
  conts     : List Cont
  xtsel     : Word                -- 09_page R201
  migva     : Word
  migstat   : Word
  rutsel    : Word                -- 17_reuse R383
  imaged    : Bool                -- SAVING: the engine has begun the image (R276)
  imgCause  : Nat                 -- the cause that its saved image records (R278)
deriving DecidableEq, Repr

/-- A context that holds no kernel. -/
def Ctx.reset : Ctx :=
  { slotState := .free, core := 0, slot := 0, kernel := 0, member := 0, full := true, super := false, tenant := 0,
    ch := Hart.reset, fh := Hart.reset, dh := Hart.reset, vl := 0, vtype := 0x400, epoch := 0, vfill := 0,
    maxlen := 3, vcp := 0, spc := 0, trapvec := 0, handler := none, v := [], vtag := [], m := [], tile := [],
    tileKind := [], sorus := [], lineage := [], scale := [], scaleMode := [], nf := [], isw := [], osw := [],
    pipeIn := [], pipeOut := [], viq := [], image := none, streams := [], deque := [], conts := [], xtsel := 0,
    migva := 0, migstat := 0, rutsel := 0, imaged := false, imgCause := 0 }

/-- The turn state of a granule that is not CLEAN (09_page R212). -/
structure Gran where
  writer : Nat
  level  : Level
  tenant : Nat
  comp   : Option Nat             -- the address of the COMP page of which it is a logical granule (R208)
deriving DecidableEq, Repr

/-- The write generation of a 64 KiB page (09_page R210) and whether it was read since its last change. -/
structure WGen where
  gen  : Word
  read : Bool
deriving DecidableEq, Repr

/-- A migration under way (09_page R204). -/
structure Migration where
  id       : Nat
  tenant   : Nat
  va       : Nat
  src      : Nat
  dst      : Nat
  leafAddr : Nat
  leafWord : Word
  starter  : Option Nat           -- the context of a MIGCMD; none for the tracker
  die      : Nat                  -- the die whose reserve gave the frame
deriving DecidableEq, Repr

/-- A cached translation (09_page R199): a leaf of a tenant's tree. -/
structure TlbEntry where
  tenant : Nat
  va     : Nat
  shift  : Nat                    -- log2 of the page size
  leaf   : Word
  frames : List Nat               -- of a REPL page: the frame of each die's replica, as its descriptor read then (R209)
deriving DecidableEq, Repr

/-- Where a copy's status word goes (10_copies R231, 14_group R333). -/
inductive TokenDest where
  | none
  | reg (r : Nat)
  | cont (id : Nat)
deriving DecidableEq, Repr

/-- A command of a copy queue (10_copies R225). -/
structure CopyCmd where
  id      : Nat
  ref     : HartRef
  core    : Nat
  instr   : Instr
  dst     : Word
  src     : Word
  len     : Word
  bar     : Option Word           -- the handle read at issue
  aux     : Word                  -- CPYREG: the target; TCPY: the descriptor address
  tok     : TokenDest
  started : Bool
  desc    : List Word             -- the tensor descriptor, read at the start
  moved   : List Nat              -- atoms that have been moved
  upTo    : Nat                   -- bytes moved so far, where they are moved in ascending order (R245)
  landing : Table (List Byte)     -- atoms of a register group that wait for their element group to land (R237)
  retired : Nat                   -- atoms retired, in ascending order
  posted  : Nat                   -- bytes posted to the barrier
  fail    : Option (Nat × Nat × Nat)  -- the lowest failing atom, its code and INFO
  status  : Option Word           -- the status word, once the copy has ended
  record  : Option Nat            -- the trap record it waits on (R291)
  stamped : Bool                  -- SCPY: the stamp is written
deriving DecidableEq, Repr

/-- A declared channel (13_kernel R298). -/
structure ChanDecl where
  smem   : Nat
  shart  : HartKind
  rmem   : Nat
  rhart  : HartKind
  slots  : Nat
  status : Nat
deriving DecidableEq, Repr

/-- A message of a channel (07_matrix R168). -/
structure Msg where
  scalar   : Bool
  vals     : List (BitVec 64)     -- the scalar, or the stored bits of the elements
  tag      : BitVec 12            -- the sender's tag
  len      : Nat                  -- n
  beats    : Nat
  complete : Bool                 -- its last beat has arrived
deriving DecidableEq, Repr

/-- A channel of a kernel (07_matrix R166–R171). -/
structure Chan where
  decl   : ChanDecl
  msgs   : List Msg               -- oldest first
  sent   : Nat
  taken  : Nat
deriving DecidableEq, Repr

/-- The states of a kernel (13_kernel R294). -/
inductive KState where
  | submitted | queued | placed | running | preempted | draining | retired | faulted
deriving DecidableEq, Repr

/-- A launch record (13_kernel R296–R298). -/
structure LaunchRec where
  entryCh : Word
  entryFh : Word
  entryDh : Word
  shape   : Word
  tick    : Word
  trapvec : Word
  save    : Word
  ring    : Word
  compl   : Word
  watch   : Word
  args    : List Word
  dw15    : Word
  chans   : List (Word × Word)
deriving DecidableEq, Repr

/-- What stands in a group ready queue (14_group R323). -/
inductive ReadyItem where
  | record (r : TaskRec)
  | cont (cid id : Nat) (prio : Nat) (kind : HartKind)
deriving DecidableEq, Repr

/-- A kernel (13_kernel R294) with its group (14_group R317) and its channels. -/
structure Kernel where
  number    : BitVec 32
  state     : KState
  rcd       : LaunchRec
  tenant    : Nat
  super     : Bool
  half      : Bool
  prio      : Nat
  eff       : Nat
  size      : Nat                 -- members
  group     : Nat                 -- GROUP of GRPID (07_matrix R167)
  order     : Nat                 -- order of reaching QUEUED
  placedAt  : Nat                 -- order of placement
  startAt   : Option Word         -- HB value at which a timed start falls
  late      : Bool
  ran       : Nat                 -- ticks counted against WATCH
  reason    : Nat
  cores     : List Nat            -- core of member m
  quadUnit  : Nat
  dieUnit   : Nat
  qbars     : List Nat            -- units' barriers by handle index
  dbars     : List Nat
  chans     : List Chan
  ready     : List ReadyItem      -- in order of entry
  farm      : Nat
  farmN     : Nat
  farmNext  : Nat
  owed      : Bool                -- it has ended, and its completion word is still to be written (R300)
deriving DecidableEq, Repr

/-- A trap record of the supervisor ring (12_context R288–R291). -/
structure TrapRec where
  id       : Nat
  ref      : HartRef
  info     : Word
  addr     : Word
  spc      : Word
  vcp      : Word
  hb       : Word
  s10      : Word
  s11      : Word
  xlat     : Bool                 -- a translation fault, which stalls one hart or entry
  job      : Option Nat           -- the copy whose translation failed
  idle     : Bool                 -- an ENGERR of a hart without a boundary (R287)
  ringAt   : Option Nat           -- physical address of the record once it is written
  reply    : Word                 -- the first non-zero value written to REPLY (R290)
deriving DecidableEq, Repr

/-- The states of a queue window (15_queue R347). -/
inductive QState where
  | free | active | spilling | draining | closed
deriving DecidableEq, Repr

/-- A queue window with its ring (15_queue R344–R349). -/
structure Window where
  state  : QState
  gen    : BitVec 16
  tenant : Nat
  rbase  : Nat
  rcap   : Nat
  frames : List Nat               -- physical addresses of the ring's 64 KiB pages
  recs   : List (List Byte)       -- the window, head first
  rhead  : Nat
  rcount : Nat
  seq    : BitVec 32
  closedBy : Option (List HartRef × Nat)  -- while the cycle in which it was made CLOSED may go on: the harts that have issued in it from then on, and the place in it of the last operation on the queue (R347, R348)
deriving DecidableEq, Repr

/-- A window that no queue uses. -/
def Window.reset : Window :=
  { state := .free, gen := 0, tenant := 0, rbase := 0, rcap := 0, frames := [], recs := [], rhead := 0, rcount := 0,
    seq := 0, closedBy := none }

/-- An arrival of the open phase of a barrier, with the descriptor of a COLL (16_barrier R373). -/
structure BarArrival where
  ref  : HartRef
  coll : Option (List Word)
deriving DecidableEq, Repr

/-- A barrier (16_barrier R362). -/
structure Barrier where
  owner    : Option Nat           -- the kernel
  expect   : Nat
  arrived  : Nat
  pend     : BitVec 40
  ovf      : Bool
  phase    : BitVec 32
  cstat    : Word
  open_    : List BarArrival      -- arrivals of the open phase, oldest first
  running  : Bool                 -- the phase's collective runs; other changes wait
deriving DecidableEq, Repr

/-- A barrier that no kernel owns. -/
def Barrier.reset : Barrier :=
  { owner := none, expect := 0, arrived := 0, pend := 0, ovf := false, phase := 0, cstat := 0, open_ := [],
    running := false }

/-- The states of a reuse entry but EMPTY (17_reuse R389). -/
inductive EState where
  | filling | valid | dead
deriving DecidableEq, Repr

/-- An entry of the reuse table (17_reuse R388). -/
structure ReuseEntry where
  key16   : List Byte
  tenant  : Nat
  slot    : Nat
  byAddr  : Bool
  state   : EState
  imgPa   : Nat
  imgVa   : Nat                   -- the pool page in which the image lies, and log2 of the size of its leaf (R402)
  imgShift : Nat
  imgLen  : Nat
  pages   : List Nat              -- 64 KiB frames recorded in the source filters (R401)
  readers : Nat
  claimed : Bool
deriving DecidableEq, Repr

/-- A code slot of a tenant (17_reuse R382). -/
structure CodeSlot where
  used   : Bool
  gen    : BitVec 16
  start  : Nat
  len    : Nat
  digest : List Byte
  wgens  : List (Nat × Word)      -- page frame and the WGEN recorded
  frames : List Nat               -- the frames of its pages, of a REPL page those of every replica (R401)
deriving DecidableEq, Repr

/-- A kernel queue of a function (13_kernel R302). -/
structure KQueue where
  base : Word
  size : Word
  err  : Bool
  head : BitVec 32
  tail : BitVec 32
deriving DecidableEq, Repr

/-- A kernel queue at reset. -/
def KQueue.reset : KQueue := { base := 0, size := 0, err := false, head := 0, tail := 0 }

/-- What the device holds for a virtual function, and for the physical function. -/
structure Tenant where
  xroot    : Word                 -- 09_page R201
  ruquota  : Word                 -- 17_reuse R384
  rupool   : Word                 -- 17_reuse R385
  key      : Option (List Byte)   -- 17_reuse R386
  tkey     : List Word            -- staged key words, oldest first (20_system R446)
  badload  : Bool
  tsave    : Word
  texport  : Word
  slots    : Table CodeSlot
  counts   : Sparse Word          -- counters of 17_reuse R408
  kq       : Table KQueue
  killed   : List Nat             -- kernels that its last reset killed (20_system R450)
deriving DecidableEq, Repr

/-- A function at reset. -/
def Tenant.reset : Tenant :=
  { xroot := 0, ruquota := 0, rupool := 0, key := none, tkey := [], badload := false, tsave := 0,
    texport := 0, slots := [], counts := [], kq := [], killed := [] }

/-- What the device holds for a die (09_page R201, R205). -/
structure Die where
  hotctl  : Word
  hotres  : Word
  hotlog  : Word
  hotstat : Word
  spare   : List Nat              -- frames given back to the reserve out of order (R203)
  walks   : Nat                   -- walks outstanding (R199)
  hotSince : Word                 -- HB when the tracker's window began (R205)
  leaves  : List (Nat × Nat)      -- tenant and address of the pages whose leaves its walker has recorded (R205)
deriving DecidableEq, Repr

/-- A die at reset: THRESH 0x1000 and BUDGET 64 (R206). -/
def Die.reset : Die := { hotctl := 0x0000100000400000, hotres := 0, hotlog := 0, hotstat := 0,
                           spare := [], walks := 0, hotSince := 0, leaves := [] }

/-- The copy of a hit that a KILL has found under way, and that a page which is MIGRATING, or a multicast before it, keeps
from completing at once (17_reuse R412; 09_page R204; 18_link R423). -/
structure LateHit where
  ref     : HartRef
  core    : Nat
  tenant  : Nat
  outputs : List (Nat × Nat)
  entry   : Nat
deriving DecidableEq, Repr

/-- A multicast on its way to a replica (11_ordering R266). -/
structure Packet where
  id     : Nat
  seq    : BitVec 16              -- of its pair of source and destination (18_link R423)
  ref    : HartRef
  copy   : Option (Nat × Nat)     -- the copy command that writes it, and the atom
  pa     : Nat
  bytes  : List Byte
  part   : Option (Nat × Nat)     -- of a byte only these bits are written (06_vector R134): their place and number
  writer : Nat
  level  : Level
  tenant : Nat
deriving DecidableEq, Repr

/-- The data an event acts on: the job, page, record, core, kernel, context or link (a, b, c), the hart, a word, two
flags and bytes. The docstring of each event's meaning says which of these it reads. -/
structure EventArg where
  a     : Nat
  b     : Nat
  c     : Nat
  h     : HartKind
  w     : Word
  f     : Bool
  g     : Bool
  bytes : List Byte
deriving DecidableEq, Repr

/-- No data. -/
def EventArg.none : EventArg := { a := 0, b := 0, c := 0, h := .ch, w := 0, f := false, g := false, bytes := [] }

/-- A move that the schedule holds: a hart takes its turn; another agent does what a row of the table says; a hart
takes its turn and an event, or the turn of another hart, interrupts it, a TURN when its walk has come to a byte of its
region (09_page R221); or a hart takes its turn and makes, of an unaligned access, only the accesses of these bytes, in
this order (05_scalar R100); or an error comes into a half-atom of memory, lasting or such that the controller corrects it
(20_system R454). -/
inductive Move where
  | hart (r : HartRef)
  | event (i : Instr) (arg : EventArg)
  | hartUntil (r : HartRef) (at_ : Nat) (i : Instr) (arg : EventArg)
  | hartBy (r : HartRef) (at_ : Nat) (other : HartRef)
  | hartBytes (r : HartRef) (js : List Nat)
  | flip (half : Nat) (lasting : Bool)
deriving DecidableEq, Repr

/-- The states of a link (18_link R418). -/
inductive LState where
  | training | up | replay | resend | retrain | sleep | down
deriving DecidableEq, Repr

/-- A flit (18_link R417). -/
structure Flit where
  seq  : BitVec 10
  data : List Byte
  crc  : BitVec 32
deriving DecidableEq, Repr

/-- One direction of a link (18_link R417, R419, R421). -/
structure Direction where
  next   : BitVec 10              -- the sender's next sequence number
  buffer : List Flit              -- the replay buffer: sent and not acknowledged, oldest first
  expect : BitVec 10              -- the receiver's next sequence number
  held   : List Flit              -- held behind a gap
  nak    : Option (BitVec 10)     -- the sequence number of an unanswered NAK
  naks   : Nat                    -- NAKs of that number
  again  : List (BitVec 10)       -- flits that are to be sent again, oldest first
  pend   : List (BitVec 10)       -- flits of a RESEND that are not yet acknowledged
  done   : Nat                    -- flits delivered
  queue  : List (List Byte)       -- what stands in the output queue, oldest first
deriving DecidableEq, Repr

/-- A direction at reset. -/
def Direction.reset : Direction :=
  { next := 0, buffer := [], expect := 0, held := [], nak := none, naks := 0, again := [], pend := [], done := 0,
    queue := [] }

/-- A link (18_link R418): both directions share one state. -/
structure Link where
  state    : LState
  attempts : Nat
  fwd      : Direction
  bwd      : Direction
deriving DecidableEq, Repr

/-- A link at reset. -/
def Link.reset : Link := { state := .training, attempts := 0, fwd := Direction.reset, bwd := Direction.reset }

/-- A router (18_link R424, R425). -/
structure Router where
  asleep  : Bool
  buffer  : List Nat              -- packets in its blocked input buffer, the head first
  blocked : Option Nat            -- the router that its blocked head waits for
  probe   : Option Nat            -- the origin of the probe it holds
  sent    : Bool                  -- its own probe is under way
  cycle   : Bool                  -- its own probe has come back
  stepped : Bool                  -- it has sent a step command
deriving DecidableEq, Repr

/-- A router at reset. -/
def Router.reset : Router := { asleep := false, buffer := [], blocked := none, probe := none, sent := false, cycle := false,
                                 stepped := false }

/-- The counters of a die's links (18_link R426). -/
structure LinkCounts where
  resends  : BitVec 32
  replays  : BitVec 32
  retrains : BitVec 32
  probes   : BitVec 32
  steps    : BitVec 32
deriving DecidableEq, Repr

/-- Link counters at reset. -/
def LinkCounts.reset : LinkCounts := { resends := 0, replays := 0, retrains := 0, probes := 0, steps := 0 }

/-- The states of FWCTL (20_system R445). -/
inductive FwState where
  | idle | verifying | accepted | rejected
deriving DecidableEq, Repr

/-- The device block of the physical function, and the firmware and debug state (20_system R445–R449, R453). -/
structure DeviceBlock where
  alarm    : Bool
  ready    : Bool
  lastRst  : BitVec 2
  evring   : Word
  evTail   : Word                 -- the device's own copy of TAIL (R447)
  lock     : Bool
  policy   : Bool
  limit    : BitVec 16
  draw     : BitVec 32
  gate     : BitVec 8
  temp     : BitVec 8
  fabid    : BitVec 8
  fabgrp   : Word
  fwaddr   : Word
  fwState  : FwState
  fwVer    : BitVec 16
  fwSlots  : Option (BitVec 16) × Option (BitVec 16)  -- versions of the images in the two slots (R448)
  fwSecond : Bool                 -- the second slot is the active one
  fwNew    : Bool                 -- the inactive slot holds an image accepted since the cold reset
  noFw     : Bool                 -- neither slot verified at the cold reset (R448)
  fwRej    : Nat                  -- consecutive rejected images
  unlRej   : Nat                  -- consecutive failed unlocks
  causes   : List Nat             -- causes 3 and 4 for which the alarm is to fire (R449)
  devKeys  : Bool                 -- the device keys other than the identity key are present
deriving DecidableEq, Repr

/-- The device block after a cold reset. -/
def DeviceBlock.reset : DeviceBlock :=
  { alarm := false, ready := false, lastRst := 0, evring := 0, evTail := 0, lock := false, policy := false,
    limit := 2200, draw := 0, gate := 0, temp := 0, fabid := 0, fabgrp := 0, fwaddr := 0, fwState := .idle,
    fwVer := 0, fwSlots := (some 0, none), fwSecond := false, fwNew := false, noFw := false, fwRej := 0, unlRej := 0,
    causes := [], devKeys := true }

/-- Instructions of the test access port (20_system R453). -/
inductive TapInstr where
  | idcode | bypass | unlock | readout
deriving DecidableEq, Repr

/-- The test access port. -/
structure Tap where
  instr    : TapInstr
  unlocked : Bool
  out      : List Bool            -- what the port shifts out
  pos      : Nat                  -- words of the frozen state that READOUT has shifted (R453)
deriving DecidableEq, Repr

/-- A part of a sorus file that no context owns now (02_machine R26, 08_sorus R181). -/
structure SorusHalf where
  words   : Sparse (BitVec 32)
  lineage : Sparse (BitVec 8)
deriving DecidableEq, Repr

/-- What the host last received from the device. -/
structure HostAnswer where
  bytes : List Byte
  error : Bool
deriving DecidableEq, Repr

/-- The whole device and, in the last nine fields, the model's own state (notes/assumptions/1, 6, 7). -/
structure State where
  mem      : Sparse Byte          -- device physical memory
  hostMem  : Sparse Byte          -- host memory
  gran     : Table Gran           -- granule copies that are not CLEAN, by granule number
  wgen     : Table WGen           -- by 64 KiB frame
  ecc      : List Nat             -- half-atoms that hold an uncorrectable error
  reported : List Nat             -- of these, those of which a unit that waits has logged the error already (20_system R447)
  soft     : List Nat             -- half-atoms that hold an error which the controller corrects at each read (20_system R454)
  hb       : Word
  tenants  : Table Tenant         -- 0–127, and the physical function under 128
  die      : Table Die
  tlb      : Table (List TlbEntry)  -- by core
  migs     : List Migration
  packets  : List Packet          -- oldest first
  pairs    : Table (BitVec 16 × BitVec 16)  -- by source core × 8 + stack: the next sequence number sent, and awaited
  watches  : List Watch
  outWatch : List OutWatch
  hits     : List LateHit         -- oldest first
  reuse    : Table ReuseEntry
  windows  : Table Window         -- quadrant × 16 + window
  quadBars : Table Barrier        -- quadrant × 64 + index
  dieBars  : Table Barrier        -- die × 32 + index
  kernels  : Table Kernel
  kernelNo : BitVec 32
  reserve  : Table (List Nat)     -- kernels that reserve freed slots, each with the slots that stay open (13_kernel R306)
  ctxs     : Table Ctx            -- kernel × 384 + member
  copies   : Table (List CopyCmd) -- by core, oldest first
  issue    : Table Nat            -- by core: the slot that holds issue rights
  fair     : Table Nat            -- by core: ticks with a ready hart in the other slot since the rights passed (R311)
  starts   : List HartRef         -- harts of timed members that have started, whose first issue is due (R309)
  sorusOff : Table SorusHalf      -- core × 2 + slot
  traps    : List TrapRec         -- oldest first
  dev      : DeviceBlock
  tap      : Tap
  frozen   : Bool
  links    : Table Link
  routers  : Table Router
  linkCnt  : Table LinkCounts
  half     : List (Nat × Nat × Bool)  -- channels at half width: stack, channel, thermal
  hostSeen : HostAnswer
  serial   : Nat                  -- gives out numbers to kernels' places, copies, records, entries, messages
  sched    : List Move
  cur      : HartRef
  yieldNow : Bool
  evArg    : EventArg
  freeCtr  : Nat
  turnIntr : Option Nat           -- the byte of a TURN's walk at which an interruption arrives (R221)
  bytesNow : Option (List Nat)    -- the bytes of an unaligned access that the move makes (R100); none for all
  outside  : Bool                 -- the instruction under way was fetched from outside its pure task's code (R396)
deriving DecidableEq, Repr

/-- Why the machine stops. -/
inductive Fault where
  /-- Raised by step when the device is frozen (20_system R452): nothing moves until a cold reset. Safe. -/
  | frozen
deriving DecidableEq, Repr

/-- Why an instruction has no meaning here. -/
inductive Refusal where
  /-- Raised by an arm of exec for an instruction that has not been modelled. Safe. -/
  | notModelled (mnemonic : String)
deriving DecidableEq, Repr

/-- The device after a cold reset (20_system R451). -/
def State.reset : State :=
  { mem := [], hostMem := [], gran := [], wgen := [], ecc := [], reported := [], soft := [], hb := 0, tenants := [], die := [], tlb := [],
    migs := [], packets := [], pairs := [], watches := [], outWatch := [], hits := [], reuse := [], windows := [], quadBars := [],
    dieBars := [], kernels := [], kernelNo := 0, reserve := [], ctxs := [], copies := [], issue := [], fair := [], starts := [],
    sorusOff := [], traps := [], dev := DeviceBlock.reset,
    tap := { instr := .bypass, unlocked := false, out := [], pos := 0 }, frozen := false, links := [], routers := [],
    linkCnt := [], half := [], hostSeen := { bytes := [], error := false }, serial := 0, sched := [],
    cur := { cid := 0, kind := .ch }, yieldNow := false, evArg := EventArg.none, freeCtr := 0, turnIntr := none,
    bytesNow := none, outside := false }

end Sys2Proof.Machine
end

