-- ==== Sys2Proof/Machine/Sparse.lean ====
section
/-! DEFINITION. Reading and writing of sparse data (a canonical list of key and value pairs) and of tables. -/

namespace Sys2Proof.Machine

/-- The value at a key; the default d where the key is not listed. -/
def sget {α : Type} (d : α) : Sparse α → Nat → α
  | [], _ => d
  | (k, v) :: r, i => if i = k then v else sget d r i

/-- The list with one value changed; the default is never listed, and the keys stay in rising order. -/
def sset {α : Type} [DecidableEq α] (d : α) : Sparse α → Nat → α → Sparse α
  | [], i, x => if x = d then [] else [(i, x)]
  | (k, v) :: r, i, x =>
    if i < k then (if x = d then (k, v) :: r else (i, x) :: (k, v) :: r)
    else if i = k then (if x = d then r else (i, x) :: r)
    else (k, v) :: sset d r i x

/-- The canonical form: keys in strictly rising order, no value equal to the default. -/
def swf {α : Type} [DecidableEq α] (d : α) : Sparse α → Bool
  | [] => true
  | [(_, v)] => decide (v ≠ d)
  | (k, v) :: (k', v') :: r => decide (v ≠ d) && decide (k < k') && swf d ((k', v') :: r)

/-- The canonical form of a memory: addresses strictly rising, no byte listed that an unlisted address reads as. -/
def Memory.wf (m : Sparse Byte) : Bool := swf 0 m

/-- Writing a list of values at consecutive keys. -/
def ssetList {α : Type} [DecidableEq α] (d : α) (m : Sparse α) (i : Nat) : List α → Sparse α
  | [] => m
  | x :: xs => ssetList d (sset d m i x) (i + 1) xs

/-- Reading n values at consecutive keys. -/
def sgetList {α : Type} (d : α) (m : Sparse α) (i : Nat) : Nat → List α
  | 0 => []
  | n + 1 => sget d m i :: sgetList d m (i + 1) n

/-- The part of a sparse list whose keys lie in [lo, hi), with lo taken off. -/
def sslice {α : Type} (m : Sparse α) (lo hi : Nat) : Sparse α :=
  (m.filter (fun e => decide (lo ≤ e.1) && decide (e.1 < hi))).map (fun e => (e.1 - lo, e.2))

/-- A sparse list without the keys of [lo, hi). -/
def sclear {α : Type} (m : Sparse α) (lo hi : Nat) : Sparse α :=
  m.filter (fun e => decide (e.1 < lo) || decide (hi ≤ e.1))

/-- The entry of a table. -/
def tget {α : Type} : Table α → Nat → Option α
  | [], _ => none
  | (k, v) :: r, i => if i = k then some v else tget r i

/-- A table with an entry put in, in rising order of key. -/
def tput {α : Type} : Table α → Nat → α → Table α
  | [], i, x => [(i, x)]
  | (k, v) :: r, i, x =>
    if i < k then (i, x) :: (k, v) :: r else if i = k then (i, x) :: r else (k, v) :: tput r i x

/-- A table without an entry. -/
def tdel {α : Type} (t : Table α) (i : Nat) : Table α := t.filter (fun e => decide (e.1 ≠ i))

/-- A number into a list of numbers without repeats, kept in rising order. -/
def insertNat : List Nat → Nat → List Nat
  | [], i => [i]
  | k :: r, i => if i < k then i :: k :: r else if i = k then k :: r else k :: insertNat r i

end Sys2Proof.Machine
end

