-- ==== Sys2Proof/Machine/Bits.lean ====
section
/-! DEFINITION. Bit fields, extension and byte order (00_scope R10, R12; 03_encoding R61). -/

namespace Sys2Proof.Machine

/-- The low w bits of a word, extended to 64 bits by their sign bit (R61). -/
def sext (w : Nat) (x : Word) : Word := (x.setWidth w).signExtend 64

/-- The low w bits of a word, extended to 64 bits by zeros (R61). -/
def zext (w : Nat) (x : Word) : Word := (x.setWidth w).setWidth 64

/-- A field sign-extended to a word. -/
def sextField {n : Nat} (x : BitVec n) : Word := x.signExtend 64

/-- The bits lo to lo + w − 1 of a word as a number. -/
def bits {n : Nat} (x : BitVec n) (lo w : Nat) : Nat := x.toNat / 2 ^ lo % 2 ^ w

/-- A word with the bits lo to lo + w − 1 replaced. -/
def setBits (x : Word) (lo w : Nat) (v : Nat) : Word :=
  BitVec.ofNat 64 (x.toNat - bits x lo w * 2 ^ lo + v % 2 ^ w * 2 ^ lo)

/-- A bit of a word. -/
def bit {n : Nat} (x : BitVec n) (i : Nat) : Bool := x.getLsbD i

/-- A condition as a word: 1 or 0. -/
def boolWord (b : Bool) : Word := if b then 1 else 0

/-- The number that bytes stand for, the least significant byte first (R10). -/
def natOfBytes : List Byte → Nat
  | [] => 0
  | b :: r => b.toNat + 256 * natOfBytes r

/-- The n bytes of a number, the least significant first (R10). -/
def bytesOfNat : Nat → Nat → List Byte
  | 0, _ => []
  | n + 1, x => BitVec.ofNat 8 (x % 256) :: bytesOfNat n (x / 256)

/-- A word from its bytes. -/
def wordOfBytes (bs : List Byte) : Word := BitVec.ofNat 64 (natOfBytes bs)

/-- The n low bytes of a word. -/
def bytesOfWord (n : Nat) (x : Word) : List Byte := bytesOfNat n x.toNat

/-- The doublewords that bytes hold; the fuel is the number of doublewords. -/
def wordsOfBytes : Nat → List Byte → List Word
  | 0, _ => []
  | n + 1, bs => wordOfBytes (bs.take 8) :: wordsOfBytes n (bs.drop 8)

/-- The bytes of doublewords. -/
def bytesOfWords (ws : List Word) : List Byte := ws.flatMap (bytesOfWord 8)

/-- The number of 1 bits among the low n bits. -/
def onesBelow {w : Nat} (x : BitVec w) : Nat → Nat
  | 0 => 0
  | n + 1 => onesBelow x n + (if x.getLsbD n then 1 else 0)

/-- The greatest multiple of m at or below x. -/
def alignDown (x m : Nat) : Nat := x / m * m

/-- The least multiple of m at or above x. -/
def alignUp (x m : Nat) : Nat := (x + m - 1) / m * m

/-- The quotient rounded up. -/
def ceilDiv (x m : Nat) : Nat := (x + m - 1) / m

/-- Pieces of [a, a + n) cut at the multiples of m, lowest first; the fuel bounds their number. -/
def pieces (m : Nat) : Nat → Nat → Nat → List (Nat × Nat)
  | 0, _, _ => []
  | fuel + 1, a, n =>
    if n = 0 then [] else
      let k := min n (m - a % m)
      (a, k) :: pieces m fuel (a + k) (n - k)

/-- The pieces of [a, a + n) within the 64 KiB pages. -/
def pagePieces (a n : Nat) : List (Nat × Nat) := pieces 65536 (n / 65536 + 2) a n

/-- The pieces of [a, a + n) within the 64-byte granules. -/
def granPieces (a n : Nat) : List (Nat × Nat) := pieces 64 (n / 64 + 2) a n

/-- A range cut at blocks of 4 KiB. -/
def blockPieces (a n : Nat) : List (Nat × Nat) := pieces 4096 (n / 4096 + 2) a n

/-- A list without its element at a place. -/
def dropAt {α : Type} : List α → Nat → List α
  | [], _ => []
  | _ :: r, 0 => r
  | x :: r, n + 1 => x :: dropAt r n

/-- A list with its element at a place changed. -/
def modifyAt {α : Type} : List α → Nat → (α → α) → List α
  | [], _, _ => []
  | x :: r, 0, f => f x :: r
  | x :: r, n + 1, f => x :: modifyAt r n f

/-- Bytes padded with zeros, or cut, to n. -/
def padTo (n : Nat) (bs : List Byte) : List Byte := (bs ++ List.replicate (n - bs.length) 0).take n

end Sys2Proof.Machine
end

