-- ==== Sys2Proof/Machine/Access.lean ====
section
/-! DEFINITION. Where the parts of the state are read and written: contexts, harts, registers, tenants, dies. -/

namespace Sys2Proof.Machine

/-- The number of a hart kind in HARTID (02_machine R31). -/
def kindNum : HartKind → Nat
  | .ch => 0
  | .fh => 1
  | .dh => 2

/-- A hart of a context. -/
def Ctx.hart (c : Ctx) : HartKind → Hart
  | .ch => c.ch
  | .fh => c.fh
  | .dh => c.dh

/-- A context with one of its harts changed. -/
def Ctx.withHart (c : Ctx) (k : HartKind) (h : Hart) : Ctx :=
  match k with
  | .ch => { c with ch := h }
  | .fh => { c with fh := h }
  | .dh => { c with dh := h }

/-- A context by its number. -/
def State.ctx (s : State) (cid : Nat) : Ctx := (tget s.ctxs cid).getD Ctx.reset

/-- The state with a context changed. -/
def State.withCtx (s : State) (cid : Nat) (c : Ctx) : State := { s with ctxs := tput s.ctxs cid c }

/-- A hart by its reference. -/
def State.hart (s : State) (r : HartRef) : Hart := (s.ctx r.cid).hart r.kind

/-- The state with a hart changed. -/
def State.withHart (s : State) (r : HartRef) (h : Hart) : State := s.withCtx r.cid ((s.ctx r.cid).withHart r.kind h)

/-- The hart that moves. -/
def State.me (s : State) : Hart := s.hart s.cur

/-- The context of the hart that moves. -/
def State.myCtx (s : State) : Ctx := s.ctx s.cur.cid

/-- The state with the moving hart changed. -/
def State.withMe (s : State) (h : Hart) : State := s.withHart s.cur h

/-- The state with the moving hart's context changed. -/
def State.withMyCtx (s : State) (c : Ctx) : State := s.withCtx s.cur.cid c

/-- ReadS (03_encoding R61): s0 reads 0. -/
def Hart.readS (h : Hart) (r : SReg) : Word := if r = 0 then 0 else sget 0 h.regs r.toNat

/-- WriteS (R61): a write to s0 is discarded. -/
def Hart.writeS (h : Hart) (r : SReg) (x : Word) : Hart :=
  if r = 0 then h else { h with regs := sset 0 h.regs r.toNat x }

/-- ReadS of the moving hart. -/
def State.readS (s : State) (r : SReg) : Word := s.me.readS r

/-- WriteS of the moving hart. -/
def State.writeS (s : State) (r : SReg) (x : Word) : State := s.withMe (s.me.writeS r x)

/-- The moving hart's PC advanced by n bytes. -/
def State.advance (s : State) (n : Nat) : State := s.withMe { s.me with pc := s.me.pc + BitVec.ofNat 64 n }

/-- The moving hart's PC set; bits [1:0] of every PC are zero (R41). -/
def State.jump (s : State) (pc : Word) : State := s.withMe { s.me with pc := pc &&& ~~~3#64 }

/-- The result of an instruction of n bytes that writes one register. -/
def State.retire (s : State) (n : Nat) (d : SReg) (x : Word) : State := (s.writeS d x).advance n

/-- A tenant's registers; the physical function stands under 128. -/
def State.tenant (s : State) (t : Nat) : Tenant := (tget s.tenants t).getD Tenant.reset

/-- The state with a tenant's registers changed. -/
def State.withTenant (s : State) (t : Nat) (x : Tenant) : State := { s with tenants := tput s.tenants t x }

/-- A die's registers. -/
def State.dieOf (s : State) (d : Nat) : Die := (tget s.die d).getD Die.reset

/-- The state with a die's registers changed. -/
def State.withDie (s : State) (d : Nat) (x : Die) : State := { s with die := tput s.die d x }

/-- The die of a core (02_machine R31). -/
def coreDie (core : Nat) : Nat := core / 96
/-- The quadrant of a core, counted over the device. -/
def coreQuad (core : Nat) : Nat := core / 24

/-- The copy queue of a core. -/
def State.copyQueue (s : State) (core : Nat) : List CopyCmd := (tget s.copies core).getD []

/-- The state with a core's copy queue changed. -/
def State.withCopyQueue (s : State) (core : Nat) (q : List CopyCmd) : State :=
  { s with copies := tput s.copies core q }

/-- Every command of every copy queue. -/
def State.allCopies (s : State) : List CopyCmd := s.copies.flatMap (·.2)

/-- A command by its number. -/
def State.copy (s : State) (id : Nat) : Option CopyCmd := s.allCopies.find? (·.id = id)

/-- The state with a command changed. -/
def State.withCopy (s : State) (c : CopyCmd) : State :=
  s.withCopyQueue c.core ((s.copyQueue c.core).map (fun x => if x.id = c.id then c else x))

/-- A kernel. -/
def State.kernel (s : State) (k : Nat) : Option Kernel := tget s.kernels k

/-- The state with a kernel changed. -/
def State.withKernel (s : State) (k : Nat) (x : Kernel) : State := { s with kernels := tput s.kernels k x }

/-- The state with a kernel changed, where there is one. -/
def State.modKernel (s : State) (k : Nat) (f : Kernel → Kernel) : State :=
  match s.kernel k with
  | some x => s.withKernel k (f x)
  | none => s

/-- A queue window. -/
def State.window (s : State) (w : Nat) : Window := (tget s.windows w).getD Window.reset

/-- The state with a queue window changed. -/
def State.withWindow (s : State) (w : Nat) (x : Window) : State := { s with windows := tput s.windows w x }

/-- A fresh number for a copy, a record, an entry or a kernel's place. -/
def State.fresh (s : State) : Nat × State := (s.serial, { s with serial := s.serial + 1 })

/-- A free byte, and the state whose counter has moved on (notes/assumptions/6). -/
def State.freeByte (s : State) : Byte × State := (Config.freeByte s.freeCtr, { s with freeCtr := s.freeCtr + 1 })

/-- A free word. -/
def State.freeWord (s : State) : Word × State := (Config.freeWord s.freeCtr, { s with freeCtr := s.freeCtr + 1 })

/-- A free choice below n. -/
def State.freeBelow (s : State) (n : Nat) : Nat × State :=
  (Config.freeChoice s.freeCtr % n, { s with freeCtr := s.freeCtr + 1 })

/-- The slot of a core that holds issue rights (02_machine R24). -/
def State.issueSlot (s : State) (core : Nat) : Nat := (tget s.issue core).getD 0

/-- The supervisor context (12_context R288): the SUPER context of the device, if there is one; of several members of a SUPER
kernel the first (notes/assumptions/46). -/
def State.supervisor (s : State) : Option Nat :=
  (s.ctxs.find? (fun e => e.2.super && decide (e.2.slotState ≠ .free))).map (·.1)

/-- The bytes of a vector register in a context's mode (02_machine R25). -/
def Ctx.regBytes (c : Ctx) : Nat := if c.full then 12288 else 6144
/-- The bits of a mask register in a context's mode (R25). -/
def Ctx.maskBits (c : Ctx) : Nat := if c.full then 98304 else 49152
/-- The active fronds (R29). -/
def Ctx.fronds (c : Ctx) : Nat := 2 ^ c.maxlen.toNat
/-- The bytes of a vector register that are in use (R28). -/
def Ctx.usedBytes (c : Ctx) : Nat := c.regBytes * c.fronds / 8
/-- The entries of a scale bank (R25). -/
def Ctx.scaleEntries (c : Ctx) : Nat := if c.full then 512 else 256
/-- The bytes of the IS window (R35). -/
def Ctx.isBytes (c : Ctx) : Nat := if c.full then 1048576 else 524288
/-- The bytes of the OS window (R35). -/
def Ctx.osBytes (c : Ctx) : Nat := if c.full then 262144 else 131072

/-- GRPID (07_matrix R167): MEMBER in [15:0], SIZE in [31:16], GROUP in [47:32]. -/
def State.grpid (s : State) (cid : Nat) : Word :=
  let c := s.ctx cid
  match s.kernel c.kernel with
  | some k => BitVec.ofNat 64 (k.group * 2 ^ 32 + k.size * 2 ^ 16 + c.member)
  | none => 0

end Sys2Proof.Machine
end

