-- ==== Sys2Proof/Machine/Physical.lean ====
section
/-! DEFINITION. The physical address space, the codes of the page kinds, and the bytes of memory (02_machine R37; 09_page R196, R458). -/

namespace Sys2Proof.Machine

/-- KIND of a leaf; codes 6–15 are invalid (R196). -/
def kindOfCode (n : Nat) : Option PageKind :=
  match n with
  | 0 => some .stream
  | 1 => some .sync
  | 2 => some .repl
  | 3 => some .comp
  | 4 => some .pool
  | 5 => some .hostmem
  | _ => none

/-- Whether every byte of [pa, pa + n) is populated device memory (R458). -/
def populated (pa n : Nat) : Bool :=
  decide (pa / Config.dieRange < Config.dies) && decide (pa % Config.dieRange + n ≤ Config.populated)

/-- The die that owns a physical address (R458). -/
def paDie (pa : Nat) : Nat := pa / Config.dieRange

/-- The stack that holds a physical address (R458). -/
def paStack (pa : Nat) : Nat := 2 * paDie pa + pa / 4096 % 2

/-- A byte of device memory; unwritten memory reads as 0 (notes/assumptions/3). -/
def State.memByte (s : State) (pa : Nat) : Byte := sget 0 s.mem pa

/-- n bytes of device memory. -/
def State.memBytes (s : State) (pa n : Nat) : List Byte := sgetList 0 s.mem pa n

/-- A doubleword of device memory. -/
def State.memWord (s : State) (pa : Nat) : Word := wordOfBytes (s.memBytes pa 8)

/-- n bytes of host memory. -/
def State.hostBytes (s : State) (pa n : Nat) : List Byte := sgetList 0 s.hostMem pa n

/-- Whether turnaround governs a kind (R37). -/
def PageKind.governed : PageKind → Bool
  | .sync => false
  | _ => true

end Sys2Proof.Machine
end

