-- ==== Sys2Proof/Machine/Routes.lean ====
section
/-! DEFINITION. The links of the device, and which routes remain when some are DOWN (18_link R415, R416, R421, R422). -/

namespace Sys2Proof.Machine

/-- Routers of a die (R415). -/
def routersPerDie : Nat := 24

/-- The router of a core, counted over the device: router floor(c / 4) of its quadrant (R415). -/
def coreRouter (core : Nat) : Nat := core / 24 * 6 + core % 24 / 4

/-- The hub of a die: router 0 of its quadrant 0 (R416). -/
def hubOf (die : Nat) : Nat := routersPerDie * die

/-- The pairs of n things. -/
def pairsOf (n : Nat) : List (Nat × Nat) :=
  (List.range n).flatMap (fun i => (List.range n).filterMap (fun j => if i < j then some (i, j) else none))

/-- The links of a die by its routers, 0–23: 60 on-die, 12 long, 3 hub links (R415, R416). -/
def dieLinks : List (Nat × Nat) :=
  (List.range 4).flatMap (fun q => (pairsOf 6).map (fun p => (6 * q + p.1, 6 * q + p.2)))
  ++ (pairsOf 4).flatMap (fun p =>
      let δ := p.2 - p.1
      [(6 * p.1 + (δ - 1), 6 * p.2 + (3 - δ)), (6 * p.1 + (δ + 2), 6 * p.2 + (6 - δ))])
  ++ [(0, 6), (0, 12), (0, 18)]

/-- The number of links of a die. -/
def linksPerDie : Nat := 75

/-- The number of the CXL link; the links below it are those of the dies and the six between dies. -/
def cxlLink : Nat := 306

/-- The ends of a link; the CXL link has one router end (R415). -/
def linkEnds (l : Nat) : Option (Nat × Nat) :=
  if l < 300 then (dieLinks[l % linksPerDie]?).map (fun p => (hubOf (l / linksPerDie) + p.1, hubOf (l / linksPerDie) + p.2))
  else if l < cxlLink then ((pairsOf 4)[l - 300]?).map (fun p => (hubOf p.1, hubOf p.2))
  else none

/-- The die on which a link counts: that of its lower-numbered end (R426). -/
def linkDie (l : Nat) : Nat :=
  match linkEnds l with
  | some e => min e.1 e.2 / routersPerDie
  | none => 0

/-- A link (R418). -/
def State.link (s : State) (l : Nat) : Link := (tget s.links l).getD Link.reset

/-- A link is DOWN. -/
def State.linkDown (s : State) (l : Nat) : Bool := decide ((s.link l).state = .down)

/-- The CXL link is DOWN. -/
def State.cxlDown (s : State) : Bool := s.linkDown cxlLink

/-- The link that joins two routers. -/
def linkBetween (a b : Nat) : Option Nat :=
  (List.range cxlLink).find? (fun l => decide (linkEnds l = some (min a b, max a b)))

/-- A direction of a link: up is the one from its lower-numbered end. -/
def Link.dir (x : Link) (up : Bool) : Direction := if up then x.fwd else x.bwd

/-- One hop from a router to another, over a link that is not DOWN: the links it takes. -/
def State.hops (s : State) (a b : Nat) : Option (List Nat) :=
  if a = b then some []
  else
    match linkBetween a b with
    | some l => if s.linkDown l then none else some [l]
    | none => none

/-- The links of two parts of a route, when both remain. -/
def joined (a b : Option (List Nat)) : Option (List Nat) :=
  match a, b with
  | some x, some y => some (x ++ y)
  | _, _ => none

/-- The flits in the output queue of a router toward another (R421). -/
def State.linkQueue (s : State) (a b : Nat) : Nat :=
  match linkBetween a b with
  | some l => ((s.link l).dir (decide (a < b))).queue.length
  | none => 0

/-- The long links from the quadrant of a router to another quadrant of its die, by their two ends (R416); the packet of
that router takes the one that begins at the router itself, else the one with the shorter queue, else the lower (R421). -/
def State.gateways (s : State) (r quad : Nat) : List (Nat × Nat) :=
  let q := r / 6
  let δ := (quad + 4 - q % 4) % 4
  let x := (6 * q + (δ - 1), 6 * quad + (3 - δ))
  let y := (6 * q + (δ + 2), 6 * quad + (6 - δ))
  if x.1 = r then [x, y]
  else if y.1 = r ∨ s.linkQueue y.1 y.2 < s.linkQueue x.1 x.2 then [y, x]
  else [x, y]

/-- The minimal route between two routers of a die, over links that are not DOWN (R421). -/
def State.minimal (s : State) (r r' : Nat) : Option (List Nat) :=
  if r / 6 = r' / 6 then s.hops r r'
  else (s.gateways r (r' / 6)).findSome?
    (fun g => joined (s.hops r g.1) (joined (s.hops g.1 g.2) (s.hops g.2 r')))

/-- The route through the lowest-numbered other quadrant that has one (R422). -/
def State.diverted (s : State) (r r' : Nat) : Option (List Nat) :=
  ((List.range 4).map (fun i => r / 24 * 4 + i)).findSome? (fun m =>
    if m = r / 6 ∨ m = r' / 6 then none
    else (s.gateways r m).findSome? (fun g =>
      joined (s.hops r g.1) (joined (s.hops g.1 g.2) (s.minimal g.2 r'))))

/-- The route between two routers of a die (R421, R422): the minimal one, unless its two long links are DOWN or hold more
than 192 flits each (notes/assumptions/71). -/
def State.dieRoute (s : State) (r r' : Nat) : Option (List Nat) :=
  if r / 6 = r' / 6 then s.hops r r'
  else if (s.gateways r (r' / 6)).all (fun g => decide (192 < s.linkQueue g.1 g.2)) then
    (s.diverted r r').or (s.minimal r r')
  else (s.minimal r r').or (s.diverted r r')

/-- The route between a router of a die and its hub, where no route of R421 and R422 remains: over the hub link of the
router's quadrant (R416; notes/assumptions/71). -/
def State.hubLink (s : State) (r : Nat) : Option (List Nat) :=
  joined (s.hops r (r / 6 * 6)) (s.hops (r / 6 * 6) (hubOf (r / routersPerDie)))

/-- The route from a router to the hub of its die (R421, R422). -/
def State.toHub (s : State) (r : Nat) : Option (List Nat) := (s.dieRoute r (hubOf (r / routersPerDie))).or (s.hubLink r)

/-- The route from the hub of a die to a router of it (R421, R422). -/
def State.fromHub (s : State) (r : Nat) : Option (List Nat) := (s.dieRoute (hubOf (r / routersPerDie)) r).or (s.hubLink r)

/-- The link between two dies. -/
def dieLink (a b : Nat) : Nat := 300 + ((pairsOf 4).findIdx (fun p => decide (p = (min a b, max a b))))

/-- A third die through which two dies are joined by two links in a state that a test admits: the lowest (R422). -/
def State.thirdDie (s : State) (ok : LState → Bool) (a b : Nat) : Option (List Nat) :=
  (List.range 4).findSome? (fun c =>
    if c ≠ a ∧ c ≠ b ∧ ok (s.link (dieLink a c)).state ∧ ok (s.link (dieLink c b)).state then
      some [dieLink a c, dieLink c b]
    else none)

/-- The links from the hub of a die to that of another (R421, R422): a third die's two links are UP, or will be
(notes/assumptions/71). -/
def State.dieToDie (s : State) (a b : Nat) : Option (List Nat) :=
  if a = b then some []
  else if !s.linkDown (dieLink a b) then some [dieLink a b]
  else (s.thirdDie (fun st => decide (st = .up)) a b).or (s.thirdDie (fun st => decide (st ≠ .down)) a b)

/-- The router of the home slice of a device address (R415; notes/assumptions/71). -/
def sliceRouterOf (pa : Nat) : Nat := routersPerDie * paDie pa + Config.sliceRouter (paStack pa) % routersPerDie

/-- The route of a core's packets to a physical address (R421, R422); none when no route remains. -/
def State.routeOf (s : State) (core : Nat) (kind : PageKind) (pa : Nat) : Option (List Nat) :=
  let r := coreRouter core
  let d := coreDie core
  if kind = .hostmem then
    joined (s.toHub r) (joined (s.dieToDie d 0) (if s.cxlDown then none else some [cxlLink]))
  else if paDie pa = d then s.dieRoute r (sliceRouterOf pa)
  else joined (s.toHub r) (joined (s.dieToDie d (paDie pa)) (s.fromHub (sliceRouterOf pa)))

/-- Whether no link has failed: then every route remains. -/
def State.noneDown (s : State) : Bool := s.links.all (fun e => decide (e.2.state ≠ .down))

/-- Whether a core has a route to a physical address (R421, R422). -/
def State.routeTo (s : State) (core : Nat) (kind : PageKind) (pa : Nat) : Bool :=
  s.noneDown || (s.routeOf core kind pa).isSome

/-- Whether a core has a route to every byte of [pa, pa + n) of device memory (R421, R422). -/
def State.reaches (s : State) (core pa n : Nat) : Bool :=
  s.noneDown || (List.range (ceilDiv (pa % 4096 + n) 4096)).all (fun b =>
    (s.routeOf core .stream (alignDown pa 4096 + 4096 * b)).isSome)

/-- A read of [pa, pa + n) of device memory from a core ends as an uncorrectable error: there is one (20_system R454), or
there is no route (R422). -/
def State.imageBad (s : State) (core pa n : Nat) : Bool :=
  s.ecc.any (fun h => decide (pa / 32 ≤ h ∧ h * 32 < pa + n)) || !s.reaches core pa n

/-- The half-atom of [pa, pa + n) at which a read from a core ends as an uncorrectable error (R422; 20_system R454; 09_page
R458): the first that holds one; the first of all where a byte has no route or no memory. -/
def State.badHalf (s : State) (core pa n : Nat) : Option Nat :=
  if !populated pa n || !s.reaches core pa n then some (pa / 32)
  else s.ecc.find? (fun h => decide (pa / 32 ≤ h ∧ h * 32 < pa + n))

/-- The route of packets from one core to another (R421, R422). -/
def State.coreRoute (s : State) (a b : Nat) : Option (List Nat) :=
  if coreDie a = coreDie b then s.dieRoute (coreRouter a) (coreRouter b)
  else joined (s.toHub (coreRouter a)) (joined (s.dieToDie (coreDie a) (coreDie b)) (s.fromHub (coreRouter b)))

/-- Whether the host has a route to a device address (R422). -/
def State.hostRoute (s : State) (pa : Nat) : Bool :=
  s.noneDown || (!s.cxlDown && (s.dieToDie 0 (paDie pa)).isSome && (s.fromHub (sliceRouterOf pa)).isSome)

end Sys2Proof.Machine
end

