-- ==== Sys2Proof/Machine/Translate.lean ====
section
/-! DEFINITION. Translation: the five-level walk and cached translations (09_page R194–R199, R208, R209, R458). -/

namespace Sys2Proof.Machine

/-- What an access needs of a leaf (R197). -/
inductive Need where
  | read | write | rmw | fetch | nothing
deriving DecidableEq, Repr

/-- The levels of the tree: level, lowest address bit indexed, entries (R195). -/
def levels : List (Nat × Nat × Nat) := [(4, 48, 512), (3, 39, 512), (2, 30, 512), (1, 21, 512), (0, 16, 32)]

/-- ADDR of an entry: physical address bits [51:8] (R196). -/
def entryAddr (e : Word) : Nat := bits e 8 44 * 256

/-- A leaf found by a walk, with its own address; of a REPL leaf the frames that its descriptor names (R209). -/
structure Leaf where
  at_    : Nat
  word   : Word
  shift  : Nat
  frames : List Nat
deriving DecidableEq, Repr

/-- The frames that a REPL leaf's descriptor names, one a die (R209). -/
def State.replFrames (s : State) (desc : Nat) : List Nat :=
  (List.range 4).map (fun d => (s.memWord (desc + 8 * d)).toNat)

/-- Whether a leaf keeps every "must" of R196, R209 and R458. A replica descriptor in unpopulated memory fails the walk, as a
table there does: R458 does not name it (notes/assumptions/100). -/
def State.leafOk (s : State) (e : Word) (shift : Nat) : Bool :=
  let a := entryAddr e
  match kindOfCode (bits e 60 4) with
  | none => false
  | some .repl =>
    populated a 32 && ((List.range 4).all (fun d =>
      let f := (s.memWord (a + 8 * d)).toNat
      decide (f % 2 ^ shift = 0) && decide (f < 2 ^ 52) && decide (paDie f = d) && populated f (2 ^ shift)))
  | some .pool =>
    decide (bits e 56 4 = 0) && decide (a % 2 ^ shift = 0) && populated a (2 ^ shift)
  | some .hostmem => decide (bits e 56 3 = 0) && decide (a % 2 ^ shift = 0)
  | some _ => decide (bits e 56 3 = 0) && decide (a % 2 ^ shift = 0) && populated a (2 ^ shift)

/-- The walk from the table at t (R195–R197); none is a failed walk, permissions apart. -/
def State.walkFrom (s : State) (va : Nat) : List (Nat × Nat × Nat) → Nat → Option Leaf
  | [], _ => none
  | (lvl, sh, n) :: rest, t =>
    if !populated t (8 * n) then none else
    let at_ := t + 8 * (va / 2 ^ sh % n)
    let e := s.memWord at_
    if !bit e 0 || decide (bits e 52 4 ≠ 0) || decide (bits e 5 3 ≠ 0) then none
    else if bit e 4 then
      if decide (lvl ≥ 3) || !s.leafOk e sh then none
      else some { at_ := at_, word := e, shift := sh,
                  frames := if kindOfCode (bits e 60 4) = some .repl then s.replFrames (entryAddr e) else [] }
    else if lvl = 0 || decide (bits e 56 8 ≠ 0) || decide (bits e 1 3 ≠ 0)
        || decide (entryAddr e % (if lvl = 1 then 256 else 4096) ≠ 0) then none
    else s.walkFrom va rest (entryAddr e)

/-- The walk of a tenant's tree; a root of 0 maps nothing (R194). -/
def State.walk (s : State) (tenant va : Nat) : Option Leaf :=
  let root := (s.tenant tenant).xroot.toNat
  if root = 0 then none else s.walkFrom va levels root

/-- The address of the entry or descriptor that the walk from the table at t, made for a core, reads and cannot: the read
ends as an uncorrectable error (18_link R422, 20_system R454; notes/assumptions/71). -/
def State.badEntryFrom (s : State) (core va : Nat) : List (Nat × Nat × Nat) → Nat → Option Nat
  | [], _ => none
  | (lvl, sh, n) :: rest, t =>
    if !populated t (8 * n) then none else
    let at_ := t + 8 * (va / 2 ^ sh % n)
    let e := s.memWord at_
    if s.imageBad core at_ 8 then some at_
    else if !bit e 0 then none
    else if bit e 4 then
      if lvl < 3 ∧ kindOfCode (bits e 60 4) = some .repl ∧ s.imageBad core (entryAddr e) 32 then some (entryAddr e) else none
    else s.badEntryFrom core va rest (entryAddr e)

/-- What the walk of a tenant's tree for a core meets that cannot be read. -/
def State.badEntry (s : State) (core tenant va : Nat) : Option Nat :=
  let root := (s.tenant tenant).xroot.toNat
  if (s.noneDown && s.ecc.isEmpty) || decide (root = 0) then none else s.badEntryFrom core va levels root

/-- Whether the walk of a tenant's tree for a core meets what cannot be read. -/
def State.badWalk (s : State) (core tenant va : Nat) : Bool := (s.badEntry core tenant va).isSome

/-- A cached translation of a core (R199): it holds, with the frames of a REPL page, until an XINV drops it. -/
def State.tlbFind (s : State) (core tenant va : Nat) : Option TlbEntry :=
  ((tget s.tlb core).getD []).find? (fun e =>
    decide (e.tenant = tenant) && decide (va / 2 ^ e.shift = e.va / 2 ^ e.shift))

/-- Whether a leaf gives what the access needs (R197). -/
def leafPermits (e : Word) : Need → Bool
  | .read => bit e 1
  | .write => bit e 2
  | .rmw => bit e 1 && bit e 2
  | .fetch => bit e 3
  | .nothing => true

/-- The place of an address under a leaf, for a reader on a die (R208, R209). -/
def placeOf (die va : Nat) (l : Leaf) : Place :=
  let off := va % 2 ^ l.shift
  let a := entryAddr l.word
  let kind := (kindOfCode (bits l.word 60 4)).getD .stream
  let frames := if kind = .repl then l.frames else [a]
  let f := if kind = .repl then frames.getD die 0 else a
  { kind := kind, pa := f + off, copies := frames.map (· + off), pageVa := va - off, frame := f, shift := l.shift,
    pin := bit l.word 59, loose := bit l.word 58, home := bits l.word 56 2, leafAt := l.at_, leaf := l.word }

/-- Translation of an address for a core; none is a translation fault (R197, R200). -/
def State.translate (s : State) (core tenant : Nat) (need : Need) (va : Nat) : Option Place :=
  let leaf : Option Leaf :=
    match s.tlbFind core tenant va with
    | some e => some { at_ := ((s.walk tenant va).map (·.at_)).getD 0, word := e.leaf, shift := e.shift, frames := e.frames }
    | none => if s.badWalk core tenant va then none else s.walk tenant va
  match leaf with
  | some l => if leafPermits l.word need then some (placeOf (coreDie core) va l) else none
  | none => none

/-- Whether an access for a core ends as an uncorrectable error in its translation (18_link R422, 20_system R454). -/
def State.walkFails (s : State) (core tenant va : Nat) : Bool :=
  (s.tlbFind core tenant va).isNone && s.badWalk core tenant va

/-- Translation by device machinery, which uses no core's cached translations. -/
def State.translateDev (s : State) (die tenant : Nat) (need : Need) (va : Nat) : Option Place :=
  match (if s.badWalk (Config.coresPerDie * die) tenant va then none else s.walk tenant va) with
  | some l => if leafPermits l.word need then some (placeOf die va l) else none
  | none => none

/-- First address of the local window region (02_machine R35). -/
def windowLo : Nat := 0x01FFFF0000000000
/-- One past the last address of the local window region (R35). -/
def windowHi : Nat := 0x01FFFF0100000000
/-- Base of the OS window (R35). -/
def osBase : Nat := 0x01FFFF0000100000

/-- Whether an access has a byte in the local window region (R35). -/
def touchesWindows (a n : Nat) : Bool := decide (a < windowHi) && decide (windowLo < a + n)

/-- The window and offset of an address, at the context's size (R35): true for the IS. -/
def Ctx.windowOf (c : Ctx) (a : Nat) : Option (Bool × Nat) :=
  if windowLo ≤ a ∧ a < windowLo + c.isBytes then some (true, a - windowLo)
  else if osBase ≤ a ∧ a < osBase + c.osBytes then some (false, a - osBase)
  else none

/-- The key of a granule copy: device granules by number, granules of host memory above 2^40. -/
def granKey (kind : PageKind) (pa : Nat) : Nat := (if kind = .hostmem then 2 ^ 40 else 0) + pa / 64

/-- The key of a 64 KiB frame. -/
def frameKey (kind : PageKind) (pa : Nat) : Nat := (if kind = .hostmem then 2 ^ 40 else 0) + pa / 65536

/-- The order of the levels (09_page R214). -/
def Level.rank : Level → Nat
  | .none => 0
  | .core => 1
  | .quad => 2
  | .die => 3
  | .dev => 4
  | .host => 5

/-- The level of a code (03_encoding R46). -/
def levelOfCode (n : Nat) : Level :=
  match n with
  | 0 => .none
  | 1 => .core
  | 2 => .quad
  | 3 => .die
  | 4 => .dev
  | _ => .host

/-- The distance from a writer core to a reader core (R211). -/
def distance (w r : Nat) : Level :=
  if w = r then .core
  else if coreQuad w = coreQuad r then .quad
  else if coreDie w = coreDie r then .die
  else .dev

/-- The cores that a level reaches from a writer's core (R214; 02_machine R36). -/
def Level.reaches (L : Level) (core : Nat) (c : Nat) : Bool := decide ((distance core c).rank ≤ L.rank)

/-- The read check of one granule copy for a reader core (R214): the granule that fails it. -/
def State.readCheck (s : State) (core : Nat) (key : Nat) : Option Gran :=
  match tget s.gran key with
  | none => none
  | some g => if (distance g.writer core).rank ≤ g.level.rank then none else some g

/-- The read check of device machinery on behalf of no core, at distance DEV, or of the host (R211). -/
def State.readCheckAt (s : State) (d : Level) (key : Nat) : Option Gran :=
  match tget s.gran key with
  | none => none
  | some g => if d.rank ≤ g.level.rank then none else some g

/-- TURNCAP.COUNT of a core (R217): the granule copies pending below DEV with this core as writer. -/
def State.pending (s : State) (core : Nat) : Nat :=
  (s.gran.filter (fun e => decide (e.2.writer = core) && decide (e.2.level.rank < 4))).length

/-- The keys of the granule copies that a write to a place marks. -/
def Place.marks (pl : Place) (n : Nat) (localOnly : Bool) : List Nat :=
  if pl.kind.governed then
    (if pl.kind = .repl ∧ !localOnly then pl.copies else [pl.pa]).flatMap
      (fun pa => (granPieces pa n).map (fun q => granKey pl.kind q.1))
  else []

/-- The keys of the granule copies that an unaligned store under way marks (05_scalar R99). -/
def Split.marks (x : Split) : List Nat :=
  match x.region with
  | .window _ _ => []
  | .pages ps => ps.flatMap (fun p => p.1.marks p.2.2 x.localOnly)

/-- The granule copies that unaligned stores under way on a core mark: the checks of each have counted them (05_scalar R99,
R217). -/
def State.splitMarks (s : State) (core : Nat) : List Nat :=
  s.ctxs.flatMap (fun e =>
    if e.2.core = core then [e.2.ch, e.2.fh, e.2.dh].flatMap (fun h => (h.split.map Split.marks).getD []) else [])

/-- The granule copies that multicasts of a core under way mark below DEV (R209, R217). -/
def State.packetMarks (s : State) (core : Nat) : List Nat :=
  (s.packets.filter (fun p => decide (p.writer = core) && decide (p.level.rank < 4))).flatMap
    (fun p => (granPieces p.pa p.bytes.length).map (fun q => granKey .repl q.1))

/-- Whether a core has a granule copy PENDING below DEV, as its writer (R217). -/
def State.holds (s : State) (core key : Nat) : Bool :=
  match tget s.gran key with
  | some g => decide (g.writer = core) && decide (g.level.rank < 4)
  | none => false

/-- Whether a core has a granule copy in its count (R217), now or when what is under way marks it. -/
def State.counted (s : State) (core key : Nat) : Bool :=
  s.holds core key || (s.packetMarks core).contains key || (s.splitMarks core).contains key

/-- The granule copies that multicasts and unaligned stores under way will add to the count of a core (R209, R217). -/
def State.underWay (s : State) (core : Nat) : Nat :=
  ((s.packetMarks core ++ s.splitMarks core).dedup.filter (fun key => !s.holds core key)).length

/-- A page that a leaf maps (R195): its tenant, address, leaf. -/
structure HotPage where
  tenant : Nat
  va     : Nat
  leaf   : Leaf
deriving DecidableEq, Repr

/-- The addresses at which the tables from the one at t have an entry that may be a leaf (R195). -/
def State.leafVas (s : State) : List (Nat × Nat × Nat) → Nat → Nat → List Nat
  | [], _, _ => []
  | (_, sh, n) :: rest, t, va =>
    ((sslice s.mem t (t + 8 * n)).map (fun e => e.1 / 8)).dedup.flatMap (fun i =>
      let e := s.memWord (t + 8 * i)
      if bit e 4 then [va + i * 2 ^ sh] else s.leafVas rest (entryAddr e) (va + i * 2 ^ sh))

/-- Every leaf of the trees, and those that the walkers have recorded and that map still (R205). -/
def State.allLeaves (s : State) : List HotPage :=
  ((s.tenants.flatMap (fun t => (s.leafVas levels t.2.xroot.toNat 0).map (fun va => (t.1, va))))
    ++ s.die.flatMap (·.2.leaves)).dedup.filterMap (fun e =>
      (s.walk e.1 e.2).map (fun l => { tenant := e.1, va := e.2, leaf := l : HotPage }))

/-- Whether a leaf maps a frame: as its page, in a large page, or as a replica (R205). -/
def Leaf.maps (l : Leaf) (pa : Nat) : Bool :=
  decide (kindOfCode (bits l.word 60 4) ≠ some .hostmem)
    && (if kindOfCode (bits l.word 60 4) = some .repl then l.frames else [entryAddr l.word]).any (fun f =>
      decide (f ≤ pa) && decide (pa < f + 2 ^ l.shift))

/-- The core for which the die of a physical address walks. -/
def walkCore (pa : Nat) : Nat := Config.coresPerDie * paDie pa

/-- The leaves that map the frame of a physical address, by tenant and address, each with whether it maps a COMP page there;
and the addresses at which logical granules of it were written (R208, R216). -/
def State.frameLeaves (s : State) (pa : Nat) : List (Nat × Nat × Bool) :=
  let f := alignDown pa 65536
  (s.allLeaves.filter (fun q => q.leaf.maps f)).map (fun q => (q.tenant, q.va, decide (kindOfCode (bits q.leaf.word 60 4) = some .comp)))
    ++ s.gran.filterMap (fun e =>
      if e.1 / 1024 = pa / 65536 then e.2.comp.map (fun va => (e.2.tenant, va, false)) else none)

/-- Whether the frame of a physical address is that of a COMP page (R216): a leaf maps it so; one that cannot be read counts as
one that does (00_scope R8; notes/assumptions/60). -/
def State.compFrame (s : State) (pa : Nat) : Bool :=
  (s.frameLeaves pa).any (fun q => q.2.2 || s.badWalk (walkCore pa) q.1 q.2.1)

/-- Whether a write to a physical address waits for a migration (R204). -/
def State.migrating (s : State) (kind : PageKind) (pa : Nat) : Bool :=
  decide (kind ≠ .hostmem) && s.migs.any (fun m => decide (m.src / 65536 = pa / 65536))

end Sys2Proof.Machine
end

