-- ==== Sys2Proof/Machine/Events.lean ====
section
/-! DEFINITION. Rings in host memory and the event ring (20_system R447). -/

namespace Sys2Proof.Machine

/-- A write to host memory. -/
def State.hostWrite (s : State) (pa : Nat) (bs : List Byte) : State :=
  { s with hostMem := ssetList 0 s.hostMem pa bs }

/-- A doubleword of host memory. -/
def State.hostWord (s : State) (pa : Nat) : Word := wordOfBytes (s.hostBytes pa 8)

/-- The event types of R447. -/
inductive EventType where
  | hostturn | lostwrite | ecccorr | eccuncorr | halfwidth | alarm | fwreject | compllost
deriving DecidableEq, Repr

/-- The code of an event type. -/
def EventType.code : EventType → Nat
  | .hostturn => 1
  | .lostwrite => 2
  | .ecccorr => 3
  | .eccuncorr => 4
  | .halfwidth => 5
  | .alarm => 6
  | .fwreject => 7
  | .compllost => 8

/-- Whether a ring of this HEAD, TAIL and SIZE is full (09_page R206). -/
def ringFull (head tail size : Word) : Bool := decide (size = 0) || decide (head - tail = size)

/-- A record of four doublewords appended to a ring in host memory; none while it is full by this TAIL. -/
def State.ringPut (s : State) (base : Nat) (tail : Word) (ws : List Word) : Option State :=
  let head := s.hostWord base
  let size := s.hostWord (base + 16)
  if ringFull head tail size then none
  else
    let s1 := s.hostWrite (base + 64 + 32 * (head.toNat % size.toNat)) (bytesOfWords ws)
    some (s1.hostWrite base (bytesOfWord 8 (head + 1)))

/-- An event is logged (R447): appended to the ring, or counted in DROPS when the ring is still full after TAIL has been
read again. -/
def State.logEvent (s : State) (t : EventType) (tenant core : Nat) (level : Level) (addr detail : Word) : State :=
  if s.dev.evring = 0 ∨ s.cxlDown then s else
  let base := s.dev.evring.toNat
  let ws := [BitVec.ofNat 64 (t.code * 2 ^ 56 + tenant * 2 ^ 49 + core * 2 ^ 40 + level.rank * 2 ^ 37), addr, detail, s.hb]
  match s.ringPut base s.dev.evTail ws with
  | some s1 => s1
  | none =>
    let tail := s.hostWord (base + 8)
    let s0 := { s with dev := { s.dev with evTail := tail } }
    match s0.ringPut base tail ws with
    | some s1 => s1
    | none => s0.hostWrite (base + 24) (bytesOfWord 8 (s0.hostWord (base + 24) + 1))

/-- An error that cannot be corrected, met by a read, is logged (R447): how its record writes stack and channel the manual
does not say (notes/assumptions/6). -/
def State.logUncorr (s : State) (tenant core pa : Nat) : State :=
  let f := s.freeWord
  f.2.logEvent .eccuncorr tenant core .none (BitVec.ofNat 64 pa) f.1

/-- The entry or descriptor of a tree that a walk for a core could not read is logged (R447). -/
def State.logBadEntry (s : State) (core tenant va : Nat) : State :=
  (s.badEntry core tenant va).elim s (fun a => s.logUncorr tenant core a)

/-- The error of a half-atom that a unit meets while it waits for it to be mended is logged once (R447; notes/assumptions/116). -/
def State.logOnce (s : State) (tenant core half : Nat) : State :=
  if s.reported.contains half then s
  else ({ s with reported := insertNat s.reported half } : State).logUncorr tenant core (32 * half)

/-- The entry or descriptor that a unit cannot read while it waits for it to be mended is logged once. -/
def State.entryOnce (s : State) (core tenant va : Nat) : State :=
  (s.badEntry core tenant va).elim s (fun a => s.logOnce tenant core (a / 32))

/-- The controller corrects an error of a half-atom, and logs it (R447, R454). -/
def State.logCorrected (s : State) (half : Nat) : State :=
  let f := s.freeWord
  f.2.logEvent .ecccorr 0 0 .none (BitVec.ofNat 64 (32 * half)) f.1

/-- A write that has no route is discarded, and logged (18_link R422). -/
def State.lostWrite (s : State) (tenant core pa n : Nat) : State :=
  s.logEvent .lostwrite tenant core .none (BitVec.ofNat 64 pa) (BitVec.ofNat 64 n)

end Sys2Proof.Machine
end

