-- ==== Sys2Proof/Machine/Tiles.lean ====
section
/-! DEFINITION. Compressed tiles and images (10_copies R243–R245). -/

namespace Sys2Proof.Machine

/-- The 64-byte granules of a tile of 4 KiB. -/
def tileGranules (bs : List Byte) : List (List Byte) := (List.range 64).map (fun g => (bs.drop (64 * g)).take 64)

/-- The code of a granule after the one before it (R243): 0 ZERO, 3 REPEAT, 2 SPLAT, 1 RAW, by the first test it passes. -/
def granuleCode (prev : Option (List Byte)) (b : List Byte) : Nat :=
  if b.all (fun x => decide (x = 0)) then 0
  else if prev = some b then 3
  else if (List.range 8).all (fun i => decide ((b.drop (8 * i)).take 8 = b.take 8)) then 2
  else 1

/-- The codes of the granules of a tile. -/
def tileCodes : Option (List Byte) → List (List Byte) → List Nat
  | _, [] => []
  | prev, b :: r => granuleCode prev b :: tileCodes (some b) r

/-- The payload of a granule by its code (R243). -/
def granulePayload (code : Nat) (b : List Byte) : List Byte :=
  match code with
  | 1 => b
  | 2 => b.take 8
  | _ => []

/-- The header of a tile: two bits a granule (R243). -/
def tileHeader (codes : List Nat) : List Byte := bytesOfNat 16 (codes.foldr (fun c n => c + 4 * n) 0)

/-- The encoding of 4 KiB, a shorter tile padded with zeros (R243). -/
def encodeTile (bs : List Byte) : List Byte :=
  let gs := tileGranules (padTo 4096 bs)
  let codes := tileCodes none gs
  tileHeader codes ++ (codes.zip gs).flatMap (fun p => granulePayload p.1 p.2)

/-- The length that a header implies (R243). -/
def impliedLength (codes : List Nat) : Nat :=
  16 + 64 * (codes.filter (fun c => decide (c = 1))).length + 8 * (codes.filter (fun c => decide (c = 2))).length

/-- The granules that codes and payloads stand for. -/
def decodeGranules : List Nat → List Byte → List Byte → List Byte
  | [], _, _ => []
  | c :: r, bs, prev =>
    match c with
    | 0 => List.replicate 64 0 ++ decodeGranules r bs (List.replicate 64 0)
    | 1 => bs.take 64 ++ decodeGranules r (bs.drop 64) (bs.take 64)
    | 2 =>
      let g := (List.replicate 8 (bs.take 8)).flatten
      g ++ decodeGranules r (bs.drop 8) g
    | _ => prev ++ decodeGranules r bs prev

/-- The codes in a header. -/
def headerCodes (h : Nat) : List Nat := (List.range 64).map (fun g => h / 4 ^ g % 4)

/-- UBYTES of doubleword 0 of an image (R244). -/
def imgUbytes (w : Word) : Nat := bits w 0 40
/-- T of doubleword 0 (R244). -/
def imgTiles (w : Word) : Nat := bits w 40 16
/-- Whether doubleword 0 keeps R244. -/
def imgOk (w : Word) : Bool := decide (bits w 56 8 = 0) && decide (imgTiles w = ceilDiv (imgUbytes w) 4096)

/-- The place and length of a tile by its table entry (R244); none when the entry has a reserved bit, or the tile passes
the image (R245). -/
def tilePlace (limit : Nat) (entry : Word) : Option (Nat × Nat) :=
  let off := bits entry 0 32
  let len := bits entry 32 16
  if bits entry 48 16 = 0 ∧ off + len ≤ limit then some (off, len) else none

/-- Tile k of an image that is read by offset and length, in an image space of limit bytes: none when it fails to decode
(R245). -/
def decodeTile (img : Nat → Nat → List Byte) (limit k : Nat) : Option (List Byte) :=
  let w0 := wordOfBytes (img 0 8)
  if !imgOk w0 ∨ imgTiles w0 ≤ k ∨ limit < 8 + 8 * imgTiles w0 then none
  else
    match tilePlace limit (wordOfBytes (img (8 + 8 * k) 8)) with
    | none => none
    | some (off, len) =>
      if len < 16 then none
      else
        let codes := headerCodes (natOfBytes (img off 16))
        if impliedLength codes ≠ len ∨ codes.head? = some 3 then none
        else some (decodeGranules codes (img (off + 16) (len - 16)) [])

/-- Tile k as it stands in an image, undecoded. -/
def rawTile (img : Nat → Nat → List Byte) (limit k : Nat) : Option (List Byte) :=
  let w0 := wordOfBytes (img 0 8)
  if !imgOk w0 ∨ imgTiles w0 ≤ k ∨ limit < 8 + 8 * imgTiles w0 then none
  else (tilePlace limit (wordOfBytes (img (8 + 8 * k) 8))).map (fun p => img p.1 p.2)

/-- The place of tile 0 in an image of T tiles (R244). -/
def tileStart (T : Nat) : Nat := alignUp (8 + 8 * T) 16

/-- The places of tiles of given lengths, from a position (R244). -/
def tilePlaces : Nat → List Nat → List Nat
  | _, [] => []
  | p, n :: r => p :: tilePlaces (alignUp (p + n) 16) r

/-- Doubleword 0 of an image (R244). -/
def imageHead (ubytes T : Nat) : Word := BitVec.ofNat 64 (T * 2 ^ 40 + ubytes)

/-- A table entry (R244). -/
def tileEntry (off len : Nat) : Word := BitVec.ofNat 64 (len * 2 ^ 32 + off)

/-- An image of tiles (R244). -/
def buildImage (ubytes : Nat) (tiles : List (List Byte)) : List Byte :=
  let T := tiles.length
  let ps := tilePlaces (tileStart T) (tiles.map (·.length))
  let table := (ps.zip tiles).flatMap (fun p => bytesOfWord 8 (tileEntry p.1 p.2.length))
  padTo (tileStart T) (bytesOfWord 8 (imageHead ubytes T) ++ table)
    ++ (ps.zip tiles).flatMap (fun p => padTo (alignUp p.2.length 16) p.2)

/-- The length of the image of a COMP page: the end of its last tile (R246). -/
def imageLength (img : Nat → Nat → List Byte) : Nat :=
  let e := wordOfBytes (img (8 + 8 * 15) 8)
  bits e 0 32 + bits e 32 16

end Sys2Proof.Machine
end

