-- ==== Sys2Proof/Machine/Memory.lean ====
section
/-! DEFINITION. Reading and writing memory and windows: the checks of 05_scalar R97–R99, the windows of 02_machine R35,
the marking of granules of 09_page R212–R217, and what every write does besides. -/

namespace Sys2Proof.Machine

/-- The code of a cause (R278). -/
def Cause.code : Cause → Nat
  | .illegal => 1
  | .illvtype => 2
  | .illfmt => 3
  | .pagefault => 4
  | .pageattr => 5
  | .misalign => 6
  | .turnfault => 7
  | .turnfull => 8
  | .chanlen => 9
  | .purity => 10
  | .depunder => 11
  | .object => 12
  | .engerr => 13
  | .eccfatal => 14
  | .ecall => 15
  | .ebreak => 16
  | .preempt => 17

/-- What a check or an access of memory answers: a value, a trap, or a wait for the switch of a migration. -/
inductive MemRes (α : Type) where
  | ok (a : α)
  | trap (t : Trap)
  | stall
deriving DecidableEq, Repr

/-- The next check or access, when this one has answered a value. -/
def MemRes.bind {α β : Type} (m : MemRes α) (f : α → MemRes β) : MemRes β :=
  match m with
  | .ok a => f a
  | .trap t => .trap t
  | .stall => .stall

/-- Who makes an access; of the copy engine, for which command and atom. -/
structure Who where
  ref    : HartRef
  core   : Nat
  tenant : Nat
  copy   : Option (Nat × Nat) := none
deriving DecidableEq, Repr

/-- The accessor that a hart is. -/
def State.who (s : State) (r : HartRef) : Who := { ref := r, core := (s.ctx r.cid).core, tenant := (s.ctx r.cid).tenant }

/-- A page fault at an address (R279: DETAIL 1 translation, 2 an address at or above 2^57, 3 a window miss). -/
def pageFault (acc detail a : Nat) : Trap := { cause := .pagefault, acc := acc, detail := detail, addr := BitVec.ofNat 64 a }

/-- An attribute fault at an address. -/
def pageAttr (acc a : Nat) : Trap := { cause := .pageattr, acc := acc, addr := BitVec.ofNat 64 a }

/-- The address a window miss reports (R35): the first byte of the access that lies in no window. -/
def windowMiss (c : Ctx) (a : Nat) : Nat :=
  match c.windowOf a with
  | some (true, _) => windowLo + c.isBytes
  | some (false, _) => osBase + c.osBytes
  | none => a

/-- The fault of an access that finds no translation (R197); an entry that cannot be read is an uncorrectable error (18_link
R422, 20_system R454). -/
def State.noPlace (s : State) (w : Who) (acc a : Nat) : Trap :=
  if s.walkFails w.core w.tenant a then { cause := .eccfatal, acc := acc, addr := BitVec.ofNat 64 a }
  else pageFault acc 1 a

/-- The first step of R99: where the bytes [a, a + n) lie, or the page fault of the lowest failing address. -/
def State.locate (s : State) (w : Who) (acc : Nat) (need : Need) (a n : Nat) : MemRes Region :=
  if 2 ^ 57 < a + n ∨ 2 ^ 57 ≤ a then .trap (pageFault acc 2 a)
  else if touchesWindows a n then
    let c := s.ctx w.ref.cid
    match c.windowOf a with
    | some (i, off) =>
      if off + n ≤ (if i then c.isBytes else c.osBytes) then .ok (.window i off)
      else .trap (pageFault acc 3 (windowMiss c a))
    | none => .trap (pageFault acc 3 a)
  else
    (pagePieces a n).foldr (fun p rest =>
      match s.translate w.core w.tenant need p.1 with
      | none => .trap (s.noPlace w acc p.1)
      | some pl => rest.bind (fun r =>
        match r with
        | .pages ps => .ok (.pages ((pl, p.1, p.2) :: ps))
        | r => .ok r)) (.ok (.pages []))

/-- The second step of R99: the first piece on a page kind that the access may not use. -/
def attrCheck (acc : Nat) (kinds : PageKind → Bool) (ps : List (Place × Nat × Nat)) : Option Trap :=
  (ps.find? (fun p => !kinds p.1.kind)).map (fun p => pageAttr acc p.2.1)

/-- The third step of R99: an access that is not aligned on a SYNC page. -/
def alignCheck (acc a align : Nat) (ps : List (Place × Nat × Nat)) : Option Trap :=
  if a % align = 0 then none
  else (ps.find? (fun p => decide (p.1.kind = .sync))).map
    (fun p => { cause := .misalign, acc := acc, addr := BitVec.ofNat 64 p.2.1 })

/-- The number of a pair of source core and destination stack (18_link R423). -/
def pairKey (core pa : Nat) : Nat := core * 8 + paStack pa

/-- Whether an access of a core to n bytes at pa comes after a multicast of the core that has not reached its destination, a
stack that the access goes to as well: the destination takes the packets of a source in order (18_link R423). -/
def State.behind (s : State) (core : Nat) (kind : PageKind) (pa n : Nat) : Bool :=
  decide (kind ≠ .hostmem) && s.packets.any (fun p => decide (p.writer = core)
    && (List.range (ceilDiv (pa % 4096 + n) 4096)).any (fun b =>
      decide (pairKey core (alignDown pa 4096 + 4096 * b) = pairKey core p.pa)))

/-- Whether a write to these pieces by a core waits for its multicasts (18_link R423). -/
def State.writesBehind (s : State) (core : Nat) (localOnly : Bool) (ps : List (Place × Nat × Nat)) : Bool :=
  ps.any (fun p =>
    (if p.1.kind = .repl ∧ !localOnly ∧ !p.1.loose then p.1.copies else [p.1.pa]).any (fun pa =>
      s.behind core p.1.kind pa p.2.2))

/-- The fourth step of R99 for a read: the first granule that fails its read check (R214). -/
def State.turnCheck (s : State) (core acc : Nat) (ps : List (Place × Nat × Nat)) : Option Trap :=
  (ps.flatMap (fun p => if p.1.kind.governed then (granPieces p.2.1 p.2.2).map (fun q => (p.1, p.2.1, q.1)) else []))
    |>.findSome? (fun q =>
      (s.readCheck core (granKey q.1.kind (q.1.pa + (q.2.2 - q.2.1)))).map (fun g =>
        { cause := .turnfault, acc := acc, level := g.level, writer := g.writer, addr := BitVec.ofNat 64 q.2.2 }))

/-- Whether every granule of a range passes the read check at a distance (R211, R214). -/
def State.paCheck (s : State) (d : Level) (kind : PageKind) (pa n : Nat) : Bool :=
  !kind.governed || (granPieces pa n).all (fun q => (s.readCheckAt d (granKey kind q.1)).isNone)

/-- The first half-atom with an uncorrectable error among parts of device memory. -/
def State.eccIn (s : State) (parts : List (Nat × Nat)) : Option Nat :=
  s.ecc.find? (fun h => parts.any (fun p => decide (p.1 / 32 ≤ h) && decide (h ≤ (p.1 + p.2 - 1) / 32)))

/-- The parts of a COMP page's frame that a read of its tile k reads (10_copies R244). -/
def State.tileParts (s : State) (frame k : Nat) : List (Nat × Nat) :=
  [(frame, 8), (frame + 8 + 8 * k, 8)] ++
    (match tilePlace 65536 (s.memWord (frame + 8 + 8 * k)) with
      | some p => [(frame + p.1, p.2)]
      | none => [])

/-- The parts of device memory that a read of a piece reads. -/
def State.readParts (s : State) (p : Place × Nat × Nat) : List (Nat × Nat) :=
  match p.1.kind with
  | .hostmem => []
  | .comp => s.tileParts (p.1.pa / 65536 * 65536) (p.1.pa % 65536 / 4096)
  | _ => [(p.1.pa, p.2.2)]

/-- Whether a read of these pieces by a core waits for its multicasts (18_link R423). -/
def State.readsBehind (s : State) (core : Nat) (ps : List (Place × Nat × Nat)) : Bool :=
  ps.any (fun p => (s.readParts p).any (fun q => s.behind core p.1.kind q.1 q.2))

/-- What a read answers once it may be made: its checks are made at its place among the core's packets, after every
multicast that it may not pass (11_ordering R260, R261; 18_link R423). -/
def State.afterSends {α : Type} (s : State) (core : Nat) (ps : List (Place × Nat × Nat)) (k : MemRes α) : MemRes α :=
  if s.readsBehind core ps then .stall else k

/-- The first block of 4 KiB of a piece to which a core has no route (18_link R422; blocks alternate between stacks, 09_page
R458), as an offset in the piece. -/
def State.unreached (s : State) (core : Nat) (p : Place × Nat × Nat) : Option Nat :=
  if s.noneDown then none
  else match p.1.kind with
    | .hostmem => if (s.routeOf core .hostmem p.1.pa).isSome then none else some 0
    | .comp => if (s.readParts p).all (fun q => s.reaches core q.1 q.2) then none else some 0
    | _ => ((List.range (ceilDiv (p.1.pa % 4096 + p.2.2) 4096)).find? (fun b =>
        (s.routeOf core p.1.kind (alignDown p.1.pa 4096 + 4096 * b)).isNone)).map (fun b =>
          alignDown p.1.pa 4096 + 4096 * b - p.1.pa)

/-- The first half-atom of a piece that holds an uncorrectable error, as an offset in the piece. -/
def State.marked (s : State) (p : Place × Nat × Nat) : Option Nat :=
  (s.eccIn (s.readParts p)).map (fun h => if p.1.kind = .comp then 0 else h * 32 - p.1.pa)

/-- The lower of two offsets. -/
def lower (a b : Option Nat) : Option Nat :=
  match a, b with
  | some x, some y => some (min x y)
  | some x, none => some x
  | none, y => y

/-- An uncorrectable error in the bytes of a core's read (20_system R454); a read without a route ends as one (18_link
R422). -/
def State.eccCheck (s : State) (core acc : Nat) (ps : List (Place × Nat × Nat)) : Option Trap :=
  ps.findSome? (fun p => (lower (s.unreached core p) (s.marked p)).map (fun o =>
    { cause := .eccfatal, acc := acc, addr := BitVec.ofNat 64 (p.2.1 + o) }))

/-- The bytes that a place holds. -/
def State.placeBytes (s : State) (pl : Place) (n : Nat) : List Byte :=
  if pl.kind = .hostmem then s.hostBytes pl.pa n else s.memBytes pl.pa n

/-- The bytes of a window. -/
def Ctx.windowBytes (c : Ctx) (inbound : Bool) (off n : Nat) : List Byte :=
  sgetList 0 (if inbound then c.isw else c.osw) off n

/-- Kinds that a scalar load may read (R98). -/
def loadKinds : PageKind → Bool
  | .comp => false
  | _ => true

/-- Kinds that a scalar store may write (R98). -/
def storeKinds : PageKind → Bool
  | .comp => false
  | .pool => false
  | _ => true

/-- Kinds that instruction fetch may read (03_encoding R42). -/
def fetchKinds : PageKind → Bool
  | .stream => true
  | .repl => true
  | .hostmem => true
  | _ => false

/-- Only SYNC pages: the atomics (R103). -/
def syncOnly : PageKind → Bool
  | .sync => true
  | _ => false

/-- Every kind. -/
def anyKind : PageKind → Bool := fun _ => true

/-- The first of two traps. -/
def orTrap {α : Type} (t : Option Trap) (k : MemRes α) : MemRes α :=
  match t with
  | some t => .trap t
  | none => k

/-- LoadMem (03_encoding R61) for the kinds and the alignment that the access states: n bytes from a, with the checks of
R99 in order; a fetch from the local window region takes PAGEATTR (03_encoding R42). -/
def State.loadFor (s : State) (w : Who) (acc : Nat) (need : Need) (kinds : PageKind → Bool) (align a n : Nat) :
    MemRes (List Byte) :=
  if acc = 3 ∧ touchesWindows a n then .trap (pageAttr acc (max a windowLo)) else
  (s.locate w acc need a n).bind (fun r =>
    match r with
    | .window true off => .ok ((s.ctx w.ref.cid).windowBytes true off n)
    | .window false _ => .trap (pageAttr acc a)
    | .pages ps =>
      orTrap (attrCheck acc kinds ps) <| orTrap (alignCheck acc a align ps) <|
      s.afterSends w.core ps <| orTrap (s.turnCheck w.core acc ps) <| orTrap (s.eccCheck w.core acc ps) <|
      .ok (ps.flatMap (fun p => s.placeBytes p.1 p.2.2)))

/-- A load by a hart (R97–R99). -/
def State.load (s : State) (w : Who) (a n : Nat) : MemRes (List Byte) := s.loadFor w 1 .read loadKinds n a n

/-- The granules of a range at some copies of a place. -/
def Place.granules (pl : Place) (pas : List Nat) (n : Nat) : List Nat :=
  pas.flatMap (fun pa => (granPieces pa n).map (fun q => granKey pl.kind q.1))

/-- The granules in which [a, a + n) lies for an accessor, those of every copy among them or those of its own alone; none in the
local window region. -/
def State.rangeKeys (s : State) (w : Who) (all : Bool) (a n : Nat) : List Nat :=
  (pagePieces a n).flatMap (fun p =>
    if touchesWindows p.1 p.2 then []
    else match s.translate w.core w.tenant .nothing p.1 with
      | some pl => pl.granules (if all then pl.copies else [pl.pa]) p.2
      | none => [])

/-- The bytes that a refill read for a buffered element lay, or now lie, in one of these granules (10_copies R249;
notes/assumptions/120). -/
def State.bufferedIn (s : State) (w : Who) (keys : List Nat) (b : Buffered) : Bool :=
  b.keys.any keys.contains || b.reads.any (fun r => (s.rangeKeys w false r.1 r.2).any keys.contains)

/-- What reaches a core and invalidates its inbound copies of some granules, a TURN or a turned copy, drops each buffered strip
of its contexts that overlaps them, and those after it (02_machine R36; 10_copies R249). -/
def State.dropStrips (s : State) (core : Nat → Bool) (keys : List Nat) : State :=
  { s with ctxs := s.ctxs.map (fun e =>
      if core e.2.core then
        (e.1, { e.2 with streams := e.2.streams.map (fun x => (x.1, { x.2 with strips := x.2.strips.takeWhile (fun l =>
          !l.any (s.bufferedIn { ref := { cid := e.1, kind := .ch }, core := e.2.core, tenant := e.2.tenant } keys)) })) })
      else e) }

/-- WGEN of a frame after a write (09_page R210): up by 1 at the first write after each reading. -/
def State.wgenWrite (s : State) (frame : Nat) : Table WGen :=
  match tget s.wgen frame with
  | some g => if g.read then tput s.wgen frame { gen := g.gen + 1, read := false } else s.wgen
  | none => s.wgen

/-- WGEN of a frame. -/
def State.wgenOf (s : State) (frame : Nat) : Word := ((tget s.wgen frame).map (·.gen)).getD 0

/-- A reading of WGEN by the reuse machinery (R210). -/
def State.wgenRead (s : State) (frame : Nat) : State :=
  { s with wgen := tput s.wgen frame { gen := s.wgenOf frame, read := true } }

/-- DEAD entries that no hit reads and no task claims are EMPTY (17_reuse R389). -/
def emptied (t : Table ReuseEntry) : Table ReuseEntry :=
  t.filter (fun e => !(decide (e.2.state = .dead) && decide (e.2.readers = 0) && !e.2.claimed))

/-- The reuse entries after a write to a frame: every entry that recorded it is DEAD (17_reuse R401), or EMPTY at once
(R389). -/
def dropRecorded (frame : Nat) (t : Table ReuseEntry) : Table ReuseEntry :=
  emptied (t.map (fun e =>
    if e.2.pages.contains frame ∧ e.2.state ≠ .dead then (e.1, { e.2 with state := .dead }) else e))

/-- The entries that a write to a frame drops, by tenant. -/
def droppedBy (frame : Nat) (t : Table ReuseEntry) : List Nat :=
  (t.filter (fun e => e.2.pages.contains frame && decide (e.2.state ≠ .dead))).map (·.2.tenant)

/-- DROPS counts entries made DEAD (R408). -/
def State.countDrops (s : State) : List Nat → State
  | [] => s
  | t :: r =>
    let x := s.tenant t
    (s.withTenant t { x with counts := sset 0 x.counts 5 (sget 0 x.counts 5 + 1) }).countDrops r

/-- A trap record after a write: the first value of its REPLY whose ACTION is not 0 stands (12_context R290). -/
def State.checkReply (s : State) (pa n : Nat) (t : TrapRec) : TrapRec :=
  match t.ringAt with
  | some a => if pa < a + 128 ∧ a + 120 < pa + n ∧ bits t.reply 0 3 = 0 then { t with reply := s.memWord (a + 120) } else t
  | none => t

/-- The watches after a write: the home slice checks each write against every watch (05_scalar R107) and every REPLY
(12_context R290). -/
def State.checkWatches (s : State) (pa n : Nat) : State :=
  { s with watches := s.watches.map (fun w =>
      if pa < w.pa + 8 ∧ w.pa < pa + n ∧ s.memWord w.pa = w.want then { w with hit := true } else w)
           traps := s.traps.map (s.checkReply pa n) }

/-- Half-atoms with an error after a write of [pa, pa + n): one that the write covers has none (20_system R454). -/
def unmarked (pa n : Nat) (marks : List Nat) : List Nat :=
  marks.filter (fun h => !(decide (pa ≤ h * 32) && decide (h * 32 + 32 ≤ pa + n)))

/-- What a write to one copy does within one granule: the bytes; the granule's state, by the writer and the arrival
level (R212, R213); WGEN; the source filters; the watches; the error marks of half-atoms it covers. -/
def State.writePiece (s : State) (kind : PageKind) (pa : Nat) (bs : List Byte) (writer : Nat) (level : Level)
    (tenant : Nat) : State :=
  let key := granKey kind pa
  let frame := frameKey kind pa
  let s1 :=
    if kind = .hostmem then { s with hostMem := ssetList 0 s.hostMem pa bs }
    else { s with mem := ssetList 0 s.mem pa bs
                  ecc := unmarked pa bs.length s.ecc, reported := unmarked pa bs.length s.reported
                  soft := unmarked pa bs.length s.soft }
  let s2 :=
    if kind.governed then
      { s1 with gran := if level = .host then tdel s1.gran key
                        else tput s1.gran key { writer := writer, level := level, tenant := tenant, comp := none } }
    else s1
  let s3 := { s2 with wgen := s2.wgenWrite frame
                      reuse := dropRecorded frame s2.reuse
                      outWatch := s2.outWatch.map (fun (o : OutWatch) => if o.key = key then { o with dirty := true } else o) }
  (s3.countDrops (droppedBy frame s2.reuse)).checkWatches pa bs.length

/-- A write to consecutive bytes of one copy within a block of 4 KiB, granule by granule; without a route it is discarded
(18_link R422). -/
def State.writeBlock (s : State) (kind : PageKind) (pa : Nat) (bs : List Byte) (writer : Nat) (level : Level)
    (tenant : Nat) : State :=
  if !s.routeTo writer kind pa then s.lostWrite tenant writer pa bs.length
  else (granPieces pa bs.length).foldl
    (fun s q => s.writePiece kind q.1 ((bs.drop (q.1 - pa)).take q.2) writer level tenant) s

/-- A write to consecutive bytes of one copy, block by block: the blocks alternate between stacks (09_page R458), and each has
a route of its own. -/
def State.writeCopy (s : State) (kind : PageKind) (pa : Nat) (bs : List Byte) (writer : Nat) (level : Level)
    (tenant : Nat) : State :=
  (blockPieces pa bs.length).foldl
    (fun s q => s.writeBlock kind q.1 ((bs.drop (q.1 - pa)).take q.2) writer level tenant) s

/-- The sequence numbers of a pair: the next to be sent, and the one that the destination awaits (18_link R423). -/
def State.pair (s : State) (key : Nat) : BitVec 16 × BitVec 16 := (tget s.pairs key).getD (0, 0)

/-- The bits of an element put into a byte of a copy (R134, sub-byte stores). -/
def putBits (b : Byte) (shift w x : Nat) : Byte :=
  BitVec.ofNat 8 (b.toNat - b.toNat / 2 ^ shift % 2 ^ w * 2 ^ shift + x * 2 ^ shift)

/-- A multicast sent to one replica (11_ordering R266), with the next sequence number of its pair (18_link R423). -/
def State.sendPacket (s : State) (w : Who) (level : Level) (part : Option (Nat × Nat)) (bs : List Byte) (pa : Nat) :
    State :=
  let key := pairKey w.core pa
  let n := s.pair key
  { s with packets := s.packets ++ [{ id := s.serial, seq := n.1, ref := w.ref, copy := w.copy, pa := pa, bytes := bs,
                                      part := part, writer := w.core, level := level, tenant := w.tenant }]
           pairs := tput s.pairs key (n.1 + 1, n.2)
           serial := s.serial + 1 }

/-- The multicast of a LOOSE page to the replicas of the other dies. -/
def State.multicast (s : State) (pl : Place) (bs : List Byte) (part : Option (Nat × Nat)) (w : Who) (level : Level) :
    State :=
  (pl.copies.filter (fun pa => decide (pa ≠ pl.pa))).foldl (fun s pa => s.sendPacket w level part bs pa) s

/-- A write to a place: one copy; every replica of a REPL page under ATOMIC; under LOOSE the writer's own replica at
once, and the others when the multicast reaches them (R209, 11_ordering R266); one replica for ST.LOCAL (R102). -/
def State.writePlace (s : State) (pl : Place) (bs : List Byte) (w : Who) (level : Level) (localOnly : Bool) : State :=
  if pl.kind = .repl ∧ !localOnly then
    if pl.loose then (s.writeCopy pl.kind pl.pa bs w.core level w.tenant).multicast pl bs none w level
    else pl.copies.foldl (fun s pa => s.writeCopy pl.kind pa bs w.core level w.tenant) s
  else s.writeCopy pl.kind pl.pa bs w.core level w.tenant

/-- How many of these copies a write below DEV would add to the writer core's count, multicasts and unaligned stores under way
included (R213, R217). -/
def State.newPending (s : State) (core : Nat) (keys : List Nat) : Nat :=
  (keys.filter (fun k => !s.counted core k)).length

/-- The first piece whose marking would exceed TURNCAP (R217), with the count so far. -/
def State.fullAt (s : State) (core : Nat) (level : Level) (localOnly : Bool) :
    List (Place × Nat × Nat) → Nat → Option Nat
  | [], _ => none
  | (pl, va, n) :: rest, c =>
    let c' := c + s.newPending core (pl.marks n localOnly)
    if level.rank < 4 ∧ Config.turnCap < c' then some va else s.fullAt core level localOnly rest c'

/-- The pieces of a region cut at granules. -/
def granSplit (ps : List (Place × Nat × Nat)) : List (Place × Nat × Nat) :=
  ps.flatMap (fun p => (granPieces p.2.1 p.2.2).map (fun q =>
    ({ p.1 with pa := p.1.pa + (q.1 - p.2.1), copies := p.1.copies.map (· + (q.1 - p.2.1)) }, q.1, q.2)))

/-- Whether a write to these pieces waits for a migration (R204). -/
def State.anyMigrating (s : State) (ps : List (Place × Nat × Nat)) : Bool :=
  ps.any (fun p => s.migrating p.1.kind p.1.pa)

/-- The checks of a store (R99), in order: where it writes, or the fault. -/
def State.storeCheck (s : State) (w : Who) (need : Need) (kinds : PageKind → Bool) (align : Nat) (level : Level)
    (localOnly : Bool) (a n : Nat) : MemRes Region :=
  (s.locate w 2 need a n).bind (fun r =>
    match r with
    | .window true _ => .trap (pageAttr 2 a)
    | .window false off => if w.ref.kind = .fh then .trap (pageAttr 2 a) else .ok (.window false off)
    | .pages ps =>
      orTrap (attrCheck 2 kinds ps) <| orTrap (alignCheck 2 a align ps) <|
      match s.fullAt w.core level localOnly (granSplit ps) (s.pending w.core + s.underWay w.core) with
      | some va => .trap { cause := .turnfull, acc := 2, addr := BitVec.ofNat 64 va }
      | none => if s.anyMigrating ps || s.writesBehind w.core localOnly ps then .stall else .ok (.pages ps))

/-- The writing of bytes to a region that has passed its checks. -/
def State.writeRegion (s : State) (w : Who) (level : Level) (localOnly : Bool) (a : Nat) (bs : List Byte) :
    Region → State
  | .window true off =>
    let c := s.ctx w.ref.cid
    s.withCtx w.ref.cid { c with isw := ssetList 0 c.isw off bs }
  | .window false off =>
    let c := s.ctx w.ref.cid
    s.withCtx w.ref.cid { c with osw := ssetList 0 c.osw off bs }
  | .pages ps =>
    ps.foldl (fun s p => s.writePlace p.1 ((bs.drop (p.2.1 - a)).take p.2.2) w level localOnly) s

/-- A write to pages that has passed its checks and turns what it writes to an arrival level: it reaches cores as a TURN of that
level does (02_machine R36). -/
def State.writeTurned (s : State) (w : Who) (level : Level) (a : Nat) (bs : List Byte) (ps : List (Place × Nat × Nat)) : State :=
  let s1 := s.writeRegion w level false a bs (.pages ps)
  if level = .none then s1 else s1.dropStrips (level.reaches w.core) (ps.flatMap (fun p =>
    if p.1.kind.governed then p.1.granules (if p.1.loose then [p.1.pa] else p.1.copies) p.2.2 else []))

/-- StoreMem (R61): the bytes written at a, with the checks of R99 in order. -/
def State.store (s : State) (w : Who) (a : Nat) (bs : List Byte) : MemRes State :=
  (s.storeCheck w .write storeKinds bs.length .none false a bs.length).bind
    (fun r => .ok (s.writeRegion w .none false a bs r))

/-- The checks of an atomic (R103): PAGEFAULT, PAGEATTR, then MISALIGN when the address is not a multiple of align;
the physical address of the doubleword. -/
def State.atomicCheck (s : State) (w : Who) (acc : Nat) (need : Need) (align a n : Nat) : MemRes Place :=
  (s.locate w acc need a n).bind (fun r =>
    match r with
    | .window _ _ => .trap (pageAttr acc a)
    | .pages ps =>
      orTrap (attrCheck acc syncOnly ps) <|
      if a % align ≠ 0 then .trap { cause := .misalign, acc := acc, addr := BitVec.ofNat 64 a }
      else match ps with
        | p :: _ => s.afterSends w.core ps (orTrap (if need = .write then none else s.eccCheck w.core acc ps) (.ok p.1))
        | [] => .trap (pageFault acc 1 a))

/-- A write at the home slice of a SYNC page. -/
def State.syncWrite (s : State) (w : Who) (pa : Nat) (bs : List Byte) : State :=
  s.writeCopy .sync pa bs w.core .none w.tenant

/-- A write by the host, a peer or the device itself within a granule, arriving CLEAN (R213, R216): raw bytes of a page
that is COMP leave its logical granules as they are (R208; notes/assumptions/60). -/
def State.cleanPiece (s : State) (pa : Nat) (bs : List Byte) : State :=
  let s1 := s.writePiece .stream pa bs 0 .host 0
  match tget s.gran (pa / 64) with
  | some g => if s.compFrame pa then { s1 with gran := tput s1.gran (pa / 64) g } else s1
  | none => s1

/-- A write by the host, a peer or the device itself to device memory, arriving CLEAN (R213, R216); unpopulated
addresses discard it (R458). -/
def State.cleanWrite (s : State) (pa : Nat) (bs : List Byte) : State :=
  (granPieces pa bs.length).foldl (fun s q =>
    if populated q.1 q.2 then s.cleanPiece q.1 ((bs.drop (q.1 - pa)).take q.2) else s) s

/-- A write within a block by device machinery that stands at a core, without a route discarded (18_link R422). -/
def State.devWrite (s : State) (core tenant pa : Nat) (bs : List Byte) : State :=
  if s.reaches core pa bs.length then s.cleanWrite pa bs else s.lostWrite tenant core pa bs.length

end Sys2Proof.Machine
end

