-- ==== Sys2Proof/Machine/Stores.lean ====
section
/-! DEFINITION. Unaligned stores: once their checks have passed, their bytes are written in several moves, and an
interruption finds them complete (05_scalar R99, R100; 12_context R274; notes/assumptions/2). -/

namespace Sys2Proof.Machine

/-- One byte of a region, at place j of its access. -/
def Region.byteAt (a j : Nat) : Region → Region
  | .window i off => .window i (off + j)
  | .pages ps => .pages ((granSplit ps).filterMap (fun p =>
      if p.2.1 ≤ a + j ∧ a + j < p.2.1 + p.2.2 then
        some ({ p.1 with pa := p.1.pa + (a + j - p.2.1), copies := p.1.copies.map (· + (a + j - p.2.1)) }, a + j, 1)
      else none))

/-- The places of a store that a move writes, in order (R100): all of them at once within a naturally aligned block; else
those of the move that are left. -/
def State.placesNow (s : State) (x : Split) : List Nat :=
  if x.base % x.data.length = 0 then x.left
  else match s.bytesNow with
    | none => x.left
    | some js => (js.filter (fun j => x.left.contains j)).dedup

/-- The writing of bytes of a store: all of them at once, or one by one. -/
def Split.write (x : Split) (w : Who) (js : List Nat) (s : State) : State :=
  if js = List.range x.data.length then s.writeRegion w .none x.localOnly x.base x.data x.region
  else js.foldl (fun s j =>
    s.writeRegion w .none x.localOnly (x.base + j) [x.data.getD j 0] (x.region.byteAt x.base j)) s

/-- A store of which bytes have been written. -/
def Split.after (x : Split) (js : List Nat) : Split := { x with left := x.left.filter (fun j => !js.contains j) }

/-- The hart after its store: its reads have cleared unread-error bits (12_context R287), and PC is behind it. -/
def Hart.endStore (h : Hart) (x : Split) (unread : List Nat) : Hart :=
  { h with split := none, unread := unread, pc := h.pc + BitVec.ofNat 64 x.len }

/-- The unread-error bits after the reads of a store. -/
def Split.unread (x : Split) (h : Hart) : List Nat :=
  h.unread.filter (fun n => !(x.reads.any (fun r => decide (r.toNat = n))))

/-- A hart with a store under way ends it: an interruption finds the instruction complete (12_context R274). -/
def State.finishStore (s : State) (r : HartRef) : State :=
  match (s.hart r).split with
  | none => s
  | some x =>
    let s1 := x.write (s.who r) x.left s
    let h := s1.hart r
    s1.withHart r (h.endStore x (x.unread h))

/-- Whether a store writes to the 64 KiB frame of a physical address. -/
def Split.writes (x : Split) (pa : Nat) : Bool :=
  match x.region with
  | .window _ _ => false
  | .pages ps => ps.any (fun p => decide (p.1.kind ≠ .hostmem) && p.1.copies.any (fun q => decide (q / 65536 = pa / 65536)))

/-- Whether a store under way writes to a frame: a migration of it starts once no store does (09_page R204;
notes/assumptions/2). -/
def State.storing (s : State) (pa : Nat) : Bool :=
  s.ctxs.any (fun e => [e.2.ch, e.2.fh, e.2.dh].any (fun h => h.split.any (fun x => x.writes pa)))

end Sys2Proof.Machine
end

