-- ==== Sys2Proof/Machine/HitCopy.lean ====
section
/-! DEFINITION. The image of a reuse entry and the copy of a hit (17_reuse R392, R400). -/

namespace Sys2Proof.Machine

/-- The output ranges with their offsets in the image (R400). -/
def imageLayout : List (Nat × Nat) → Nat → List (Nat × Nat × Nat)
  | [], _ => []
  | (a, n) :: r, off => (a, n, off) :: imageLayout r (off + 64 * ceilDiv n 64)

/-- The length of the image. -/
def imageSize (outs : List (Nat × Nat)) : Nat := (outs.map (fun o => 64 * ceilDiv o.2 64)).foldl (· + ·) 0

/-- The copy of a hit to one output range, with arrival level DEV; none when it meets a fault. -/
def State.hitRange (s : State) (w : Who) (image : Nat) (o : Nat × Nat × Nat) : Option State :=
  match s.locate w 2 .write o.1 o.2.1 with
  | .ok (.pages ps) =>
    if ps.all (fun p => decide (p.1.kind = .stream)) then
      some (s.writeTurned w .dev o.1 (s.memBytes (image + o.2.2) o.2.1) ps)
    else none
  | _ => none

/-- The copy of a hit by a core for a tenant (R392): every output range from the image; none when it meets a fault. -/
def State.hitCopy (s : State) (w : Who) (outs : List (Nat × Nat)) (e : Nat) : Option State :=
  match tget s.reuse e with
  | none => none
  | some x =>
    if s.imageBad w.core x.imgPa (imageSize outs) then none
    else (imageLayout outs 0).foldl (fun s o => s.bind (fun s => s.hitRange w x.imgPa o)) (some s)

/-- Whether the copy of a hit waits: an output page is MIGRATING (09_page R204), or multicasts of the core are under way to a
stack that it reads or writes (18_link R423). -/
def State.hitWaits (s : State) (w : Who) (outs : List (Nat × Nat)) (e : Nat) : Bool :=
  (match tget s.reuse e with
    | none => false
    | some x => s.behind w.core .pool x.imgPa (imageSize outs))
  || outs.any (fun o =>
    match s.locate w 2 .write o.1 o.2 with
    | .ok (.pages ps) => s.anyMigrating ps || s.writesBehind w.core false ps
    | _ => false)

/-- The entry of the tables that ends the copy of a hit at its first failing output range is logged (20_system R447). -/
def State.logRanges (s : State) (w : Who) : List (Nat × Nat) → State
  | [] => s
  | o :: r =>
    match s.locate w 2 .write o.1 o.2 with
    | .ok (.pages ps) => if ps.all (fun p => decide (p.1.kind = .stream)) then s.logRanges w r else s
    | .trap t => if t.cause = .eccfatal then s.logBadEntry w.core w.tenant t.addr.toNat else s
    | _ => s

/-- The uncorrectable error that ends the copy of a hit, of the image or of a table, is logged (20_system R447). -/
def State.logImage (s : State) (w : Who) (outs : List (Nat × Nat)) (e : Nat) : State :=
  match tget s.reuse e with
  | none => s
  | some x =>
    if s.imageBad w.core x.imgPa (imageSize outs) then s.logUncorr w.tenant w.core x.imgPa else s.logRanges w outs

/-- One reader less of an entry; a DEAD one that nothing holds is EMPTY (R389). -/
def State.endRead (s : State) (e : Nat) : State :=
  match tget s.reuse e with
  | none => s
  | some x => { s with reuse := emptied (tput s.reuse e { x with readers := x.readers - 1 }) }

/-- The copy of a hit of which only the copy is left: it is made, or ends at its fault, and the entry has one reader less
(R412). -/
def State.endCopy (s : State) (w : Who) (outs : List (Nat × Nat)) (e : Nat) : State :=
  ((s.hitCopy w outs e).getD (s.logImage w outs e)).endRead e

/-- The copy of a hit that a KILL finds under way completes, at once or when what keeps it has passed; its decrement is not
made (R412). -/
def State.endHit (s : State) (r : HartRef) : State :=
  match (s.hart r).pure with
  | some p =>
    match p.phase with
    | .hit e =>
      let w := s.who r
      if s.hitWaits w p.outputs e then
        { s with hits := s.hits ++ [{ ref := r, core := w.core, tenant := w.tenant, outputs := p.outputs, entry := e }] }
      else s.endCopy w p.outputs e
    | _ => s
  | none => s

/-- The accessor of a copy that a KILL has left. -/
def LateHit.who (h : LateHit) : Who := { ref := h.ref, core := h.core, tenant := h.tenant }

/-- The first copy that a KILL has left of a hart goes on (R412). -/
def State.lateHit (s : State) (r : HartRef) : Option State :=
  (s.hits.find? (fun h => decide (h.ref = r))).map (fun h =>
    if s.hitWaits h.who h.outputs h.entry then s
    else ({ s with hits := s.hits.filter (fun x => decide (x ≠ h)) } : State).endCopy h.who h.outputs h.entry)

end Sys2Proof.Machine
end

