-- ==== Sys2Proof/Machine/EventLog.lean ====
section
/-! DEFINITION. The end of a kernel: its completion word (13_kernel R300), the freeing of its slots, channels and
barriers, and KILL (12_context R292). -/

namespace Sys2Proof.Machine

/-- An error that cannot be corrected, met by a read of a core at a virtual address (20_system R447): the log names the
physical address, or that of the entry or descriptor that its translation could not read. -/
def State.logEcc (s : State) (w : Who) (a : Nat) : State :=
  s.logUncorr w.tenant w.core
    (((s.translate w.core w.tenant .nothing a).map (·.pa)).getD ((s.badEntry w.core w.tenant a).getD 0))

/-- The completion word (R300). -/
def complWord (k : Kernel) : Word :=
  BitVec.ofNat 64 ((if k.state = .faulted then 2 ^ 63 else 0) + (if k.state = .faulted then k.reason else 0) * 2 ^ 56
    + (if k.late then 2 ^ 55 else 0) + k.number.toNat)

/-- Where a completion word goes (R300): a SYNC or a HOSTMEM page, translated as a store that needs W; a COMPL that is not
aligned as well (notes/assumptions/104). -/
def State.complPlace (s : State) (k : Kernel) : Option Place :=
  let a := k.rcd.compl.toNat
  if 2 ^ 57 ≤ a ∨ touchesWindows a 8 then none
  else (s.translateDev 0 k.tenant .write a).filter (fun pl => decide (pl.kind = .sync) || decide (pl.kind = .hostmem))

/-- The writing of the completion word (R300): at level HOST; COMPLLOST where it has no place. Reason 7, RECORD, writes
none. The word is routed from core 0 (notes/assumptions/104). -/
def State.writeCompletion (s : State) (k : Kernel) : State :=
  if k.rcd.compl = 0 ∨ k.reason = 7 then s else
  match s.complPlace k with
  | none => (s.logBadEntry 0 k.tenant k.rcd.compl.toNat).logEvent .compllost k.tenant 0 .none k.rcd.compl (k.number.setWidth 64)
  | some pl => s.writeCopy pl.kind pl.pa (bytesOfWord 8 (complWord k)) 0 .host k.tenant

/-- Whether a hart's context is one of a kernel, or was until it was freed: contexts are numbered by kernel. -/
def HartRef.ofKernel (r : HartRef) (k : Nat) : Bool := decide (r.cid / 384 = k)

/-- Whether copies, multicasts or hit copies of a kernel are still under way (R300, R313). -/
def State.writesLeft (s : State) (k : Nat) : Bool :=
  s.allCopies.any (fun c => c.ref.ofKernel k) || s.packets.any (fun p => p.ref.ofKernel k)
    || s.hits.any (fun h => h.ref.ofKernel k)

/-- Whether the writing of a completion word waits: its page is MIGRATING (09_page R204), or multicasts of the core that it is
routed from are under way to its stack (18_link R423). -/
def State.complWaits (s : State) (k : Kernel) : Bool :=
  (s.complPlace k).any (fun pl => s.migrating pl.kind pl.pa || s.behind 0 pl.kind pl.pa 8)

/-- The completion word that a kernel which has ended owes: it is written once every write of the kernel has performed
(R300), and nothing keeps it. -/
def State.payCompletion (s : State) (k : Nat) : State :=
  match s.kernel k with
  | none => s
  | some x =>
    if !x.owed || s.writesLeft k || s.complWaits x then s
    else (s.withKernel k { x with owed := false }).writeCompletion x

/-- DEAD entries that no hit reads and no task claims become EMPTY (R389). -/
def State.sweepDead (s : State) : State := { s with reuse := emptied s.reuse }

/-- A hart's claim is released: FILLING to EMPTY; a DEAD entry is EMPTY once no hit reads it (17_reuse R389, R397). -/
def State.releaseClaim (s : State) (entry : Option Nat) : State :=
  match entry with
  | none => s
  | some e =>
    match tget s.reuse e with
    | some x => if x.state = .filling then { s with reuse := tdel s.reuse e }
                else ({ s with reuse := tput s.reuse e { x with claimed := false } } : State).sweepDead
    | none => s


/-- The claim that a hart's pure state holds. -/
def Hart.claim (h : Hart) : Option Nat := h.pure.bind (·.claim)

/-- n sparse words that the manual leaves undefined, drawn from a counter (notes/assumptions/6). -/
def freeHalf (ctr n : Nat) : Sparse (BitVec 32) :=
  (List.range n).filterMap (fun i =>
    let v := (Config.freeWord (ctr + i)).setWidth 32
    if v = 0 then none else some (i, v))

/-- The sorus file of a core when a context leaves it: its half holds what it held (08_sorus R181); after a FULL context
slot 1's half is undefined (02_machine R26). -/
def State.leaveSorus (s : State) (c : Ctx) : State :=
  let s1 : State :=
    { s with sorusOff := tput s.sorusOff (c.core * 2 + c.slot) { words := c.sorus, lineage := c.lineage } }
  if c.slotState = .saved then s
  else if c.full then
    { s1 with sorusOff := tput s1.sorusOff (c.core * 2 + 1) { words := freeHalf s1.freeCtr 16384, lineage := [] }
              freeCtr := s1.freeCtr + 16384 }
  else s1

/-- A context leaves its slot: a store under way is completed (R274), the slot is FREE, its commands go on without a token
(R292) and what they read of it stays until they have ended, its claims are released, its watches end, its half of the sorus
file keeps what it holds (08_sorus R181). -/
def State.freeCtx (s : State) (cid : Nat) : State :=
  let s0 := [HartKind.ch, .fh, .dh].foldl (fun s k =>
    (s.finishStore { cid := cid, kind := k }).endHit { cid := cid, kind := k }) s
  let c := s0.ctx cid
  let s1 := (((s0.releaseClaim c.ch.claim).releaseClaim c.fh.claim).releaseClaim c.dh.claim)
  let s2 := c.conts.foldl (fun s k => s.releaseClaim (k.pure.bind (·.claim))) s1
  let s3 := s2.leaveSorus c
  { s3 with
    ctxs := if s3.allCopies.any (fun x => decide (x.ref.cid = cid)) then tput s3.ctxs cid { c with slotState := .free }
            else tdel s3.ctxs cid
    copies := s3.copies.map (fun e => (e.1, e.2.map (fun (x : CopyCmd) =>
      if x.ref.cid = cid then { x with tok := .none, record := none } else x)))
    starts := s3.starts.filter (fun r => decide (r.cid ≠ cid))
    watches := s3.watches.filter (fun w => decide (w.ref.cid ≠ cid))
    outWatch := s3.outWatch.filter (fun w => decide (w.ref.cid ≠ cid))
    traps := s3.traps.filter (fun t => decide (t.ref.cid ≠ cid)) }

/-- The contexts of a kernel. -/
def State.ctxsOf (s : State) (k : Nat) : List Nat :=
  (s.ctxs.filter (fun e => decide (e.2.kernel = k) && decide (e.2.slotState ≠ .free))).map (·.1)

/-- The barriers of a kernel are freed (16_barrier R362). -/
def State.freeBarriers (s : State) (k : Nat) : State :=
  { s with quadBars := s.quadBars.filter (fun e => decide (e.2.owner ≠ some k))
           dieBars := s.dieBars.filter (fun e => decide (e.2.owner ≠ some k)) }

/-- A kernel reaches RETIRED or FAULTED: its slots, channels and barriers are free, and it owes its completion word
(R300, R313, R317). -/
def State.endKernel (s : State) (k : Nat) (st : KState) (reason : Nat) : State :=
  match s.kernel k with
  | none => s
  | some x =>
    let s1 := ((s.ctxsOf k).foldl (fun s c => s.freeCtx c) s).freeBarriers k
    let x' := { x with state := st, reason := reason, owed := true, ready := [], farm := 0, farmN := 0, farmNext := 0,
                       chans := x.chans.map (fun c => { c with msgs := [] }) }
    (s1.withKernel k x').payCompletion k

/-- KILL (R292, R295): every context of the kernel stops, and the kernel is FAULTED. -/
def State.killKernel (s : State) (k : Nat) (reason : Nat) : State := s.endKernel k .faulted reason

/-- KILL of a context: of every context of its kernel. -/
def State.killCtx (s : State) (cid : Nat) : State :=
  match s.kernel (s.ctx cid).kernel with
  | none => s.freeCtx cid
  | some _ => s.killKernel (s.ctx cid).kernel 9

end Sys2Proof.Machine
end

