-- ==== Sys2Proof/Machine/Ops.lean ====
section
/-! DEFINITION. The shared operations: taking a trap (12_context R278–R284, R288, R291), the return from one (R285),
and the frame that every scalar instruction runs in: the waits and the error bits of its registers (R85, R232, R287). -/

namespace Sys2Proof.Machine

/-- What an instruction does: it completes; it traps; or it cannot complete yet, yielding its issue slots or not
(13_kernel R310). In the last two the state carries what stands in spite of that. -/
inductive Res where
  | done (s : State)
  | trap (t : Trap) (s : State)
  | wait (yields : Bool) (s : State)
deriving DecidableEq, Repr

/-- An access of memory inside an instruction: its trap, or the wait of a write for a migration (R204). -/
def MemRes.elim {α : Type} (m : MemRes α) (s : State) (k : α → Res) : Res :=
  match m with
  | .ok a => k a
  | .trap t => .trap t s
  | .stall => .wait false s

/-- EN of TRAPVEC (R281). -/
def Ctx.trapEn (c : Ctx) : Bool := bit c.trapvec 63

/-- TRAPINFO of a trap (R279). -/
def trapInfo (t : Trap) (vq dbl : Bool) : Word :=
  BitVec.ofNat 64 (t.cause.code * 2 ^ 58 + (if vq then 2 ^ 57 else 0) + (if dbl then 2 ^ 56 else 0) + t.acc * 2 ^ 54
    + t.level.rank * 2 ^ 51 + t.writer * 2 ^ 42 + t.detail * 2 ^ 34 + t.elem * 2 ^ 14)

/-- Whether a cause goes to the supervisor whatever TRAPVEC says (R278). -/
def Trap.toSupervisor (t : Trap) : Bool :=
  match t.cause with
  | .eccfatal => true
  | .ecall => true
  | .pagefault => decide (t.detail = 1)
  | _ => false

/-- A translation fault, which stalls one hart or one VIQ entry (R291). -/
def Trap.isXlat (t : Trap) : Bool := decide (t.cause = .pagefault) && decide (t.detail = 1)

/-- A lookup that waits is abandoned: it is made again from its start (17_reuse R412). -/
def PureState.interrupted (p : PureState) : PureState := if p.phase = .lookup then { p with key := none } else p

/-- An interruption of a hart (R274): a store that has written some of its bytes is completed; a waiting instruction, or a
waiting lookup, is abandoned without effect. -/
def State.interrupt (s0 : State) (r : HartRef) : State :=
  let s := s0.finishStore r
  let h := s.hart r
  let s1 := s.withHart r { h with twait := none, barwait := none, fenceHb := none, part := [], yielding := false,
                                  pure := h.pure.map PureState.interrupted }
  { s1 with watches := s1.watches.filter (fun w => decide (w.ref ≠ r)) }

/-- A trap leaves the instruction at the PC of its own hart unexecuted, whatever it waited for (R283, R284). -/
def State.abandon (s : State) (r : HartRef) : State :=
  let s1 := s.interrupt r
  s1.withHart r { s1.hart r with pendCsr := none }

/-- The resume PC of a trap (R283): the next instruction for ECALL and EBREAK, else the instruction itself. -/
def resumePc (t : Trap) (h : Hart) : Word :=
  match t.cause with
  | .ecall => h.pc + 4
  | .ebreak => h.pc + 4
  | _ => h.pc

/-- The record of a trap for the supervisor's ring (R289), before it is written. -/
def trapRecord (s : State) (id : Nat) (r : HartRef) (t : Trap) (info spc vcp : Word) : TrapRec :=
  { id := id, ref := r, info := info, addr := t.addr, spc := spc, vcp := vcp, hb := s.hb, s10 := (s.hart r).readS 10,
    s11 := (s.hart r).readS 11, xlat := t.isXlat, job := none, idle := false, ringAt := none, reply := 0 }

/-- The registers that a trap writes on its hart and context (R279, R280, R283, R284); on the compute hart VCP as well. -/
def State.trapRegs (s : State) (r : HartRef) (t : Trap) (info spc vcp : Word) : State :=
  let s1 := s.withHart r { s.hart r with trapinfo := info, trapaddr := t.addr }
  let c := s1.ctx r.cid
  s1.withCtx r.cid { c with spc := spc, vcp := if r.kind = .ch then vcp else c.vcp }

/-- The other two harts of a context are interrupted (R282 step 1). -/
def State.interruptOthers (s : State) (r : HartRef) : State :=
  [HartKind.ch, .fh, .dh].foldl (fun s k => if k = r.kind then s else s.interrupt { cid := r.cid, kind := k }) s

/-- The entries of an image: a replay executes each from its beginning (R284, R285). -/
def restart (q : List VEntry) : List VEntry :=
  q.map (fun e => { e with job := none, step := 0, scatter := none, marks := [], popped := false, flags := 0, index := [] })

/-- A trap taken in the context's handler (R282): the other harts are held; TRAPINFO, TRAPADDR, SPC and VCP are
written; INH is set; the VIQ image is put aside (R284); PC is the handler entry (R281). -/
def State.enterHandler (s : State) (r : HartRef) (t : Trap) (info spc vcp : Word) : State :=
  let s1 := ((s.interruptOthers r).abandon r).trapRegs r t info spc vcp
  let c := s1.ctx r.cid
  let c1 := { c with handler := some r.kind }
  let c2 := if r.kind = .ch then
      { c1 with image := some { entries := restart c1.viq, vl := c1.vl, vtype := c1.vtype, epoch := c1.epoch }, viq := [] }
    else c1
  let s2 := s1.withCtx r.cid c2
  let entry := BitVec.ofNat 64 (bits c.trapvec 12 45 * 4096 + 64 * t.cause.code)
  s2.withHart r { s2.hart r with pc := entry, yielding := false, stalled := none }

/-- The context of a trap routed to the supervisor is HELD (R288); one that is SAVING goes on being saved (R293). -/
def State.hold (s : State) (cid : Nat) : State :=
  let c := s.ctx cid
  s.withCtx cid { c with slotState := if c.slotState = .saving then .saving else .held }

/-- The queue of a context whose compute hart traps to the supervisor: no entry has begun any more (R285, R290). -/
def State.restartViq (s : State) (r : HartRef) : State :=
  if r.kind = .ch then let c := s.ctx r.cid; s.withCtx r.cid { c with viq := restart c.viq } else s

/-- A trap routed to the supervisor (R288): the context stops and is HELD, and a record waits to be written. -/
def State.holdForSupervisor (s : State) (r : HartRef) (t : Trap) (info spc vcp : Word) : State :=
  let s1 := ((s.interruptOthers r).abandon r).trapRegs r t info spc vcp
  let s2 := (s1.hold r.cid).restartViq r
  { s2 with traps := s2.traps ++ [trapRecord s s.serial r t info spc vcp], serial := s2.serial + 1 }

/-- A translation fault of a hart or of the VIQ entry at the head of its queue (R291): only that stalls. -/
def State.stallForSupervisor (s : State) (r : HartRef) (vq : Bool) (t : Trap) (info spc vcp : Word) : State :=
  let id := s.serial
  let s1 :=
    if vq then
      let c := s.ctx r.cid
      s.withCtx r.cid { c with viq := modifyAt c.viq 0 (fun e => { e with job := some id, step := t.elem, scatter := none, marks := [] }) }
    else s.withHart r { s.hart r with stalled := some id }
  { s1 with traps := s1.traps ++ [trapRecord s id r t info spc vcp], serial := s1.serial + 1 }

/-- An ECCFATAL is an error that cannot be corrected, and is logged (20_system R447). -/
def State.logTrap (s : State) (r : HartRef) (t : Trap) : State :=
  if t.cause = .eccfatal then s.logEcc (s.who r) t.addr.toNat else s

/-- Taking a trap on a hart (R278–R284, R288, R291): in the context's handler; or through the supervisor; or, without
a supervisor context, as KILL. The record of the fetch or drain hart holds the context's VCP (R289). A trap at VCP finds
a store of the front end complete (R274), unless it stalls one entry only. -/
def State.takeTrap (s0 : State) (r : HartRef) (vq : Bool) (t : Trap) : State :=
  let s := if t.isXlat then s0.logTrap r t else (s0.logTrap r t).finishStore r
  let c := s.ctx r.cid
  let h := s.hart r
  let inh := c.handler.isSome
  let info := trapInfo t vq inh
  let spc := if vq then h.pc else resumePc t h
  let vcp := if r.kind ≠ .ch then c.vcp else if vq then ((c.viq.head?).map (·.addr)).getD h.pc else resumePc t h
  if t.toSupervisor ∨ !c.trapEn ∨ inh then
    match s.supervisor with
    | none => s.killCtx r.cid
    | some _ =>
      if t.isXlat then s.stallForSupervisor r vq t info spc vcp else s.holdForSupervisor r t info spc vcp
  else s.enterHandler r t info spc vcp

/-- A hart cannot complete its instruction now: it stays at it, and the next hart or unit moves. -/
def State.waitHere (s : State) (yields : Bool) : State :=
  { s.withMe { s.me with yielding := yields } with yieldNow := true }

/-- A trap on the compute hart while earlier VIQ entries are under way is not taken yet (R283): nothing has happened. -/
def State.trapsLater (s : State) : Bool := decide (s.cur.kind = .ch) && !s.myCtx.viq.isEmpty

/-- A scalar trap (R283): precise; on the compute hart it waits until every earlier VIQ entry has completed. -/
def State.scalarTrap (s : State) (t : Trap) : State :=
  if s.trapsLater then s.waitHere false else s.takeTrap s.cur false t

/-- The outcome of what an instruction does on the moving hart. -/
def Res.outcome : Res → Host.Outcome State Fault Refusal
  | .done s => .next s
  | .trap t s => .next (s.scalarTrap t)
  | .wait y s => .next (s.waitHere y)

/-- An Illegal Instruction with a detail of R50; details 4 and 5 name the parcel that holds the field (R280). -/
def illegal (s : State) (detail parcel : Nat) : Trap :=
  { cause := .illegal, detail := detail, addr := s.me.pc + BitVec.ofNat 64 (4 * parcel) }

/-- OBJECT with its class and reason (R279). -/
def object (cls reason : Nat) : Trap := { cause := .object, detail := cls * 16 + reason }

/-- A register is free of a token and of a vector result that it waits for (R232, R143). -/
def Hart.free (h : Hart) (r : SReg) : Bool := decide (r = 0) || !h.busy.contains r.toNat

/-- The unread-error bits after an instruction has read its sources (R287). -/
def Hart.clearRead (h : Hart) (rs : List SReg) : Hart :=
  { h with unread := h.unread.filter (fun n => !(rs.any (fun r => decide (r.toNat = n)))) }

/-- The register whose unread error an instruction would overwrite (R287). -/
def Hart.overwrites (h : Hart) (ws : List SReg) : Option Nat :=
  (ws.find? (fun r => decide (r ≠ 0) && h.unread.contains r.toNat)).map (·.toNat)

/-- ENGERR for the unread error of a register (R287): its number, and its status word. -/
def engErr (h : Hart) (r : Nat) : Trap :=
  { cause := .engerr, detail := r, addr := sget 0 h.regs r }

/-- The result of an instruction that was not executed keeps the unread-error bits it found; s0 is the state before. -/
def Res.settle (r : Res) (s0 : State) (u : List Nat) : Res :=
  match r with
  | .done s => .done s
  | .trap t s =>
    if s0.trapsLater then .wait false s0 else .trap t (s.withHart s0.cur { s.hart s0.cur with unread := u })
  | .wait y s => .wait y (s.withHart s0.cur { s.hart s0.cur with unread := u })

/-- The pure state that checks a hart's instructions: that of a task past its lookup (R395). -/
def Hart.checkedBy (h : Hart) : Option PureState :=
  match h.pure with
  | some p => if p.phase = .run then some p else none
  | none => none

/-- One more of a tenant's counts (R408). -/
def State.count (s : State) (tenant i : Nat) : State :=
  let x := s.tenant tenant
  s.withTenant tenant { x with counts := sset 0 x.counts i (sget 0 x.counts i + 1) }

/-- The pure state and the claim of a hart are dropped, and VIOLATIONS counts one (R397). -/
def State.dropPure (s : State) (r : HartRef) : State :=
  let s1 := (s.releaseClaim (s.hart r).claim).count (s.ctx r.cid).tenant 4
  s1.withHart r { s1.hart r with pure := none }

/-- A PURITY trap (R396). -/
def purityTrap (detail : Nat) (addr : Word) : Trap := { cause := .purity, detail := detail, addr := addr }

/-- A violation at an element acts by the task's POLICY (R397): ABORT traps; DEMOTE goes on as in an impure task. -/
def violationAt (elem detail : Nat) (addr : Word) (s : State) (p : PureState) (k : State → Res) : Res :=
  if p.demote then k (s.dropPure s.cur)
  else .trap { purityTrap detail addr with elem := elem } (s.dropPure s.cur)

/-- A violation of an instruction that has no elements. -/
def violation (detail : Nat) (addr : Word) (s : State) (p : PureState) (k : State → Res) : Res :=
  violationAt 0 detail addr s p k

/-- Traps that come before the faults of an instruction's own description (03_encoding R51, steps 4 to 7). -/
def earlyTrap (t : Trap) : Bool :=
  match t.cause with
  | .illegal => true
  | .illvtype => true
  | .illfmt => true
  | _ => false

/-- The outcome of an instruction is such a trap. -/
def Res.early : Res → Bool
  | .trap t _ => earlyTrap t
  | _ => false

/-- VIOLATIONS of a tenant (R408). -/
def State.violations (s : State) (tenant : Nat) : Word := sget 0 (s.tenant tenant).counts 4

/-- Whether the outcome of an instruction is a violation of its own. -/
def Res.violates (r : Res) (s0 : State) : Bool :=
  let t := s0.myCtx.tenant
  match r with
  | .done s => decide (s.violations t ≠ s0.violations t)
  | .trap _ s => decide (s.violations t ≠ s0.violations t)
  | .wait _ s => decide (s.violations t ≠ s0.violations t)

/-- An instruction of a pure task that was fetched from outside the task's code: detail 8, unless the instruction is
Illegal or violates by what it does (R396; notes/assumptions/72). -/
def codeGuard (outside : Bool) (addr : Word) (k : State → Res) (s : State) : Res :=
  if outside then
    match s.me.checkedBy with
    | none => k s
    | some p => if (k s).early || (k s).violates s then k s else violation 8 addr s p k
  else k s

/-- The frame of an instruction that reads and writes the named scalar registers: it waits for busy ones (R232), its
reads clear unread-error bits, an unread error it would overwrite traps (R287) unless the instruction is Illegal (R51), and
then it does what it does. -/
def framed (reads writes : List SReg) (k : State → Res) (s : State) : Host.Outcome State Fault Refusal :=
  let h := s.me
  if !(reads ++ writes).all h.free then (Res.wait false s).outcome
  else
    let h1 := h.clearRead reads
    let r := k (s.withMe h1)
    match h1.overwrites writes with
    | some n => (if r.early then r.settle s h.unread else .trap (engErr h1 n) s).outcome
    | none => (r.settle s h.unread).outcome

/-- The frame of a scalar instruction: as `framed`, and in a pure task the check of where it was fetched (17_reuse
R396). -/
def scalar (reads writes : List SReg) (k : State → Res) (s : State) : Host.Outcome State Fault Refusal :=
  framed reads writes (fun s => codeGuard s.outside s.me.pc k s) s

/-- An instruction outside the hart's classes (R20, R50 detail 7). -/
def onlyOn (kinds : List HartKind) (k : State → Host.Outcome State Fault Refusal) (s : State) :
    Host.Outcome State Fault Refusal :=
  if kinds.contains s.cur.kind then k s else (Res.trap (illegal s 7 0) s).outcome

/-- Whether a context is resident: its deque and its continuation slots can be reached (R324, R341). -/
def Ctx.present (c : Ctx) : Bool :=
  match c.slotState with
  | .resident => true
  | .issuing => true
  | .held => true
  | _ => false

/-- Whether the harts of a kind may go on in a context: it is ISSUING, and no other hart is in its handler. -/
def Ctx.runs (c : Ctx) (k : HartKind) : Bool :=
  decide (c.slotState = .issuing) && (match c.handler with | none => true | some x => decide (x = k))

/-- ERET (R285) on the hart that is in its handler, once its VIQ entries have completed: INH is cleared, the image is
put back to be replayed, VL and VTYPE are those at SPC, PC is SPC; the held harts are free to issue. -/
def State.leaveHandler (s : State) : State :=
  let c := s.myCtx
  let c1 := { c with handler := none }
  let c2 := match s.cur.kind, c1.image with
    | .ch, some im => { c1 with viq := im.entries, vl := im.vl, vtype := im.vtype, epoch := im.epoch, image := none }
    | _, _ => c1
  (s.withMyCtx c2).jump c.spc

end Sys2Proof.Machine
end

