-- ==== Sys2Proof/Machine/Operands.lean ====
section
/-! DEFINITION. The operand forms of the scalar instructions: immediates, literals, effective addresses, branch
targets, shift amounts, eight-register records (03_encoding R44, R45; 05_scalar R87–R97; 14_group R326). -/

namespace Sys2Proof.Machine

/-- IMM14 of the I format, sign-extended (R90). -/
def imm14 (i : BitVec 14) : Word := sextField i

/-- IMM19 of the U format, sign-extended (R93). -/
def imm19 (i : BitVec 19) : Word := sextField i

/-- A register shift or rotate amount: b[5:0] (R87). -/
def shamt (b : Word) : Nat := bits b 0 6

/-- The effective address of the MEM format, OFF11 in bytes (R97). -/
def ea11 (base : Word) (off : BitVec 11) : Word := base + sextField off

/-- The effective address of LOAD.L and STORE.L, OFF32 in bytes (R97). -/
def ea32 (base : Word) (off : BitVec 32) : Word := base + sextField off

/-- A target 4 × OFF11 bytes from a branch (R95). -/
def branchTarget (pc : Word) (off : BitVec 11) : Word := pc + 4 * sextField off

/-- A target 4 × IMM19 bytes from a JAL or an LA (R94, R96). -/
def pcRel19 (pc : Word) (off : BitVec 19) : Word := pc + 4 * sextField off

/-- An address of a copy: base plus a signed 16-bit offset (10_copies R226). -/
def ea16 (base : Word) (off : BitVec 16) : Word := base + sextField off

/-- The n registers from r up (14_group R326). -/
def regRange (r : SReg) : Nat → List SReg
  | 0 => []
  | n + 1 => r :: regRange (r + 1) n

/-- A task record from eight consecutive registers (R319, R327). -/
def taskRecOf (ws : List Word) : TaskRec :=
  { w0 := ws.getD 0 0, w1 := ws.getD 1 0, w2 := ws.getD 2 0, args := (ws.drop 3).take 5 }

/-- The eight doublewords of a task record. -/
def TaskRec.words (r : TaskRec) : List Word := r.w0 :: r.w1 :: r.w2 :: r.args

end Sys2Proof.Machine
end

