-- ==== Sys2Proof/Machine/Purity.lean ====
section
/-! DEFINITION. What a pure task may do while it runs (17_reuse R395–R397); where its instructions are fetched is checked in
the frames of Ops. -/

namespace Sys2Proof.Machine

/-- An instruction that a pure task may not execute at all: details 3, 5, 6, 7 (R396). -/
def impureOnly (detail : Nat) (k : State → Res) (s : State) : Res :=
  match s.me.checkedBy with
  | none => k s
  | some p => violation detail 0 s p k

/-- Whether a page of [a, a + n) is a SYNC page. -/
def State.touchesSync (s : State) (w : Who) (a n : Nat) : Bool :=
  (pagePieces a n).any (fun p =>
    match s.translate w.core w.tenant .nothing p.1 with
    | some pl => decide (pl.kind = .sync)
    | none => false)

/-- Whether [a, a + n) lies in one of the ranges. -/
def inRanges (rs : List (Nat × Nat)) (a n : Nat) : Bool :=
  rs.any (fun r => decide (r.1 ≤ a) && decide (a + n ≤ r.1 + r.2))

/-- The violation of a read or write of memory by a pure task (R395, R396): detail 4, or 1, or 2; none where it is
permitted. -/
def State.accessDetail (s : State) (w : Who) (p : PureState) (write : Bool) (a n : Nat) : Option Nat :=
  if touchesWindows a n then none
  else if s.touchesSync w a n then some 4
  else if write then (if inRanges p.outputs a n then none else some 2)
  else if inRanges ((p.desc, 320) :: p.inputs) a n then none else some 1

/-- The check of a scalar access that R395 puts before those of R99. -/
def pureAccess (write : Bool) (a n : Nat) (k : State → Res) (s : State) : Res :=
  match s.me.checkedBy with
  | none => k s
  | some p =>
    match s.accessDetail (s.who s.cur) p write a n with
    | none => k s
    | some d => violation d (BitVec.ofNat 64 a) s p k

/-- An access of TDEC or TDEP at an address, detail 4 (R396). -/
def pureSync (a : Nat) (k : State → Res) (s : State) : Res :=
  match s.me.checkedBy with
  | none => k s
  | some p => violation 4 (BitVec.ofNat 64 a) s p k

end Sys2Proof.Machine
end

