-- ==== Sys2Proof/Machine/Flags.lean ====
section
/-! DEFINITION. The floating-point flags (02_machine R33). Integer instructions of the scalar set record no condition
(05_scalar R85): every flag computation of the machine is that of a vector, matrix or sorus instruction. -/

namespace Sys2Proof.Machine

/-- The flags that an operation raises (R33). -/
structure FFlags where
  iv : Bool := false
  zd : Bool := false
  ov : Bool := false
  un : Bool := false
  ix : Bool := false
deriving DecidableEq, Repr

/-- No flag. -/
def FFlags.none : FFlags := {}

/-- The flags that either raises. -/
def FFlags.or (a b : FFlags) : FFlags :=
  { iv := a.iv || b.iv, zd := a.zd || b.zd, ov := a.ov || b.ov, un := a.un || b.un, ix := a.ix || b.ix }

/-- The flags in their places [4:0] of FFLAGS: IX, UN, OV, ZD, IV. -/
def FFlags.toBits (f : FFlags) : BitVec 5 :=
  BitVec.ofBool f.ix ++ BitVec.ofBool f.un ++ BitVec.ofBool f.ov ++ BitVec.ofBool f.zd ++ BitVec.ofBool f.iv

/-- The flags of their places. -/
def FFlags.ofBits (b : BitVec 5) : FFlags :=
  { iv := b.getLsbD 0, zd := b.getLsbD 1, ov := b.getLsbD 2, un := b.getLsbD 3, ix := b.getLsbD 4 }

/-- The commit of an instruction's flags (R33): sticky; LASTMAJ receives its major opcode when a flag that was 0 is
set, and keeps its value otherwise. -/
def commitFlags (old : BitVec 14) (f : FFlags) (maj : BitVec 6) : BitVec 14 :=
  let prev := old.setWidth 5
  let now := prev ||| f.toBits
  let last : BitVec 6 := if now = prev then (old >>> 8).setWidth 6 else maj
  (last ++ 0#3 ++ now : BitVec 14)

end Sys2Proof.Machine
end

