-- ==== Sys2Proof/Machine/Viq.lean ====
section
/-! DEFINITION. The vector instruction queue of a context (02_machine R20): what its entries touch, and the waits of
other instructions for them. -/

namespace Sys2Proof.Machine

/-- A scan that takes its carry-in from a channel (07_matrix R163). -/
def scanReceives : CarryIn → Bool
  | .channel _ => true
  | _ => false
/-- A scan that sends its carry-out on a channel (07_matrix R164). -/
def scanSends : CarryOut → Bool
  | .channel _ => true
  | _ => false

/-- Entries that send on or receive from a channel (07_matrix R174). -/
def viqChan : Instr → Bool
  | .chsend .. => true
  | .chrecv .. => true
  | .vscanAdd _ _ _ i o => scanReceives i || scanSends o
  | .vscanMax _ _ _ i o => scanReceives i || scanSends o
  | .vscanMin _ _ _ i o => scanReceives i || scanSends o
  | .vscanLin _ _ _ _ i o => scanReceives i || scanSends o
  | _ => false

/-- The vector register of a carry. -/
def carryInReg : CarryIn → Option VReg
  | .vector r => some r
  | _ => none
/-- The vector register of a carry. -/
def carryOutReg : CarryOut → Option VReg
  | .vector r => some r
  | _ => none

/-- Entries that read or write memory or a window (05_scalar R101): CHRECV may write a status record (07_matrix R171), and
what receives from a channel is an acquire, which no later access passes (R175). -/
def viqMem : Instr → Bool
  | .vld .. => true
  | .vst .. => true
  | .vlds .. => true
  | .vsts .. => true
  | .vldx .. => true
  | .vldff .. => true
  | .vscadd .. => true
  | .vspill .. => true
  | .vreload .. => true
  | .scld .. => true
  | .dld .. => true
  | .dst .. => true
  | .sbind .. => true
  | .chrecv .. => true
  | .vscanAdd _ _ _ i _ => scanReceives i
  | .vscanMax _ _ _ i _ => scanReceives i
  | .vscanMin _ _ _ i _ => scanReceives i
  | .vscanLin _ _ _ _ i _ => scanReceives i
  | _ => false

/-- Entries that may change VL or VTYPE when they execute (03_encoding R54, R60). -/
def viqSetsVl : Instr → Bool
  | .vldff .. => true
  | .vreload .. => true
  | .csrw .. => true
  | .csrs .. => true
  | .csrc .. => true
  | _ => false

/-- A write of MAXLEN that waits in the queue (02_machine R29). -/
def isMaxlenWrite : Instr → Bool
  | .csrw .. => true
  | .csrs .. => true
  | .csrc .. => true
  | _ => false

/-- The vector registers that an entry reads (10_copies R249). -/
def vSources : Instr → List VReg
  | .chsend _ a => [a]
  | .vadd xs _ _ a b => [a] ++ (if xs = 1 then [] else [b])
  | .vsub xs _ _ a b => [a] ++ (if xs = 1 then [] else [b])
  | .vmul xs _ _ a b => [a] ++ (if xs = 1 then [] else [b])
  | .vdiv xs _ _ a b => [a] ++ (if xs = 1 then [] else [b])
  | .vmin xs _ _ a b => [a] ++ (if xs = 1 then [] else [b])
  | .vmax xs _ _ a b => [a] ++ (if xs = 1 then [] else [b])
  | .vand xs _ _ a b => [a] ++ (if xs = 1 then [] else [b])
  | .vor xs _ _ a b => [a] ++ (if xs = 1 then [] else [b])
  | .vxor xs _ _ a b => [a] ++ (if xs = 1 then [] else [b])
  | .vsll xs _ _ a b => [a] ++ (if xs = 1 then [] else [b])
  | .vsrl xs _ _ a b => [a] ++ (if xs = 1 then [] else [b])
  | .vsra xs _ _ a b => [a] ++ (if xs = 1 then [] else [b])
  | .vfma xs _ d a b => [a, d] ++ (if xs = 1 then [] else [b])
  | .vfms xs _ d a b => [a, d] ++ (if xs = 1 then [] else [b])
  | .vabs _ _ a => [a]
  | .vneg _ _ a => [a]
  | .vsqrt _ _ a => [a]
  | .vrcp _ _ a => [a]
  | .vrsq _ _ a => [a]
  | .vexp2 _ _ a => [a]
  | .vlog2 _ _ a => [a]
  | .vtanh _ _ a => [a]
  | .vsigm _ _ a => [a]
  | .vmov _ _ a => [a]
  | .vceq xs _ _ a b => [a] ++ (if xs = 1 then [] else [b])
  | .vcne xs _ _ a b => [a] ++ (if xs = 1 then [] else [b])
  | .vclt xs _ _ a b => [a] ++ (if xs = 1 then [] else [b])
  | .vcle xs _ _ a b => [a] ++ (if xs = 1 then [] else [b])
  | .vcgt xs _ _ a b => [a] ++ (if xs = 1 then [] else [b])
  | .vcge xs _ _ a b => [a] ++ (if xs = 1 then [] else [b])
  | .vmerge xs _ _ a b => [a] ++ (if xs = 1 then [] else [b])
  | .vcvt _ _ a => [a]
  | .vqnt _ _ a => [a]
  | .vhad _ a _ => [a]
  | .vst _ d _ => [d]
  | .vsts _ d _ _ => [d]
  | .vldx _ _ _ b => [b]
  | .vscadd _ d _ b => [b, d]
  | .vspill d _ => [d]
  | .vslideup _ _ a _ => [a]
  | .vslidedn _ _ a _ => [a]
  | .vshuf xs _ _ a b => [a] ++ (if xs = 1 then [] else [b])
  | .vcompress _ _ a => [a]
  | .vext _ a _ => [a]
  | .vredSum _ _ a => [a]
  | .vredMin _ _ a => [a]
  | .vredMax _ _ a => [a]
  | .vredAnd _ _ a => [a]
  | .vredOr _ _ a => [a]
  | .vredXor _ _ a => [a]
  | .vredMini _ _ a => [a]
  | .vredMaxi _ _ a => [a]
  | .vscanAdd _ _ a cin _ => [a] ++ (carryInReg cin).toList
  | .vscanMax _ _ a cin _ => [a] ++ (carryInReg cin).toList
  | .vscanMin _ _ a cin _ => [a] ++ (carryInReg cin).toList
  | .vscanLin _ _ a b cin _ => [a, b] ++ (carryInReg cin).toList
  | .mop _ _ a b _ => [a, b]
  | .mwrow _ a _ => [a]
  | .daff xs _ _ b => if xs = 1 then [] else [b, b + 1]
  | .dpt _ a => [a]
  | .dset _ a _ => [a, a + 1]
  | .dqnt _ _ b => [b]
  | .dcdf _ _ b => [b]
  | _ => []

/-- The bound registers that an entry reads, each once (10_copies R249). -/
def boundSources (c : Ctx) (i : Instr) : List VReg := ((vSources i).filter (fun r => (tget c.streams r.toNat).isSome)).dedup

/-- On the compute hart, a wait until the queue holds no entry of a kind. A hart that waits here does not yield
(notes/assumptions/74). -/
def afterEntries (p : Instr → Bool) (k : State → Res) (s : State) : Res :=
  if s.cur.kind = .ch ∧ s.myCtx.viq.any (fun e => p e.instr) then .wait false s else k s

/-- On the compute hart, a wait until the queue is empty. -/
def afterViqEmpty (k : State → Res) (s : State) : Res := afterEntries (fun _ => true) k s

/-- An entry that reads or writes memory or a window, the pop of a bound stream among its reads (R101; 10_copies R249). -/
def entryMem (c : Ctx) (e : VEntry) : Bool := viqMem e.instr || !(boundSources c e.instr).isEmpty

/-- On the compute hart a scalar access of memory waits until every earlier VIQ entry that reads or writes memory or a
window has performed its accesses (R101). -/
def afterViq (k : State → Res) (s : State) : Res :=
  if s.cur.kind = .ch ∧ s.myCtx.viq.any (entryMem s.myCtx) then .wait false s else k s

/-- The moving hart has multicasts that have not reached every replica; those of its copies are not meant. -/
def State.outstanding (s : State) : Bool := s.packets.any (fun p => decide (p.ref = s.cur) && p.copy.isNone)

/-- A release waits until the hart's own multicasts have reached every replica; every other access of the hart has
performed when its instruction completes (R105). -/
def afterWrites (k : State → Res) (s : State) : Res := if s.outstanding then .wait false s else k s

/-- Whether a hart's commands are all out of the copy queue (10_copies R232, 11_ordering R269). -/
def State.copiesDone (s : State) (r : HartRef) : Bool := s.allCopies.all (fun c => decide (c.ref ≠ r))

end Sys2Proof.Machine
end

