-- ==== Sys2Proof/Machine/LoadStore.lean ====
section
/-! DEFINITION. Scalar loads and stores (05_scalar R97–R102). -/

namespace Sys2Proof.Machine

/-- The bytes of a load of n bytes at e that are read now, in order (R100): all of them at once within a naturally aligned
block; else those of the move that have not been read yet. -/
def State.bytesOf (s : State) (e n : Nat) : List Nat :=
  if e % n = 0 then List.range n
  else ((s.bytesNow.getD (List.range n)).filter (fun j => decide (j < n) && (tget s.me.part j).isNone)).dedup

/-- The bytes read so far with these (R100). -/
def State.partWith (s : State) (bs : List Byte) (js : List Nat) : Table Byte :=
  js.foldl (fun p j => tput p j (bs.getD j 0)) s.me.part

/-- The moving hart with the bytes that its unaligned load has read so far. -/
def State.withPart (s : State) (p : Table Byte) : State := s.withMe { s.me with part := p }

/-- A load of n bytes at e goes on once every byte has been read, with the bytes as they were then; else it waits for the
others (R100). -/
def State.accessed (s : State) (e n : Nat) (bs : List Byte) (k : List Byte → State → Res) : Res :=
  if e % n = 0 then k bs s
  else
    let p := s.partWith bs (s.bytesOf e n)
    if (List.range n).all (fun j => (tget p j).isSome) then
      k ((List.range n).map (fun j => (tget p j).getD 0)) (s.withPart [])
    else .wait false (s.withPart p)

/-- A load of n bytes at an effective address: the checks, then sd := the value (R97–R100). -/
def loadOp (len n : Nat) (ext : Word → Word) (d a : SReg) (ea : Word → Word) (s : State) :
    Host.Outcome State Fault Refusal :=
  scalar [a] [d] (fun s =>
    let e := (ea (s.readS a)).toNat
    pureAccess false e n (afterViq (fun s =>
      (s.load (s.who s.cur) e n).elim s (fun bs =>
        s.accessed e n bs (fun bs s => .done (s.retire len d (ext (wordOfBytes bs))))))) s) s

/-- A store that has passed its checks (R99, R100): its bytes are written, and where some are left it stays at them, to go on
without a check. -/
def State.beginStore (s : State) (x : Split) : Res :=
  let js := s.placesNow x
  let s1 := x.write (s.who s.cur) js s
  let y := x.after js
  if y.left = [] then .done (s1.advance x.len) else .wait false (s1.withMe { s1.me with split := some y })

/-- The moving hart goes on with its store under way (R99, R100). -/
def State.goOnStore (s : State) (x : Split) : State :=
  let js := s.placesNow x
  let s1 := x.write (s.who s.cur) js s
  let y := x.after js
  if y.left = [] then s1.withMe (s1.me.endStore x (x.unread s1.me))
  else (s1.withMe { s1.me with split := some y }).waitHere false

/-- A store of the low n bytes of sd at an effective address (R97–R100). -/
def storeOp (len n : Nat) (localOnly : Bool) (d a : SReg) (ea : Word → Word) (s : State) :
    Host.Outcome State Fault Refusal :=
  scalar [a, d] [] (fun s =>
    let e := (ea (s.readS a)).toNat
    pureAccess true e n (afterViq (fun s =>
      let bs := bytesOfWord n (s.readS d)
      (s.storeCheck (s.who s.cur) .write storeKinds n .none localOnly e n).elim s (fun r =>
        s.beginStore { len := len, reads := [a, d], base := e, data := bs, localOnly := localOnly, region := r,
                       left := List.range n }))) s) s

/-- LB (R97). -/
def execLb (d a : SReg) (off : BitVec 11) (s : State) : Host.Outcome State Fault Refusal :=
  loadOp 4 1 (sext 8) d a (fun x => ea11 x off) s
/-- LH (R97). -/
def execLh (d a : SReg) (off : BitVec 11) (s : State) : Host.Outcome State Fault Refusal :=
  loadOp 4 2 (sext 16) d a (fun x => ea11 x off) s
/-- LW (R97). -/
def execLw (d a : SReg) (off : BitVec 11) (s : State) : Host.Outcome State Fault Refusal :=
  loadOp 4 4 (sext 32) d a (fun x => ea11 x off) s
/-- LD (R97). -/
def execLd (d a : SReg) (off : BitVec 11) (s : State) : Host.Outcome State Fault Refusal :=
  loadOp 4 8 id d a (fun x => ea11 x off) s
/-- LBU (R97). -/
def execLbu (d a : SReg) (off : BitVec 11) (s : State) : Host.Outcome State Fault Refusal :=
  loadOp 4 1 (zext 8) d a (fun x => ea11 x off) s
/-- LHU (R97). -/
def execLhu (d a : SReg) (off : BitVec 11) (s : State) : Host.Outcome State Fault Refusal :=
  loadOp 4 2 (zext 16) d a (fun x => ea11 x off) s
/-- LWU (R97). -/
def execLwu (d a : SReg) (off : BitVec 11) (s : State) : Host.Outcome State Fault Refusal :=
  loadOp 4 4 (zext 32) d a (fun x => ea11 x off) s
/-- SB (R97). -/
def execSb (d a : SReg) (off : BitVec 11) (s : State) : Host.Outcome State Fault Refusal :=
  storeOp 4 1 false d a (fun x => ea11 x off) s
/-- SH (R97). -/
def execSh (d a : SReg) (off : BitVec 11) (s : State) : Host.Outcome State Fault Refusal :=
  storeOp 4 2 false d a (fun x => ea11 x off) s
/-- SW (R97). -/
def execSw (d a : SReg) (off : BitVec 11) (s : State) : Host.Outcome State Fault Refusal :=
  storeOp 4 4 false d a (fun x => ea11 x off) s
/-- ST (R97). -/
def execSt (d a : SReg) (off : BitVec 11) (s : State) : Host.Outcome State Fault Refusal :=
  storeOp 4 8 false d a (fun x => ea11 x off) s
/-- ST.LOCAL (R102). -/
def execStLocal (d a : SReg) (off : BitVec 11) (s : State) : Host.Outcome State Fault Refusal :=
  storeOp 4 8 true d a (fun x => ea11 x off) s
/-- LB with OFF32 (R97). -/
def execLbL (d a : SReg) (off : BitVec 32) (s : State) : Host.Outcome State Fault Refusal :=
  loadOp 8 1 (sext 8) d a (fun x => ea32 x off) s
/-- LH with OFF32 (R97). -/
def execLhL (d a : SReg) (off : BitVec 32) (s : State) : Host.Outcome State Fault Refusal :=
  loadOp 8 2 (sext 16) d a (fun x => ea32 x off) s
/-- LW with OFF32 (R97). -/
def execLwL (d a : SReg) (off : BitVec 32) (s : State) : Host.Outcome State Fault Refusal :=
  loadOp 8 4 (sext 32) d a (fun x => ea32 x off) s
/-- LD with OFF32 (R97). -/
def execLdL (d a : SReg) (off : BitVec 32) (s : State) : Host.Outcome State Fault Refusal :=
  loadOp 8 8 id d a (fun x => ea32 x off) s
/-- LBU with OFF32 (R97). -/
def execLbuL (d a : SReg) (off : BitVec 32) (s : State) : Host.Outcome State Fault Refusal :=
  loadOp 8 1 (zext 8) d a (fun x => ea32 x off) s
/-- LHU with OFF32 (R97). -/
def execLhuL (d a : SReg) (off : BitVec 32) (s : State) : Host.Outcome State Fault Refusal :=
  loadOp 8 2 (zext 16) d a (fun x => ea32 x off) s
/-- LWU with OFF32 (R97). -/
def execLwuL (d a : SReg) (off : BitVec 32) (s : State) : Host.Outcome State Fault Refusal :=
  loadOp 8 4 (zext 32) d a (fun x => ea32 x off) s
/-- SB with OFF32 (R97). -/
def execSbL (d a : SReg) (off : BitVec 32) (s : State) : Host.Outcome State Fault Refusal :=
  storeOp 8 1 false d a (fun x => ea32 x off) s
/-- SH with OFF32 (R97). -/
def execShL (d a : SReg) (off : BitVec 32) (s : State) : Host.Outcome State Fault Refusal :=
  storeOp 8 2 false d a (fun x => ea32 x off) s
/-- SW with OFF32 (R97). -/
def execSwL (d a : SReg) (off : BitVec 32) (s : State) : Host.Outcome State Fault Refusal :=
  storeOp 8 4 false d a (fun x => ea32 x off) s
/-- ST with OFF32 (R97). -/
def execStL (d a : SReg) (off : BitVec 32) (s : State) : Host.Outcome State Fault Refusal :=
  storeOp 8 8 false d a (fun x => ea32 x off) s
/-- ST.LOCAL with OFF32 (R102). -/
def execStLocalL (d a : SReg) (off : BitVec 32) (s : State) : Host.Outcome State Fault Refusal :=
  storeOp 8 8 true d a (fun x => ea32 x off) s

end Sys2Proof.Machine
end

