-- ==== Sys2Proof/Machine/Scalar.lean ====
section
/-! DEFINITION. The scalar integer instructions, literals and hints (05_scalar R87–R94; 03_encoding R53). -/

namespace Sys2Proof.Machine

/-- A 32-bit instruction sd := f(sa, sb) (R87). -/
def aluRR (f : Word → Word → Word) (d a b : SReg) (s : State) : Host.Outcome State Fault Refusal :=
  scalar [a, b] [d] (fun s => .done (s.retire 4 d (f (s.readS a) (s.readS b)))) s

/-- A 32-bit instruction sd := f(sa). -/
def aluR (f : Word → Word) (d a : SReg) (s : State) : Host.Outcome State Fault Refusal :=
  scalar [a] [d] (fun s => .done (s.retire 4 d (f (s.readS a)))) s

/-- An instruction of n bytes sd := x. -/
def literal (n : Nat) (x : State → Word) (d : SReg) (s : State) : Host.Outcome State Fault Refusal :=
  scalar [] [d] (fun s => .done (s.retire n d (x s))) s

/-- Left shift by b[5:0], zeros in (R87). -/
def sll (a b : Word) : Word := a <<< shamt b
/-- Right shift by b[5:0], zeros in (R87). -/
def srl (a b : Word) : Word := a >>> shamt b
/-- Right shift by b[5:0], copies of a[63] in (R87). -/
def sra (a b : Word) : Word := a.sshiftRight (shamt b)
/-- Rotate left by b[5:0] (R87). -/
def rol (a b : Word) : Word := a.rotateLeft (shamt b)
/-- Rotate right by b[5:0] (R87). -/
def ror (a b : Word) : Word := a.rotateRight (shamt b)
/-- 1 if a < b as signed integers (R87). -/
def setlt (a b : Word) : Word := boolWord (a.slt b)
/-- 1 if a < b as unsigned integers (R87). -/
def setltu (a b : Word) : Word := boolWord (a.ult b)
/-- The smaller, signed (R87). -/
def minS (a b : Word) : Word := if b.slt a then b else a
/-- The larger, signed (R87). -/
def maxS (a b : Word) : Word := if a.slt b then b else a
/-- The smaller, unsigned (R87). -/
def minU (a b : Word) : Word := if b.ult a then b else a
/-- The larger, unsigned (R87). -/
def maxU (a b : Word) : Word := if a.ult b then b else a

/-- Bits [127:64] of a product of integers (R88). -/
def hi64 (p : Int) : Word := BitVec.ofInt 64 (p / 2 ^ 64)

/-- The signed quotient, rounded toward zero, with the corners of R89. -/
def divS (a b : Word) : Word := if b = 0 then 0 else BitVec.ofInt 64 (a.toInt.tdiv b.toInt)
/-- The signed remainder, with the sign of a, with the corners of R89. -/
def remS (a b : Word) : Word := if b = 0 then a else BitVec.ofInt 64 (a.toInt.tmod b.toInt)
/-- The unsigned quotient (R89). -/
def divU (a b : Word) : Word := if b = 0 then 0 else BitVec.ofNat 64 (a.toNat / b.toNat)
/-- The unsigned remainder (R89). -/
def remU (a b : Word) : Word := if b = 0 then a else BitVec.ofNat 64 (a.toNat % b.toNat)

/-- The carry-less product over the bits of b below n (R88). -/
def clmul (a b : Word) : Nat → BitVec 128
  | 0 => 0
  | i + 1 => clmul a b i ^^^ (if b.getLsbD i then (a.setWidth 128) <<< i else 0)

/-- The number of 1 bits (R88). -/
def popc (a : Word) : Word := BitVec.ofNat 64 (onesBelow a 64)

/-- The zeros above the highest 1 bit among the low n bits; n when there is none. -/
def leadingZeros (a : Word) : Nat → Nat
  | 0 => 0
  | n + 1 => if a.getLsbD n then 0 else leadingZeros a n + 1

/-- The zeros below the lowest 1 bit from bit i up; the fuel is the number of bits left. -/
def trailingZeros (a : Word) : Nat → Nat → Nat
  | _, 0 => 0
  | i, n + 1 => if a.getLsbD i then 0 else trailingZeros a (i + 1) n + 1

/-- Bit i moved to bit 63 − i (R88). -/
def brev (a : Word) : Word := a.reverse

/-- Byte i moved to byte 7 − i (R88). -/
def bswap (a : Word) : Word :=
  (field 0 8 a ++ field 8 8 a ++ field 16 8 a ++ field 24 8 a ++ field 32 8 a ++ field 40 8 a ++ field 48 8 a
    ++ field 56 8 a : BitVec 64)

/-- The field of width w at offset o; bits past bit 63 read as zero (R92). -/
def bextU (a : Word) (o w : Nat) : Word := BitVec.ofNat 64 (a.toNat / 2 ^ o % 2 ^ w)

/-- The field sign-extended from its bit w − 1 (R92). -/
def bextS (a : Word) (o w : Nat) : Word := if w = 0 then 0 else sext w (bextU a o w)

/-- a[w − 1:0] inserted into d at offset o; bits past bit 63 are discarded (R92). -/
def binsW (d a : Word) (o w : Nat) : Word :=
  let mask : Word := BitVec.ofNat 64 ((2 ^ w - 1) * 2 ^ o)
  (d &&& ~~~mask) ||| ((a <<< o) &&& mask)

/-- ADD (R87). -/
def execAdd (d a b : SReg) (s : State) : Host.Outcome State Fault Refusal := aluRR (fun x y => x + y) d a b s
/-- SUB (R87). -/
def execSub (d a b : SReg) (s : State) : Host.Outcome State Fault Refusal := aluRR (fun x y => x - y) d a b s
/-- AND (R87). -/
def execAnd (d a b : SReg) (s : State) : Host.Outcome State Fault Refusal := aluRR (fun x y => x &&& y) d a b s
/-- OR (R87). -/
def execOr (d a b : SReg) (s : State) : Host.Outcome State Fault Refusal := aluRR (fun x y => x ||| y) d a b s
/-- XOR (R87). -/
def execXor (d a b : SReg) (s : State) : Host.Outcome State Fault Refusal := aluRR (fun x y => x ^^^ y) d a b s
/-- SLL (R87). -/
def execSll (d a b : SReg) (s : State) : Host.Outcome State Fault Refusal := aluRR sll d a b s
/-- SRL (R87). -/
def execSrl (d a b : SReg) (s : State) : Host.Outcome State Fault Refusal := aluRR srl d a b s
/-- SRA (R87). -/
def execSra (d a b : SReg) (s : State) : Host.Outcome State Fault Refusal := aluRR sra d a b s
/-- SETLT (R87). -/
def execSetlt (d a b : SReg) (s : State) : Host.Outcome State Fault Refusal := aluRR setlt d a b s
/-- SETLTU (R87). -/
def execSetltu (d a b : SReg) (s : State) : Host.Outcome State Fault Refusal := aluRR setltu d a b s
/-- MIN (R87). -/
def execMin (d a b : SReg) (s : State) : Host.Outcome State Fault Refusal := aluRR minS d a b s
/-- MAX (R87). -/
def execMax (d a b : SReg) (s : State) : Host.Outcome State Fault Refusal := aluRR maxS d a b s
/-- MINU (R87). -/
def execMinu (d a b : SReg) (s : State) : Host.Outcome State Fault Refusal := aluRR minU d a b s
/-- MAXU (R87). -/
def execMaxu (d a b : SReg) (s : State) : Host.Outcome State Fault Refusal := aluRR maxU d a b s
/-- ANDN (R87). -/
def execAndn (d a b : SReg) (s : State) : Host.Outcome State Fault Refusal := aluRR (fun x y => x &&& ~~~y) d a b s
/-- ORN (R87). -/
def execOrn (d a b : SReg) (s : State) : Host.Outcome State Fault Refusal := aluRR (fun x y => x ||| ~~~y) d a b s
/-- ROL (R87). -/
def execRol (d a b : SReg) (s : State) : Host.Outcome State Fault Refusal := aluRR rol d a b s
/-- ROR (R87). -/
def execRor (d a b : SReg) (s : State) : Host.Outcome State Fault Refusal := aluRR ror d a b s

/-- MUL (R88). -/
def execMul (d a b : SReg) (s : State) : Host.Outcome State Fault Refusal := aluRR (fun x y => x * y) d a b s
/-- MULHI.SS (R88). -/
def execMulhiSs (d a b : SReg) (s : State) : Host.Outcome State Fault Refusal :=
  aluRR (fun x y => hi64 (x.toInt * y.toInt)) d a b s
/-- MULHI.UU (R88). -/
def execMulhiUu (d a b : SReg) (s : State) : Host.Outcome State Fault Refusal :=
  aluRR (fun x y => hi64 ((x.toNat : Int) * (y.toNat : Int))) d a b s
/-- MULHI.SU (R88). -/
def execMulhiSu (d a b : SReg) (s : State) : Host.Outcome State Fault Refusal :=
  aluRR (fun x y => hi64 (x.toInt * (y.toNat : Int))) d a b s
/-- DIV (R88, R89). -/
def execDiv (d a b : SReg) (s : State) : Host.Outcome State Fault Refusal := aluRR divS d a b s
/-- DIVU (R88, R89). -/
def execDivu (d a b : SReg) (s : State) : Host.Outcome State Fault Refusal := aluRR divU d a b s
/-- REM (R88, R89). -/
def execRem (d a b : SReg) (s : State) : Host.Outcome State Fault Refusal := aluRR remS d a b s
/-- REMU (R88, R89). -/
def execRemu (d a b : SReg) (s : State) : Host.Outcome State Fault Refusal := aluRR remU d a b s
/-- PMUL (R88). -/
def execPmul (d a b : SReg) (s : State) : Host.Outcome State Fault Refusal :=
  aluRR (fun x y => field 0 64 (clmul x y 64)) d a b s
/-- PMULHI (R88). -/
def execPmulhi (d a b : SReg) (s : State) : Host.Outcome State Fault Refusal :=
  aluRR (fun x y => field 64 64 (clmul x y 64)) d a b s
/-- POPC (R88). -/
def execPopc (d a : SReg) (s : State) : Host.Outcome State Fault Refusal := aluR popc d a s
/-- CLZ (R88). -/
def execClz (d a : SReg) (s : State) : Host.Outcome State Fault Refusal :=
  aluR (fun x => BitVec.ofNat 64 (leadingZeros x 64)) d a s
/-- CTZ (R88). -/
def execCtz (d a : SReg) (s : State) : Host.Outcome State Fault Refusal :=
  aluR (fun x => BitVec.ofNat 64 (trailingZeros x 0 64)) d a s
/-- BREV (R88). -/
def execBrev (d a : SReg) (s : State) : Host.Outcome State Fault Refusal := aluR brev d a s
/-- BSWAP (R88). -/
def execBswap (d a : SReg) (s : State) : Host.Outcome State Fault Refusal := aluR bswap d a s

/-- ADDI (R90). -/
def execAddi (d a : SReg) (imm : BitVec 14) (s : State) : Host.Outcome State Fault Refusal :=
  aluR (fun x => x + imm14 imm) d a s
/-- ANDI (R90). -/
def execAndi (d a : SReg) (imm : BitVec 14) (s : State) : Host.Outcome State Fault Refusal :=
  aluR (fun x => x &&& imm14 imm) d a s
/-- ORI (R90). -/
def execOri (d a : SReg) (imm : BitVec 14) (s : State) : Host.Outcome State Fault Refusal :=
  aluR (fun x => x ||| imm14 imm) d a s
/-- XORI (R90). -/
def execXori (d a : SReg) (imm : BitVec 14) (s : State) : Host.Outcome State Fault Refusal :=
  aluR (fun x => x ^^^ imm14 imm) d a s
/-- SETLTI (R90). -/
def execSetlti (d a : SReg) (imm : BitVec 14) (s : State) : Host.Outcome State Fault Refusal :=
  aluR (fun x => setlt x (imm14 imm)) d a s
/-- SETLTIU (R90). -/
def execSetltiu (d a : SReg) (imm : BitVec 14) (s : State) : Host.Outcome State Fault Refusal :=
  aluR (fun x => setltu x (imm14 imm)) d a s
/-- SLLI (R91). -/
def execSlli (d a : SReg) (sh : BitVec 6) (s : State) : Host.Outcome State Fault Refusal :=
  aluR (fun x => sll x (sh.setWidth 64)) d a s
/-- SRLI (R91). -/
def execSrli (d a : SReg) (sh : BitVec 6) (s : State) : Host.Outcome State Fault Refusal :=
  aluR (fun x => srl x (sh.setWidth 64)) d a s
/-- SRAI (R91). -/
def execSrai (d a : SReg) (sh : BitVec 6) (s : State) : Host.Outcome State Fault Refusal :=
  aluR (fun x => sra x (sh.setWidth 64)) d a s
/-- RORI (R91). -/
def execRori (d a : SReg) (sh : BitVec 6) (s : State) : Host.Outcome State Fault Refusal :=
  aluR (fun x => ror x (sh.setWidth 64)) d a s

/-- BEXT (R92). -/
def execBext (d a : SReg) (o : BitVec 6) (w : BitVec 7) (s : State) : Host.Outcome State Fault Refusal :=
  scalar [a] [d] (fun s => .done (s.retire 8 d (bextU (s.readS a) o.toNat w.toNat))) s
/-- BEXTS (R92). -/
def execBexts (d a : SReg) (o : BitVec 6) (w : BitVec 7) (s : State) : Host.Outcome State Fault Refusal :=
  scalar [a] [d] (fun s => .done (s.retire 8 d (bextS (s.readS a) o.toNat w.toNat))) s
/-- BINS reads sd as well as sa (R92). -/
def execBins (d a : SReg) (o : BitVec 6) (w : BitVec 7) (s : State) : Host.Outcome State Fault Refusal :=
  scalar [a, d] [d] (fun s => .done (s.retire 8 d (binsW (s.readS d) (s.readS a) o.toNat w.toNat))) s

/-- LI with a 19-bit literal (R93). -/
def execLi (d : SReg) (imm : BitVec 19) (s : State) : Host.Outcome State Fault Refusal :=
  literal 4 (fun _ => imm19 imm) d s
/-- LI with a 32-bit literal (R93). -/
def execLi64 (d : SReg) (imm : BitVec 32) (s : State) : Host.Outcome State Fault Refusal :=
  literal 8 (fun _ => sextField imm) d s
/-- LI with a 64-bit literal (R93). -/
def execLi96 (d : SReg) (lo hi : BitVec 32) (s : State) : Host.Outcome State Fault Refusal :=
  literal 12 (fun _ => (hi ++ lo : BitVec 64)) d s
/-- LA (R94). -/
def execLa (d : SReg) (imm : BitVec 19) (s : State) : Host.Outcome State Fault Refusal :=
  literal 4 (fun s => pcRel19 s.me.pc imm) d s

/-- A hint of one parcel: a no-operation of its own length (R53). -/
def execHint (_h : BitVec 24) (s : State) : Host.Outcome State Fault Refusal := .next (s.advance 4)
/-- A hint of two parcels (R53). -/
def execHint64 (_h : BitVec 24) (_p1 : BitVec 32) (s : State) : Host.Outcome State Fault Refusal := .next (s.advance 8)
/-- A hint of three parcels (R53). -/
def execHint96 (_h : BitVec 24) (_p1 _p2 : BitVec 32) (s : State) : Host.Outcome State Fault Refusal :=
  .next (s.advance 12)
/-- A hint of five parcels (R53). -/
def execHint160 (_h : BitVec 24) (_p1 _p2 _p3 _p4 : BitVec 32) (s : State) : Host.Outcome State Fault Refusal :=
  .next (s.advance 20)

end Sys2Proof.Machine
end

