-- ==== Sys2Proof/Machine/Atomics.lean ====
section
/-! DEFINITION. Atomics, the acquire load, the release store and WAITV (05_scalar R103–R108). -/

namespace Sys2Proof.Machine

/-- An atomic on the doubleword at ReadS(A): inside a pure task a violation (R103); a release waits for the hart's own
multicasts, and on the compute hart the VIQ's accesses come first (R105); then the checks. -/
def atomicAt (acc : Nat) (need : Need) (release : Bool) (a : SReg) (k : State → Place → Res) (s : State) : Res :=
  impureOnly 3 ((if release then afterWrites else id) (afterViq (fun s =>
    (s.atomicCheck (s.who s.cur) acc need 8 (s.readS a).toNat 8).elim s (fun pl =>
      if need ≠ .read ∧ s.migrating .sync pl.pa then .wait false s else k s pl)))) s

/-- Whether an ORD code releases (R105): .REL and .AR. -/
def ordReleases (ord : BitVec 2) : Bool := bit ord 1

/-- A read-modify-write at the home slice (R104): sd := the old value, and the doubleword := g old b, in one step. A fault
of it reports ACC 2, a write (notes/assumptions/86). -/
def amo (g : Word → Word → Word) (ord : BitVec 2) (d a b : SReg) (s : State) : Host.Outcome State Fault Refusal :=
  scalar [a, b] [d] (fun s =>
    atomicAt 2 .rmw (ordReleases ord) a (fun s pl =>
      let old := s.memWord pl.pa
      let new := g old (s.readS b)
      .done (((s.syncWrite (s.who s.cur) pl.pa (bytesOfWord 8 new))).retire 4 d old)) s) s

/-- ATOM.SWAP (R104). -/
def execAtomSwap (ord : BitVec 2) (d a b : SReg) (s : State) : Host.Outcome State Fault Refusal :=
  amo (fun _ y => y) ord d a b s
/-- ATOM.ADD (R104). -/
def execAtomAdd (ord : BitVec 2) (d a b : SReg) (s : State) : Host.Outcome State Fault Refusal :=
  amo (fun x y => x + y) ord d a b s
/-- ATOM.AND (R104). -/
def execAtomAnd (ord : BitVec 2) (d a b : SReg) (s : State) : Host.Outcome State Fault Refusal :=
  amo (fun x y => x &&& y) ord d a b s
/-- ATOM.OR (R104). -/
def execAtomOr (ord : BitVec 2) (d a b : SReg) (s : State) : Host.Outcome State Fault Refusal :=
  amo (fun x y => x ||| y) ord d a b s
/-- ATOM.XOR (R104). -/
def execAtomXor (ord : BitVec 2) (d a b : SReg) (s : State) : Host.Outcome State Fault Refusal :=
  amo (fun x y => x ^^^ y) ord d a b s
/-- ATOM.MIN (R104). -/
def execAtomMin (ord : BitVec 2) (d a b : SReg) (s : State) : Host.Outcome State Fault Refusal :=
  amo minS ord d a b s
/-- ATOM.MAX (R104). -/
def execAtomMax (ord : BitVec 2) (d a b : SReg) (s : State) : Host.Outcome State Fault Refusal :=
  amo maxS ord d a b s
/-- ATOM.MINU (R104). -/
def execAtomMinu (ord : BitVec 2) (d a b : SReg) (s : State) : Host.Outcome State Fault Refusal :=
  amo minU ord d a b s
/-- ATOM.MAXU (R104). -/
def execAtomMaxu (ord : BitVec 2) (d a b : SReg) (s : State) : Host.Outcome State Fault Refusal :=
  amo maxU ord d a b s

/-- ATOM.CAS (R104): sd is the expected value and the result; a failed CAS only reads. -/
def execAtomCas (ord : BitVec 2) (d a b : SReg) (s : State) : Host.Outcome State Fault Refusal :=
  scalar [a, b, d] [d] (fun s =>
    atomicAt 2 .rmw (ordReleases ord) a (fun s pl =>
      let old := s.memWord pl.pa
      let s1 := if old = s.readS d then s.syncWrite (s.who s.cur) pl.pa (bytesOfWord 8 (s.readS b)) else s
      .done (s1.retire 4 d old)) s) s

/-- LD.ACQ (R106). -/
def execLdAcq (d a : SReg) (s : State) : Host.Outcome State Fault Refusal :=
  scalar [a] [d] (fun s => atomicAt 1 .read false a (fun s pl => .done (s.retire 4 d (s.memWord pl.pa))) s) s

/-- ST.REL (R106). -/
def execStRel (a b : SReg) (s : State) : Host.Outcome State Fault Refusal :=
  scalar [a, b] [] (fun s =>
    atomicAt 2 .write true a (fun s pl =>
      .done ((s.syncWrite (s.who s.cur) pl.pa (bytesOfWord 8 (s.readS b))).advance 4)) s) s

/-- The watch that a hart has set. -/
def State.watchOf (s : State) (r : HartRef) : Option Watch := s.watches.find? (fun w => decide (w.ref = r))

/-- The state without a hart's watch. -/
def State.unwatch (s : State) (r : HartRef) : State :=
  { s with watches := s.watches.filter (fun w => decide (w.ref ≠ r)) }

/-- WAITV (R107): completes when a value of the doubleword's coherence order, from its first read on, equals ReadS(B);
until then a watch stands at the home slice and the hart yields. -/
def execWaitv (d a b : SReg) (s : State) : Host.Outcome State Fault Refusal :=
  scalar [a, b] [d] (fun s =>
    match s.watchOf s.cur with
    | some w => if w.hit then .done ((s.unwatch s.cur).retire 4 d w.want) else .wait true s
    | none =>
      atomicAt 1 .read false a (fun s pl =>
        if s.memWord pl.pa = s.readS b then .done (s.retire 4 d (s.readS b))
        else .wait true { s with watches := s.watches ++
          [{ ref := s.cur, pa := pl.pa, want := s.readS b, hit := false }] }) s) s

end Sys2Proof.Machine
end

