-- ==== Sys2Proof/Machine/Numbers.lean ====
section
/-! DEFINITION. Element types, exact values, rounding and conversion (04_numbers R62–R79). -/

namespace Sys2Proof.Machine

/-- The specials of a float format (R66, R69). -/
inductive Specials where
  | finite | topnan | ieee
deriving DecidableEq, Repr

/-- A float format (R64, R65, R69): sign field, exponent and mantissa widths, bias, specials, and whether its own
policy on overflow saturates (R76). -/
structure Fmt where
  s    : Bool
  e    : Nat
  m    : Nat
  bias : Int
  spec : Specials
  sat  : Bool
deriving DecidableEq, Repr

/-- An element type (R62). -/
inductive EType where
  | float (f : Fmt) (width : Nat)
  | int (signed : Bool) (width : Nat)
  | sign
  | scale
deriving DecidableEq, Repr

/-- F32 (R62). -/
def fmtF32 : Fmt := { s := true, e := 8, m := 23, bias := 127, spec := .ieee, sat := false }
/-- F16 (R62). -/
def fmtF16 : Fmt := { s := true, e := 5, m := 10, bias := 15, spec := .ieee, sat := false }
/-- B16 (R62). -/
def fmtB16 : Fmt := { s := true, e := 8, m := 7, bias := 127, spec := .ieee, sat := false }
/-- E4M3 (R69). -/
def fmtE4M3 : Fmt := { s := true, e := 4, m := 3, bias := 7, spec := .topnan, sat := false }

/-- A FINITE preset (R69). -/
def presetFinite (e m : Nat) (bias : Int) : Fmt := { s := true, e := e, m := m, bias := bias, spec := .finite, sat := true }

/-- The format that a definition of a narrow-format register gives (R65). -/
def nfFmt (d : BitVec 32) : Fmt :=
  { s := bit d 7, e := bits d 4 3, m := bits d 0 4,
    bias := (d.extractLsb' 9 8).toInt,
    spec := if bits d 17 2 = 0 then .finite else if bits d 17 2 = 1 then .topnan else .ieee,
    sat := !bit d 19 || decide (bits d 17 2 = 0) }

/-- The exponent of a format's smallest step (R64). -/
def Fmt.minExp (f : Fmt) : Int := 1 - f.bias - f.m

/-- The largest exponent field of a finite value. -/
def Fmt.topE (f : Fmt) : Nat :=
  match f.spec with
  | .ieee => 2 ^ f.e - 2
  | .topnan => if f.m = 0 then 2 ^ f.e - 2 else 2 ^ f.e - 1
  | .finite => 2 ^ f.e - 1

/-- The largest mantissa field of a finite value at the largest exponent field. -/
def Fmt.topM (f : Fmt) : Nat :=
  match f.spec with
  | .topnan => if f.m = 0 then 0 else 2 ^ f.m - 2
  | _ => 2 ^ f.m - 1

/-- The code, without sign, of the largest finite magnitude. -/
def Fmt.maxCode (f : Fmt) : Nat := f.topE * 2 ^ f.m + f.topM

/-- The significand and the exponent of a code without sign (R64). -/
def Fmt.magOf (f : Fmt) (c : Nat) : Nat × Int :=
  let e := c / 2 ^ f.m
  let m := c % 2 ^ f.m
  if f.e = 0 ∨ e = 0 then (m, f.minExp) else (2 ^ f.m + m, (e : Int) - f.bias - f.m)

/-- Whether n × 2^k < 2^j, for exponents of either sign. -/
def belowPow (n : Nat) (k j : Int) : Bool :=
  if k ≤ j then decide (n < 2 ^ (j - k).toNat) else decide (n * 2 ^ (k - j).toNat < 1)

/-- The conditions of R66 that make a definition ill-formed. -/
def nfIllFormed (d : BitVec 32) : Bool :=
  let f := nfFmt d
  let n := f.s.toNat + f.e + f.m
  let top := f.magOf f.maxCode
  decide (n < 1 ∨ 8 < n) || decide (bits d 20 12 ≠ 0) || bit d 8 || decide (bits d 17 2 = 3)
    || (decide (f.spec = .ieee) && decide (f.e < 2 ∨ f.m < 1))
    || !belowPow top.1 top.2 128
    || (decide (0 < f.m ∨ 0 < f.maxCode) && decide ((if f.m = 0 then f.minExp else f.minExp) < -149))

/-- The width of a narrow format (R67); 8 while it is ill-formed (R62). -/
def nfWidth (d : BitVec 32) : Nat :=
  if nfIllFormed d then 8
  else
    let f := nfFmt d
    let n := f.s.toNat + f.e + f.m
    if n ≤ 1 then 1 else if n ≤ 2 then 2 else if n ≤ 4 then 4 else 8

/-- The type of a code under the definitions of nf0–nf7 (R62); none for a reserved code. -/
def etype (nf : Nat → BitVec 32) (c : Nat) : Option EType :=
  match c with
  | 8 => some (.float { s := true, e := 5, m := 2, bias := 15, spec := .ieee, sat := false } 8)
  | 9 => some (.float fmtE4M3 8)
  | 10 => some (.float (presetFinite 3 4 3) 8)
  | 11 => some (.float (presetFinite 2 5 1) 8)
  | 12 => some (.float (presetFinite 3 2 3) 8)
  | 13 => some (.float (presetFinite 2 3 1) 8)
  | 14 => some (.float (presetFinite 2 1 1) 4)
  | 15 => some (.float (presetFinite 1 2 0) 4)
  | 16 => some (.int true 2)
  | 17 => some (.int false 2)
  | 18 => some (.int true 4)
  | 19 => some (.int false 4)
  | 20 => some (.int true 8)
  | 21 => some (.int false 8)
  | 22 => some (.int true 16)
  | 23 => some (.int false 16)
  | 24 => some (.float fmtF16 16)
  | 25 => some (.float fmtB16 16)
  | 26 => some (.float fmtF32 32)
  | 27 => some (.int true 32)
  | 28 => some (.int false 32)
  | 29 => some .sign
  | 30 => some (.int false 1)
  | 31 => some .scale
  | 32 => some (.int true 64)
  | 33 => some (.int false 64)
  | c => if c < 8 then some (.float (nfFmt (nf c)) (nfWidth (nf c))) else none

/-- Width(c) (R62). -/
def EType.width : EType → Nat
  | .float _ w => w
  | .int _ w => w
  | .sign => 1
  | .scale => 8

/-- Integer or sign kind (R123). -/
def EType.integral : EType → Bool
  | .int _ _ => true
  | .sign => true
  | _ => false

/-- A Z type: two's complement. -/
def EType.isZ : EType → Bool
  | .int true _ => true
  | _ => false

/-- An exact value (R77): NaN, an infinity, or a real of sign and magnitude num / den; zero has a sign. -/
inductive Val where
  | nan (signalling : Bool)
  | inf (neg : Bool)
  | fin (neg : Bool) (num den : Nat)
deriving DecidableEq, Repr

/-- +0. -/
def Val.zero : Val := .fin false 0 1
/-- An integer. -/
def Val.ofInt (i : Int) : Val := .fin (decide (i < 0)) i.natAbs 1

/-- n × 2^k with a sign. -/
def Val.scaled (neg : Bool) (n : Nat) (k : Int) : Val :=
  if 0 ≤ k then .fin neg (n * 2 ^ k.toNat) 1 else .fin neg n (2 ^ (-k).toNat)

/-- The decoding of an element of a float format (R64, R66, R69); F16, B16 and F32 alone have signalling NaNs. -/
def Fmt.decode (f : Fmt) (x : Nat) : Val :=
  let mag := x % 2 ^ (f.e + f.m)
  let neg := f.s && decide (x / 2 ^ (f.e + f.m) % 2 = 1)
  let e := mag / 2 ^ f.m
  let m := mag % 2 ^ f.m
  match f.spec with
  | .ieee =>
    if e = 2 ^ f.e - 1 then
      if m = 0 then .inf neg else .nan (decide (f.m ≥ 7) && decide (m < 2 ^ (f.m - 1)))
    else let p := f.magOf mag; .scaled neg p.1 p.2
  | .topnan => if mag = 2 ^ (f.e + f.m) - 1 then .nan false else let p := f.magOf mag; .scaled neg p.1 p.2
  | .finite => let p := f.magOf mag; .scaled neg p.1 p.2

/-- The exact value of an element's bits (R62, R64). -/
def EType.decode (t : EType) (x : Nat) : Val :=
  match t with
  | .float f _ => f.decode x
  | .int true w => .ofInt (BitVec.ofNat w x).toInt
  | .int false w => .fin false (x % 2 ^ w) 1
  | .sign => .fin (decide (x % 2 = 1)) 1 1
  | .scale => if x % 256 = 255 then .nan false else .scaled false 1 ((x % 256 : Nat) - 127 : Int)

/-- The rounding modes (R71), by VTYPE.RM. -/
inductive RMode where
  | rne | rtz | rdn | rup
deriving DecidableEq, Repr

/-- The mode of a code of VTYPE.RM (03_encoding R54). -/
def rmodeOf (n : Nat) : RMode :=
  match n with
  | 0 => .rne
  | 1 => .rtz
  | 2 => .rdn
  | _ => .rup

/-- Whether the mode rounds a magnitude of this sign toward zero. -/
def RMode.towardZero (r : RMode) (neg : Bool) : Bool :=
  match r with
  | .rne => false
  | .rtz => true
  | .rdn => !neg
  | .rup => neg

/-- Whether the mode rounds a magnitude of this sign away from zero. -/
def RMode.awayFromZero (r : RMode) (neg : Bool) : Bool :=
  match r with
  | .rdn => neg
  | .rup => !neg
  | _ => false

/-- The integer that num / den rounds to; `odd` says whether the lower candidate is the odd one of a tie. -/
def roundNat (r : RMode) (neg : Bool) (num den : Nat) (odd : Nat → Bool) : Nat × Bool :=
  let q := num / den
  let rem := num % den
  if rem = 0 then (q, false)
  else
    let up := match r with
      | .rne => decide (den < 2 * rem) || (decide (2 * rem = den) && odd q)
      | .rtz => false
      | .rdn => neg
      | .rup => !neg
    (if up then q + 1 else q, true)

/-- floor (log2 (num / den)) of a positive rational. -/
def log2Floor (num den : Nat) : Int :=
  let k : Int := (Nat.log2 num : Int) - (Nat.log2 den : Int)
  let below := if 0 ≤ k then decide (num < den * 2 ^ k.toNat) else decide (num * 2 ^ (-k).toNat < den)
  if below then k - 1 else k

/-- num / den divided by 2^u. -/
def shiftDown (num den : Nat) (u : Int) : Nat × Nat :=
  if 0 ≤ u then (num, den * 2 ^ u.toNat) else (num * 2 ^ (-u).toNat, den)

/-- What rounding a finite value to a format's grid gives (R71, R74): the code without sign, and the flags; an overflow
answers none for the code. -/
def Fmt.roundMag (f : Fmt) (r : RMode) (neg : Bool) (num den : Nat) : Option Nat × FFlags :=
  if num = 0 then (some 0, .none)
  else
    let k := log2Floor num den
    let u : Int := if f.e = 0 then f.minExp else max (k - f.m) f.minExp
    let p := shiftDown num den u
    -- the code of n × 2^u
    let base : Int := if f.e = 0 ∨ u = f.minExp then 0 else (u - f.minExp) * 2 ^ f.m
    let oddAt := fun (q : Nat) =>
      if f.m = 0 ∧ f.e ≠ 0 then decide ((base + q) % 2 = 1) else decide (q % 2 = 1)
    let nr := roundNat r neg p.1 p.2 oddAt
    let code : Nat := (base + nr.1).toNat
    let sub := decide (f.e ≠ 0) && decide (k < 1 - f.bias)
    if f.maxCode < code then (none, { ov := true, ix := true })
    else (some code, { un := sub && nr.2, ix := nr.2 })

/-- The sign bit of a format in its place. -/
def Fmt.signBit (f : Fmt) (neg : Bool) : Nat := if neg && f.s then 2 ^ (f.e + f.m) else 0

/-- The canonical NaN of a format (R72). -/
def Fmt.nanCode (f : Fmt) : Nat :=
  match f.spec with
  | .ieee => (2 ^ f.e - 1) * 2 ^ f.m + 2 ^ (f.m - 1)
  | .topnan => 2 ^ (f.e + f.m) - 1
  | .finite => 0

/-- The infinity of a format with IEEE specials. -/
def Fmt.infCode (f : Fmt) : Nat := (2 ^ f.e - 1) * 2 ^ f.m

/-- A value that overflows a format, or an infinity (R77). -/
def Fmt.overflow (f : Fmt) (sat : Bool) (r : RMode) (neg : Bool) : Nat :=
  match f.spec with
  | .ieee => if sat || r.towardZero neg then f.maxCode + f.signBit neg else f.infCode + f.signBit neg
  | .topnan => if sat || r.towardZero neg then f.maxCode + f.signBit neg else f.nanCode
  | .finite => f.maxCode + f.signBit neg

/-- Conversion to a float format (R77); sat says whether the target saturates (R76). A negative value whose rounded result
is not zero, also one that is too large or tiny, gives +0 with IV and IX alone where the format has no sign
(notes/assumptions/84). -/
def Fmt.encode (f : Fmt) (sat : Bool) (r : RMode) (x : Val) : Nat × FFlags :=
  match x with
  | .nan sig =>
    match f.spec with
    | .finite => (0, { iv := true })
    | _ => (f.nanCode, { iv := sig })
  | .inf neg =>
    if neg && !f.s then (0, { iv := true })
    else match f.spec with
      | .ieee => (f.infCode + f.signBit neg, .none)
      | .topnan => if sat then (f.maxCode + f.signBit neg, { ov := true }) else (f.nanCode, .none)
      | .finite => (f.maxCode + f.signBit neg, { ov := true })
  | .fin neg num den =>
    match f.roundMag r neg num den with
    | (some c, fl) =>
      if neg && !f.s then (if c = 0 then (0, fl) else (0, { iv := true, ix := true }))
      else (c + f.signBit neg, fl)
    | (none, fl) =>
      if neg && !f.s then (0, { iv := true, ix := true })
      else (f.overflow sat r neg, fl)

/-- Conversion to K8 (R77). -/
def encodeK8 (sat : Bool) (r : RMode) (x : Val) : Nat × FFlags :=
  match x with
  | .nan sig => (255, { iv := sig })
  | .inf true => (255, { iv := true })
  | .inf false => if sat then (254, { ov := true }) else (255, .none)
  | .fin neg num den =>
    if num = 0 ∨ neg then (255, { iv := true })
    else
      let k := log2Floor num den
      if k < -127 then (0, { un := true, ix := true })
      else
        let p := shiftDown num den k
        let nr := roundNat r false p.1 p.2 (fun q => decide ((k + 127 + (q : Int) - 1) % 2 = 1))
        let e : Int := k + (nr.1 : Int) - 1
        if 127 < e then
          (if sat || decide (r = .rtz) || decide (r = .rdn) then 254 else 255, { ov := true, ix := true })
        else ((e + 127).toNat, { ix := nr.2 })

/-- The bounds of an integer type. -/
def intBounds (signed : Bool) (w : Nat) : Int × Int :=
  if signed then (-(2 ^ (w - 1) : Nat), (2 ^ (w - 1) : Nat) - 1) else (0, (2 ^ w : Nat) - 1)

/-- An integer cut to w bits. -/
def intBits (w : Nat) (i : Int) : Nat := (i % (2 ^ w : Nat)).toNat

/-- Conversion to an integer type (R77): integer-sourced values wrap or clamp without a flag; others round and clamp. -/
def encodeInt (signed : Bool) (w : Nat) (intSrc sat : Bool) (r : RMode) (x : Val) : Nat × FFlags :=
  let b := intBounds signed w
  match x with
  | .nan _ => (0, { iv := true })
  | .inf neg => (intBits w (if neg then b.1 else b.2), { iv := true })
  | .fin neg num den =>
    let nr := roundNat r neg num den (fun q => decide (q % 2 = 1))
    let i : Int := if neg then -(nr.1 : Int) else nr.1
    if b.1 ≤ i ∧ i ≤ b.2 then (intBits w i, { ix := nr.2 })
    else
      let c := if i < b.1 then b.1 else b.2
      if intSrc then (intBits w (if sat then c else i), .none) else (intBits w c, { iv := true })

/-- Conversion to S1 (R77). No value but a NaN raises a flag: one that is not a sign is not inexact
(notes/assumptions/83). -/
def encodeSign (x : Val) : Nat × FFlags :=
  match x with
  | .nan _ => (0, { iv := true })
  | .inf neg => (neg.toNat, .none)
  | .fin neg num _ => ((neg && decide (num ≠ 0)).toNat, .none)

/-- ToType (R77): the bits of a value in a type, and the flags. An integer-sourced zero has no sign. -/
def toType (t : EType) (intSrc sat : Bool) (r : RMode) (x : Val) : Nat × FFlags :=
  let x := match x with
    | .fin neg num den => if intSrc && decide (num = 0) then .fin false 0 1 else .fin neg num den
    | x => x
  match t with
  | .float f _ => f.encode (sat || f.sat) r x
  | .int signed w => encodeInt signed w intSrc sat r x
  | .sign => encodeSign x
  | .scale => encodeK8 sat r x

/-- RoundF32 (R75): a value of F32, and the flags. -/
def roundF32 (r : RMode) (x : Val) : Val × FFlags :=
  let p := fmtF32.encode false r x
  (match x with
    | .nan _ => .nan false
    | _ => fmtF32.decode p.1, p.2)

/-- IV of operands that are signalling NaNs (R74). -/
def Val.sig : Val → Bool
  | .nan s => s
  | _ => false

/-- Whether a value is NaN. -/
def Val.isNan : Val → Bool
  | .nan _ => true
  | _ => false

/-- The sign of a value that is not NaN. -/
def Val.neg : Val → Bool
  | .nan _ => false
  | .inf n => n
  | .fin n _ _ => n

/-- Whether a value is ±0. -/
def Val.isZero : Val → Bool
  | .fin _ 0 _ => true
  | _ => false

/-- A value with its sign turned; NaN stays. -/
def Val.negate : Val → Val
  | .nan s => .nan s
  | .inf n => .inf (!n)
  | .fin n a b => .fin (!n) a b

/-- The signed numerator over a common denominator. -/
def signedNum (neg : Bool) (n : Nat) : Int := if neg then -(n : Int) else n

/-- The exact sum (R73, R74). -/
def Val.add (r : RMode) (a b : Val) : Val × FFlags :=
  match a, b with
  | .nan s, y => (.nan false, { iv := s || y.sig })
  | x, .nan s => (.nan false, { iv := s || x.sig })
  | .inf n, .inf m => if n = m then (.inf n, .none) else (.nan false, { iv := true })
  | .inf n, _ => (.inf n, .none)
  | _, .inf n => (.inf n, .none)
  | .fin n1 a1 b1, .fin n2 a2 b2 =>
    let i := signedNum n1 (a1 * b2) + signedNum n2 (a2 * b1)
    if i = 0 then
      (.fin (if a1 = 0 ∧ a2 = 0 ∧ n1 = n2 then n1 else decide (r = .rdn)) 0 1, .none)
    else (.fin (decide (i < 0)) i.natAbs (b1 * b2), .none)

/-- The exact product (R74). -/
def Val.mul (a b : Val) : Val × FFlags :=
  match a, b with
  | .nan s, y => (.nan false, { iv := s || y.sig })
  | x, .nan s => (.nan false, { iv := s || x.sig })
  | .inf n, y => if y.isZero then (.nan false, { iv := true }) else (.inf (n != y.neg), .none)
  | x, .inf n => if x.isZero then (.nan false, { iv := true }) else (.inf (n != x.neg), .none)
  | .fin n1 a1 b1, .fin n2 a2 b2 => (.fin (n1 != n2) (a1 * a2) (b1 * b2), .none)

/-- The exact quotient (R74). -/
def Val.div (a b : Val) : Val × FFlags :=
  match a, b with
  | .nan s, y => (.nan false, { iv := s || y.sig })
  | x, .nan s => (.nan false, { iv := s || x.sig })
  | .inf _, .inf _ => (.nan false, { iv := true })
  | .inf n, .fin m _ _ => (.inf (n != m), .none)
  | .fin n _ _, .inf m => (.fin (n != m) 0 1, .none)
  | .fin n1 a1 b1, .fin n2 a2 b2 =>
    if a2 = 0 then
      if a1 = 0 then (.nan false, { iv := true }) else (.inf (n1 != n2), { zd := true })
    else (.fin (n1 != n2) (a1 * b2) (b1 * a2), .none)

/-- Whether a < b, for values that are not NaN; −0 is below +0 when zeros are ordered (R73). -/
def Val.lt (orderZeros : Bool) (a b : Val) : Bool :=
  match a, b with
  | .inf n, .inf m => n && !m
  | .inf n, .fin _ _ _ => n
  | .fin _ _ _, .inf m => !m
  | .fin n1 a1 b1, .fin n2 a2 b2 =>
    let x := signedNum n1 (a1 * b2)
    let y := signedNum n2 (a2 * b1)
    decide (x < y) || (orderZeros && decide (x = 0) && decide (y = 0) && n1 && !n2)
  | _, _ => false

/-- Whether a = b as numbers, for values that are not NaN; −0 equals +0 (R129). -/
def Val.eqv (a b : Val) : Bool := !a.isNan && !b.isNan && !a.lt false b && !b.lt false a

/-- MIN or MAX (R73): NaN when either operand is. -/
def Val.pick (max : Bool) (a b : Val) : Val × FFlags :=
  if a.isNan || b.isNan then (.nan false, { iv := a.sig || b.sig })
  else if max then (if a.lt true b then b else a, .none)
  else (if b.lt true a then b else a, .none)

/-- a × b + d, exact before its one rounding (R125). -/
def Val.fma (r : RMode) (a b d : Val) : Val × FFlags :=
  let p := a.mul b
  let q := p.1.add r d
  (q.1, p.2.or q.2)

/-- The integer that a finite value is, truncated toward zero. -/
def Val.toInt : Val → Int
  | .fin n a b => signedNum n (a / b)
  | _ => 0

/-- VDIV of integer-sourced operands (R125): truncated toward zero, and 0 when b = 0. -/
def Val.intDiv (a b : Val) : Val := if b.isZero then Val.zero else .ofInt (a.toInt.tdiv b.toInt)

/-- ScaledElem (R79): the element times its scale, rounded to F32 with RNE. -/
def scaledElem (v σ : Val) : Val × FFlags :=
  let p := v.mul σ
  let q := roundF32 .rne p.1
  (q.1, p.2.or q.2)

/-- The scale of an entry (R78): bits [7:0] as K8, or as E4M3. -/
def scaleVal (e4m3 : Bool) (e : BitVec 16) : Val :=
  if e4m3 then fmtE4M3.decode (e.toNat % 256) else EType.scale.decode (e.toNat % 256)

/-- The F32 bits of a value that is an F32. -/
def f32Bits (x : Val) : Nat := (fmtF32.encode false .rne x).1

/-- The value of F32 bits. -/
def f32Val (x : Nat) : Val := fmtF32.decode x

end Sys2Proof.Machine
end

