-- ==== Sys2Proof/Machine/Transcend.lean ====
section
/-! DEFINITION. The square root, the logarithm, the exponential and the functions made from it (06_vector R127). Every
boundary at which rounding to a type of R62 can turn is a multiple of 2^−150, and below 2^128. An irrational value x is
therefore stood for by the midpoint of the two multiples of 2^−160 that it lies between, which rounds to every type, in
every mode and with every flag, as x does (notes/assumptions/21). -/

namespace Sys2Proof.Machine

/-- The integer square root, by bits from bit k down: the fuel is the number of bits. -/
def isqrtFrom (n : Nat) : Nat → Nat → Nat
  | 0, r => r
  | k + 1, r => let c := r + 2 ^ k; isqrtFrom n k (if c * c ≤ n then c else r)

/-- The integer square root. -/
def isqrt (n : Nat) : Nat := isqrtFrom n (Nat.log2 n / 2 + 1) 0

/-- The precision of the fixed-point series: values are multiples of 2^−1024. -/
def fixOne : Nat := 2 ^ 1024

/-- The midpoint of the multiples of 2^−160 at q and q + 1. -/
def midpoint (neg : Bool) (q : Nat) : Val := .fin neg (2 * q + 1) (2 ^ 161)

/-- The multiple of 2^−160 at or below a fixed-point value. -/
def fixFloor (x : Nat) : Nat := x / 2 ^ 864

/-- The series of atanh, term by term: p is the odd power of z, k its exponent. -/
def atanhSum (z2 : Nat) : Nat → Nat → Nat → Nat
  | 0, _, _ => 0
  | f + 1, p, k => p / k + atanhSum z2 f (p * z2 / fixOne) (k + 2)

/-- atanh of a fixed-point value up to 1/3. -/
def atanhFix (z : Nat) : Nat := atanhSum (z * z / fixOne) 330 z 1

/-- The natural logarithm of num / den, which lies in [1, 2). -/
def lnFix (num den : Nat) : Nat := 2 * atanhFix ((num - den) * fixOne / (num + den))

/-- ln 2. -/
def ln2Fix : Nat := lnFix 2 1

/-- The series of e^y, term by term. -/
def expSum (y : Nat) : Nat → Nat → Nat → Nat
  | 0, _, _ => 0
  | f + 1, t, k => t + expSum y f (t * y / fixOne / k) (k + 1)

/-- e^y of a fixed-point value below 1. -/
def expFix (y : Nat) : Nat := expSum y 190 fixOne 1

/-- e^(num / den), num / den at most 512. -/
def expRat (num den : Nat) : Nat :=
  let y := num * fixOne / den
  let n := y / ln2Fix
  expFix (y - n * ln2Fix) * 2 ^ n

/-- The square root (R127). -/
def valSqrt (x : Val) : Val × FFlags :=
  match x with
  | .nan s => (.nan false, { iv := s })
  | .inf true => (.nan false, { iv := true })
  | .inf false => (.inf false, .none)
  | .fin neg num den =>
    if num = 0 then (.fin neg 0 1, .none)
    else if neg then (.nan false, { iv := true })
    else
      let r := isqrt (num * den)
      if r * r = num * den then (.fin false r den, .none)
      else (midpoint false (isqrt (num * 2 ^ 320 / den)), .none)

/-- The reciprocal (R127). -/
def valRcp (x : Val) : Val × FFlags := Val.div (.fin false 1 1) x

/-- The reciprocal of the square root (R127). -/
def valRsq (x : Val) : Val × FFlags :=
  match x with
  | .nan s => (.nan false, { iv := s })
  | .inf true => (.nan false, { iv := true })
  | .inf false => (.fin false 0 1, .none)
  | .fin neg num den =>
    if num = 0 then (.inf neg, { zd := true })
    else if neg then (.nan false, { iv := true })
    else
      let r := isqrt (num * den)
      if r * r = num * den then (.fin false den r, .none)
      else (midpoint false (isqrt (den * 2 ^ 320 / num)), .none)

/-- 2^x (R127): beyond ±200 every type overflows, or rounds as from a value below every boundary. -/
def valExp2 (x : Val) : Val × FFlags :=
  match x with
  | .nan s => (.nan false, { iv := s })
  | .inf true => (.fin false 0 1, .none)
  | .inf false => (.inf false, .none)
  | .fin neg num den =>
    if num % den = 0 then
      let n := min (num / den) 200
      (if neg then .fin false 1 (2 ^ n) else .fin false (2 ^ n) 1, .none)
    else if 200 ≤ num / den then (if neg then midpoint false 0 else .fin false (2 ^ 200) 1, .none)
    else
      let n := num / den
      let y := num % den * ln2Fix / den
      let e := expFix y
      (midpoint false (fixFloor (if neg then fixOne * fixOne / (e * 2 ^ n) else e * 2 ^ n)), .none)

/-- log2 x (R127). -/
def valLog2 (x : Val) : Val × FFlags :=
  match x with
  | .nan s => (.nan false, { iv := s })
  | .inf true => (.nan false, { iv := true })
  | .inf false => (.inf false, .none)
  | .fin neg num den =>
    if num = 0 then (.inf true, { zd := true })
    else if neg then (.nan false, { iv := true })
    else
      let k := log2Floor num den
      let p := shiftDown num den k
      if p.1 = p.2 then (.ofInt k, .none)
      else
        let f := lnFix p.1 p.2 * fixOne / ln2Fix
        if 0 ≤ k then (midpoint false (fixFloor (k.toNat * fixOne + f)), .none)
        else (midpoint true (fixFloor ((-k).toNat * fixOne - f)), .none)

/-- tanh x (R127). -/
def valTanh (x : Val) : Val × FFlags :=
  match x with
  | .nan s => (.nan false, { iv := s })
  | .inf neg => (.fin neg 1 1, .none)
  | .fin neg num den =>
    if num = 0 then (.fin neg 0 1, .none)
    else if 256 ≤ num / den then (midpoint neg (2 ^ 160 - 1), .none)
    else
      let e := expRat (2 * num) den
      (midpoint neg (fixFloor ((e - fixOne) * fixOne / (e + fixOne))), .none)

/-- 1 / (1 + e^(−x)) (R127). -/
def valSigm (x : Val) : Val × FFlags :=
  match x with
  | .nan s => (.nan false, { iv := s })
  | .inf true => (.fin false 0 1, .none)
  | .inf false => (.fin false 1 1, .none)
  | .fin neg num den =>
    if num = 0 then (.fin false 1 2, .none)
    else if 256 ≤ num / den then (midpoint false (if neg then 0 else 2 ^ 160 - 1), .none)
    else
      let e := expRat num den
      (midpoint false (fixFloor (if neg then fixOne * fixOne / (e + fixOne) else e * fixOne / (e + fixOne))), .none)

end Sys2Proof.Machine
end

