-- ==== Sys2Proof/Machine/Vec.lean ====
section
/-! DEFINITION. What vector instructions share: the VTYPE that an entry carries, tags, spans, elements, masks, fills,
scales, the checks of 06_vector R122 in the order of 03_encoding R51, and the commit of flags (06_vector R112–R123). -/

namespace Sys2Proof.Machine

/-- Bytes of a vector register in the state's numbering. -/
def vStride : Nat := 12288
/-- Bits of a mask register in the state's numbering. -/
def mStride : Nat := 98304

/-- The element width of VTYPE (03_encoding R54). -/
def VEntry.w (e : VEntry) : Nat := 2 ^ bits e.vtype 7 3
/-- The grouping of VTYPE. -/
def VEntry.g (e : VEntry) : Nat := 2 ^ bits e.vtype 0 3
/-- The rounding mode of VTYPE. -/
def VEntry.rm (e : VEntry) : RMode := rmodeOf (bits e.vtype 3 2)
/-- Saturation of VTYPE. -/
def VEntry.sat (e : VEntry) : Bool := decide (bits e.vtype 5 2 = 1)
/-- ILL of VTYPE. -/
def VEntry.ill (e : VEntry) : Bool := bit e.vtype 10
/-- The n-th scalar operand captured at push. -/
def VEntry.op (e : VEntry) (n : Nat) : Word := e.ops.getD n 0

/-- A new entry of the queue: the instruction, its address, its scalar operands, the VL and VTYPE in force for it
(12_context R284), and whether it was fetched from outside its pure task's code. -/
def Ctx.entry (c : Ctx) (i : Instr) (addr : Word) (ops : List Word) (outside : Bool) : VEntry :=
  { instr := i, addr := addr, ops := ops, vl := c.vl, vtype := c.vtype, epoch := c.epoch, step := 0, scatter := none, marks := [],
    popped := false, job := none, flags := 0, index := [], outside := outside }

/-- Illegal with a detail, for a VIQ entry (12_context R280). -/
def VEntry.illegal (e : VEntry) (detail : Nat) : Trap := { cause := .illegal, detail := detail, addr := e.addr }

/-- The tag of a vector register (R112). -/
def Ctx.tag (c : Ctx) (r : VReg) : BitVec 12 := sget 0x01A c.vtag r.toNat
/-- TYPE of a tag. -/
def tagType (t : BitVec 12) : Nat := bits t 0 6
/-- SC of a tag. -/
def tagScaled (t : BitVec 12) : Bool := bit t 11
/-- The tag of a register written. -/
def Ctx.setTag (c : Ctx) (r : VReg) (t : BitVec 12) : Ctx := { c with vtag := sset 0x01A c.vtag r.toNat t }

/-- A narrow-format definition. -/
def Ctx.nfDef (c : Ctx) (n : Nat) : BitVec 32 := sget 0 c.nf n
/-- The type of a code in a context; a reserved code, which no check lets through, stands as F32. -/
def Ctx.typeOf (c : Ctx) (code : Nat) : EType := (etype c.nfDef code).getD (.float fmtF32 32)
/-- Width(c) in a context (03_encoding R61). -/
def Ctx.widthOf (c : Ctx) (code : Nat) : Nat := (c.typeOf code).width
/-- The type of a register. -/
def Ctx.regType (c : Ctx) (r : VReg) : EType := c.typeOf (tagType (c.tag r))
/-- The width of a register's type. -/
def Ctx.regWidth (c : Ctx) (r : VReg) : Nat := (c.regType r).width

/-- The registers that a span of type width W covers, at least 1 (R114). -/
def VEntry.spanRegs (e : VEntry) (W : Nat) : Nat := max 1 (e.g * W / e.w)

/-- Whether an operand of width W based at a register breaks a span rule (R114). -/
def VEntry.spanBad (e : VEntry) (W : Nat) (r : VReg) : Bool :=
  decide (8 * e.w < e.g * W) || decide (r.toNat % e.spanRegs W ≠ 0) || decide (32 < r.toNat + e.spanRegs W)

/-- A span to check: a register and the type code it is checked under. -/
structure Span where
  reg  : VReg
  code : Nat
deriving DecidableEq, Repr

/-- A register under the tag it holds. -/
def Ctx.span (c : Ctx) (r : VReg) : Span := { reg := r, code := tagType (c.tag r) }
/-- A destination under the tag of another register. -/
def Ctx.spanAs (c : Ctx) (r from_ : VReg) : Span := { reg := r, code := tagType (c.tag from_) }

/-- The checks of R122 in the order of R51: ILLVTYPE, ILLFMT for the codes whose values are used, then detail 8 for
a mask beyond VL (R27), a reserved code, or a span. -/
def vecCheck (c : Ctx) (e : VEntry) (fmts : List Nat) (masks : List MReg) (spans : List Span) : Option Trap :=
  if e.ill then some { cause := .illvtype }
  else if fmts.any (fun x => decide (x < 8) && nfIllFormed (c.nfDef x)) then some { cause := .illfmt }
  else if masks.any (fun m => decide (m ≠ 0) && decide (c.maskBits < e.vl)) then some (e.illegal 8)
  else if spans.any (fun s => (etype c.nfDef s.code).isNone || e.spanBad (c.widthOf s.code) s.reg) then
    some (e.illegal 8)
  else none

/-- An entry goes on when its checks find nothing. -/
def vChecked (t : Option Trap) (s : State) (k : Res) : Res :=
  match t with
  | some t => .trap t s
  | none => k

/-- The stored bits of element i of the group at a register (R63, R114): elements are packed from bit 0 upward over the
bytes in use of consecutive registers. -/
def Ctx.elem (c : Ctx) (r : VReg) (w i : Nat) : Nat :=
  let p := i * w
  let k := (r.toNat + p / (8 * c.usedBytes)) * vStride + p % (8 * c.usedBytes) / 8
  if 8 ≤ w then natOfBytes (sgetList 0 c.v k (w / 8)) else (sget 0 c.v k).toNat / 2 ^ (p % 8) % 2 ^ w

/-- The stored bits of element i changed. -/
def Ctx.setElem (c : Ctx) (r : VReg) (w i x : Nat) : Ctx :=
  let p := i * w
  let k := (r.toNat + p / (8 * c.usedBytes)) * vStride + p % (8 * c.usedBytes) / 8
  if 8 ≤ w then { c with v := ssetList 0 c.v k (bytesOfNat (w / 8) x) }
  else
    let b := (sget 0 c.v k).toNat
    { c with v := sset 0 c.v k (BitVec.ofNat 8 (b - b / 2 ^ (p % 8) % 2 ^ w * 2 ^ (p % 8) + x % 2 ^ w * 2 ^ (p % 8))) }

/-- Elements changed, in the order of the list. -/
def Ctx.setElems (c : Ctx) (r : VReg) (w : Nat) (xs : List (Nat × Nat)) : Ctx :=
  xs.foldl (fun c x => c.setElem r w x.1 x.2) c

/-- Fill(): the low bits of VFILL (03_encoding R61). -/
def Ctx.fill (c : Ctx) (w : Nat) : Nat := c.vfill.toNat % 2 ^ w

/-- SrcElem as bits (R61, R116): element i, or the fill at or beyond VL. -/
def Ctx.src (c : Ctx) (e : VEntry) (r : VReg) (w i : Nat) : Nat := if i < e.vl then c.elem r w i else c.fill w

/-- A bit of a mask register; m0 reads as ones (R117). -/
def Ctx.maskBit (c : Ctx) (m : MReg) (i : Nat) : Bool :=
  decide (m = 0) || decide (sget 0 c.m (m.toNat * mStride + i) = 1)

/-- A bit of a mask register written; writes to m0 are discarded (R117). -/
def Ctx.setMaskBit (c : Ctx) (m : MReg) (i : Nat) (b : Bool) : Ctx :=
  if m = 0 then c else { c with m := sset 0 c.m (m.toNat * mStride + i) (BitVec.ofBool b) }

/-- Mask bits changed. -/
def Ctx.setMaskBits (c : Ctx) (m : MReg) (xs : List (Nat × Bool)) : Ctx :=
  xs.foldl (fun c x => c.setMaskBit m x.1 x.2) c

/-- Active(i, m) (R61). -/
def Ctx.active (c : Ctx) (e : VEntry) (m : MReg) (i : Nat) : Bool := decide (i < e.vl) && c.maskBit m i

/-- The active elements in ascending order. -/
def Ctx.actives (c : Ctx) (e : VEntry) (m : MReg) : List Nat := (List.range e.vl).filter (c.maskBit m)

/-- The scale of element i under a tag (04_numbers R79): the entry of the tag's bank, modulo the bank's entries. -/
def Ctx.scaleOf (c : Ctx) (t : BitVec 12) (i : Nat) : Val :=
  let bank := bits t 6 2
  scaleVal (decide (sget 0 c.scaleMode bank = 1)) (sget 0 c.scale (bank * 512 + i / 2 ^ (bits t 8 3 + 1) % c.scaleEntries))

/-- The value of a stored element (R123): decoded by its type, and scaled where its tag says so. -/
def Ctx.elemVal (c : Ctx) (r : VReg) (i : Nat) : Val × FFlags :=
  let t := c.tag r
  let ty := c.regType r
  let v := ty.decode (c.elem r ty.width i)
  if tagScaled t then scaledElem v (c.scaleOf t i) else (v, .none)

/-- The value of element i of a source (R116): the stored element, or the fill, which is never scaled. -/
def Ctx.srcVal (c : Ctx) (e : VEntry) (r : VReg) (i : Nat) : Val × FFlags :=
  if i < e.vl then c.elemVal r i else ((c.regType r).decode (c.fill (c.regWidth r)), .none)

/-- Whether the values of a register are of integer or sign kind and unscaled (R123). -/
def Ctx.intReg (c : Ctx) (r : VReg) : Bool := (c.regType r).integral && !tagScaled (c.tag r)

/-- The second source of a form with XS (R124): a vector register, or a scalar that stands for every element. -/
inductive Src2 where
  | vec (r : VReg)
  | scalar (x : Word)
deriving DecidableEq, Repr

/-- The second source of an entry. -/
def src2 (e : VEntry) (xs : BitVec 1) (b : BitVec 5) : Src2 := if xs = 1 then .scalar (e.op 0) else .vec b

/-- The value of element i of the second source; a scalar is read under the type of va and never scaled. -/
def Ctx.src2Val (c : Ctx) (e : VEntry) (a : VReg) (b : Src2) (i : Nat) : Val × FFlags :=
  match b with
  | .vec r => c.srcVal e r i
  | .scalar x => let ty := c.regType a; (ty.decode (x.toNat % 2 ^ ty.width), .none)

/-- The bits of element i of the second source. -/
def Ctx.src2Bits (c : Ctx) (e : VEntry) (a : VReg) (b : Src2) (i : Nat) : Nat :=
  match b with
  | .vec r => c.src e r (c.regWidth r) i
  | .scalar x => x.toNat % 2 ^ c.regWidth a

/-- The second source as an operand of integer or sign kind, unscaled. -/
def Ctx.src2Int (c : Ctx) (a : VReg) (b : Src2) : Bool :=
  match b with
  | .vec r => c.intReg r
  | .scalar _ => (c.regType a).integral

/-- The spans of the second source. -/
def Ctx.src2Spans (c : Ctx) (b : Src2) : List Span :=
  match b with
  | .vec r => [c.span r]
  | .scalar _ => []

/-- The type codes of the second source. -/
def Ctx.src2Codes (c : Ctx) (b : Src2) : List Nat :=
  match b with
  | .vec r => [tagType (c.tag r)]
  | .scalar _ => []

/-- The flags of many elements. -/
def orFlags (fs : List FFlags) : FFlags := fs.foldl FFlags.or .none

/-- The commit of an instruction's flags on the moving hart (02_machine R33). -/
def State.raise (s : State) (maj : BitVec 6) (f : FFlags) : State :=
  s.withMe { s.me with fflags := commitFlags s.me.fflags f maj }

/-- Results of elements written to a group, with the flags that they raise. -/
def State.writeResults (s : State) (d : VReg) (w : Nat) (maj : BitVec 6) (rs : List (Nat × Nat × FFlags)) : State :=
  (s.withMyCtx (s.myCtx.setElems d w (rs.map (fun r => (r.1, r.2.1))))).raise maj (orFlags (rs.map (·.2.2)))

/-- A value result into the type of a destination, with VTYPE's mode and policy (R123). -/
def VEntry.toDest (e : VEntry) (t : EType) (intSrc : Bool) (r : Val × FFlags) : Nat × FFlags :=
  let q := toType t intSrc e.sat e.rm r.1
  (q.1, r.2.or q.2)

/-- An element-wise instruction: f gives each active element's bits and flags from the state before. -/
def vecMap (e : VEntry) (k : MReg) (d : VReg) (maj : BitVec 6) (f : Nat → Nat × FFlags) (s : State) : Res :=
  let c := s.myCtx
  .done (s.writeResults d (c.regWidth d) maj ((c.actives e k).map (fun i => (i, f i))))

end Sys2Proof.Machine
end

