-- ==== Sys2Proof/Machine/VArith.lean ====
section
/-! DEFINITION. VARITH and VCONV (06_vector R125–R128, R132, R133; 07_matrix R160 VHAD). -/

namespace Sys2Proof.Machine

/-- A binary value minor (R125): f of the exact values, float-sourced or integer-sourced, to vd's type. -/
def vecBinary (f : Bool → RMode → Val → Val → Val × FFlags) (xs : BitVec 1) (k : MReg) (d a : VReg) (b : BitVec 5)
    (e : VEntry) (s : State) : Res :=
  let c := s.myCtx
  let y := src2 e xs b
  vChecked (vecCheck c e ([tagType (c.tag d), tagType (c.tag a)] ++ c.src2Codes y) [k]
    ([c.span d, c.span a] ++ c.src2Spans y)) s <|
  let int := c.intReg a && c.src2Int a y
  vecMap e k d 0x30 (fun i =>
    let p := c.srcVal e a i
    let q := c.src2Val e a y i
    let r := f int e.rm p.1 q.1
    e.toDest (c.regType d) int (r.1, (p.2.or q.2).or r.2)) s

/-- VADD (R125). -/
def effVadd (xs : BitVec 1) (k : MReg) (d a : VReg) (b : BitVec 5) (e : VEntry) (s : State) : Res :=
  vecBinary (fun _ r x y => x.add r y) xs k d a b e s
/-- VSUB (R125). -/
def effVsub (xs : BitVec 1) (k : MReg) (d a : VReg) (b : BitVec 5) (e : VEntry) (s : State) : Res :=
  vecBinary (fun _ r x y => x.add r y.negate) xs k d a b e s
/-- VMUL (R125). -/
def effVmul (xs : BitVec 1) (k : MReg) (d a : VReg) (b : BitVec 5) (e : VEntry) (s : State) : Res :=
  vecBinary (fun _ _ x y => x.mul y) xs k d a b e s
/-- VDIV (R125). -/
def effVdiv (xs : BitVec 1) (k : MReg) (d a : VReg) (b : BitVec 5) (e : VEntry) (s : State) : Res :=
  vecBinary (fun int _ x y => if int then (x.intDiv y, .none) else x.div y) xs k d a b e s
/-- VMIN (R125). -/
def effVmin (xs : BitVec 1) (k : MReg) (d a : VReg) (b : BitVec 5) (e : VEntry) (s : State) : Res :=
  vecBinary (fun _ _ x y => Val.pick false x y) xs k d a b e s
/-- VMAX (R125). -/
def effVmax (xs : BitVec 1) (k : MReg) (d a : VReg) (b : BitVec 5) (e : VEntry) (s : State) : Res :=
  vecBinary (fun _ _ x y => Val.pick true x y) xs k d a b e s

/-- A fused multiply-add (R125): the old value of vd is a third source. -/
def vecFused (sub : Bool) (xs : BitVec 1) (k : MReg) (d a : VReg) (b : BitVec 5) (e : VEntry) (s : State) : Res :=
  let c := s.myCtx
  let y := src2 e xs b
  vChecked (vecCheck c e ([tagType (c.tag d), tagType (c.tag a)] ++ c.src2Codes y) [k]
    ([c.span d, c.span a] ++ c.src2Spans y)) s <|
  let int := c.intReg a && c.src2Int a y && c.intReg d
  vecMap e k d 0x30 (fun i =>
    let p := c.srcVal e a i
    let q := c.src2Val e a y i
    let z := c.srcVal e d i
    let r := Val.fma e.rm p.1 q.1 (if sub then z.1.negate else z.1)
    e.toDest (c.regType d) int (r.1, ((p.2.or q.2).or z.2).or r.2)) s

/-- VFMA (R125). -/
def effVfma (xs : BitVec 1) (k : MReg) (d a : VReg) (b : BitVec 5) (e : VEntry) (s : State) : Res :=
  vecFused false xs k d a b e s
/-- VFMS (R125). -/
def effVfms (xs : BitVec 1) (k : MReg) (d a : VReg) (b : BitVec 5) (e : VEntry) (s : State) : Res :=
  vecFused true xs k d a b e s

/-- A bit minor (R126): f of the width of va's type and the stored bits; the result is zero-extended or cut. -/
def vecBits (f : Nat → Nat → Nat → Nat) (xs : BitVec 1) (k : MReg) (d a : VReg) (b : BitVec 5) (e : VEntry)
    (s : State) : Res :=
  let c := s.myCtx
  let y := src2 e xs b
  vChecked (vecCheck c e [] [k] ([c.span d, c.span a] ++ c.src2Spans y)) s <|
  let w := c.regWidth a
  vecMap e k d 0x30 (fun i =>
    (f w (c.src e a w i) (c.src2Bits e a y i % 2 ^ w) % 2 ^ w % 2 ^ c.regWidth d, .none)) s

/-- The shift amount (R126): the unsigned value of vb's element bits modulo W; with W = 1 it is 0. -/
def vecShift (w y : Nat) : Nat := y % w

/-- VAND (R126). -/
def effVand (xs : BitVec 1) (k : MReg) (d a : VReg) (b : BitVec 5) (e : VEntry) (s : State) : Res :=
  vecBits (fun _ x y => x &&& y) xs k d a b e s
/-- VOR (R126). -/
def effVor (xs : BitVec 1) (k : MReg) (d a : VReg) (b : BitVec 5) (e : VEntry) (s : State) : Res :=
  vecBits (fun _ x y => x ||| y) xs k d a b e s
/-- VXOR (R126). -/
def effVxor (xs : BitVec 1) (k : MReg) (d a : VReg) (b : BitVec 5) (e : VEntry) (s : State) : Res :=
  vecBits (fun _ x y => x ^^^ y) xs k d a b e s

/-- A shift minor (R126): the amount is taken from all bits of vb's element. -/
def vecShiftOp (f : Nat → Nat → Nat → Nat) (xs : BitVec 1) (k : MReg) (d a : VReg) (b : BitVec 5) (e : VEntry)
    (s : State) : Res :=
  let c := s.myCtx
  let y := src2 e xs b
  vChecked (vecCheck c e [] [k] ([c.span d, c.span a] ++ c.src2Spans y)) s <|
  let w := c.regWidth a
  vecMap e k d 0x30 (fun i =>
    (f w (c.src e a w i) (vecShift w (c.src2Bits e a y i)) % 2 ^ w % 2 ^ c.regWidth d, .none)) s

/-- VSLL (R126). -/
def effVsll (xs : BitVec 1) (k : MReg) (d a : VReg) (b : BitVec 5) (e : VEntry) (s : State) : Res :=
  vecShiftOp (fun _ x n => x * 2 ^ n) xs k d a b e s
/-- VSRL (R126). -/
def effVsrl (xs : BitVec 1) (k : MReg) (d a : VReg) (b : BitVec 5) (e : VEntry) (s : State) : Res :=
  vecShiftOp (fun _ x n => x / 2 ^ n) xs k d a b e s
/-- VSRA (R126): copies of x[W − 1] come in. -/
def effVsra (xs : BitVec 1) (k : MReg) (d a : VReg) (b : BitVec 5) (e : VEntry) (s : State) : Res :=
  vecShiftOp (fun w x n => x / 2 ^ n + (if x / 2 ^ (w - 1) % 2 = 1 then 2 ^ w - 2 ^ (w - n) else 0)) xs k d a b e s

/-- A unary value minor (R127, R132). -/
def vecUnary (maj : BitVec 6) (intKeeps : Bool) (g : Val → Val × FFlags) (k : MReg) (d a : VReg) (e : VEntry)
    (s : State) : Res :=
  let c := s.myCtx
  vChecked (vecCheck c e [tagType (c.tag d), tagType (c.tag a)] [k] [c.span d, c.span a]) s <|
  let int := intKeeps && c.intReg a
  vecMap e k d maj (fun i =>
    let p := c.srcVal e a i
    let r := g p.1
    e.toDest (c.regType d) int (r.1, p.2.or r.2)) s

/-- |x|; NaN gives the canonical NaN (R127). -/
def valAbs (x : Val) : Val × FFlags :=
  match x with
  | .nan s => (.nan false, { iv := s })
  | .inf _ => (.inf false, .none)
  | .fin _ n d => (.fin false n d, .none)
/-- −x; NaN gives the canonical NaN (R127). -/
def valNeg (x : Val) : Val × FFlags :=
  match x with
  | .nan s => (.nan false, { iv := s })
  | x => (x.negate, .none)
/-- x itself, which ToType converts (R132). -/
def valSame (x : Val) : Val × FFlags := (x, .none)

/-- VABS (R127). -/
def effVabs (k : MReg) (d a : VReg) (e : VEntry) (s : State) : Res := vecUnary 0x30 true valAbs k d a e s
/-- VNEG (R127). -/
def effVneg (k : MReg) (d a : VReg) (e : VEntry) (s : State) : Res := vecUnary 0x30 true valNeg k d a e s
/-- VSQRT (R127). -/
def effVsqrt (k : MReg) (d a : VReg) (e : VEntry) (s : State) : Res := vecUnary 0x30 false valSqrt k d a e s
/-- VRCP (R127). -/
def effVrcp (k : MReg) (d a : VReg) (e : VEntry) (s : State) : Res := vecUnary 0x30 false valRcp k d a e s
/-- VRSQ (R127). -/
def effVrsq (k : MReg) (d a : VReg) (e : VEntry) (s : State) : Res := vecUnary 0x30 false valRsq k d a e s
/-- VEXP2 (R127). -/
def effVexp2 (k : MReg) (d a : VReg) (e : VEntry) (s : State) : Res := vecUnary 0x30 false valExp2 k d a e s
/-- VLOG2 (R127). -/
def effVlog2 (k : MReg) (d a : VReg) (e : VEntry) (s : State) : Res := vecUnary 0x30 false valLog2 k d a e s
/-- VTANH (R127). -/
def effVtanh (k : MReg) (d a : VReg) (e : VEntry) (s : State) : Res := vecUnary 0x30 false valTanh k d a e s
/-- VSIGM (R127). -/
def effVsigm (k : MReg) (d a : VReg) (e : VEntry) (s : State) : Res := vecUnary 0x30 false valSigm k d a e s
/-- VCVT (R132). -/
def effVcvt (k : MReg) (d a : VReg) (e : VEntry) (s : State) : Res := vecUnary 0x32 true valSame k d a e s

/-- VMOV (R128): vd takes va's tag, and the stored bits of the active elements. -/
def effVmov (k : MReg) (d a : VReg) (e : VEntry) (s : State) : Res :=
  let c := s.myCtx
  vChecked (vecCheck c e [] [k] [c.spanAs d a, c.span a]) s <|
  let w := c.regWidth a
  .done (s.withMyCtx ((c.setTag d (c.tag a)).setElems d w ((c.actives e k).map (fun i => (i, c.src e a w i)))))

/-- VQNT (R133): the exact quotient by the scale of the destination, rounded once, saturating. -/
def effVqnt (k : MReg) (d a : VReg) (e : VEntry) (s : State) : Res :=
  let c := s.myCtx
  vChecked (vecCheck c e [tagType (c.tag d), tagType (c.tag a)] [k] [c.span d, c.span a]) s <|
  vecMap e k d 0x32 (fun i =>
    let p := c.srcVal e a i
    let r := if tagScaled (c.tag d) then p.1.div (c.scaleOf (c.tag d) i) else (p.1, .none)
    let q := toType (c.regType d) false true e.rm r.1
    (q.1, (p.2.or r.2).or q.2)) s

/-- A butterfly of a stage on the element j (04_numbers R84): the values of the stage before. -/
def hadElem (r : RMode) (x : List (Val × FFlags)) (t j : Nat) : Val × FFlags :=
  let at_ := fun n => (x.getD n (Val.zero, .none)).1
  let q :=
    if j / 2 ^ t % 2 = 0 then (at_ j).add r (at_ (j + 2 ^ t))
    else (at_ (j - 2 ^ t)).add r (at_ j).negate
  let p := roundF32 r q.1
  (p.1, q.2.or p.2)

/-- The stages of a Hadamard transform (R84), with the flags of every rounding. -/
def hadStages (r : RMode) (n : Nat) : Nat → Nat → List (Val × FFlags) → FFlags → List (Val × FFlags) × FFlags
  | 0, _, x, f => (x, f)
  | fuel + 1, t, x, f =>
    let y := (List.range n).map (hadElem r x t)
    hadStages r n fuel (t + 1) y (f.or (orFlags (y.map (·.2))))

/-- The Hadamard transform of a block of 2^p values (R84). Every rounding raises its flags, also in the last stage and by
the final factor at positions at or beyond VL (notes/assumptions/85). -/
def hadBlock (r : RMode) (p : Nat) (x : List Val) : List Val × FFlags :=
  let st := hadStages r (2 ^ p) p 0 (x.map (fun v => (v, FFlags.none))) .none
  let y := st.1.map (fun v =>
    let q := v.1.mul (.fin false 1 (2 ^ ((p + 1) / 2)))
    let z := roundF32 r q.1
    (z.1, q.2.or z.2))
  (y.map (·.1), st.2.or (orFlags (y.map (·.2))))

/-- VHAD (07_matrix R160): each block of n elements through the transform; elements at or beyond VL enter as +0 and are
not written. -/
def effVhad (d a : VReg) (b : BitVec 5) (e : VEntry) (s : State) : Res :=
  let c := s.myCtx
  vChecked (vecCheck c e [tagType (c.tag a), tagType (c.tag d)] [] [c.span d, c.span a]) s <|
  let p := b.toNat + 4
  let n := 2 ^ p
  let blocks := (List.range (ceilDiv e.vl n)).map (fun j =>
    let x := (List.range n).map (fun q =>
      if j * n + q < e.vl then
        let v := c.srcVal e a (j * n + q)
        let z := roundF32 e.rm v.1
        (z.1, v.2.or z.2)
      else (Val.zero, FFlags.none))
    let y := hadBlock e.rm p (x.map (·.1))
    let out := (List.range n).filterMap (fun q =>
      if j * n + q < e.vl then
        some (j * n + q, toType (c.regType d) false e.sat e.rm (y.1.getD q Val.zero))
      else none)
    (out, (orFlags (x.map (·.2))).or y.2))
  let rs := blocks.flatMap (·.1)
  .done ((s.writeResults d (c.regWidth d) 0x32 rs).raise 0x32 (orFlags (blocks.map (·.2))))

end Sys2Proof.Machine
end

