-- ==== Sys2Proof/Machine/Streams.lean ====
section
/-! DEFINITION. Streams: descriptors, binding, strips and refills (10_copies R247–R249). -/

namespace Sys2Proof.Machine

/-- A doubleword of a descriptor. -/
def dword (d : List Word) (n : Nat) : Word := d.getD n 0
/-- BASE of a stream. -/
def strBase (d : List Word) : Word := dword d 0
/-- STYPE. -/
def strType (d : List Word) : Nat := bits (dword d 1) 0 6
/-- The number of dimensions. -/
def strDims (d : List Word) : Nat := bits (dword d 1) 6 2 + 1
/-- C of a dimension; 1 for an unused one. -/
def strCount (d : List Word) (i : Nat) : Nat := if i < strDims d then bits (dword d 2) (16 * i) 16 else 1
/-- STRIDE of a dimension from 1. -/
def strStride (d : List Word) (i : Nat) : Word := dword d (2 + i)
/-- The operator steps: OP and ARG. -/
def strSteps (d : List Word) : List (Nat × Nat) :=
  (List.range (bits (dword d 1) 8 3)).map (fun k => (bits (dword d 6) (16 * k + 12) 4, bits (dword d 6) (16 * k) 12))
/-- N. -/
def strLen (d : List Word) : Nat := ((List.range (strDims d)).map (strCount d)).foldl (· * ·) 1

/-- The type code of the stream's output (R248). -/
def strOut (d : List Word) : Nat :=
  match (strSteps d).getLast? with
  | some (4, arg) => arg % 64
  | some _ => 26
  | none => strType d

/-- Whether a step is malformed in its place (R247). -/
def badStep (c : Ctx) (d : List Word) (k n : Nat) (st : Nat × Nat) : Bool :=
  match st.1 with
  | 1 => decide (k ≠ 0) || (etype c.nfDef (st.2 % 64)).isNone || decide (c.widthOf (st.2 % 64) ≠ c.widthOf (strType d))
  | 2 => decide (st.2 % 4 = 3)
  | 3 => false
  | 4 => decide (k + 1 ≠ n) || (etype c.nfDef (st.2 % 64)).isNone
  | _ => true

/-- Whether a descriptor is malformed (R247). -/
def strMalformed (c : Ctx) (d : List Word) : Bool :=
  let n := bits (dword d 1) 8 3
  decide (2 ^ 57 ≤ (dword d 0).toNat) || decide (bits (dword d 1) 11 53 ≠ 0) || decide (4 < n) || decide (dword d 7 ≠ 0)
    || (etype c.nfDef (strType d)).isNone
    || (List.range 4).any (fun i =>
        if i < strDims d then decide (bits (dword d 2) (16 * i) 16 = 0) else decide (bits (dword d 2) (16 * i) 16 ≠ 0))
    || ((List.range n).zip (strSteps d)).any (fun p => badStep c d p.1 n p.2)

/-- The address and bit of element e (R248): dimension 0 fastest. -/
def strAddr (d : List Word) (w e : Nat) : Nat × Nat :=
  let c0 := strCount d 0
  let c1 := strCount d 1
  let c2 := strCount d 2
  let i0 := e % c0
  let i1 := e / c0 % c1
  let i2 := e / (c0 * c1) % c2
  let i3 := e / (c0 * c1 * c2)
  ((strBase d + BitVec.ofNat 64 (i0 * w / 8) + BitVec.ofNat 64 i1 * strStride d 1 + BitVec.ofNat 64 i2 * strStride d 2
    + BitVec.ofNat 64 i3 * strStride d 3).toNat, i0 * w % 8)

/-- The stored bits of element e, read with the checks of R134. -/
def State.strBits (s : State) (w : Who) (d : List Word) (e : Nat) : MemRes Nat :=
  let c := s.ctx w.ref.cid
  let width := c.widthOf (strType d)
  let a := strAddr d width e
  (s.load w a.1 (ceilDiv width 8)).bind (fun bs => .ok (natOfBytes bs / 2 ^ a.2 % 2 ^ width))

/-- A list of readings, in order. -/
def MemRes.all {α : Type} : List (MemRes α) → MemRes (List α)
  | [] => .ok []
  | m :: r => m.bind (fun x => (MemRes.all r).bind (fun xs => .ok (x :: xs)))

/-- The scale of a step: entry e >> (blk + 1) of a bank (R247). -/
def strScale (c : Ctx) (bank blk e : Nat) : Val :=
  scaleVal (decide (sget 0 c.scaleMode bank = 1)) (sget 0 c.scale (bank * 512 + e / 2 ^ (blk + 1) % c.scaleEntries))

/-- The value of element e after the steps, given last first (R247). -/
def State.strVal (s : State) (w : Who) (d : List Word) : List (Nat × Nat) → Nat → MemRes Val
  | [], e => (s.strBits w d e).bind (fun x => .ok (((s.ctx w.ref.cid).typeOf (strType d)).decode x))
  | (op, arg) :: rest, e =>
    let c := s.ctx w.ref.cid
    match op with
    | 1 => (s.strBits w d e).bind (fun x =>
        .ok (scaledElem ((c.typeOf (arg % 64)).decode x) (strScale c (arg / 64 % 4) (arg / 256 % 8) e)).1)
    | 2 =>
      let p := arg % 4 + 4
      let b := e / 2 ^ p * 2 ^ p
      (MemRes.all ((List.range (2 ^ p)).map (fun q =>
        if b + q < strLen d then (s.strVal w d rest (b + q)).bind (fun v => .ok (roundF32 .rne v).1)
        else .ok Val.zero))).bind (fun xs => .ok ((hadBlock .rne p xs).1.getD (e - b) Val.zero))
    | 3 => (s.strVal w d rest e).bind (fun v =>
        .ok (roundF32 .rne (v.mul (strScale c (arg % 4) (arg / 4 % 8) e)).1).1)
    | _ => s.strVal w d rest e

/-- The output bits of element e (R247, R248). -/
def State.strElem (s : State) (w : Who) (d : List Word) (e : Nat) : MemRes Nat :=
  match strSteps d with
  | [] => s.strBits w d e
  | st => (s.strVal w d st.reverse e).bind (fun v =>
      .ok (toType ((s.ctx w.ref.cid).typeOf (strOut d)) false false .rne v).1)

/-- The narrow formats whose values a stream uses (03_encoding R58). -/
def strFmts (d : List Word) : List Nat :=
  match strSteps d with
  | [] => []
  | (1, arg) :: r => (arg % 64) :: (r.filter (fun x => decide (x.1 = 4))).map (fun x => x.2 % 64)
  | r => strType d :: (r.filter (fun x => decide (x.1 = 4))).map (fun x => x.2 % 64)

/-- A read of an element for a position of a strip; a fault names the position. -/
def State.stripElem (s : State) (w : Who) (d : List Word) (k i : Nat) : MemRes Nat :=
  match s.strElem w d (k + i) with
  | .trap t => .trap { t with elem := i }
  | r => r

/-- The strip of n positions at k: what is buffered, then what is read now; past the end positions hold the fill
(R249). -/
def State.strip (s : State) (w : Who) (st : Stream) (fill n : Nat) : MemRes (List Nat) :=
  let buf := st.strips.flatten
  MemRes.all ((List.range n).map (fun i =>
    if strLen st.desc ≤ st.pos + i then .ok fill
    else match buf[i]? with
      | some x => .ok x.word.toNat
      | none => s.stripElem w st.desc st.pos i))

/-- A stream after the pop of n positions. -/
def Stream.popped (st : Stream) (n : Nat) : Stream :=
  { st with pos := st.pos + n, strips := let r := (st.strips.flatten).drop n; if r = [] then [] else [r] }

/-- A pop undone: the buffers are fetched again (R249). -/
def Stream.unpopped (st : Stream) (n : Nat) : Stream := { st with pos := st.pos - n, strips := [] }

/-- Whether a bound register uses a format that is ill-formed (03_encoding R58). -/
def streamsIllFormed (c : Ctx) (rs : List VReg) : Bool :=
  rs.any (fun r =>
    match tget c.streams r.toNat with
    | some st => (strFmts st.desc).any (fun x => decide (x < 8) && nfIllFormed (c.nfDef x))
    | none => false)

/-- The elements of a stream that the making of element e reads: under a Hadamard step those of its block (R247). -/
def strReads (d : List Word) (e : Nat) : List Nat :=
  let p := ((strSteps d).map (fun st => if st.1 = 2 then st.2 % 4 + 4 else 0)).foldl max 0
  ((List.range (2 ^ p)).map (fun i => e / 2 ^ p * 2 ^ p + i)).filter (fun i => decide (i < strLen d))

/-- The first position of a strip at which a pure task reads what it may not (17_reuse R395), with the detail and the
address. -/
def State.stripViolation (s : State) (p : PureState) (st : Stream) (n : Nat) : Option (Nat × Nat × Nat) :=
  let w := s.who s.cur
  let width := s.myCtx.widthOf (strType st.desc)
  (List.range n).findSome? (fun i =>
    (strReads st.desc (st.pos + i)).findSome? (fun e =>
      if strLen st.desc ≤ st.pos + i then none
      else
        let a := (strAddr st.desc width e).1
        (s.accessDetail w p false a (ceilDiv width 8)).map (fun d => (i, d, a))))

/-- The first violation among the strips of an entry, unless a fault of an earlier position comes before it (17_reuse
R395). -/
def State.popViolation (s : State) (p : PureState) (e : VEntry) : List VReg → Option (Nat × Nat × Nat)
  | [] => none
  | r :: rest =>
    match tget s.myCtx.streams r.toNat with
    | none => s.popViolation p e rest
    | some st =>
      let found := s.stripViolation p st e.vl
      match s.strip (s.who s.cur) st 0 ((found.map (·.1)).getD e.vl) with
      | .ok _ => (match found with | some x => some x | none => s.popViolation p e rest)
      | _ => none

/-- The reads of the bound streams of an entry are checked in a pure task (17_reuse R395). -/
def pureStreams (rs : List VReg) (e : VEntry) (k : State → Res) (s : State) : Res :=
  match s.me.checkedBy with
  | none => k s
  | some p =>
    match s.popViolation p e rs with
    | none => k s
    | some x => violationAt x.1 x.2.1 (BitVec.ofNat 64 x.2.2) s p k

/-- The pop of a bound register by an entry (R249): the strip fills positions 0 to VL − 1. -/
def popOne (r : VReg) (e : VEntry) (s : State) : MemRes State :=
  let c := s.myCtx
  match tget c.streams r.toNat with
  | none => .ok s
  | some st =>
    let w := c.regWidth r
    (s.strip (s.who s.cur) st (c.fill w) e.vl).bind (fun xs =>
      .ok (s.withMyCtx { c.setElems r w ((List.range e.vl).zip xs) with
                         streams := tput c.streams r.toNat (st.popped e.vl) }))

/-- The pops of an entry, one a register (R249). -/
def popAll (e : VEntry) : List VReg → State → MemRes State
  | [], s => .ok s
  | r :: rest, s => (popOne r e s).bind (popAll e rest)

/-- The pops of an entry undone. -/
def unpopAll (e : VEntry) (rs : List VReg) (s : State) : State :=
  let c := s.myCtx
  s.withMyCtx { c with
    streams := c.streams.map (fun x => if rs.any (fun r => decide (r.toNat = x.1)) then (x.1, x.2.unpopped e.vl) else x)
    viq := modifyAt c.viq 0 (fun x => { x with popped := false }) }

/-- The binding of a register to a stream (R248): the descriptor is read, on a SYNC page at a multiple of 8
(notes/assumptions/107), and checked; the tag is the output type. -/
def bindStream (d : VReg) (a : Nat) (ill : Nat → Trap) (k : State → Res) (s : State) : Res :=
  (s.loadFor (s.who s.cur) 1 .read loadKinds 8 a 64).elim s (fun bs =>
    let c := s.myCtx
    let desc := wordsOfBytes 8 bs
    if strMalformed c desc then .trap (ill 5) s
    else if 4 ≤ c.streams.length ∧ (tget c.streams d.toNat).isNone then .trap (ill 8) s
    else
      let c1 := c.setTag d (BitVec.ofNat 12 (strOut desc))
      k (s.withMyCtx { c1 with streams := tput c.streams d.toNat { desc := desc, pos := 0, strips := [] } }))

/-- A register unbound (R248). -/
def Ctx.unbind (c : Ctx) (d : VReg) : Ctx := { c with streams := tdel c.streams d.toNat }

/-- SBIND on the compute hart, in its place in the queue (R248). -/
def effSbind (d : VReg) (e : VEntry) (s : State) : Res :=
  impureOnly 7 (fun s => bindStream d (e.op 0).toNat e.illegal (fun s => .done s) s) s

/-- SFREE on the compute hart (R248). -/
def effSfree (d : VReg) (_ : VEntry) (s : State) : Res := .done (s.withMyCtx (s.myCtx.unbind d))

/-- An element that a refill has read, as it is buffered. -/
def State.buffered (s : State) (w : Who) (d : List Word) (e x : Nat) : Buffered :=
  let width := (s.ctx w.ref.cid).widthOf (strType d)
  let reads := (strReads d e).map (fun i => ((strAddr d width i).1, ceilDiv width 8))
  { word := BitVec.ofNat 64 x, reads := reads, keys := reads.flatMap (fun r => s.rangeKeys w false r.1 r.2) }

/-- STREAM_REFILL (R249): the stream engine reads the next strip of the register b of the context a into a buffer, at
most two ahead, while the context issues: buffers are discarded at pre-emption, and fetched again once it has resumed. A
strip that fails a check is not kept; one that is kept stays as it was decoded, whatever FMTSET writes later
(notes/assumptions/119). -/
def execStreamRefill (s : State) : Host.Outcome State Fault Refusal :=
  let cid := s.evArg.a
  let c := s.ctx cid
  match tget c.streams s.evArg.b with
  | none => .next s
  | some st =>
    if 2 ≤ st.strips.length ∨ c.slotState ≠ .issuing then .next s
    else
      let from_ := st.pos + st.strips.flatten.length
      let n := min c.vl (strLen st.desc - from_)
      let w := s.who { cid := cid, kind := .ch }
      match MemRes.all ((List.range n).map (fun i => s.strElem w st.desc (from_ + i))) with
      | .ok xs =>
        if xs = [] then .next s
        else
          let strip := ((List.range n).zip xs).map (fun p => s.buffered w st.desc (from_ + p.1) p.2)
          let st1 := { st with strips := st.strips ++ [strip] }
          .next (s.withCtx cid { c with streams := tput c.streams s.evArg.b st1 })
      | _ => .next s

end Sys2Proof.Machine
end

