-- ==== Sys2Proof/Machine/Turn.lean ====
section
/-! DEFINITION. TURN and TWAIT (09_page R211–R223). -/

namespace Sys2Proof.Machine

/-- The range check of TURN and TWAIT (R218, R223): a region that is too long, or that ends past 2^57. -/
def regionFault (a n : Nat) : Option Trap :=
  if 2 ^ 40 ≤ n ∨ 2 ^ 57 < a + n then some (pageFault 0 2 a) else none

/-- One granule copy in a TURN (R218): the state and the foreign count after it. -/
def turnCopy (core : Nat) (L : Level) (p : State × Nat) (key : Nat) : State × Nat :=
  match tget p.1.gran key with
  | none => p
  | some g =>
    if g.writer ≠ core then (p.1, p.2 + 1)
    else if g.level.rank < L.rank then
      ({ p.1 with gran := if L = .host then tdel p.1.gran key else tput p.1.gran key { g with level := L } }, p.2)
    else p

/-- The keys of the device-held copies of the granule at g: none on an unmapped page, on a SYNC page or in the local
window region (R218). -/
def State.turnKeys (s : State) (w : Who) (g : Nat) : List Nat :=
  if touchesWindows g 64 then []
  else
    match s.translate w.core w.tenant .nothing g with
    | none => []
    | some pl => if pl.kind.governed then pl.copies.map (granKey pl.kind) else []

/-- The walk of a TURN over n granules from g (R218, R221): it stops at a multiple of 4,096 above lo once the
interruption has arrived. The answer is the state, the foreign count, and the address of a stop. -/
def turnWalk (w : Who) (L : Level) (lo : Nat) (intr : Option Nat) : Nat → Nat → State × Nat → State × Nat × Option Nat
  | 0, _, p => (p.1, p.2, none)
  | k + 1, g, p =>
    if lo < g ∧ g % 4096 = 0 ∧ intr.any (fun x => decide (x ≤ g - lo)) then (p.1, p.2, some g)
    else turnWalk w L lo intr k (g + 64) ((p.1.turnKeys w g).foldl (turnCopy w.core L) p)

/-- The status word of a TURN (R218). -/
def turnStatus (incomplete : Bool) (f done : Nat) : Word :=
  BitVec.ofNat 64 ((if incomplete then 2 ^ 63 else 0) + min f 0xFFFF * 2 ^ 40 + done)

/-- Whether what some cores have written of [a, a + n) cannot be raised yet: a governed page of it is MIGRATING (R204, R222), or
multicasts of one of the cores are under way to its stacks, which a raise does not pass (18_link R423). -/
def State.raiseWaits (s : State) (cores : List Nat) (w : Who) (a n : Nat) : Bool :=
  (pagePieces a n).any (fun p =>
    match s.translate w.core w.tenant .nothing p.1 with
    | some pl => pl.kind.governed && pl.copies.any (fun pa =>
        s.migrating pl.kind pa || cores.any (fun c => s.behind c pl.kind pa p.2))
    | none => false)

/-- Whether a TURN of a region waits. -/
def State.turnStalls (s : State) (w : Who) (a n : Nat) : Bool := s.raiseWaits [w.core] w a n

/-- Whether what reads, raises and writes [a, a + n) for some cores waits: a page of it, of any kind, is MIGRATING (R204), or
multicasts of one of the cores are under way to its stacks (18_link R423). -/
def State.rangeWaits (s : State) (cores : List Nat) (w : Who) (a n : Nat) : Bool :=
  (pagePieces a n).any (fun p =>
    match s.translate w.core w.tenant .nothing p.1 with
    | some pl => pl.copies.any (fun pa => s.migrating pl.kind pa || cores.any (fun c => s.behind c pl.kind pa p.2))
    | none => false)

/-- TURN (R218–R221). -/
def execTurn (lvl : BitVec 3) (d a b : SReg) (s : State) : Host.Outcome State Fault Refusal :=
  scalar [a, b] [d] (fun s =>
    let x := (s.readS a).toNat
    let n := (s.readS b).toNat
    if n = 0 then .done (s.retire 4 d 0)
    else
      match regionFault x n with
      | some t => .trap t s
      | none =>
        afterWrites (afterViq (fun s =>
          let w := s.who s.cur
          let L := levelOfCode lvl.toNat
          let lo := alignDown x 64
          let hi := alignUp (x + n) 64
          if s.turnStalls w lo (hi - lo) then .wait false s
          else
            let r := turnWalk w L lo s.turnIntr ((hi - lo) / 64) lo (s, 0)
            let stop := r.2.2.getD hi
            let s1 := r.1.dropStrips (L.reaches w.core) (s.rangeKeys w true lo (stop - lo))
            match r.2.2 with
            | some g => .done ({ s1 with turnIntr := none }.retire 4 d (turnStatus true r.2.1 (g - x)))
            | none => .done (s1.retire 4 d (turnStatus false r.2.1 n)))) s) s

/-- The faults of TWAIT (R223), in ascending address: a window miss, or a translation that a load would lack. -/
def State.twaitFault (s : State) (w : Who) (a n : Nat) : Option Trap :=
  (pagePieces a n).findSome? (fun p =>
    if touchesWindows p.1 p.2 then
      let c := s.ctx w.ref.cid
      match c.windowOf p.1 with
      | some (i, off) =>
        if off + p.2 ≤ (if i then c.isBytes else c.osBytes) then none else some (pageFault 1 3 (windowMiss c p.1))
      | none => some (pageFault 1 3 p.1)
    else if (s.translate w.core w.tenant .read p.1).isNone then some (s.noPlace w 1 p.1)
    else none)

/-- The granules of the widened region whose read check fails for the hart (R223): of a REPL page the local replica. -/
def State.unready (s : State) (w : Who) (a n : Nat) : Nat :=
  let lo := alignDown a 64
  ((List.range ((alignUp (a + n) 64 - lo) / 64)).filter (fun i =>
    let g := lo + 64 * i
    !touchesWindows g 64 &&
      (match s.translate w.core w.tenant .read g with
      | some pl => pl.kind.governed && (s.readCheck w.core (granKey pl.kind pl.pa)).isSome
      | none => false))).length

/-- Whether the checks of a TWAIT wait for multicasts of its core to the stacks of its region: the hart's own earlier writes are
among them (11_ordering R254, R260; 18_link R423). -/
def State.unreadyBehind (s : State) (w : Who) (a n : Nat) : Bool :=
  let lo := alignDown a 64
  (pagePieces lo (alignUp (a + n) 64 - lo)).any (fun p =>
    !touchesWindows p.1 p.2 &&
      (match s.translate w.core w.tenant .read p.1 with
      | some pl => s.behind w.core pl.kind pl.pa p.2
      | none => false))

/-- TWAIT (R223): its checks are reads, which on the compute hart come after the earlier VIQ entries that access memory or
a window (11_ordering R252, R254). -/
def execTwait (d a b : SReg) (timeout : BitVec 32) (s : State) : Host.Outcome State Fault Refusal :=
  scalar [a, b] [d] (fun s =>
    let x := (s.readS a).toNat
    let n := (s.readS b).toNat
    if n = 0 then .done (s.retire 8 d 0)
    else
      match regionFault x n with
      | some t => .trap t s
      | none =>
        afterViq (fun s =>
          let w := s.who s.cur
          match (if s.me.twait.isSome then none else s.twaitFault w x n) with
          | some t => .trap t s
          | none =>
            if s.unreadyBehind w x n then .wait false s else
            let u := s.unready w x n
            if u = 0 ∨ timeout = 0 then .done ((s.withMe { s.me with twait := none }).retire 8 d (BitVec.ofNat 64 u))
            else
              let since := (s.me.twait.map (·.since)).getD s.hb
              .wait true (s.withMe { s.me with
                twait := some { d := d, start := x, len := n, timeout := timeout.toNat, since := since } })) s) s

/-- Whether TIMEOUT cycles of a TWAIT can have passed, at 64 cycles a heartbeat (R223; 02_machine R34). -/
def State.twaitDue (s : State) (t : TWait) : Bool := decide (t.timeout ≤ 64 * (s.hb - t.since).toNat + 63)

/-- TWAIT_TIMEOUT (R223): the TIMEOUT of the TWAIT that the hart h of the context a waits in has passed; it ends with the
number of granules that are not readable yet. -/
def execTwaitTimeout (s : State) : Host.Outcome State Fault Refusal :=
  let r : HartRef := { cid := s.evArg.a, kind := s.evArg.h }
  let h := s.hart r
  match h.twait with
  | none => .next s
  | some t =>
    let u := s.unready (s.who r) t.start t.len
    if !s.twaitDue t ∨ s.unreadyBehind (s.who r) t.start t.len then .next s
    else .next (s.withHart r { (h.writeS t.d (BitVec.ofNat 64 u)) with twait := none, pc := h.pc + 8, yielding := false })

end Sys2Proof.Machine
end

