-- ==== Sys2Proof/Machine/Barriers.lean ====
section
/-! DEFINITION. Barriers and collectives: the BAR major, posts, phases, the collective of a phase (16_barrier
R362–R375; 11_ordering R267). -/

namespace Sys2Proof.Machine

/-- A barrier: of a quadrant unit, or of a die unit, by its place. -/
inductive BarRef where
  | quad (key : Nat)
  | die (key : Nat)
deriving DecidableEq, Repr

/-- The barrier at a place. -/
def State.barrier (s : State) : BarRef → Barrier
  | .quad k => (tget s.quadBars k).getD Barrier.reset
  | .die k => (tget s.dieBars k).getD Barrier.reset

/-- The state with a barrier changed. -/
def State.withBarrier (s : State) (r : BarRef) (b : Barrier) : State :=
  match r with
  | .quad k => { s with quadBars := tput s.quadBars k b }
  | .die k => { s with dieBars := tput s.dieBars k b }

/-- The barrier that a handle names for a kernel (13_kernel R307): 0x001 + i, or 0x101 + j. -/
def Kernel.barOf (x : Kernel) (h : Word) : Option BarRef :=
  let n := h.toNat
  if 1 ≤ n ∧ n < 1 + x.qbars.length then some (.quad (x.quadUnit * 64 + x.qbars.getD (n - 1) 0))
  else if 257 ≤ n ∧ n < 257 + x.dbars.length then some (.die (x.dieUnit * 32 + x.dbars.getD (n - 257) 0))
  else none

/-- The barrier that a handle names for a kernel by its place, while the kernel has its group (R313, R377). -/
def State.barOf (s : State) (k : Nat) (h : Word) : Option BarRef :=
  match s.kernel k with
  | some x => (x.barOf h).filter (fun r => decide ((s.barrier r).owner = some k))
  | none => none

/-- The arrival record of a hart for a handle (R364). -/
def Hart.arrival (h : Hart) (handle : Nat) : Arrival :=
  (tget h.arrivals handle).getD { arrph := 0, a := false, c := false }

/-- A hart with an arrival record changed. -/
def Hart.withArrival (h : Hart) (handle : Nat) (a : Arrival) : Hart := { h with arrivals := tput h.arrivals handle a }

/-- PEND as a signed number (R362). -/
def Barrier.pending (b : Barrier) : Int := b.pend.toInt

/-- A change of PEND (R368): a signed sum modulo 2^40; OVF when it leaves its range. -/
def Barrier.addPend (b : Barrier) (x : Int) : Barrier :=
  let y := b.pending + x
  { b with pend := BitVec.ofInt 40 y, ovf := b.ovf || decide (y < -(2 ^ 39 : Nat) ∨ (2 ^ 39 : Nat) ≤ y) }

/-- The end of a phase (R363). -/
def Barrier.complete (b : Barrier) : Barrier :=
  { b with phase := b.phase + 1, arrived := 0, open_ := [], running := false }

/-- The test of R363 after a change: a phase with an arrival from a COLL runs its collective first (R373). -/
def Barrier.test (b : Barrier) : Barrier :=
  if b.expect ≤ b.arrived ∧ b.pend = 0 then
    if b.open_.any (fun a => a.coll.isSome) then { b with running := true } else b.complete
  else b

/-- An arrival (R363, R368). -/
def Barrier.arrive (b : Barrier) (a : BarArrival) : Barrier :=
  { b with arrived := min 8191 (b.arrived + 1), open_ := b.open_ ++ [a] }.test

/-- A barrier instruction: the HANDLE check (R366), then what it does. -/
def barOp (a : SReg) (k : BarRef → Barrier → State → Res) (s : State) : Res :=
  match s.barOf s.myCtx.kernel (s.readS a) with
  | none => .trap (object 3 1) s
  | some r => k r (s.barrier r) s

/-- A change to a barrier waits while its collective runs (R373). -/
def whenIdle (b : Barrier) (s : State) (k : Res) : Res := if b.running then .wait false s else k

/-- Whether some hart's C is set for a handle of a kernel (R366). -/
def State.anyC (s : State) (k handle : Nat) : Bool :=
  (s.ctxs.filter (fun e => decide (e.2.kernel = k))).any (fun e =>
    (e.2.ch.arrival handle).c || (e.2.fh.arrival handle).c || (e.2.dh.arrival handle).c)

/-- BARINIT (R367). -/
def execBarinit (a b d : SReg) (s : State) : Host.Outcome State Fault Refusal :=
  scalar [a, b, d] [] (impureOnly 6 (barOp a (fun r x s =>
    let e := (s.readS b).toNat
    if e < 1 ∨ 4095 < e then .trap (object 3 3) s
    else if x.arrived ≠ 0 ∨ s.anyC s.myCtx.kernel (s.readS a).toNat then .trap (object 3 2) s
    else
      .done ((s.withBarrier r { x with expect := e, pend := (s.readS d).setWidth 40, ovf := false }).advance 4)))) s

/-- BARARR (R368): a release (R371). -/
def execBararr (a : SReg) (s : State) : Host.Outcome State Fault Refusal :=
  scalar [a] [] (impureOnly 6 (afterViq (afterWrites (barOp a (fun r x s =>
    whenIdle x s <|
      let h := (s.readS a).toNat
      let rec_ : Arrival := { s.me.arrival h with arrph := x.phase, a := true }
      .done (((s.withMe (s.me.withArrival h rec_)).withBarrier r (x.arrive { ref := s.cur, coll := none })).advance 4)))))) s

/-- BARTX (R368). -/
def execBartx (a b : SReg) (s : State) : Host.Outcome State Fault Refusal :=
  scalar [a, b] [] (impureOnly 6 (barOp a (fun r x s =>
    whenIdle x s (.done ((s.withBarrier r (x.addPend (s.readS b).toInt).test).advance 4))))) s

/-- BARWAIT (R370): an acquire; the phase at issue stands for a hart that has not arrived. -/
def execBarwait (a : SReg) (s : State) : Host.Outcome State Fault Refusal :=
  scalar [a] [] (impureOnly 6 (barOp a (fun _ x s =>
    let h := s.me
    let rec_ := h.arrival (s.readS a).toNat
    let p := if rec_.a then rec_.arrph else h.barwait.getD x.phase
    if x.phase - p ≠ 0 then .done ((s.withMe { h with barwait := none }).advance 4)
    else .wait true (s.withMe { h with barwait := some p })))) s

/-- BARTEST (R370). -/
def execBartest (d a : SReg) (s : State) : Host.Outcome State Fault Refusal :=
  scalar [a] [d] (impureOnly 6 (barOp a (fun _ x s =>
    let rec_ := s.me.arrival (s.readS a).toNat
    let done := rec_.a && decide (x.phase - rec_.arrph ≠ 0)
    .done (s.retire 4 d (BitVec.ofNat 64
      ((if done then 2 ^ 63 else 0) + (if x.ovf then 2 ^ 62 else 0) + x.arrived * 2 ^ 40 + x.pend.toNat)))))) s

/-- OP of a collective descriptor (R372). -/
def colOp (d : List Word) : Nat := bits (d.getD 0 0) 0 4
/-- FAB (R372). -/
def colFab (d : List Word) : Bool := bit (d.getD 0 0) 4
/-- NBUF (R372). -/
def colNbuf (d : List Word) : Nat := bits (d.getD 0 0) 8 3
/-- LEN (R372). -/
def colLen (d : List Word) : Nat := bits (d.getD 1 0) 0 40
/-- A buffer's address (R372). -/
def colBuf (d : List Word) (i : Nat) : Nat := bits (d.getD (2 + i) 0) 0 57

/-- Whether a collective descriptor breaks R372. -/
def colMalformed (d : List Word) : Bool :=
  decide (3 < colOp d) || decide (bits (d.getD 0 0) 5 3 ≠ 0) || decide (bits (d.getD 0 0) 11 53 ≠ 0)
    || decide (4 < colNbuf d) || decide (bits (d.getD 1 0) 40 24 ≠ 0)
    || (List.range 4).any (fun i => decide (bits (d.getD (2 + i) 0) 57 7 ≠ 0))
    || decide (d.getD 6 0 ≠ 0) || decide (d.getD 7 0 ≠ 0)
    || (decide (colOp d ≠ 0) && (decide (colNbuf d < 2) || decide (colLen d % 4 ≠ 0) || decide (colLen d < 4)
        || decide (2 ^ 20 < colLen d) || decide (colBuf d 1 % 4 ≠ 0)))

/-- COLL (R373): its arrival stands while it waits (R375); a release and an acquire (R371, 11_ordering R267). -/
def execColl (d a b : SReg) (s : State) : Host.Outcome State Fault Refusal :=
  scalar [a, b] [d] (impureOnly 6 (afterViq (afterWrites (barOp a (fun r x s =>
    let h := (s.readS a).toNat
    let rec_ := s.me.arrival h
    if rec_.c then
      if x.phase - rec_.arrph ≠ 0 then
        .done ((s.withMe (s.me.withArrival h { rec_ with c := false })).retire 4 d x.cstat)
      else .wait false s
    else
      let p := (s.readS b).toNat
      if p % 64 ≠ 0 then .trap (object 3 4) s
      else
        (s.load (s.who s.cur) p 64).elim s (fun bs =>
          let ws := wordsOfBytes 8 bs
          if colMalformed ws then .trap (object 3 5) s
          else
            whenIdle x s <|
              .wait false ((s.withMe (s.me.withArrival h { arrph := x.phase, a := true, c := true })).withBarrier r
                (x.arrive { ref := s.cur, coll := some ws })))))))) s

/-- A failure of a collective: the code of its status word (R373), the participant, and where an uncorrectable error was
met. -/
structure ColFail where
  code : Nat
  who  : Nat
  addr : Nat := 0
deriving DecidableEq, Repr

/-- The code of a fault of a participant's access (R373). -/
def colCode (t : Trap) : Nat :=
  match t.cause with
  | .pageattr => 3
  | .turnfault => 4
  | .eccfatal => 5
  | _ => 2

/-- Kinds of the pages of a buffer (R372). -/
def colKinds : PageKind → Bool
  | .stream => true
  | .sync => true
  | .hostmem => true
  | _ => false

/-- The places of a buffer for a participant, or the failure (R373). -/
def State.colPlaces (s : State) (w : Who) (need : Need) (i a n : Nat) : Except ColFail (List (Place × Nat × Nat)) :=
  match s.locate w 1 need a n with
  | .ok (.pages ps) => if (attrCheck 1 colKinds ps).isSome then .error { code := 3, who := i } else .ok ps
  | .ok (.window _ _) => .error { code := 3, who := i }
  | .trap t => .error { code := colCode t, who := i, addr := t.addr.toNat }
  | .stall => .error { code := 2, who := i }

/-- The level of a buffer: DEV, or HOST on the fabric or on HOSTMEM (R267); a buffer of which a part is HOSTMEM is at HOST as a
whole (notes/assumptions/113). -/
def colLevel (fab : Bool) (ps : List (Place × Nat × Nat)) : Level :=
  if fab || ps.any (fun p => decide (p.1.kind = .hostmem)) then .host else .dev

/-- A granule copy that a participant's core left PENDING is raised (R373 step 2). -/
def raiseCopy (cores : List Nat) (L : Level) (s : State) (key : Nat) : State :=
  match tget s.gran key with
  | some g =>
    if cores.contains g.writer ∧ g.level.rank < L.rank then
      if L = .host then { s with gran := tdel s.gran key } else { s with gran := tput s.gran key { g with level := L } }
    else s
  | none => s

/-- The raising of one buffer of a participant (R373 step 2): every replica's granules. -/
def State.raiseBuffer (s : State) (cores : List Nat) (fab : Bool) (w : Who) (i a n : Nat) : Except ColFail State :=
  match s.colPlaces w .nothing i a n with
  | .error e => .error e
  | .ok ps =>
    let lo := alignDown a 64
    let hi := alignUp (a + n) 64
    let L := colLevel fab ps
    let keys := (granPieces lo (hi - lo)).flatMap (fun g => s.turnKeys w g.1)
    .ok ((keys.foldl (raiseCopy cores L) s).dropStrips (fun _ => true) (s.rangeKeys w true lo (hi - lo)))

/-- A participant: who it is, its handle's descriptor. -/
abbrev Participant := Who × List Word

/-- Step 2 for every named buffer of every participant, in order; the state reached, and the failure: the first stops it, and
what has been raised before stands (notes/assumptions/114). -/
def State.raiseAll (s : State) (cores : List Nat) (ps : List Participant) : State × Option ColFail :=
  ((List.range ps.length).zip ps).foldl (fun acc p =>
    (List.range (colNbuf p.2.2)).foldl (fun (acc : State × Option ColFail) i =>
      match acc.2 with
      | some _ => acc
      | none =>
        if colLen p.2.2 = 0 then acc
        else
          match acc.1.raiseBuffer cores (colFab p.2.2) p.2.1 p.1 (colBuf p.2.2 i) (colLen p.2.2) with
          | .ok s1 => (s1, none)
          | .error e => (acc.1, some e)) acc) (s, none)

/-- The read of BUF0 of a participant, with the read check at distance DEV (R373 step 3). -/
def State.readBuffer (s : State) (i : Nat) (p : Participant) : Except ColFail (List Val) :=
  let n := colLen p.2
  match s.colPlaces p.1 .read i (colBuf p.2 0) n with
  | .error e => .error e
  | .ok ps =>
    if ps.any (fun q => !s.paCheck .dev q.1.kind q.1.pa q.2.2) then .error { code := 4, who := i }
    else
      match s.eccCheck p.1.core 1 ps with
      | some t => .error { code := 5, who := i, addr := t.addr.toNat }
      | none =>
        let bs := ps.flatMap (fun q => s.placeBytes q.1 q.2.2)
        .ok ((List.range (n / 4)).map (fun j => f32Val (natOfBytes ((bs.drop (4 * j)).take 4))))

/-- Something done for every participant in turn, by its index: the answers, or the first failure (notes/assumptions/114). -/
def inTurn {α : Type} (f : Nat → Participant → Except ColFail α) : Nat → List Participant → Except ColFail (List α)
  | _, [] => .ok []
  | i, p :: rest =>
    match f i p, inTurn f (i + 1) rest with
    | .error e, _ => .error e
    | .ok _, .error e => .error e
    | .ok x, .ok xs => .ok (x :: xs)

/-- Where a participant's result goes. -/
def State.resultPlaces (s : State) (i : Nat) (p : Participant) : Except ColFail (List (Place × Nat × Nat)) :=
  s.colPlaces p.1 .write i (colBuf p.2 1) (colLen p.2)

/-- The combination of two F32 values by the operator of a fold: 1 SUM, 2 MIN, 3 MAX (R374, 10_copies R239). -/
def foldVal (op : Nat) (p q : Val) : Val :=
  match op with
  | 1 => (roundF32 .rne (p.add .rne q).1).1
  | 2 => (Val.pick false p q).1
  | _ => (Val.pick true p q).1

/-- The results (R374): serially over the participants, from the first. -/
def foldAll (op : Nat) : List (List Val) → List Val
  | [] => []
  | v :: rest => rest.foldl (fun acc x => (acc.zip x).map (fun p => foldVal op p.1 p.2)) v

/-- The participants of a phase in the order of R374: ascending member, then compute, fetch and drain hart. -/
def State.participants (s : State) (b : Barrier) : List Participant :=
  let key := fun (r : HartRef) => (s.ctx r.cid).member * 3 + kindNum r.kind
  ((b.open_.filterMap (fun a => a.coll.map (fun d => (a.ref, d)))).mergeSort
    (fun x y => decide (key x.1 ≤ key y.1))).map (fun p => (s.who p.1, p.2))

/-- The status word of a collective (R373). -/
def colStatus (f : Option ColFail) (len : Nat) : Word :=
  match f with
  | some e => BitVec.ofNat 64 (2 ^ 63 + e.code * 2 ^ 56 + e.who * 2 ^ 40)
  | none => BitVec.ofNat 64 len

/-- Whether the descriptors of a phase do not match, or a BARARR belongs to it, or the device's FABGRP does not name the
barrier's handle (R373, 20_system R445). -/
def State.colMismatch (s : State) (b : Barrier) (handle : Nat) : Bool :=
  b.open_.any (fun a => a.coll.isNone)
    || (match b.open_.filterMap (·.coll) with
        | [] => true
        | d :: rest =>
          rest.any (fun e => decide (colOp e ≠ colOp d) || decide (colFab e ≠ colFab d) || decide (colLen e ≠ colLen d))
            || (colFab d && (!bit s.dev.fabgrp 63 || decide (bits s.dev.fabgrp 0 9 ≠ handle))))

/-- The handle of a barrier of a kernel. -/
def Kernel.handleOf (x : Kernel) : BarRef → Nat
  | .quad k => 1 + x.qbars.findIdx (fun i => decide (x.quadUnit * 64 + i = k))
  | .die k => 257 + x.dbars.findIdx (fun i => decide (x.dieUnit * 32 + i = k))

/-- The memory work of a collective (R373 steps 2 and 3): the state, and its failure; every BUF0 is read before any BUF1 is
looked at (notes/assumptions/114). -/
def State.collective (s : State) (b : Barrier) : State × Option ColFail :=
  let ps := s.participants b
  let cores := ps.map (fun p => p.1.core)
  let r := s.raiseAll cores ps
  match r.2, ps with
  | some e, _ => (r.1, some e)
  | none, [] => (r.1, none)
  | none, p :: _ =>
    if colOp p.2 = 0 then (r.1, none)
    else
      match inTurn r.1.readBuffer 0 ps, inTurn r.1.resultPlaces 0 ps with
      | .error e, _ => (r.1, some e)
      | .ok _, .error e => (r.1, some e)
      | .ok vs, .ok places =>
        let bytes := (foldAll (colOp p.2) vs).flatMap (fun v => bytesOfNat 4 (f32Bits v))
        ((ps.zip places).foldl (fun s q =>
          s.writeTurned q.1.1 (colLevel (colFab q.1.2) q.2) (colBuf q.1.2 1) bytes q.2) r.1, none)

/-- The uncorrectable error that ends a collective is logged (20_system R447). -/
def State.logCollective (s : State) (b : Barrier) (f : Option ColFail) : State :=
  match f with
  | none => s
  | some e =>
    match (s.participants b)[e.who]? with
    | some p => if e.code = 5 then s.logEcc p.1 e.addr else s
    | none => s

/-- Whether a collective waits for a migration (09_page R204), or for multicasts of the participants' cores, whose writes it raises in every buffer
(18_link R423). -/
def State.colStalls (s : State) (b : Barrier) : Bool :=
  let cores := (s.participants b).map (fun p => p.1.core)
  (s.participants b).any (fun p => (List.range (colNbuf p.2)).any (fun i =>
    s.rangeWaits cores p.1 (colBuf p.2 i) (colLen p.2)))

/-- The barrier that the number of an event names: of a quadrant unit below 1,024, of a die unit from there. -/
def barRefOf (n : Nat) : BarRef := if n < 1024 then .quad n else .die (n - 1024)

/-- COLLECTIVE_RUN (R373): the collective of the completing phase of the barrier a; then the phase completes. -/
def execCollectiveRun (s : State) : Host.Outcome State Fault Refusal :=
  let r := barRefOf s.evArg.a
  let b := s.barrier r
  match b.owner.bind s.kernel with
  | none => .next s
  | some x =>
    if !b.running then .next s
    else if s.colMismatch b (x.handleOf r) then
      .next (s.withBarrier r { b with cstat := 0x8100000000000000 }.complete)
    else if s.colStalls b then .next s
    else
      let q := s.collective b
      let len := ((b.open_.filterMap (·.coll)).head?.map colLen).getD 0
      .next ((q.1.logCollective b q.2).withBarrier r { b with cstat := colStatus q.2 len }.complete)

end Sys2Proof.Machine
end

