-- ==== Sys2Proof/Machine/Branch.lean ====
section
/-! DEFINITION. Branches and jumps (05_scalar R95, R96). -/

namespace Sys2Proof.Machine

/-- A branch: PC := the target where the comparison holds, else the next instruction (R95). -/
def branch (cond : Word → Word → Bool) (a b : SReg) (off : BitVec 11) (s : State) :
    Host.Outcome State Fault Refusal :=
  scalar [a, b] [] (fun s =>
    .done (if cond (s.readS a) (s.readS b) then s.jump (branchTarget s.me.pc off) else s.advance 4)) s

/-- BEQ (R95). -/
def execBeq (a b : SReg) (off : BitVec 11) (s : State) : Host.Outcome State Fault Refusal :=
  branch (fun x y => decide (x = y)) a b off s
/-- BNE (R95). -/
def execBne (a b : SReg) (off : BitVec 11) (s : State) : Host.Outcome State Fault Refusal :=
  branch (fun x y => decide (x ≠ y)) a b off s
/-- BLT, signed (R95). -/
def execBlt (a b : SReg) (off : BitVec 11) (s : State) : Host.Outcome State Fault Refusal :=
  branch (fun x y => x.slt y) a b off s
/-- BGE, signed (R95). -/
def execBge (a b : SReg) (off : BitVec 11) (s : State) : Host.Outcome State Fault Refusal :=
  branch (fun x y => !x.slt y) a b off s
/-- BLTU (R95). -/
def execBltu (a b : SReg) (off : BitVec 11) (s : State) : Host.Outcome State Fault Refusal :=
  branch (fun x y => x.ult y) a b off s
/-- BGEU (R95). -/
def execBgeu (a b : SReg) (off : BitVec 11) (s : State) : Host.Outcome State Fault Refusal :=
  branch (fun x y => !x.ult y) a b off s

/-- JAL (R96). -/
def execJal (d : SReg) (imm : BitVec 19) (s : State) : Host.Outcome State Fault Refusal :=
  scalar [] [d] (fun s => .done ((s.writeS d (s.me.pc + 4)).jump (pcRel19 s.me.pc imm))) s

/-- JALR: sa is read before sd is written; bits [1:0] of the target are cleared (R96). -/
def execJalr (d a : SReg) (imm : BitVec 14) (s : State) : Host.Outcome State Fault Refusal :=
  scalar [a] [d] (fun s => .done ((s.writeS d (s.me.pc + 4)).jump (s.readS a + imm14 imm))) s

end Sys2Proof.Machine
end

