-- ==== Sys2Proof/Machine/Channels.lean ====
section
/-! DEFINITION. Neighbour channels (07_matrix R166–R175). -/

namespace Sys2Proof.Machine

/-- A channel of the moving hart's kernel. -/
def State.chan (s : State) (n : Nat) : Option Chan := (s.kernel s.myCtx.kernel).bind (fun k => k.chans[n]?)

/-- The state with a channel of the moving hart's kernel changed. -/
def State.modChan (s : State) (n : Nat) (f : Chan → Chan) : State :=
  s.modKernel s.myCtx.kernel (fun k => { k with chans := modifyAt k.chans n f })

/-- Whether the moving hart is the declared sender of a channel (R166). -/
def State.sends (s : State) (n : Nat) : Bool :=
  match s.chan n with
  | some c => decide (c.decl.smem = s.myCtx.member) && decide (c.decl.shart = s.cur.kind)
  | none => false

/-- Whether the moving hart is the declared receiver of a channel (R166). -/
def State.receives (s : State) (n : Nat) : Bool :=
  match s.chan n with
  | some c => decide (c.decl.rmem = s.myCtx.member) && decide (c.decl.rhart = s.cur.kind)
  | none => false

/-- The free slots of a channel: one slot holds one beat (R168). -/
def Chan.free (c : Chan) : Nat := c.decl.slots - (c.msgs.map (·.beats)).foldl (· + ·) 0

/-- The message that a receive may take: a complete one at the head (R171). -/
def Chan.ready (c : Chan) : Option Msg :=
  match c.msgs with
  | m :: _ => if m.complete then some m else none
  | [] => none

/-- A message appended (R170). -/
def Chan.push (c : Chan) (m : Msg) : Chan := { c with msgs := c.msgs ++ [m], sent := c.sent + 1 }

/-- The head message removed (R171). -/
def Chan.pop (c : Chan) : Chan := { c with msgs := c.msgs.drop 1, taken := c.taken + 1 }

/-- A scalar message, whose one beat is under way (R168). -/
def scalarMsg (x : Word) : Msg := { scalar := true, vals := [x], tag := 0, len := 1, beats := 1, complete := false }

/-- CHANLEN (R170, R171). -/
def chanlen : Trap := { cause := .chanlen }

/-- CHSEND.S (R170): a release, which waits for the hart's own writes; on the compute hart earlier entries that access
memory or a channel come first (R174, R175). -/
def execChsendS (ch : BitVec 5) (a : SReg) (s : State) : Host.Outcome State Fault Refusal :=
  scalar [a] [] (fun s =>
    if !s.sends ch.toNat then .trap (illegal s 5 0) s else
    impureOnly 6 (afterEntries viqChan (afterViq (afterWrites (fun s =>
      match s.chan ch.toNat with
      | some c =>
        if c.free = 0 then .wait true s
        else .done ((s.modChan ch.toNat (fun c => c.push (scalarMsg (s.readS a)))).advance 4)
      | none => .wait true s)))) s) s

/-- CHRECV.S (R171). -/
def execChrecvS (d : SReg) (ch : BitVec 5) (s : State) : Host.Outcome State Fault Refusal :=
  scalar [] [d] (fun s =>
    if !s.receives ch.toNat then .trap (illegal s 5 0) s else
    impureOnly 6 (afterEntries viqChan (fun s =>
      match (s.chan ch.toNat).bind Chan.ready with
      | none => .wait true s
      | some m =>
        if !m.scalar then .trap chanlen s
        else .done ((s.modChan ch.toNat Chan.pop).retire 4 d (m.vals.getD 0 0)))) s) s

/-- CHSEND (R170): every element below VL as stored bits, whatever the mask; it waits in the queue for its slots. -/
def effChsend (ch : BitVec 5) (a : VReg) (e : VEntry) (s : State) : Res :=
  let c := s.myCtx
  vChecked (vecCheck c e [] [] [c.span a]) s <|
  impureOnly 6 (fun s =>
    let w := c.regWidth a
    let beats := max 1 (ceilDiv (e.vl * w) 512)
    match s.chan ch.toNat with
    | none => .wait false s
    | some k =>
      if k.decl.slots < beats then .trap chanlen s
      else if s.outstanding ∨ k.free < beats then .wait false s
      else .done (s.modChan ch.toNat (fun k => k.push
        { scalar := false, vals := (List.range e.vl).map (fun i => BitVec.ofNat 64 (c.elem a w i)), tag := c.tag a,
          len := e.vl, beats := beats, complete := false }))) s

/-- The status record of a message whose length does not match (R171, R172): a write at the home slice. -/
def statusWrite (status n vl : Nat) (k : State → Res) (s : State) : Res :=
  if n = vl ∨ status = 0 then k s
  else
    (s.atomicCheck (s.who s.cur) 2 .write 8 status 8).elim s (fun pl =>
      if s.migrating .sync pl.pa then .wait false s
      else k (s.syncWrite (s.who s.cur) pl.pa (bytesOfNat 8 (2 ^ 63 + n))))

/-- CHRECV (R171): vd takes the message's tag, and elements 0 to VL − 1. Where an NF type is wider or narrower for the
receiver than for the sender, each element is cut or extended with zeros (notes/assumptions/87). -/
def effChrecv (d : VReg) (ch : BitVec 5) (e : VEntry) (s : State) : Res :=
  if e.ill then .trap { cause := .illvtype } s else
  impureOnly 6 (fun s =>
    match s.chan ch.toNat with
    | none => .wait false s
    | some k =>
      match k.ready with
      | none => .wait false s
      | some m =>
        if m.scalar then .trap chanlen s
        else
          let c := s.myCtx
          vChecked (vecCheck c e [] [] [{ reg := d, code := tagType m.tag }]) s <|
          statusWrite k.decl.status m.len e.vl (fun s =>
            let w := c.widthOf (tagType m.tag)
            let xs := (List.range e.vl).map (fun i => (i, if i < m.len then (m.vals.getD i 0).toNat % 2 ^ w else 0))
            .done ((s.withMyCtx ((c.setTag d m.tag).setElems d w xs)).modChan ch.toNat Chan.pop)) s) s

/-- The last beat of the oldest message under way arrives (R173). -/
def arriveFirst : List Msg → List Msg
  | [] => []
  | m :: r => if m.complete then m :: arriveFirst r else { m with complete := true } :: r

/-- MESSAGE_ARRIVAL (R173): on the channel b of the kernel a, whatever routes remain (notes/assumptions/71). -/
def execMessageArrival (s : State) : Host.Outcome State Fault Refusal :=
  .next (s.modKernel s.evArg.a (fun k =>
    { k with chans := modifyAt k.chans s.evArg.b (fun c => { c with msgs := arriveFirst c.msgs }) }))

end Sys2Proof.Machine
end

