-- ==== Sys2Proof/Machine/VMem.lean ====
section
/-! DEFINITION. VMEM: loads and stores of elements, gathers, scatter-adds, spills and scale loads (06_vector R120,
R134–R139; 07_matrix R158, R159; 10_copies R250, R251). -/

namespace Sys2Proof.Machine

/-- An access of an element by a pure task (17_reuse R395): the first that fails is the first faulting element. -/
def pureElem (write : Bool) (a n i : Nat) (k : State → Res) (s : State) : Res :=
  match s.me.checkedBy with
  | none => k s
  | some p =>
    match s.accessDetail (s.who s.cur) p write a n with
    | none => k s
    | some d => violationAt i d (BitVec.ofNat 64 a) s p k

/-- The entry at the head of the queue has performed the elements below i. -/
def State.setStep (s : State) (i : Nat) : State :=
  let c := s.myCtx
  s.withMyCtx { c with viq := modifyAt c.viq 0 (fun e => { e with step := i }) }

/-- Elements in ascending order (R134): those before the first that fails are performed, and that one is reported. -/
def elemLoop (write : Bool) (n : Nat) (addr : Nat → Nat) (body : Nat → State → MemRes State) :
    List Nat → State → Res
  | [], s => .done s
  | i :: rest, s =>
    pureElem write (addr i) n i (fun s =>
      match body i s with
      | .ok s' => elemLoop write n addr body rest s'
      | .trap t => .trap { t with elem := i } s
      | .stall => .wait false (s.setStep i)) s

/-- The active elements that the entry has not performed yet. -/
def Ctx.pendingElems (c : Ctx) (e : VEntry) (k : MReg) : List Nat :=
  (c.actives e k).filter (fun i => decide (e.step ≤ i))

/-- The byte address and the bit of element i at a base (R135). -/
def contigAddr (base : Word) (w i : Nat) : Nat := (base + BitVec.ofNat 64 (i * w / 8)).toNat

/-- The strided address of element i (R135). -/
def stridedAddr (base stride : Word) (i : Nat) : Nat := (base + BitVec.ofNat 64 i * stride).toNat

/-- The bytes of an element access (R134). -/
def elemBytes (w : Nat) : Nat := ceilDiv w 8

/-- Loading of one element: its bits go to vd. -/
def loadElem (d : VReg) (w : Nat) (addr : Nat → Nat) (shift : Nat → Nat) (i : Nat) (s : State) : MemRes State :=
  (s.load (s.who s.cur) (addr i) (elemBytes w)).bind (fun bs =>
    .ok (s.withMyCtx (s.myCtx.setElem d w i (natOfBytes bs / 2 ^ shift i % 2 ^ w))))

/-- A store of w < 8 bits: only the bits of the element change, in every copy that the store writes; the multicast of a
LOOSE page names them (R134; 11_ordering R266). -/
def State.storeBits (s : State) (w : Who) (a shift width x : Nat) : MemRes State :=
  (s.storeCheck w .write storeKinds 1 .none false a 1).bind (fun r =>
    match r with
    | .window i off =>
      let old := ((s.ctx w.ref.cid).windowBytes i off 1).getD 0 0
      .ok (s.writeRegion w .none false a [putBits old shift width x] (.window i off))
    | .pages ps => .ok (ps.foldl (fun s p =>
        let put := fun pa => [putBits (((s.placeBytes { p.1 with pa := pa } 1)).getD 0 0) shift width x]
        let own := s.writeCopy p.1.kind p.1.pa (put p.1.pa) w.core .none w.tenant
        if p.1.kind ≠ .repl then own
        else if p.1.loose then own.multicast p.1 [BitVec.ofNat 8 (x * 2 ^ shift)] (some (shift, width)) w .none
        else p.1.copies.foldl (fun s pa => s.writeCopy .repl pa (put pa) w.core .none w.tenant) s) s))

/-- Storing of one element of the register group as it stood before the instruction. -/
def storeElem (c : Ctx) (d : VReg) (w : Nat) (addr : Nat → Nat) (shift : Nat → Nat) (i : Nat) (s : State) :
    MemRes State :=
  if 8 ≤ w then s.store (s.who s.cur) (addr i) (bytesOfNat (w / 8) (c.elem d w i))
  else s.storeBits (s.who s.cur) (addr i) (shift i) w (c.elem d w i)

/-- The checks of a load or store of a register's elements. -/
def memCheck (c : Ctx) (e : VEntry) (k : MReg) (spans : List Span) (bad : Bool) : Option Trap :=
  match vecCheck c e [] [k] spans with
  | some t => some t
  | none => if bad then some (e.illegal 8) else none

/-- VLD (R135). -/
def effVld (k : MReg) (d : VReg) (e : VEntry) (s : State) : Res :=
  let c := s.myCtx
  let w := c.regWidth d
  vChecked (memCheck c e k [c.span d] false) s <|
  let addr := contigAddr (e.op 0) w
  elemLoop false (elemBytes w) addr (loadElem d w addr (fun i => i * w % 8)) (c.pendingElems e k) s

/-- VST (R135). -/
def effVst (k : MReg) (d : VReg) (e : VEntry) (s : State) : Res :=
  let c := s.myCtx
  let w := c.regWidth d
  vChecked (memCheck c e k [c.span d] false) s <|
  let addr := contigAddr (e.op 0) w
  elemLoop true (elemBytes w) addr (storeElem c d w addr (fun i => i * w % 8)) (c.pendingElems e k) s

/-- VLDS (R135). -/
def effVlds (k : MReg) (d : VReg) (e : VEntry) (s : State) : Res :=
  let c := s.myCtx
  let w := c.regWidth d
  vChecked (memCheck c e k [c.span d] (decide (w < 8))) s <|
  let addr := stridedAddr (e.op 0) (e.op 1)
  elemLoop false (elemBytes w) addr (loadElem d w addr (fun _ => 0)) (c.pendingElems e k) s

/-- VSTS (R135). -/
def effVsts (k : MReg) (d : VReg) (e : VEntry) (s : State) : Res :=
  let c := s.myCtx
  let w := c.regWidth d
  vChecked (memCheck c e k [c.span d] (decide (w < 8))) s <|
  let addr := stridedAddr (e.op 0) (e.op 1)
  elemLoop true (elemBytes w) addr (storeElem c d w addr (fun _ => 0)) (c.pendingElems e k) s

/-- The index of an element (R136): Z types are signed, all others are their stored bits. -/
def Ctx.indexOf (c : Ctx) (e : VEntry) (b : VReg) (i : Nat) : Word :=
  let w := c.regWidth b
  let x := BitVec.ofNat 64 (c.src e b w i)
  if (c.regType b).isZ then sext w x else x

/-- The address of a gathered or scattered element (R136, R138). -/
def indexedAddr (c : Ctx) (e : VEntry) (b : VReg) (w : Nat) (base : Word) (i : Nat) : Nat :=
  (base + c.indexOf e b i * BitVec.ofNat 64 (w / 8)).toNat

/-- The addresses of a gather, element by element: those it took when it was first served (R115), or now. -/
def gatherAddrs (c : Ctx) (e : VEntry) (b : VReg) (w : Nat) : List Nat :=
  if e.index = [] then (List.range e.vl).map (indexedAddr c e b w (e.op 0)) else e.index

/-- A gather that cannot complete now keeps its addresses: elements that it has loaded may stand in its indices (R115). -/
def Res.keepIndex (r : Res) (l : List Nat) : Res :=
  let keep := fun (s : State) =>
    let c := s.myCtx
    s.withMyCtx { c with viq := modifyAt c.viq 0 (fun e => { e with index := l }) }
  match r with
  | .done s => .done s
  | .trap t s => .trap t (keep s)
  | .wait y s => .wait y (keep s)

/-- The gather of VLDX (R136, R250). -/
def gather (k : MReg) (d b : VReg) (e : VEntry) (s : State) : Res :=
  let c := s.myCtx
  let w := c.regWidth d
  vChecked (memCheck c e k [c.span d, c.span b] (decide (w < 8))) s <|
  let l := gatherAddrs c e b w
  let addr := fun i => l.getD i 0
  (elemLoop false (elemBytes w) addr (loadElem d w addr (fun _ => 0)) (c.pendingElems e k) s).keepIndex l

/-- Whether a VLDX is served by the core: its base lies in a window (R250). -/
def VEntry.local_ (e : VEntry) (c : Ctx) : Bool := (c.windowOf (e.op 0).toNat).isSome

/-- VLDX (R136, R250): with its base in a window the core serves it; otherwise it waits for a gather unit, which
GATHER_SERVE is, unless its checks, a violation of a pure task (17_reuse R396) or an empty set of elements end it. -/
def effVldx (k : MReg) (d b : VReg) (e : VEntry) (s : State) : Res :=
  let c := s.myCtx
  let w := c.regWidth d
  if e.local_ c ∨ (memCheck c e k [c.span d, c.span b] (decide (w < 8))).isSome ∨ c.pendingElems e k = []
      ∨ (s.me.checkedBy.isSome ∧ (gather k d b e s).violates s) then
    gather k d b e s
  else .wait false s

/-- The entries of one epoch, and the context while it is in it, take a change of VL and VTYPE (03_encoding R54). -/
def Ctx.modEpoch (c : Ctx) (ep : Nat) (fv : Nat → Nat) (ft : BitVec 11 → BitVec 11) : Ctx :=
  { c with viq := c.viq.map (fun x => if x.epoch = ep then { x with vl := fv x.vl, vtype := ft x.vtype } else x)
           vl := if c.epoch = ep then fv c.vl else c.vl
           vtype := if c.epoch = ep then ft c.vtype else c.vtype }

/-- A tag written, by VTAG or VRELOAD: one of a reserved code sets ILL for what follows in program order (03_encoding R54,
R57; R120). -/
def Ctx.writeTag (c : Ctx) (ep : Nat) (d : VReg) (tag : BitVec 12) : Ctx :=
  let c1 := c.setTag d tag
  if 34 ≤ tagType tag then c1.modEpoch ep id (fun t => t ||| 0x400) else c1

/-- Faults that a VLDFF answers by shortening VL (R137). -/
def ffFault (t : Trap) : Bool :=
  match t.cause with
  | .pagefault => true
  | .pageattr => true
  | .misalign => true
  | .turnfault => true
  | _ => false

/-- VLDFF (R137): at an element k > 0 that faults, VL becomes k and nothing traps. -/
def effVldff (k : MReg) (d : VReg) (e : VEntry) (s : State) : Res :=
  let c := s.myCtx
  let w := c.regWidth d
  vChecked (memCheck c e k [c.span d] false) s <|
  let addr := contigAddr (e.op 0) w
  match elemLoop false (elemBytes w) addr (loadElem d w addr (fun i => i * w % 8)) (c.pendingElems e k) s with
  | .trap t s' =>
    if ffFault t ∧ 0 < t.elem then .done (s'.withMyCtx (s'.myCtx.modEpoch e.epoch (fun _ => t.elem) id))
    else .trap t s'
  | r => r

/-- Types that VSCADD takes: F32, Z32, N32, Z64, N64 (R138). -/
def scaddType : EType → Bool
  | .float f w => decide (f = fmtF32) && decide (w = 32)
  | .int _ w => decide (w = 32) || decide (w = 64)
  | _ => false

/-- ⊕ of VSCADD on bits (R138). -/
def scaddCombine (t : EType) (e : VEntry) (p q : Nat) : Nat × FFlags :=
  match t with
  | .int signed w =>
    let v := (EType.int signed w).decode
    let i := (v p).toInt + (v q).toInt
    let b := intBounds signed w
    (intBits w (if e.sat then max b.1 (min b.2 i) else i), .none)
  | _ =>
    let a := (f32Val p).add e.rm (f32Val q)
    let z := roundF32 e.rm a.1
    (f32Bits z.1, a.2.or z.2)

/-- The elements of a VSCADD that pass its checks (R134, R138), each with its physical address, up to the first that fails,
with its trap; a wait where one must wait (18_link R423). -/
def scaddChecks (w : Nat) (addr : Nat → Nat) (s : State) : List Nat → MemRes (List (Nat × Nat) × Option Trap)
  | [] => .ok ([], none)
  | i :: rest =>
    match s.atomicCheck (s.who s.cur) 2 .rmw (w / 8) (addr i) (w / 8) with
    | .ok pl => (scaddChecks w addr s rest).bind (fun r => .ok ((i, pl.pa) :: r.1, r.2))
    | .trap t => .ok ([], some { t with elem := i })
    | .stall => .stall

/-- A target with one more element merged (R138). -/
def scaddMerge (t : EType) (e : VEntry) (x : Target) : List Target → List Target
  | [] => [x]
  | y :: r =>
    if y.va = x.va then
      let q := scaddCombine t e y.part x.part
      { y with part := q.1, flags := y.flags ||| q.2.toBits } :: r
    else y :: scaddMerge t e x r

/-- The distinct targets of a VSCADD with their merged partials, and the fault that ends it: as they were when its updates
began, or now. -/
def scaddTargets (c : Ctx) (k : MReg) (d b : VReg) (e : VEntry) (s : State) : MemRes Scatter :=
  match e.scatter with
  | some x => .ok x
  | none =>
    let w := c.regWidth d
    let addr := indexedAddr c e b w (e.op 0)
    (scaddChecks w addr s (c.pendingElems e k)).bind (fun r =>
      .ok { targets := r.1.foldl (fun ts p => scaddMerge (c.regType d) e
              { va := addr p.1, pa := p.2, part := c.elem d w p.1, flags := 0 } ts) []
            fault := r.2 })

/-- The places of the targets that have not been updated. -/
def scaddLeft (e : VEntry) (x : Scatter) : List Nat := (List.range x.targets.length).filter (fun i => !e.marks.contains i)

/-- A VSCADD whose targets are all updated ends: at its fault if there is one, or by its commit, which raises the flags of
all its updates (02_machine R33). -/
def scaddEnd (fault : Option Trap) (s : State) : Res :=
  match fault with
  | some t => .trap t s
  | none => .done (s.raise 0x36 (FFlags.ofBits (((s.myCtx.viq.head?).map (·.flags)).getD 0)))

/-- VSCADD (R138, R251): its merged partials go to the home slices, one update a SCATTER_UPDATE. -/
def effVscadd (k : MReg) (d b : VReg) (e : VEntry) (s : State) : Res :=
  let c := s.myCtx
  vChecked (memCheck c e k [c.span d, c.span b] (!scaddType (c.regType d))) s <|
  let go := fun (s : State) =>
    (scaddTargets c k d b e s).elim s (fun t => if scaddLeft e t = [] then scaddEnd t.fault s else .wait false s)
  if e.scatter.isSome then go s else
  match s.me.checkedBy with
  | none => go s
  | some p => violation 3 0 s p go

/-- The update of target i of a VSCADD at its home slice, the physical address pa (R138). -/
def scaddUpdate (c : Ctx) (d : VReg) (e : VEntry) (t : Scatter) (i : Nat) (x : Target) (last : Bool) (pa : Nat) (s : State) : Res :=
  let w := c.regWidth d
  if s.migrating .sync pa ∨ s.behind c.core .sync pa (w / 8) then .wait false s else
  let old := natOfBytes (s.memBytes pa (w / 8))
  let r := scaddCombine (c.regType d) e old x.part
  let s1 := s.syncWrite (s.who s.cur) pa (bytesOfNat (w / 8) r.1)
  let c1 := s1.myCtx
  let s2 := s1.withMyCtx { c1 with viq := modifyAt c1.viq 0 (fun e =>
    { e with scatter := some t, marks := insertNat e.marks i, flags := e.flags ||| x.flags ||| r.2.toBits }) }
  if last then scaddEnd t.fault s2 else .wait false s2

/-- One update of a VSCADD at the home slice (R138), at the place where its address lies now, or lay when it was checked:
the choice picks one of the targets left. -/
def scatterOne (choice : Nat) (k : MReg) (d b : VReg) (e : VEntry) (s : State) : Res :=
  let c := s.myCtx
  let w := c.regWidth d
  (scaddTargets c k d b e s).elim s (fun t =>
    let left := scaddLeft e t
    match (left[choice % left.length]?).bind (fun i => (t.targets[i]?).map (fun x => (i, x))) with
    | none => scaddEnd t.fault s
    | some (i, x) =>
      let go := fun pa => scaddUpdate c d e t i x (decide (left.length = 1)) pa s
      match s.atomicCheck (s.who s.cur) 2 .rmw (w / 8) x.va (w / 8) with
      | .ok pl => go pl.pa
      | .trap _ => go x.pa
      | .stall => .wait false s)

/-- The whole range of a frame under a pure task's rules. -/
def pureFrame (write : Bool) (a n : Nat) (k : State → Res) (s : State) : Res := pureElem write a n 0 k s

/-- The span of a frame's group, at width w (R120). -/
def frameBad (e : VEntry) (d : VReg) : Bool := decide (d.toNat % e.g ≠ 0) || decide (32 < d.toNat + e.g)

/-- The data bytes of a frame (R120). -/
def VEntry.frameData (e : VEntry) : Nat := ceilDiv (e.vl * e.w) 8
/-- The length of a frame (R120). -/
def VEntry.frameLen (e : VEntry) : Nat := 64 + 64 * ceilDiv e.frameData 64

/-- VTYPE as CSRR reads it, with VL in [63:32] (03_encoding R54). -/
def vtypeWord (vl : Nat) (vtype : BitVec 11) : Word := BitVec.ofNat 64 (vl * 2 ^ 32 + vtype.toNat)

/-- A byte of a register group (R63). -/
def Ctx.groupByte (c : Ctx) (r : VReg) (i : Nat) : Byte := BitVec.ofNat 8 (c.elem r 8 i)

/-- The low n bits of a group as bytes, with zeros above (R120). -/
def Ctx.groupBits (c : Ctx) (r : VReg) (n : Nat) : List Byte :=
  (List.range (ceilDiv n 8)).map (fun i =>
    if 8 * i + 8 ≤ n then c.groupByte r i else BitVec.ofNat 8 ((c.groupByte r i).toNat % 2 ^ (n - 8 * i)))

/-- The image of VSPILL (R120). -/
def spillImage (c : Ctx) (d : VReg) (e : VEntry) : List Byte :=
  let header := [(c.tag d).setWidth 64, BitVec.ofNat 64 e.vl, vtypeWord e.vl e.vtype, BitVec.ofNat 64 e.frameData,
    0, 0, 0, 0]
  bytesOfWords header ++ padTo (e.frameLen - 64) (c.groupBits d (8 * e.frameData))

/-- VSPILL (R120): the whole range is checked before any byte moves. -/
def effVspill (d : VReg) (e : VEntry) (s : State) : Res :=
  let c := s.myCtx
  vChecked (memCheck c e 0 [] (frameBad e d)) s <|
  let a := (e.op 0).toNat
  pureFrame true a e.frameLen (fun s =>
    (s.storeCheck (s.who s.cur) .write storeKinds 8 .none false a e.frameLen).elim s (fun r =>
      .done (s.writeRegion (s.who s.cur) .none false a (spillImage c d e) r))) s

/-- Bytes of a group from place i up that become undefined (R120). -/
def freeGroup (d : VReg) : Nat → Nat → State → State
  | 0, _, s => s
  | n + 1, i, s =>
    let p := s.freeByte
    freeGroup d n (i + 1) (p.2.withMyCtx (p.2.myCtx.setElem d 8 i p.1.toNat))

/-- VRELOAD (R120). -/
def effVreload (d : VReg) (e : VEntry) (s : State) : Res :=
  let c := s.myCtx
  vChecked (memCheck c e 0 [] (frameBad e d)) s <|
  let a := (e.op 0).toNat
  let w := s.who s.cur
  pureFrame false a 64 (fun s =>
    (s.loadFor w 1 .read loadKinds 8 a 64).elim s (fun h =>
      let hs := wordsOfBytes 8 h
      let cap := e.g * c.usedBytes
      let k := min (hs.getD 3 0).toNat cap
      pureFrame false a (64 + k) (fun s =>
        (s.loadFor w 1 .read loadKinds 8 a (64 + k)).elim s (fun bs =>
          let data := bs.drop 64
          let tag : BitVec 12 := (hs.getD 0 0).setWidth 12
          let c1 := s.myCtx.setElems d 8 ((List.range k).map (fun i => (i, (data.getD i 0).toNat)))
          .done (freeGroup d (cap - k) k (s.withMyCtx (c1.writeTag e.epoch d tag))))) s)) s

/-- VLENQ (R120): the length of a frame. -/
def effVlenq (d : SReg) (e : VEntry) (s : State) : Res :=
  vChecked (memCheck s.myCtx e 0 [] false) s <| .done (s.writeS d (BitVec.ofNat 64 e.frameLen))

/-- A load of one entry of a scale bank (07_matrix R159). -/
def scldEntry (d : KReg) (start : Nat) (byte : Bool) (addr : Nat → Nat) (j : Nat) (s : State) : MemRes State :=
  (s.load (s.who s.cur) (addr j) (if byte then 1 else 2)).bind (fun bs =>
    let c := s.myCtx
    let j' := d.toNat * 512 + (start + j) % c.scaleEntries
    .ok (s.withMyCtx { c with scale := sset 0 c.scale j' (BitVec.ofNat 16 (natOfBytes bs)) }))

/-- SCLD (07_matrix R158, R159). -/
def effScld (d : KReg) (e : VEntry) (s : State) : Res :=
  let ctl := e.op 1
  let n := min (bits ctl 16 10) 512
  let byte := bit ctl 27
  let stride := sext 16 ctl
  let addr := fun j => (e.op 0 + BitVec.ofNat 64 j * stride).toNat
  if e.ill then .trap { cause := .illvtype } s else
  match elemLoop false (if byte then 1 else 2) addr (scldEntry d (bits ctl 32 9) byte addr)
      ((List.range n).filter (fun j => decide (e.step ≤ j))) s with
  | .done s' =>
    let c := s'.myCtx
    .done (s'.withMyCtx { c with scaleMode := sset 0 c.scaleMode d.toNat (BitVec.ofBool (bit ctl 26)) })
  | r => r

end Sys2Proof.Machine
end

