-- ==== Sys2Proof/Machine/VConf.lean ====
section
/-! DEFINITION. VTYPE, VL, tags, narrow formats and the gating of lanes: VCONF, VCONF.R, VTAG, FMTSET, and the effect of
a write to MAXLEN (03_encoding R54–R58; 06_vector R113, R119; 02_machine R29). -/

namespace Sys2Proof.Machine

/-- The elements of a group at a VTYPE (03_encoding R55, 02_machine R28). -/
def Ctx.vlmax (c : Ctx) (vtype : BitVec 11) : Nat := c.usedBytes * 8 / 2 ^ bits vtype 7 3 * 2 ^ bits vtype 0 3

/-- A request is well-formed (R55): GRP below 4, SAT below 2, WID not 7. -/
def vconfOk (req : BitVec 10) : Bool :=
  decide (bits req 0 3 < 4) && decide (bits req 5 2 < 2) && decide (bits req 7 3 ≠ 7)

/-- VCONF and VCONF.R (R55) with a request and the length asked for: the change, and the word that sd receives. -/
def Ctx.configure (c : Ctx) (req : BitVec 10) (ask : Word) : Ctx × Word :=
  if vconfOk req then
    let vtype : BitVec 11 := req.setWidth 11
    let vl := min ask.toNat (c.vlmax vtype)
    ({ c with vl := vl, vtype := vtype, epoch := c.epoch + 1 }, BitVec.ofNat 64 vl)
  else ({ c with vtype := c.vtype ||| 0x400 }, BitVec.allOnes 64)

/-- A VCONF waits for a write of MAXLEN before it in program order (R29). -/
def vconfOp (d : SReg) (reads : List SReg) (req : State → BitVec 10) (a : SReg) (s : State) :
    Host.Outcome State Fault Refusal :=
  onlyOn [.ch] (scalar reads [d] (afterEntries isMaxlenWrite (fun s =>
    let r := s.myCtx.configure (req s) (s.readS a)
    .done ((s.withMyCtx r.1).retire 4 d r.2)))) s

/-- VCONF (R55). -/
def execVconf (wid : BitVec 3) (sat rm : BitVec 2) (grp : BitVec 3) (d a : SReg) (s : State) :
    Host.Outcome State Fault Refusal :=
  vconfOp d [a] (fun _ => wid ++ sat ++ rm ++ grp) a s

/-- VCONF.R (R55): the fields come from sb[9:0]. -/
def execVconfR (d a b : SReg) (s : State) : Host.Outcome State Fault Refusal :=
  vconfOp d [a, b] (fun s => (s.readS b).setWidth 10) a s

/-- The tag that VTAG writes (06_vector R113). -/
def vtagOf (sc : BitVec 1) (blk : BitVec 3) (bank : BitVec 2) (type : BitVec 6) : BitVec 12 := sc ++ blk ++ bank ++ type

/-- VTAG (R113): it depends on no VTYPE. -/
def effVtag (sc : BitVec 1) (blk : BitVec 3) (bank : BitVec 2) (type : BitVec 6) (d : VReg) (e : VEntry) (s : State) :
    Res :=
  .done (s.withMyCtx (s.myCtx.writeTag e.epoch d (vtagOf sc blk bank type)))

/-- A VTAG with a reserved code. -/
def vtagReserved : Instr → Bool
  | .vtag _ _ _ type _ => decide (34 ≤ type.toNat)
  | _ => false

/-- VTYPE in program order: with the ILL of the VTAGs that still stand in the queue (03_encoding R54, R60). -/
def Ctx.vtypeNow (c : Ctx) : BitVec 11 :=
  if c.viq.any (fun e => vtagReserved e.instr && decide (e.epoch = c.epoch)) then c.vtype ||| 0x400 else c.vtype

/-- FMTSET (03_encoding R58): the low word of sa is the definition. -/
def effFmtset (nf : BitVec 3) (e : VEntry) (s : State) : Res :=
  let c := s.myCtx
  .done (s.withMyCtx { c with nf := sset 0 c.nf nf.toNat ((e.op 0).setWidth 32) })

/-- A bit set in sparse bytes. -/
def setBitAt (m : Sparse Byte) (k j : Nat) : Sparse Byte := sset 0 m k (sget 0 m k ||| BitVec.ofNat 8 (2 ^ j))

/-- Where bit p of a register lies once L lanes become L' (06_vector R119): elements of width w keep their lane and
their place in it; none when the lane is gated. -/
def relane (w L L' p : Nat) : Option Nat :=
  let i := p / w
  if i % L < L' then some ((i / L * L' + i % L) * w + p % w) else none

/-- The bits of a listed byte moved to their new places (R119). -/
def relaneByte (w L L' : Nat) (v : Sparse Byte) (k : Nat) (b : Byte) : Sparse Byte :=
  (List.range 8).foldl (fun v j =>
    if b.getLsbD j then
      match relane w L L' (k % vStride * 8 + j) with
      | some p => setBitAt v (k / vStride * vStride + p / 8) (p % 8)
      | none => v
    else v) v

/-- What a write of MAXLEN leaves (R29, R119; 07_matrix R147): the number of fronds; in every register the elements of
the lanes that stay, in their lanes; masks likewise, as far as the register has bits; rows of tiles from 16F up are lost.
A register whose tag is a reserved code is laid out as 32-bit elements (notes/assumptions/33). -/
def Ctx.gateLanes (c : Ctx) (m : BitVec 2) : Ctx :=
  let L := 16 * c.fronds
  let L' := 16 * 2 ^ m.toNat
  { c with
    maxlen := m
    v := c.v.foldl (fun v e => relaneByte (c.regWidth (BitVec.ofNat 5 (e.1 / vStride))) L L' v e.1 e.2) []
    m := c.m.foldl (fun mm e =>
      match relane 1 L L' (e.1 % mStride) with
      | some p => if p < c.maskBits then sset 0 mm (e.1 / mStride * mStride + p) e.2 else mm
      | none => mm) []
    tile := c.tile.filter (fun e => decide (e.1 / 128 % 128 < L')) }

/-- The effect of a write of MAXLEN at its place in program order (R29): VL, of the entries of its epoch too, is at
most the new VLMAX. -/
def Ctx.applyMaxlen (c : Ctx) (x : Word) (ep : Nat) : Ctx :=
  let c1 := c.gateLanes (x.setWidth 2)
  let clamp := fun vl vtype => min vl (c1.vlmax vtype)
  { c1 with
    viq := c1.viq.map (fun e => if e.epoch = ep then { e with vl := clamp e.vl e.vtype } else e)
    vl := if c1.epoch = ep then clamp c1.vl c1.vtype else c1.vl }

end Sys2Proof.Machine
end

