-- ==== Sys2Proof/Machine/CsrOps.lean ====
section
/-! DEFINITION. The control and status registers (02_machine R29–R34; 03_encoding R59, R60; 05_scalar R110; 09_page
R201, R202, R206, R207; 12_context R279–R281; 17_reuse R383–R385). -/

namespace Sys2Proof.Machine

/-- TRAPVEC with INH (12_context R281). -/
def Ctx.trapvecWord (c : Ctx) : Word := c.trapvec ||| (if c.handler.isSome then 0x4000000000000000 else 0)

/-- CORID (02_machine R31). -/
def Ctx.coridWord (c : Ctx) : Word :=
  BitVec.ofNat 64 (c.core / 96 * 2 ^ 30 + c.core % 96 / 24 * 2 ^ 28 + c.core % 24 * 2 ^ 23 + c.slot * 2 ^ 16 + c.core)

/-- TURNCAP (R32): CAP and the count of the core. -/
def State.turncapWord (s : State) (core : Nat) : Word :=
  BitVec.ofNat 64 (s.pending core * 2 ^ 32 + Config.turnCap)

/-- The tenant that RUQUOTA and RUPOOL name for a context (17_reuse R383). -/
def Ctx.reuseTenant (c : Ctx) : Nat := if c.super then bits c.rutsel 0 7 else c.tenant

/-- The value of a register as CSRR reads it on the moving hart; XWALK counts the walks that are
outstanding on its die (09_page R199, R201). -/
def State.csrValue (s : State) (r : Csr) : Word :=
  let c := s.myCtx
  let h := s.me
  let d := s.dieOf (coreDie c.core)
  let sup := fun (x : Word) => if c.super then x else 0
  match r with
  | .pc => h.pc
  | .fflags => h.fflags.setWidth 64
  | .vl => BitVec.ofNat 64 c.vl
  | .vtype => vtypeWord c.vl c.vtypeNow
  | .vfill => c.vfill
  | .maxlen => c.maxlen.setWidth 64
  | .vcp => c.vcp
  | .spc => c.spc
  | .trapinfo => h.trapinfo
  | .trapaddr => h.trapaddr
  | .trapvec => c.trapvecWord
  | .hb => s.hb
  | .grpid => s.grpid s.cur.cid
  | .corid => c.coridWord
  | .hartid => BitVec.ofNat 64 (kindNum s.cur.kind)
  | .tenant => BitVec.ofNat 64 c.tenant
  | .turncap => s.turncapWord c.core
  | .xtsel => sup c.xtsel
  | .xroot => sup (s.tenant (bits c.xtsel 0 7)).xroot
  | .xinv => 0
  | .xwalk => BitVec.ofNat 64 d.walks
  | .hotctl => d.hotctl
  | .hotres => sup d.hotres
  | .hotlog => sup d.hotlog
  | .hotstat => d.hotstat
  | .migva => sup c.migva
  | .migcmd => 0
  | .migstat => c.migstat
  | .rutsel => sup c.rutsel
  | .ruquota => (s.tenant c.reuseTenant).ruquota
  | .rupool => (s.tenant c.reuseTenant).rupool

/-- The reads that a pure task may not make (17_reuse R396, detail 5). -/
def csrImpure : Csr → Bool
  | .hb => true
  | .grpid => true
  | .corid => true
  | .hartid => true
  | .tenant => true
  | .turncap => true
  | _ => false

/-- Reads that wait on the compute hart until every earlier entry has completed (03_encoding R60). -/
def csrReadWaits : Csr → Bool
  | .fflags => true
  | .vfill => true
  | .maxlen => true
  | .vcp => true
  | _ => false

/-- CSRR of VL and VTYPE waits for a VRELOAD, a VLDFF or a write of MAXLEN since the last VCONF (R60). -/
def State.vlPending (s : State) : Bool :=
  decide (s.cur.kind = .ch) && s.myCtx.viq.any (fun e => viqSetsVl e.instr && (isMaxlenWrite e.instr || decide (e.epoch = s.myCtx.epoch)))

/-- CSRR (R60, R110). -/
def execCsrr (d : SReg) (r : Csr) (s : State) : Host.Outcome State Fault Refusal :=
  scalar [] [d] (fun s =>
    (if csrImpure r then impureOnly 5 else id) (fun s =>
      if (r = .vl ∨ r = .vtype) ∧ s.vlPending then .wait false s
      else
        (if csrReadWaits r then afterViqEmpty else id) (fun s =>
          .done (s.retire 4 d (s.csrValue r))) s) s) s

/-- Whether code at USER may write a register (02_machine R30). -/
def csrUser : Csr → Bool
  | .fflags => true
  | .vfill => true
  | _ => false

/-- Whether code at SUPER may write a register (R30; 09_page R201; 17_reuse R383). -/
def csrSuper : Csr → Bool
  | .fflags => true
  | .vfill => true
  | .maxlen => true
  | .vcp => true
  | .spc => true
  | .trapinfo => true
  | .trapaddr => true
  | .trapvec => true
  | .xtsel => true
  | .xroot => true
  | .xinv => true
  | .hotctl => true
  | .hotres => true
  | .hotlog => true
  | .hotstat => true
  | .migva => true
  | .migcmd => true
  | .rutsel => true
  | .ruquota => true
  | .rupool => true
  | _ => false

/-- The bits of a register that a write changes; the others keep what they hold (00_scope R11). That the low bits of HOTLOG are
kept is the model's choice (09_page R201; notes/assumptions/38). -/
def csrMask : Csr → Word
  | .fflags => 0x3F1F
  | .maxlen => 0x3
  | .trapinfo => 0xFFFFFFFFFFFFC000
  | .spc => 0xFFFFFFFFFFFFFFFC
  | .trapvec => 0x81FFFFFFFFFFF000
  | .xtsel => 0x7F
  | .xroot => 0xFFFFFFFFFFFFF000
  | .hotctl => 0x0000FFFFFFFF0001
  | .hotres => 0xFFFFFFFFFFFF0000
  | .rutsel => 0x7F
  | .ruquota => 0xFFFF
  | .rupool => 0x01FFFFFFFFFFFFFF
  | _ => BitVec.allOnes 64

/-- A register written at once, on the moving hart. -/
def State.setCsr (s : State) (r : Csr) (y : Word) : State :=
  let c := s.myCtx
  let h := s.me
  let x := y &&& csrMask r
  let dn := coreDie c.core
  let d := s.dieOf dn
  match r with
  | .fflags => s.withMe { h with fflags := x.setWidth 14 }
  | .vfill => s.withMyCtx { c with vfill := x }
  | .vcp => s.withMyCtx { c with vcp := x }
  | .spc => s.withMyCtx { c with spc := x }
  | .trapinfo => s.withMe { h with trapinfo := x }
  | .trapaddr => s.withMe { h with trapaddr := x }
  | .trapvec => s.withMyCtx { c with trapvec := x }
  | .xtsel => s.withMyCtx { c with xtsel := x }
  | .xroot => let t := bits c.xtsel 0 7; s.withTenant t { s.tenant t with xroot := x }
  | .hotctl => s.withDie dn { d with hotctl := x }
  | .hotres => s.withDie dn { d with hotres := x }
  | .hotlog => s.withDie dn { d with hotlog := x }
  | .hotstat => s.withDie dn { d with hotstat := x }
  | .migva => s.withMyCtx { c with migva := x }
  | .rutsel => s.withMyCtx { c with rutsel := x }
  | _ => s

/-- STATE of MIGSTAT is BUSY (09_page R207). -/
def Ctx.migBusy (c : Ctx) : Bool := decide (bits c.migstat 0 2 = 1)

/-- Whether a write waits until other units have done it: XINV but SCOPE 3, MIGCMD with GO while no migration runs,
RUQUOTA, RUPOOL (09_page R202, R207; 17_reuse R384, R385). -/
def csrPends (c : Ctx) (r : Csr) (x : Word) : Bool :=
  match r with
  | .xinv => decide (bits x 0 2 ≠ 3)
  | .migcmd => bit x 0 && !c.migBusy
  | .ruquota => true
  | .rupool => true
  | _ => false

/-- The write of MAXLEN at push (02_machine R29): with no earlier entry it takes effect; otherwise it waits in the
queue. -/
def pushMaxlen (i : Instr) (a : Word) (x : Word) (s : State) : Res :=
  let c := s.myCtx
  if c.viq = [] then .done ((s.withMyCtx (c.applyMaxlen x c.epoch)).advance 4)
  else if c.viq.length < Config.viqCap then
    .done ((s.withMyCtx { c with viq := c.viq ++ [c.entry i s.me.pc [a] s.outside] }).advance 4)
  else .wait false s

/-- CSRW, CSRS and CSRC (R60, R110): f makes the new value from the old one and ReadS(A). -/
def csrWrite (i : Instr) (f : Word → Word → Word) (r : Csr) (a : SReg) (s : State) :
    Host.Outcome State Fault Refusal :=
  scalar [a] [] (fun s =>
    let c := s.myCtx
    if !c.super ∧ !csrUser r then .trap (illegal s 6 0) s
    else if !csrSuper r then .trap (illegal s 5 0) s
    else if (r = .vfill ∨ r = .maxlen) ∧ s.cur.kind ≠ .ch then .trap (illegal s 7 0) s
    else if r = .maxlen then pushMaxlen i (s.readS a) (f (s.csrValue .maxlen) (s.readS a)) s
    else if s.me.pendCsr.isSome then .wait false s
    else if r = .fflags ∨ r = .vfill then
      afterViqEmpty (fun s => .done ((s.setCsr r (f (s.csrValue r) (s.readS a))).advance 4)) s
    else
      let x := f (s.csrValue r) (s.readS a)
      if csrPends c r x then .wait false (s.withMe { s.me with pendCsr := some (r, x &&& csrMask r) })
      else .done ((s.setCsr r x).advance 4)) s

/-- CSRW (R110). -/
def execCsrw (r : Csr) (a : SReg) (s : State) : Host.Outcome State Fault Refusal :=
  csrWrite (.csrw r a) (fun _ y => y) r a s
/-- CSRS (R110). -/
def execCsrs (r : Csr) (a : SReg) (s : State) : Host.Outcome State Fault Refusal :=
  csrWrite (.csrs r a) (fun x y => x ||| y) r a s
/-- CSRC (R110). -/
def execCsrc (r : Csr) (a : SReg) (s : State) : Host.Outcome State Fault Refusal :=
  csrWrite (.csrc r a) (fun x y => x &&& ~~~y) r a s

/-- The effect of a queued write of MAXLEN when it reaches the head (02_machine R29). -/
def effMaxlen (f : Word → Word → Word) (e : VEntry) (s : State) : Res :=
  let c := s.myCtx
  .done (s.withMyCtx (c.applyMaxlen (f (c.maxlen.setWidth 64) (e.op 0)) e.epoch))

/-- A waiting write of the hart is done: it completes the instruction. -/
def State.csrDone (s : State) (r : HartRef) : State :=
  let h := s.hart r
  s.withHart r { h with pendCsr := none, pc := h.pc + 4 }

end Sys2Proof.Machine
end

