-- ==== Sys2Proof/Machine/Sha.lean ====
section
/-! DEFINITION. SHA-256 and HMAC-SHA-256, as FIPS 180-4 and FIPS 198-1 define them (17_reuse R381, R387). The constants
are computed from their definition there: fractional bits of roots of the first primes. -/

namespace Sys2Proof.Machine

/-- The first 64 primes. -/
def shaPrimes : List Nat :=
  [2, 3, 5, 7, 11, 13, 17, 19, 23, 29, 31, 37, 41, 43, 47, 53, 59, 61, 67, 71, 73, 79, 83, 89, 97, 101, 103, 107, 109,
   113, 127, 131] ++
  [137, 139, 149, 151, 157, 163, 167, 173, 179, 181, 191, 193, 197, 199, 211, 223, 227, 229, 233, 239, 241, 251, 257,
   263, 269, 271, 277, 281, 283, 293, 307, 311]

/-- The greatest r below acc + 2^n, from acc in steps of powers of two, whose k-th power is at most x. -/
def rootFrom (k x : Nat) : Nat → Nat → Nat
  | 0, acc => acc
  | n + 1, acc => rootFrom k x n (if (acc + 2 ^ n) ^ k ≤ x then acc + 2 ^ n else acc)

/-- The first 32 bits of the fractional part of the k-th root of p. -/
def rootBits (k p : Nat) : BitVec 32 := BitVec.ofNat 32 (rootFrom k (p * 2 ^ (32 * k)) 37 0)

/-- What a block's 64 rounds add: from cube roots. -/
def shaRoundKeys : List (BitVec 32) := shaPrimes.map (rootBits 3)

/-- The hash value before the first block: from square roots. -/
def shaStart : List (BitVec 32) := (shaPrimes.take 8).map (rootBits 2)

/-- A word turned right by each of the amounts, all of them added without carries. -/
def xorTurns (amounts : List Nat) (x : BitVec 32) : BitVec 32 :=
  amounts.foldl (fun acc n => acc ^^^ (x >>> n ||| x <<< (32 - n))) 0

/-- The 16 words of a block, each of four bytes with the most significant first. -/
def shaBlockWords (block : List Byte) : List (BitVec 32) :=
  (List.range 16).map (fun i => BitVec.ofNat 32 (natOfBytes ((block.drop (4 * i)).take 4).reverse))

/-- The message schedule of a block, newest word first: each new word from the 2nd, 7th, 15th and 16th before it. -/
def shaExtend : Nat → List (BitVec 32) → List (BitVec 32)
  | 0, newest => newest
  | n + 1, newest =>
    let before := fun i => newest.getD (i - 1) 0
    shaExtend n
      ((before 16 + before 7 + (xorTurns [7, 18] (before 15) ^^^ before 15 >>> 3)
          + (xorTurns [17, 19] (before 2) ^^^ before 2 >>> 10)) :: newest)

/-- The working variables as two sequences, newest first: the values that a to d take and those that e to h take. -/
structure ShaVars where
  upper : List (BitVec 32)
  lower : List (BitVec 32)
deriving DecidableEq, Repr

/-- A round: each sequence gets a new head and loses its fourth value. -/
def ShaVars.round (v : ShaVars) (keyed : BitVec 32) : ShaVars :=
  let u := fun i => v.upper.getD i 0
  let l := fun i => v.lower.getD i 0
  let chosen := l 2 ^^^ (l 0 &&& (l 1 ^^^ l 2))
  let majority := (u 0 &&& (u 1 ||| u 2)) ||| (u 1 &&& u 2)
  let mixed := l 3 + xorTurns [6, 11, 25] (l 0) + chosen + keyed
  { upper := (mixed + xorTurns [2, 13, 22] (u 0) + majority) :: v.upper.take 3
    lower := (u 3 + mixed) :: v.lower.take 3 }

/-- The hash value after a block. -/
def shaAbsorb (hash : List (BitVec 32)) (block : List Byte) : List (BitVec 32) :=
  let schedule := (shaExtend 48 (shaBlockWords block).reverse).reverse
  let keyed := List.zipWith (· + ·) shaRoundKeys schedule
  let v := keyed.foldl ShaVars.round { upper := hash.take 4, lower := hash.drop 4 }
  List.zipWith (· + ·) hash (v.upper ++ v.lower)

/-- The message with its padding: a one bit, zeros, and its length in bits as eight bytes, to whole blocks. -/
def shaPadded (m : List Byte) : List Byte :=
  m ++ 0x80 :: List.replicate ((119 - m.length % 64) % 64) 0 ++ (bytesOfNat 8 (8 * m.length)).reverse

/-- SHA-256: 32 bytes. -/
def sha256 (m : List Byte) : List Byte :=
  let p := shaPadded m
  let blocks := (List.range (p.length / 64)).map (fun i => (p.drop (64 * i)).take 64)
  (blocks.foldl shaAbsorb shaStart).flatMap (fun x => (bytesOfNat 4 x.toNat).reverse)

/-- HMAC-SHA-256 with a key of at most 64 bytes: the two pads differ in the byte added to the key. -/
def hmacSha256 (key m : List Byte) : List Byte :=
  let keyed := fun (pad : Byte) (bs : List Byte) => sha256 ((padTo 64 key).map (· ^^^ pad) ++ bs)
  keyed 0x5C (keyed 0x36 m)

end Sys2Proof.Machine
end

