-- ==== Sys2Proof/Machine/Reuse.lean ====
section
/-! DEFINITION. Pure tasks and the reuse table: descriptors, code slots, keys, lookups, claims, eviction, and the REUSE
major (17_reuse R377–R410). -/

namespace Sys2Proof.Machine

/-- The ranges of a descriptor from doubleword i up. -/
def descRanges (ws : List Word) (i n : Nat) : List (Nat × Nat) :=
  (List.range n).map (fun k => ((ws.getD (i + 2 * k) 0).toNat, (ws.getD (i + 1 + 2 * k) 0).toNat))

/-- NIN of a descriptor (R379). -/
def descNin (ws : List Word) : Nat := bits (ws.getD 0 0) 0 4
/-- NOUT of a descriptor (R379). -/
def descNout (ws : List Word) : Nat := bits (ws.getD 0 0) 4 4

/-- Two ranges overlap. -/
def overlaps (a b : Nat × Nat) : Bool := decide (a.1 < b.1 + b.2) && decide (b.1 < a.1 + a.2)

/-- Some two ranges of a list overlap. -/
def anyOverlap : List (Nat × Nat) → Bool
  | [] => false
  | a :: r => r.any (overlaps a) || anyOverlap r

/-- A range lies in the local window region, or passes 2^57, or has a field outside its range (R379, R380). -/
def badRange (limit : Nat) (r : Nat × Nat) : Bool :=
  decide (r.2 < 1 ∨ limit < r.2) || decide (2 ^ 57 ≤ r.1 ∨ 2 ^ 57 < r.1 + r.2) || touchesWindows r.1 r.2

/-- Whether a descriptor is malformed (R380). -/
def descMalformed (ws : List Word) : Bool :=
  let ins := descRanges ws 8 (descNin ws)
  let outs := descRanges ws 24 (descNout ws)
  decide (8 < descNin ws) || decide (descNout ws < 1 ∨ 8 < descNout ws) || decide (bits (ws.getD 0 0) 8 56 ≠ 0)
    || ((ws.drop 2).take 6).any (fun w => decide (w ≠ 0))
    || ins.any (badRange (2 ^ 24)) || outs.any (badRange 65536)
    || decide (2 ^ 24 < (ins.map (·.2)).foldl (· + ·) 0)
    || decide (65536 < (outs.map (fun o => 64 * ceilDiv o.2 64)).foldl (· + ·) 0)
    || anyOverlap outs || outs.any (fun o => ins.any (overlaps o))

/-- The live slot that a handle names (R382). -/
def Tenant.liveSlot (t : Tenant) (h : Word) : Option CodeSlot :=
  if bits h 32 32 = 0 ∧ bits h 13 3 = 0 ∧ bit h 12 ∧ bits h 6 6 = 0 then
    match tget t.slots (bits h 0 6) with
    | some c => if c.used ∧ c.gen.toNat = bits h 16 16 then some c else none
    | none => none
  else none

/-- Whether a slot is stale (R382): judged by the frames that its CDREG read, also where the pages have been remapped since
(notes/assumptions/101). -/
def State.stale (s : State) (c : CodeSlot) : Bool := c.wgens.any (fun g => decide (s.wgenOf g.1 ≠ g.2))

/-- The handle of a slot (R382). -/
def handleOf (slot : Nat) (c : CodeSlot) : Word := BitVec.ofNat 64 (c.gen.toNat * 2 ^ 16 + 2 ^ 12 + slot)

/-- Kinds that inputs may lie on (R395). -/
def inputKinds : PageKind → Bool
  | .stream => true
  | .repl => true
  | .pool => true
  | .hostmem => true
  | _ => false

/-- The places of the pages of a range; none when one fails its translation. -/
def State.rangePlaces (s : State) (w : Who) (need : Need) (r : Nat × Nat) : Option (List (Nat × Place)) :=
  (pagePieces r.1 r.2).foldr (fun p acc =>
    match acc, s.translate w.core w.tenant need p.1 with
    | some ps, some pl => some ((p.1, pl) :: ps)
    | _, _ => none) (some [])

/-- The frames of pages that a core reads. -/
def placeFrames (ps : List (Nat × Place)) : List Nat :=
  (ps.filter (fun p => decide (p.2.kind ≠ .hostmem))).map (fun p => frameKey p.2.kind p.2.pa)

/-- The frames of pages that the source filters record (R401): of a REPL page those of every replica. -/
def allFrames (ps : List (Nat × Place)) : List Nat :=
  (ps.filter (fun p => decide (p.2.kind ≠ .hostmem))).flatMap (fun p => p.2.copies.map (frameKey p.2.kind))

/-- Why no key is formed, by the codes of R407. -/
inductive NoKey where
  | notPure | malformed | noKey | stale | skipped
deriving DecidableEq, Repr

/-- The code of R407. -/
def NoKey.code : NoKey → Nat
  | .notPure => 1
  | .malformed => 2
  | .noKey => 3
  | .stale => 4
  | .skipped => 5

/-- The part of the message for one input (R387), with the places of its pages; a trap is a skip condition of R391. WGEN of a
REPL page is that of the replica which the reading core's die has (notes/assumptions/122). -/
def State.inputPart (s : State) (w : Who) (byAddr : Bool) (r : Nat × Nat) : MemRes (List Byte × List (Nat × Place)) :=
  (s.locate w 1 .read r.1 r.2).bind (fun g =>
    match g with
    | .window _ _ => .trap (pageAttr 1 r.1)
    | .pages ps =>
      let at_ := ps.map (fun p => (p.2.1, p.1))
      if byAddr then
        if ps.any (fun p => decide (p.1.kind = .hostmem) || !inputKinds p.1.kind) then .trap (pageAttr 1 r.1)
        else .ok (bytesOfNat 8 r.2 ++ at_.flatMap (fun p =>
          bytesOfNat 8 p.1 ++ bytesOfWord 8 (s.wgenOf (frameKey p.2.kind p.2.pa))), at_)
      else (s.loadFor w 1 .read inputKinds 1 r.1 r.2).bind (fun bs => .ok (bytesOfNat 8 r.2 ++ sha256 bs, at_)))

/-- The parts of all inputs. -/
def State.inputParts (s : State) (w : Who) (byAddr : Bool) : List (Nat × Nat) → MemRes (List Byte × List (Nat × Place))
  | [] => .ok ([], [])
  | r :: rest => (s.inputPart w byAddr r).bind (fun a => (s.inputParts w byAddr rest).bind (fun b => .ok (a.1 ++ b.1, a.2 ++ b.2)))

/-- Whether every output range is mapped with W on STREAM pages (R391): a trap is a skip condition. -/
def State.outputsMapped (s : State) (w : Who) : List (Nat × Nat) → MemRes Unit
  | [] => .ok ()
  | o :: rest => (s.locate w 2 .write o.1 o.2).bind (fun g =>
    match g with
    | .pages ps => if ps.all (fun p => decide (p.1.kind = .stream)) then s.outputsMapped w rest else .trap (pageAttr 2 o.1)
    | .window _ _ => .trap (pageAttr 2 o.1))

/-- What the forming of a key comes to: a key; none, for one of the reasons that R407 names first; a skip condition of R391, by
the trap that a hart would take there; or a wait for multicasts of the core (18_link R423). -/
inductive KeyRes where
  | key (k : Keyed)
  | noKey (c : NoKey)
  | skip (t : Trap)
  | wait
deriving DecidableEq, Repr

/-- A key whose parts have been read. -/
def MemRes.keyRes {α : Type} (m : MemRes α) (f : α → Keyed) : KeyRes :=
  match m with
  | .ok a => .key (f a)
  | .trap t => .skip t
  | .stall => .wait

/-- The key of a pure task, or why there is none (R387, R391). The pages that a die holds can be recorded (R401). -/
def State.keyOf (s : State) (w : Who) (p : PureState) : KeyRes :=
  let t := s.tenant w.tenant
  match t.key with
  | none => .noKey .noKey
  | some tk =>
    match t.liveSlot p.code with
    | none => .noKey .stale
    | some c =>
      if s.stale c ∨ p.w0.toNat < c.start ∨ c.start + c.len ≤ p.w0.toNat then .noKey .stale
      else
        ((s.outputsMapped w p.outputs).bind (fun _ => s.inputParts w p.byAddr p.inputs)).keyRes (fun parts =>
          let m : List Byte := [0x47, 0x4C, 0x4E, 0x53] ++ c.digest ++ [if p.byAddr then 1 else 0] ++ parts.1
            ++ p.outputs.flatMap (fun o => bytesOfNat 8 o.2)
          { key := hmacSha256 tk m, slot := bits p.code 0 6, reads := placeFrames parts.2, inputs := allFrames parts.2,
            code := c.frames })

/-- The uncorrectable error that keeps a key from being formed is logged (20_system R447). -/
def State.logSkip (s : State) (w : Who) (t : Trap) : State :=
  if t.cause = .eccfatal then s.logEcc w t.addr.toNat else s

/-- The readings of WGEN that the forming of a key makes in ADDRESS mode (R387, R210). -/
def State.keyReads (s : State) (byAddr : Bool) (k : Keyed) : State :=
  if byAddr then k.reads.foldl (fun s f => s.wgenRead f) s else s

/-- The entry that matches a key (R388). -/
def State.matching (s : State) (tenant : Nat) (key : List Byte) : Option (Nat × ReuseEntry) :=
  s.reuse.find? (fun e => decide (e.2.tenant = tenant) && decide (e.2.key16 = key.take 16) && decide (e.2.state ≠ .dead))

/-- HELD of a tenant (R408). -/
def State.held (s : State) (tenant : Nat) : Nat :=
  (s.reuse.filter (fun e => decide (e.2.tenant = tenant) && decide (e.2.state ≠ .dead))).length

/-- LIMIT of a tenant (R384). -/
def State.reuseLimit (s : State) (tenant : Nat) : Nat := min (bits (s.tenant tenant).ruquota 0 16) 32768

/-- The home die of an entry (R388). -/
def homeDie (key16 : List Byte) : Nat := (key16.getD 0 0).toNat % 4

/-- Entries that satisfy a test become DEAD, and DROPS counts them (R389, R408). -/
def State.dropEntries (s : State) (p : Nat → ReuseEntry → Bool) : State :=
  let gone := s.reuse.filter (fun e => p e.1 e.2 && decide (e.2.state ≠ .dead))
  let s1 : State := { s with reuse := s.reuse.map (fun (e : Nat × ReuseEntry) =>
    if p e.1 e.2 ∧ e.2.state ≠ .dead then (e.1, { e.2 with state := .dead }) else e) }
  (s1.countDrops (gone.map (·.2.tenant))).sweepDead

/-- Eviction of one of the VALID entries without a reader that satisfy a test; which one is free (R404). -/
def State.evict (s : State) (p : ReuseEntry → Bool) : State :=
  let cands := s.reuse.filter (fun e => p e.2 && decide (e.2.state = .valid) && decide (e.2.readers = 0))
  let f := s.freeBelow cands.length
  match cands[f.1]? with
  | none => s
  | some v => f.2.dropEntries (fun i _ => decide (i = v.1))

/-- The pages that a die's source filter records (R401). -/
def State.filterPages (s : State) (die : Nat) : List Nat :=
  ((s.reuse.flatMap (fun e => if e.2.state = .dead then [] else e.2.pages)).filter
    (fun f => decide (f / 2097152 = die))).dedup

/-- Whether the source filters can record more pages (R393, R401). -/
def State.filtersTake (s : State) (pages : List Nat) : Bool :=
  (List.range 4).all (fun d =>
    decide ((s.filterPages d ++ pages.filter (fun f => decide (f / 2097152 = d))).dedup.length ≤ 16384))

/-- A claim for a key (R393): the new FILLING entry, or none. A tenant without a key makes none (R386). -/
def State.claim (s : State) (tenant : Nat) (byAddr : Bool) (k : Keyed) : Option Nat × State :=
  if (s.tenant tenant).key.isNone then (none, s) else
  let s1 := if s.reuseLimit tenant ≤ s.held tenant then s.evict (fun e => decide (e.tenant = tenant)) else s
  if s1.reuseLimit tenant ≤ s1.held tenant then (none, s1)
  else
    let die := homeDie k.key
    let full := fun (s : State) => decide (8192 ≤ (s.reuse.filter (fun e => decide (homeDie e.2.key16 = die))).length)
    let s2 := if full s1 then s1.evict (fun e => decide (homeDie e.key16 = die)) else s1
    let pages := (k.inputs ++ k.code).dedup
    if full s2 ∨ !s2.filtersTake pages then (none, s2)
    else
      let id := s2.serial
      (some id, { s2 with
        serial := id + 1
        reuse := tput s2.reuse id
          { key16 := k.key.take 16, tenant := tenant, slot := k.slot, byAddr := byAddr, state := .filling, imgPa := 0,
            imgVa := 0, imgShift := 0, imgLen := 0, pages := pages, readers := 0, claimed := true } })

/-- The pure state of a record that a hart has taken, before its lookup (R391). -/
def pureOf (tr : TaskRec) (core : Nat) : PureState :=
  { phase := .lookup, desc := (tr.args.getD 0 0).toNat, inputs := [], outputs := [], code := 0,
    byAddr := bit tr.w1 5, demote := bit tr.w1 4, fill := bit tr.w1 7, w0 := tr.w0, args := tr.args, cores := [core],
    key := none, claim := none }

/-- The pure state with what the descriptor says. -/
def PureState.withDesc (p : PureState) (ws : List Word) : PureState :=
  { p with inputs := descRanges ws 8 (descNin ws), outputs := descRanges ws 24 (descNout ws), code := ws.getD 1 0 }

/-- The pure state of a hart. -/
def State.setPure (s : State) (r : HartRef) (p : Option PureState) : State := s.withHart r { s.hart r with pure := p }

/-- A task's first instruction is next (14_group R322): PC is w0, s10–s14 hold w3–w7, the other registers 0. -/
def State.beginTask (s : State) (r : HartRef) (w0 : Word) (args : List Word) : State :=
  let regs := ((List.range 5).zip args).foldl (fun m p => sset 0 m (10 + p.1) p.2) ([] : Sparse Word)
  s.withHart r { s.hart r with pc := w0, regs := regs, unread := [] }

/-- A task whose lookup has ended starts, with the pure state that it leaves (R391). -/
def State.startPure (s : State) (r : HartRef) (p : PureState) : State :=
  (s.beginTask r p.w0 p.args).setPure r (some { p with phase := .run, args := [] })

/-- A task that a trap finds before its first instruction: it is current, without its pure state; a hit's reader is
released (R390, R392). -/
def State.leaveLookup (s : State) (r : HartRef) : State :=
  match (s.hart r).pure with
  | none => s
  | some p =>
    match p.phase with
    | .lookup => (s.beginTask r p.w0 p.args).setPure r none
    | .hit e => ((s.endRead e).beginTask r p.w0 p.args).setPure r none
    | .retire => (s.beginTask r p.w0 p.args).setPure r none
    | _ => s

/-- A trap that a lookup or a hit raises (R390), with SPC = w0. A translation fault stalls the hart, which goes on with
its lookup afterwards; until it starts the task its registers stand (R392). -/
def State.lookupTrap (s : State) (r : HartRef) (t : Trap) : State :=
  if t.isXlat ∧ s.supervisor.isSome then
    let pc := (s.hart r).pc
    let w0 := (((s.hart r).pure).map (·.w0)).getD pc
    let s1 := (s.withHart r { s.hart r with pc := w0 }).takeTrap r false t
    s1.withHart r { s1.hart r with pc := pc }
  else (s.leaveLookup r).takeTrap r false t

/-- The loop of a lookup at the home die of its key (R391): a HIT, a MISS with a claim or without, or a wait with the same
key (R394). -/
def State.meetEntry (s : State) (r : HartRef) (p : PureState) (k : Keyed) : State :=
  let tenant := (s.ctx r.cid).tenant
  match s.matching tenant k.key with
  | some (id, e) =>
    if e.state = .valid then
      let s1 : State := { s with reuse := tput s.reuse id { e with readers := e.readers + 1 } }
      (s1.setPure r (some { p with phase := .hit id, key := some k })).count tenant 0
    else if p.fill then s.setPure r (some { p with key := some k })
    else (s.startPure r { p with key := some k }).count tenant 1
  | none =>
    let c := s.claim tenant p.byAddr k
    (c.2.startPure r { p with key := some k, claim := c.1 }).count tenant 1

/-- The lookup of a hart that has taken a pure record (R391): from its descriptor on, or, once it waits, from its key. -/
def State.lookup (s : State) (r : HartRef) : State :=
  match (s.hart r).pure with
  | none => s
  | some p0 =>
    if p0.phase ≠ .lookup then s
    else
      match p0.key with
      | some k => s.meetEntry r p0 k
      | none =>
        if p0.desc % 64 ≠ 0 then s.lookupTrap r (object 4 2)
        else
          let w := s.who r
          match s.loadFor w 1 .read loadKinds 8 p0.desc 320 with
          | .trap t => s.lookupTrap r t
          | .stall => s
          | .ok bs =>
            let ws := wordsOfBytes 40 bs
            if descMalformed ws then s.lookupTrap r (object 4 1)
            else
              let p := p0.withDesc ws
              match s.keyOf w p with
              | .noKey _ => (s.startPure r p).count w.tenant 7
              | .skip t => ((s.logSkip w t).startPure r p).count w.tenant 7
              | .wait => s
              | .key k => (s.keyReads p.byAddr k).meetEntry r p k

/-- CDREG (R381): a read by the hart, and so after its vector work (R42; 07_matrix R175). -/
def execCdreg (d a b : SReg) (s : State) : Host.Outcome State Fault Refusal :=
  scalar [a, b] [d] (impureOnly 6 (afterViq (fun s =>
    let w := s.who s.cur
    let t := s.tenant w.tenant
    let x := (s.readS a).toNat
    let n := (s.readS b).toNat
    if n = 0 then
      match t.liveSlot (s.readS a) with
      | none => .trap (object 4 3) s
      | some c =>
        let slot := bits (s.readS a) 0 6
        let s1 := s.dropEntries (fun _ e => decide (e.tenant = w.tenant) && decide (e.slot = slot))
        let t1 := s1.tenant w.tenant
        let t2 := { t1 with slots := tput t1.slots slot { c with used := false, gen := c.gen + 1 } }
        .done ((s1.withTenant w.tenant t2).retire 4 d 0)
    else if x % 4 ≠ 0 ∨ n % 4 ≠ 0 ∨ 65536 < n then .trap (object 4 2) s
    else
      (s.loadFor w 3 .fetch fetchKinds 4 x n).elim s (fun bs =>
        let g := sha256 bs
        let ps := (s.rangePlaces w .fetch (x, n)).getD []
        let frames := ps.map (fun p => frameKey p.2.kind p.2.pa)
        let s1 := frames.foldl (fun s f => s.wgenRead f) s
        let found := t.slots.find? (fun e => e.2.used && decide (e.2.start = x) && decide (e.2.len = n)
          && decide (e.2.digest = g) && !s.stale e.2)
        match found with
        | some e => .done (s1.retire 4 d (handleOf e.1 e.2))
        | none =>
          match (List.range 64).find? (fun i => !((tget t.slots i).map (·.used)).getD false) with
          | none => .done (s1.retire 4 d 0x8100000000000000)
          | some i =>
            let c : CodeSlot := { used := true, gen := ((tget t.slots i).map (·.gen)).getD 0, start := x, len := n,
                                  digest := g, wgens := frames.map (fun f => (f, s.wgenOf f)), frames := allFrames ps }
            let t1 := s1.tenant w.tenant
            .done ((s1.withTenant w.tenant { t1 with slots := tput t1.slots i c }).retire 4 d (handleOf i c)))))) s

/-- The key of a record in memory (R406), the faults of its reading and of its descriptor's, then the step that fails
or the key. -/
def queryKey (a : SReg) (k : Except NoKey Keyed → PureState → State → Res) (s : State) : Res :=
  let w := s.who s.cur
  let x := (s.readS a).toNat
  if x % 64 ≠ 0 then .trap (object 4 2) s
  else
    (s.loadFor w 1 .read loadKinds 8 x 64).elim s (fun bs =>
      let tr := taskRecOf (wordsOfBytes 8 bs)
      let p0 := pureOf tr w.core
      if !bit tr.w1 3 then k (.error .notPure) p0 s
      else if p0.desc % 64 ≠ 0 then .trap (object 4 2) s
      else
        (s.loadFor w 1 .read loadKinds 8 p0.desc 320).elim s (fun ds =>
          let ws := wordsOfBytes 40 ds
          if descMalformed ws then k (.error .malformed) p0 s
          else
            let p := p0.withDesc ws
            match s.keyOf w p with
            | .noKey c => k (.error c) p s
            | .skip t => k (.error .skipped) p (s.logSkip w t)
            | .wait => .wait false s
            | .key q => k (.ok q) p (s.keyReads p.byAddr q)))

/-- RUQUERY (R406, R407). -/
def execRuquery (d a : SReg) (s : State) : Host.Outcome State Fault Refusal :=
  scalar [a] [d] (impureOnly 6 (afterViq (queryKey a (fun r _ s =>
    match r with
    | .error c => .done (s.retire 4 d (BitVec.ofNat 64 (2 ^ 63 + c.code * 2 ^ 56)))
    | .ok k =>
      let x : Word := match s.matching s.myCtx.tenant k.key with
        | some e => if e.2.state = .valid then 2 else 1
        | none => 0
      .done (s.retire 4 d x))))) s

/-- RUINVAL (R406). -/
def execRuinval (a : SReg) (s : State) : Host.Outcome State Fault Refusal :=
  scalar [a] [] (impureOnly 6 (afterViq (queryKey a (fun r _ s =>
    match r with
    | .error .malformed => .trap (object 4 1) s
    | .error _ => .done (s.advance 4)
    | .ok k =>
      match s.matching s.myCtx.tenant k.key with
      | some e => .done ((s.dropEntries (fun i _ => decide (i = e.1))).advance 4)
      | none => .done (s.advance 4))))) s

/-- RUSTAT (R408). -/
def execRustat (d a : SReg) (s : State) : Host.Outcome State Fault Refusal :=
  scalar [a] [d] (impureOnly 6 (fun s =>
    let t := s.myCtx.tenant
    let i := (s.readS a).toNat
    let x : Word := if 7 < i then 0 else if i = 6 then BitVec.ofNat 64 (s.held t) else sget 0 (s.tenant t).counts i
    .done (s.retire 4 d x))) s

/-- RUFLUSH (R409): privileged. -/
def execRuflush (a : SReg) (s : State) : Host.Outcome State Fault Refusal :=
  scalar [a] [] (fun s =>
    if !s.myCtx.super then .trap (illegal s 6 0) s
    else
      impureOnly 6 (fun s =>
        let x := s.readS a
        .done ((s.dropEntries (fun _ e => bit x 9 || decide (e.tenant = bits x 0 7))).advance 4)) s) s

/-- Drops VALID entries of a tenant until HELD is at most LIMIT; which are dropped is free (R384). -/
def State.shrinkHeld (s : State) (tenant : Nat) : Nat → State
  | 0 => s
  | n + 1 =>
    if s.held tenant ≤ s.reuseLimit tenant then s
    else
      let cands := s.reuse.filter (fun e => decide (e.2.tenant = tenant) && decide (e.2.state = .valid))
      let f := s.freeBelow cands.length
      match cands[f.1]? with
      | none => s
      | some v => (f.2.dropEntries (fun i _ => decide (i = v.1))).shrinkHeld tenant n

/-- RUQUOTA_WRITE (R384): the waiting write of the hart h of the context a takes effect. -/
def execRuquotaWrite (s : State) : Host.Outcome State Fault Refusal :=
  let r : HartRef := { cid := s.evArg.a, kind := s.evArg.h }
  match (s.hart r).pendCsr with
  | some (.ruquota, x) =>
    let t := (s.ctx r.cid).reuseTenant
    let s1 := s.withTenant t { s.tenant t with ruquota := x }
    .next ((s1.shrinkHeld t s1.reuse.length).csrDone r)
  | _ => .next s

/-- RUPOOL_WRITE (R385): every entry of the tenant is DEAD first; the write completes once no hit reads. -/
def execRupoolWrite (s : State) : Host.Outcome State Fault Refusal :=
  let r : HartRef := { cid := s.evArg.a, kind := s.evArg.h }
  match (s.hart r).pendCsr with
  | some (.rupool, x) =>
    let t := (s.ctx r.cid).reuseTenant
    let s1 := s.dropEntries (fun _ e => decide (e.tenant = t))
    if s1.reuse.any (fun e => decide (e.2.tenant = t) && decide (e.2.readers ≠ 0)) then .next s1
    else .next ((s1.withTenant t { s1.tenant t with rupool := x }).csrDone r)
  | _ => .next s

/-- The pages of a tenant's pool region that are mapped POOL, each with log2 of the size of its leaf, and their frames
(R385). -/
def State.poolPages (s : State) (w : Who) : List ((Nat × Nat) × Nat) :=
  let x := (s.tenant w.tenant).rupool
  (List.range (bits x 0 16)).filterMap (fun i =>
    let va := (bits x 16 41 + i) * 65536
    match s.translate w.core w.tenant .nothing va with
    | some pl => if pl.kind = .pool then some ((va, pl.shift), pl.pa) else none
    | none => none)

/-- The entries of the tables for which a page of the pool region cannot be found are logged, once (00_scope R8; 20_system
R447): such a page takes no image (notes/assumptions/121). -/
def State.notePool (s : State) (w : Who) : State :=
  let x := (s.tenant w.tenant).rupool
  (List.range (bits x 0 16)).foldl (fun s i =>
    let va := (bits x 16 41 + i) * 65536
    if s.walkFails w.core w.tenant va then s.entryOnce w.core w.tenant va else s) s

/-- Whether n bytes at a pool address are free of every image (R400). -/
def State.poolFree (s : State) (pa n : Nat) : Bool :=
  !s.reuse.any (fun e => decide (0 < e.2.imgLen) && overlaps (pa, n) (e.2.imgPa, 4096 * ceilDiv e.2.imgLen 4096))

/-- The places where an image has room (R400): the page and the physical address. -/
def State.poolSpaces (s : State) (w : Who) (n : Nat) : List ((Nat × Nat) × Nat) :=
  let len := 4096 * ceilDiv n 4096
  (s.poolPages w).flatMap (fun p =>
    (List.range 16).filterMap (fun b =>
      if 4096 * b + len ≤ 65536 ∧ s.poolFree (p.2 + 4096 * b) len then some (p.1, p.2 + 4096 * b) else none))

/-- The image of the outputs as they stand (R400); none when a range cannot be read. -/
def State.imageOf (s : State) (w : Who) (outs : List (Nat × Nat)) : Option (List Byte) :=
  outs.foldr (fun o acc =>
    match acc, s.locate w 1 .nothing o.1 o.2 with
    | some bs, .ok (.pages ps) =>
      if (s.eccCheck w.core 1 ps).isSome then none
      else some (padTo (64 * ceilDiv o.2 64) (ps.flatMap (fun p => s.placeBytes p.1 p.2.2)) ++ bs)
    | _, _ => none) (some [])

/-- The uncorrectable errors of the outputs that keep an image from being made are logged (20_system R447). -/
def State.logOutputs (s : State) (w : Who) (outs : List (Nat × Nat)) : State :=
  outs.foldl (fun s o =>
    match s.locate w 1 .nothing o.1 o.2 with
    | .ok (.pages ps) => (s.eccCheck w.core 1 ps).elim s (fun t => s.logEcc w t.addr.toNat)
    | .ok (.window _ _) => s
    | .trap t => if t.cause = .eccfatal then s.logEcc w t.addr.toNat else s
    | .stall => s) s

/-- Whether a group is quiet (14_group R318): every hart is IDLE, and no record and no continuation stands anywhere. A hart in
its handler has not ended, nor one whose vector work has not completed (R328; notes/assumptions/95). -/
def State.quiet (s : State) (k : Nat) (x : Kernel) : Bool :=
  x.ready.isEmpty && (s.ctxsOf k).all (fun cid =>
    let c := s.ctx cid
    decide (c.ch.dispatch = .idle) && decide (c.fh.dispatch = .idle) && decide (c.dh.dispatch = .idle)
      && c.deque.isEmpty && c.conts.isEmpty && c.handler.isNone && c.viq.isEmpty && c.image.isNone)

/-- A RUNNING kernel whose group is quiet is DRAINING (13_kernel R295, R313). -/
def State.drainQuiet (s : State) (k : Nat) : State :=
  match s.kernel k with
  | some x => if x.state = .running ∧ s.quiet k x then s.withKernel k { x with state := .draining } else s
  | none => s

/-- The end of a task: the hart has no task, and is IDLE (14_group R318). -/
def State.goIdle (s : State) (r : HartRef) : State :=
  let h := s.hart r
  let s1 := s.withHart r { h with dispatch := .idle, pure := none, w1 := 0, w2 := 0 }
  let s2 : State := { s1 with outWatch := s1.outWatch.filter (fun o => decide (o.ref ≠ r)) }
  s2.drainQuiet (s.ctx r.cid).kernel

/-- An insertion that is abandoned (R399). -/
def State.abandonInsertion (s : State) (r : HartRef) (claim : Option Nat) : State :=
  ((s.releaseClaim claim).count (s.ctx r.cid).tenant 3).goIdle r

/-- The claim of an insertion (R399): the one that the task holds, or one that it makes now; the first claim wins. -/
def State.insertClaim (s : State) (tenant : Nat) (p : PureState) (k : Keyed) : Option Nat × State :=
  match p.claim with
  | some c => (some c, s)
  | none => if (s.matching tenant k.key).isSome then (none, s) else s.claim tenant p.byAddr k

/-- An entry that an insertion makes VALID (R399): in ADDRESS mode the filters go on recording its input pages (R401). -/
def ReuseEntry.filled (e : ReuseEntry) (pa : Nat) (page : Nat × Nat) (n : Nat) (inputs : List Nat) : ReuseEntry :=
  { e with state := .valid, claimed := false, imgPa := pa, imgVa := page.1, imgShift := page.2, imgLen := n,
           pages := if e.byAddr then inputs.dedup else [] }

/-- Whether an insertion waits: multicasts of the core are under way to the stack of an output range that it reads, or of the
image that it writes at pa (18_link R423). -/
def State.insertWaits (s : State) (w : Who) (pa : Nat) (outs : List (Nat × Nat)) : Bool :=
  s.behind w.core .pool pa (imageSize outs) || outs.any (fun o =>
    match s.locate w 1 .nothing o.1 o.2 with
    | .ok (.pages ps) => s.readsBehind w.core ps
    | _ => false)

/-- INSERTION_DONE (R399, R400): the insertion of the hart h of the context a, from its claim to its end; while the hart
is interrupted it is abandoned, and made again from its start when the hart next issues (R341, R412). -/
def execInsertionDone (s : State) : Host.Outcome State Fault Refusal :=
  let r : HartRef := { cid := s.evArg.a, kind := s.evArg.h }
  match (s.hart r).pure with
  | none => .next s
  | some p =>
    let w := s.who r
    match p.phase, p.key with
    | .insert, some key =>
      if !(s.ctx r.cid).runs r.kind ∨ (s.ctx r.cid).handler.isSome then .next s
      else
        let claimed := s.insertClaim w.tenant p key
        let s1 := claimed.2.notePool w
        match claimed.1 with
        | none => .next (claimed.2.abandonInsertion r none)
        | some id =>
          let spaces := s1.poolSpaces w (imageSize p.outputs)
          let f := s1.freeBelow spaces.length
          match spaces[f.1]? with
          | none => .next (s1.abandonInsertion r (some id))
          | some (page, pa) =>
            if s.migrating .pool pa ∨ s.insertWaits w pa p.outputs then .next s
            else
              match f.2.imageOf w p.outputs with
              | none => .next ((s1.logOutputs w p.outputs).abandonInsertion r (some id))
              | some image =>
                if s1.outWatch.any (fun o => decide (o.ref = r) && o.dirty) then .next (s1.abandonInsertion r (some id))
                else
                  let s2 := f.2.writeCopy .pool pa image w.core .host w.tenant
                  match tget s2.reuse id with
                  | none => .next (s2.abandonInsertion r none)
                  | some e =>
                    if e.state = .dead then .next (s2.abandonInsertion r (some id))
                    else
                      .next ((({ s2 with reuse := tput s2.reuse id (e.filled pa page (imageSize p.outputs) key.inputs) } : State).count
                        w.tenant 2).goIdle r)
    | _, _ => .next s

end Sys2Proof.Machine
end

