-- ==== Sys2Proof/Machine/Placement.lean ====
section
/-! DEFINITION. The order of QUEUED kernels, placement, the start of a context, and reservation (13_kernel R301,
R305–R307; 07_matrix R167). -/

namespace Sys2Proof.Machine

/-- Whether a context stands in its slot. -/
def Ctx.occupies (c : Ctx) : Bool :=
  match c.slotState with
  | .free => false
  | .saved => false
  | _ => true

/-- The context that stands in a slot of a core. -/
def State.occupant (s : State) (core slot : Nat) : Option Ctx :=
  (s.ctxs.find? (fun e => decide (e.2.core = core) && decide (e.2.slot = slot) && e.2.occupies)).map (·.2)

/-- Whether a slot of a core is FREE: no context stands in it, and no FULL context in slot 0. -/
def State.slotFree (s : State) (core slot : Nat) : Bool :=
  (s.occupant core slot).isNone && !((s.occupant core 0).map (·.full)).getD false

/-- The kernels in an order: those that satisfy a test, by a ranking, the greatest effective priority first, then the one
that reached QUEUED first (R305). -/
def State.inOrder (s : State) (p : Kernel → Bool) : List (Nat × Kernel) :=
  (s.kernels.filter (fun e => p e.2)).mergeSort (fun a b =>
    decide (b.2.eff < a.2.eff) || (decide (a.2.eff = b.2.eff) && decide (a.2.order ≤ b.2.order)))

/-- The QUEUED kernels in the order of R305. -/
def State.queued (s : State) : List (Nat × Kernel) := s.inOrder (fun k => decide (k.state = .queued))

/-- The number of a slot: core × 2 + slot. -/
def slotNo (core slot : Nat) : Nat := core * 2 + slot

/-- Whether a kernel goes before another in the order of R305. -/
def State.before (s : State) (k h : Nat) : Bool :=
  match s.kernel k, s.kernel h with
  | some x, some y => decide (y.eff < x.eff) || (decide (x.eff = y.eff) && decide (x.order < y.order))
  | _, _ => false

/-- Slots by number that the kernel k may take: all but those reserved for a kernel that goes before it (R306). -/
def State.openTo (s : State) (k : Nat) (n : Nat) : Bool :=
  s.reserve.all (fun e => decide (e.1 = k) || e.2.contains n || s.before k e.1)

/-- Slots that contexts take are open to no other kernel when they free again while a reservation is in force (R306,
R316). -/
def State.closeSlots (s : State) (taken : List Nat) : State :=
  { s with reserve := s.reserve.map (fun e => (e.1, e.2.filter (fun n => !taken.contains n))) }

/-- The slots that a context takes, by number: a FULL one takes both of its core. -/
def slotsTaken (full : Bool) (core slot : Nat) : List Nat :=
  if full then [slotNo core 0, slotNo core 1] else [slotNo core slot]

/-- The slot of a core that a context of a mode takes (R306); `free` says which slots are free to it. -/
def takesSlot (free : Nat → Nat → Bool) (other : Nat → Nat → Bool) (half : Bool) (core : Nat) : Option Nat :=
  if half then
    if free core 0 && other core 1 then some 0 else if free core 1 && other core 0 then some 1 else none
  else if free core 0 && free core 1 then some 0 else none

/-- The slot of a core that a kernel's context would take. -/
def State.slotFor (s : State) (k : Nat) (half : Bool) (core : Nat) : Option Nat :=
  takesSlot (fun c i => s.slotFree c i && s.openTo k (slotNo c i))
    (fun c i => match s.occupant c i with | some x => !x.full | none => true) half core

/-- The free barriers of a unit, lowest first (R307). -/
def freeBars (t : Table Barrier) (unit n : Nat) : List Nat :=
  (List.range n).filter (fun i => (((tget t (unit * n + i)).bind (·.owner))).isNone)

/-- Whether the units of a core have the barriers a record declares (R307). -/
def State.barsFor (s : State) (nq nd core : Nat) : Bool :=
  decide (nq ≤ (freeBars s.quadBars (coreQuad core) 64).length) && decide (nd ≤ (freeBars s.dieBars (coreDie core) 32).length)

/-- NDBAR of a SHAPE word (R297). -/
def shNdbar (w : Word) : Nat := bits w 28 6
/-- NQBAR (R297). -/
def shNqbar (w : Word) : Nat := bits w 21 7
/-- NCHAN (R297). -/
def shNchan (w : Word) : Nat := bits w 16 5
/-- SIZE (R297). -/
def shSize (w : Word) : Nat := bits w 7 9
/-- SHAPE 1: whole dies (R297). -/
def shDies (w : Word) : Bool := bit w 6
/-- The member count of a shape (R297). -/
def shMembers (w : Word) : Nat := if shDies w then 96 * shSize w else shSize w

/-- The lists of cores that a group may take, the preferred first (R306), before barriers are looked at: runs of a
quadrant's ring; then the lowest cores of a die. `ok` says which cores have a slot. -/
def coreLists (ok : Nat → Bool) (dies : Bool) (n : Nat) : List (List Nat) :=
  if dies then
    let good := (List.range 4).filter (fun d => (List.range 96).all (fun i => ok (d * 96 + i)))
    (List.range 4).filterMap (fun j =>
      let ds := (good.drop j).take n
      if ds.length = n then some (ds.flatMap (fun d => (List.range 96).map (fun i => d * 96 + i))) else none)
  else
    let runs := if 24 < n then [] else
      (List.range 16).flatMap (fun q => (List.range 24).filterMap (fun c =>
        let cs := (List.range n).map (fun i => q * 24 + (c + i) % 24)
        if cs.all ok then some (cs.mergeSort (fun a b => decide (a ≤ b))) else none))
    let lows := (List.range 4).flatMap (fun d =>
      let good := ((List.range 96).map (fun i => d * 96 + i)).filter ok
      (List.range 96).filterMap (fun j =>
        let cs := (good.drop j).take n
        if cs.length = n then some cs else none))
    runs ++ lows

/-- The cores that a kernel is placed on; none when its group does not fit (R306, R307). There is at most one supervisor
context: a second SUPER kernel waits (12_context R288; notes/assumptions/46). -/
def State.fit (s : State) (k : Nat) (x : Kernel) : Option (List Nat) :=
  let w := x.rcd.shape
  if x.super && s.supervisor.isSome then none else
  (coreLists (fun c => (s.slotFor k x.half c).isSome) (shDies w) (shSize w)).find? (fun cs =>
    s.barsFor (shNqbar w) (shNdbar w) (cs.getD 0 0))

/-- A hart at the start of its context (R301): ROOT, at its ENTRY, with the arguments in s10–s14. -/
def startHart (entry : Word) (args : List Word) : Hart :=
  { Hart.reset with
    pc := entry &&& ~~~3#64
    regs := ((List.range 5).zip args).foldl (fun m p => sset 0 m (10 + p.1) p.2) []
    dispatch := .root }

/-- A context at its start (R301). -/
def State.startCtx (s : State) (k : Nat) (x : Kernel) (m core slot : Nat) : Ctx :=
  let half := (tget s.sorusOff (slotNo core slot)).getD { words := [], lineage := [] }
  { Ctx.reset with
    slotState := .resident, core := core, slot := slot, kernel := k, member := m, full := !x.half, super := x.super,
    tenant := x.tenant, ch := startHart x.rcd.entryCh x.rcd.args, fh := startHart x.rcd.entryFh x.rcd.args,
    dh := startHart x.rcd.entryDh x.rcd.args, trapvec := x.rcd.trapvec &&& 0x81FFFFFFFFFFF000, sorus := half.words }

/-- Barriers given to a kernel (16_barrier R362). -/
def giveBars (t : Table Barrier) (k unit n members : Nat) (is : List Nat) : Table Barrier :=
  is.foldl (fun t i => tput t (unit * n + i) { Barrier.reset with owner := some k, expect := members }) t

/-- Whether a kernel has its group (14_group R317). -/
def Kernel.live (x : Kernel) : Bool :=
  match x.state with
  | .placed => true
  | .running => true
  | .preempted => true
  | .draining => true
  | _ => false

/-- A group number that no other group has (07_matrix R167); which one is free (notes/assumptions/16). -/
def State.newGroup (s : State) : Nat × State :=
  let used := (s.kernels.filter (fun e => e.2.live)).map (·.2.group)
  let f := s.freeBelow 65536
  (((List.range (used.length + 1)).map (fun i => (f.1 + i) % 65536)).find? (fun g => !used.contains g) |>.getD f.1, f.2)

/-- A kernel is PLACED on the cores of its members (R306, R307, R309). -/
def State.place (s : State) (k : Nat) (x : Kernel) (cores : List Nat) : State :=
  let w := x.rcd.shape
  let c0 := cores.getD 0 0
  let q := (freeBars s.quadBars (coreQuad c0) 64).take (shNqbar w)
  let d := (freeBars s.dieBars (coreDie c0) 32).take (shNdbar w)
  let g := s.newGroup
  let late := bit w 5 && decide (x.rcd.tick.toNat ≤ s.hb.toNat)
  let x1 : Kernel := { x with
    state := .placed, eff := x.prio, group := g.1, placedAt := g.2.serial,
    startAt := if bit w 5 then some (if late then s.hb + 1 else x.rcd.tick) else none, late := late,
    cores := cores, quadUnit := coreQuad c0, dieUnit := coreDie c0, qbars := q, dbars := d, farm := 0, farmN := 0,
    farmNext := 0, ready := [] }
  let slots := cores.map (fun c => (c, (s.slotFor k x.half c).getD 0))
  let s1 := ((List.range cores.length).zip slots).foldl (fun s p =>
    s.withCtx (k * 384 + p.1) (s.startCtx k x1 p.1 p.2.1 p.2.2)) g.2
  let s2 := (s1.withKernel k x1).closeSlots (slots.flatMap (fun p => slotsTaken (!x.half) p.1 p.2))
  { s2 with
    serial := s2.serial + 1
    quadBars := giveBars s2.quadBars k (coreQuad c0) 64 cores.length q
    dieBars := giveBars s2.dieBars k (coreDie c0) 32 cores.length d
    reserve := tdel s2.reserve k }

/-- Whether a PREEMPTED kernel can be restored (R308): every one of its contexts is SAVED, and all of its own slots are
FREE. -/
def State.restorable (s : State) (k : Nat) (x : Kernel) : Bool :=
  decide (x.state = .preempted) &&
  (let cids := (s.ctxs.filter (fun e => decide (e.2.kernel = k))).map (·.1)
   cids.all (fun cid =>
     let c := s.ctx cid
     decide (c.slotState = .saved) && s.slotFree c.core c.slot && (!c.full || s.slotFree c.core 1)))

/-- The reservations that hold now (R306): each until its kernel is placed; and that of a kernel of effective priority 7
that heads the order and does not fit, from now on: the slots that are FREE when it begins stay open to others. -/
def State.updateReserve (s : State) : State :=
  let s1 : State := { s with reserve := s.reserve.filter (fun e => (s.kernel e.1).any (fun x => decide (x.state = .queued))) }
  match s1.queued with
  | [] => s1
  | (k, x) :: _ =>
    if x.eff = 7 ∧ (tget s1.reserve k).isNone ∧ (s1.fit k x).isNone then
      { s1 with reserve := tput s1.reserve k ((List.range 768).filter (fun n => s1.slotFree (n / 2) (n % 2))) }
    else s1

/-- PLACEMENT (R306): the first QUEUED kernel whose group fits is placed; a PREEMPTED kernel that can be restored and
whose effective priority is at least that of the kernel goes first (R308). -/
def execPlacement (s0 : State) : Host.Outcome State Fault Refusal :=
  let s := s0.updateReserve
  match s.queued.findSome? (fun e => (s.fit e.1 e.2).map (fun cs => (e, cs))) with
  | none => .next s
  | some (e, cs) =>
    if s.kernels.any (fun y => s.restorable y.1 y.2 && decide (e.2.eff ≤ y.2.eff)) then .next s
    else .next (s.place e.1 e.2 cs).updateReserve

end Sys2Proof.Machine
end

