-- ==== Sys2Proof/Machine/Launch.lean ====
section
/-! DEFINITION. Launch records and their checks, submission, LAUNCH, doorbells and the taking of queue entries (13_kernel
R296–R304). -/

namespace Sys2Proof.Machine

/-- A launch record from its header and its channel table (R296). -/
def launchRecOf (hdr tab : List Word) : LaunchRec :=
  let w := fun i => hdr.getD i 0
  { entryCh := w 0, entryFh := w 1, entryDh := w 2, shape := w 3, tick := w 4, trapvec := w 5, save := w 6, ring := w 7,
    compl := w 8, watch := w 9, args := (hdr.drop 10).take 5, dw15 := w 15,
    chans := (List.range (tab.length / 2)).map (fun c => (tab.getD (2 * c) 0, tab.getD (2 * c + 1) 0)) }

/-- TENANT of a record (R297). -/
def LaunchRec.tenant (r : LaunchRec) : Nat := bits r.shape 34 7
/-- SUPER of a record (R297). -/
def LaunchRec.super (r : LaunchRec) : Bool := bit r.shape 4

/-- The hart of a code in a channel entry (R298). -/
def hartOfCode (n : Nat) : Option HartKind :=
  match n with
  | 0 => some .ch
  | 1 => some .fh
  | 2 => some .dh
  | _ => none

/-- The declaration that a channel entry makes (R298). -/
def chanDecl (e : Word × Word) : ChanDecl :=
  { smem := bits e.1 0 9, shart := (hartOfCode (bits e.1 9 2)).getD .ch, rmem := bits e.1 16 9,
    rhart := (hartOfCode (bits e.1 25 2)).getD .ch, slots := bits e.1 32 7, status := bits e.2 0 57 }

/-- Who submits a record (R296, R299): a function's queue, or a hart with LAUNCH. -/
inductive Submitter where
  | func (f : Nat)
  | hart (tenant : Nat) (super : Bool)
deriving DecidableEq, Repr

/-- MALFORMED (R299): a "must" of R296–R298 that no other reason names. -/
def LaunchRec.malformed (r : LaunchRec) (at_ : Nat) : Bool :=
  decide (at_ % 64 ≠ 0) || decide (bits r.entryCh 0 2 ≠ 0) || decide (bits r.entryFh 0 2 ≠ 0)
    || decide (bits r.entryDh 0 2 ≠ 0) || decide (bits r.shape 41 23 ≠ 0) || decide (16 < shNchan r.shape)
    || decide (bits r.save 0 16 ≠ 0) || decide (bits r.compl 0 3 ≠ 0) || decide (r.dw15 ≠ 0)
    || r.chans.any (fun e => decide (bits e.1 39 25 ≠ 0) || decide (bits e.1 27 5 ≠ 0) || decide (bits e.1 11 5 ≠ 0)
        || decide (bits e.2 57 7 ≠ 0))

/-- SIZE (R299). -/
def LaunchRec.badSize (r : LaunchRec) : Bool :=
  decide (64 < shNqbar r.shape) || decide (32 < shNdbar r.shape)
    || (if shDies r.shape then decide (shSize r.shape < 1 ∨ 4 < shSize r.shape)
        else decide (shSize r.shape < 1 ∨ 96 < shSize r.shape))

/-- CHANNEL (R299, 07_matrix R166). -/
def State.badChannel (s : State) (r : LaunchRec) : Bool :=
  r.chans.any (fun e =>
    let d := chanDecl e
    decide (shMembers r.shape ≤ d.smem) || decide (shMembers r.shape ≤ d.rmem) || (hartOfCode (bits e.1 9 2)).isNone
      || (hartOfCode (bits e.1 25 2)).isNone || decide (d.slots < 1 ∨ 64 < d.slots)
      || (decide (d.status ≠ 0) && (touchesWindows d.status 1 || !((s.translateDev 0 r.tenant .nothing d.status).map (fun p => decide (p.kind = .sync))).getD false)))

/-- SAVE (R299, 20_system R446). -/
def State.badSave (s : State) (r : LaunchRec) : Bool :=
  let w := (s.tenant r.tenant).tsave
  let base := bits w 16 36 * 65536
  if r.save = 0 then !r.super
  else
    decide (r.save.toNat < base) || decide (base + bits w 0 16 * 65536 < r.save.toNat + shMembers r.shape * 0x260000)

/-- Whether a supervisor context exists (R299, 12_context R288): from the placement of its kernel to its end. -/
def State.hasSupervisor (s : State) : Bool := s.kernels.any (fun e => e.2.super && e.2.live)

/-- The first check of R299 that a record fails: its reason. -/
def State.refusal (s : State) (sub : Submitter) (at_ : Nat) (r : LaunchRec) : Option Nat :=
  if r.malformed at_ then some 1
  else if r.badSize then some 8
  else if (match sub with
    | .func f => decide (f < 128) && decide (r.tenant ≠ f)
    | .hart t sup => !sup && decide (r.tenant ≠ t)) then some 2
  else if (r.super && (match sub with | .func f => decide (f < 128) | .hart _ _ => true))
      || (!r.super && decide (r.ring ≠ 0)) then some 3
  else if r.super && s.hasSupervisor then some 11
  else if s.badChannel r then some 4
  else if s.badSave r then some 5
  else none

/-- A kernel of a record, SUBMITTED as number n. -/
def newKernel (n : BitVec 32) (tenant : Nat) (r : LaunchRec) (order : Nat) : Kernel :=
  { number := n, state := .submitted, rcd := r, tenant := tenant, super := r.super, half := bit r.shape 3,
    prio := bits r.shape 0 3, eff := bits r.shape 0 3, size := shMembers r.shape, group := 0, order := order,
    placedAt := 0, startAt := none, late := false, ran := 0, reason := 0, cores := [], quadUnit := 0, dieUnit := 0,
    qbars := [], dbars := [], chans := r.chans.map (fun e => { decl := chanDecl e, msgs := [], sent := 0, taken := 0 }),
    ready := [], farm := 0, farmN := 0, farmNext := 0, owed := false }

/-- The entries that the check of the STATUS addresses of a record could not read are logged (20_system R447). -/
def State.logChannels (s : State) (r : LaunchRec) : State :=
  r.chans.foldl (fun s e =>
    let a := (chanDecl e).status
    if a = 0 then s else s.logBadEntry 0 r.tenant a) s

/-- A record is submitted (R295, R300): the kernel takes the next number, and is QUEUED, or FAULTED with a reason. -/
def State.submit (s : State) (tenant : Nat) (r : LaunchRec) (reason : Option Nat) : State :=
  let k := s.serial
  let x := newKernel s.kernelNo tenant r k
  let s1 := { s with serial := k + 1, kernelNo := s.kernelNo + 1 }
  match reason with
  | none => (s1.withKernel k { x with state := .queued }).updateReserve
  | some n =>
    let s2 := if n = 4 then s1.logChannels r else s1
    (s2.withKernel k { x with state := .faulted, reason := n, owed := true }).payCompletion k

/-- The kernels of a tenant that wait in QUEUED (R303). -/
def State.queuedOf (s : State) (t : Nat) : Nat :=
  (s.kernels.filter (fun e => decide (e.2.tenant = t) && decide (e.2.state = .queued))).length

/-- LAUNCH (R303): a release (R304). Its reads never take MISALIGN. -/
def execLaunch (d a : SReg) (s : State) : Host.Outcome State Fault Refusal :=
  scalar [a] [d] (impureOnly 6 (afterViq (afterWrites (fun s =>
    let x := (s.readS a).toNat
    if x % 64 ≠ 0 then .done (s.retire 4 d 0x8100000000000000)
    else
      (s.loadFor (s.who s.cur) 1 .read loadKinds 1 x 128).elim s (fun hb =>
        let hdr := wordsOfBytes 16 hb
        let n := 16 * shNchan (hdr.getD 3 0)
        let go := fun (tb : List Byte) =>
          if 256 ≤ s.queuedOf s.myCtx.tenant then Res.done (s.retire 4 d 0x8600000000000000)
          else
            let r := launchRecOf hdr (wordsOfBytes (n / 8) tb)
            let c := s.myCtx
            let reason := s.refusal (.hart c.tenant c.super) x r
            let k := s.kernelNo.toNat
            Res.done ((s.submit r.tenant r reason).retire 4 d
              (BitVec.ofNat 64 (match reason with | some e => 2 ^ 63 + e * 2 ^ 56 + k | none => k)))
        if n = 0 then go [] else (s.loadFor (s.who s.cur) 1 .read loadKinds 1 (x + 128) n).elim s go))))) s

/-- A read by device machinery at a distance, in a tenant's address space; none when it cannot be made (R299). -/
def State.devRead (s : State) (tenant : Nat) (d : Level) (a n : Nat) : Option (List Byte) :=
  if 2 ^ 57 < a + n ∨ touchesWindows a n then none
  else
    (pagePieces a n).foldr (fun p acc =>
      match acc, s.translateDev 0 tenant .read p.1 with
      | some bs, some pl =>
        if loadKinds pl.kind && s.paCheck d pl.kind pl.pa p.2 && (s.eccCheck 0 1 [(pl, p.1, p.2)]).isNone then
          some (s.placeBytes pl p.2 ++ bs)
        else none
      | _, _ => none) (some [])

/-- A read of device memory by physical address at a distance, for the physical function (R302). -/
def State.physRead (s : State) (d : Level) (pa n : Nat) : Option (List Byte) :=
  if populated pa n && s.paCheck d .stream pa n && !s.imageBad 0 pa n then some (s.memBytes pa n) else none

/-- A read for a function's queue, at distance HOST (R302). -/
def State.funcRead (s : State) (f a n : Nat) : Option (List Byte) :=
  if f < 128 then s.devRead f .host a n else s.physRead .host a n

/-- The physical address of the uncorrectable error that a read for a function's queue meets: of the entry where a translation
meets it (20_system R447). -/
def State.funcError (s : State) (f a n : Nat) : Option Nat :=
  if f < 128 then
    (pagePieces a n).findSome? (fun p =>
      (s.badEntry 0 f p.1).or ((s.translateDev 0 f .read p.1).bind (fun pl =>
        (s.eccCheck 0 1 [(pl, p.1, p.2)]).map (fun t => pl.pa + (t.addr.toNat - p.1)))))
  else (s.badHalf 0 a n).map (32 * ·)

/-- SIZE of a queue that is enabled (R302): a power of two from 8 to 4,096. -/
def KQueue.entries (q : KQueue) : Option Nat :=
  let n := bits q.size 0 13
  if (List.range 10).any (fun k => decide (n = 2 ^ (k + 3))) then some n else none

/-- A queue of a function. -/
def State.kqueue (s : State) (f q : Nat) : KQueue := (tget (s.tenant f).kq q).getD KQueue.reset

/-- The state with a queue of a function changed. -/
def State.withKqueue (s : State) (f q : Nat) (x : KQueue) : State :=
  let t := s.tenant f
  s.withTenant f { t with kq := tput t.kq q x }

/-- A reset of the tenant is under way (20_system R450): a kernel that it has killed owes its completion word still
(notes/assumptions/97). -/
def State.resetting (s : State) (t : Nat) : Bool :=
  (s.tenant t).killed.any (fun k => ((s.kernel k).map (·.owed)).getD false)

/-- A write of the host reaches the device over CXL alone: while that link is DOWN nothing arrives (18_link R422). -/
def overCxl (s : State) (s1 : State) : Host.Outcome State Fault Refusal := .next (if s.cxlDown then s else s1)

/-- DOORBELL (R302, 20_system R450, R451): the host writes the bits of w as TAIL of the queue b of the function a (128 is the
physical function). -/
def execDoorbell (s : State) : Host.Outcome State Fault Refusal :=
  let f := s.evArg.a
  let q := s.evArg.b
  let x := s.kqueue f q
  let tail := s.evArg.w.setWidth 32
  if 4 ≤ q then .next s
  else
    match x.entries with
    | none => overCxl s (s.withKqueue f q { x with err := true })
    | some n =>
      if !s.dev.ready ∨ s.resetting f ∨ n < (tail - x.head).toNat then overCxl s (s.withKqueue f q { x with err := true })
      else overCxl s (s.withKqueue f q { x with tail := tail })

/-- An empty record: that of an entry which cannot be read. -/
def noRecord : LaunchRec := launchRecOf [] []

/-- The record at an address of a function's address space (R299): none for RECORD. -/
def State.readRecord (s : State) (f a : Nat) : Option LaunchRec :=
  match s.funcRead f a 128 with
  | none => none
  | some hb =>
    let hdr := wordsOfBytes 16 hb
    let n := 16 * shNchan (hdr.getD 3 0)
    if n = 0 then some (launchRecOf hdr [])
    else (s.funcRead f (a + 128) n).map (fun tb => launchRecOf hdr (wordsOfBytes (n / 8) tb))

/-- The uncorrectable error of the first read that an entry at at_ could not make, its own, that of its record's header or of
its channels, is logged (20_system R447). -/
def State.logTake (s : State) (f at_ : Nat) (addr : Option Nat) : State :=
  let bad : Option Nat :=
    match addr with
    | none => s.funcError f at_ 8
    | some a =>
      match s.funcRead f a 128 with
      | none => s.funcError f a 128
      | some hb => s.funcError f (a + 128) (16 * shNchan ((wordsOfBytes 16 hb).getD 3 0))
  bad.elim s (fun pa => s.logUncorr (if f < 128 then f else 0) 0 pa)

/-- KQ_ENTRY_TAKE (R302): the device takes the next entry of the queue b of the function a, and its launch record. -/
def execKqEntryTake (s : State) : Host.Outcome State Fault Refusal :=
  let f := s.evArg.a
  let q := s.evArg.b
  let x := s.kqueue f q
  match x.entries with
  | none => .next s
  | some n =>
    if x.head = x.tail ∨ !s.dev.ready then .next s
    else
      let at_ := (bits x.base 0 57 + 8 * (x.head.toNat % n))
      let addr := (s.funcRead f at_ 8).map (fun bs => (wordOfBytes bs).toNat)
      match addr.bind (fun a => (s.readRecord f a).map (fun r => (a, r))) with
      | none =>
        .next (((s.logTake f at_ addr).submit f noRecord (some 7)).withKqueue f q { x with head := x.head + 1, err := true })
      | some (a, r) =>
        .next ((s.submit r.tenant r (s.refusal (.func f) a r)).withKqueue f q { x with head := x.head + 1 })

end Sys2Proof.Machine
end

