-- ==== Sys2Proof/Machine/Matrix.lean ====
section
/-! DEFINITION. The matrix engine: MOP, MZERO, MROW, MCOL, MWROW (07_matrix R145–R154; 04_numbers R80). -/

namespace Sys2Proof.Machine

/-- The place of a word of a tile. -/
def tileKey (t : AReg) (row col : Nat) : Nat := (t.toNat * 128 + row) * 128 + col

/-- A word of a tile. -/
def Ctx.tileWord (c : Ctx) (t : AReg) (row col : Nat) : BitVec 32 := sget 0 c.tile (tileKey t row col)

/-- The kind of a tile (R145). -/
def Ctx.kindOf (c : Ctx) (t : AReg) : TileKind := sget .float c.tileKind t.toNat

/-- The value of a word by its tile's kind (R146). -/
def Ctx.tileVal (c : Ctx) (t : AReg) (row col : Nat) : Val :=
  match c.kindOf t with
  | .float => f32Val (c.tileWord t row col).toNat
  | .int => .ofInt (c.tileWord t row col).toInt

/-- Rows in use (R147). -/
def Ctx.rows (c : Ctx) : Nat := 16 * c.fronds

/-- Whether two types form a legal pair of a MOP (R149). -/
def mopPair (ta tb : Nat) (a b : EType) : Bool :=
  (decide (ta = tb) && decide (ta ≤ 31)) ||
  (!a.integral && !b.integral && decide (a.width = b.width) && decide (a.width ≤ 8)) ||
  (a.integral && b.integral && decide (a.width = b.width) && decide (a.width ≤ 32) && decide (ta ≤ 31) && decide (tb ≤ 31))

/-- Whether a term is +∞ or −∞. -/
def Val.isInf (neg : Bool) : Val → Bool
  | .inf n => decide (n = neg)
  | _ => false

/-- A word of a float-kind MOP (04_numbers R80): the exact sum of the old value and the products, rounded once. -/
def mopFloat (old : Val) (ps : List (Val × Val)) : Val × FFlags :=
  let prods := ps.map (fun p => p.1.mul p.2)
  let terms := old :: prods.map (·.1)
  let sig := old.sig || ps.any (fun p => p.1.sig || p.2.sig)
  let zeroInf := ps.any (fun p => !p.1.isNan && !p.2.isNan && (p.1.mul p.2).1.isNan)
  let both := terms.any (Val.isInf false) && terms.any (Val.isInf true)
  let iv := sig || zeroInf || both
  if both || terms.any Val.isNan then (.nan false, { iv := iv })
  else if terms.any (Val.isInf false) then (.inf false, { iv := iv })
  else if terms.any (Val.isInf true) then (.inf true, { iv := iv })
  else
    let sum := (terms.foldl (fun x y => (x.add .rne y).1) (Val.fin true 0 1))
    let sum := if sum.isZero then .fin (terms.all (fun t => t.neg)) 0 1 else sum
    let z := roundF32 .rne sum
    (z.1, z.2.or { iv := iv })

/-- The terms of a word: element indexes at or beyond VL are left out (R150). -/
def mopTerms (e : VEntry) (rank i j : Nat) : List (Nat × Nat) :=
  (List.range rank).filterMap (fun k =>
    if i * rank + k < e.vl ∧ j * rank + k < e.vl then some (i * rank + k, j * rank + k) else none)

/-- Words written to a tile. -/
def Ctx.setTile (c : Ctx) (t : AReg) (ws : List (Nat × Nat × BitVec 32)) : Ctx :=
  { c with tile := ws.foldl (fun m w => sset 0 m (tileKey t w.1 w.2.1) w.2.2) c.tile }

/-- The kind of a tile written. -/
def Ctx.setKind (c : Ctx) (t : AReg) (k : TileKind) : Ctx := { c with tileKind := sset .float c.tileKind t.toNat k }

/-- MOP (R149–R151). -/
def effMop (k : MReg) (d : AReg) (a b : VReg) (cmask : MReg) (e : VEntry) (s : State) : Res :=
  let c := s.myCtx
  let ta := tagType (c.tag a)
  let tb := tagType (c.tag b)
  vChecked (match vecCheck c e [ta, tb] [k, cmask] [c.span a, c.span b] with
    | some t => some t
    | none => if mopPair ta tb (c.regType a) (c.regType b) then none else some (e.illegal 8)) s <|
  let rank := 32 / c.regWidth a
  let n := min (ceilDiv e.vl rank) c.rows
  let float := !(c.regType a).integral || tagScaled (c.tag a) || tagScaled (c.tag b)
  let places := (List.range n).flatMap (fun i => if c.maskBit k i then
    ((List.range n).filter (c.maskBit cmask)).map (fun j => (i, j)) else [])
  let word := fun (p : Nat × Nat) =>
    let ts := (mopTerms e rank p.1 p.2).map (fun q => (c.elemVal a q.1, c.elemVal b q.2))
    if float then
      let r := mopFloat (f32Val (c.tileWord d p.1 p.2).toNat) (ts.map (fun t => (t.1.1, t.2.1)))
      (BitVec.ofNat 32 (f32Bits r.1), (orFlags (ts.map (fun t => t.1.2.or t.2.2))).or r.2)
    else
      (BitVec.ofInt 32 (ts.foldl (fun x t => x + t.1.1.toInt * t.2.1.toInt) (c.tileWord d p.1 p.2).toInt), FFlags.none)
  let ws := places.map (fun p => (p.1, p.2, word p))
  let c1 := c.setTile d (ws.map (fun w => (w.1, w.2.1, w.2.2.1)))
  let c2 := if 0 < n then c1.setKind d (if float then .float else .int) else c1
  .done ((s.withMyCtx c2).raise 0x3A (orFlags (ws.map (fun w => w.2.2.2))))

/-- MZERO (R152). -/
def effMzero (d : AReg) (_ : VEntry) (s : State) : Res :=
  let c := s.myCtx
  let lo := tileKey d 0 0
  .done (s.withMyCtx (({ c with tile := sclear c.tile lo (lo + 16384) }).setKind d .float))

/-- A row or column of a tile out to vd (R153). -/
def tileOut (inside : Ctx → Nat → Bool) (word : Ctx → Nat → Val) (k : MReg) (d : VReg) (a : AReg) (e : VEntry)
    (s : State) : Res :=
  let c := s.myCtx
  vChecked (vecCheck c e [tagType (c.tag d)] [k] [c.span d]) s <|
  let int := decide (c.kindOf a = .int)
  vecMap e k d 0x3A (fun i =>
    if inside c i then toType (c.regType d) int e.sat e.rm (word c i) else (c.fill (c.regWidth d), .none)) s

/-- MROW (R153). -/
def effMrow (k : MReg) (d : VReg) (a : AReg) (row : BitVec 7) (e : VEntry) (s : State) : Res :=
  tileOut (fun c i => decide (i < 128) && decide (row.toNat < c.rows)) (fun c i => c.tileVal a row.toNat i) k d a e s
/-- MCOL (R153). -/
def effMcol (k : MReg) (d : VReg) (a : AReg) (row : BitVec 7) (e : VEntry) (s : State) : Res :=
  tileOut (fun c i => decide (i < c.rows)) (fun c i => c.tileVal a i row.toNat) k d a e s

/-- MWROW (R154): every column of one row, in the tile's kind. -/
def effMwrow (d : AReg) (a : VReg) (row : BitVec 7) (e : VEntry) (s : State) : Res :=
  let c := s.myCtx
  vChecked (vecCheck c e [tagType (c.tag a)] [] [c.span a]) s <|
  if row.toNat < c.rows then
    let t := match c.kindOf d with
      | .float => EType.float fmtF32 32
      | .int => EType.int true 32
    let ws := (List.range 128).map (fun j =>
      let v := c.srcVal e a j
      let r := e.toDest t (c.intReg a) v
      (j, r))
    .done ((s.withMyCtx (c.setTile d (ws.map (fun w => (row.toNat, w.1, BitVec.ofNat 32 w.2.1))))).raise 0x3A
      (orFlags (ws.map (fun w => w.2.2))))
  else .done s

end Sys2Proof.Machine
end

