-- ==== Sys2Proof/Machine/Sorus.lean ====
section
/-! DEFINITION. Sorus registers: points, pairing, condensation, extraction, memory images (08_sorus R178–R192). -/

namespace Sys2Proof.Machine

/-- A point: its value and its weight. -/
structure Point where
  v : Val
  w : Val
deriving DecidableEq, Repr

/-- The place of a point's value among the words of the sorus registers (R178); its weight is the next word. -/
def pointKey (d : DReg) (i p : Nat) : Nat := d.toNat * 2048 + i * 16 + p * 2

/-- A weight's bits as every instruction but DST reads them (R179): an invalid one is +0. -/
def weightOf (x : BitVec 32) : Val :=
  if x.toNat < 0x7F800000 then f32Val x.toNat else Val.zero

/-- A point of an element, its weight read by R179. -/
def Ctx.point (c : Ctx) (d : DReg) (i p : Nat) : Point :=
  { v := f32Val (sget 0 c.sorus (pointKey d i p)).toNat, w := weightOf (sget 0 c.sorus (pointKey d i p + 1)) }

/-- The eight points of an element. -/
def Ctx.points (c : Ctx) (d : DReg) (i : Nat) : List Point := (List.range 8).map (c.point d i)

/-- A point written. -/
def Ctx.setPoint (c : Ctx) (d : DReg) (i p : Nat) (x : Point) : Ctx :=
  let k := pointKey d i p
  { c with sorus := ssetList 0 c.sorus k [BitVec.ofNat 32 (f32Bits x.v), BitVec.ofNat 32 (f32Bits x.w)] }

/-- The points of an element written, from point 0. -/
def Ctx.setPoints (c : Ctx) (d : DReg) (i : Nat) (ps : List Point) : Ctx :=
  ((List.range ps.length).zip ps).foldl (fun c p => c.setPoint d i p.1 p.2) c

/-- The lineage tag of a register (R180). -/
def Ctx.ltag (c : Ctx) (d : DReg) : BitVec 8 := sget 0 c.lineage d.toNat
/-- The lineage tag written. -/
def Ctx.setLtag (c : Ctx) (d : DReg) (t : BitVec 8) : Ctx := { c with lineage := sset 0 c.lineage d.toNat t }

/-- The elements that a sorus instruction acts on (R178). -/
def sorusN (e : VEntry) : Nat := min e.vl 128

/-- Whether a value stands below another in the order of R182. -/
def ptBelow (a b : Val) : Bool := if a.isNan then false else if b.isNan then true else a.lt true b

/-- Insertion into a sorted list, behind the points of equal value. -/
def ptInsert (x : Point) : List Point → List Point
  | [] => [x]
  | y :: r => if ptBelow x.v y.v then x :: y :: r else y :: ptInsert x r

/-- The stable sort of R182. -/
def ptSort (ps : List Point) : List Point := ps.foldl (fun acc x => ptInsert x acc) []

/-- A rounding by RNE with its flags: R186. -/
def rne (x : Val × FFlags) : Val × FFlags := let z := roundF32 .rne x.1; (z.1, x.2.or z.2)

/-- A product or sum of weights (R179): a result above the largest F32 is that one, with OV and IX. -/
def roundWeight (x : Val × FFlags) : Val × FFlags :=
  let z := rne x
  match z.1 with
  | .inf _ => (f32Val 0x7F7FFFFF, z.2)
  | v => (v, z.2)

/-- A sum of weights in order. -/
def sumWeights (ws : List Val) : Val × FFlags :=
  ws.foldl (fun acc w => let r := roundWeight (acc.1.add .rne w); (r.1, acc.2.or r.2)) (Val.zero, .none)

/-- The walk of a condensation: the bin, the cumulative weight, the parts appended so far, the flags. -/
structure Walk where
  q     : Nat
  cum   : Val
  parts : List (Nat × Val × Val)
  fl    : FFlags
deriving DecidableEq, Repr

/-- x ≥ y; false when either is NaN. -/
def Val.ge (x y : Val) : Bool := !x.isNan && !y.isNan && !x.lt false y

/-- Whether a value is above zero. -/
def Val.positive (x : Val) : Bool := Val.zero.lt false x

/-- The inner loop of R184 for one point: parts that reach boundaries. -/
def walkSplit (B : List Val) (v : Val) : Nat → Val → Walk → Val × Walk
  | 0, r, k => (r, k)
  | fuel + 1, r, k =>
    let b := B.getD k.q Val.zero
    if 7 < k.q ∨ !(k.cum.add .rne r).1.ge b then (r, k)
    else
      let d := rne (b.add .rne k.cum.negate)
      let part := if d.1.lt false Val.zero then Val.zero else d.1
      let r' := rne (r.add .rne part.negate)
      walkSplit B v fuel r'.1
        { q := k.q + 1, cum := b, parts := if part.positive then k.parts ++ [(k.q, v, part)] else k.parts,
          fl := (k.fl.or d.2).or r'.2 }

/-- The walk over the sorted points (R184); C is a sum of weights, and saturates by R179. -/
def walkPoint (B : List Val) (k : Walk) (p : Point) : Walk :=
  let x := walkSplit B p.v 8 p.w k
  if x.1.positive then
    let c := roundWeight (x.2.cum.add .rne x.1)
    { x.2 with cum := c.1, parts := x.2.parts ++ [(x.2.q, p.v, x.1)], fl := x.2.fl.or c.2 }
  else x.2

/-- The value of a bin (R184); none while it is empty. Its denominator is a sum of weights, and saturates by R179. -/
def binValue (parts : List (Nat × Val × Val)) (q : Nat) : Option Val × FFlags :=
  match parts.filter (fun p => decide (p.1 = q)) with
  | [] => (none, .none)
  | ps =>
    let s := ps.foldl (fun acc p =>
      let num := rne (Val.fma .rne p.2.2 p.2.1 acc.1)
      let den := roundWeight (acc.2.1.add .rne p.2.2)
      (num.1, den.1, (acc.2.2.or num.2).or den.2)) (Val.zero, Val.zero, FFlags.none)
    let r := rne (s.1.div s.2.1)
    (some r.1, s.2.2.or r.2)

/-- An empty bin takes the value of the nearest bin below that is not empty, else above (R184). -/
def fillBins (vs : List (Option Val)) : List Val :=
  (List.range 8).map (fun q =>
    match (((vs.take (q + 1)).reverse ++ vs.drop (q + 1)).findSome? id) with
    | some v => v
    | none => Val.zero)

/-- The values made ascending (R184). -/
def ascend : Option Val → List Val → List Val
  | _, [] => []
  | none, v :: r => v :: ascend (some v) r
  | some p, v :: r => let v' := if ptBelow v p then p else v; v' :: ascend (some v') r

/-- Condensation (R184). -/
def condense (ps : List Point) : List Point × FFlags :=
  let sorted := ptSort (ps.filter (fun p => p.w.positive))
  let W := sumWeights (sorted.map (·.w))
  if sorted = [] then (List.replicate 8 { v := Val.zero, w := Val.zero }, .none)
  else
    let B := (List.range 8).map (fun q =>
      let a := rne (Val.mul (.fin false q 1) W.1)
      let b := rne (a.1.div (.fin false 8 1))
      (b.1, if q = 0 then FFlags.none else a.2.or b.2))
    let k := sorted.foldl (walkPoint (B.map (·.1))) { q := 1, cum := Val.zero, parts := [], fl := .none }
    let bins := (List.range 8).map (fun q => binValue k.parts (q + 1))
    let out := rne (W.1.div (.fin false 8 1))
    ((ascend none (fillBins (bins.map (·.1)))).map (fun v => { v := v, w := out.1 }),
      (((W.2.or (orFlags (B.map (·.2)))).or k.fl).or (orFlags (bins.map (·.2)))).or out.2)

/-- Points sorted and written as they are (R183, K = 1; R188). -/
def sortedPoints (ps : List (Point × FFlags)) : List Point × FFlags := (ptSort (ps.map (·.1)), orFlags (ps.map (·.2)))

/-- Two registers are linked when their tags share a bit (R183). -/
def linked (a b : BitVec 8) : Bool := decide (a &&& b ≠ 0)

/-- The points of a binary pairing (R183): linked operands by point, with the weights of da; else every pair. -/
def pair2 (f : Val → Val → Val × FFlags) (link : Bool) (xs ys : List Point) : List Point × FFlags :=
  if link then
    sortedPoints ((xs.zip ys).map (fun p =>
      let r := f p.1.v p.2.v
      ({ v := r.1, w := p.1.w }, r.2)))
  else
    let all := xs.flatMap (fun x => ys.map (fun y =>
      let r := f x.v y.v
      let w := roundWeight (x.w.mul y.w)
      (({ v := r.1, w := w.1 } : Point), r.2.or w.2)))
    let c := condense (all.map (·.1))
    (c.1, c.2.or (orFlags (all.map (·.2))))

/-- The exact product of three weights, rounded once. -/
def mul3 (a b c : Val) : Val × FFlags := roundWeight ((a.mul b).1.mul c)

/-- The points of DFMA (R183, R187): the classes of (da, db, dd) by their links, ordered by first member. -/
def pair3 (f : Val → Val → Val → Val × FFlags) (ab ac bc : Bool) (xs ys zs : List Point) : List Point × FFlags :=
  let joined := (ab && ac) || (ab && bc) || (ac && bc)
  if joined then
    sortedPoints ((List.range 8).map (fun p =>
      let x := xs.getD p { v := Val.zero, w := Val.zero }
      let y := ys.getD p x
      let z := zs.getD p x
      let r := f x.v y.v z.v
      ({ v := r.1, w := x.w }, r.2)))
  else
    let idx := List.range 8
    let nth := fun (l : List Point) i => l.getD i { v := Val.zero, w := Val.zero }
    let mk := fun (v : Val × FFlags) (w : Val × FFlags) => (({ v := v.1, w := w.1 } : Point), v.2.or w.2)
    let all : List (Point × FFlags) :=
      if ab then idx.flatMap (fun i => idx.map (fun j =>
        mk (f (nth xs i).v (nth ys i).v (nth zs j).v) (roundWeight ((nth xs i).w.mul (nth zs j).w))))
      else if ac then idx.flatMap (fun i => idx.map (fun j =>
        mk (f (nth xs i).v (nth ys j).v (nth zs i).v) (roundWeight ((nth xs i).w.mul (nth ys j).w))))
      else if bc then idx.flatMap (fun i => idx.map (fun j =>
        mk (f (nth xs i).v (nth ys j).v (nth zs j).v) (roundWeight ((nth xs i).w.mul (nth ys j).w))))
      else idx.flatMap (fun i => idx.flatMap (fun j => idx.map (fun l =>
        mk (f (nth xs i).v (nth ys j).v (nth zs l).v) (mul3 (nth xs i).w (nth ys j).w (nth zs l).w))))
    let c := condense (all.map (·.1))
    (c.1, c.2.or (orFlags (all.map (·.2))))

/-- Elements of a sorus register computed from the state before, its tag, and the flags (R186). -/
def sorusWrite (d : DReg) (tag : BitVec 8) (rs : List (Nat × List Point × FFlags)) (s : State) : Res :=
  let c := s.myCtx
  let c1 := rs.foldl (fun c r => c.setPoints d r.1 r.2.1) c
  .done ((s.withMyCtx (c1.setLtag d tag)).raise 0x3B (orFlags (rs.map (fun r => r.2.2))))

/-- A binary pairing instruction (R187). -/
def sorusBinary (f : Val → Val → Val × FFlags) (d a b : DReg) (e : VEntry) (s : State) : Res :=
  let c := s.myCtx
  if e.ill then .trap { cause := .illvtype } s else
  sorusWrite d (c.ltag a ||| c.ltag b) ((List.range (sorusN e)).map (fun i =>
    (i, pair2 f (linked (c.ltag a) (c.ltag b)) (c.points a i) (c.points b i)))) s

/-- DADD (R187). -/
def effDadd (d a b : DReg) (e : VEntry) (s : State) : Res := sorusBinary (fun x y => rne (x.add .rne y)) d a b e s
/-- DSUB (R187). -/
def effDsub (d a b : DReg) (e : VEntry) (s : State) : Res :=
  sorusBinary (fun x y => rne (x.add .rne y.negate)) d a b e s
/-- DMUL (R187). -/
def effDmul (d a b : DReg) (e : VEntry) (s : State) : Res := sorusBinary (fun x y => rne (x.mul y)) d a b e s
/-- DMIN (R187). -/
def effDmin (d a b : DReg) (e : VEntry) (s : State) : Res := sorusBinary (Val.pick false) d a b e s
/-- DMAX (R187). -/
def effDmax (d a b : DReg) (e : VEntry) (s : State) : Res := sorusBinary (Val.pick true) d a b e s

/-- DFMA (R187): the old dd is a third operand. -/
def effDfma (d a b : DReg) (e : VEntry) (s : State) : Res :=
  let c := s.myCtx
  if e.ill then .trap { cause := .illvtype } s else
  let ta := c.ltag a
  let tb := c.ltag b
  let td := c.ltag d
  sorusWrite d ((ta ||| tb) ||| td) ((List.range (sorusN e)).map (fun i =>
    (i, pair3 (fun x y z => rne (Val.fma .rne x y z)) (linked ta tb) (linked ta td) (linked tb td)
      (c.points a i) (c.points b i) (c.points d i)))) s

/-- The checks of vector operands of sorus instructions (R186): one register each, of span at most 1. -/
def sorusCheck (c : Ctx) (e : VEntry) (rs : List VReg) : Option Trap :=
  match vecCheck c e (rs.map (fun r => tagType (c.tag r))) [] (rs.map c.span) with
  | some t => some t
  | none => if rs.any (fun r => decide (e.w < e.g * c.regWidth r)) then some (e.illegal 8) else none

/-- A value read from a vector element by a sorus instruction (R186). -/
def sorusElem (c : Ctx) (r : VReg) (i : Nat) : Val × FFlags := rne (c.elemVal r i)

/-- DAFF (R188). -/
def effDaff (xs : BitVec 1) (d a : DReg) (b : BitVec 5) (e : VEntry) (s : State) : Res :=
  let c := s.myCtx
  vChecked (sorusCheck c e (if xs = 1 then [] else [b, b + 1])) s <|
  let coef := fun (n i : Nat) =>
    if xs = 1 then (f32Val ((e.op n).toNat % 2 ^ 32), FFlags.none) else sorusElem c (if n = 0 then b else b + 1) i
  sorusWrite d (c.ltag a) ((List.range (sorusN e)).map (fun i =>
    let α := coef 0 i
    let β := coef 1 i
    let r := sortedPoints ((c.points a i).map (fun p =>
      let v := rne (Val.fma .rne α.1 p.v β.1)
      ({ v := v.1, w := p.w }, v.2)))
    (i, r.1, (α.2.or β.2).or r.2))) s

/-- DPT (R189). -/
def effDpt (d : DReg) (a : VReg) (e : VEntry) (s : State) : Res :=
  let c := s.myCtx
  vChecked (sorusCheck c e [a]) s <|
  sorusWrite d 0 ((List.range (sorusN e)).map (fun i =>
    let x := sorusElem c a i
    (i, List.replicate 8 { v := x.1, w := .fin false 1 8 }, x.2))) s

/-- A weight as DSET writes it (R189). -/
def setWeight (x : Val) : Val × FFlags :=
  match x with
  | .nan _ => (Val.zero, { iv := true })
  | .inf _ => (Val.zero, { iv := true })
  | .fin neg n d => if n = 0 then (Val.zero, .none) else if neg then (Val.zero, { iv := true }) else (.fin neg n d, .none)

/-- DSET (R189): one point; the others and the tag are unchanged. -/
def effDset (d : DReg) (a : VReg) (b : BitVec 5) (e : VEntry) (s : State) : Res :=
  let c := s.myCtx
  vChecked (sorusCheck c e [a, a + 1]) s <|
  let rs := (List.range (sorusN e)).map (fun i =>
    let x := sorusElem c a i
    let y := sorusElem c (a + 1) i
    let w := setWeight y.1
    (i, ({ v := x.1, w := w.1 } : Point), (x.2.or y.2).or w.2))
  .done ((s.withMyCtx (rs.foldl (fun c r => c.setPoint d r.1 b.toNat r.2.1) c)).raise 0x3B (orFlags (rs.map (fun r => r.2.2))))

/-- Results of an extraction to one vector register (R186). -/
def sorusOut (d : VReg) (f : Nat → Val × FFlags) (e : VEntry) (s : State) : State :=
  let c := s.myCtx
  s.writeResults d (c.regWidth d) 0x3B ((List.range (sorusN e)).map (fun i => (i, e.toDest (c.regType d) false (f i))))

/-- DGET (R189). -/
def effDget (d : VReg) (a : DReg) (b : BitVec 5) (e : VEntry) (s : State) : Res :=
  let c := s.myCtx
  vChecked (sorusCheck c e [d, d + 1]) s <|
  .done (sorusOut (d + 1) (fun i => ((c.point a i b.toNat).w, .none)) e
    (sorusOut d (fun i => ((c.point a i b.toNat).v, .none)) e s))

/-- DTAG (R189): it does not depend on VTYPE. -/
def effDtag (d : DReg) (e : VEntry) (s : State) : Res :=
  .done (s.withMyCtx (s.myCtx.setLtag d ((e.op 0).setWidth 8)))

/-- A running step of a sum rounded by RNE. -/
def rneStep (acc : Val × FFlags) (x : Val × FFlags) : Val × FFlags := let z := rne x; (z.1, acc.2.or z.2)

/-- DMOM of one element (R190); S, a sum of weights, saturates by R179 (notes/assumptions/26). -/
def moment (k : Nat) (ps : List Point) : Val × FFlags :=
  let live := ps.filter (fun p => p.w.positive)
  let S := sumWeights (live.map (·.w))
  let M := live.foldl (fun acc p => rneStep acc (Val.fma .rne p.w p.v acc.1)) (Val.zero, FFlags.none)
  let mu := rne (M.1.div S.1)
  let f0 := (S.2.or M.2).or mu.2
  if k = 1 then (mu.1, f0)
  else
    let C := live.foldl (fun acc p =>
      let d := rne (p.v.add .rne mu.1.negate)
      let t := (List.range (k - 1)).foldl (fun t _ => rneStep t (t.1.mul d.1)) (d.1, acc.2.or d.2)
      rneStep (acc.1, t.2) (Val.fma .rne p.w t.1 acc.1)) (Val.zero, FFlags.none)
    let r := rne (C.1.div S.1)
    (r.1, (f0.or C.2).or r.2)

/-- DMOM (R190). -/
def effDmom (d : VReg) (a : DReg) (b : BitVec 5) (e : VEntry) (s : State) : Res :=
  let c := s.myCtx
  vChecked (sorusCheck c e [d]) s <| .done (sorusOut d (fun i => moment b.toNat (c.points a i)) e s)

/-- The copy of R191: points of weight above zero, sorted, each with its cumulative weight; and W with its flags. -/
def cumulative (ps : List Point) : List (Point × Val) × Val × FFlags :=
  let live := ptSort (ps.filter (fun p => p.w.positive))
  let r := live.foldl (fun acc p =>
    let c := roundWeight (acc.2.1.add .rne p.w)
    (acc.1 ++ [(p, c.1)], c.1, acc.2.2.or c.2)) (([] : List (Point × Val)), Val.zero, FFlags.none)
  r

/-- DQNT of one element (R191). Where the result is NaN the roundings that form W and c_m raise no flag
(notes/assumptions/102). -/
def quantile (x : Val) (ps : List Point) : Val × FFlags :=
  let c := cumulative ps
  if x.isNan ∨ x.lt false Val.zero ∨ (Val.fin false 1 1).lt false x ∨ c.1 = [] then (.nan false, { iv := true })
  else
    let T := rne (x.mul c.2.1)
    (((c.1.find? (fun p => p.2.ge T.1)).map (fun p => p.1.v)).getD (.nan false), c.2.2.or T.2)

/-- DCDF of one element (R191). Where the result is NaN the roundings that form W and c_m raise no flag
(notes/assumptions/102). -/
def cdf (x : Val) (ps : List Point) : Val × FFlags :=
  let c := cumulative ps
  if x.isNan then (.nan false, .none)
  else if c.1 = [] then (.nan false, { iv := true })
  else
    let below := c.1.filter (fun p => !p.1.v.isNan && !x.lt false p.1.v)
    let r := rne ((((below.getLast?).map (·.2)).getD Val.zero).div c.2.1)
    (r.1, c.2.2.or r.2)

/-- DQNT (R191). -/
def effDqnt (d : VReg) (a : DReg) (b : VReg) (e : VEntry) (s : State) : Res :=
  let c := s.myCtx
  vChecked (sorusCheck c e [d, b]) s <|
  .done (sorusOut d (fun i => let x := sorusElem c b i; let r := quantile x.1 (c.points a i); (r.1, x.2.or r.2)) e s)
/-- DCDF (R191). -/
def effDcdf (d : VReg) (a : DReg) (b : VReg) (e : VEntry) (s : State) : Res :=
  let c := s.myCtx
  vChecked (sorusCheck c e [d, b]) s <|
  .done (sorusOut d (fun i => let x := sorusElem c b i; let r := cdf x.1 (c.points a i); (r.1, x.2.or r.2)) e s)

/-- The length of a sorus image (R192). -/
def sorusImageLen : Nat := 8256

/-- The parts of an image that lie where accesses do (02_machine R35): the whole, or its 4-byte words, each an element of
a vector access (R192), where the image meets the edge of a window or of the address space. -/
def imageParts (c : Ctx) (a n : Nat) : List (Nat × Nat) :=
  let whole :=
    match c.windowOf a with
    | some (i, off) => decide (off + n ≤ (if i then c.isBytes else c.osBytes))
    | none => !touchesWindows a n && decide (a + n ≤ 2 ^ 57)
  if whole then [(a, n)] else (List.range (n / 4)).map (fun j => (a + 4 * j, 4))

/-- Where the parts lie, or the page fault of the lowest (R99). -/
def State.locateParts (s : State) (w : Who) (acc : Nat) (need : Need) : List (Nat × Nat) → MemRes (List (Nat × Region))
  | [] => .ok []
  | p :: rest =>
    (s.locate w acc need p.1 p.2).bind (fun r =>
      (s.locateParts w acc need rest).bind (fun rs => .ok ((p.1, r) :: rs)))

/-- The places of a region; none of a window. -/
def Region.places : Region → List (Place × Nat × Nat)
  | .pages ps => ps
  | .window _ _ => []

/-- The attribute fault of a part: a window read or written the wrong way (02_machine R35), or a page kind. -/
def partAttr (acc : Nat) (kinds : PageKind → Bool) (p : Nat × Region) : Option Trap :=
  match p.2 with
  | .window inbound _ => if inbound = decide (acc = 2) then some (pageAttr acc p.1) else none
  | .pages ps => attrCheck acc kinds ps

/-- The parts of a whole image with the checks that loads and stores share, each over all of it (R192, R99). Its faults have
ELEM 0 (notes/assumptions/106). -/
def State.imageAt (s : State) (acc : Nat) (need : Need) (kinds : PageKind → Bool) (a n : Nat) :
    MemRes (List (Nat × Region)) :=
  let w := s.who s.cur
  (s.locateParts w acc need (imageParts s.myCtx a n)).bind (fun rs =>
    orTrap (rs.findSome? (partAttr acc kinds)) <|
    orTrap (rs.findSome? (fun p => alignCheck acc p.1 4 p.2.places)) (.ok rs))

/-- The bytes of an image read (R192). -/
def State.loadImage (s : State) (a n : Nat) : MemRes (List Byte) :=
  let w := s.who s.cur
  (s.imageAt 1 .read loadKinds a n).bind (fun rs =>
    let ps := rs.flatMap (fun p => p.2.places)
    s.afterSends w.core ps <| orTrap (s.turnCheck w.core 1 ps) <| orTrap (s.eccCheck w.core 1 ps) <|
    .ok (rs.flatMap (fun p =>
      match p.2 with
      | .window inbound off => s.myCtx.windowBytes inbound off (if rs.length = 1 then n else 4)
      | .pages ps => ps.flatMap (fun q => s.placeBytes q.1 q.2.2))))

/-- The writing of an image (R192). -/
def State.storeImage (s : State) (a : Nat) (bs : List Byte) : MemRes State :=
  let w := s.who s.cur
  (s.imageAt 2 .write storeKinds a bs.length).bind (fun rs =>
    let ps := rs.flatMap (fun p => p.2.places)
    match s.fullAt w.core .none false (granSplit ps) (s.pending w.core + s.underWay w.core) with
    | some va => .trap { cause := .turnfull, acc := 2, addr := BitVec.ofNat 64 va }
    | none =>
      if s.anyMigrating ps || s.writesBehind w.core false ps then .stall
      else .ok (rs.foldl (fun s p =>
        let part := if rs.length = 1 then bs else (bs.drop (p.1 - a)).take 4
        s.writeRegion w .none false p.1 part p.2) s))

/-- The words of an image under a pure task's rules (17_reuse R395): the first that fails is reported. -/
def pureImage (write : Bool) (a n : Nat) (k : State → Res) (s : State) : Res :=
  match s.me.checkedBy with
  | none => k s
  | some p =>
    match (List.range (n / 4)).findSome? (fun j =>
        (s.accessDetail (s.who s.cur) p write (a + 4 * j) 4).map (fun d => (d, a + 4 * j))) with
    | none => k s
    | some x => violation x.1 (BitVec.ofNat 64 x.2) s p k

/-- DLD (R192): all 128 elements as bits, with the tag. -/
def effDld (d : DReg) (e : VEntry) (s : State) : Res :=
  if e.ill then .trap { cause := .illvtype } s else
  let a := (e.op 0).toNat
  pureImage false a sorusImageLen (fun s =>
    (s.loadImage a sorusImageLen).elim s (fun bs =>
      let c := s.myCtx
      let words := (List.range 2048).map (fun j => BitVec.ofNat 32 (natOfBytes ((bs.drop (64 + 4 * j)).take 4)))
      let c1 := { c with sorus := ssetList 0 c.sorus (d.toNat * 2048) words }
      .done (s.withMyCtx (c1.setLtag d (bs.getD 0 0))))) s

/-- The image of a sorus register (R192). -/
def sorusImage (c : Ctx) (d : DReg) : List Byte :=
  padTo 64 [c.ltag d] ++ (sgetList 0 c.sorus (d.toNat * 2048) 2048).flatMap (fun w => bytesOfNat 4 w.toNat)

/-- DST (R192). -/
def effDst (d : DReg) (e : VEntry) (s : State) : Res :=
  if e.ill then .trap { cause := .illvtype } s else
  let a := (e.op 0).toNat
  pureImage true a sorusImageLen (fun s => (s.storeImage a (sorusImage s.myCtx d)).elim s .done) s

end Sys2Proof.Machine
end

