-- ==== Sys2Proof/Machine/VMask.lean ====
section
/-! DEFINITION. VCMP: comparisons, mask logic and VMERGE (06_vector R129–R131). -/

namespace Sys2Proof.Machine

/-- A comparison (R129): the relation of the exact values; nan is the answer for an unordered pair, and signals says
whether a quiet NaN raises IV. -/
def vecCompare (rel : Val → Val → Bool) (nan signals : Bool) (xs : BitVec 1) (k : MReg) (d : MReg) (a : VReg)
    (b : BitVec 5) (e : VEntry) (s : State) : Res :=
  let c := s.myCtx
  let y := src2 e xs b
  vChecked (vecCheck c e (tagType (c.tag a) :: c.src2Codes y) [k, d] (c.span a :: c.src2Spans y)) s <|
  let rs := (c.actives e k).map (fun i =>
    let p := c.srcVal e a i
    let q := c.src2Val e a y i
    let un := p.1.isNan || q.1.isNan
    (i, if un then nan else rel p.1 q.1,
      (p.2.or q.2).or { iv := p.1.sig || q.1.sig || (un && signals) }))
  .done ((s.withMyCtx (c.setMaskBits d (rs.map (fun r => (r.1, r.2.1))))).raise 0x31 (orFlags (rs.map (·.2.2))))

/-- VCEQ (R129). -/
def effVceq (xs : BitVec 1) (k : MReg) (d : MReg) (a : VReg) (b : BitVec 5) (e : VEntry) (s : State) : Res :=
  vecCompare Val.eqv false false xs k d a b e s
/-- VCNE (R129). -/
def effVcne (xs : BitVec 1) (k : MReg) (d : MReg) (a : VReg) (b : BitVec 5) (e : VEntry) (s : State) : Res :=
  vecCompare (fun x y => !x.eqv y) true false xs k d a b e s
/-- VCLT (R129). -/
def effVclt (xs : BitVec 1) (k : MReg) (d : MReg) (a : VReg) (b : BitVec 5) (e : VEntry) (s : State) : Res :=
  vecCompare (fun x y => x.lt false y) false true xs k d a b e s
/-- VCLE (R129). -/
def effVcle (xs : BitVec 1) (k : MReg) (d : MReg) (a : VReg) (b : BitVec 5) (e : VEntry) (s : State) : Res :=
  vecCompare (fun x y => !y.lt false x) false true xs k d a b e s
/-- VCGT (R129). -/
def effVcgt (xs : BitVec 1) (k : MReg) (d : MReg) (a : VReg) (b : BitVec 5) (e : VEntry) (s : State) : Res :=
  vecCompare (fun x y => y.lt false x) false true xs k d a b e s
/-- VCGE (R129). -/
def effVcge (xs : BitVec 1) (k : MReg) (d : MReg) (a : VReg) (b : BitVec 5) (e : VEntry) (s : State) : Res :=
  vecCompare (fun x y => !x.lt false y) false true xs k d a b e s

/-- Mask logic (R130): every bit below VL. -/
def maskLogic (f : Bool → Bool → Bool) (d a b : MReg) (e : VEntry) (s : State) : Res :=
  let c := s.myCtx
  vChecked (vecCheck c e [] [d, a, b] []) s <|
  .done (s.withMyCtx (c.setMaskBits d ((List.range e.vl).map (fun i => (i, f (c.maskBit a i) (c.maskBit b i))))))

/-- MAND (R130). -/
def effMand (d a b : MReg) (e : VEntry) (s : State) : Res := maskLogic (fun x y => x && y) d a b e s
/-- MOR (R130). -/
def effMor (d a b : MReg) (e : VEntry) (s : State) : Res := maskLogic (fun x y => x || y) d a b e s
/-- MXOR (R130). -/
def effMxor (d a b : MReg) (e : VEntry) (s : State) : Res := maskLogic (fun x y => x != y) d a b e s
/-- MNOT (R130). -/
def effMnot (d a : MReg) (e : VEntry) (s : State) : Res := maskLogic (fun x _ => !x) d a 0 e s

/-- VMERGE (R131): MASK selects; every element below VL is written, by the kind of the source selected (R123). -/
def effVmerge (xs : BitVec 1) (k : MReg) (d a : VReg) (b : BitVec 5) (e : VEntry) (s : State) : Res :=
  let c := s.myCtx
  let y := src2 e xs b
  vChecked (vecCheck c e ([tagType (c.tag d), tagType (c.tag a)] ++ c.src2Codes y) [k]
    ([c.span d, c.span a] ++ c.src2Spans y)) s <|
  .done (s.writeResults d (c.regWidth d) 0x31 ((List.range e.vl).map (fun i =>
    (i, if c.maskBit k i then e.toDest (c.regType d) (c.intReg a) (c.srcVal e a i)
        else e.toDest (c.regType d) (c.src2Int a y) (c.src2Val e a y i)))))

end Sys2Proof.Machine
end

