-- ==== Sys2Proof/Machine/VPerm.lean ====
section
/-! DEFINITION. VPERM: slides, shuffles, compression, and moves between scalars and elements (06_vector R140–R143). -/

namespace Sys2Proof.Machine

/-- A permute that gives vd the tag of va (R140–R142): each pair is an element of vd and the bits it receives. -/
def permWrite (d a : VReg) (xs : Ctx → List (Nat × Nat)) (s : State) : Res :=
  let c := s.myCtx
  .done (s.withMyCtx ((c.setTag d (c.tag a)).setElems d (c.regWidth a) (xs c)))

/-- VSLIDEUP (R140). -/
def effVslideup (k : MReg) (d a : VReg) (e : VEntry) (s : State) : Res :=
  let c := s.myCtx
  vChecked (vecCheck c e [] [k] [c.spanAs d a, c.span a]) s <|
  let n := (e.op 0).toNat
  permWrite d a (fun c => (c.actives e k).map (fun i =>
    (i, if n ≤ i then c.src e a (c.regWidth a) (i - n) else c.fill (c.regWidth a)))) s

/-- VSLIDEDN (R140). -/
def effVslidedn (k : MReg) (d a : VReg) (e : VEntry) (s : State) : Res :=
  let c := s.myCtx
  vChecked (vecCheck c e [] [k] [c.spanAs d a, c.span a]) s <|
  let n := (e.op 0).toNat
  permWrite d a (fun c => (c.actives e k).map (fun i => (i, c.src e a (c.regWidth a) (i + n)))) s

/-- VSHUF (R141): by the bits of vb's elements, or by one scalar index of 64 bits. -/
def effVshuf (xs : BitVec 1) (k : MReg) (d a : VReg) (b : BitVec 5) (e : VEntry) (s : State) : Res :=
  let c := s.myCtx
  let y := src2 e xs b
  vChecked (vecCheck c e [] [k] ([c.spanAs d a, c.span a] ++ c.src2Spans y)) s <|
  let idx := fun (c : Ctx) i => match y with
    | .vec r => c.src e r (c.regWidth r) i
    | .scalar x => x.toNat
  permWrite d a (fun c => (c.actives e k).map (fun i => (i, c.src e a (c.regWidth a) (idx c i)))) s

/-- VCOMPRESS (R142): the mask selects sources and does not gate writes. -/
def effVcompress (k : MReg) (d a : VReg) (e : VEntry) (s : State) : Res :=
  let c := s.myCtx
  vChecked (vecCheck c e [] [k] [c.spanAs d a, c.span a]) s <|
  permWrite d a (fun c =>
    let xs := (c.actives e k).map (fun i => c.src e a (c.regWidth a) i)
    (List.range xs.length).map (fun j => (j, xs.getD j 0))) s

/-- VSPLAT (R143). -/
def effVsplat (k : MReg) (d : VReg) (e : VEntry) (s : State) : Res :=
  let c := s.myCtx
  vChecked (vecCheck c e [] [k] [c.span d]) s <|
  let w := c.regWidth d
  .done (s.withMyCtx (c.setElems d w ((c.actives e k).map (fun i => (i, (e.op 0).toNat % 2 ^ w)))))

/-- VINS (R143). -/
def effVins (d : VReg) (e : VEntry) (s : State) : Res :=
  let c := s.myCtx
  vChecked (vecCheck c e [] [] [c.span d]) s <|
  let w := c.regWidth d
  let n := (e.op 1).toNat
  .done (if n < e.vl then s.withMyCtx (c.setElem d w n ((e.op 0).toNat % 2 ^ w)) else s)

/-- VEXT (R143): sign-extended when va's type is a Z type. -/
def effVext (d : SReg) (a : VReg) (e : VEntry) (s : State) : Res :=
  let c := s.myCtx
  vChecked (vecCheck c e [] [] [c.span a]) s <|
  let w := c.regWidth a
  let x := BitVec.ofNat 64 (c.src e a w (e.op 0).toNat)
  .done (s.writeS d (if (c.regType a).isZ then sext w x else x))

end Sys2Proof.Machine
end

