-- ==== Sys2Proof/Machine/VRed.lean ====
section
/-! DEFINITION. VRED (06_vector R118, R144; 04_numbers R81). -/

namespace Sys2Proof.Machine

/-- Comb of R81: none stands for ID. -/
def comb {α : Type} (f : α → α → α) : Option α → Option α → Option α
  | none, q => q
  | p, none => p
  | some p, some q => some (f p q)

/-- A value with the flags of its making. -/
abbrev FVal := Val × FFlags

/-- p ∘ q of a float sum (R81). -/
def sumStep (r : RMode) (p q : FVal) : FVal :=
  let a := p.1.add r q.1
  let z := roundF32 r a.1
  (z.1, ((p.2.or q.2).or a.2).or z.2)

/-- A stage of the tree over the 16 lanes of a frond: place q of the stage t takes in place q + 2^t (R81). -/
def treeStage {α : Type} (f : α → α → α) (t : Nat) (y : List (Option α)) : List (Option α) :=
  (List.range 16).map (fun q =>
    if q % 2 ^ (t + 1) = 0 then comb f (y.getD q none) (y.getD (q + 2 ^ t) none) else y.getD q none)

/-- The sum over a frond: y[0] after stage 3 (R81). -/
def frondTree {α : Type} (f : α → α → α) (y : List (Option α)) : Option α :=
  ([0, 1, 2, 3].foldl (fun y t => treeStage f t y) y).getD 0 none

/-- The order of R81 over strips, fronds and lanes; x gives an element, or ID. -/
def redOrder {α : Type} (f : α → α → α) (strips fronds : Nat) (x : Nat → Option α) : Option α :=
  (List.range strips).foldl (fun total s =>
    comb f total ((List.range fronds).foldl (fun st fr =>
      comb f st (frondTree f ((List.range 16).map (fun q => x (s * (16 * fronds) + fr * 16 + q))))) none)) none

/-- Where a reduction's results go: positions written whatever the mask and VL (R144). -/
def redWrite (d : VReg) (rs : List (Nat × Nat × FFlags)) (f : FFlags) (s : State) : Res :=
  .done ((s.writeResults d (s.myCtx.regWidth d) 0x38 rs).raise 0x38 f)

/-- The checks of a reduction. -/
def redCheck (c : Ctx) (e : VEntry) (k : MReg) (d a : VReg) (values : Bool) : Option Trap :=
  vecCheck c e (if values then [tagType (c.tag d), tagType (c.tag a)] else []) [k] [c.span d, c.span a]

/-- VRED.SUM (R144): float kind in the order of R81, integer kind exact. -/
def effVredSum (k : MReg) (d a : VReg) (e : VEntry) (s : State) : Res :=
  let c := s.myCtx
  vChecked (redCheck c e k d a true) s <|
  if c.intReg a then
    let i := ((c.actives e k).map (fun i => (c.srcVal e a i).1.toInt)).foldl (· + ·) 0
    redWrite d [(0, e.toDest (c.regType d) true (.ofInt i, .none))] .none s
  else
    let t := redOrder (sumStep e.rm) (ceilDiv e.vl (16 * c.fronds)) c.fronds (fun i =>
      if c.active e k i then
        let v := c.srcVal e a i
        let z := roundF32 .rne v.1
        some (z.1, v.2.or z.2)
      else none)
    redWrite d [(0, e.toDest (c.regType d) false (t.getD (Val.zero, .none)))] .none s

/-- The largest or smallest value of a type of integer kind (R118). -/
def intExtreme (t : EType) (largest : Bool) : Val :=
  match t with
  | .int s w => .ofInt (if largest then (intBounds s w).2 else (intBounds s w).1)
  | _ => .ofInt (if largest then 1 else -1)

/-- The identity of MIN or MAX (R118): of a scaled register, whose values are of float kind, an infinity. -/
def minMaxIdentity (c : Ctx) (a : VReg) (max : Bool) : Val :=
  if c.intReg a then intExtreme (c.regType a) (!max) else .inf max

/-- VRED.MIN and VRED.MAX: exact, by R73. -/
def redMinMax (max : Bool) (k : MReg) (d a : VReg) (e : VEntry) (s : State) : Res :=
  let c := s.myCtx
  vChecked (redCheck c e k d a true) s <|
  let t := ((c.actives e k).map (fun i => c.srcVal e a i)).foldl (fun acc v =>
    match acc with
    | none => some (match v.1 with | .nan g => (.nan false, v.2.or { iv := g }) | _ => v)
    | some p => let r := Val.pick max p.1 v.1; some (r.1, (p.2.or v.2).or r.2)) (none : Option FVal)
  redWrite d [(0, e.toDest (c.regType d) (c.intReg a) (t.getD (minMaxIdentity c a max, .none)))] .none s

/-- VRED.MIN (R144). -/
def effVredMin (k : MReg) (d a : VReg) (e : VEntry) (s : State) : Res := redMinMax false k d a e s
/-- VRED.MAX (R144). -/
def effVredMax (k : MReg) (d a : VReg) (e : VEntry) (s : State) : Res := redMinMax true k d a e s

/-- A reduction over stored bits; the result is placed by the rule of R126. It takes no ILLFMT (03_encoding R58;
notes/assumptions/105). -/
def redBits (f : Nat → Nat → Nat) (one : Bool) (k : MReg) (d a : VReg) (e : VEntry) (s : State) : Res :=
  let c := s.myCtx
  vChecked (redCheck c e k d a false) s <|
  let w := c.regWidth a
  let x := ((c.actives e k).map (fun i => c.src e a w i)).foldl f (if one then 2 ^ w - 1 else 0)
  redWrite d [(0, x % 2 ^ c.regWidth d, .none)] .none s

/-- VRED.AND (R144). -/
def effVredAnd (k : MReg) (d a : VReg) (e : VEntry) (s : State) : Res := redBits (fun x y => x &&& y) true k d a e s
/-- VRED.OR (R144). -/
def effVredOr (k : MReg) (d a : VReg) (e : VEntry) (s : State) : Res := redBits (fun x y => x ||| y) false k d a e s
/-- VRED.XOR (R144). -/
def effVredXor (k : MReg) (d a : VReg) (e : VEntry) (s : State) : Res := redBits (fun x y => x ^^^ y) false k d a e s

/-- VRED.MINI and VRED.MAXI: the extreme value and the lowest index of it; NaN elements are skipped (R144). -/
def redIndex (max : Bool) (k : MReg) (d a : VReg) (e : VEntry) (s : State) : Res :=
  let c := s.myCtx
  vChecked (redCheck c e k d a true) s <|
  let vs := (c.actives e k).map (fun i => (i, c.srcVal e a i))
  let best := vs.foldl (fun acc v =>
    if v.2.1.isNan then acc else
    match acc with
    | none => some (v.1, v.2.1)
    | some p =>
      if (if max then p.2.lt true v.2.1 else v.2.1.lt true p.2) then some (v.1, v.2.1) else some p)
    (none : Option (Nat × Val))
  let f := orFlags (vs.map (fun v => v.2.2.or { iv := v.2.1.sig }))
  let val := (best.map (·.2)).getD (minMaxIdentity c a max)
  let idx : Int := (best.map (fun p => (p.1 : Int))).getD (-1)
  redWrite d [(0, e.toDest (c.regType d) (c.intReg a) (val, .none)),
              (1, e.toDest (c.regType d) true (.ofInt idx, .none))] f s

/-- VRED.MINI (R144). -/
def effVredMini (k : MReg) (d a : VReg) (e : VEntry) (s : State) : Res := redIndex false k d a e s
/-- VRED.MAXI (R144). -/
def effVredMaxi (k : MReg) (d a : VReg) (e : VEntry) (s : State) : Res := redIndex true k d a e s

end Sys2Proof.Machine
end

