-- ==== Sys2Proof/Machine/VScan.lean ====
section
/-! DEFINITION. VSCAN (07_matrix R161–R165; 04_numbers R82, R83). -/

namespace Sys2Proof.Machine

/-- Comb of R82 with flags: none stands for ID. -/
def combF {α : Type} (f : α → α → α × FFlags) : Option α → Option α → Option α × FFlags
  | none, q => (q, .none)
  | p, none => (p, .none)
  | some p, some q => let r := f p q; (some r.1, r.2)

/-- A stage of the scan within a frond (R82): every place uses the values of the stage before. -/
def scanStage {α : Type} (f : α → α → α × FFlags) (t : Nat) (y : List (Option α)) : List (Option α) × FFlags :=
  let z := (List.range 16).map (fun q =>
    if 2 ^ t ≤ q then combF f (y.getD (q - 2 ^ t) none) (y.getD q none) else (y.getD q none, FFlags.none))
  (z.map (·.1), orFlags (z.map (·.2)))

/-- The four stages of a frond. -/
def scanFrond {α : Type} (f : α → α → α × FFlags) (y : List (Option α)) : List (Option α) × FFlags :=
  [0, 1, 2, 3].foldl (fun p t => let r := scanStage f t p.1; (r.1, p.2.or r.2)) (y, .none)

/-- The scan over the fronds of all strips (R82): the carry, the outputs so far by index, the flags. -/
def scanOrder {α : Type} (f : α → α → α × FFlags) (x : Nat → Option α) (c : Option α) (n : Nat) :
    Option α × List (Nat × Option α) × FFlags :=
  (List.range n).foldl (fun acc j =>
    let base := j * 16
    let y := scanFrond f ((List.range 16).map (fun q => x (base + q)))
    let out := (List.range 16).map (fun q => (base + q, combF f acc.1 (y.1.getD q none)))
    let c' := combF f acc.1 (y.1.getD 15 none)
    (c'.1, acc.2.1 ++ out.map (fun o => (o.1, o.2.1)),
      ((acc.2.2.or y.2).or (orFlags (out.map (fun o => o.2.2)))).or c'.2)) (c, [], .none)

/-- The number of fronds of all strips that VL reaches (R82). -/
def scanFronds (c : Ctx) (e : VEntry) : Nat := ceilDiv e.vl (16 * c.fronds) * c.fronds

/-- The form of a scan. -/
inductive ScanForm where
  | add | max | min
deriving DecidableEq, Repr

/-- p ∘ q of float ADD, MAX and MIN (R82). -/
def scanFloat (m : ScanForm) (r : RMode) (p q : Val) : Val × FFlags :=
  match m with
  | .add => let a := p.add r q; let z := roundF32 r a.1; (z.1, a.2.or z.2)
  | .max => Val.pick true p q
  | .min => Val.pick false p q

/-- p ∘ q of integer ADD, MAX and MIN: exact (R82). -/
def scanInt (m : ScanForm) (p q : Val) : Val × FFlags :=
  match m with
  | .add => Val.add .rne p q
  | .max => Val.pick true p q
  | .min => Val.pick false p q

/-- p ∘ q of LIN (R83). -/
def scanLin (p q : Val × Val) : (Val × Val) × FFlags :=
  let a := p.1.mul q.1
  let a' := roundF32 .rne a.1
  let b := Val.fma .rne q.1 p.2 q.2
  let b' := roundF32 .rne b.1
  ((a'.1, b'.1), ((a.2.or a'.2).or b.2).or b'.2)

/-- Whether va's type is a Z or S1 type (R163). -/
def signedCarry (t : EType) : Bool := t.isZ || decide (t = .sign)

/-- A carry of 64 bits into an integer scan (R163). -/
def carryWord (t : EType) (x : Word) : Val := .ofInt (if signedCarry t then x.toInt else (x.toNat : Int))

/-- A carry of 32 bits into a float scan or a LIN (R163). -/
def carryF32 (x : Word) : Val := f32Val (x.toNat % 2 ^ 32)

/-- Element 0 of a vector register as a carry (R163); into an integer scan it is exact when the register's type is of
integer or sign kind, scaled or not. -/
def carryElem (c : Ctx) (e : VEntry) (int : Bool) (a r : VReg) : Val × FFlags :=
  let v := c.elemVal r 0
  if !int then let z := roundF32 e.rm v.1; (z.1, v.2.or z.2)
  else if (c.regType r).integral then v
  else
    let sgn := signedCarry (c.regType a)
    let q := encodeInt sgn 64 false true e.rm v.1
    ((EType.int sgn 64).decode q.1, v.2.or q.2)

/-- The head message of a carry-in channel: none while the scan must wait; the trap of a vector message (R163, R171). -/
def carryMsg (s : State) (ch : Nat) : Option (Option Word) :=
  match (s.chan ch).bind Chan.ready with
  | none => none
  | some m => some (if m.scalar then some (m.vals.getD 0 0) else none)

/-- The carry-in of a scan and its flags; none is ID (R163). -/
def carryIn (s : State) (e : VEntry) (int : Bool) (a : VReg) (cin : CarryIn) : Option (Val × FFlags) :=
  let c := s.myCtx
  let word := fun (x : Word) => if int then carryWord (c.regType a) x else carryF32 x
  match cin with
  | .none => none
  | .scalar _ => some (word (e.op 0), .none)
  | .vector r => some (carryElem c e int a r)
  | .channel ch => some (word (((carryMsg s ch.toNat).getD none).getD 0), .none)

/-- The waits and the trap of the channels of a scan (R163, R165, R171). -/
def scanChannels (cin : CarryIn) (cout : CarryOut) (k : State → Res) (s : State) : Res :=
  let inOk := match cin with
    | .channel ch => (match carryMsg s ch.toNat with | none => some (Res.wait false s) | some none => some (.trap chanlen s) | some (some _) => none)
    | _ => none
  match inOk with
  | some r => r
  | none =>
    match cout with
    | .channel ch =>
      (match s.chan ch.toNat with
        | some x => if x.free = 0 ∨ s.outstanding then .wait false s else k s
        | none => .wait false s)
    | _ => k s

/-- A scan that names a channel is an impure instruction (17_reuse R396). -/
def scanPure (cin : CarryIn) (cout : CarryOut) (k : State → Res) (s : State) : Res :=
  match cin, cout with
  | .channel _, _ => impureOnly 6 k s
  | _, .channel _ => impureOnly 6 k s
  | _, _ => k s

/-- The delivery of a carry-out: the bits that a scalar register receives, and the value for a vector register
(R164). -/
def deliverCarry (e : VEntry) (cin : CarryIn) (cout : CarryOut) (int : Bool) (x : Word) (v : Val) (s : State) : State :=
  let s1 := match cin with
    | .channel ch => s.modChan ch.toNat Chan.pop
    | _ => s
  match cout with
  | .none => s1
  | .scalar r => s1.writeS r x
  | .vector r =>
    let c := s1.myCtx
    let q := toType (c.regType r) int e.sat e.rm v
    (s1.withMyCtx (c.setElem r (c.regWidth r) 0 q.1)).raise 0x39 q.2
  | .channel ch => s1.modChan ch.toNat (fun c => c.push (scalarMsg x))

/-- The type codes and spans of the carries (R162). -/
def carryRegs (cin : CarryIn) (cout : CarryOut) : List VReg := (carryInReg cin).toList ++ (carryOutReg cout).toList

/-- The outputs of a scan at its active elements, converted to vd's type (R164). -/
def scanOutputs (c : Ctx) (e : VEntry) (k : MReg) (d : VReg) (int : Bool) (out : List (Nat × Option Val)) :
    List (Nat × Nat × FFlags) :=
  out.filterMap (fun o =>
    match o.2 with
    | some v => if c.active e k o.1 then some (o.1, toType (c.regType d) int e.sat e.rm v) else none
    | none => none)

/-- The identity that ID is delivered as (R82, R118). -/
def scanIdentity (c : Ctx) (a : VReg) (int : Bool) (m : ScanForm) : Val :=
  match m with
  | .add => Val.zero
  | .max => if int then intExtreme (c.regType a) false else .inf true
  | .min => if int then intExtreme (c.regType a) true else .inf false

/-- The word that a scalar carry-out of an integer scan receives: the value modulo 2^64 (R164). Of a value that is no
integer, which a scaled carry-in brings, the manual states none: it is free (notes/assumptions/73). -/
def State.carryOutWord (s : State) (v : Val) : Word × State :=
  if v.eqv (.ofInt v.toInt) then (BitVec.ofInt 64 v.toInt, s) else s.freeWord

/-- VSCAN.ADD, MAX and MIN (R161–R164). Every carry register is checked over its full span; the outputs of an integer
scan, whatever its carry-in, are integer-sourced (notes/assumptions/35, 73). -/
def scanPlain (m : ScanForm) (k : MReg) (d a : VReg) (cin : CarryIn) (cout : CarryOut) (e : VEntry) (s : State) :
    Res :=
  let c := s.myCtx
  let cr := carryRegs cin cout
  vChecked (vecCheck c e ([d, a] ++ cr |>.map (fun r => tagType (c.tag r))) [k] (([d, a] ++ cr).map c.span)) s <|
  scanPure cin cout (scanChannels cin cout (fun s =>
    let c := s.myCtx
    let int := c.intReg a
    let ci := carryIn s e int a cin
    let conv := fun i => let v := c.srcVal e a i; if int then v else let z := roundF32 .rne v.1; (z.1, v.2.or z.2)
    let f := if int then scanInt m else scanFloat m e.rm
    let r := scanOrder f (fun i => if c.active e k i then some (conv i).1 else none) (ci.map (fun v => v.1)) (scanFronds c e)
    let fl := (orFlags ((c.actives e k).map (fun i => (conv i).2))).or (((ci.map (fun v => v.2)).getD FFlags.none).or r.2.2)
    let v := r.1.getD (scanIdentity c a int m)
    let x := if int then s.carryOutWord v else (BitVec.ofNat 64 (f32Bits v), s)
    let s1 := (x.2.writeResults d (c.regWidth d) 0x39 (scanOutputs c e k d int r.2.1)).raise 0x39 fl
    .done (deliverCarry e cin cout int x.1 v s1))) s

/-- VSCAN.ADD (R161). -/
def effVscanAdd (k : MReg) (d a : VReg) (cin : CarryIn) (cout : CarryOut) (e : VEntry) (s : State) : Res :=
  scanPlain .add k d a cin cout e s
/-- VSCAN.MAX (R161). -/
def effVscanMax (k : MReg) (d a : VReg) (cin : CarryIn) (cout : CarryOut) (e : VEntry) (s : State) : Res :=
  scanPlain .max k d a cin cout e s
/-- VSCAN.MIN (R161). -/
def effVscanMin (k : MReg) (d a : VReg) (cin : CarryIn) (cout : CarryOut) (e : VEntry) (s : State) : Res :=
  scanPlain .min k d a cin cout e s

/-- VSCAN.LIN (R162–R164): va and vb of float kind or scaled; the second component is the result. -/
def effVscanLin (k : MReg) (d a b : VReg) (cin : CarryIn) (cout : CarryOut) (e : VEntry) (s : State) : Res :=
  let c := s.myCtx
  let cr := carryRegs cin cout
  vChecked (match vecCheck c e ([d, a, b] ++ cr |>.map (fun r => tagType (c.tag r))) [k] (([d, a, b] ++ cr).map c.span) with
    | some t => some t
    | none => if c.intReg a || c.intReg b then some (e.illegal 8) else none) s <|
  scanPure cin cout (scanChannels cin cout (fun s =>
    let c := s.myCtx
    let ci := carryIn s e false a cin
    let f32 := fun r i => let v := c.srcVal e r i; let z := roundF32 .rne v.1; (z.1, v.2.or z.2)
    let r := scanOrder scanLin (fun i => if c.active e k i then some ((f32 a i).1, (f32 b i).1) else none)
      (ci.map (fun v => (Val.fin false 1 1, v.1))) (scanFronds c e)
    let fl := (orFlags ((c.actives e k).map (fun i => (f32 a i).2.or (f32 b i).2))).or
      (((ci.map (fun v => v.2)).getD FFlags.none).or r.2.2)
    let v := (r.1.map (·.2)).getD Val.zero
    let s1 := (s.writeResults d (c.regWidth d) 0x39
      (scanOutputs c e k d false (r.2.1.map (fun o => (o.1, o.2.map (·.2)))))).raise 0x39 fl
    .done (deliverCarry e cin cout false (BitVec.ofNat 64 (f32Bits v)) v s1))) s

end Sys2Proof.Machine
end

