-- ==== Sys2Proof/Machine/Drain.lean ====
section
/-! DEFINITION. The vector unit (02_machine R20; 12_context R284): what an entry at the head of the queue does, the
registers it names, and the draining of the queue in program order. -/

namespace Sys2Proof.Machine

/-- What an entry does at VCP. The other instructions never enter the queue. -/
def effectOf (e : VEntry) (s : State) : Res :=
  match e.instr with
  | .chsend c a => effChsend c a e s
  | .chrecv d c => effChrecv d c e s
  | .vadd xs k d a b => effVadd xs k d a b e s
  | .vsub xs k d a b => effVsub xs k d a b e s
  | .vmul xs k d a b => effVmul xs k d a b e s
  | .vdiv xs k d a b => effVdiv xs k d a b e s
  | .vmin xs k d a b => effVmin xs k d a b e s
  | .vmax xs k d a b => effVmax xs k d a b e s
  | .vand xs k d a b => effVand xs k d a b e s
  | .vor xs k d a b => effVor xs k d a b e s
  | .vxor xs k d a b => effVxor xs k d a b e s
  | .vsll xs k d a b => effVsll xs k d a b e s
  | .vsrl xs k d a b => effVsrl xs k d a b e s
  | .vsra xs k d a b => effVsra xs k d a b e s
  | .vfma xs k d a b => effVfma xs k d a b e s
  | .vfms xs k d a b => effVfms xs k d a b e s
  | .vabs k d a => effVabs k d a e s
  | .vneg k d a => effVneg k d a e s
  | .vsqrt k d a => effVsqrt k d a e s
  | .vrcp k d a => effVrcp k d a e s
  | .vrsq k d a => effVrsq k d a e s
  | .vexp2 k d a => effVexp2 k d a e s
  | .vlog2 k d a => effVlog2 k d a e s
  | .vtanh k d a => effVtanh k d a e s
  | .vsigm k d a => effVsigm k d a e s
  | .vmov k d a => effVmov k d a e s
  | .vceq xs k d a b => effVceq xs k d a b e s
  | .vcne xs k d a b => effVcne xs k d a b e s
  | .vclt xs k d a b => effVclt xs k d a b e s
  | .vcle xs k d a b => effVcle xs k d a b e s
  | .vcgt xs k d a b => effVcgt xs k d a b e s
  | .vcge xs k d a b => effVcge xs k d a b e s
  | .mand d a b => effMand d a b e s
  | .mor d a b => effMor d a b e s
  | .mxor d a b => effMxor d a b e s
  | .mnot d a => effMnot d a e s
  | .vmerge xs k d a b => effVmerge xs k d a b e s
  | .vcvt k d a => effVcvt k d a e s
  | .vqnt k d a => effVqnt k d a e s
  | .vhad d a b => effVhad d a b e s
  | .vtag sc blk bank type d => effVtag sc blk bank type d e s
  | .vld k d _ => effVld k d e s
  | .vst k d _ => effVst k d e s
  | .vlds k d _ _ => effVlds k d e s
  | .vsts k d _ _ => effVsts k d e s
  | .vldx k d _ b => effVldx k d b e s
  | .vldff k d _ => effVldff k d e s
  | .vscadd k d _ b => effVscadd k d b e s
  | .vspill d _ => effVspill d e s
  | .vreload d _ => effVreload d e s
  | .vlenq d => effVlenq d e s
  | .scld d _ _ => effScld d e s
  | .vslideup k d a _ => effVslideup k d a e s
  | .vslidedn k d a _ => effVslidedn k d a e s
  | .vshuf xs k d a b => effVshuf xs k d a b e s
  | .vcompress k d a => effVcompress k d a e s
  | .vsplat k d _ => effVsplat k d e s
  | .vins d _ _ => effVins d e s
  | .vext d a _ => effVext d a e s
  | .vredSum k d a => effVredSum k d a e s
  | .vredMin k d a => effVredMin k d a e s
  | .vredMax k d a => effVredMax k d a e s
  | .vredAnd k d a => effVredAnd k d a e s
  | .vredOr k d a => effVredOr k d a e s
  | .vredXor k d a => effVredXor k d a e s
  | .vredMini k d a => effVredMini k d a e s
  | .vredMaxi k d a => effVredMaxi k d a e s
  | .vscanAdd k d a cin cout => effVscanAdd k d a cin cout e s
  | .vscanMax k d a cin cout => effVscanMax k d a cin cout e s
  | .vscanMin k d a cin cout => effVscanMin k d a cin cout e s
  | .vscanLin k d a b cin cout => effVscanLin k d a b cin cout e s
  | .mop k d a b cmask => effMop k d a b cmask e s
  | .mzero d => effMzero d e s
  | .mrow k d a row => effMrow k d a row e s
  | .mcol k d a row => effMcol k d a row e s
  | .mwrow d a row => effMwrow d a row e s
  | .dadd d a b => effDadd d a b e s
  | .dsub d a b => effDsub d a b e s
  | .dmul d a b => effDmul d a b e s
  | .dmin d a b => effDmin d a b e s
  | .dmax d a b => effDmax d a b e s
  | .dfma d a b => effDfma d a b e s
  | .daff xs d a b => effDaff xs d a b e s
  | .dpt d a => effDpt d a e s
  | .dset d a b => effDset d a b e s
  | .dget d a b => effDget d a b e s
  | .dtag d _ => effDtag d e s
  | .dmom d a b => effDmom d a b e s
  | .dqnt d a b => effDqnt d a b e s
  | .dcdf d a b => effDcdf d a b e s
  | .dld d _ => effDld d e s
  | .dst d _ => effDst d e s
  | .fmtset nf _ => effFmtset nf e s
  | .sbind d _ => effSbind d e s
  | .sfree d => effSfree d e s
  | .csrw _ _ => effMaxlen (fun _ y => y) e s
  | .csrs _ _ => effMaxlen (fun x y => x ||| y) e s
  | .csrc _ _ => effMaxlen (fun x y => x &&& ~~~y) e s
  | _ => .done s

/-- The vector registers that an entry writes (R249). -/
def vDests : Instr → List VReg
  | .chrecv d _ => [d]
  | .vadd _ _ d _ _ => [d]
  | .vsub _ _ d _ _ => [d]
  | .vmul _ _ d _ _ => [d]
  | .vdiv _ _ d _ _ => [d]
  | .vmin _ _ d _ _ => [d]
  | .vmax _ _ d _ _ => [d]
  | .vand _ _ d _ _ => [d]
  | .vor _ _ d _ _ => [d]
  | .vxor _ _ d _ _ => [d]
  | .vsll _ _ d _ _ => [d]
  | .vsrl _ _ d _ _ => [d]
  | .vsra _ _ d _ _ => [d]
  | .vfma _ _ d _ _ => [d]
  | .vfms _ _ d _ _ => [d]
  | .vabs _ d _ => [d]
  | .vneg _ d _ => [d]
  | .vsqrt _ d _ => [d]
  | .vrcp _ d _ => [d]
  | .vrsq _ d _ => [d]
  | .vexp2 _ d _ => [d]
  | .vlog2 _ d _ => [d]
  | .vtanh _ d _ => [d]
  | .vsigm _ d _ => [d]
  | .vmov _ d _ => [d]
  | .vmerge _ _ d _ _ => [d]
  | .vcvt _ d _ => [d]
  | .vqnt _ d _ => [d]
  | .vhad d _ _ => [d]
  | .vtag _ _ _ _ d => [d]
  | .vld _ d _ => [d]
  | .vlds _ d _ _ => [d]
  | .vldx _ d _ _ => [d]
  | .vldff _ d _ => [d]
  | .vreload d _ => [d]
  | .vslideup _ d _ _ => [d]
  | .vslidedn _ d _ _ => [d]
  | .vshuf _ _ d _ _ => [d]
  | .vcompress _ d _ => [d]
  | .vsplat _ d _ => [d]
  | .vins d _ _ => [d]
  | .vredSum _ d _ => [d]
  | .vredMin _ d _ => [d]
  | .vredMax _ d _ => [d]
  | .vredAnd _ d _ => [d]
  | .vredOr _ d _ => [d]
  | .vredXor _ d _ => [d]
  | .vredMini _ d _ => [d]
  | .vredMaxi _ d _ => [d]
  | .vscanAdd _ d _ _ cout => d :: (carryOutReg cout).toList
  | .vscanMax _ d _ _ cout => d :: (carryOutReg cout).toList
  | .vscanMin _ d _ _ cout => d :: (carryOutReg cout).toList
  | .vscanLin _ d _ _ _ cout => d :: (carryOutReg cout).toList
  | .mrow _ d _ _ => [d]
  | .mcol _ d _ _ => [d]
  | .dget d _ _ => [d, d + 1]
  | .dmom d _ _ => [d]
  | .dqnt d _ _ => [d]
  | .dcdf d _ _ => [d]
  | _ => []

/-- The scalar register of a carry-in, captured at push (07_matrix R163). -/
def carryInOps : CarryIn → List SReg
  | .scalar r => [r]
  | _ => []

/-- The scalar register of a carry-out (R164). -/
def carryOutRegs : CarryOut → List SReg
  | .scalar r => [r]
  | _ => []

/-- The scalar registers that an entry writes, which are busy until it completes (06_vector R143; 07_matrix R164). -/
def vWrites : Instr → List SReg
  | .vlenq d => [d]
  | .vext d _ _ => [d]
  | .vscanAdd _ _ _ _ cout => (carryOutRegs cout)
  | .vscanMax _ _ _ _ cout => (carryOutRegs cout)
  | .vscanMin _ _ _ _ cout => (carryOutRegs cout)
  | .vscanLin _ _ _ _ _ cout => (carryOutRegs cout)
  | _ => []

/-- The traps of an entry that come before the pops of its strips, in the order of 03_encoding R51: those of VTYPE and of
the formats, a stream's formats among them (R247); then detail 8, a bound destination among them (R249). -/
def popTrap (c : Ctx) (rs : List VReg) (e : VEntry) (own : Res) (s : State) : Option Res :=
  match own with
  | .trap t s' =>
    if earlyTrap t then
      some (if t.cause = .illegal ∧ streamsIllFormed c rs then .trap { cause := .illfmt } s else .trap t s')
    else if streamsIllFormed c rs then some (.trap { cause := .illfmt } s)
    else if (vDests e.instr).any (fun r => (tget c.streams r.toNat).isSome) then some (.trap (e.illegal 8) s)
    else none
  | _ =>
    if streamsIllFormed c rs then some (.trap { cause := .illfmt } s)
    else if (vDests e.instr).any (fun r => (tget c.streams r.toNat).isSome) then some (.trap (e.illegal 8) s)
    else none

/-- The detail of the row that names an instruction of the vector unit as a violation by itself (17_reuse R396). -/
def entryDetail (i : Instr) : Option Nat :=
  match i with
  | .vscadd .. => some 3
  | .sbind .. => some 7
  | i => if viqChan i then some 6 else none

/-- An entry that a row of R396 names is that violation before what its bound streams read is looked at (17_reuse R396). -/
def pureOwn (e : VEntry) (k : State → Res) (s : State) : Res :=
  match entryDetail e.instr with
  | some d => impureOnly d k s
  | none => k s

/-- A way of running the entry at the head once its strips are popped (R249): a trap leaves k unchanged. -/
def runPopped (f : VEntry → State → Res) (rs : List VReg) (e : VEntry) (s : State) : Res :=
  match f e s with
  | .trap t s' => .trap t (unpopAll e rs s')
  | r => r

/-- The pops of an entry, one a register, and then its effect (R249). -/
def popAndRun (f : VEntry → State → Res) (rs : List VReg) (e : VEntry) (s : State) : Res :=
  match popAll e rs s with
  | .trap t => .trap t s
  | .stall => .wait false s
  | .ok s1 =>
    let c1 := s1.myCtx
    runPopped f rs e (s1.withMyCtx { c1 with viq := modifyAt c1.viq 0 (fun x => { x with popped := true }) })

/-- The entry at the head with its strips popped (R249). -/
def runBound (f : VEntry → State → Res) (e : VEntry) (s : State) : Res :=
  let c := s.myCtx
  if c.streams = [] then f e s
  else
    let rs := boundSources c e.instr
    match popTrap c rs e (f e s) s with
    | some r => r
    | none =>
      if rs = [] then f e s
      else if e.popped then runPopped f rs e s
      else pureOwn e (pureStreams rs e (popAndRun f rs e)) s

/-- The entry at the head, in a pure task with the check of where it was fetched (17_reuse R396). -/
def runEntry (f : VEntry → State → Res) (e : VEntry) (s : State) : Res := codeGuard e.outside e.addr (runBound f e) s

/-- The head entry has completed: it leaves the queue, and the registers it writes are no longer busy. -/
def completeHead (e : VEntry) (s : State) : State :=
  let c := s.myCtx
  let s1 := s.withMyCtx { c with viq := c.viq.drop 1 }
  let h := s1.me
  s1.withMe { h with busy := h.busy.filter (fun n => !((vWrites e.instr).any (fun r => decide (r.toNat = n)))) }

/-- The register whose tag an entry gives to the register it writes (06_vector R128, R140–R142). -/
def tagSource : Instr → Option VReg
  | .vmov _ _ a => some a
  | .vslideup _ _ a _ => some a
  | .vslidedn _ _ a _ => some a
  | .vshuf _ _ _ a _ => some a
  | .vcompress _ _ a => some a
  | _ => none

/-- What is known of the tags where an entry will execute: the context, and the registers whose tag a frame or a message
that has not been read will give them. -/
structure TagView where
  ctx  : Ctx
  open_ : List Nat
deriving DecidableEq, Repr

/-- The registers of a span at a register; where its tag is not known, of the longest span (R114). -/
def TagView.span (v : TagView) (e : VEntry) (r : VReg) : Nat :=
  if v.open_.contains r.toNat then 8 else e.spanRegs (v.ctx.regWidth r)

/-- n registers from a register. -/
def regsFrom (r : VReg) (n : Nat) : List Nat := (List.range n).map (r.toNat + ·)

/-- The registers that an entry writes: of VRELOAD the group (R120), of CHRECV the span of its message (07_matrix R171), of
an entry that hands on a tag the span under that. -/
def TagView.writes (v : TagView) (e : VEntry) : List Nat :=
  match e.instr with
  | .vreload d _ => regsFrom d e.g
  | i => (vDests i).flatMap (fun r => regsFrom r (v.span e ((tagSource i).getD r)))

/-- The registers that an entry reads: of VSPILL the group (R120). -/
def TagView.reads (v : TagView) (e : VEntry) : List Nat :=
  match e.instr with
  | .vspill d _ => regsFrom d e.g
  | i => (vSources i).flatMap (fun r => regsFrom r (v.span e r))

/-- A register whose tag is known from now on. -/
def TagView.known (v : TagView) (d : VReg) (t : BitVec 12) : TagView :=
  { ctx := v.ctx.setTag d t, open_ := v.open_.filter (fun n => decide (n ≠ d.toNat)) }

/-- What is known of the tags after an entry. -/
def TagView.after (v : TagView) (e : VEntry) : TagView :=
  match e.instr with
  | .vtag sc blk bank type d => v.known d (vtagOf sc blk bank type)
  | .fmtset nf _ => { v with ctx := { v.ctx with nf := sset 0 v.ctx.nf nf.toNat ((e.op 0).setWidth 32) } }
  | .vreload d _ => { v with open_ := insertNat v.open_ d.toNat }
  | .chrecv d _ => { v with open_ := insertNat v.open_ d.toNat }
  | i =>
    match tagSource i, vDests i with
    | some a, d :: _ =>
      if v.open_.contains a.toNat then { v with open_ := insertNat v.open_ d.toNat } else v.known d (v.ctx.tag a)
    | _, _ => v

/-- The entries of a queue, each with what is known of the tags where it will execute. -/
def TagView.along (v : TagView) : List VEntry → List (TagView × VEntry)
  | [] => []
  | e :: r => (v, e) :: (v.after e).along r

/-- The queue of a context so; what a CHRECV waits for is not known. -/
def Ctx.viqViews (c : Ctx) : List (TagView × VEntry) :=
  ({ ctx := c, open_ := [] } : TagView).along c.viq |>.map (fun p =>
    match p.2.instr with
    | .chrecv d _ => ({ p.1 with open_ := insertNat p.1.open_ d.toNat }, p.2)
    | _ => p)

/-- What is known of the tags for the entry at the head of the moving hart's queue: that of the message a CHRECV takes. -/
def State.headView (s : State) (e : VEntry) : TagView :=
  let v : TagView := { ctx := s.myCtx, open_ := [] }
  match e.instr with
  | .chrecv d ch =>
    (match (s.chan ch.toNat).bind Chan.ready with
      | some m => v.known d m.tag
      | none => v)
  | _ => v

/-- Entries that may read elements of a source at or beyond VL. -/
def readsWhole : Instr → Bool
  | .vslideup .. => true
  | .vslidedn .. => true
  | .vshuf .. => true
  | .vext .. => true
  | .mop .. => true
  | .mwrow .. => true
  | .daff .. => true
  | .dset .. => true
  | _ => false

/-- The bytes of a source register's span that an entry reads, from the span's start; VSPILL reads what its frame holds
(06_vector R120). -/
def VEntry.readBytes (e : VEntry) (c : Ctx) (r : VReg) : Nat :=
  let w := c.regWidth r
  match e.instr with
  | .vspill _ _ => e.frameData
  | i => if readsWhole i then e.spanRegs w * c.usedBytes else ceilDiv (e.vl * w) 8

/-- Whether byte b of the register group of a copy has landed (10_copies R237). -/
def CopyCmd.landed (x : CopyCmd) (b : Nat) : Bool := decide (b < x.retired) || x.moved.contains (b / 64)

/-- Whether an entry reads an element group of 512 bytes, of the register group from a that a copy writes, which has not
landed (10_copies R237). -/
def VEntry.readsUnlanded (e : VEntry) (c : Ctx) (x : CopyCmd) (a : Nat) : Bool :=
  (vSources e.instr).any (fun r =>
    let lo := r.toNat * c.usedBytes
    (List.range (ceilDiv x.len.toNat 512)).any (fun k =>
      let g := a * c.usedBytes + 512 * k
      decide (g < lo + e.readBytes c r) && decide (lo < g + min 512 (x.len.toNat - 512 * k)) && !x.landed (512 * k)))

/-- Whether an entry waits for a copy into a register group (10_copies R237): one that writes it until the token is written;
one that reads it until what it reads has landed, or the copy has ended. -/
def State.copyBlocks (s : State) (e : VEntry) : Bool :=
  let c := s.myCtx
  (s.copyQueue c.core).any (fun x => decide (x.ref.cid = s.cur.cid) &&
    (match x.instr with
    | .cpyin _ a _ _ _ vdst vg _ _ _ _ =>
      decide (vdst = 1) &&
        (((s.headView e).writes e).any (fun n => decide (a.toNat ≤ n) && decide (n < a.toNat + 2 ^ vg.toNat))
          || (x.status.isNone && e.readsUnlanded c x a.toNat))
    | _ => false))

/-- One entry of the moving hart's queue by a way of running it: true when the queue may go on. -/
def stepHead (f : VEntry → State → Res) (s : State) : State × Bool :=
  match s.myCtx.viq with
  | [] => (s, false)
  | e :: _ =>
    if e.job.isSome || s.copyBlocks e then (s, false)
    else
      match runEntry f e s with
      | .done s' => (completeHead e s', true)
      | .trap t s' => (s'.takeTrap s.cur true t, false)
      | .wait _ s' => (s', false)

/-- The entries of the queue in program order, while they complete. -/
def drainFuel : Nat → State → State
  | 0, s => s
  | n + 1, s =>
    let r := stepHead effectOf s
    if r.2 then drainFuel n r.1 else r.1

/-- The vector unit of the moving compute hart (notes/assumptions/17). -/
def drain (s : State) : State := drainFuel (Config.viqCap + 1) s

/-- Something done as the compute hart of a context, by another agent. -/
def State.asHart (s : State) (r : HartRef) (f : State → State) : State := { f { s with cur := r } with cur := s.cur }

/-- Whether the compute hart of a context lets its vector unit go on: the context is ISSUING, and no other hart is in
its handler. -/
def Ctx.vectorRuns (c : Ctx) : Bool :=
  decide (c.slotState = .issuing) && (match c.handler with | none => true | some k => decide (k = .ch))

/-- The entry at the head of a queue has begun execution and has not completed; one that waits on a channel has not
(12_context R276 step 2). -/
def VEntry.begun (e : VEntry) : Bool :=
  e.job.isNone && !viqChan e.instr && (decide (e.step ≠ 0) || e.scatter.isSome || e.popped)

/-- Whether the entry at the head of a queue may go on: the vector unit runs, or the context is SAVING and the entry has
begun (12_context R276). -/
def Ctx.headRuns (c : Ctx) (e : VEntry) : Bool :=
  c.vectorRuns || (decide (c.slotState = .saving) && !c.imaged && e.begun)

/-- The head of the queue of a context by a way of running it, and what follows while the vector unit runs. -/
def State.serveHead (s : State) (cid : Nat) (f : VEntry → State → Res) : State :=
  s.asHart { cid := cid, kind := .ch } (fun s =>
    let r := stepHead f s
    if r.2 ∧ (s.ctx cid).vectorRuns then drain r.1 else r.1)

/-- The vector unit of a context makes what progress it can. -/
def State.viqMove (s : State) (cid : Nat) : State :=
  let c := s.ctx cid
  match c.viq with
  | [] => s
  | e :: _ => if c.headRuns e then s.serveHead cid effectOf else s

/-- MAXLEN_WRITE (02_machine R29): the write that stands at the head of the queue of the context a takes effect. -/
def execMaxlenWrite (s : State) : Host.Outcome State Fault Refusal :=
  let c := s.ctx s.evArg.a
  match c.viq with
  | e :: _ =>
    if isMaxlenWrite e.instr ∧ c.vectorRuns then .next (s.asHart { cid := s.evArg.a, kind := .ch } drain) else .next s
  | [] => .next s

/-- GATHER_SERVE (10_copies R250): a gather unit serves the VLDX at the head of the queue of the context a. -/
def execGatherServe (s : State) : Host.Outcome State Fault Refusal :=
  let c := s.ctx s.evArg.a
  match c.viq with
  | e :: _ =>
    match e.instr with
    | .vldx k d _ b =>
      if c.headRuns e then .next (s.serveHead s.evArg.a (gather k d b)) else .next s
    | _ => .next s
  | [] => .next s

/-- SCATTER_UPDATE (10_copies R251): one merged partial of the VSCADD at the head of the queue of the context a updates
its address; b picks it among those left. -/
def execScatterUpdate (s : State) : Host.Outcome State Fault Refusal :=
  let c := s.ctx s.evArg.a
  match c.viq with
  | e :: _ =>
    match e.instr with
    | .vscadd k d _ b =>
      if c.headRuns e then
        .next (s.serveHead s.evArg.a (fun e s =>
          match effVscadd k d b e s with
          | .wait _ s' => scatterOne s.evArg.b k d b e s'
          | r => r))
      else .next s
    | _ => .next s
  | [] => .next s

end Sys2Proof.Machine
end

