-- ==== Sys2Proof/Machine/Copies.lean ====
section
/-! DEFINITION. The issue of copy commands: COPY and TCPY (10_copies R225–R229, R232, R234, R241). -/

namespace Sys2Proof.Machine

/-- The registers of a group of a copy (R237). -/
def copyGroup (a : VReg) (vg : BitVec 2) : List VReg := (List.range (2 ^ vg.toNat)).map (fun i => a + BitVec.ofNat 5 i)

/-- Whether an entry writes one of the registers. -/
def entryWrites (rs : List VReg) (p : TagView × VEntry) : Bool :=
  (p.1.writes p.2).any (fun n => rs.any (fun r => decide (r.toNat = n)))

/-- Whether an entry reads or writes one of the registers. -/
def entryTouches (rs : List VReg) (p : TagView × VEntry) : Bool :=
  (p.1.reads p.2 ++ p.1.writes p.2).any (fun n => rs.any (fun r => decide (r.toNat = n)))

/-- The command that an instruction makes, as it enters the queue of its core (R225). -/
def copyCmd (s : State) (i : Instr) (d bar : SReg) (dst src len aux : Word) : CopyCmd :=
  { id := s.serial, ref := s.cur, core := s.myCtx.core, instr := i, dst := dst, src := src, len := len,
    bar := if bar = 0 then none else some (s.readS bar), aux := aux, tok := if d = 0 then .none else .reg d.toNat,
    started := false, desc := [], moved := [], upTo := 0, landing := [], retired := 0, posted := 0, fail := none, status := none, record := none,
    stamped := false }

/-- A command enters the queue of the core (R225); its token register is busy from then on (R232). -/
def State.enqueue (s : State) (x : CopyCmd) : State :=
  let s1 : State := { s with serial := s.serial + 1 }
  let s2 := s1.withCopyQueue x.core (s1.copyQueue x.core ++ [x])
  match x.tok with
  | .reg n => s2.withMe { s2.me with busy := insertNat s2.me.busy n }
  | _ => s2

/-- The waits of a copy before its issue (R225, R234; 11_ordering R254): on the compute hart for the VIQ entries that read or
write memory or a window, and for those that meet its vector registers; for the hart's own multicasts; and while the queue
is full. -/
def copyWaits (waits : TagView × VEntry → Bool) (k : State → Res) (s : State) : Res :=
  let c := s.myCtx
  if s.cur.kind = .ch ∧ c.viqViews.any (fun p => entryMem c p.2 || waits p) then .wait false s
  else if s.outstanding ∨ Config.copyCap ≤ (s.copyQueue c.core).length then .wait false s
  else k s

/-- The issue of a copy of n bytes of code (R225). -/
def issueCopy (n : Nat) (waits : TagView × VEntry → Bool) (cmd : State → CopyCmd) : State → Res :=
  copyWaits waits (fun s => .done ((s.enqueue (cmd s)).advance n))

/-- Entries that unbind one of the registers. -/
def entryUnbinds (rs : List VReg) (e : VEntry) : Bool :=
  match e.instr with
  | .sfree d => rs.contains d
  | _ => false

/-- What a copy into a register group of its own context waits for (R234): the entries that read or write a register of the
group, or unbind it, and a write of MAXLEN (02_machine R29). -/
def groupWaits (rs : List VReg) (p : TagView × VEntry) : Bool :=
  entryTouches rs p || entryUnbinds rs p.2 || isMaxlenWrite p.2.instr

/-- A copy into a register group names no bound register, at any place of the group: Illegal with detail 8 (R249;
notes/assumptions/108). -/
def unboundGroup (rs : List VReg) (k : State → Res) (s : State) : Res :=
  if rs.any (fun r => (tget s.myCtx.streams r.toNat).isSome) then .trap (illegal s 8 0) s else k s

/-- The same before the waits of the copy, where no entry of the queue can unbind a register (03_encoding R51). -/
def boundGroup (rs : List VReg) (k : State → Res) (s : State) : Res :=
  if s.myCtx.viq.any (fun e => entryUnbinds rs e) then k s else unboundGroup rs k s

/-- No register of the vector unit. -/
def noRegs (_ : TagView × VEntry) : Bool := false

/-- The check of a copy in a pure task (17_reuse R395, R396): detail 7 unless the whole range lies in one of the ranges,
off SYNC pages. -/
def pureCopy (ranges : PureState → List (Nat × Nat)) (a n : Nat) (k : State → Res) (s : State) : Res :=
  match s.me.checkedBy with
  | none => k s
  | some p =>
    if n = 0 ∨ (inRanges (ranges p) a n ∧ !touchesWindows a n ∧ !s.touchesSync (s.who s.cur) a n) then k s
    else violation 7 0 s p k

/-- CPYIN (R226, R237): with VDST = 1 A names a vector register, and the drain hart may not issue it. -/
def execCpyin (d : SReg) (a : BitVec 5) (b sz bar : SReg) (vdst : BitVec 1) (vg : BitVec 2) (comp : BitVec 1)
    (toa : BitVec 3) (aoff boff : BitVec 16) (s : State) : Host.Outcome State Fault Refusal :=
  let i := Instr.cpyin d a b sz bar vdst vg comp toa aoff boff
  if vdst = 1 then
    onlyOn [.ch, .fh] (scalar [b, sz, bar] [d] (fun s =>
      let src := ea16 (s.readS b) boff
      let len := s.readS sz
      boundGroup (copyGroup a vg) (pureCopy (·.inputs) src.toNat len.toNat
        (copyWaits (groupWaits (copyGroup a vg)) (unboundGroup (copyGroup a vg)
          (fun s => .done ((s.enqueue (copyCmd s i d bar (a.setWidth 64) src len 0)).advance 12))))) s)) s
  else
    scalar [a, b, sz, bar] [d] (fun s =>
      let src := ea16 (s.readS b) boff
      let len := s.readS sz
      pureCopy (·.inputs) src.toNat len.toNat
        (issueCopy 12 noRegs (fun s => copyCmd s i d bar (ea16 (s.readS a) aoff) src len 0)) s) s

/-- CPYOUT (R226). -/
def execCpyout (d a b sz bar : SReg) (comp : BitVec 1) (toa : BitVec 3) (aoff boff : BitVec 16) (s : State) :
    Host.Outcome State Fault Refusal :=
  scalar [a, b, sz, bar] [d] (fun s =>
    let dst := ea16 (s.readS a) aoff
    let len := s.readS sz
    pureCopy (·.outputs) dst.toNat len.toNat
      (issueCopy 12 noRegs (fun s =>
        copyCmd s (.cpyout d a b sz bar comp toa aoff boff) d bar dst (ea16 (s.readS b) boff) len 0)) s) s

/-- The registers of its own context that a CPYREG writes (R238). -/
def cpyregOwn (s : State) (a : VReg) (aux : SReg) (vg : BitVec 2) : List VReg :=
  if bits (s.readS aux) 0 9 = s.myCtx.core then copyGroup a vg else []

/-- The entries that a CPYREG waits for (R234): those that write what it reads, or change MAXLEN (02_machine R29); and where
it writes registers of its own core, those that read or write them. -/
def cpyregWaits (s : State) (a b : VReg) (aux : SReg) (vg : BitVec 2) (p : TagView × VEntry) : Bool :=
  entryWrites (copyGroup b vg) p || groupWaits (cpyregOwn s a aux vg) p

/-- CPYREG (R226, R238): on the compute hart; a bound register of its own context that it would write is Illegal with
detail 8 (R249). -/
def execCpyreg (d : SReg) (a b : VReg) (sz bar aux : SReg) (vg : BitVec 2) (comp : BitVec 1) (toa : BitVec 3) (s : State) :
    Host.Outcome State Fault Refusal :=
  onlyOn [.ch] (scalar [sz, bar, aux] [d] (fun s =>
    boundGroup (cpyregOwn s a aux vg) (impureOnly 7
      (copyWaits (cpyregWaits s a b aux vg) (unboundGroup (cpyregOwn s a aux vg) (fun s =>
        .done ((s.enqueue (copyCmd s (.cpyreg d a b sz bar aux vg comp toa) d bar (a.setWidth 64) (b.setWidth 64)
          (s.readS sz) (s.readS aux))).advance 12))))) s)) s

/-- CPYFOLD (R226, R239). -/
def execCpyfold (d a b sz bar : SReg) (fold : BitVec 2) (ordered comp : BitVec 1) (toa : BitVec 3) (aoff boff : BitVec 16)
    (s : State) : Host.Outcome State Fault Refusal :=
  scalar [a, b, sz, bar] [d] (impureOnly 7 (issueCopy 12 noRegs (fun s =>
    copyCmd s (.cpyfold d a b sz bar fold ordered comp toa aoff boff) d bar (ea16 (s.readS a) aoff)
      (ea16 (s.readS b) boff) (s.readS sz) 0))) s

/-- SCPY (R226, R240). -/
def execScpy (d a b sz bar : SReg) (comp : BitVec 1) (toa : BitVec 3) (aoff boff : BitVec 16) (s : State) :
    Host.Outcome State Fault Refusal :=
  scalar [a, b, sz, bar] [d] (impureOnly 7 (issueCopy 12 noRegs (fun s =>
    copyCmd s (.scpy d a b sz bar comp toa aoff boff) d bar (ea16 (s.readS a) aoff) (ea16 (s.readS b) boff)
      (s.readS sz) 0))) s

/-- EXPORT (R226, R246). -/
def execExportPage (d b : SReg) (s : State) : Host.Outcome State Fault Refusal :=
  scalar [b] [d] (impureOnly 7 (issueCopy 12 noRegs (fun s =>
    copyCmd s (.exportPage d b) d 0 0 (s.readS b) 65536 0))) s

/-- TCPY.IN (R241): the IS address in A, the descriptor's address in B. -/
def execTcpyIn (d a b bar : SReg) (comp : BitVec 1) (toa : BitVec 3) (t0 t1 t2 t3 aoff : BitVec 16) (s : State) :
    Host.Outcome State Fault Refusal :=
  scalar [a, b, bar] [d] (impureOnly 7 (issueCopy 20 noRegs (fun s =>
    copyCmd s (.tcpyIn d a b bar comp toa t0 t1 t2 t3 aoff) d bar (ea16 (s.readS a) aoff) 0 0 (s.readS b)))) s

/-- TCPY.OUT (R241): the OS address in A. -/
def execTcpyOut (d a b bar : SReg) (comp : BitVec 1) (toa : BitVec 3) (t0 t1 t2 t3 aoff : BitVec 16) (s : State) :
    Host.Outcome State Fault Refusal :=
  scalar [a, b, bar] [d] (impureOnly 7 (issueCopy 20 noRegs (fun s =>
    copyCmd s (.tcpyOut d a b bar comp toa t0 t1 t2 t3 aoff) d bar 0 (ea16 (s.readS a) aoff) 0 (s.readS b)))) s

end Sys2Proof.Machine
end

