-- ==== Sys2Proof/Machine/Tasks.lean ====
section
/-! DEFINITION. Groups, tasks, counters, suspension and the strip farm (14_group R317–R341). -/

namespace Sys2Proof.Machine

/-- PRIO of w1 (R320). -/
def prioOf (w1 : Word) : Nat := bits w1 0 3

/-- Whether a record is malformed (R321). -/
def recMalformed (r : TaskRec) : Bool :=
  decide (bits r.w0 0 2 ≠ 0) || decide (bits r.w1 10 54 ≠ 0)
    || (!bit r.w1 3 && (bit r.w1 7 || bit r.w1 5 || bit r.w1 4))

/-- Whether a record may run on a hart of a kind (R320, R323). -/
def recEligible (k : HartKind) (r : TaskRec) : Bool :=
  decide (bits r.w1 8 2 = 0) || decide (bits r.w1 8 2 = kindNum k + 1)

/-- The ready queue of a kernel is full (R317). -/
def State.readyFull (s : State) (k : Nat) : Bool :=
  match s.kernel k with
  | some x => decide (Config.readyCap ≤ x.ready.length)
  | none => false

/-- An entry of the group ready queue (R323). -/
def State.enterReady (s : State) (k : Nat) (i : ReadyItem) : State :=
  s.modKernel k (fun x => { x with ready := x.ready ++ [i] })

/-- A ready continuation of a context that has not entered the ready queue: it enters while there is room (R333), of several
the one placed first (notes/assumptions/110). -/
def State.admitCtx (s : State) (cid : Nat) : State :=
  let c := s.ctx cid
  if !c.present then s
  else
    c.conts.foldl (fun s x =>
      if x.token.isSome ∧ !x.ready ∧ !s.readyFull c.kernel then
        let c1 := s.ctx cid
        let s1 := s.withCtx cid { c1 with conts := c1.conts.map (fun y => if y.id = x.id then { y with ready := true } else y) }
        s1.enterReady c.kernel (.cont cid x.id (prioOf x.w1) x.kind)
      else s) s

/-- The continuations of a kernel that wait for room. -/
def State.admitConts (s : State) (k : Nat) : State := (s.ctxsOf k).foldl (fun s cid => s.admitCtx cid) s

/-- Whether an item of the ready queue is eligible for a hart of a kind (R323). -/
def State.itemEligible (s : State) (k : HartKind) : ReadyItem → Bool
  | .record r => recEligible k r
  | .cont cid _ _ kind => decide (kind = k) && (s.ctx cid).present

/-- PRIO of an item. -/
def ReadyItem.prio : ReadyItem → Nat
  | .record r => prioOf r.w1
  | .cont _ _ p _ => p

/-- The eligible head of a ready queue (R323): its place, the highest PRIO, the earliest entry. -/
def State.readyHead (s : State) (k : HartKind) (q : List ReadyItem) : Option Nat :=
  let cands := (List.range q.length).filter (fun i => (q[i]?.map (s.itemEligible k)).getD false)
  let top := (cands.map (fun i => (q[i]?.map ReadyItem.prio).getD 0)).foldl max 0
  cands.find? (fun i => decide ((q[i]?.map ReadyItem.prio).getD 0 = top))

/-- The eligible record nearest the head of a deque: its place. -/
def dequeHead (k : HartKind) (d : List TaskRec) : Option Nat :=
  (List.range d.length).find? (fun i => (d[i]?.map (recEligible k)).getD false)

/-- The eligible record nearest the tail of a deque: its place. -/
def dequeTail (k : HartKind) (d : List TaskRec) : Option Nat :=
  (List.range d.length).reverse.find? (fun i => (d[i]?.map (recEligible k)).getD false)

/-- A record that a hart starts (R322); a pure one goes on to its lookup, which starts it or not (17_reuse R390). -/
def State.startRecord (s : State) (r : HartRef) (t : TaskRec) : State :=
  let s1 := s.withHart r { s.hart r with dispatch := .task, w1 := t.w1, w2 := t.w2, pure := none }
  if bit t.w1 3 then (s1.setPure r (some (pureOf t (s.ctx r.cid).core))).lookup r else s1.beginTask r t.w0 t.args

/-- A continuation that a hart resumes (R335); its slot is free (R334), and a pure task has run on this core too
(17_reuse R398). -/
def State.startCont (s : State) (r : HartRef) (cid id : Nat) : State :=
  let c := s.ctx cid
  match c.conts.find? (fun x => decide (x.id = id)) with
  | none => s
  | some x =>
    let s1 := s.withCtx cid { c with conts := c.conts.filter (fun y => decide (y.id ≠ id)) }
    let tok := x.token.getD 0
    let core := (s.ctx r.cid).core
    let h := s1.hart r
    let h1 : Hart := { h with
      pc := x.pc, regs := x.saved.foldl (fun m p => sset 0 m p.1 p.2) [], unread := [], dispatch := .task, w1 := x.w1,
      w2 := x.w2, pure := x.pure.map (fun p => { p with cores := insertNat p.cores core }) }
    let h2 := h1.writeS (BitVec.ofNat 5 x.reg) tok
    s1.withHart r (if bit tok 63 ∧ x.reg ≠ 0 then { h2 with unread := [x.reg] } else h2)

/-- The item at a place of a kernel's ready queue is taken. -/
def State.takeReady (s : State) (r : HartRef) (k i : Nat) : State :=
  match (s.kernel k).bind (fun x => x.ready[i]?) with
  | none => s
  | some item =>
    let s1 := s.modKernel k (fun x => { x with ready := dropAt x.ready i })
    let s2 := match item with
      | .record t => s1.startRecord r t
      | .cont cid id _ _ => s1.startCont r cid id
    s2.admitConts k

/-- The record at a place of a context's deque is taken. -/
def State.takeDeque (s : State) (r : HartRef) (cid i : Nat) : State :=
  let c := s.ctx cid
  match c.deque[i]? with
  | none => s
  | some t => (s.withCtx cid { c with deque := dropAt c.deque i }).startRecord r t

/-- What an IDLE hart would take (R324). -/
inductive Work where
  | ready (i : Nat)
  | deque (cid i : Nat)
deriving DecidableEq, Repr

/-- A record that a thief finds in the deques of the other members, in the order of R324. -/
def State.steal (s : State) (r : HartRef) (k : Nat) (x : Kernel) : Option Work :=
  let m := (s.ctx r.cid).member
  (List.range (x.size - 1)).findSome? (fun j =>
    let cid := k * 384 + (m + j + 1) % x.size
    let c := s.ctx cid
    if c.present then (dequeTail r.kind c.deque).map (fun i => .deque cid i) else none)

/-- The work that dispatch finds for a hart (R324). -/
def State.work (s : State) (r : HartRef) : Option Work :=
  let c := s.ctx r.cid
  match s.kernel c.kernel with
  | none => none
  | some x =>
    match s.readyHead r.kind x.ready, dequeHead r.kind c.deque with
    | some i, some d =>
      if ((c.deque[d]?).map (fun t => prioOf t.w1)).getD 0 ≤ ((x.ready[i]?).map ReadyItem.prio).getD 0 then some (.ready i)
      else some (.deque r.cid d)
    | some i, none => some (.ready i)
    | none, some d => some (.deque r.cid d)
    | none, none => s.steal r c.kernel x

/-- DISPATCH (R324, R391): the IDLE hart h of the context a takes work; a hart that stands before its lookup makes it. A
compute hart takes none before its vector work has completed: that of a task which ended in its handler is replayed first
(R328; notes/assumptions/95). -/
def execDispatch (s : State) : Host.Outcome State Fault Refusal :=
  let r : HartRef := { cid := s.evArg.a, kind := s.evArg.h }
  let c := s.ctx r.cid
  let h := s.hart r
  if !c.runs r.kind ∨ h.stalled.isSome ∨ c.handler.isSome ∨ (r.kind = .ch ∧ c.viq ≠ []) then .next s
  else
    match h.dispatch with
    | .idle =>
      match s.work r with
      | none => .next s
      | some (.ready i) => .next (s.takeReady r c.kernel i)
      | some (.deque cid i) => .next (s.takeDeque r cid i)
    | .task => .next (s.lookup r)
    | .root => .next s

/-- TSPAWN (R327): a release. -/
def execTspawn (a : SReg) (s : State) : Host.Outcome State Fault Refusal :=
  scalar (regRange a 8) [] (impureOnly 6 (afterViq (afterWrites (fun s =>
    let t := taskRecOf ((regRange a 8).map s.readS)
    let c := s.myCtx
    if recMalformed t then .trap (object 1 1) s
    else if Config.dequeCap ≤ c.deque.length then
      if s.readyFull c.kernel then .trap (object 1 2) s
      else .done ((s.enterReady c.kernel (.record t)).advance 4)
    else .done ((s.withMyCtx { c with deque := t :: c.deque }).advance 4))))) s

/-- Decrement of the counter at a physical address, at its home slice (R329); va is its virtual address. -/
def State.decrement (s : State) (w : Who) (k pa va : Nat) (release : Bool) : MemRes State :=
  let count := s.memWord pa
  let fires := release && decide (count = 1) && bit (s.memWord (pa + 8)) 0
  let t := taskRecOf (wordsOfBytes 8 (s.memBytes (pa + 64) 64))
  if s.migrating .sync pa then .stall
  else if count = 0 then .trap { cause := .depunder }
  else if fires && s.imageBad w.core (pa + 64) 64 then
    .trap { cause := .eccfatal, acc := 2, addr := BitVec.ofNat 64 (va + 64) }
  else if fires && recMalformed t then .trap (object 1 1)
  else if fires && s.readyFull k then .trap (object 1 2)
  else
    let s1 := s.syncWrite w pa (bytesOfWord 8 (count - 1))
    if fires then
      .ok ((s1.syncWrite w (pa + 8) (bytesOfWord 8 (s1.memWord (pa + 8) &&& ~~~1#64))).enterReady k (.record t))
    else .ok s1

/-- The checks of a counter as an atomic (R103), aligned to 128 bytes for a counter object, and then its decrement. -/
def State.decrementAt (s : State) (r : HartRef) (a : Nat) (release : Bool) : MemRes State :=
  let w := s.who r
  (s.atomicCheck w 2 .rmw (if release then 128 else 8) a 8).bind (fun pl =>
    s.decrement w (s.ctx r.cid).kernel pl.pa a release)

/-- TDEC (R331): a release. -/
def execTdec (a : SReg) (s : State) : Host.Outcome State Fault Refusal :=
  scalar [a] [] (fun s => pureSync (s.readS a).toNat (afterViq (afterWrites (fun s =>
    (s.decrementAt s.cur (s.readS a).toNat true).elim s (fun s' => .done (s'.advance 4))))) s) s

/-- TDEP (R330): a release. -/
def execTdep (a b c : SReg) (s : State) : Host.Outcome State Fault Refusal :=
  scalar ([a, b] ++ regRange c 8) [] (fun s => pureSync (s.readS a).toNat (afterViq (afterWrites (fun s =>
    let w := s.who s.cur
    let n := s.readS b
    let t := taskRecOf ((regRange c 8).map s.readS)
    (s.atomicCheck w 2 .rmw 128 (s.readS a).toNat 8).elim s (fun pl =>
      if recMalformed t then .trap (object 1 1) s
      else if s.migrating .sync pl.pa then .wait false s
      else if s.memWord pl.pa ≠ 0 ∨ bit (s.memWord (pl.pa + 8)) 0 then .trap (object 1 3) s
      else if n = 0 ∧ s.readyFull s.myCtx.kernel then .trap (object 1 2) s
      else
        let ws : List Word := [n, if n = 0 then 0 else 1, 0, 0, 0, 0, 0, 0] ++ t.words
        let s1 := s.syncWrite w pl.pa (bytesOfWords ws)
        .done ((if n = 0 then s1.enterReady s.myCtx.kernel (.record t) else s1).advance 4))))) s) s

/-- Whether a hart waits for a token in a register other than one (R328, R333); a token that a TSUSP has redirected to a
continuation is in none (notes/assumptions/95). -/
def State.tokensOut (s : State) (r : HartRef) (but : Nat) : Bool :=
  s.allCopies.any (fun c => decide (c.ref = r) &&
    (match c.tok with | .reg n => decide (n ≠ but) | _ => false))

/-- The lowest register with an unread error, one left out (R287). -/
def Hart.lowestUnread (h : Hart) (but : Nat) : Option Nat :=
  (List.range 32).find? (fun n => decide (n ≠ but) && h.unread.contains n)

/-- The output granule copies of a pure task: key and place (17_reuse R399). -/
def State.outGranules (s : State) (w : Who) (p : PureState) : List Nat :=
  p.outputs.flatMap (fun o =>
    (granPieces (alignDown o.1 64) (alignUp (o.1 + o.2) 64 - alignDown o.1 64)).flatMap (fun g => s.turnKeys w g.1))

/-- Step 1 of the TDONE of a pure task (R399): the output granules that a core of the task left PENDING below DEV are
raised to DEV. -/
def State.raiseOutputs (s : State) (r : HartRef) (p : PureState) : State :=
  let w := s.who r
  let keys := (s.outGranules w p).filter (fun k =>
    match tget s.gran k with
    | some g => p.cores.contains g.writer && decide (g.level.rank < 4)
    | none => false)
  let s1 := keys.foldl (fun s k =>
    match tget s.gran k with
    | some g => { s with gran := tput s.gran k { g with level := .dev } }
    | none => s) s
  if keys = [] then s1
  else s1.dropStrips (fun _ => true) (p.outputs.flatMap (fun o =>
    s.rangeKeys w true (alignDown o.1 64) (alignUp (o.1 + o.2) 64 - alignDown o.1 64)))

/-- The decrement of w2 that ends a task (R328). -/
def State.endDecrement (s : State) (r : HartRef) : MemRes State :=
  let h := s.hart r
  if h.w2 = 0 then .ok s else s.decrementAt r h.w2.toNat (bit h.w1 6)

/-- A pure task that has ended: its insertion begins, and its output granules are watched for writes (R399). -/
def State.beginInsertion (s : State) (r : HartRef) (p : PureState) : State :=
  let keys := (s.outGranules (s.who r) p).dedup
  let s1 := s.setPure r (some { p with phase := .insert })
  { s1 with outWatch := s1.outWatch ++ keys.map (fun k => { ref := r, key := k, dirty := false }) }

/-- Whether a hart's pure task has ended but for its insertion, or is a hit: its decrement has been made, or the retirement of the
hit makes it (17_reuse R392, R399). Its handler alone can issue then (notes/assumptions/95). -/
def Hart.ending (h : Hart) : Bool :=
  match h.pure with
  | some p =>
    (match p.phase with
    | .insert => true
    | .hit _ => true
    | .retire => true
    | _ => false)
  | none => false

/-- TDONE (R328, 17_reuse R399): a release; its raise waits, as a TURN does, for a migration (09_page R204). Of a task that has
ended it decrements nothing more, and the task goes on to its end (R341). -/
def execTdone (s : State) : Host.Outcome State Fault Refusal :=
  scalar [] [] (afterViqEmpty (afterWrites (fun s =>
    let h := s.me
    if s.tokensOut s.cur 0 then .wait false s
    else
      match h.lowestUnread 0 with
      | some r => .trap (engErr h r) s
      | none =>
        if h.dispatch = .root then .done ((s.advance 4).goIdle s.cur)
        else if h.ending then .done (s.advance 4)
        else
          match h.checkedBy with
          | none => (s.endDecrement s.cur).elim s (fun s' => .done ((s'.advance 4).goIdle s.cur))
          | some p =>
            if p.outputs.any (fun o => s.raiseWaits (s.myCtx.core :: p.cores) (s.who s.cur) o.1 o.2) then .wait false s else
            ((s.raiseOutputs s.cur p).endDecrement s.cur).elim s (fun s' =>
              if p.key.isSome then .done ((s'.advance 4).beginInsertion s.cur p)
              else .done ((s'.advance 4).goIdle s.cur))))) s

/-- SFARM (R339). -/
def execSfarm (a : SReg) (s : State) : Host.Outcome State Fault Refusal :=
  scalar [a] [] (impureOnly 6 (fun s =>
    let n := (s.readS a).toNat
    let k := s.me.farm + 1
    let done := fun (s : State) => Res.done ((s.withMe { s.me with farm := k }).advance 4)
    if 2 ^ 32 ≤ n then .trap (object 1 6) s
    else
      match s.kernel s.myCtx.kernel with
      | none => done s
      | some x =>
        if x.farm < k ∧ x.farmNext < x.farmN then .wait true s
        else if x.farm < k then
          done (s.withKernel s.myCtx.kernel { x with farm := k, farmN := n, farmNext := 0 })
        else if x.farm = k ∧ x.farmN ≠ n then .trap (object 1 6) s
        else done s)) s

/-- SNEXT (R340). -/
def execSnext (d : SReg) (s : State) : Host.Outcome State Fault Refusal :=
  scalar [] [d] (impureOnly 6 (fun s =>
    match s.kernel s.myCtx.kernel with
    | some x =>
      if x.farm = s.me.farm ∧ x.farmNext < x.farmN then
        .done ((s.withKernel s.myCtx.kernel { x with farmNext := x.farmNext + 1 }).retire 4 d (BitVec.ofNat 64 x.farmNext))
      else .done (s.retire 4 d (BitVec.allOnes 64))
    | none => .done (s.retire 4 d (BitVec.allOnes 64)))) s

/-- The registers that a SAVEMASK names (R333). -/
def maskRegs (m : BitVec 32) : List Nat := (List.range 32).filter (fun i => bit m i)

/-- The copy whose token a register waits for. -/
def State.tokenCopy (s : State) (r : HartRef) (n : Nat) : Option CopyCmd :=
  s.allCopies.find? (fun c => decide (c.ref = r) && decide (c.tok = .reg n))

/-- The building of a continuation (R333): the token is redirected to it, or stands in it at once. In a handler it holds the
handler's next PC, and the hart goes on there (notes/assumptions/95). -/
def State.suspend (s : State) (a : SReg) (m : BitVec 32) : State :=
  let h := s.me
  let c := s.myCtx
  let id := s.serial
  let copy := s.tokenCopy s.cur a.toNat
  let x : Cont := { id := id, pc := h.pc + 8, saved := (maskRegs m).map (fun i => (i, sget 0 h.regs i)), mask := m,
                    reg := a.toNat, kind := s.cur.kind, w1 := h.w1, w2 := h.w2, pure := h.pure,
                    token := if copy.isSome then none else some (s.readS a), ready := false }
  let s1 := s.withMyCtx { c with conts := c.conts ++ [x] }
  let s2 := match copy with
    | some q => s1.withCopy { q with tok := .cont id }
    | none => s1
  let h2 := s2.me
  let s3 := s2.withMe { h2 with busy := h2.busy.filter (fun n => decide (n ≠ a.toNat)), unread := [] }
  { (s3.advance 8).goIdle s.cur with serial := id + 1 }

/-- TSUSP (R333): a release, which leaves no vector work of the task behind (R328); a ninth core is a purity violation
(17_reuse R396, detail 9), which comes after the faults that R333 names (notes/assumptions/72). -/
def execTsusp (a : SReg) (m : BitVec 32) (s : State) : Host.Outcome State Fault Refusal :=
  scalar [] [] (afterViqEmpty (afterWrites (fun s =>
    let h := s.me
    let waits := (maskRegs m).any (fun i => decide (i ≠ a.toNat) && h.busy.contains i)
      || (h.busy.contains a.toNat && (s.tokenCopy s.cur a.toNat).isNone)
    if h.dispatch ≠ .task ∨ h.ending then .trap (object 1 5) s
    else if Config.contCap ≤ s.myCtx.conts.length then .trap (object 1 4) s
    else if s.tokensOut s.cur a.toNat ∨ waits then .wait false s
    else
      match h.lowestUnread a.toNat with
      | some r => .trap (engErr h r) s
      | none =>
        let go := fun (s : State) => Res.done ((s.suspend a m).admitConts s.myCtx.kernel)
        match h.checkedBy with
        | some p => if 8 ≤ p.cores.length then violation 9 0 s p go else go s
        | none => go s))) s

/-- The retirement of a hit that has been copied (17_reuse R392): the decrement of w2, and the hart is IDLE. -/
def State.retireHit (s : State) (r : HartRef) : State :=
  match s.endDecrement r with
  | .ok s1 => s1.goIdle r
  | .stall => s
  | .trap t => s.lookupTrap r t

/-- HIT_COPY_DONE (17_reuse R392): the copy of the hit of the hart h of the context a, which engines make, is done, and once
the hart may go on the task retires as by TDONE. When the copy meets a fault the task starts as a MISS without a claim, which
its HITS has counted already (notes/assumptions/115). A copy that a KILL has left completes (R412). -/
def execHitCopyDone (s : State) : Host.Outcome State Fault Refusal :=
  let r : HartRef := { cid := s.evArg.a, kind := s.evArg.h }
  let runs := (s.ctx r.cid).runs r.kind && (s.ctx r.cid).handler.isNone && (s.hart r).stalled.isNone
  match s.lateHit r, (s.hart r).pure with
  | some s1, _ => .next s1
  | none, none => .next s
  | none, some p =>
    match p.phase with
    | .hit e =>
      let w := s.who r
      if s.hitWaits w p.outputs e then .next s
      else
        match s.hitCopy w p.outputs e with
        | none => .next (((s.logImage w p.outputs e).endRead e).startPure r p)
        | some s1 =>
          let s2 := (s1.endRead e).setPure r (some { p with phase := .retire })
          .next (if runs then s2.retireHit r else s2)
    | .retire => .next (if runs then s.retireHit r else s)
    | _ => .next s

end Sys2Proof.Machine
end

