-- ==== Sys2Proof/Machine/CopyEngine.lean ====
section
/-! DEFINITION. The copy engine: checks, atoms, folds, compressed tiles, tensor tiles, stamps, exports, tokens
(10_copies R228–R246, R457; 12_context R287, R291). -/

namespace Sys2Proof.Machine

/-- What the engine's work on a unit answers: a result; an error for the token, its code and INFO (R231), and the address
that failed; a translation fault (R228); or a wait. -/
inductive Eng (α : Type) where
  | ok (a : α)
  | fail (code info : Nat) (at_ : Nat := 0)
  | fault (t : Trap)
  | wait
deriving DecidableEq, Repr

/-- The next work, when this has answered a result. -/
def Eng.bind {α β : Type} (m : Eng α) (f : α → Eng β) : Eng β :=
  match m with
  | .ok a => f a
  | .fail c i a => .fail c i a
  | .fault t => .fault t
  | .wait => .wait

/-- The code of a token's error for a trap that a hart would take (R231). -/
def engCode (t : Trap) : Nat :=
  match t.cause with
  | .pagefault => 1
  | .pageattr => 2
  | .turnfault => 3
  | .turnfull => 4
  | .eccfatal => 6
  | .misalign => 9
  | _ => 2

/-- The engine's answer for a check or access. -/
def MemRes.eng {α : Type} (m : MemRes α) : Eng α :=
  match m with
  | .ok a => .ok a
  | .trap t => if t.isXlat then .fault t else .fail (engCode t) 0 t.addr.toNat
  | .stall => .wait

/-- A list of works, in order. -/
def Eng.all {α : Type} : List (Eng α) → Eng (List α)
  | [] => .ok []
  | m :: r => m.bind (fun x => (Eng.all r).bind (fun xs => .ok (x :: xs)))

/-- The accessor of an atom of a command: its context's tenant, on the core it was issued on. -/
def State.atomWho (s : State) (x : CopyCmd) (i : Nat) : Who :=
  { ref := x.ref, core := x.core, tenant := (s.ctx x.ref.cid).tenant, copy := some (x.id, i) }

/-- The accessor of a command's reads and of what it writes to one place. -/
def State.copyWho (s : State) (x : CopyCmd) : Who := s.atomWho x 0

/-- The arrival level of a command (R226). -/
def CopyCmd.level (x : CopyCmd) : Level :=
  match x.instr with
  | .cpyout _ _ _ _ _ _ toa _ _ => levelOfCode toa.toNat
  | .scpy _ _ _ _ _ _ toa _ _ => levelOfCode toa.toNat
  | .tcpyOut _ _ _ _ _ toa _ _ _ _ _ => levelOfCode toa.toNat
  | _ => .none

/-- Kinds that a copy may read without decoding (R228). -/
def copySrcKinds : PageKind → Bool
  | .comp => false
  | _ => true

/-- Kinds that a copy may write without encoding (R228). -/
def copyDstKinds : PageKind → Bool
  | .comp => false
  | .pool => false
  | _ => true

/-- The bytes of a COMP page's frame. -/
def State.frameImage (s : State) (frame : Nat) (off n : Nat) : List Byte := s.memBytes (frame + off) n

/-- The bytes of one piece of a source (R228, R245): a COMP page's tile is decoded; where that fails, INFO counts the tiles
of the copy. -/
def State.pieceBytes (s : State) (x : CopyCmd) (p : Place × Nat × Nat) : Eng (List Byte) :=
  if p.1.kind = .comp then
    let frame := p.1.pa / 65536 * 65536
    let k := p.2.1 / 4096 - x.src.toNat / 4096
    if imgUbytes (s.memWord frame) ≠ 65536 then .fail 5 k
    else
      match decodeTile (s.frameImage frame) 65536 (p.1.pa % 65536 / 4096) with
      | some bs => .ok ((bs.drop (p.1.pa % 4096)).take p.2.2)
      | none => .fail 5 k
  else .ok (s.placeBytes p.1 p.2.2)

/-- A read by the engine (R228): the checks, then the bytes; pieces of a COMP page do not cross a tile. -/
def State.engRead (s : State) (x : CopyCmd) (kinds : PageKind → Bool) (a n : Nat) : Eng (List Byte) :=
  (s.locate (s.copyWho x) 1 .read a n).eng.bind (fun r =>
    match r with
    | .window i off => .ok ((s.ctx x.ref.cid).windowBytes i off n)
    | .pages ps =>
      (orTrap (attrCheck 1 kinds ps) <| s.afterSends x.core ps <| orTrap (s.turnCheck x.core 1 ps) <|
        orTrap (s.eccCheck x.core 1 ps) (.ok ())).eng.bind (fun _ => (Eng.all (ps.map (s.pieceBytes x))).bind (fun bss => .ok bss.flatten)))

/-- A write of atom i by the engine to global memory (R228). -/
def State.engWrite (s : State) (x : CopyCmd) (i a : Nat) (bs : List Byte) : Eng State :=
  (s.storeCheck (s.atomWho x i) .write copyDstKinds 1 x.level false a bs.length).eng.bind (fun r =>
    match r with
    | .window _ _ => .fail 2 0
    | .pages ps => .ok (s.writeTurned (s.atomWho x i) x.level a bs ps))

/-- Where an address lies for a command: in the IS, in the OS, or in global memory (R229). -/
inductive Cls where
  | is | os | global
deriving DecidableEq, Repr

/-- The class of an address. -/
def Ctx.cls (c : Ctx) (a : Nat) : Cls :=
  match c.windowOf a with
  | some (true, _) => .is
  | some (false, _) => .os
  | none => .global

/-- Whether n bytes at a window address pass the window's end. -/
def Ctx.passesWindow (c : Ctx) (a n : Nat) : Bool :=
  match c.windowOf a with
  | some (i, off) => decide ((if i then c.isBytes else c.osBytes) < off + n)
  | none => false

/-- A window of a context written. -/
def State.putIs (s : State) (cid a : Nat) (bs : List Byte) : State :=
  let c := s.ctx cid
  s.withCtx cid { c with isw := ssetList 0 c.isw (a - windowLo) bs }

/-- Bytes of the register group at a register (R237): as elements of 8 bits. -/
def Ctx.groupBytes (c : Ctx) (r : VReg) (off n : Nat) : List Byte :=
  (List.range n).map (fun i => BitVec.ofNat 8 (c.elem r 8 (off + i)))

/-- A register group written (R237). -/
def State.putGroup (s : State) (cid : Nat) (r : VReg) (off : Nat) (bs : List Byte) : State :=
  s.withCtx cid ((s.ctx cid).setElems r 8 ((List.range bs.length).zip bs |>.map (fun p => (off + p.1, p.2.toNat))))

/-- The context that a CPYREG writes (R238): that of the kernel's member on the target core. -/
def State.cpyregTarget (s : State) (x : CopyCmd) : Option Nat :=
  let k := (s.ctx x.ref.cid).kernel
  (s.kernel k).bind (fun y => (y.cores.findIdx? (fun c => decide (c = bits x.aux 0 9))).map (fun m => k * 384 + m))

/-- ESZ of a tensor descriptor, in bytes (R241). -/
def tdEsz (d : List Word) : Nat := 2 ^ bits (d.getD 1 0) 0 2
/-- Dimensions of a tensor (R241). -/
def tdDims (d : List Word) : Nat := bits (d.getD 1 0) 2 2 + 1
/-- The extent of a dimension (R241). -/
def tdExtent (d : List Word) (i : Nat) : Nat := bits (d.getD 2 0) (16 * i) 16
/-- The tile size of a dimension (R241). -/
def tdSize (d : List Word) (i : Nat) : Nat := bits (d.getD 3 0) (16 * i) 16

/-- The nominal size of a tile (R242). -/
def tdNominal (d : List Word) : Nat := ((List.range (tdDims d)).map (tdSize d)).foldl (· * ·) (tdEsz d)

/-- Whether a tensor descriptor and tile indices break R241, R242. -/
def tdBad (d : List Word) (t : List Nat) : Bool :=
  decide (bits (d.getD 0 0) 57 7 ≠ 0) || decide (bits (d.getD 1 0) 4 60 ≠ 0) || decide (d.getD 7 0 ≠ 0)
    || (List.range 4).any (fun i =>
        if i < tdDims d then decide (tdExtent d i = 0) || decide (tdSize d i = 0)
        else decide (tdExtent d i ≠ 0) || decide (tdSize d i ≠ 0) || decide (t.getD i 0 ≠ 0))

/-- The index of packed element e in dimension i of tile t (R242). -/
def tdIndex (d : List Word) (t : List Nat) (e i : Nat) : Nat :=
  let below := ((List.range i).map (tdSize d)).foldl (· * ·) 1
  t.getD i 0 * tdSize d i + e / below % tdSize d i

/-- The address of packed element e of tile t; none outside the tensor (R242). -/
def tdAddr (d : List Word) (t : List Nat) (e : Nat) : Option Nat :=
  let dims := List.range (tdDims d)
  if dims.all (fun i => decide (tdIndex d t e i < tdExtent d i)) then
    some (dims.foldl (fun a i =>
      a + BitVec.ofNat 64 (tdIndex d t e i) * (if i = 0 then BitVec.ofNat 64 (tdEsz d) else d.getD (3 + i) 0))
      (d.getD 0 0)).toNat
  else none

/-- The tile indices of a TCPY. -/
def CopyCmd.tile (x : CopyCmd) : List Nat :=
  match x.instr with
  | .tcpyIn _ _ _ _ _ _ t0 t1 t2 t3 _ => [t0.toNat, t1.toNat, t2.toNat, t3.toNat]
  | .tcpyOut _ _ _ _ _ _ t0 t1 t2 t3 _ => [t0.toNat, t1.toNat, t2.toNat, t3.toNat]
  | _ => []

/-- COMP of a command (R245). -/
def CopyCmd.comp (x : CopyCmd) : Bool :=
  match x.instr with
  | .cpyin _ _ _ _ _ _ _ comp _ _ _ => decide (comp = 1)
  | .tcpyIn _ _ _ _ comp _ _ _ _ _ _ => decide (comp = 1)
  | _ => false

/-- The register group that a CPYIN writes (R237). -/
def CopyCmd.vdst (x : CopyCmd) : Option (VReg × Nat) :=
  match x.instr with
  | .cpyin _ a _ _ _ vdst vg _ _ _ _ => if vdst = 1 then some (a, 2 ^ vg.toNat) else none
  | _ => none

/-- The bytes that a command moves, its stamp apart. -/
def CopyCmd.total (x : CopyCmd) : Nat :=
  match x.instr with
  | .tcpyIn .. => tdNominal x.desc
  | .tcpyOut .. => tdNominal x.desc
  | _ => x.len.toNat

/-- An access of a form that takes global memory only, at an address with a byte in the local window region: a window miss
is PAGEFAULT, a window PAGEATTR (R229; 02_machine R35). -/
def State.globalOnly (s : State) (x : CopyCmd) (a n : Nat) : Eng Unit :=
  if touchesWindows a n then
    match s.locate (s.copyWho x) 1 .nothing a n with
    | .ok _ => .fail 2 0
    | _ => .fail 1 0
  else .ok ()

/-- The bytes of a tensor at packed offsets [off, off + n) (R242): zeros outside. -/
def State.tensorRead (s : State) (x : CopyCmd) (off n : Nat) : Eng (List Byte) :=
  let z := tdEsz x.desc
  (Eng.all ((List.range (n / z)).map (fun i =>
    match tdAddr x.desc x.tile (off / z + i) with
    | none => .ok (List.replicate z 0)
    | some a => (s.globalOnly x a z).bind (fun _ => s.engRead x copySrcKinds a z)))).bind (fun bss => .ok bss.flatten)

/-- The elements of a tensor at packed offsets written (R242): nothing outside. -/
def tensorWrite (x : CopyCmd) (off : Nat) (bs : List Byte) (s : State) : Eng State :=
  let z := tdEsz x.desc
  (List.range (bs.length / z)).foldl (fun acc i => acc.bind (fun s =>
    match tdAddr x.desc x.tile (off / z + i) with
    | none => .ok s
    | some a => (s.globalOnly x a z).bind (fun _ => s.engWrite x (off / 64) a ((bs.drop (z * i)).take z)))) (.ok s)

/-- The source bytes of a CPYIN: with VDST = 0 a source that begins in global memory takes no byte of a window (R229). -/
def State.inRead (s : State) (x : CopyCmd) (vdst : BitVec 1) (a n : Nat) : Eng (List Byte) :=
  if vdst = 0 ∧ (s.ctx x.ref.cid).cls x.src.toNat = .global then (s.globalOnly x a n).bind (fun _ => s.engRead x anyKind a n)
  else s.engRead x anyKind a n

/-- The source bytes [off, off + n) of a command. -/
def State.copyRead (s : State) (x : CopyCmd) (off n : Nat) : Eng (List Byte) :=
  let c := s.ctx x.ref.cid
  let src := x.src.toNat + off
  match x.instr with
  | .tcpyIn .. => s.tensorRead x off n
  | .cpyreg _ _ b _ _ _ _ _ _ => .ok (c.groupBytes b off n)
  | .cpyin _ _ _ _ _ vdst _ _ _ _ _ => s.inRead x vdst src n
  | _ => s.engRead x copySrcKinds src n

/-- The source bytes [off, off + n) of a command, read in two parts where they cross a tile of a COMP page. -/
def State.spanRead (s : State) (x : CopyCmd) (off n : Nat) : Eng (List Byte) :=
  let m := min n (4096 - (x.src.toNat + off) % 4096)
  if n ≤ m then s.copyRead x off n
  else (s.copyRead x off m).bind (fun a => (s.copyRead x (off + m) (n - m)).bind (fun b => .ok (a ++ b)))

/-- A write of a whole tile to a COMP page (R245): the frame's image is rebuilt with the tile's new encoding, if it fits;
the tile's logical granules are marked. -/
def State.compWrite (s : State) (x : CopyCmd) (pl : Place) (va : Nat) (bs : List Byte) : Eng State :=
  let frame := pl.pa / 65536 * 65536
  let k := pl.pa % 65536 / 4096
  let img := s.frameImage frame
  let old := fun (j : Nat) => match tilePlace 65536 (wordOfBytes (img (8 + 8 * j) 8)) with
    | some p => img p.1 p.2
    | none => []
  let image := buildImage 65536 ((List.range 16).map (fun j => if j = k then encodeTile bs else old j))
  let w := s.copyWho x
  let others := (List.range 16).filter (fun j => decide (j ≠ k))
  if others.any (fun j => (s.tileParts frame j).any (fun p => s.imageBad w.core p.1 p.2)) then .fail 6 0 va
  else if 65536 < image.length then .fail 11 0
  else if s.migrating .comp pl.pa || s.behind w.core .comp frame 65536 then .wait
  else if (s.fullAt w.core x.level false (granSplit [(pl, va, 4096)]) (s.pending w.core + s.underWay w.core)).isSome then .fail 4 0
  else
    let s1 := s.writeCopy .sync frame image w.core .none w.tenant
    .ok ((List.range 64).foldl (fun s g =>
      let key := granKey .comp (pl.pa / 4096 * 4096 + 64 * g)
      { s with gran := if x.level = .host then tdel s.gran key
                       else tput s.gran key { writer := w.core, level := x.level, tenant := w.tenant, comp := some va } }) s1)

/-- The place of one byte for a command's write. -/
def State.dstPlace (s : State) (x : CopyCmd) (a : Nat) : Option Place :=
  if 2 ^ 57 ≤ a ∨ touchesWindows a 1 then none else s.translate x.core (s.copyWho x).tenant .write a

/-- A register group of another core's context written by a command (R238); without a route to that core the write is discarded
(18_link R422; notes/assumptions/71). -/
def State.regWrite (s : State) (x : CopyCmd) (cid : Nat) (r : VReg) (off : Nat) (bs : List Byte) : State :=
  if s.noneDown || (s.coreRoute x.core (s.ctx cid).core).isSome then s.putGroup cid r off bs
  else s.lostWrite (s.copyWho x).tenant x.core 0 bs.length

/-- The destination of a command written at [off, off + n). -/
def State.copyWrite (s : State) (x : CopyCmd) (off : Nat) (bs : List Byte) : Eng State :=
  let dst := x.dst.toNat + off
  match x.instr with
  | .cpyin _ a _ _ _ vdst _ _ _ _ _ =>
    if vdst = 1 then .ok (s.putGroup x.ref.cid a off bs) else .ok (s.putIs x.ref.cid dst bs)
  | .tcpyIn .. => .ok (s.putIs x.ref.cid dst bs)
  | .tcpyOut .. => tensorWrite x off bs s
  | .cpyreg _ a _ _ _ _ _ _ _ =>
    match s.cpyregTarget x with
    | some cid => if (s.ctx cid).present then .ok (s.regWrite x cid a off bs) else .wait
    | none => .fail 8 0
  | .cpyout .. =>
    match s.dstPlace x dst with
    | some pl => if pl.kind = .comp then s.compWrite x pl dst bs else s.engWrite x (off / 64) dst bs
    | none => s.engWrite x (off / 64) dst bs
  | _ => s.engWrite x (off / 64) dst bs

/-- Whether a page of [a, a + n) is a COMP page for a command. -/
def State.onComp (s : State) (x : CopyCmd) (a n : Nat) : Bool :=
  (pagePieces a n).any (fun p =>
    match s.translate x.core (s.copyWho x).tenant .nothing p.1 with
    | some pl => decide (pl.kind = .comp) && !touchesWindows p.1 1
    | none => false)

/-- Whether a command's units go in ascending order: it decodes or encodes tiles (R245). -/
def State.ascending (s : State) (x : CopyCmd) : Bool :=
  x.comp || (match x.instr with
    | .cpyin .. => s.onComp x x.src.toNat x.total
    | .cpyout .. => s.onComp x x.dst.toNat x.total
    | _ => false)

/-- Whether a command with COMP encodes into the IS (R245): a tile of its source does not come from a COMP page. -/
def State.encodes (s : State) (x : CopyCmd) : Bool :=
  x.comp && (match x.instr with
    | .cpyin .. =>
      !(pagePieces x.src.toNat x.total).all (fun p =>
        match s.translate x.core (s.copyWho x).tenant .nothing p.1 with
        | some pl => decide (pl.kind = .comp) && !touchesWindows p.1 1
        | none => false)
    | _ => true)

/-- The lengths of the tiles that a command has encoded so far. -/
def CopyCmd.lens (x : CopyCmd) : List Nat :=
  let ws : List Word := match x.instr with
    | .tcpyIn .. => x.desc.drop 8
    | _ => x.desc
  ws.map (fun w => w.toNat)

/-- Tile k of the image that a CPYIN or TCPY.IN with COMP makes in the IS (R245): from a COMP page undecoded, else
encoded from the source. -/
def State.inTile (s : State) (x : CopyCmd) (k : Nat) : Eng (List Byte) :=
  let n := x.total
  let len := min 4096 (n - 4096 * k)
  let a := x.src.toNat + 4096 * k
  let tcpy := match x.instr with | .tcpyIn .. => true | _ => false
  if !tcpy && s.onComp x a len then
    if x.src.toNat % 4096 ≠ 0 ∨ n % 4096 ≠ 0 then .fail 7 0
    else
      (s.locate (s.copyWho x) 1 .read a len).eng.bind (fun r =>
        match r with
        | .pages ((pl, va, m) :: rest) =>
          let ps := (pl, va, m) :: rest
          (s.afterSends x.core ps <| orTrap (s.turnCheck x.core 1 ps) <| orTrap (s.eccCheck x.core 1 ps) (.ok ())).eng.bind (fun _ =>
            match rawTile (s.frameImage (pl.pa / 65536 * 65536)) 65536 (pl.pa % 65536 / 4096) with
            | some bs => .ok bs
            | none => .fail 5 k)
        | _ => .fail 2 0)
  else (s.copyRead x (4096 * k) len).bind (fun bs => .ok (encodeTile bs))

/-- A unit of a command that makes an image in the IS: tile k with its table entry (R244, R245). Tiles copied undecoded end
with RANGE where their image would pass the window, with the zeros that bring each tile, the last too, to a multiple of 16
bytes (notes/assumptions/94). -/
def State.encodeUnit (s : State) (x : CopyCmd) (k : Nat) : Eng (State × CopyCmd × Nat) :=
  let n := x.total
  let T := ceilDiv n 4096
  (s.inTile x k).bind (fun bs =>
    let lens := x.lens ++ [bs.length]
    let off := (tilePlaces (tileStart T) lens).getD k 0
    let d := x.dst.toNat
    if (s.ctx x.ref.cid).passesWindow d (off + alignUp bs.length 16) then .fail 7 0 else
    let s1 := if k = 0 then
        s.putIs x.ref.cid d (padTo (tileStart T) (bytesOfWord 8 (imageHead n T)))
      else s
    let s2 := s1.putIs x.ref.cid (d + 8 + 8 * k) (bytesOfWord 8 (tileEntry off bs.length))
    let s3 := s2.putIs x.ref.cid (d + off) (padTo (alignUp bs.length 16) bs)
    .ok (s3, { x with desc := x.desc ++ [BitVec.ofNat 64 bs.length] }, min 4096 (n - 4096 * k)))

/-- A unit of a CPYIN that decodes an image of the IS into registers: tile k (R245). The image is taken to end where the
window does (notes/assumptions/94). -/
def State.decodeUnit (s : State) (x : CopyCmd) (k : Nat) : Eng (State × CopyCmd × Nat) :=
  let c := s.ctx x.ref.cid
  let base := x.src.toNat - windowLo
  match decodeTile (fun off n => c.windowBytes true (base + off) n) (c.isBytes - base) k with
  | none => .fail 5 k
  | some bs =>
    let len := min 4096 (x.total - 4096 * k)
    (s.copyWrite x (4096 * k) (bs.take len)).bind (fun s1 => .ok (s1, x, len))

/-- The length of the unit at offset p of a command whose units ascend: a tile of a COMP destination; an element group of a
register group (R237); else what lies before the next atom, and before the next tile of the source. -/
def State.unitLen (s : State) (x : CopyCmd) (p : Nat) : Eng Nat :=
  let n := x.total
  match x.instr with
  | .cpyout .. =>
    let dst := x.dst.toNat + p
    if s.onComp x dst 1 then
      if dst % 4096 = 0 ∧ p + 4096 ≤ n then .ok 4096 else .fail 2 0
    else .ok (min (min (64 - p % 64) (n - p)) (4096 - dst % 4096))
  | .cpyin _ _ _ _ _ vdst _ _ _ _ _ =>
    .ok (if vdst = 1 then min (512 - p % 512) (n - p)
         else min (min (64 - p % 64) (n - p)) (4096 - (x.src.toNat + p) % 4096))
  | _ => .ok (min (min (64 - p % 64) (n - p)) (4096 - (x.src.toNat + p) % 4096))

/-- The unit at offset p of a command whose units ascend: the state, the command, and the bytes it has moved. -/
def State.ascendUnit (s : State) (x : CopyCmd) (p : Nat) : Eng (State × CopyCmd × Nat) :=
  if x.comp then
    (match x.vdst with
    | some _ => s.decodeUnit x (p / 4096)
    | none => s.encodeUnit x (p / 4096))
  else
    (s.unitLen x p).bind (fun len => (s.spanRead x p len).bind (fun bs =>
      (s.copyWrite x p bs).bind (fun s1 => .ok (s1, x, len))))

/-- The terms that a fold combines into destination element j (R239). -/
def State.foldTerms (s : State) (x : CopyCmd) (j : Nat) : Eng (List Val) :=
  let m := x.len.toNat / 4
  (Eng.all ((List.range (ceilDiv (m - j) 128)).map (fun t => s.engRead x copySrcKinds (x.src.toNat + 4 * (j + 128 * t)) 4))).bind
    (fun bss => .ok (bss.map (fun bs => f32Val (natOfBytes bs))))

/-- The combination of terms in an order that the engine chooses, which is free (R239, notes/assumptions/6): two of them
are combined at a time. -/
def foldFree (op : Nat) : Nat → Nat → List Val → Val × Nat
  | 0, ctr, vs => (vs.headD Val.zero, ctr)
  | n + 1, ctr, vs =>
    match vs with
    | [] => (Val.zero, ctr)
    | [v] => (v, ctr)
    | _ =>
      let i := Config.freeChoice ctr % vs.length
      let r := dropAt vs i
      let j := Config.freeChoice (ctr + 1) % r.length
      foldFree op n (ctr + 2) (foldVal op (vs.getD i Val.zero) (r.getD j Val.zero) :: dropAt r j)

/-- The update of destination element j of a CPYFOLD (R239): indivisible, at the home slice. The elements are updated in
ascending order (notes/assumptions/42). -/
def State.foldUnit (s : State) (x : CopyCmd) (op : Nat) (ordered : Bool) (j : Nat) : Eng (State × CopyCmd × Nat) :=
  (s.foldTerms x j).bind (fun vs =>
    let r := if ordered then
        ((match vs with | [] => Val.zero | v :: rest => rest.foldl (foldVal op) v), s.freeCtr)
      else foldFree op vs.length s.freeCtr vs
    let s1 : State := { s with freeCtr := r.2 }
    let a := x.dst.toNat + 4 * j
    (s.locate (s.copyWho x) 2 .write a 4).eng.bind (fun g =>
      match g with
      | .pages ((pl, va, _) :: _) =>
        if pl.kind ≠ .sync then .fail 2 0
        else if s.migrating .sync pl.pa || s.behind x.core .sync pl.pa 4 then .wait
        else if (s.eccCheck x.core 2 [(pl, va, 4)]).isSome then .fail 6 0 va
        else
          let old := f32Val (natOfBytes (s.memBytes pl.pa 4))
          .ok (s1.syncWrite (s.copyWho x) pl.pa (bytesOfNat 4 (f32Bits (foldVal op old r.1))), x, 4 * vs.length)
      | _ => .fail 2 0))

/-- The raise of an EXPORT (R246): a TURN at HOST of the page's logical granules by the core; the foreign count too. -/
def State.exportTurn (s : State) (core pa : Nat) : State × Nat :=
  let keys := (List.range 1024).map (fun g => granKey .comp (pa + 64 * g))
  let r := keys.foldl (turnCopy core .host) (s, 0)
  (r.1.dropStrips (fun _ => true) keys, r.2)

/-- EXPORT (R246): the page's granules with the core as writer are raised to HOST; then the record, for which the table of the
page's image and the header of the ring are read (20_system R454; 18_link R422). -/
def State.exportUnit (s : State) (x : CopyCmd) : Eng (State × CopyCmd × Nat) :=
  let w := s.copyWho x
  let a := x.src.toNat / 65536 * 65536
  (s.locate w 1 .nothing a 65536).eng.bind (fun r =>
    match r with
    | .pages ((pl, _, _) :: _) =>
      if pl.kind ≠ .comp then .fail 2 0
      else if s.migrating .comp pl.pa || s.behind x.core .comp pl.pa 65536 then .wait
      else
        let r := s.exportTurn x.core pl.pa
        if 0 < r.2 then .fail 8 0
        else
          let s1 := r.1
          let base := (s1.tenant w.tenant).texport.toNat
          match s1.badHalf x.core pl.pa 136 with
          | some h => .fail 6 0 (a + (32 * h - pl.pa))
          | none =>
          let ws : List Word := [BitVec.ofNat 64 a, BitVec.ofNat 64 pl.pa, BitVec.ofNat 64 (imageLength (s1.frameImage pl.pa)),
                                 s1.wgenOf (frameKey .comp pl.pa)]
          if base = 0 then .ok (s1, x, 65536)
          else if !s1.routeTo x.core .hostmem base then .fail 6 0 a
          else
            match s1.ringPut base (s1.hostWord (base + 8)) ws with
            | some s2 => .ok (s2, x, 65536)
            | none => .wait
    | _ => .fail 2 0)

/-- The raises of an EXPORT that ends with TARGET stay (R246). -/
def State.exportRaise (s : State) (x : CopyCmd) : State :=
  match x.instr with
  | .exportPage _ _ =>
    let w := s.copyWho x
    match s.locate w 1 .nothing (x.src.toNat / 65536 * 65536) 65536 with
    | .ok (.pages ((pl, _, _) :: _)) =>
      if pl.kind = .comp then (s.exportTurn x.core pl.pa).1 else s
    | _ => s
  | _ => s

/-- A success word: the bytes delivered (R231). -/
def okStatus (n : Nat) : Word := BitVec.ofNat 64 n
/-- An error word (R231). -/
def errStatus (code info n : Nat) : Word := BitVec.ofNat 64 (2 ^ 63 + code * 2 ^ 56 + info * 2 ^ 40 + n)

/-- A post of n bytes to the barrier of a command (R233); nothing when the barrier is no longer the kernel's (R377). -/
def State.postBytes (s : State) (x : CopyCmd) (n : Nat) : State :=
  match x.bar.bind (fun h => s.barOf (s.ctx x.ref.cid).kernel h) with
  | some r => s.withBarrier r ((s.barrier r).addPend (-(n : Int))).test
  | none => s

/-- Whether the barrier of a command runs a collective, which its posts wait for (16_barrier R373). -/
def State.postWaits (s : State) (x : CopyCmd) : Bool :=
  match x.bar.bind (fun h => s.barOf (s.ctx x.ref.cid).kernel h) with
  | some r => (s.barrier r).running
  | none => false

/-- Bytes retired: in the command, and at the barrier (R230, R233). -/
def State.retireBytes (s : State) (x : CopyCmd) (n : Nat) : State × CopyCmd :=
  (if n = 0 then s else s.postBytes x n, { x with retired := x.retired + n, posted := x.posted + n })

/-- Whether every effect of an atom of a command has been made: none of its multicasts is under way (11_ordering R265). -/
def State.atomDone (s : State) (x : CopyCmd) (i : Nat) : Bool := !s.packets.any (fun p => decide (p.copy = some (x.id, i)))

/-- The command after bytes below p have been moved in ascending order: the atoms that are whole. -/
def CopyCmd.movedTo (x : CopyCmd) (p : Nat) : CopyCmd :=
  let whole := ((List.range (p / 64 + 1 - x.upTo / 64)).map (· + x.upTo / 64)).filter (fun i =>
    decide (64 * i < p) && decide (min (64 * (i + 1)) x.total ≤ p))
  { x with upTo := p, moved := whole.foldl insertNat x.moved }

/-- Whether every effect of a command has been made. -/
def State.effectsDone (s : State) (x : CopyCmd) : Bool :=
  !s.packets.any (fun p => match p.copy with | some c => decide (c.1 = x.id) | none => false)

/-- The atoms of 64 bytes that may retire now, in ascending order: each posts its bytes, until a post starts a collective
(16_barrier R373). -/
def retireAtoms : Nat → State × CopyCmd → State × CopyCmd
  | 0, p => p
  | f + 1, p =>
    let i := p.2.retired / 64
    if p.2.retired < p.2.total ∧ p.2.moved.contains i ∧ p.1.atomDone p.2 i ∧ !p.1.postWaits p.2 then
      retireAtoms f (p.1.retireBytes p.2 (min 64 (p.2.total - p.2.retired)))
    else p

/-- Whether a command writes a stamp after its payload (R240). -/
def CopyCmd.stamps (x : CopyCmd) : Bool :=
  match x.instr with
  | .scpy .. => true
  | _ => false

/-- The bytes below a failing atom that a command delivers: of a register group whole element groups (R237). -/
def CopyCmd.below (x : CopyCmd) (atom : Nat) : Nat := if x.vdst.isSome then atom / 8 * 512 else 64 * atom

/-- The status word of a command that has come to its end (R230, R231). -/
def CopyCmd.settle (x : CopyCmd) : CopyCmd :=
  match x.fail with
  | some (atom, code, info) => if x.below atom ≤ x.retired then { x with status := some (errStatus code info x.retired) } else x
  | none => if x.retired = x.total ∧ !x.stamps then { x with status := some (okStatus x.total) } else x

/-- A failing atom: the lowest stands (R230). -/
def CopyCmd.failAt (x : CopyCmd) (atom code info : Nat) : CopyCmd :=
  match x.fail with
  | some (a, c, i) => if atom < a then { x with fail := some (atom, code, info) } else { x with fail := some (a, c, i) }
  | none => { x with fail := some (atom, code, info) }

/-- An uncorrectable error that a command meets is logged (20_system R447). -/
def State.logCopy (s : State) (x : CopyCmd) (code a : Nat) : State := if code = 6 then s.logEcc (s.copyWho x) a else s

/-- A command that ends in error at what it has retired. -/
def CopyCmd.endError (x : CopyCmd) (code info : Nat) : CopyCmd :=
  { x with status := some (errStatus code info x.retired) }

/-- A translation fault of a command (R228, 12_context R291): a record for the supervisor that names the issuing hart, with
SPC and VCP 0 (notes/assumptions/103), or PAGEFAULT in the token. -/
def State.copyFault (s : State) (x : CopyCmd) (t : Trap) (fails : CopyCmd) : State :=
  if s.supervisor.isNone ∨ (s.ctx x.ref.cid).slotState = .free then s.withCopy fails
  else
    let id := s.serial
    let r := { trapRecord s id x.ref t (trapInfo t false false) 0 0 with job := some x.id }
    { s.withCopy { x with record := some id } with traps := s.traps ++ [r], serial := id + 1 }

/-- Whether two byte ranges of one store of a context meet. -/
def localMeets (a b : Nat × Cls × Nat × Nat) : Bool :=
  decide (a.1 = b.1) && decide (a.2.1 = b.2.1) && decide (a.2.2.1 < b.2.2.2) && decide (b.2.2.1 < a.2.2.2)

/-- The bytes that an image of n bytes may take in the IS (R245). -/
def worstImage (n : Nat) : Nat := 8 + 8 * ceilDiv n 4096 + 4128 * ceilDiv n 4096

/-- The local ranges of a command (R235): context, store (`global` stands for the vector registers), first and past-last;
where its extent is not known, of an image that is decoded or of a tile whose descriptor has not been read, to the end of
the window. -/
def State.localRanges (s : State) (x : CopyCmd) : List (Nat × Cls × Nat × Nat) :=
  let cid := x.ref.cid
  let c := s.ctx cid
  let n := x.len.toNat
  let range := fun (a : Nat) (len : Option Nat) =>
    match c.cls a with
    | .is => [(cid, Cls.is, a, (len.map (a + ·)).getD (windowLo + c.isBytes))]
    | .os => [(cid, Cls.os, a, (len.map (a + ·)).getD (osBase + c.osBytes))]
    | .global => []
  let group := fun (cid : Nat) (r : VReg) (g : Nat) => [(cid, Cls.global, r.toNat, r.toNat + g)]
  let tile := if x.desc = [] then none else some (tdNominal x.desc)
  match x.instr with
  | .cpyin _ a _ _ _ vdst vg _ _ _ _ =>
    if vdst = 1 then range x.src.toNat (if x.comp then none else some n) ++ group cid a (2 ^ vg.toNat)
    else range x.src.toNat (some n) ++ range x.dst.toNat (some (if x.comp then worstImage n else n))
  | .cpyreg _ a b _ _ _ vg _ _ =>
    group cid b (2 ^ vg.toNat) ++ (match s.cpyregTarget x with | some t => group t a (2 ^ vg.toNat) | none => [])
  | .scpy .. => range x.src.toNat (some (n + 8))
  | .tcpyIn .. => range x.dst.toNat (tile.map (fun m => if x.comp then worstImage m else m))
  | .tcpyOut .. => range x.src.toNat tile
  | .exportPage _ _ => []
  | _ => range x.src.toNat (some n)

/-- A TCPY with the descriptor that it reads if it starts now (R241), as a load of no alignment (notes/assumptions/77). -/
def State.withDescriptor (s : State) (x : CopyCmd) : CopyCmd :=
  if x.tile = [] ∨ x.started then x
  else
    match s.loadFor (s.copyWho x) 1 .read loadKinds 1 x.aux.toNat 64 with
    | .ok bs => { x with desc := wordsOfBytes 8 bs }
    | _ => x

/-- The earlier commands of a queue. -/
def earlier (id : Nat) : List CopyCmd → List CopyCmd
  | [] => []
  | x :: r => if x.id = id then [] else x :: earlier id r

/-- The range checker (R235): whether a command may start its accesses. -/
def State.mayStart (s : State) (x : CopyCmd) : Bool :=
  !(earlier x.id (s.copyQueue x.core)).any (fun y =>
    (s.localRanges (s.withDescriptor x)).any (fun a => (s.localRanges y).any (localMeets a)))

/-- The memory operands of a command: its start addresses, the source first. -/
def CopyCmd.starts (x : CopyCmd) : List Nat :=
  match x.instr with
  | .cpyin _ _ _ _ _ vdst _ _ _ _ _ => x.src.toNat :: (if vdst = 1 then [] else [x.dst.toNat])
  | .cpyreg .. => []
  | .tcpyIn .. => [x.dst.toNat]
  | .tcpyOut .. => [x.src.toNat]
  | .exportPage _ _ => [x.src.toNat]
  | _ => [x.src.toNat, x.dst.toNat]

/-- PAGEFAULT of the command-level checks (R457). -/
def Ctx.startFault (c : Ctx) (a : Nat) : Bool :=
  decide (2 ^ 57 ≤ a) || (touchesWindows a 1 && (c.windowOf a).isNone)

/-- PAGEATTR of the command-level checks: the classes of R229, and of R245 for COMP into registers. -/
def Ctx.badClass (c : Ctx) (x : CopyCmd) : Bool :=
  let src := c.cls x.src.toNat
  let dst := c.cls x.dst.toNat
  match x.instr with
  | .cpyin _ _ _ _ _ vdst _ _ _ _ _ =>
    if vdst = 1 then x.comp && decide (src ≠ .is) else decide (src = .is) || decide (dst ≠ .is)
  | .cpyreg .. => false
  | .tcpyIn .. => decide (dst ≠ .is)
  | .tcpyOut .. => decide (src ≠ .os)
  | .exportPage _ _ => decide (src ≠ .global)
  | _ => decide (src ≠ .os) || decide (dst ≠ .global)

/-- Whether a group of registers breaks its limits (R237, R238). -/
def Ctx.badGroup (c : Ctx) (r : VReg) (g n : Nat) : Bool :=
  decide (r.toNat % g ≠ 0) || decide (32 < r.toNat + g) || decide (g * c.usedBytes < n)

/-- RANGE of the command-level checks (R230, R237–R245). -/
def State.badRange (s : State) (x : CopyCmd) : Bool :=
  let c := s.ctx x.ref.cid
  let n := x.total
  let encodes := s.encodes x && (decide (x.dst.toNat % 64 ≠ 0) || c.passesWindow x.dst.toNat (worstImage n))
  decide (2 ^ 40 ≤ n) ||
  (match x.instr with
  | .cpyin _ a _ _ _ vdst vg _ _ _ _ =>
    if vdst = 1 then c.badGroup a (2 ^ vg.toNat) n || (!x.comp && c.passesWindow x.src.toNat n)
    else c.passesWindow x.src.toNat n || (!x.comp && c.passesWindow x.dst.toNat n) || encodes
  | .cpyreg _ a b _ _ _ vg _ _ =>
    c.badGroup b (2 ^ vg.toNat) n || (match s.cpyregTarget x with
      | some t => (s.ctx t).badGroup a (2 ^ vg.toNat) n
      | none => false)
  | .cpyfold .. => c.passesWindow x.src.toNat n || decide (n % 4 ≠ 0)
  | .scpy .. => c.passesWindow x.src.toNat (n + 8) || decide ((x.dst.toNat + n) % 8 ≠ 0)
  | .tcpyIn .. => tdBad x.desc x.tile || c.passesWindow x.dst.toNat n || encodes
  | .tcpyOut .. => tdBad x.desc x.tile || c.passesWindow x.src.toNat n
  | _ => c.passesWindow x.src.toNat n)

/-- The checks of R457 that come before a tensor descriptor is read: none, or the status word. -/
def State.checkFirst (s : State) (x : CopyCmd) : Option Word :=
  let c := s.ctx x.ref.cid
  let zero := match x.instr with
    | .cpyin .. => decide (x.len = 0)
    | .cpyout .. => decide (x.len = 0)
    | _ => false
  let badBar := match x.bar, s.kernel c.kernel with
    | some h, some k => (k.barOf h).isNone
    | some _, none => true
    | none, _ => false
  if zero then some 0
  else if badBar then some (errStatus 10 0 0)
  else if x.starts.any c.startFault then some (errStatus 1 0 0)
  else none

/-- Where the tensor of a TCPY begins (R241). -/
def CopyCmd.tensor (x : CopyCmd) : Option Nat := if x.tile = [] then none else some (bits (x.desc.getD 0 0) 0 57)

/-- The checks of R457 that come after; the tensor of a TCPY is its other operand (R229; notes/assumptions/77). -/
def State.checkLast (s : State) (x : CopyCmd) : Option Word :=
  let c := s.ctx x.ref.cid
  let target := match x.instr with
    | .cpyreg .. => (s.cpyregTarget x).isNone
    | _ => false
  let misaligned := match x.instr with
    | .cpyfold .. => decide (x.src.toNat % 4 ≠ 0) || decide (x.dst.toNat % 4 ≠ 0)
    | _ => false
  if x.tensor.any c.startFault then some (errStatus 1 0 0)
  else if c.badClass x || x.tensor.any (fun a => decide (c.cls a ≠ .global)) then some (errStatus 2 0 0)
  else if target then some (errStatus 8 0 0)
  else if s.badRange x then some (errStatus 7 0 0)
  else if misaligned then some (errStatus 9 0 0)
  else none

/-- A command after its checks: it has started, or ended with a status word; one that moves no byte has ended. -/
def State.startWith (s : State) (x : CopyCmd) : State :=
  match s.checkLast x with
  | some w => s.withCopy { x with started := true, status := some w }
  | none => s.withCopy { x with started := true }.settle

/-- COPY_START (R235, R457): the engine starts the command a, once the range checker allows it. -/
def execCopyStart (s : State) : Host.Outcome State Fault Refusal :=
  match s.copy s.evArg.a with
  | none => .next s
  | some x =>
    if x.started ∨ x.record.isSome ∨ !s.mayStart x then .next s
    else
      match s.checkFirst x with
      | some w => .next (s.withCopy { x with started := true, status := some w })
      | none =>
        match x.instr with
        | .tcpyIn .. => descr x
        | .tcpyOut .. => descr x
        | _ => .next (s.startWith x)
where
  /-- The reading of a tensor descriptor (R241, R242). -/
  descr (x : CopyCmd) : Host.Outcome State Fault Refusal :=
    match (s.loadFor (s.copyWho x) 1 .read loadKinds 1 x.aux.toNat 64).eng with
    | .ok bs => .next (s.startWith { x with desc := wordsOfBytes 8 bs })
    | .fail c _ a => .next ((s.logCopy x c a).withCopy { x with started := true, status := some (errStatus c 0 0) })
    | .fault t => .next (s.copyFault x t { x with started := true, status := some (errStatus 1 0 0) })
    | .wait => .next s

/-- A unit of a command that moves no atoms: of a CPYFOLD an update, of an EXPORT the whole. -/
def State.stepUnit (s : State) (x : CopyCmd) (r : Eng (State × CopyCmd × Nat)) : State :=
  match r with
  | .ok (s1, x1, n) => let p := s1.retireBytes x1 n; p.1.withCopy p.2.settle
  | .fail c i a => (s.logCopy x c a).withCopy (x.endError c i)
  | .fault t => s.copyFault x t (x.endError 1 0)
  | .wait => s

/-- What a command may retire and report now. -/
def State.advanceCopy (s : State) (x : CopyCmd) : State :=
  let p := retireAtoms (x.total / 64 + 1) (s, x)
  p.1.withCopy p.2.settle

/-- The unit at offset p of a command whose units ascend: its atoms retire one by one, each once its effects have been made
(R230, R233; 11_ordering R265). -/
def State.stepAscending (s : State) (x : CopyCmd) (p : Nat) : State :=
  match s.ascendUnit x p with
  | .ok (s1, x1, n) => s1.advanceCopy (x1.movedTo (p + n))
  | .fail c i a => (s.logCopy x c a).advanceCopy (x.failAt (p / 64) c i)
  | .fault t => s.copyFault x t (x.failAt (p / 64) 1 0).settle
  | .wait => s.advanceCopy x

/-- An atom of a register group waits until its element group of 512 bytes is whole, and then the group lands (R237). -/
def State.landAtom (s : State) (x : CopyCmd) (r : VReg) (i : Nat) (bs : List Byte) : State × CopyCmd :=
  let l := tput x.landing i bs
  let k := i / 8
  let need := (List.range 8).map (8 * k + ·) |>.filter (fun j => decide (64 * j < x.total))
  if need.all (fun j => (tget l j).isSome) then
    (s.putGroup x.ref.cid r (512 * k) (need.flatMap (fun j => (tget l j).getD [])),
      { x with moved := need.foldl insertNat x.moved, landing := l.filter (fun e => !need.contains e.1) })
  else (s, { x with landing := l })

/-- One atom of a command whose atoms go in any order (R230). -/
def State.stepAtom (s : State) (x : CopyCmd) (i : Nat) : State :=
  let n := min 64 (x.total - 64 * i)
  let moved := (s.copyRead x (64 * i) n).bind (fun bs =>
    match x.vdst with
    | some g => .ok (s.landAtom x g.1 i bs)
    | none => (s.copyWrite x (64 * i) bs).bind (fun s1 => .ok (s1, { x with moved := insertNat x.moved i })))
  match moved with
  | .ok p => p.1.advanceCopy p.2
  | .fail c info a => (s.logCopy x c a).advanceCopy (x.failAt i c info)
  | .fault t => s.copyFault x t (x.failAt i 1 0).settle
  | .wait => s

/-- Whether atom i of a command may be moved now: not past a failing atom (R230). -/
def CopyCmd.atomOpen (x : CopyCmd) (i : Nat) : Bool :=
  decide (64 * i < x.total) && !x.moved.contains i && (tget x.landing i).isNone && (match x.fail with | some (a, _, _) => decide (i < a) | none => true)

/-- COPY_ATOM (R230, R239, R245, R246): a unit of the command a; b names the atom where atoms go in any order. Where that is
not to be moved, what has been moved retires. -/
def execCopyAtom (s : State) : Host.Outcome State Fault Refusal :=
  match s.copy s.evArg.a with
  | none => .next s
  | some x =>
    if !x.started ∨ x.status.isSome ∨ x.record.isSome ∨ s.postWaits x ∨ x.total ≤ x.retired then .next s
    else
      match x.instr with
      | .cpyfold _ _ _ _ _ fold ordered _ _ _ _ =>
        let j := x.moved.length
        let r := s.foldUnit { x with moved := x.moved ++ [j] } (fold.toNat + 1) (decide (ordered = 1)) j
        .next (s.stepUnit x r)
      | .exportPage _ _ =>
        match s.exportUnit x with
        | .fail c i a => .next (((s.exportRaise x).logCopy x c a).withCopy (x.endError c i))
        | r => .next (s.stepUnit x r)
      | _ =>
        let p := max x.upTo x.retired
        if s.ascending x ∧ x.fail.isNone ∧ p < x.total then .next (s.stepAscending x p)
        else if s.ascending x then .next (s.advanceCopy x)
        else if x.atomOpen s.evArg.b then .next (s.stepAtom x s.evArg.b)
        else .next (s.advanceCopy x)

/-- The stamp of an SCPY counts and posts once every replica has it. -/
def State.endStamp (s : State) (x : CopyCmd) : State :=
  if s.effectsDone x then
    let p := s.retireBytes x 8
    p.1.withCopy { p.2 with status := some (okStatus (x.total + 8)) }
  else s.withCopy x

/-- SCPY_STAMP (R240): the stamp of the command a, after every payload write has been made. -/
def execScpyStamp (s : State) : Host.Outcome State Fault Refusal :=
  match s.copy s.evArg.a with
  | none => .next s
  | some x =>
    if !x.stamps ∨ !x.started ∨ x.status.isSome ∨ x.record.isSome ∨ x.fail.isSome ∨ x.retired ≠ x.total ∨ s.postWaits x then
      .next s
    else if x.stamped then .next (s.endStamp x)
    else
      let n := x.total
      match (s.engRead x copySrcKinds (x.src.toNat + n) 8).bind
          (fun bs => s.engWrite x (n / 64 + 1) (x.dst.toNat + n) bs) with
      | .ok s1 => .next (s1.endStamp { x with stamped := true })
      | .fail c i a => .next ((s.logCopy x c a).withCopy (x.endError c i))
      | .fault t => .next (s.copyFault x t (x.endError 1 0))
      | .wait => .next s

/-- A command leaves its queue; what a freed context kept for it goes with the last. -/
def State.dropCopy (s : State) (x : CopyCmd) : State :=
  let s1 := s.withCopyQueue x.core ((s.copyQueue x.core).filter (fun y => decide (y.id ≠ x.id)))
  if (s1.ctx x.ref.cid).slotState = .free ∧ !s1.allCopies.any (fun y => decide (y.ref.cid = x.ref.cid)) then
    { s1 with ctxs := tdel s1.ctxs x.ref.cid }
  else s1

/-- A status word written to its destination (R231, R232; 12_context R287; 14_group R333). -/
def State.deliverToken (s : State) (x : CopyCmd) (w : Word) : State :=
  let c := s.ctx x.ref.cid
  if c.slotState = .free then s
  else
    match x.tok with
    | .reg n =>
      let h := s.hart x.ref
      let h1 := h.writeS (BitVec.ofNat 5 n) w
      s.withHart x.ref { h1 with busy := h.busy.filter (fun m => decide (m ≠ n)),
                                 unread := if bit w 63 then insertNat h.unread n else h.unread }
    | .cont id =>
      (s.withCtx x.ref.cid { c with conts := c.conts.map (fun y => if y.id = id then { y with token := some w } else y) }).admitConts
        c.kernel
    | .none =>
      if bit w 63 then s.withHart x.ref { s.hart x.ref with engErr := (s.hart x.ref).engErr ++ [w] } else s

/-- TOKEN_WRITE (R231, R232): the status word of the command a is written after all its effects (R234), and the command
leaves the queue. -/
def execTokenWrite (s : State) : Host.Outcome State Fault Refusal :=
  match s.copy s.evArg.a with
  | none => .next s
  | some x =>
    match x.status with
    | none => .next s
    | some w => if s.effectsDone x then .next ((s.dropCopy x).deliverToken x w) else .next s

end Sys2Proof.Machine
end

