-- ==== Sys2Proof/Machine/Supervisor.lean ====
section
/-! DEFINITION. The supervisor: the writing of trap records, asynchronous engine errors, and the replies (12_context
R287–R292). -/

namespace Sys2Proof.Machine

/-- The cause of a code (R278). -/
def causeOfCode (n : Nat) : Cause :=
  match n with
  | 1 => .illegal
  | 2 => .illvtype
  | 3 => .illfmt
  | 4 => .pagefault
  | 5 => .pageattr
  | 6 => .misalign
  | 7 => .turnfault
  | 8 => .turnfull
  | 9 => .chanlen
  | 10 => .purity
  | 11 => .depunder
  | 12 => .object
  | 13 => .engerr
  | 14 => .eccfatal
  | 15 => .ecall
  | 16 => .ebreak
  | _ => .preempt

/-- The cause in a TRAPINFO (R279). -/
def infoCause (w : Word) : Cause := causeOfCode (bits w 58 6)
/-- VQ of a TRAPINFO (R279). -/
def infoVq (w : Word) : Bool := bit w 57
/-- DETAIL of a TRAPINFO (R279). -/
def infoDetail (w : Word) : Nat := bits w 34 8

/-- The doublewords of a trap record (R289). -/
def State.recordWords (s : State) (t : TrapRec) : List Word :=
  let c := s.ctx t.ref.cid
  let group := ((s.kernel c.kernel).map (·.group)).getD 0
  [t.info, t.addr, t.spc, t.vcp,
    BitVec.ofNat 64 (c.tenant * 2 ^ 57 + c.core * 2 ^ 48 + kindNum t.ref.kind * 2 ^ 46 + c.slot * 2 ^ 45 + group),
    t.hb, t.s10, t.s11, 0, 0, 0, 0, 0, 0, 0, 0]

/-- A record by its number. -/
def State.trapRec (s : State) (id : Nat) : Option TrapRec := s.traps.find? (fun t => decide (t.id = id))

/-- The oldest record that has not been written. -/
def State.nextRecord (s : State) : Option TrapRec := s.traps.find? (fun t => t.ringAt.isNone)

/-- The physical address of bytes on a SYNC page of a tenant. -/
def State.syncAddr (s : State) (tenant a : Nat) : Option Nat :=
  (s.translateDev 0 tenant .rmw a).bind (fun p => if p.kind = .sync then some p.pa else none)

/-- The header of the supervisor's ring, HEAD and TAIL at h and SIZE at z, cannot be read from a core (20_system R454): the
half-atom. -/
def State.ringUnread (s : State) (core h z : Nat) : Option Nat := (s.badHalf core h 16).or (s.badHalf core z 8)

/-- TRAP_RECORD_WRITE (R288): the record a, the oldest that is not written, is appended to the supervisor's ring, and then
HEAD; while the ring is full, its header cannot be read (notes/assumptions/116), its page is MIGRATING (09_page R204), or
multicasts of the core are under way to its stack (18_link R423), nothing is written. -/
def execTrapRecordWrite (s : State) : Host.Outcome State Fault Refusal :=
  match s.nextRecord, s.supervisor with
  | some t, some sup =>
    let c := s.ctx sup
    let ring := ((s.kernel c.kernel).map (·.rcd.ring.toNat)).getD 0
    if t.id ≠ s.evArg.a then .next s
    else
      match s.syncAddr c.tenant ring, s.syncAddr c.tenant (ring + 16) with
      | some h, some z =>
        let head := s.memWord h
        let tail := s.memWord (h + 8)
        let size := s.memWord z
        match s.ringUnread c.core h z with
        | some half => .next (s.logOnce c.tenant c.core half)
        | none =>
        if ringFull head tail size then .next s
        else
          match s.syncAddr c.tenant (ring + 64 + 128 * (head.toNat % size.toNat)) with
          | some a =>
            if s.migrating .sync a ∨ s.migrating .sync h ∨ s.behind c.core .sync a 128 ∨ s.behind c.core .sync h 8 then
              .next s else
            let s1 := s.writeCopy .sync a (bytesOfWords (s.recordWords t)) c.core .host c.tenant
            let s2 := s1.writeCopy .sync h (bytesOfWord 8 (head + 1)) c.core .host c.tenant
            .next { s2 with traps := s2.traps.map (fun (x : TrapRec) =>
                      if x.id = t.id then { x with ringAt := some a, reply := 0 } else x) }
          | none => .next (s.entryOnce 0 c.tenant (ring + 64 + 128 * (head.toNat % size.toNat)))
      | _, _ => .next ((s.entryOnce 0 c.tenant ring).entryOnce 0 c.tenant (ring + 16))
  | _, _ => .next s

/-- A record is answered. -/
def State.dropRecord (s : State) (id : Nat) : State :=
  { s with traps := s.traps.filter (fun t => decide (t.id ≠ id)) }

/-- The ACTION of the reply to a record (R290). -/
def TrapRec.action (t : TrapRec) : Nat := bits t.reply 0 3

/-- Whether a reply to a trap of a context has been written and has not acted yet: it acts once the context is RESIDENT,
before the context goes on (R290). -/
def State.answered (s : State) (cid : Nat) : Bool :=
  s.traps.any (fun t => decide (t.ref.cid = cid) && t.job.isNone && decide (t.action ≠ 0))

/-- ENGERR_ASYNC (R287, R293): the oldest error of a copy without a token is raised at the next boundary of the hart h of
the context a, in its handler as well (R278); of a hart that has no boundary, to the supervisor. A hart that another one's
handler holds is at no boundary, and a reply to the context acts first (R290). -/
def execEngerrAsync (s : State) : Host.Outcome State Fault Refusal :=
  let r : HartRef := { cid := s.evArg.a, kind := s.evArg.h }
  let c := s.ctx r.cid
  let h := s.hart r
  match h.engErr with
  | [] => .next s
  | w :: rest =>
    let t : Trap := { cause := .engerr, detail := 0, addr := w }
    let own := decide (c.handler = some r.kind)
    if !c.present ∨ c.slotState = .held ∨ (c.handler.isSome ∧ !own) ∨ h.stalled.isSome ∨ s.answered r.cid then .next s
    else
      let s1 := s.withHart r { h with engErr := rest }
      if h.dispatch = .idle ∧ !own then
        (match s.supervisor with
        | none => .next (s1.killCtx r.cid)
        | some _ =>
          let info := trapInfo t false false
          let s3 := ((s1.interruptOthers r).interrupt r).hold r.cid
          .next { s3 with
            traps := s3.traps ++ [{ trapRecord s s.serial r t info 0 0 with idle := true }], serial := s3.serial + 1 })
      else if r.kind = .ch ∧ c.viq ≠ [] then .next s
      else .next ((s1.interrupt r).takeTrap r false t)

/-- The half-atom of VALUE of a record that its context's core cannot read (20_system R454; 18_link R422). -/
def State.replyUnread (s : State) (t : TrapRec) : Option Nat :=
  s.badHalf (s.ctx t.ref.cid).core (t.ringAt.getD 0 + 64) 8

/-- VALUE of a record, as the supervisor has left it (R289); all ones where it cannot be read (00_scope R8;
notes/assumptions/121). -/
def State.replyValue (s : State) (t : TrapRec) : Word :=
  if (s.replyUnread t).isSome then BitVec.allOnes 64 else s.memWord (t.ringAt.getD 0 + 64)

/-- A VALUE that cannot be read is logged (20_system R447). -/
def State.noteReply (s : State) (t : TrapRec) : State :=
  (s.replyUnread t).elim s (fun h => s.logUncorr (s.ctx t.ref.cid).tenant (s.ctx t.ref.cid).core (32 * h))

/-- A reply of some ACTIONs to a record acts once the context is in its slot (R290). -/
def onReply (actions : List Nat) (f : TrapRec → State → State) (s : State) : Host.Outcome State Fault Refusal :=
  match s.trapRec s.evArg.a with
  | none => .next s
  | some t =>
    if t.reply = 0 ∨ !actions.contains t.action ∨ !(s.ctx t.ref.cid).present then .next s
    else .next ((f t s).dropRecord t.id)

/-- The copy of a record goes on: retried, or ended with PAGEFAULT in its token (R291). -/
def State.endCopyFault (s : State) (id : Nat) (retry : Bool) : State :=
  match s.copy id with
  | none => s
  | some x =>
    let y := { x with record := none }
    s.withCopy (if retry then y else { y.endError 1 0 with started := true })

/-- The context of a record is no longer HELD. -/
def State.unhold (s : State) (cid : Nat) : State :=
  let c := s.ctx cid
  if c.slotState = .held then s.withCtx cid { c with slotState := .resident } else s

/-- What a translation fault stalls goes on: the hart, or the entry at the head of the queue (R291). -/
def State.unstall (s : State) (t : TrapRec) : State :=
  let s1 := s.withHart t.ref { s.hart t.ref with stalled := if (s.hart t.ref).stalled = some t.id then none else (s.hart t.ref).stalled }
  let c := s1.ctx t.ref.cid
  s1.withCtx t.ref.cid { c with viq := c.viq.map (fun (e : VEntry) => if e.job = some t.id then { e with job := none } else e) }

/-- RESUME (R290): as an ERET would, at SPC as it stands (notes/assumptions/109); a translation fault retries its access. -/
def State.resume (s : State) (t : TrapRec) : State :=
  if t.xlat then s.unstall t
  else if t.idle then s.unhold t.ref.cid
  else
    let s1 := s.unhold t.ref.cid
    let c := s1.ctx t.ref.cid
    let s2 := if t.ref.kind = .ch then s1.withCtx t.ref.cid { c with viq := restart c.viq } else s1
    s2.withHart t.ref { s2.hart t.ref with pc := c.spc &&& ~~~3#64 }

/-- The queue of a context is discarded; the scalar registers that its entries write are no longer busy (R290). -/
def State.discardViq (s : State) (cid : Nat) : State :=
  let c := s.ctx cid
  let regs := c.viq.flatMap (fun e => (vWrites e.instr).map (·.toNat))
  s.withCtx cid { c with viq := [], ch := { c.ch with busy := c.ch.busy.filter (fun n => !regs.contains n) } }

/-- The context of a translation fault is stopped whole (R291); the task of a lookup that met it is then current, without
its pure state (17_reuse R390). -/
def State.stopWhole (s : State) (t : TrapRec) : State :=
  if t.xlat then (((s.interruptOthers t.ref).abandon t.ref).unstall t).leaveLookup t.ref else s

/-- REPLY_RESUME (R290): to the record a. -/
def execReplyResume (s : State) : Host.Outcome State Fault Refusal :=
  onReply [1] (fun t s =>
    match t.job with
    | some id => s.endCopyFault id true
    | none => s.resume t) s

/-- A hart that resumes at an address: one that had nothing to run runs from there. -/
def Hart.resumeAt (h : Hart) (pc : Word) : Hart :=
  { h with pc := pc &&& ~~~3#64, dispatch := if h.dispatch = .idle then .root else h.dispatch }

/-- REPLY_RESUME_AT (R290): the queue is discarded, and the trapping hart is at VALUE. -/
def execReplyResumeAt (s : State) : Host.Outcome State Fault Refusal :=
  onReply [2] (fun t s =>
    match t.job with
    | some id => s.endCopyFault id false
    | none =>
      let s1 := (s.stopWhole t).unhold t.ref.cid
      let s2 := if t.ref.kind = .ch then s1.discardViq t.ref.cid else s1
      (s2.withHart t.ref ((s2.hart t.ref).resumeAt (s.replyValue t))).noteReply t) s

/-- REPLY_RETURN (R290): s10 of the trapping hart := VALUE; then as RESUME. -/
def execReplyReturn (s : State) : Host.Outcome State Fault Refusal :=
  onReply [3] (fun t s =>
    match t.job with
    | some id => s.endCopyFault id false
    | none => ((s.withHart t.ref ((s.hart t.ref).writeS 10 (s.replyValue t))).resume t).noteReply t) s

/-- The trap of a record taken in the context's handler (R290, R282). A translation fault of a VIQ entry let the front end
run on: SPC is where it stands now (R291). -/
def State.deliver (s0 : State) (t : TrapRec) : State :=
  let s := s0.finishStore t.ref
  let c := s.ctx t.ref.cid
  if c.handler.isSome then s.killCtx t.ref.cid
  else
    let s1 := (s.stopWhole t).unhold t.ref.cid
    let spc := if t.xlat && infoVq t.info then (s.hart t.ref).pc else t.spc
    s1.enterHandler t.ref { cause := infoCause t.info, addr := t.addr } t.info spc t.vcp

/-- REPLY_DELIVER (R290). -/
def execReplyDeliver (s : State) : Host.Outcome State Fault Refusal :=
  onReply [4] (fun t s =>
    match t.job with
    | some id => s.endCopyFault id false
    | none => s.deliver t) s

/-- REPLY_KILL (R290): ACTION 5, and 7, which acts as it. -/
def execReplyKill (s : State) : Host.Outcome State Fault Refusal :=
  onReply [5, 7] (fun t s =>
    match t.job with
    | some id => s.endCopyFault id false
    | none => s.killCtx t.ref.cid) s

/-- The first word at a hart's PC, as a fetch reads it. -/
def State.wordAt (s : State) (r : HartRef) : MemRes (List Byte) :=
  s.loadFor (s.who r) 3 .fetch fetchKinds 4 (s.hart r).pc.toNat 4

/-- The length of the instruction at a hart's PC (03_encoding R40): four bytes where it cannot be read
(notes/assumptions/121). -/
def State.lengthAt (s : State) (r : HartRef) : Nat :=
  match s.wordAt r with
  | .ok bs =>
    (match natOfBytes bs % 4 with
    | 0 => 4
    | 1 => 8
    | 2 => 12
    | _ => 20)
  | _ => 4

/-- A first word that an uncorrectable error keeps from being read is logged (00_scope R8; 20_system R447). -/
def State.noteWord (s : State) (r : HartRef) : State :=
  match s.wordAt r with
  | .trap t => if t.cause = .eccfatal then s.logEcc (s.who r) t.addr.toNat else s
  | _ => s

/-- Whether SKIP passes over the instruction at PC (R290): ECALL, EBREAK and an asynchronous ENGERR leave nothing to drop. -/
def TrapRec.skipsWord (t : TrapRec) : Bool :=
  !infoVq t.info && (match infoCause t.info with
    | .ecall => false
    | .ebreak => false
    | .engerr => decide (infoDetail t.info ≠ 0)
    | _ => true)

/-- SKIP (R290): the trapping entry is removed, or SPC advances past the trapping instruction; then as RESUME. -/
def State.skip (s : State) (t : TrapRec) : State :=
  let s0 := s.stopWhole t
  if infoVq t.info then
    let c := s0.ctx t.ref.cid
    let regs := (c.viq.take 1).flatMap (fun e => (vWrites e.instr).map (·.toNat))
    let s1 := s0.withCtx t.ref.cid
      { c with viq := c.viq.drop 1, ch := { c.ch with busy := c.ch.busy.filter (fun n => !regs.contains n) } }
    if t.xlat then s1 else s1.resume t
  else
    let h := s0.hart t.ref
    let n := if t.skipsWord then s0.lengthAt t.ref else 0
    let s1 := if t.skipsWord then s0.noteWord t.ref else s0
    if t.xlat then s1.withHart t.ref { h with pc := h.pc + BitVec.ofNat 64 n }
    else
      let c := s0.ctx t.ref.cid
      (s1.withCtx t.ref.cid { c with spc := c.spc + BitVec.ofNat 64 n }).resume t

/-- REPLY_SKIP (R290): it waits while the length of the instruction that it passes over cannot be fetched yet (18_link
R423). -/
def execReplySkip (s : State) : Host.Outcome State Fault Refusal :=
  if (s.trapRec s.evArg.a).any (fun t => t.job.isNone && t.skipsWord && decide (s.wordAt t.ref = .stall)) then .next s
  else
    onReply [6] (fun t s =>
      match t.job with
      | some id => s.endCopyFault id false
      | none => s.skip t) s

end Sys2Proof.Machine
end

