-- ==== Sys2Proof/Machine/Contexts.lean ====
section
/-! DEFINITION. Contexts: ready harts and issue rights, the save image, save and restore (12_context R272–R277; 13_kernel
R308–R311). -/

namespace Sys2Proof.Machine

/-- Whether the kernel of a context lets its harts issue (13_kernel R294, R309): RUNNING, or PLACED without a launch tick;
while it is PREEMPTED the members that stand in their slots go on (16_barrier R364). -/
def State.kernelRuns (s : State) (cid : Nat) : Bool :=
  match s.kernel (s.ctx cid).kernel with
  | none => true
  | some x =>
    match x.state with
    | .running => true
    | .draining => true
    | .preempted => true
    | .placed => x.startAt.isNone
    | _ => false

/-- A hart has an instruction to issue: it is not IDLE, and its pure task is not in its lookup, its hit or its insertion
(17_reuse R390, R399). -/
def Hart.hasWork (h : Hart) : Bool :=
  decide (h.dispatch ≠ .idle) && (match h.pure with | some p => decide (p.phase = .run) | none => true)

/-- Whether a hart is ready (13_kernel R310): it is not in a yielding wait, not IDLE with nothing to dispatch, not held
and not ended. A hart in its lookup, its hit or its insertion is in no yielding wait (17_reuse R390). -/
def State.hartReady (s : State) (r : HartRef) : Bool :=
  let c := s.ctx r.cid
  let h := s.hart r
  (decide (c.slotState = .resident) || decide (c.slotState = .issuing))
    && (match c.handler with | none => true | some k => decide (k = r.kind))
    && !h.yielding && s.kernelRuns r.cid
    && (decide (h.dispatch ≠ .idle) || decide (c.handler = some r.kind) || (s.work r).isSome)

/-- Whether a context has a ready hart. -/
def State.ctxReady (s : State) (cid : Nat) : Bool :=
  [HartKind.ch, .fh, .dh].any (fun k => s.hartReady { cid := cid, kind := k })

/-- PRIO of a context's kernel. -/
def State.ctxPrio (s : State) (cid : Nat) : Nat := ((s.kernel (s.ctx cid).kernel).map (·.prio)).getD 0

/-- The number of the context that stands in a slot. -/
def State.cidIn (s : State) (core slot : Nat) : Option Nat :=
  (s.ctxs.find? (fun e => decide (e.2.core = core) && decide (e.2.slot = slot) && e.2.occupies)).map (·.1)

/-- The context of a core that is ISSUING. -/
def State.issuer (s : State) (core : Nat) : Option Nat :=
  (s.ctxs.find? (fun e => decide (e.2.core = core) && decide (e.2.slotState = .issuing))).map (·.1)

/-- The buffers of a context's streams are discarded at a pre-emption (10_copies R249). -/
def Ctx.dropBuffers (c : Ctx) : Ctx :=
  { c with streams := c.streams.map (fun (x : Nat × Stream) => (x.1, { x.2 with strips := [] })) }

/-- Issue rights pass to a context (R275): the harts of the one that held them stop by R274, and its stream buffers go. A
BARWAIT that has not arrived is abandoned (16_barrier R370; notes/assumptions/112). -/
def State.giveRights (s : State) (core cid : Nat) : State :=
  let s1 := match s.issuer core with
    | some old =>
      let s0 := [HartKind.ch, .fh, .dh].foldl (fun (s : State) k => s.interrupt { cid := old, kind := k }) s
      s0.withCtx old { (s0.ctx old).dropBuffers with slotState := .resident }
    | none => s
  let c := s1.ctx cid
  { s1.withCtx cid { c with slotState := .issuing } with issue := tput s1.issue core c.slot, fair := tdel s1.fair core }

/-- Whether the context of a core that holds its rights is a timed one about to start, for which it took them (13_kernel
R309): within 200 cycles, four ticks of HB. -/
def State.startsSoon (s : State) (cid : Nat) : Bool :=
  match s.kernel (s.ctx cid).kernel with
  | some x =>
    (match x.state, x.startAt with
    | .placed, some t => decide (t.toNat ≤ s.hb.toNat + 4)
    | _, _ => false)
  | none => false

/-- Whether the first issue of a hart of a timed member, in the cycle of its start or the next, is still due (13_kernel R309): it
can issue and has not. -/
def State.firstDue (s : State) (r : HartRef) : Bool :=
  s.starts.contains r && (s.ctx r.cid).runs r.kind && (s.hart r).stalled.isNone
    && ((s.hart r).hasWork || decide ((s.ctx r.cid).handler = some r.kind))

/-- Whether the context that holds the rights of a core keeps them for a timed start (13_kernel R309): it starts soon, or first
issues of its harts are due. -/
def State.starting (s : State) (cid : Nat) : Bool :=
  s.startsSoon cid || [HartKind.ch, .fh, .dh].any (fun k => s.firstDue { cid := cid, kind := k })

/-- Whether the other context takes the rights from the holder (13_kernel R311). -/
def State.passes (s : State) (holder other : Nat) : Bool :=
  let held := decide ((s.ctx holder).slotState = .held)
  s.ctxReady other && !s.starting holder
    && (decide (s.ctxPrio holder < s.ctxPrio other)
        || ((held || !s.ctxReady holder) && decide (s.ctxPrio holder ≤ s.ctxPrio other)))

/-- The context of a core to which the scheduler grants issue rights now (R273, 13_kernel R311). -/
def State.rightsTo (s : State) (core : Nat) : Option Nat :=
  let slot := s.issueSlot core
  let resident := fun (cid : Option Nat) =>
    cid.filter (fun x => decide ((s.ctx x).slotState = .resident) && !s.answered x)
  let other := resident (s.cidIn core (1 - slot))
  match s.cidIn core slot with
  | none => other
  | some h =>
    match other with
    | some o => if s.passes h o then some o else resident (some h)
    | none => resident (some h)

/-- SLOT_SWAP (R275, 13_kernel R311): issue rights of the core a pass, where the scheduler passes them. -/
def execSlotSwap (s : State) : Host.Outcome State Fault Refusal :=
  match s.rightsTo s.evArg.a with
  | some cid => .next (s.giveRights s.evArg.a cid)
  | none => .next s

/-- The context of a core that waits for the issue rights which another one holds. -/
def State.otherCtx (s : State) (core : Nat) : Option Nat :=
  (s.cidIn core (1 - s.issueSlot core)).filter (fun o => decide ((s.ctx o).slotState = .resident))

/-- A heartbeat in the counts of R311: 64 cycles on each core whose other context has a ready hart. -/
def State.countFair (s : State) : Table Nat :=
  s.issue.foldl (fun t e =>
    match s.otherCtx e.1 with
    | some o => if s.ctxReady o then tput t e.1 ((tget t e.1).getD 0 + 1) else t
    | none => t) s.fair

/-- FAIR_SHARE_EXPIRY (13_kernel R311): on the core a the other context, of equal PRIO, has had a ready hart in 65,536
cycles, which are 1,024 heartbeats (R34); the rights pass to it, once a reply that waits for it has acted (12_context R290). -/
def execFairShareExpiry (s : State) : Host.Outcome State Fault Refusal :=
  let core := s.evArg.a
  match s.issuer core with
  | none => .next s
  | some h =>
    match s.otherCtx core with
    | some o =>
      if 1024 ≤ (tget s.fair core).getD 0 ∧ s.ctxPrio o = s.ctxPrio h ∧ s.ctxReady o ∧ !s.starting h ∧ !s.answered o then
        .next (s.giveRights core o)
      else .next s
    | none => .next s

/-- Whether a kernel has the rights at the start that another one shares with it on a core (13_kernel R309): the higher PRIO, and
of equal ones that placed first. -/
def Kernel.startsFirst (x y : Kernel) : Bool :=
  decide (y.prio < x.prio) || (decide (y.prio = x.prio) && decide (x.placedAt < y.placedAt))

/-- Whether a timed context takes the rights from their holder (13_kernel R309): of one start by the order of the two; of two
starts the earlier has them (notes/assumptions/96). -/
def State.timedFirst (s : State) (a b : Nat) : Bool :=
  match s.kernel (s.ctx a).kernel, s.kernel (s.ctx b).kernel with
  | some x, some y =>
    if x.startAt = y.startAt then x.startsFirst y
    else
      let t := fun (k : Kernel) => ((k.startAt).map (·.toNat)).getD 0
      !s.startsSoon b || decide (t x < t y)
  | _, _ => true

/-- The context of a core to which the rights pass for its timed start (13_kernel R309). -/
def State.timedSwap (s : State) (core : Nat) : Option Nat :=
  let timed := fun (cid : Option Nat) =>
    cid.filter (fun x => decide ((s.ctx x).slotState = .resident) && s.startsSoon x)
  ((timed (s.cidIn core 0)).orElse (fun _ => timed (s.cidIn core 1))).filter (fun o =>
    match s.issuer core with
    | none => true
    | some h => s.timedFirst o h &&
      !([HartKind.ch, .fh, .dh].any (fun k => s.firstDue { cid := h, kind := k })))

/-- TIMED_START_SWAP (13_kernel R309): 200 cycles before a timed start the rights of the core a pass to the timed
context. -/
def execTimedStartSwap (s : State) : Host.Outcome State Fault Refusal :=
  match s.timedSwap s.evArg.a with
  | none => .next s
  | some o => .next (s.giveRights s.evArg.a o)

/-- The save area of a context (13_kernel R296). -/
def State.saveArea (s : State) (cid : Nat) : Nat :=
  let c := s.ctx cid
  ((s.kernel c.kernel).map (fun x => x.rcd.save.toNat)).getD 0 + c.member * 0x260000

/-- A region of n bytes written by the context-save engine of a context's core (R276): with arrival level HOST, granule by
granule; without a route it is discarded (18_link R422). -/
def State.saveRegion (s : State) (core tenant pa n : Nat) (f : Nat → Byte) : State :=
  (List.range (n / 64)).foldl (fun s g =>
    s.devWrite core tenant (pa + 64 * g) ((List.range 64).map (fun i => f (64 * g + i)))) s

/-- A region whose layout the manual does not give: free bytes (notes/assumptions/18). -/
def State.saveFree (s : State) (core tenant pa n : Nat) : State :=
  let k := s.freeCtr
  { s with freeCtr := k + n }.saveRegion core tenant pa n (fun i => Config.freeByte (k + i))

/-- A byte of the mask registers, eight bits (R276). -/
def maskByte (m : Sparse (BitVec 1)) (i : Nat) : Byte :=
  BitVec.ofNat 8 ((List.range 8).foldl (fun n b => n + (sget 0 m (8 * i + b)).toNat * 2 ^ b) 0)

/-- A byte of words of w bytes. -/
def packedByte {n : Nat} (m : Sparse (BitVec n)) (w i : Nat) : Byte :=
  BitVec.ofNat 8 ((sget 0 m (i / w)).toNat / 256 ^ (i % w) % 256)

/-- The image of a context (R276). A HALF context leaves the regions that it has no state for unwritten. -/
def State.writeImage (s : State) (cid : Nat) : State :=
  let c := s.ctx cid
  let base := s.saveArea cid
  let s1 := s.saveFree c.core c.tenant base 0x4000
  let n := c.regBytes
  let s2 := (List.range 32).foldl (fun s r =>
    s.saveRegion c.core c.tenant (base + 0x4000 + 12288 * r) n (fun i => sget 0 c.v (12288 * r + i))) s1
  let s3 := (List.range 8).foldl (fun s r =>
    s.saveRegion c.core c.tenant (base + 0x64000 + 12288 * r) n (fun i => if r = 0 then 0 else maskByte c.m (12288 * r + i))) s2
  let s4 := s3.saveRegion c.core c.tenant (base + 0x7C000) (if c.full then 0x80000 else 0x40000) (fun i => packedByte c.tile 4 i)
  let s5 := s4.saveRegion c.core c.tenant (base + 0xFC000) 0x10000 (fun i => packedByte c.sorus 4 i)
  let s6 := (List.range 4).foldl (fun s r =>
    s.saveRegion c.core c.tenant (base + 0x10C000 + 1024 * r) (2 * c.scaleEntries) (fun i => packedByte c.scale 2 (1024 * r + i))) s5
  let s7 := s6.saveFree c.core c.tenant (base + 0x10D000) 0x10000
  let s8 := s7.saveRegion c.core c.tenant (base + 0x11D000) c.isBytes (fun i => sget 0 c.isw i)
  s8.saveRegion c.core c.tenant (base + 0x21D000) c.osBytes (fun i => sget 0 c.osw i)

/-- Values of w bytes from sparse bytes, in order of key. -/
def packSparse (w : Nat) : Sparse Byte → Option (Nat × Nat) → List (Nat × Nat)
  | [], none => []
  | [], some p => [p]
  | (i, b) :: r, acc =>
    let x := b.toNat * 256 ^ (i % w)
    match acc with
    | none => packSparse w r (some (i / w, x))
    | some (k, y) => if k = i / w then packSparse w r (some (k, y + x)) else (k, y) :: packSparse w r (some (i / w, x))

/-- Words of sparse bytes. -/
def wordsSparse (n w : Nat) (m : Sparse Byte) : Sparse (BitVec n) :=
  (packSparse w m none).map (fun p => (p.1, BitVec.ofNat n p.2))

/-- Bits of sparse bytes. -/
def bitsSparse (m : Sparse Byte) : Sparse (BitVec 1) :=
  m.flatMap (fun e => (List.range 8).filterMap (fun b => if bit e.2 b then some (8 * e.1 + b, 1#1) else none))

/-- A context with the regions of its image read back (R277). -/
def State.readImage (s : State) (cid : Nat) : State :=
  let c := s.ctx cid
  let base := s.saveArea cid
  let part := fun (off n : Nat) => sslice s.mem (base + off) (base + off + n)
  let within := fun (stride used : Nat) (m : Sparse Byte) => m.filter (fun e => decide (e.1 % stride < used))
  s.withCtx cid { c with
    v := within 12288 c.regBytes (part 0x4000 0x60000)
    m := bitsSparse ((within 12288 c.regBytes (part 0x64000 0x18000)).filter (fun e => decide (12288 ≤ e.1)))
    tile := wordsSparse 32 4 (part 0x7C000 (if c.full then 0x80000 else 0x40000))
    sorus := wordsSparse 32 4 (part 0xFC000 0x10000)
    scale := wordsSparse 16 2 (within 1024 (2 * c.scaleEntries) (part 0x10C000 0x1000))
    isw := part 0x11D000 c.isBytes
    osw := part 0x21D000 c.osBytes }

/-- A message that a hart of a context has begun to send is not complete yet (07_matrix R177). -/
def State.sending (s : State) (cid : Nat) : Bool :=
  let c := s.ctx cid
  match s.kernel c.kernel with
  | some x => x.chans.any (fun h => decide (h.decl.smem = c.member) && h.msgs.any (fun m => !m.complete))
  | none => false

/-- Whether multicasts of a context's core are under way to a stack that holds its save area (18_link R423). -/
def State.saveBehind (s : State) (cid : Nat) : Bool := s.behind (s.ctx cid).core .stream (s.saveArea cid) 0x25D000

/-- Whether the engine's writes of the save area of a context wait: a page of it is MIGRATING (09_page R204), or multicasts of
the core come first. -/
def State.saveStalls (s : State) (cid : Nat) : Bool :=
  let base := s.saveArea cid
  s.migs.any (fun m => decide (base < m.src + 65536) && decide (m.src < base + 0x25D000)) || s.saveBehind cid

/-- An entry that waits on a channel goes into the image as it was pushed: its strips are not popped (R276; 10_copies
R249). -/
def State.unpopHead (s : State) (cid : Nat) : State :=
  s.asHart { cid := cid, kind := .ch } (fun s =>
    match (s.ctx cid).viq with
    | e :: _ => if e.popped then unpopAll e (boundSources (s.ctx cid) e.instr) s else s
    | [] => s)

/-- CONTEXT_SAVE (R276): the engine writes the image of the context a, SAVING, once the entries that have begun and the
sends under way have completed (07_matrix R177) and every command of the context has written its token. -/
def execContextSave (s : State) : Host.Outcome State Fault Refusal :=
  let cid := s.evArg.a
  let c := s.ctx cid
  if c.slotState ≠ .saving ∨ c.imaged ∨ s.allCopies.any (fun x => decide (x.ref.cid = cid)) ∨ s.sending cid
      ∨ s.saveStalls cid ∨ ((c.viq.head?).map VEntry.begun).getD false then .next s
  else
    let s1 := (s.unpopHead cid).writeImage cid
    .next (s1.withCtx cid { s1.ctx cid with imaged := true })

/-- SAVE_DONE (R276): the last byte of the image of the context a is written; the cause that the image records is PREEMPT
(R278). -/
def execSaveDone (s : State) : Host.Outcome State Fault Refusal :=
  let cid := s.evArg.a
  let c := s.ctx cid
  if c.slotState ≠ .saving ∨ !c.imaged then .next s
  else
    let s1 := s.leaveSorus c
    .next (s1.withCtx cid { c.dropBuffers with
      slotState := .saved, imaged := false, imgCause := Cause.preempt.code
      viq := c.viq.map (fun (e : VEntry) => { e with step := 0, scatter := none, marks := [], popped := false, flags := 0, index := [] }) })

/-- Whether the save of a kernel has begun (R308): the others of its contexts go on until their own save begins. -/
def State.beingSaved (s : State) (k : Nat) (x : Kernel) : Bool :=
  decide (x.state = .preempted)
    && (s.ctxsOf k).any (fun cid => decide ((s.ctx cid).slotState = .saving) || decide ((s.ctx cid).slotState = .saved))

/-- The state as it will be when the contexts of some kernels have been saved: their slots are FREE, and a supervisor among them
is the device's one still (12_context R288). -/
def State.without (s : State) (ks : List Nat) : State :=
  { s with ctxs := s.ctxs.map (fun e => if ks.contains e.2.kernel then (e.1, { e.2 with slotState := .saved }) else e) }

/-- The state as the slots will be once the saves that have begun are done. -/
def State.afterSaves (s : State) : State :=
  s.without ((s.kernels.filter (fun e => s.beingSaved e.1 e.2)).map (·.1))

/-- CONTEXT_RESTORE (R277, 13_kernel R308): the contexts of the PREEMPTED kernel of the context a are restored together,
once all of its own slots are FREE, and no QUEUED kernel of higher effective priority fits, or will fit once the saves made
for it are done. -/
def execContextRestore (s : State) : Host.Outcome State Fault Refusal :=
  let k := (s.ctx s.evArg.a).kernel
  match s.kernel k with
  | none => .next s
  | some x =>
    if !s.restorable k x ∨ s.queued.any (fun e => decide (x.eff < e.2.eff) && (s.afterSaves.fit e.1 e.2).isSome) then .next s
    else
      let slots := s.ctxs.flatMap (fun e => if e.2.kernel = k then slotsTaken e.2.full e.2.core e.2.slot else [])
      let s1 := (s.withKernel k { x with eff := x.prio }).closeSlots slots
      .next { s1 with ctxs := s1.ctxs.map (fun (e : Nat × Ctx) =>
                if e.2.kernel = k ∧ e.2.slotState = .saved then (e.1, { e.2 with slotState := .restoring }) else e) }

/-- Whether a context has a trap record that holds it and to which no reply has been written yet (R273). -/
def State.heldBy (s : State) (cid : Nat) : Bool :=
  s.traps.any (fun t => decide (t.ref.cid = cid) && !t.xlat && t.job.isNone && decide (t.action = 0))

/-- A PREEMPTED kernel whose contexts are all in their slots again is RUNNING (13_kernel R295). -/
def State.backToRunning (s : State) (k : Nat) : State :=
  match s.kernel k with
  | some x =>
    if x.state = .preempted ∧ (s.ctxsOf k).all (fun cid => (s.ctx cid).present) then
      ((s.withKernel k { x with state := .running }).admitConts k).drainQuiet k
    else s
  | none => s

/-- The parts of the image of a context, each an offset and a length (R276). -/
def saveParts (c : Ctx) : List (Nat × Nat) :=
  (0, 0x4000) :: (List.range 32).map (fun r => (0x4000 + 12288 * r, c.regBytes))
    ++ (List.range 8).map (fun r => (0x64000 + 12288 * r, c.regBytes))
    ++ (0x7C000, if c.full then 0x80000 else 0x40000) :: (0xFC000, 0x10000)
    :: (List.range 4).map (fun r => (0x10C000 + 1024 * r, 2 * c.scaleEntries))
    ++ [(0x10D000, 0x10000), (0x11D000, c.isBytes), (0x21D000, c.osBytes)]

/-- The first part of the image of a context that cannot be read: it holds an uncorrectable error, has no route to the
context's core (18_link R422), or lies in memory that is not populated (09_page R458). -/
def State.imageError (s : State) (cid : Nat) : Option Nat :=
  ((saveParts (s.ctx cid)).map (fun p => (s.saveArea cid + p.1, p.2))).find?
    (fun p => !populated p.1 p.2 || s.imageBad (s.ctx cid).core p.1 p.2) |>.map (·.1)

/-- An image that cannot be read back ends as an uncorrectable error (09_page R458, 20_system R454): it is logged, and is
ECCFATAL of the context's compute hart (notes/assumptions/76). -/
def State.restoreError (s : State) (cid pa : Nat) : State :=
  let c := s.ctx cid
  let s1 := s.logUncorr c.tenant c.core pa
  match s1.supervisor with
  | none => s1.killCtx cid
  | some _ =>
    let t : Trap := { cause := .eccfatal, acc := 1, addr := BitVec.ofNat 64 pa }
    s1.holdForSupervisor { cid := cid, kind := .ch } t (trapInfo t false c.handler.isSome) c.ch.pc c.ch.pc

/-- RESTORE_DONE (R273, R277): the last byte of the context a is read back: it is RESIDENT, or HELD while no reply has been
written to its trap. -/
def execRestoreDone (s : State) : Host.Outcome State Fault Refusal :=
  let cid := s.evArg.a
  if (s.ctx cid).slotState ≠ .restoring ∨ s.saveBehind cid then .next s
  else
    let s1 := s.readImage cid
    let c := s1.ctx cid
    let s2 := s1.withCtx cid { c with slotState := if s.heldBy cid then .held else .resident, imgCause := 0 }
    let s3 := match s.imageError cid with
      | some pa => s2.restoreError cid pa
      | none => s2
    .next (s3.backToRunning c.kernel)

end Sys2Proof.Machine
end

