-- ==== Sys2Proof/Machine/Queues.lean ====
section
/-! DEFINITION. Queues: windows, rings, and the QUEUE major (15_queue R344–R358). -/

namespace Sys2Proof.Machine

/-- RBASE and RCAP of a queue descriptor (R346). -/
def qdRbase (ws : List Word) : Nat := bits (ws.getD 0 0) 0 57
/-- RCAP (R346). -/
def qdRcap (ws : List Word) : Nat := bits (ws.getD 1 0) 0 21

/-- Whether a queue descriptor is malformed (R346). -/
def qdMalformed (ws : List Word) : Bool :=
  decide (bits (ws.getD 0 0) 57 7 ≠ 0) || decide (bits (ws.getD 1 0) 21 43 ≠ 0)
    || ((ws.drop 2).take 6).any (fun w => decide (w ≠ 0)) || decide (qdRbase ws % 64 ≠ 0)
    || !(decide (qdRcap ws = 0) || (List.range 16).any (fun k => decide (qdRcap ws = 2 ^ (k + 5))))
    || decide (2 ^ 57 < qdRbase ws + 64 * qdRcap ws)

/-- The handle of a window (R345): the key is the quadrant over the device × 16 + the window. -/
def queueHandle (key : Nat) (gen : BitVec 16) : Word :=
  BitVec.ofNat 64 (gen.toNat * 2 ^ 16 + 2 ^ 12 + key / 64 * 2 ^ 10 + key / 16 % 4 * 2 ^ 8 + key % 16)

/-- The window that a handle names; none when it breaks a "must" (R345). -/
def handleWindow (h : Word) : Option Nat :=
  if bits h 32 32 = 0 ∧ bits h 13 3 = 0 ∧ bit h 12 ∧ bits h 4 4 = 0 then
    some ((bits h 10 2 * 4 + bits h 8 2) * 16 + bits h 0 4)
  else none

/-- Whether a handle names the queue that a window holds now (R351). -/
def Window.live (w : Window) (h : Word) : Bool := decide (w.state ≠ .free) && decide (w.gen.toNat = bits h 16 16)

/-- CheckHandle (R351): HANDLE, STALE, TENANT. -/
def checkHandle (h : Word) (k : Nat → Window → State → Res) (s : State) : Res :=
  match handleWindow h with
  | none => .trap (object 2 1) s
  | some i =>
    let w := s.window i
    if !w.live h then .trap (object 2 2) s
    else if w.tenant ≠ s.myCtx.tenant then .trap (object 2 3) s
    else k i w s

/-- COUNT of a queue (R347). -/
def Window.count (w : Window) : Nat := w.recs.length + w.rcount

/-- The virtual and physical address of a ring slot (R346). -/
def Window.slot (w : Window) (k : Nat) : Nat × Nat :=
  let off := w.rbase % 65536 + 64 * k
  (w.rbase + 64 * k, w.frames.getD (off / 65536) 0 + off % 65536)

/-- A failing status word (R350). -/
def queueFail (code : Nat) : Word := BitVec.ofNat 64 (2 ^ 63 + code * 2 ^ 56)

/-- The frames of the pages of a ring (R353): the first that lacks a translation or is not SYNC is reported, with ACC 2
(notes/assumptions/86). -/
def State.ringFrames (s : State) (w : Who) : List (Nat × Nat) → MemRes (List Nat)
  | [] => .ok []
  | p :: rest =>
    (s.locate w 2 .rmw p.1 p.2).bind (fun r =>
      match r with
      | .pages ((pl, _, _) :: _) =>
        if pl.kind = .sync then (s.ringFrames w rest).bind (fun fs => .ok (pl.pa / 65536 * 65536 :: fs))
        else .trap (pageAttr 2 p.1)
      | _ => .trap (pageAttr 2 p.1))

/-- QCREATE (R353). The faults of its ring have ACC 2 (notes/assumptions/86). -/
def execQcreate (d a : SReg) (s : State) : Host.Outcome State Fault Refusal :=
  scalar [a] [d] (impureOnly 6 (afterViq (fun s =>
    let w := s.who s.cur
    let x := (s.readS a).toNat
    if x % 64 ≠ 0 then .trap (object 2 5) s
    else
      (s.load w x 64).elim s (fun bs =>
        let ws := wordsOfBytes 8 bs
        if qdMalformed ws then .trap (object 2 4) s
        else
          let take := fun (frames : List Nat) =>
            let q := coreQuad w.core
            match (List.range 16).find? (fun i => decide ((s.window (q * 16 + i)).state = .free)) with
            | none => Res.done (s.retire 4 d (queueFail 4))
            | some i =>
              let old := s.window (q * 16 + i)
              let win : Window := { state := .active, gen := old.gen, tenant := w.tenant, rbase := qdRbase ws,
                                    rcap := qdRcap ws, frames := frames, recs := [], rhead := 0, rcount := 0, seq := 0,
                                    closedBy := none }
              Res.done ((s.withWindow (q * 16 + i) win).retire 4 d (queueHandle (q * 16 + i) old.gen))
          if qdRcap ws = 0 then take []
          else (s.ringFrames w (pagePieces (qdRbase ws) (64 * qdRcap ws))).elim s take)))) s

/-- A record placed in a queue (R349): in the window while the ring is empty and there is room; else in the ring, by a write
routed from the pushing core (notes/assumptions/111). -/
def State.placeRecord (s : State) (i : Nat) (w : Window) (bs : List Byte) : State :=
  if w.rcount = 0 ∧ w.recs.length < Config.windowCap then
    s.withWindow i { w with recs := w.recs ++ [bs], seq := w.seq + 1 }
  else
    let pa := (w.slot ((w.rhead + w.rcount) % w.rcap)).2
    (s.syncWrite (s.who s.cur) pa bs).withWindow i { w with state := .spilling, rcount := w.rcount + 1, seq := w.seq + 1 }

/-- A push that the count admits waits for the refill that makes room at the ring's tail (R348, R349). -/
def Window.ringFull (w : Window) : Bool := decide (w.rcount ≠ 0) && decide (w.rcount = w.rcap)

/-- The kinds of operations on a queue, in the order in which those of one cycle stand in Q (R348). -/
inductive QKind where
  | pop | push | close | info
deriving DecidableEq, Repr

/-- The place of a kind. -/
def QKind.rank : QKind → Nat
  | .pop => 0
  | .push => 1
  | .close => 2
  | .info => 3

/-- The place in a cycle of an operation of the moving hart (R348): by kind, core, slot, and compute, fetch and drain
hart. -/
def State.cyclePlace (s : State) (k : QKind) : Nat :=
  ((k.rank * Config.cores + s.myCtx.core) * 2 + s.myCtx.slot) * 3 + kindNum s.cur.kind

/-- A window as a hart issues an instruction: each hart issues at most one a cycle (13_kernel R310), so that the cycle in which the
queue was made CLOSED has passed once a hart issues again that has issued since. -/
def Window.hartIssues (w : Window) (r : HartRef) : Window :=
  { w with closedBy := w.closedBy.bind (fun x => if x.1.contains r then none else some (r :: x.1, x.2)) }

/-- Whether an operation of the moving hart may stand in the cycle in which the queue was made CLOSED (R348): no hart's later
issue shows that the cycle has passed, and the operation's place is behind the last. -/
def State.sharesCycle (s : State) (w : Window) (k : QKind) : Bool := w.closedBy.any (fun x => decide (x.2 < s.cyclePlace k))

/-- A queue that the moving hart makes CLOSED (R347, R357). -/
def State.closeFor (s : State) (w : Window) (k : QKind) : Window :=
  { w with state := .closed, closedBy := some ([s.cur], s.cyclePlace k) }

/-- The cycle in which a queue was made CLOSED after an operation of the moving hart that finds it so (R348): the operation
may stand in it, or the cycle has passed. -/
def State.afterClose (s : State) (i : Nat) (w : Window) (k : QKind) : State :=
  if w.state ≠ .closed ∨ w.closedBy = none then s
  else if s.sharesCycle w k then
    s.withWindow i { w with closedBy := w.closedBy.map (fun x => (x.1, s.cyclePlace k)) }
  else s.withWindow i { w with closedBy := none }

/-- Whether the write of a ring slot by the moving hart's core waits: its page is MIGRATING (09_page R204), or multicasts of
the core are under way to its stack (18_link R423). -/
def State.slotWaits (s : State) (pa : Nat) : Bool :=
  s.migrating .sync pa || s.behind s.myCtx.core .sync pa 64

/-- QPUSH (R354): a release. -/
def execQpush (d a b : SReg) (s : State) : Host.Outcome State Fault Refusal :=
  scalar [a, b] [d] (impureOnly 6 (afterViq (afterWrites (checkHandle (s.readS a) (fun i w s =>
    let r := (s.readS b).toNat
    if r % 64 ≠ 0 then .trap (object 2 5) s
    else
      (s.load (s.who s.cur) r 64).elim s (fun bs =>
        if w.state = .draining ∨ w.state = .closed then .done ((s.afterClose i w .push).retire 4 d (queueFail 1))
        else if w.count = Config.windowCap + w.rcap then .done (s.retire 4 d (queueFail 2))
        else if w.ringFull then .wait false s
        else if (w.rcount ≠ 0 ∨ Config.windowCap ≤ w.recs.length)
            ∧ s.slotWaits (w.slot ((w.rhead + w.rcount) % w.rcap)).2 then .wait false s
        else .done ((s.placeRecord i w bs).retire 4 d (BitVec.ofNat 64 (w.count + 1))))))))) s

/-- A queue after a pop of the moving hart: a DRAINING one without records is CLOSED (R347). -/
def State.afterPop (s : State) (w : Window) : Window :=
  if w.state = .draining ∧ w.count = 0 then s.closeFor w .pop else w

/-- QPOP (R355): an acquire. A record of eight bytes stands for a ring slot, at that address, whose bytes hold an
uncorrectable error; its ECCFATAL has ACC 1 (notes/assumptions/86). -/
def execQpop (d a b : SReg) (s : State) : Host.Outcome State Fault Refusal :=
  scalar [a, b] [d] (impureOnly 6 (afterViq (checkHandle (s.readS a) (fun i w s =>
    let r := (s.readS b).toNat
    let who := s.who s.cur
    if r % 64 ≠ 0 then .trap (object 2 5) s
    else
      (s.storeCheck who .write storeKinds 64 .none false r 64).elim s (fun region =>
        if w.count = 0 then .done ((s.afterClose i w .pop).retire 4 d (queueFail (if w.state = .closed then 1 else 3)))
        else
          match w.recs with
          | [] => .wait false s
          | bs :: rest =>
            let s1 := s.withWindow i (s.afterPop { w with recs := rest })
            if bs.length < 64 then
              .trap { cause := .eccfatal, acc := 1, addr := wordOfBytes bs } s1
            else .done ((s1.writeRegion who .none false r bs region).retire 4 d (BitVec.ofNat 64 (w.count - 1)))))))) s

/-- The code of a queue's state (R356). -/
def QState.code : QState → Nat
  | .free => 0
  | .active => 1
  | .spilling => 2
  | .draining => 3
  | .closed => 4

/-- QINFO (R356). -/
def execQinfo (d a : SReg) (s : State) : Host.Outcome State Fault Refusal :=
  scalar [a] [d] (impureOnly 6 (afterViq (fun s =>
    match handleWindow (s.readS a) with
    | none => .trap (object 2 1) s
    | some i =>
      let w := s.window i
      if !w.live (s.readS a) then .done (s.retire 4 d 0)
      else if w.tenant ≠ s.myCtx.tenant then .trap (object 2 3) s
      else
        .done ((s.afterClose i w .info).retire 4 d (BitVec.ofNat 64
          (w.state.code * 2 ^ 61 + w.rcount * 2 ^ 38 + w.recs.length * 2 ^ 32 + w.seq.toNat)))))) s

/-- A window that becomes FREE: its generation rises (R345). -/
def Window.freed (w : Window) : Window := { Window.reset with gen := w.gen + 1 }

/-- A QCLOSE at its place in Q (R357). One that may stand in the cycle in which the queue was made CLOSED has then no effect:
which of the two holds is free (notes/assumptions/78). -/
def State.closeQueue (s : State) (i : Nat) (w : Window) : State :=
  match w.state with
  | .active => s.withWindow i (if w.count = 0 then s.closeFor w .close else { w with state := .draining })
  | .spilling => s.withWindow i { w with state := .draining }
  | .closed =>
    if !s.sharesCycle w .close then s.withWindow i w.freed
    else
      let f := s.freeBelow 2
      if f.1 = 0 then f.2.withWindow i w.freed else f.2.afterClose i w .close
  | _ => s

/-- QCLOSE (R357): a release. -/
def execQclose (a : SReg) (s : State) : Host.Outcome State Fault Refusal :=
  scalar [a] [] (impureOnly 6 (afterViq (afterWrites (checkHandle (s.readS a) (fun i w s =>
    .done ((s.closeQueue i w).advance 4)))))) s

/-- QUEUE_REFILL (R349): the unit moves the head record of the ring of the window a to its tail. -/
def execQueueRefill (s : State) : Host.Outcome State Fault Refusal :=
  let i := s.evArg.a
  let w := s.window i
  let at_ := w.slot w.rhead
  let core := i / 16 * Config.coresPerQuad
  if w.state = .free ∨ w.rcount = 0 ∨ Config.windowCap ≤ w.recs.length ∨ s.behind core .sync at_.2 64 then .next s
  else
    let bad := s.imageBad core at_.2 64
    let bs := if bad then bytesOfNat 8 at_.1 else s.memBytes at_.2 64
    .next ((if bad then s.logUncorr w.tenant 0 at_.2 else s).withWindow i { w with
      recs := w.recs ++ [bs], rhead := (w.rhead + 1) % w.rcap, rcount := w.rcount - 1,
      state := if w.state = .spilling ∧ w.rcount = 1 then .active else w.state })

/-- The queues of a tenant are freed (R344, 20_system R450). -/
def State.freeQueues (s : State) (tenant : Nat) : State :=
  { s with windows := s.windows.map (fun (e : Nat × Window) =>
      if e.2.tenant = tenant ∧ e.2.state ≠ .free then (e.1, e.2.freed) else e) }

end Sys2Proof.Machine
end

