-- ==== Sys2Proof/Machine/HostPort.lean ====
section
/-! DEFINITION. The host: its reads and writes over CXL.mem and of registers, keys, firmware, the alarm, resets, power
and the width of channels (20_system R444–R456; 09_page R208, R213, R216; 17_reuse R386; 18_link R426). -/

namespace Sys2Proof.Machine

/-- All-ones data (R216). -/
def allOnes (n : Nat) : List Byte := List.replicate n (BitVec.allOnes 8)

/-- The state that a host read of one granule piece meets (09_page R216): the granule's own, or, while the frame is that of
a COMP page, that of any of its granules. -/
def State.hostTurn (s : State) (pa : Nat) : Option Gran :=
  match tget s.gran (pa / 64) with
  | some g => some g
  | none =>
    match s.gran.find? (fun e => decide (e.1 / 1024 = pa / 65536)) with
    | some e => if s.compFrame pa then some e.2 else none
    | none => none

/-- The entries of the tables that the kind of a frame needs and that cannot be read are logged, once (00_scope R8; 20_system
R447): none where the granule's own state decides. -/
def State.noteFrame (s : State) (pa : Nat) : State :=
  if (tget s.gran (pa / 64)).isSome then s
  else (s.frameLeaves pa).foldl (fun s q => s.entryOnce (walkCore pa) q.1 q.2.1) s

/-- A host read that ends as an uncorrectable error (R454): all-ones, and ECCUNCORR. -/
def State.hostReadError (s : State) (pa n : Nat) : List Byte × State :=
  (allOnes n, s.logUncorr 0 0 pa)

/-- A host read within one granule (R216, R454, R458; 18_link R422): the bytes, and the events it logs. -/
def State.hostReadPiece (s : State) (pa n : Nat) : List Byte × State :=
  if !populated pa n then (allOnes n, s)
  else if !s.hostRoute pa then s.hostReadError pa n
  else
    match s.hostTurn pa with
    | some g => (allOnes n, (s.noteFrame pa).logEvent .hostturn g.tenant g.writer g.level (BitVec.ofNat 64 pa) 0)
    | none =>
      match s.ecc.find? (fun h => decide (pa / 32 ≤ h ∧ h ≤ (pa + n - 1) / 32)) with
      | some h => s.hostReadError (32 * h) n
      | none => (s.memBytes pa n, s)

/-- CXL_CACHE_SNOOP (09_page R208, R213): the host writes bytes to the line a of its own memory; the device's inbound
copies of the line go. -/
def execCxlCacheSnoop (s : State) : Host.Outcome State Fault Refusal :=
  let bs := s.evArg.bytes.take 64
  .next ((granPieces (s.evArg.a * 64) bs.length).foldl
    (fun s q => s.writePiece .hostmem q.1 ((bs.drop (q.1 - s.evArg.a * 64)).take q.2) 0 .host 0) s)

/-- The code of STATE of FWCTL (R445). -/
def FwState.code : FwState → Nat
  | .idle => 0
  | .verifying => 1
  | .accepted => 2
  | .rejected => 3

/-- A register of the device block (R445) written by the host. -/
def DeviceBlock.write (d : DeviceBlock) (off : Nat) (x : Word) : DeviceBlock :=
  match off with
  | 0x00 => if bit x 3 then { d with alarm := false } else d
  | 0x08 => { d with evring := x &&& 0xFFFFFFFFFFFFFFC0 }
  | 0x18 => { d with limit := BitVec.ofNat 16 (max 300 (min 2200 (bits x 0 16))) }
  | 0x28 => { d with fabid := x.setWidth 8 }
  | 0x30 => { d with fabgrp := x &&& 0x8000000000FF01FF }
  | 0x38 => { d with fwaddr := x }
  | _ => d

/-- A register of a tenant's block (R446) written by the host. -/
def Tenant.write (t : Tenant) (off : Nat) (x : Word) : Tenant :=
  match off with
  | 0x00 => { t with tsave := x &&& 0x000FFFFFFFFFFFFF }
  | 0x08 => { t with texport := x &&& 0xFFFFFFFFFFFFFFC0 }
  | 0x18 => if bit x 9 then { t with badload := false } else t
  | _ => t

/-- A register of a kernel queue (13_kernel R302) written by the host. -/
def KQueue.write (q : KQueue) (off : Nat) (x : Word) : KQueue :=
  match off with
  | 0x00 => { q with base := x &&& 0x01FFFFFFFFFFFFF8 }
  | 0x08 => { q with size := x &&& 0x1FFF }
  | 0x10 => if bit x 63 then { q with err := false } else q
  | _ => q

/-- The link counters of a die (18_link R426). -/
def State.counters (s : State) (die : Nat) : LinkCounts := (tget s.linkCnt die).getD LinkCounts.reset

/-- A register of a die's link counters (18_link R426) written by the host. -/
def LinkCounts.write (c : LinkCounts) (off : Nat) (x : Word) : LinkCounts :=
  match off with
  | 0x08 => { c with resends := x.extractLsb' 32 32, replays := x.setWidth 32 }
  | 0x10 => { c with retrains := x.setWidth 32 }
  | 0x18 => { c with probes := x.extractLsb' 32 32, steps := x.setWidth 32 }
  | _ => c

/-- A doubleword from two words, the high one first. -/
def word64 (hi lo : BitVec 32) : Word := hi.setWidth 64 <<< 32 ||| lo.setWidth 64

/-- A register of the device block as the host reads it (R445; 00_scope R11). -/
def DeviceBlock.read (d : DeviceBlock) (off : Nat) : Word :=
  match off with
  | 0x00 => BitVec.ofNat 64 ((if d.alarm then 8 else 0) + (if d.ready then 4 else 0) + d.lastRst.toNat)
  | 0x08 => d.evring
  | 0x10 => BitVec.ofNat 64 ((if d.lock then 256 else 0) + (if d.policy then 1 else 0))
  | 0x18 => word64 d.draw (d.limit.setWidth 32)
  | 0x20 => BitVec.ofNat 64 (d.gate.toNat * 256 + d.temp.toNat)
  | 0x28 => d.fabid.setWidth 64
  | 0x30 => d.fabgrp
  | 0x38 => d.fwaddr
  | 0x40 => BitVec.ofNat 64 (d.fwVer.toNat * 256 + 2 * d.fwState.code)
  | _ => 0

/-- A register of a tenant's block as the host reads it (R446). -/
def Tenant.read (t : Tenant) (off : Nat) : Word :=
  match off with
  | 0x00 => t.tsave
  | 0x08 => t.texport
  | 0x18 => BitVec.ofNat 64 ((if t.badload then 512 else 0) + (if t.key.isSome then 256 else 0))
  | _ => 0

/-- A register of a kernel queue as the host reads it (13_kernel R302). -/
def KQueue.read (q : KQueue) (off : Nat) : Word :=
  match off with
  | 0x00 => q.base
  | 0x08 => q.size
  | 0x10 => word64 (if q.err then 0x80000000 else 0) q.head
  | _ => 0

/-- The links of a die in a state that a test admits (18_link R426). -/
def State.linksIn (s : State) (die : Nat) (p : LState → Bool) : Nat :=
  ((List.range (cxlLink + 1)).filter (fun l => decide (linkDie l = die) && p (s.link l).state)).length

/-- LNKSTAT of a die (18_link R426; notes/assumptions/80). -/
def State.linkStat (s : State) (die : Nat) : Word :=
  BitVec.ofNat 64 (s.linksIn die (fun x => decide (x = .down)) * 256
    + s.linksIn die (fun x => decide (x = .training) || decide (x = .retrain)))

/-- A register of a die's link counters as the host reads it (18_link R426). -/
def LinkCounts.read (c : LinkCounts) (off : Nat) : Word :=
  match off with
  | 0x08 => word64 c.resends c.replays
  | 0x10 => c.retrains.setWidth 64
  | 0x18 => word64 c.probes c.steps
  | _ => 0

/-- What a host read of the CXL.io register at an offset of a function returns, 128 the physical function (00_scope R11):
WO and RSV fields read as zero, and so does an offset without a register. -/
def State.hostReg (s : State) (f off : Nat) : Word :=
  if off % 8 ≠ 0 ∨ 128 < f then 0
  else if 0x1000 ≤ off ∧ off < 0x1080 then (s.kqueue f ((off - 0x1000) / 0x20)).read (off % 0x20)
  else if f < 128 then 0
  else if 0x2000 ≤ off ∧ off < 0x2100 then
    let d := (off - 0x2000) / 0x40
    if off % 0x40 = 0 then s.linkStat d else (s.counters d).read (off % 0x40)
  else if 0x3000 ≤ off ∧ off < 0x3048 then s.dev.read (off - 0x3000)
  else if 0x4000 ≤ off ∧ off < 0x6000 then (s.tenant ((off - 0x4000) / 0x40)).read (off % 0x40)
  else 0

/-- HOST_MEM_READ (R216, R451; 00_scope R11): the host or a peer reads b bytes at a; until READY it is held. With f the host
reads the CXL.io register at the offset b of the function a. -/
def execHostMemRead (s : State) : Host.Outcome State Fault Refusal :=
  if s.cxlDown then .next s
  else if s.evArg.f then
    .next { s with hostSeen := { bytes := bytesOfWord 8 (s.hostReg s.evArg.a s.evArg.b), error := false } }
  else if !s.dev.ready then .next s
  else
    let r := (granPieces s.evArg.a s.evArg.b).foldl (fun (acc : List Byte × State) q =>
      let x := acc.2.hostReadPiece q.1 q.2
      (acc.1 ++ x.1, x.2)) ([], s)
    let s1 : State := r.2
    .next { s1 with hostSeen := { bytes := r.1, error := false } }

/-- A write of the host within a granule (09_page R213, R458; 18_link R422): without a route it is lost. -/
def State.hostWritePiece (s : State) (pa : Nat) (bs : List Byte) : State :=
  if s.hostRoute pa then s.cleanWrite pa bs else s.lostWrite 0 0 pa bs.length

/-- HOST_MEM_WRITE (09_page R213, R451, R458): the host or a peer writes bytes at a; they arrive CLEAN. Until READY it is
held, unless f says that it came while a warm reset was under way: then it completes with an error (notes/assumptions/93).
A write to a page that migrates waits for the switch (R204). -/
def execHostMemWrite (s : State) : Host.Outcome State Fault Refusal :=
  let pa := s.evArg.a
  let bs := s.evArg.bytes
  if s.cxlDown then .next s
  else if !s.dev.ready then
    .next (if s.evArg.f ∧ s.dev.lastRst ≠ 0 then { s with hostSeen := { bytes := [], error := true } } else s)
  else if (granPieces pa bs.length).any (fun q => s.migrating .stream q.1) then .next s
  else .next ((granPieces pa bs.length).foldl
    (fun s q => s.hostWritePiece q.1 ((bs.drop (q.1 - pa)).take q.2)) s)

/-- HOST_REG_WRITE (00_scope R11): the host writes w to the CXL.io register at the offset b of the function a, 128 the
physical function. Registers with a behaviour of their own have events of their own. -/
def execHostRegWrite (s : State) : Host.Outcome State Fault Refusal :=
  let f := s.evArg.a
  let off := s.evArg.b
  let x := s.evArg.w
  if off % 8 ≠ 0 ∨ 128 < f then .next s
  else if 0x1000 ≤ off ∧ off < 0x1080 then
    let q := (off - 0x1000) / 0x20
    overCxl s (s.withKqueue f q ((s.kqueue f q).write (off % 0x20) x))
  else if f < 128 then .next s
  else if 0x2000 ≤ off ∧ off < 0x2100 then
    let d := (off - 0x2000) / 0x40
    overCxl s { s with linkCnt := tput s.linkCnt d ((s.counters d).write (off % 0x40) x) }
  else if 0x3000 ≤ off ∧ off < 0x3048 then overCxl s { s with dev := s.dev.write (off - 0x3000) x }
  else if 0x4000 ≤ off ∧ off < 0x6000 then
    let t := (off - 0x4000) / 0x40
    overCxl s (s.withTenant t ((s.tenant t).write (off % 0x40) x))
  else .next s

/-- ALARMPOL_WRITE (R445): the host writes w to ALARMPOL; ignored once LOCK is 1. -/
def execAlarmpolWrite (s : State) : Host.Outcome State Fault Refusal :=
  if s.dev.lock then .next s
  else overCxl s { s with dev := { s.dev with lock := bit s.evArg.w 8, policy := bit s.evArg.w 0 } }

/-- FW_GO (R445, R448): verification of the image at FWADDR starts. -/
def execFwGo (s : State) : Host.Outcome State Fault Refusal :=
  overCxl s { s with dev := { s.dev with fwState := .verifying } }

/-- The alarm is to fire for a cause (R449). -/
def DeviceBlock.due (d : DeviceBlock) (cause : Nat) : DeviceBlock := { d with causes := (d.causes ++ [cause]).dedup }

/-- A firmware image is rejected: at the eighth in a row the alarm is to fire on cause 3, and the count begins again (R449;
notes/assumptions/98). -/
def DeviceBlock.fwRejects (d : DeviceBlock) : DeviceBlock :=
  if 7 ≤ d.fwRej then ({ d with fwRej := 0 } : DeviceBlock).due 3 else { d with fwRej := d.fwRej + 1 }

/-- An image is installed in the inactive one of the two slots (R448). -/
def DeviceBlock.install (d : DeviceBlock) (v : BitVec 16) : DeviceBlock :=
  { d with fwSlots := if d.fwSecond then (some v, d.fwSlots.2) else (d.fwSlots.1, some v), fwNew := true }

/-- The first check of GO that an image fails, 0 for none (R448): a is the first of the checks 1 to 3 that it fails, and 4,
its version below the fused counter, is what v says. -/
def fwCheck (a : Nat) (v : BitVec 16) : Nat := if a = 0 ∧ v.toNat < Config.rollback.toNat then 4 else a

/-- FW_VERIFY_DONE (R448): verification ends; a is the first check that fails, or 0, and b the image's version. -/
def execFwVerifyDone (s : State) : Host.Outcome State Fault Refusal :=
  let v := BitVec.ofNat 16 s.evArg.b
  let a := s.evArg.a
  if s.dev.fwState ≠ .verifying ∨ 4 < a ∨ (a = 4 ∧ fwCheck 0 v = 0) then .next s
  else if fwCheck a v = 0 then
    .next { s with dev := { s.dev.install v with fwState := .accepted, fwRej := 0 } }
  else
    let s1 := s.logEvent .fwreject 0 0 .none 0 (BitVec.ofNat 64 (fwCheck a v))
    .next { s1 with dev := { s1.dev.fwRejects with fwState := .rejected } }

/-- TKEY_WRITE (R446, R449): the next 8 bytes of a key of the tenant a, in w. -/
def execTkeyWrite (s : State) : Host.Outcome State Fault Refusal :=
  let t := s.evArg.a
  if 128 ≤ t then .next s
  else
    let x := s.tenant t
    overCxl s (s.withTenant t { x with tkey := x.tkey ++ [s.evArg.w] })

/-- Every entry of a tenant is DEAD (17_reuse R386). -/
def State.dropTenant (s : State) (t : Nat) : State := s.dropEntries (fun _ e => decide (e.tenant = t))

/-- TKCTL_LOAD (R446, R449; 17_reuse R386): four staged doublewords become the key of the tenant a; any other number of
them sets BADLOAD. -/
def execTkctlLoad (s : State) : Host.Outcome State Fault Refusal :=
  let t := s.evArg.a
  if 128 ≤ t then .next s
  else
    let x := s.tenant t
    if x.tkey.length = 4 then
      let s1 := s.dropTenant t
      overCxl s (s1.withTenant t { s1.tenant t with key := some (bytesOfWords x.tkey), tkey := [] })
    else overCxl s (s.withTenant t { x with badload := true, tkey := [] })

/-- The key of a tenant is erased (17_reuse R386). -/
def State.eraseKey (s : State) (t : Nat) : State :=
  let s1 := s.dropTenant t
  s1.withTenant t { s1.tenant t with key := none }

/-- TKCTL_ERASE (R446): the key of the tenant a. -/
def execTkctlErase (s : State) : Host.Outcome State Fault Refusal :=
  if 128 ≤ s.evArg.a then .next s else overCxl s (s.eraseKey s.evArg.a)

/-- A kernel that has not ended. -/
def KState.alive : KState → Bool
  | .retired => false
  | .faulted => false
  | _ => true

/-- A code slot that is freed (17_reuse R381). -/
def CodeSlot.freed (c : CodeSlot) : CodeSlot := if c.used then { c with used := false, gen := c.gen + 1 } else c

/-- The reset of a tenant (R450), in order: kernels, QUEUED ones too, queues, code slots with the entries that name them,
counters. It is under way until the kernels have written their completion words (notes/assumptions/97). -/
def State.resetTenant (s : State) (t : Nat) : State :=
  let ks := (s.kernels.filter (fun e => decide (e.2.tenant = t) && e.2.state.alive)).map (·.1)
  let s1 := (ks.foldl (fun s k => s.killKernel k 9) s).freeQueues t
  let s2 := s1.dropTenant t
  let x := s2.tenant t
  s2.withTenant t { x with
    slots := x.slots.map (fun (c : Nat × CodeSlot) => (c.1, c.2.freed)), counts := []
    killed := (x.killed ++ ks).filter (fun k => ((s2.kernel k).map (fun y => y.owed)).getD false) }

/-- TRESET_GO (R450): the tenant a. -/
def execTresetGo (s : State) : Host.Outcome State Fault Refusal :=
  if 128 ≤ s.evArg.a then .next s else overCxl s (s.resetTenant s.evArg.a)

/-- FUNCTION_LEVEL_RESET (R450) of the virtual function a. -/
def execFunctionLevelReset (s : State) : Host.Outcome State Fault Refusal :=
  if 128 ≤ s.evArg.a then .next s else overCxl s (s.resetTenant s.evArg.a)

/-- The device block after a reset that keeps ALARMPOL while LOCK is 1, the firmware that runs and waits, and the keys
(R451); LASTRST is given. -/
def DeviceBlock.warm (d : DeviceBlock) (lastRst : BitVec 2) : DeviceBlock :=
  { DeviceBlock.reset with
    lastRst := lastRst, lock := d.lock, policy := d.lock && d.policy, temp := d.temp, fwVer := d.fwVer, fwSlots := d.fwSlots
    fwSecond := d.fwSecond, fwNew := d.fwNew, noFw := d.noFw, fwRej := d.fwRej, unlRej := d.unlRej, causes := d.causes
    devKeys := d.devKeys }

/-- A warm reset (R451): memory, its error marks and WGEN are kept, and what is not the device's; the rest is as after a
cold reset. -/
def State.warmReset (s : State) (lastRst : BitVec 2) : State :=
  { State.reset with
    mem := s.mem, hostMem := s.hostMem, wgen := s.wgen, ecc := s.ecc, soft := s.soft, dev := s.dev.warm lastRst, tap := s.tap
    half := s.half, hostSeen := s.hostSeen, serial := s.serial, sched := s.sched, evArg := s.evArg
    freeCtr := s.freeCtr, frozen := s.frozen }

/-- WARM_RESET (R451). -/
def execWarmReset (s : State) : Host.Outcome State Fault Refusal := .next (s.warmReset 1)

/-- The version of the image in a slot, the second or the first, when it verifies (R448): the bits of a say whether the
header and the signatures of the first and of the second verify. -/
def DeviceBlock.verifies (d : DeviceBlock) (a : Nat) (second : Bool) : Option (BitVec 16) :=
  (if second then d.fwSlots.2 else d.fwSlots.1).filter (fun v =>
    decide (a / (if second then 2 else 1) % 2 = 1) && decide (Config.rollback.toNat ≤ v.toNat))

/-- The firmware of a cold reset (R448): an image accepted since the last one runs from now; where its slot does not verify
the other one runs, and where none does no firmware runs (notes/assumptions/98). -/
def DeviceBlock.boot (d : DeviceBlock) (a : Nat) : DeviceBlock :=
  let d0 := { DeviceBlock.reset with temp := d.temp, devKeys := d.devKeys, fwVer := d.fwVer, fwSlots := d.fwSlots,
                                     fwSecond := d.fwSecond }
  let first := d.fwSecond != d.fwNew
  match d.verifies a first, d.verifies a (!first) with
  | some v, _ => { d0 with fwVer := v, fwSecond := first }
  | none, some v => { d0 with fwVer := v, fwSecond := !first }
  | none, none => { d0 with noFw := true, fwNew := d.fwNew }

/-- COLD_RESET (R448, R451): the bits of a say which of the two slots verify. -/
def execColdReset (s : State) : Host.Outcome State Fault Refusal :=
  .next { State.reset with
    hostMem := s.hostMem, hostSeen := s.hostSeen, serial := s.serial, sched := s.sched, evArg := s.evArg
    freeCtr := s.freeCtr, dev := s.dev.boot s.evArg.a }

/-- HBM_READY (R451): PHY training completes, unless neither firmware slot verified (R448). -/
def execHbmReady (s : State) : Host.Outcome State Fault Refusal :=
  .next { s with dev := { s.dev with ready := !s.dev.noFw } }

/-- Whether the alarm may fire for a cause (R449). -/
def DeviceBlock.alarms (d : DeviceBlock) (cause : Nat) : Bool :=
  decide (cause = 1) || decide (cause = 2) || d.causes.contains cause

/-- SECURITY_ALARM (R449): the alarm fires on the cause a: it is logged, keys are erased by POLICY, and a warm reset with
LASTRST = 2 follows. -/
def execSecurityAlarm (s : State) : Host.Outcome State Fault Refusal :=
  let cause := s.evArg.a
  if !s.dev.alarms cause then .next s
  else
    let s1 := s.logEvent .alarm 0 0 .none 0 (BitVec.ofNat 64 cause)
    let s2 := (List.range 128).foldl (fun (s : State) t => if (s.tenant t).key.isSome then s.eraseKey t else s) s1
    let s3 := s2.warmReset 2
    .next { s3 with dev := { s3.dev with alarm := true, devKeys := s.dev.devKeys && !s.dev.policy
                                         causes := s.dev.causes.filter (fun c => decide (c ≠ cause)) } }

/-- FREEZE (R452): every clock stops, and the CXL link goes down. -/
def execFreeze (s : State) : Host.Outcome State Fault Refusal :=
  .next { s with frozen := true, links := tput s.links cxlLink { s.link cxlLink with state := .down } }

/-- PATROL_SCRUB (R454): corrected data is written over memory, which changes no byte; an error in the half-atom a that can
be corrected is logged (R447) and gone. -/
def execPatrolScrub (s : State) : Host.Outcome State Fault Refusal :=
  if s.soft.contains s.evArg.a then
    let s1 := s.logCorrected s.evArg.a
    .next { s1 with soft := s1.soft.filter (fun h => decide (h ≠ s.evArg.a)) }
  else .next s

/-- The events of a change of width (R447, R455): their detail's form is not given, so it is free. -/
def State.logWidth (s : State) : State :=
  let f := s.freeWord
  f.2.logEvent .halfwidth 0 0 .none 0 f.1

/-- HALF_WIDTH (R455): the channel b of the stack a drops to half width; f says that it is for heat, the stack being at w
degrees Celsius. -/
def execHalfWidth (s : State) : Host.Outcome State Fault Refusal :=
  let a := s.evArg
  if a.f ∧ a.w.toNat ≤ 95 then .next s
  else if s.half.any (fun h => decide (h.1 = a.a ∧ h.2.1 = a.b)) then
    if a.f then .next s
    else .next { s with half := s.half.map (fun h => if h.1 = a.a ∧ h.2.1 = a.b then (h.1, h.2.1, false) else h) }
  else .next ({ s with half := (a.a, a.b, a.f) :: s.half } : State).logWidth

/-- FULL_WIDTH (R455): the channel b of the stack a, at half width for heat, returns to full width, the stack being at w
degrees Celsius. -/
def execFullWidth (s : State) : Host.Outcome State Fault Refusal :=
  let a := s.evArg
  if a.w.toNat < 85 ∧ s.half.any (fun h => decide (h = (a.a, a.b, true))) then
    .next ({ s with half := s.half.filter (fun h => decide (h ≠ (a.a, a.b, true))) } : State).logWidth
  else .next s

/-- POWER_GATE (R445, R456): the module's power is a watts and its temperature b; while a bound is passed GATE rises, and
within bounds nothing is gated. -/
def execPowerGate (s : State) : Host.Outcome State Fault Refusal :=
  let d : DeviceBlock := { s.dev with draw := BitVec.ofNat 32 s.evArg.a, temp := BitVec.ofNat 8 s.evArg.b }
  let beyond := decide (d.limit.toNat < d.draw.toNat) || decide (105 < d.temp.toNat)
  .next { s with dev := { d with gate := if beyond then (if d.gate.toNat < 16 then d.gate + 1 else d.gate) else 0 } }

end Sys2Proof.Machine
end

