-- ==== Sys2Proof/Machine/Kernels.lean ====
section
/-! DEFINITION. The scheduler's other moves and the heartbeat (02_machine R34; 13_kernel R305, R308, R309, R313, R314). -/

namespace Sys2Proof.Machine

/-- Whether a kernel may be chosen to be saved for one of an effective priority (R308). -/
def Kernel.victim (x : Kernel) (eff : Nat) : Bool :=
  decide (x.prio < eff) && decide (x.state = .running) && !(x.super && decide (x.rcd.save = 0))

/-- The kernels that may be saved, in the order of R308: the lowest PRIO first, then the latest placed; not in the cycle of a
timed start, before its first issues (R309). -/
def State.victims (s : State) (eff : Nat) : List Nat :=
  ((s.kernels.filter (fun e => e.2.victim eff && !s.starts.any (fun r => r.ofKernel e.1 && s.firstDue r))).mergeSort (fun a b =>
    decide (a.2.prio < b.2.prio) || (decide (a.2.prio = b.2.prio) && decide (b.2.placedAt ≤ a.2.placedAt)))).map (·.1)

/-- The shortest list of victims that makes the kernel fit (R308); none when there is none. -/
def State.chooseVictims (s : State) (k : Nat) (x : Kernel) (vs : List Nat) : Option (List Nat) :=
  (((List.range vs.length).map (fun n => vs.take (n + 1))).find? (fun ws => ((s.without ws).fit k x).isSome))

/-- A context of a kernel is to be saved (R276, R308): its harts stop, and it is SAVING; its kernel is PREEMPTED. -/
def State.saveContext (s : State) (cid : Nat) : State :=
  let s1 := [HartKind.ch, .fh, .dh].foldl (fun (s : State) h => s.interrupt { cid := cid, kind := h }) s
  (s1.withCtx cid { s1.ctx cid with slotState := .saving }).modKernel (cid / 384) (fun x => { x with state := .preempted })

/-- The contexts of a kernel that can be saved now: in their slots. -/
def State.savable (s : State) (k : Nat) : List Nat := (s.ctxsOf k).filter (fun cid => (s.ctx cid).present)

/-- A context that is still to be saved of a kernel whose save has begun (R308). -/
def State.nextSave (s : State) : Option Nat :=
  s.kernels.findSome? (fun e => if s.beingSaved e.1 e.2 then (s.savable e.1).head? else none)

/-- PREEMPTION (R308): for the QUEUED kernel that heads the order and does not fit, the scheduler saves kernels of lower
PRIO, when that frees the cores it needs: their first contexts now, and then every other context, one at a time. -/
def execPreemption (s : State) : Host.Outcome State Fault Refusal :=
  match s.nextSave with
  | some cid => .next (s.saveContext cid)
  | none =>
    match s.queued with
    | [] => .next s
    | (k, x) :: _ =>
      if (s.fit k x).isSome ∨ s.ctxs.any (fun e => decide (e.2.slotState = .saving)) then .next s
      else
        match s.chooseVictims k x (s.victims x.eff) with
        | some ws => .next (ws.foldl (fun s w => (s.savable w).head?.elim s s.saveContext) s)
        | none => .next s

/-- AGING_STEP (R305): the kernel a, QUEUED or PREEMPTED for 2^20 cycles, rises by 1, up to 7. -/
def execAgingStep (s : State) : Host.Outcome State Fault Refusal :=
  match s.kernel s.evArg.a with
  | some x =>
    if x.state = .queued ∨ x.state = .preempted then
      .next (s.withKernel s.evArg.a { x with eff := min 7 (x.eff + 1) }).updateReserve
    else .next s
  | none => .next s

/-- Whether two kernels have members on one core (R309). -/
def State.shareCore (s : State) (k l : Nat) : Bool :=
  (s.ctxsOf k).any (fun a => (s.ctxsOf l).any (fun b =>
    decide (a ≠ b) && decide ((s.ctx a).core = (s.ctx b).core) && (s.ctx a).occupies && (s.ctx b).occupies))

/-- Whether the timed kernel l, of the same start as k, leaves k the rights of a core at that start (R309). -/
def State.yieldsStart (s : State) (k l : Nat) : Bool :=
  match s.kernel k, s.kernel l with
  | some x, some y => decide (k ≠ l) && decide (x.startAt = y.startAt) && x.startsFirst y && s.shareCore k l
  | _, _ => false

/-- The harts of a timed kernel whose members hold issue rights: each issues its first instruction in the cycle of the start or
in the next (R309). -/
def State.startHarts (s : State) (k : Nat) : List HartRef :=
  ((s.ctxsOf k).filter (fun cid => decide ((s.ctx cid).slotState = .issuing))).flatMap (fun cid =>
    [HartKind.ch, .fh, .dh].map (fun h => { cid := cid, kind := h }))

/-- LAUNCH_TICK (R309): HB has reached the start of the timed kernel a. Of two timed kernels of this start with members on one
core the one that does not hold the rights is late. -/
def execLaunchTick (s : State) : Host.Outcome State Fault Refusal :=
  let k := s.evArg.a
  match s.kernel k with
  | some x =>
    match x.state, x.startAt with
    | .placed, some t =>
      if t.toNat ≤ s.hb.toNat then
        let late := fun (e : Nat × Kernel) =>
          s.yieldsStart k e.1 || (decide (e.1 = k) && s.kernels.any (fun y => s.yieldsStart y.1 k))
        let s1 : State := { s with kernels := s.kernels.map (fun e => if late e then (e.1, { e.2 with late := true }) else e) }
        .next { s1.modKernel k (fun x => { x with state := .running }) with starts := s.starts ++ s.startHarts k }
      else .next s
    | _, _ => .next s
  | none => .next s

/-- Whether WATCH of a kernel has expired (R314). -/
def Kernel.expired (x : Kernel) : Bool := decide (x.rcd.watch ≠ 0) && decide (x.rcd.watch.toNat ≤ x.ran)

/-- KERNEL_RETIRE (R313): a RUNNING kernel whose group has become quiet is DRAINING; the DRAINING kernel a retires, once every
command of its contexts has written its token, every write has performed, and no error waits; the watchdog goes before it
(R314, R316). A kernel that has ended pays the completion word that it owes (R300). -/
def execKernelRetire (s : State) : Host.Outcome State Fault Refusal :=
  let k := s.evArg.a
  match s.kernel k with
  | some x =>
    if x.owed then .next (s.payCompletion k)
    else if x.state = .running then .next (s.drainQuiet k)
    else if x.state ≠ .draining ∨ x.expired ∨ s.writesLeft k ∨ s.traps.any (fun t => t.ref.ofKernel k)
        ∨ (s.ctxsOf k).any (fun cid => [HartKind.ch, .fh, .dh].any (fun h => !((s.ctx cid).hart h).engErr.isEmpty)) then .next s
    else .next (s.endKernel k .retired 0)
  | none => .next s

/-- Whether a kernel's ticks count against WATCH (R314). -/
def Kernel.counts (x : Kernel) : Bool :=
  match x.state with
  | .running => true
  | .preempted => true
  | .draining => true
  | _ => false

/-- WATCHDOG (R314): the limit of the kernel a has expired. -/
def execWatchdog (s : State) : Host.Outcome State Fault Refusal :=
  match s.kernel s.evArg.a with
  | some x => if x.expired ∧ x.counts then .next (s.killKernel s.evArg.a 10) else .next s
  | none => .next s

/-- A timed kernel that is PLACED starts in the tick of its start, its members hold the rights of their cores by then, and their
harts have issued soon after (R309): the next heartbeat waits for its LAUNCH_TICK, for a TIMED_START_SWAP, and for the first
issues. -/
def State.startDue (s : State) : Bool :=
  s.kernels.any (fun e => decide (e.2.state = .placed) && e.2.startAt.any (fun t => decide (t.toNat ≤ s.hb.toNat)))
    || s.ctxs.any (fun e => (s.timedSwap e.2.core).isSome) || s.starts.any s.firstDue

/-- HEARTBEAT_TICK (02_machine R34, R311, R314; 15_queue R357). -/
def execHeartbeatTick (s : State) : Host.Outcome State Fault Refusal :=
  if s.startDue then .next s else
  .next { s with hb := s.hb + 1
                 fair := s.countFair
                 windows := s.windows.map (fun (e : Nat × Window) => (e.1, { e.2 with closedBy := none }))
                 kernels := s.kernels.map (fun (e : Nat × Kernel) =>
                   if e.2.counts then (e.1, { e.2 with ran := e.2.ran + 1 }) else e) }

end Sys2Proof.Machine
end

