-- ==== Sys2Proof/Machine/Links.lean ====
section
/-! DEFINITION. The link protocol, sleep, deadlock probes, and the delivery of packets (18_link R417–R426). Which flits are
lost or damaged on a link is the event's data. -/

namespace Sys2Proof.Machine

/-- A link's events name links 0–306. -/
def validLink (l : Nat) : Bool := decide (l ≤ cxlLink)

/-- The state with a link changed. -/
def State.withLink (s : State) (l : Nat) (x : Link) : State := { s with links := tput s.links l x }

/-- One more, saturating (R426). -/
def satInc (x : BitVec 32) : BitVec 32 := if x = BitVec.allOnes 32 then x else x + 1

/-- Counters of a link's die changed. -/
def State.countLink (s : State) (die : Nat) (f : LinkCounts → LinkCounts) : State :=
  { s with linkCnt := tput s.linkCnt die (f (s.counters die)) }

/-- A link with one direction changed. -/
def Link.withDir (x : Link) (up : Bool) (d : Direction) : Link := if up then { x with fwd := d } else { x with bwd := d }

/-- Whether a link carries flits (R418). -/
def LState.carries : LState → Bool
  | .up => true
  | .replay => true
  | .resend => true
  | _ => false

/-- The sequence numbers in a replay buffer, oldest first. -/
def Direction.seqs (d : Direction) : List (BitVec 10) := d.buffer.map (·.seq)

/-- A direction whose every unacknowledged flit is sent again, oldest first (R418, R419). -/
def Direction.resent (d : Direction) : Direction :=
  { d with again := d.seqs, pend := d.seqs, held := [], nak := none }

/-- A link that enters RESEND; with nothing to send again it is UP at once. -/
def Link.toResend (x : Link) : Link :=
  let y := { x with fwd := x.fwd.resent, bwd := x.bwd.resent }
  { y with state := if y.fwd.pend.isEmpty && y.bwd.pend.isEmpty then .up else .resend }

/-- A link of the state enters RESEND, counted. -/
def State.resendLink (s : State) (l : Nat) (x : Link) : State :=
  (s.withLink l x.toResend).countLink (linkDie l) (fun c => { c with resends := satInc c.resends })

/-- A link of the state enters RETRAIN, counted. -/
def State.retrainLink (s : State) (l : Nat) (x : Link) : State :=
  let clear := fun (d : Direction) => { d with held := [], nak := none, naks := 0 }
  (s.withLink l { x with state := .retrain, attempts := 0, fwd := clear x.fwd, bwd := clear x.bwd }).countLink (linkDie l)
    (fun c => { c with retrains := satInc c.retrains })

/-- TRAINING_DONE (R418): the training of the link a completes. -/
def execTrainingDone (s : State) : Host.Outcome State Fault Refusal :=
  let l := s.evArg.a
  let x := s.link l
  if !validLink l then .next s
  else
    match x.state with
    | .training => .next (s.withLink l { x with state := .up, attempts := 0 })
    | .retrain => .next (s.resendLink l { x with attempts := 0 })
    | _ => .next s

/-- The bytes of a flit on a link: 64; 256 on the CXL link (R417, R418). -/
def flitBytes (l : Nat) : Nat := if l = cxlLink then 256 else 64

/-- Bytes cut into flits of n bytes, the last filled up with zeros. -/
def flitsOf (n : Nat) (bs : List Byte) : List (List Byte) :=
  (List.range (ceilDiv bs.length n)).map (fun i => padTo n ((bs.drop (n * i)).take n))

/-- Flits handed to the output queue of a router, before what stands in it (R422). -/
def State.handFlits (s : State) (from_ : Nat) (route : Option (List Nat)) (fs : List (List Byte)) : State :=
  match route with
  | some (l :: _) =>
    let up := (linkEnds l).any (fun e => decide (e.1 = from_))
    let x := s.link l
    let d := x.dir up
    s.withLink l (x.withDir up { d with queue := fs ++ d.queue })
  | _ => s

/-- The route from one end of a link that is DOWN to the other (R421, R422); the CXL link has no other. -/
def State.otherRoute (s : State) (l a b : Nat) : Option (List Nat) :=
  if l < 300 then s.dieRoute a b
  else if l < cxlLink then s.dieToDie (a / routersPerDie) (b / routersPerDie)
  else none

/-- What a direction has not seen acknowledged, and then what waits to be sent. -/
def Direction.unsent (d : Direction) : List (List Byte) := d.buffer.map (·.data) ++ d.queue

/-- A link that fails is DOWN; the flits of both its directions go to the new route before any later one (R422). -/
def State.failLink (s : State) (l : Nat) : State :=
  let x := s.link l
  let s1 := s.withLink l { state := .down, attempts := 8, fwd := Direction.reset, bwd := Direction.reset }
  match linkEnds l with
  | none => s1
  | some e =>
    let s2 := s1.handFlits e.1 (s1.otherRoute l e.1 e.2) x.fwd.unsent
    s2.handFlits e.2 (s2.otherRoute l e.2 e.1) x.bwd.unsent

/-- TRAINING_FAIL (R418, R422): a training attempt of the link a fails; after the eighth it is DOWN. -/
def execTrainingFail (s : State) : Host.Outcome State Fault Refusal :=
  let l := s.evArg.a
  let x := s.link l
  if !validLink l ∨ (x.state ≠ .training ∧ x.state ≠ .retrain) then .next s
  else if x.attempts + 1 < 8 then .next (s.withLink l { x with attempts := x.attempts + 1 })
  else .next (s.failLink l)

/-- The next new flit of a sender: the head of its output queue, an idle flit of zeros while that is empty. -/
def Direction.sendNew (d : Direction) (n : Nat) : Direction :=
  let data := (d.queue.head?).getD (List.replicate n 0)
  { d with buffer := d.buffer ++ [{ seq := d.next, data := data, crc := Config.linkCrc d.next data }]
           next := d.next + 1, queue := d.queue.drop 1 }

/-- The next k new flits of a sender. -/
def Direction.sendMany (n : Nat) : Nat → Direction → Direction
  | 0, d => d
  | k + 1, d => Direction.sendMany n k (d.sendNew n)

/-- A sender that has sent the flit seq. One that it sends again must be due, and those due before it have been sent; a new
one comes after all that are due (R419 step 2, R418), and after the new ones before it, inside the window of R417. -/
def Direction.sends (d : Direction) (n : Nat) (seq : BitVec 10) : Option Direction :=
  if d.seqs.contains seq then
    if d.again.contains seq then some { d with again := (d.again.dropWhile (fun y => decide (y ≠ seq))).drop 1 } else none
  else
    let k := (seq - d.next).toNat + 1
    if d.buffer.length + k ≤ 256 then some (Direction.sendMany n k { d with again := [] }) else none

/-- The flit expected and every held flit are delivered in order (R419). -/
def Direction.deliver (d : Direction) : Direction :=
  let n := 1 + d.held.length
  { d with expect := d.expect + BitVec.ofNat 10 n, held := [], nak := none, naks := 0, done := d.done + n }

/-- One more NAK of the expected number. -/
def Direction.askAgain (d : Direction) : Direction := { d with nak := some d.expect, naks := d.naks + 1 }

/-- A gap that asks for all flits from the expected number on: RESEND, or RETRAIN at the third NAK of one number (R418,
R419). -/
def State.bigGap (s : State) (l : Nat) (x : Link) (up : Bool) : State :=
  let d := (x.dir up).askAgain
  let y := x.withDir up { d with held := [] }
  if x.state ≠ .up ∧ 3 ≤ d.naks then s.retrainLink l y
  else if x.state = .resend then s.withLink l y
  else
    let s1 := s.resendLink l y
    let z := s1.link l
    s1.withLink l (z.withDir up { z.dir up with nak := some d.expect, naks := d.naks })

/-- Whether a receiver of a link asks for one missing flit alone (R419); of the CXL link when the host supports it (R418). -/
def asksOne (l : Nat) : Bool := decide (l ≠ cxlLink) || Config.cxlSelective

/-- A good flit at the receiver of a direction (R419), the sender's part done: in order, held behind a gap, or a gap. -/
def State.receiveFlit (s : State) (l : Nat) (y : Link) (up : Bool) (f : Flit) : State :=
  let d := y.dir up
  let gap := (f.seq - d.expect).toNat
  if gap = 0 then
    let z := y.withDir up d.deliver
    let back := z.state = .replay ∧ d.nak.isSome ∧ (z.dir (!up)).nak.isNone
    s.withLink l (if back then { z with state := .up } else z)
  else if 256 ≤ gap ∨ d.held.any (fun h => decide (h.seq = f.seq)) then s.withLink l y
  else
    match d.nak, y.state with
    | some _, .replay =>
      if gap = d.held.length + 1 ∧ d.held.length < 255 then s.withLink l (y.withDir up { d with held := d.held ++ [f] })
      else s.bigGap l y up
    | none, .up =>
      if gap = 1 ∧ asksOne l then
        let d1 := { d.askAgain with held := [f] }
        (s.withLink l { y.withDir up d1 with state := .replay }).countLink (linkDie l)
          (fun c => { c with replays := satInc c.replays })
      else s.bigGap l y up
    | _, _ => s.bigGap l y up

/-- A router. -/
def State.router (s : State) (r : Nat) : Router := (tget s.routers r).getD Router.reset

/-- The state with a router changed. -/
def State.withRouter (s : State) (r : Nat) (x : Router) : State := { s with routers := tput s.routers r x }

/-- The links of a router, with its side: true at the lower-numbered end. -/
def linksOf (r : Nat) : List (Nat × Bool) :=
  (List.range cxlLink).filterMap (fun l =>
    match linkEnds l with
    | some e => if e.1 = r then some (l, true) else if e.2 = r then some (l, false) else none
    | none => none) ++ (if r = 0 then [(cxlLink, true)] else [])

/-- A router is awake, and its links are UP (R424). -/
def State.wakeRouter (s : State) (r : Nat) : State :=
  let s1 := s.withRouter r { s.router r with asleep := false }
  (linksOf r).foldl (fun (s : State) e =>
    let y := s.link e.1
    if y.state = .sleep then s.withLink e.1 { y with state := .up } else s) s1

/-- The routers at the ends of a link. -/
def endRouters (l : Nat) : List Nat :=
  match linkEnds l with
  | some e => [e.1, e.2]
  | none => if l = cxlLink then [0] else []

/-- Whether a router at an end of a link sleeps: a flit for it waits, and wakes it (R424). -/
def State.endSleeps (s : State) (l : Nat) : Bool := (endRouters l).any (fun r => (s.router r).asleep)

/-- FLIT_RECEIVE (R419, R424): packets have put the bytes into the output queue of the direction f of the link a, and its
receiver sees the flit w; g says that its CRC holds. The flits before it that have not been sent yet have been sent and
lost. While an end sleeps nothing is sent: it is woken. -/
def execFlitReceive (s : State) : Host.Outcome State Fault Refusal :=
  let l := s.evArg.a
  let up := s.evArg.f
  let seq := s.evArg.w.setWidth 10
  let x0 := s.link l
  let d0 := x0.dir up
  let x := x0.withDir up { d0 with queue := d0.queue ++ flitsOf (flitBytes l) s.evArg.bytes }
  if !validLink l then .next s
  else if s.endSleeps l then .next ((endRouters l).foldl State.wakeRouter (s.withLink l x))
  else if !x.state.carries then .next (s.withLink l x)
  else
    match (x.dir up).sends (flitBytes l) seq with
    | none => .next (s.withLink l x)
    | some d =>
      let y := x.withDir up d
      match d.buffer.find? (fun f => decide (f.seq = seq)) with
      | some f => if s.evArg.g then .next (s.receiveFlit l y up f) else .next (s.withLink l y)
      | none => .next (s.withLink l y)

/-- NAK_RECEIVE (R419): the sender of the direction f of the link a receives NAK(w): in REPLAY it sends that flit again,
in RESEND every flit from it on. -/
def execNakReceive (s : State) : Host.Outcome State Fault Refusal :=
  let l := s.evArg.a
  let up := s.evArg.f
  let seq := s.evArg.w.setWidth 10
  let x := s.link l
  let d := x.dir up
  if !validLink l ∨ d.nak ≠ some seq ∨ !d.seqs.contains seq then .next s
  else
    match x.state with
    | .replay => .next (s.withLink l (x.withDir up { d with again := [seq] }))
    | .resend => .next (s.withLink l (x.withDir up { d with again := d.seqs.dropWhile (fun y => decide (y ≠ seq)) }))
    | _ => .next s

/-- ACK_RECEIVE (R417, R418): the sender of the direction f of the link a receives the acknowledgement of w, which covers
every delivered flit up to it. -/
def execAckReceive (s : State) : Host.Outcome State Fault Refusal :=
  let l := s.evArg.a
  let up := s.evArg.f
  let seq := s.evArg.w.setWidth 10
  let x := s.link l
  let d := x.dir up
  if !validLink l ∨ !x.state.carries ∨ !d.seqs.contains seq ∨ 256 ≤ (d.expect - 1 - seq).toNat then .next s
  else
    let rest := d.buffer.drop (d.seqs.findIdx (fun y => decide (y = seq)) + 1)
    let left := fun (ns : List (BitVec 10)) => ns.filter (fun n => rest.any (fun f => decide (f.seq = n)))
    let y := x.withDir up { d with buffer := rest, again := left d.again, pend := left d.pend }
    let clear := y.fwd.pend.isEmpty && y.bwd.pend.isEmpty
    .next (s.withLink l (if x.state = .resend ∧ clear then { y with state := .up } else y))

/-- NAK_REPEAT (R418, R419): the receiver of the direction f of the link a repeats its NAK; the third of one number means
RETRAIN. -/
def execNakRepeat (s : State) : Host.Outcome State Fault Refusal :=
  let l := s.evArg.a
  let up := s.evArg.f
  let x := s.link l
  let d := x.dir up
  if !validLink l ∨ x.state ≠ .replay ∨ d.nak.isNone then .next s
  else
    let d1 := d.askAgain
    let y := x.withDir up d1
    if 3 ≤ d1.naks then .next (s.retrainLink l y) else .next (s.withLink l y)

/-- NAK_TIMEOUT (R418): the NAK of the direction f of the link a has gone unanswered: REPLAY becomes RESEND. -/
def execNakTimeout (s : State) : Host.Outcome State Fault Refusal :=
  let l := s.evArg.a
  let x := s.link l
  if !validLink l ∨ x.state ≠ .replay ∨ (x.dir s.evArg.f).nak.isNone then .next s else .next (s.resendLink l x)

/-- What a multicast writes at its replica: its bytes, or some bits of one byte (06_vector R134). -/
def State.packetBytes (s : State) (p : Packet) : List Byte :=
  match p.part with
  | some b => [putBits (s.memByte p.pa) b.1 b.2 (natOfBytes p.bytes / 2 ^ b.1 % 2 ^ b.2)]
  | none => p.bytes

/-- PACKET_DELIVER (R423; 11_ordering R266): the multicast a reaches its replica. The destination delivers those of each
source in the order of their sequence numbers and discards duplicates; f says that a duplicate of this one is under way
still. -/
def execPacketDeliver (s : State) : Host.Outcome State Fault Refusal :=
  match s.packets.find? (fun p => decide (p.id = s.evArg.a)) with
  | none => .next s
  | some p =>
    let key := pairKey p.writer p.pa
    let n := s.pair key
    let gone : State := { s with packets := s.packets.filter (fun q => decide (q.id ≠ p.id)) }
    if p.seq = n.2 then
      let s1 : State := { if s.evArg.f then s else gone with pairs := tput s.pairs key (n.1, n.2 + 1) }
      let s2 := s1.writeCopy .repl p.pa (s.packetBytes p) p.writer p.level p.tenant
      .next (if p.level = .none then s2 else
        s2.dropStrips (p.level.reaches p.writer) ((granPieces p.pa p.bytes.length).map (fun q => granKey .repl q.1)))
    else if (n.2 - p.seq).toNat ≤ 32768 then .next gone
    else .next s

/-- A router holds nothing that keeps it awake (R424). -/
def State.routerIdle (s : State) (r : Nat) : Bool :=
  (s.router r).probe.isNone && (s.router r).buffer.isEmpty && (linksOf r).all (fun e =>
    let x := s.link e.1
    let out := x.dir e.2
    let inn := x.dir (!e.2)
    out.buffer.isEmpty && out.queue.isEmpty && inn.held.isEmpty && inn.nak.isNone)

/-- ROUTER_SLEEP (R424): the idle router a sleeps; a link whose two routers sleep is in SLEEP. -/
def execRouterSleep (s : State) : Host.Outcome State Fault Refusal :=
  let r := s.evArg.a
  let x := s.router r
  if 96 ≤ r ∨ x.asleep ∨ !s.routerIdle r then .next s
  else
    let s1 := s.withRouter r { x with asleep := true }
    .next ((linksOf r).foldl (fun (s : State) e =>
      match linkEnds e.1 with
      | some p =>
        let y := s.link e.1
        if y.state = .up ∧ (s.router p.1).asleep ∧ (s.router p.2).asleep then s.withLink e.1 { y with state := .sleep } else s
      | none => s) s1)

/-- WAKE (R424): a neighbour wakes the router a. -/
def execWake (s : State) : Host.Outcome State Fault Refusal :=
  if 96 ≤ s.evArg.a ∨ !(s.router s.evArg.a).asleep then .next s else .next (s.wakeRouter s.evArg.a)

/-- What becomes of a probe that is sent across a link (R425). -/
inductive Hop where
  | goes | waits | dropped
deriving DecidableEq, Repr

/-- A probe on the link between two routers (R425). -/
def State.hop (s : State) (a b : Nat) : Hop :=
  match linkBetween a b with
  | none => .dropped
  | some l =>
    match (s.link l).state with
    | .up => .goes
    | .sleep => .goes
    | .replay => .waits
    | .resend => .waits
    | _ => .dropped

/-- The probe of a router is dropped: the router may send another. -/
def State.dropProbe (s : State) (o : Nat) : State := s.withRouter o { s.router o with sent := false }

/-- A probe reaches a router: it wakes it; of two probes that meet the one of the lower router goes on (R424, R425). -/
def State.probeTo (s : State) (o b : Nat) : State :=
  let s1 := if (s.router b).asleep then s.wakeRouter b else s
  let x := s1.router b
  match x.probe with
  | none => s1.withRouter b { x with probe := some o }
  | some o' =>
    if o < o' then (s1.withRouter b { x with probe := some o }).dropProbe o'
    else if o = o' then s1
    else s1.dropProbe o

/-- A router sends a probe to the router that its blocked head waits for (R425, R426). -/
def State.sendProbe (s : State) (r b : Nat) : State :=
  let s1 := (s.withRouter r { s.router r with blocked := some b, sent := true, cycle := false, stepped := false })
  match s.hop r b with
  | .dropped => s1.dropProbe r
  | .waits => s
  | .goes =>
    (s1.countLink (min r b / routersPerDie) (fun c => { c with probes := satInc c.probes })).probeTo r b

/-- A router whose input buffer is blocked with a packet at its head (R425). -/
def Router.withHead (x : Router) (packet : Nat) : Router := if x.buffer = [] then { x with buffer := [packet] } else x

/-- DEADLOCK_PROBE_SEND (R425): the head of the router a, the packet c, has been blocked for 4,096 cycles; it waits for the
router b. -/
def execDeadlockProbeSend (s : State) : Host.Outcome State Fault Refusal :=
  let r := s.evArg.a
  let b := s.evArg.b
  let x := s.router r
  if 96 ≤ r ∨ 96 ≤ b ∨ x.sent ∨ x.cycle ∨ x.stepped then .next s
  else .next ((s.withRouter r (x.withHead s.evArg.c)).sendProbe r b)

/-- PROBE_RECEIVE (R425): the router a handles the probe it holds; f says that its own head, the packet c, is blocked, and b
is the router that the head waits for. -/
def execProbeReceive (s : State) : Host.Outcome State Fault Refusal :=
  let r := s.evArg.a
  let b := s.evArg.b
  let x := s.router r
  match x.probe with
  | none => .next s
  | some o =>
    if o = r then .next (s.withRouter r { x with probe := none, sent := false, cycle := true })
    else if !s.evArg.f ∨ 96 ≤ b then
      .next ((s.withRouter r { x with probe := none, blocked := none, buffer := [] }).dropProbe o)
    else
      let s1 := s.withRouter r { x.withHead s.evArg.c with probe := none, blocked := some b }
      match s.hop r b with
      | .waits => .next s
      | .dropped => .next (s1.dropProbe o)
      | .goes => .next (s1.probeTo o b)

/-- The routers of a cycle of blocking from a router, at most n. -/
def State.cycleFrom (s : State) (origin : Nat) : Nat → Nat → List Nat
  | _, 0 => []
  | r, n + 1 =>
    r :: (match (s.router r).blocked with
      | some b => if b = origin then [] else s.cycleFrom origin b n
      | none => [])

/-- A packet put at the end of a router's input buffer. -/
def State.enterBuffer (s : State) (r packet : Nat) : State :=
  let x := s.router r
  s.withRouter r { x with buffer := x.buffer ++ [packet] }

/-- A router whose head packet has left its input buffer. -/
def Router.stepOut (x : Router) : Router := { x with blocked := none, buffer := x.buffer.drop 1 }

/-- DEADLOCK_STEP (R425, R426): the router a has found a cycle: in one cycle every router of it moves the head packet of its
blocked buffer one hop, into the buffer that the next one has vacated. -/
def execDeadlockStep (s : State) : Host.Outcome State Fault Refusal :=
  let r := s.evArg.a
  let x := s.router r
  if !x.cycle then .next s
  else
    let b := x.blocked.getD r
    let cycle := s.cycleFrom r r 96
    let s1 := cycle.foldl (fun (s : State) q => s.withRouter q (s.router q).stepOut) s
    let s2 := cycle.foldl (fun (acc : State) q =>
      match (s.router q).blocked, (s.router q).buffer with
      | some next, packet :: _ => acc.enterBuffer next packet
      | _, _ => acc) s1
    let s3 := s2.withRouter r { s2.router r with cycle := false, stepped := true }
    .next (s3.countLink (min r b / routersPerDie) (fun c => { c with steps := satInc c.steps }))

/-- PROBE_RETRY (R425): 64 cycles after a step of the router a; f says that its head is still blocked, and b is the router
that it waits for. -/
def execProbeRetry (s : State) : Host.Outcome State Fault Refusal :=
  let r := s.evArg.a
  let b := s.evArg.b
  let x := s.router r
  if !x.stepped ∨ 96 ≤ b then .next s
  else if s.evArg.f then .next (s.sendProbe r b)
  else .next (s.withRouter r { x with stepped := false, buffer := [] })

end Sys2Proof.Machine
end

