-- ==== Sys2Proof/Machine/Pages.lean ====
section
/-! DEFINITION. Cached translations, XINV, migration and the hot-page tracker (09_page R199–R207; 17_reuse R402). -/

namespace Sys2Proof.Machine

/-- The walker of a die has completed a walk: it records the leaf (R205), and n walks are left outstanding, at most 512
(R199). -/
def State.walked (s : State) (die tenant va n : Nat) : State :=
  let d := s.dieOf die
  let page := (tenant, alignDown va 65536)
  s.withDie die { d with walks := min 512 n, leaves := if d.leaves.contains page then d.leaves else page :: d.leaves }

/-- PAGE_WALK_DONE (R199): the walker completes a walk for the core a, in the tree of the tenant b, of the address c; w walks
are then outstanding on its die (notes/assumptions/79). -/
def execPageWalkDone (s : State) : Host.Outcome State Fault Refusal :=
  let core := s.evArg.a
  let t := s.evArg.b
  let va := s.evArg.c % 2 ^ 57
  if Config.cores ≤ core ∨ Config.tenants ≤ t ∨ (s.tlbFind core t va).isSome then .next s
  else
    match (if s.badWalk core t va then none else s.walk t va) with
    | none => .next s
    | some l =>
      let e : TlbEntry := { tenant := t, va := va - va % 2 ^ l.shift, shift := l.shift, leaf := l.word,
                            frames := l.frames }
      .next (({ s with tlb := tput s.tlb core (e :: (tget s.tlb core).getD []) } : State).walked (coreDie core) t va
        s.evArg.w.toNat)

/-- Every core drops the translations that satisfy a test. -/
def State.dropTlb (s : State) (p : TlbEntry → Bool) : State :=
  { s with tlb := s.tlb.map (fun e => (e.1, e.2.filter (fun x => !p x))) }

/-- Whether the page of an image is a POOL page of its tenant's region still (17_reuse R402). -/
def State.imageHeld (s : State) (e : ReuseEntry) : Bool :=
  let x := (s.tenant e.tenant).rupool
  let n := e.imgVa / 65536
  decide (bits x 16 41 ≤ n) && decide (n < bits x 16 41 + bits x 0 16)
    && (match (if s.badWalk (walkCore e.imgPa) e.tenant e.imgVa then none else s.walk e.tenant e.imgVa) with
        | some l => decide (kindOfCode (bits l.word 60 4) = some .pool)
            && decide ((entryAddr l.word + e.imgVa % 2 ^ l.shift) / 65536 = e.imgPa / 65536)
        | none => false)

/-- An entry of the tables that a look at the page of an image cannot read is logged, once (20_system R447): no page maps it
(00_scope R8; notes/assumptions/121). -/
def State.noteImage (s : State) (e : ReuseEntry) : State := s.entryOnce (walkCore e.imgPa) e.tenant e.imgVa

/-- XINV (R202, 17_reuse R402): entries whose image lies on a page that is freed are DEAD first; the write completes
once no hit reads from such a page, and every TLB has dropped what it names. The scope covers a tenant's address, in a page
of some size. -/
def State.xinv (s : State) (r : HartRef) (covers : Nat → Nat → Nat → Bool) (drop : TlbEntry → Bool) : State :=
  let s1 := s.dropTlb drop
  let named := fun (e : ReuseEntry) => decide (0 < e.imgLen) && covers e.tenant e.imgVa e.imgShift
  let freed := fun (e : ReuseEntry) => named e && !s1.imageHeld e
  let s2 := (s1.reuse.foldl (fun s e => if named e.2 then s.noteImage e.2 else s) s1).dropEntries (fun _ e => freed e)
  if s2.reuse.any (fun e => freed e.2 && decide (e.2.readers ≠ 0)) then s2 else s2.csrDone r

/-- The waiting XINV of the hart h of the context a, when its SCOPE is this one. -/
def xinvEvent (scope : Nat) (k : HartRef → Word → State) (s : State) : Host.Outcome State Fault Refusal :=
  let r : HartRef := { cid := s.evArg.a, kind := s.evArg.h }
  match (s.hart r).pendCsr with
  | some (.xinv, x) => if bits x 0 2 = scope then .next (k r x) else .next s
  | _ => .next s

/-- XINV_PAGE (R202). -/
def execXinvPage (s : State) : Host.Outcome State Fault Refusal :=
  xinvEvent 0 (fun r x =>
    let t := bits x 9 7
    let va := bits x 16 41 * 65536
    s.xinv r (fun t' va' n => decide (t' = t) && decide (va' / 2 ^ n = va / 2 ^ n))
      (fun e => decide (e.tenant = t) && decide (va / 2 ^ e.shift = e.va / 2 ^ e.shift))) s

/-- XINV_TENANT (R202). -/
def execXinvTenant (s : State) : Host.Outcome State Fault Refusal :=
  xinvEvent 1 (fun r x => s.xinv r (fun t' _ _ => decide (t' = bits x 9 7)) (fun e => decide (e.tenant = bits x 9 7))) s

/-- XINV_ALL (R202). -/
def execXinvAll (s : State) : Host.Outcome State Fault Refusal :=
  xinvEvent 2 (fun r _ => s.xinv r (fun _ _ _ => true) (fun _ => true)) s

/-- Whether the reserve of a die is empty (R201). -/
def Die.reserveEmpty (d : Die) : Bool := d.spare.isEmpty && decide (bits d.hotres 52 12 = 0)

/-- A frame taken from the reserve of a die (R201, R205). -/
def State.takeFrame (s : State) (die : Nat) : Nat × State :=
  let d := s.dieOf die
  match d.spare with
  | f :: r => (f, s.withDie die { d with spare := r })
  | [] =>
    (bits d.hotres 16 36 * 65536, s.withDie die { d with hotres := d.hotres - 0x0010000000000000 + 0x10000 })

/-- A frame given back to the reserve of a die (R203). -/
def State.giveFrame (s : State) (die f : Nat) : State :=
  let d := s.dieOf die
  if bits d.hotres 16 36 * 65536 = f + 65536 ∧ bits d.hotres 52 12 < 4095 then
    s.withDie die { d with hotres := d.hotres + 0x0010000000000000 - 0x10000 }
  else s.withDie die { d with spare := f :: d.spare }

/-- Whether a page's frame is MIGRATING. -/
def State.frameMoves (s : State) (pa : Nat) : Bool := s.migs.any (fun m => decide (m.src = pa))

/-- A migration starts (R203–R205): the frame comes from the reserve of the destination die. -/
def State.startMigration (s : State) (tenant va : Nat) (l : Leaf) (die : Nat) (starter : Option Nat) : State :=
  let f := s.takeFrame die
  let n := f.2.fresh
  { n.2 with migs := n.2.migs ++ [{ id := n.1, tenant := tenant, va := va, src := entryAddr l.word, dst := f.1,
                                    leafAddr := l.at_, leafWord := l.word, starter := starter, die := die }] }

/-- The reasons of R207 for which a migration is refused. -/
def State.migRefusals (s : State) (l : Option Leaf) (die : Nat) : List Nat :=
  (match l with
   | none => [2]
   | some l =>
     let k := kindOfCode (bits l.word 60 4)
     (if bit l.word 59 then [1] else []) ++ (if l.shift ≠ 16 then [4] else [])
       ++ (if k = some .repl ∨ k = some .hostmem then [5] else [])
       ++ (if s.frameMoves (entryAddr l.word) then [6] else []))
  ++ (if (s.dieOf die).reserveEmpty then [3] else [])

/-- MIGCMD_GO (R207): the waiting MIGCMD of the hart h of the context a; while STATE is BUSY it is ignored. A leaf that cannot
be read maps nothing (notes/assumptions/117); a page to which an unaligned store is under way moves once it is complete
(notes/assumptions/2). Where several reasons to refuse hold, which one WHY names is free. -/
def execMigcmdGo (s : State) : Host.Outcome State Fault Refusal :=
  let r : HartRef := { cid := s.evArg.a, kind := s.evArg.h }
  match (s.hart r).pendCsr with
  | some (.migcmd, x) =>
    let c := s.ctx r.cid
    let t := bits x 9 7
    let die := bits x 2 2
    let va := bits c.migva 16 41 * 65536
    let l := if s.badWalk c.core t va then none else s.walk t va
    let why := s.migRefusals l die
    let s0 := (s.logBadEntry c.core t va).csrDone r
    if c.migBusy then .next (s.csrDone r) else
    match l, why with
    | some l, [] =>
      if s.storing (entryAddr l.word) then .next s else
      let s1 := s0.startMigration t va l die (some r.cid)
      .next (s1.withCtx r.cid { s1.ctx r.cid with migstat := 1 })
    | _, _ =>
      let f := s0.freeBelow why.length
      .next (f.2.withCtx r.cid { f.2.ctx r.cid with migstat := BitVec.ofNat 64 (why.getD f.1 2 * 4 + 3) })
  | _ => .next s

/-- The half-atom of HEAD, TAIL and SIZE of the migration log of a die that the die cannot read (20_system R454; 18_link R422;
R458). -/
def State.logUnread (s : State) (die : Nat) : Option Nat :=
  s.badHalf (Config.coresPerDie * die) (s.dieOf die).hotlog.toNat 24

/-- The migration log of a die is full (R206); one whose header cannot be read takes no record (notes/assumptions/116). -/
def State.logFull (s : State) (die : Nat) : Bool :=
  let b := (s.dieOf die).hotlog.toNat
  (s.logUnread die).isSome || ringFull (s.memWord b) (s.memWord (b + 8)) (s.memWord (b + 16))

/-- A header that a die cannot read is logged, once (20_system R447; notes/assumptions/116). -/
def State.noteUnread (s : State) (die : Nat) : State :=
  (s.logUnread die).elim s (fun h => s.logOnce 0 (Config.coresPerDie * die) h)

/-- The 64 KiB STREAM pages in the stacks of a die whose frame one leaf entry maps (R205). -/
def State.hotPages (s : State) (die : Nat) : List HotPage :=
  let all := s.allLeaves
  all.filter (fun p =>
    decide (p.leaf.shift = 16) && decide (kindOfCode (bits p.leaf.word 60 4) = some .stream)
      && decide (paDie (entryAddr p.leaf.word) = die) && !s.frameMoves (entryAddr p.leaf.word)
      && all.all (fun q => decide (q.leaf.at_ = p.leaf.at_) || !q.leaf.maps (entryAddr p.leaf.word)))

/-- A candidate: its page, the excess of the die that accesses it most, and that die. -/
structure HotCand where
  page   : HotPage
  excess : Nat
  dest   : Nat
deriving DecidableEq, Repr

/-- The candidate that a page is, if it is one (R205): the counts of a window are free (notes/assumptions/15). -/
def hotCand (ctr die thresh : Nat) (p : HotPage) : Option HotCand :=
  let n := fun d => Config.hotCount ctr (entryAddr p.leaf.word) d
  let others := (List.range Config.dies).filter (fun d => decide (d ≠ die))
  let top := (others.map n).foldl max 0
  let best := others.filter (fun d => decide (n d = top))
  if n die + thresh ≤ top ∧ n die < top then
    some { page := p, excess := top - n die, dest := best.getD (Config.freeChoice ctr % best.length) 0 }
  else none

/-- The candidates of a window, in order (R205). -/
def State.hotCands (s : State) (die : Nat) : List HotCand :=
  let th := bits (s.dieOf die).hotctl 32 16
  ((s.hotPages die).filterMap (hotCand s.freeCtr die th)).mergeSort (fun a b =>
    decide (b.excess < a.excess)
      || (decide (a.excess = b.excess) && decide (entryAddr a.page.leaf.word ≤ entryAddr b.page.leaf.word)))

/-- Candidates one after another, at most n migrations (R205). A leaf that cannot be read is logged, and its page passed by,
whatever its PIN says (notes/assumptions/117). -/
def State.startHot (s : State) (die : Nat) : List HotCand → Nat → State
  | [], _ => s
  | c :: r, n =>
    let d := s.dieOf die
    if s.imageBad (Config.coresPerDie * die) c.page.leaf.at_ 8 then
      (s.logUncorr c.page.tenant (Config.coresPerDie * die) c.page.leaf.at_).startHot die r n
    else if bit c.page.leaf.word 59 then
      (s.withDie die { d with hotstat := (d.hotstat &&& 0xFFFFFFFF00000000) ||| ((d.hotstat + 1) &&& 0xFFFFFFFF) }).startHot
        die r n
    else if n = 0 ∨ (s.dieOf c.dest).reserveEmpty ∨ s.logFull die then s.startHot die r n
    else (s.startMigration c.page.tenant c.page.va c.page.leaf c.dest none).startHot die r (n - 1)

/-- HOT_WINDOW_END (R205): a window of the tracker of the die a ends, 65,536 heartbeats after it began and while no
unaligned store is under way to a candidate (notes/assumptions/2). -/
def execHotWindowEnd (s : State) : Host.Outcome State Fault Refusal :=
  let die := s.evArg.a
  let d := s.dieOf die
  if Config.dies ≤ die ∨ !bit d.hotctl 0 ∨ (s.hb - d.hotSince).toNat < 65536 then .next s
  else
    let cs := s.hotCands die
    if cs.any (fun c => s.storing (entryAddr c.page.leaf.word)) then .next s else
    let s1 := ({ s with freeCtr := s.freeCtr + 1 } : State).withDie die { d with hotSince := s.hb }
    .next ((if cs = [] then s1 else s1.noteUnread die).startHot die cs (bits d.hotctl 16 16))

/-- A frame number after a page has moved. -/
def movedFrame (src dst f : Nat) : Nat := if f = src / 65536 then dst / 65536 else f

/-- A granule after a page has moved. -/
def movedKey (src dst key : Nat) : Nat := if key / 1024 = src / 65536 then dst / 65536 * 1024 + key % 1024 else key

/-- A stream after a page has moved: the granules of what it has buffered. -/
def Stream.moved (x : Stream) (src dst : Nat) : Stream :=
  { x with strips := x.strips.map (fun l => l.map (fun b => { b with keys := b.keys.map (movedKey src dst) })) }

/-- A physical address after a page has moved. -/
def movedPa (src dst pa : Nat) : Nat := if pa / 65536 = src / 65536 then dst / 65536 * 65536 + pa % 65536 else pa

/-- A table whose keys [src, src + n) have moved to dst. -/
def moveKeys {α : Type} (t : Table α) (src dst n : Nat) : Table α :=
  let part := t.filter (fun e => decide (src ≤ e.1) && decide (e.1 < src + n))
  let rest := t.filter (fun e => !((decide (src ≤ e.1) && decide (e.1 < src + n)) || (decide (dst ≤ e.1) && decide (e.1 < dst + n))))
  part.foldl (fun t e => tput t (dst + (e.1 - src)) e.2) rest

/-- A key of a pure task after a page has moved: the frames that its claim records. -/
def Keyed.moved (k : Keyed) (src dst : Nat) : Keyed :=
  { k with reads := k.reads.map (movedFrame src dst), inputs := k.inputs.map (movedFrame src dst), code := k.code.map (movedFrame src dst) }

/-- The pure state of a task after a page has moved. -/
def PureState.moved (p : PureState) (src dst : Nat) : PureState := { p with key := p.key.map (fun k => k.moved src dst) }

/-- A context after a page has moved. -/
def Ctx.moved (c : Ctx) (src dst : Nat) : Ctx :=
  let hart := fun (h : Hart) => { h with pure := h.pure.map (fun p => p.moved src dst) }
  { c with ch := hart c.ch, fh := hart c.fh, dh := hart c.dh
           conts := c.conts.map (fun k => { k with pure := k.pure.map (fun p => p.moved src dst) })
           streams := c.streams.map (fun x => (x.1, x.2.moved src dst)) }

/-- The half-atoms of a page that hold an uncorrectable error. -/
def State.badHalves (s : State) (page : Nat) : List Nat := s.ecc.filter (fun h => decide (h / 2048 = page / 65536))

/-- How many of the n bytes at pa, of a frame, are populated (R458). -/
def populatedPart (pa n : Nat) : Nat :=
  if pa / Config.dieRange < Config.dies then min n (Config.populated - pa % Config.dieRange) else 0

/-- The bytes that a migration copies of a page (R204), as far as the new frame is populated (R458). A half-atom that cannot be
read gives all ones (00_scope R8; notes/assumptions/117). -/
def State.movedBytes (s : State) (src dst : Nat) : Sparse Byte :=
  let n := populatedPart dst 65536
  let m := (sslice s.mem src (src + n)).foldl (fun m e => sset 0 m (dst + e.1) e.2) (sclear s.mem dst (dst + n))
  ((s.badHalves src).filter (fun h => decide (32 * (h % 2048) < n))).foldl (fun m h =>
    ssetList 0 m (dst + 32 * (h % 2048)) (List.replicate 32 (BitVec.allOnes 8))) m

/-- Marks of half-atoms, but for those of a page. -/
def offPage (page : Nat) (marks : List Nat) : List Nat := marks.filter (fun h => decide (h / 2048 ≠ page / 65536))

/-- What a migration copies (R204): the bytes, the turn states, the write generation; and what the units that watch the page
hold about it goes with the page. -/
def State.movePage (s : State) (src dst : Nat) : State :=
  { s with
    mem := s.movedBytes src dst
    ecc := offPage dst s.ecc
    reported := offPage dst s.reported
    soft := offPage dst s.soft
    gran := moveKeys s.gran (src / 64) (dst / 64) 1024
    wgen := match tget s.wgen (src / 65536) with
      | some g => tput s.wgen (dst / 65536) g
      | none => tdel s.wgen (dst / 65536)
    reuse := s.reuse.map (fun e => (e.1, { e.2 with imgPa := movedPa src dst e.2.imgPa
                                                    pages := e.2.pages.map (movedFrame src dst) }))
    tenants := s.tenants.map (fun (t : Nat × Tenant) => (t.1, { t.2 with slots := t.2.slots.map (fun (c : Nat × CodeSlot) =>
      (c.1, { c.2 with wgens := c.2.wgens.map (fun g => (movedFrame src dst g.1, g.2))
                       frames := c.2.frames.map (movedFrame src dst) })) }))
    watches := s.watches.map (fun w => { w with pa := movedPa src dst w.pa })
    traps := s.traps.map (fun t => { t with ringAt := t.ringAt.map (movedPa src dst) })
    ctxs := s.ctxs.map (fun e => (e.1, e.2.moved src dst))
    outWatch := s.outWatch.map (fun o => { o with key := movedKey src dst o.key }) }

/-- The address of the next record of the migration log of a die (R206). -/
def State.migLogAt (s : State) (d : Die) : Nat :=
  let b := d.hotlog.toNat
  b + 64 + 32 * ((s.memWord b).toNat % (s.memWord (b + 16)).toNat)

/-- A record of the migration log (R206). -/
def State.writeMigLog (s : State) (d : Die) (m : Migration) : State :=
  let b := d.hotlog.toNat
  let head := s.memWord b
  let ws := [BitVec.ofNat 64 (m.va + m.tenant * 512), BitVec.ofNat 64 m.src, BitVec.ofNat 64 m.dst, s.hb]
  let at_ := s.migLogAt d
  let s1 := s.writeCopy .sync at_ ((bytesOfWords ws).take (populatedPart at_ 32)) 0 .host 0
  s1.writeCopy .sync b (bytesOfWord 8 (head + 1)) 0 .host 0

/-- The status of a MIGCMD (R207). -/
def State.setMigstat (s : State) (starter : Option Nat) (x : Word) : State :=
  match starter with
  | some cid =>
    match tget s.ctxs cid with
    | some c => s.withCtx cid { c with migstat := x }
    | none => s
  | none => s

/-- What a migration could not read of its page is logged (20_system R447). -/
def State.logLost (s : State) (core : Nat) (m : Migration) : State :=
  (s.badHalves m.src).foldl (fun s h => s.logUncorr m.tenant core (32 * h)) s

/-- A migration that ends without its swap (R204, R207): the new frame goes back to its reserve. -/
def State.switchFails (s : State) (m : Migration) : State := (s.giveFrame m.die m.dst).setMigstat m.starter 31

/-- Whether the switch of a migration waits: for a route to the new frame, for another migration that moves the page of the
leaf, for multicasts under way to where the leaf goes (18_link R423), and in one of the tracker for the log (R205). -/
def State.switchWaits (s : State) (m : Migration) : Bool :=
  let dn := paDie m.src
  let d := s.dieOf dn
  !s.reaches (Config.coresPerDie * dn) m.dst 65536 || s.migrating .sync m.leafAddr || s.behind 0 .sync m.leafAddr 8
    || (m.starter.isNone && (s.logFull dn || s.migrating .sync d.hotlog.toNat || s.migrating .sync (s.migLogAt d)
        || s.behind 0 .sync d.hotlog.toNat 8 || s.behind 0 .sync (s.migLogAt d) 32))

/-- MIGRATION_SWITCH (R203, R204): the copy of the migration a has ended; the leaf is swapped where it has not changed
since the start. One that cannot be read fails the swap (notes/assumptions/117). A migration of the tracker waits here for room
in the log; a page to be written, of the log or of the tables, that is MIGRATING stalls it, and so does the lack of a route to
the new frame (notes/assumptions/71). -/
def execMigrationSwitch (s : State) : Host.Outcome State Fault Refusal :=
  match s.migs.find? (fun m => decide (m.id = s.evArg.a)) with
  | none => .next s
  | some m =>
    let dn := paDie m.src
    let core := Config.coresPerDie * dn
    let gone : State := { s with migs := s.migs.filter (fun x => decide (x.id ≠ m.id)) }
    let s0 := gone.dropTlb (fun e => decide (e.tenant = m.tenant) && decide (m.va / 2 ^ e.shift = e.va / 2 ^ e.shift))
    if s.imageBad core m.leafAddr 8 then .next ((s0.logUncorr m.tenant core m.leafAddr).switchFails m)
    else if s.memWord m.leafAddr ≠ m.leafWord then .next (s0.switchFails m)
    else if gone.switchWaits m then .next (if m.starter.isNone then s.noteUnread dn else s)
    else
      let leaf := (m.leafWord &&& 0xFFF00000000000FF) ||| BitVec.ofNat 64 m.dst
      let s1 := ((s0.logLost core m).movePage m.src m.dst).writeCopy .sync (movedPa m.src m.dst m.leafAddr) (bytesOfWord 8 leaf) 0 .host m.tenant
      match m.starter with
      | some _ => .next (s1.setMigstat m.starter 2)
      | none =>
        let d1 := s1.dieOf dn
        .next ((s1.withDie dn { d1 with hotstat := d1.hotstat + 0x100000000 }).writeMigLog d1 m)

end Sys2Proof.Machine
end

