-- ==== Sys2Proof/Machine/Sys.lean ====
section
/-! DEFINITION. The SYS major: pipes (02_machine R21–R23, 05_scalar R109), fences (11_ordering R268–R270), heartbeat
instructions (13_kernel R315), ECALL, EBREAK and ERET (12_context R285, R286). -/

namespace Sys2Proof.Machine

/-- PSEND (R21, R109): the fetch hart sends on PIPE.IN, the compute hart on PIPE.OUT; a full pipe makes it wait, yielding
(R22), and then its own multicasts, and on the compute hart an earlier VIQ entry that accesses memory or a window (R23). -/
def execPsend (a : SReg) (s : State) : Host.Outcome State Fault Refusal :=
  onlyOn [.ch, .fh] (scalar [a] [] (impureOnly 6 (fun s =>
    let c := s.myCtx
    let out := decide (s.cur.kind = .ch)
    let pipe := if out then c.pipeOut else c.pipeIn
    if pipe.length < Config.pipeCap then
      afterWrites (afterViq (fun s =>
        let c1 := if out then { c with pipeOut := pipe ++ [s.readS a] } else { c with pipeIn := pipe ++ [s.readS a] }
        .done ((s.withMyCtx c1).advance 4))) s
    else .wait true s))) s

/-- PRECV (R21, R109): the compute hart receives from PIPE.IN, the drain hart from PIPE.OUT; with D = 0 the entry is
removed and discarded. -/
def execPrecv (d : SReg) (s : State) : Host.Outcome State Fault Refusal :=
  onlyOn [.ch, .dh] (scalar [] [d] (impureOnly 6 (fun s =>
    let c := s.myCtx
    let inn := decide (s.cur.kind = .ch)
    match (if inn then c.pipeIn else c.pipeOut) with
    | x :: rest =>
      let c1 := if inn then { c with pipeIn := rest } else { c with pipeOut := rest }
      .done ((s.withMyCtx c1).retire 4 d x)
    | [] => .wait true s))) s

/-- A fence of a scope (R269): it completes when every earlier access of the hart has performed at that scope and every
copy command of the hart has written its token and its writes have performed. A multicast has performed at CORE, QUAD
and DIE once it is on the writer's own die (R256). -/
def fence (x : Level) (s : State) : Host.Outcome State Fault Refusal :=
  scalar [] [] ((if 4 ≤ x.rank then afterWrites else id) (afterViq (fun s =>
    if s.copiesDone s.cur then .done (s.advance 4) else .wait false s))) s

/-- FENCE.CORE (R268). -/
def execFenceCore (s : State) : Host.Outcome State Fault Refusal := fence .core s
/-- FENCE.QUAD (R268). -/
def execFenceQuad (s : State) : Host.Outcome State Fault Refusal := fence .quad s
/-- FENCE.DIE (R268). -/
def execFenceDie (s : State) : Host.Outcome State Fault Refusal := fence .die s
/-- FENCE.DEV (R268). -/
def execFenceDev (s : State) : Host.Outcome State Fault Refusal := fence .dev s
/-- FENCE.FAB (R268). -/
def execFenceFab (s : State) : Host.Outcome State Fault Refusal := fence .host s

/-- FENCE.ENG (R269): it waits for the hart's copy commands alone. -/
def execFenceEng (s : State) : Host.Outcome State Fault Refusal :=
  scalar [] [] (fun s => if s.copiesDone s.cur then .done (s.advance 4) else .wait false s) s

/-- FENCE.SC (R270): it waits as FENCE.FAB does, and for every earlier send on a channel (R263, R269), and then until HB
next increments. -/
def execFenceSc (s : State) : Host.Outcome State Fault Refusal :=
  scalar [] [] (fun s =>
    match s.me.fenceHb with
    | some hb =>
      if s.hb = hb then .wait false s
      else .done ((s.withMe { s.me with fenceHb := none }).advance 4)
    | none =>
      afterWrites (afterEntries viqChan (afterViq (fun s =>
        if s.copiesDone s.cur then .wait false (s.withMe { s.me with fenceHb := some s.hb })
        else .wait false s))) s) s

/-- HBREAD (R315). -/
def execHbread (d : SReg) (s : State) : Host.Outcome State Fault Refusal :=
  scalar [] [d] (impureOnly 5 (fun s => .done (s.retire 4 d s.hb))) s

/-- HBWAIT (R315): until HB ≥ ReadS(A), unsigned. -/
def execHbwait (a : SReg) (s : State) : Host.Outcome State Fault Refusal :=
  scalar [a] [] (impureOnly 5 (fun s =>
    if (s.readS a).toNat ≤ s.hb.toNat then .done (s.advance 4) else .wait true s)) s

/-- ECALL (R286): cause 15, to the supervisor. -/
def execEcall (s : State) : Host.Outcome State Fault Refusal :=
  scalar [] [] (fun s => .trap { cause := .ecall } s) s

/-- EBREAK (R286): cause 16. -/
def execEbreak (s : State) : Host.Outcome State Fault Refusal :=
  scalar [] [] (fun s => .trap { cause := .ebreak } s) s

/-- ERET (R285): Illegal with detail 7 on a hart that is not in its handler. -/
def execEret (s : State) : Host.Outcome State Fault Refusal :=
  scalar [] [] (fun s =>
    if s.myCtx.handler = some s.cur.kind then afterViqEmpty (fun s => .done s.leaveHandler) s
    else .trap (illegal s 7 0) s) s

end Sys2Proof.Machine
end

