-- ==== Sys2Proof/WellFormed.lean ====
section
/-! DEFINITION. Which instructions are well formed: the operand limits of 03_encoding R45 and R50. A term that breaks one
has no encoding that the decoder accepts. -/

namespace Sys2Proof

/-- The number of bits that are set. -/
def popCount {n : Nat} (x : BitVec n) : Nat := (List.range n).foldl (fun c i => c + (x.getLsbD i).toNat) 0

/-- A row of the opcode table that has no encoding: a move of another agent of the device. -/
def Instr.isEvent : Instr → Bool
  | .add _ _ _ => false
  | .sub _ _ _ => false
  | .and _ _ _ => false
  | .or _ _ _ => false
  | .xor _ _ _ => false
  | .sll _ _ _ => false
  | .srl _ _ _ => false
  | .sra _ _ _ => false
  | .setlt _ _ _ => false
  | .setltu _ _ _ => false
  | .min _ _ _ => false
  | .max _ _ _ => false
  | .minu _ _ _ => false
  | .maxu _ _ _ => false
  | .andn _ _ _ => false
  | .orn _ _ _ => false
  | .rol _ _ _ => false
  | .ror _ _ _ => false
  | .mul _ _ _ => false
  | .mulhiSs _ _ _ => false
  | .mulhiUu _ _ _ => false
  | .mulhiSu _ _ _ => false
  | .div _ _ _ => false
  | .divu _ _ _ => false
  | .rem _ _ _ => false
  | .remu _ _ _ => false
  | .pmul _ _ _ => false
  | .pmulhi _ _ _ => false
  | .popc _ _ => false
  | .clz _ _ => false
  | .ctz _ _ => false
  | .brev _ _ => false
  | .bswap _ _ => false
  | .addi _ _ _ => false
  | .andi _ _ _ => false
  | .ori _ _ _ => false
  | .xori _ _ _ => false
  | .setlti _ _ _ => false
  | .setltiu _ _ _ => false
  | .slli _ _ _ => false
  | .srli _ _ _ => false
  | .srai _ _ _ => false
  | .rori _ _ _ => false
  | .bext _ _ _ _ => false
  | .bexts _ _ _ _ => false
  | .bins _ _ _ _ => false
  | .li _ _ => false
  | .li64 _ _ => false
  | .li96 _ _ _ => false
  | .la _ _ => false
  | .beq _ _ _ => false
  | .bne _ _ _ => false
  | .blt _ _ _ => false
  | .bge _ _ _ => false
  | .bltu _ _ _ => false
  | .bgeu _ _ _ => false
  | .jal _ _ => false
  | .jalr _ _ _ => false
  | .lb _ _ _ => false
  | .lh _ _ _ => false
  | .lw _ _ _ => false
  | .ld _ _ _ => false
  | .lbu _ _ _ => false
  | .lhu _ _ _ => false
  | .lwu _ _ _ => false
  | .sb _ _ _ => false
  | .sh _ _ _ => false
  | .sw _ _ _ => false
  | .st _ _ _ => false
  | .stLocal _ _ _ => false
  | .lbL _ _ _ => false
  | .lhL _ _ _ => false
  | .lwL _ _ _ => false
  | .ldL _ _ _ => false
  | .lbuL _ _ _ => false
  | .lhuL _ _ _ => false
  | .lwuL _ _ _ => false
  | .sbL _ _ _ => false
  | .shL _ _ _ => false
  | .swL _ _ _ => false
  | .stL _ _ _ => false
  | .stLocalL _ _ _ => false
  | .atomSwap _ _ _ _ => false
  | .atomAdd _ _ _ _ => false
  | .atomAnd _ _ _ _ => false
  | .atomOr _ _ _ _ => false
  | .atomXor _ _ _ _ => false
  | .atomMin _ _ _ _ => false
  | .atomMax _ _ _ _ => false
  | .atomMinu _ _ _ _ => false
  | .atomMaxu _ _ _ _ => false
  | .atomCas _ _ _ _ => false
  | .ldAcq _ _ => false
  | .stRel _ _ => false
  | .waitv _ _ _ => false
  | .psend _ => false
  | .precv _ => false
  | .hbread _ => false
  | .hbwait _ => false
  | .csrr _ _ => false
  | .csrw _ _ => false
  | .csrs _ _ => false
  | .csrc _ _ => false
  | .turn _ _ _ _ => false
  | .twait _ _ _ _ => false
  | .cpyin _ _ _ _ _ _ _ _ _ _ _ => false
  | .cpyout _ _ _ _ _ _ _ _ _ => false
  | .cpyreg _ _ _ _ _ _ _ _ _ => false
  | .cpyfold _ _ _ _ _ _ _ _ _ _ _ => false
  | .scpy _ _ _ _ _ _ _ _ _ => false
  | .exportPage _ _ => false
  | .tcpyIn _ _ _ _ _ _ _ _ _ _ _ => false
  | .tcpyOut _ _ _ _ _ _ _ _ _ _ _ => false
  | .sbind _ _ => false
  | .sfree _ => false
  | .tspawn _ => false
  | .tdep _ _ _ => false
  | .tdec _ => false
  | .sfarm _ => false
  | .snext _ => false
  | .launch _ _ => false
  | .tsusp _ _ => false
  | .qcreate _ _ => false
  | .qpush _ _ _ => false
  | .qpop _ _ _ => false
  | .qinfo _ _ => false
  | .qclose _ => false
  | .barinit _ _ _ => false
  | .bararr _ => false
  | .bartx _ _ => false
  | .barwait _ => false
  | .bartest _ _ => false
  | .coll _ _ _ => false
  | .cdreg _ _ _ => false
  | .ruquery _ _ => false
  | .ruinval _ => false
  | .rustat _ _ => false
  | .ruflush _ => false
  | .chsend _ _ => false
  | .chsendS _ _ => false
  | .chrecv _ _ => false
  | .chrecvS _ _ => false
  | .vadd _ _ _ _ _ => false
  | .vsub _ _ _ _ _ => false
  | .vmul _ _ _ _ _ => false
  | .vdiv _ _ _ _ _ => false
  | .vmin _ _ _ _ _ => false
  | .vmax _ _ _ _ _ => false
  | .vand _ _ _ _ _ => false
  | .vor _ _ _ _ _ => false
  | .vxor _ _ _ _ _ => false
  | .vsll _ _ _ _ _ => false
  | .vsrl _ _ _ _ _ => false
  | .vsra _ _ _ _ _ => false
  | .vfma _ _ _ _ _ => false
  | .vfms _ _ _ _ _ => false
  | .vabs _ _ _ => false
  | .vneg _ _ _ => false
  | .vsqrt _ _ _ => false
  | .vrcp _ _ _ => false
  | .vrsq _ _ _ => false
  | .vexp2 _ _ _ => false
  | .vlog2 _ _ _ => false
  | .vtanh _ _ _ => false
  | .vsigm _ _ _ => false
  | .vmov _ _ _ => false
  | .vceq _ _ _ _ _ => false
  | .vcne _ _ _ _ _ => false
  | .vclt _ _ _ _ _ => false
  | .vcle _ _ _ _ _ => false
  | .vcgt _ _ _ _ _ => false
  | .vcge _ _ _ _ _ => false
  | .mand _ _ _ => false
  | .mor _ _ _ => false
  | .mxor _ _ _ => false
  | .mnot _ _ => false
  | .vmerge _ _ _ _ _ => false
  | .vcvt _ _ _ => false
  | .vqnt _ _ _ => false
  | .vhad _ _ _ => false
  | .vtag _ _ _ _ _ => false
  | .vconf _ _ _ _ _ _ => false
  | .vconfR _ _ _ => false
  | .vld _ _ _ => false
  | .vst _ _ _ => false
  | .vlds _ _ _ _ => false
  | .vsts _ _ _ _ => false
  | .vldx _ _ _ _ => false
  | .vldff _ _ _ => false
  | .vscadd _ _ _ _ => false
  | .vspill _ _ => false
  | .vreload _ _ => false
  | .vlenq _ => false
  | .scld _ _ _ => false
  | .vslideup _ _ _ _ => false
  | .vslidedn _ _ _ _ => false
  | .vshuf _ _ _ _ _ => false
  | .vcompress _ _ _ => false
  | .vsplat _ _ _ => false
  | .vins _ _ _ => false
  | .vext _ _ _ => false
  | .vredSum _ _ _ => false
  | .vredMin _ _ _ => false
  | .vredMax _ _ _ => false
  | .vredAnd _ _ _ => false
  | .vredOr _ _ _ => false
  | .vredXor _ _ _ => false
  | .vredMini _ _ _ => false
  | .vredMaxi _ _ _ => false
  | .vscanAdd _ _ _ _ _ => false
  | .vscanMax _ _ _ _ _ => false
  | .vscanMin _ _ _ _ _ => false
  | .vscanLin _ _ _ _ _ _ => false
  | .mop _ _ _ _ _ => false
  | .mzero _ => false
  | .mrow _ _ _ _ => false
  | .mcol _ _ _ _ => false
  | .mwrow _ _ _ => false
  | .dadd _ _ _ => false
  | .dsub _ _ _ => false
  | .dmul _ _ _ => false
  | .dmin _ _ _ => false
  | .dmax _ _ _ => false
  | .dfma _ _ _ => false
  | .daff _ _ _ _ => false
  | .dpt _ _ => false
  | .dset _ _ _ => false
  | .dget _ _ _ => false
  | .dtag _ _ => false
  | .dmom _ _ _ => false
  | .dqnt _ _ _ => false
  | .dcdf _ _ _ => false
  | .dld _ _ => false
  | .dst _ _ => false
  | .fmtset _ _ => false
  | .hint _ => false
  | .hint64 _ _ => false
  | .hint96 _ _ _ => false
  | .hint160 _ _ _ _ _ => false
  | .fenceCore => false
  | .fenceQuad => false
  | .fenceDie => false
  | .fenceDev => false
  | .fenceFab => false
  | .fenceEng => false
  | .fenceSc => false
  | .ecall => false
  | .ebreak => false
  | .eret => false
  | .tdone => false
  | .maxlenWrite => true
  | .copyStart => true
  | .copyAtom => true
  | .scpyStamp => true
  | .tokenWrite => true
  | .streamRefill => true
  | .gatherServe => true
  | .scatterUpdate => true
  | .dispatch => true
  | .queueRefill => true
  | .collectiveRun => true
  | .hitCopyDone => true
  | .insertionDone => true
  | .messageArrival => true
  | .trapRecordWrite => true
  | .engerrAsync => true
  | .replyResume => true
  | .replyResumeAt => true
  | .replyReturn => true
  | .replyDeliver => true
  | .replyKill => true
  | .replySkip => true
  | .slotSwap => true
  | .fairShareExpiry => true
  | .contextSave => true
  | .saveDone => true
  | .contextRestore => true
  | .restoreDone => true
  | .preemption => true
  | .doorbell => true
  | .kqEntryTake => true
  | .placement => true
  | .agingStep => true
  | .launchTick => true
  | .timedStartSwap => true
  | .kernelRetire => true
  | .watchdog => true
  | .heartbeatTick => true
  | .pageWalkDone => true
  | .xinvPage => true
  | .xinvTenant => true
  | .xinvAll => true
  | .migcmdGo => true
  | .hotWindowEnd => true
  | .migrationSwitch => true
  | .ruquotaWrite => true
  | .rupoolWrite => true
  | .hostMemRead => true
  | .hostMemWrite => true
  | .hostRegWrite => true
  | .alarmpolWrite => true
  | .fwGo => true
  | .fwVerifyDone => true
  | .tkeyWrite => true
  | .tkctlLoad => true
  | .tkctlErase => true
  | .tresetGo => true
  | .functionLevelReset => true
  | .securityAlarm => true
  | .coldReset => true
  | .warmReset => true
  | .hbmReady => true
  | .freeze => true
  | .idcode => true
  | .bypass => true
  | .unlock => true
  | .readout => true
  | .patrolScrub => true
  | .halfWidth => true
  | .fullWidth => true
  | .powerGate => true
  | .trainingDone => true
  | .trainingFail => true
  | .flitReceive => true
  | .nakReceive => true
  | .ackReceive => true
  | .nakRepeat => true
  | .nakTimeout => true
  | .packetDeliver => true
  | .routerSleep => true
  | .wake => true
  | .deadlockProbeSend => true
  | .probeReceive => true
  | .deadlockStep => true
  | .probeRetry => true
  | .twaitTimeout => true
  | .cxlCacheSnoop => true

/-- The operand limits of R45 and R50 (details 4 and 5) that a term of the syntax can break. -/
def Instr.wf : Instr → Bool
  | .add _ _ _ => true
  | .sub _ _ _ => true
  | .and _ _ _ => true
  | .or _ _ _ => true
  | .xor _ _ _ => true
  | .sll _ _ _ => true
  | .srl _ _ _ => true
  | .sra _ _ _ => true
  | .setlt _ _ _ => true
  | .setltu _ _ _ => true
  | .min _ _ _ => true
  | .max _ _ _ => true
  | .minu _ _ _ => true
  | .maxu _ _ _ => true
  | .andn _ _ _ => true
  | .orn _ _ _ => true
  | .rol _ _ _ => true
  | .ror _ _ _ => true
  | .mul _ _ _ => true
  | .mulhiSs _ _ _ => true
  | .mulhiUu _ _ _ => true
  | .mulhiSu _ _ _ => true
  | .div _ _ _ => true
  | .divu _ _ _ => true
  | .rem _ _ _ => true
  | .remu _ _ _ => true
  | .pmul _ _ _ => true
  | .pmulhi _ _ _ => true
  | .popc _ _ => true
  | .clz _ _ => true
  | .ctz _ _ => true
  | .brev _ _ => true
  | .bswap _ _ => true
  | .addi _ _ _ => true
  | .andi _ _ _ => true
  | .ori _ _ _ => true
  | .xori _ _ _ => true
  | .setlti _ _ _ => true
  | .setltiu _ _ _ => true
  | .slli _ _ _ => true
  | .srli _ _ _ => true
  | .srai _ _ _ => true
  | .rori _ _ _ => true
  | .bext _ _ _ width => decide (width.toNat ≤ 64)
  | .bexts _ _ _ width => decide (width.toNat ≤ 64)
  | .bins _ _ _ width => decide (width.toNat ≤ 64)
  | .li _ _ => true
  | .li64 _ _ => true
  | .li96 _ _ _ => true
  | .la _ _ => true
  | .beq _ _ _ => true
  | .bne _ _ _ => true
  | .blt _ _ _ => true
  | .bge _ _ _ => true
  | .bltu _ _ _ => true
  | .bgeu _ _ _ => true
  | .jal _ _ => true
  | .jalr _ _ _ => true
  | .lb _ _ _ => true
  | .lh _ _ _ => true
  | .lw _ _ _ => true
  | .ld _ _ _ => true
  | .lbu _ _ _ => true
  | .lhu _ _ _ => true
  | .lwu _ _ _ => true
  | .sb _ _ _ => true
  | .sh _ _ _ => true
  | .sw _ _ _ => true
  | .st _ _ _ => true
  | .stLocal _ _ _ => true
  | .lbL _ _ _ => true
  | .lhL _ _ _ => true
  | .lwL _ _ _ => true
  | .ldL _ _ _ => true
  | .lbuL _ _ _ => true
  | .lhuL _ _ _ => true
  | .lwuL _ _ _ => true
  | .sbL _ _ _ => true
  | .shL _ _ _ => true
  | .swL _ _ _ => true
  | .stL _ _ _ => true
  | .stLocalL _ _ _ => true
  | .atomSwap _ _ _ _ => true
  | .atomAdd _ _ _ _ => true
  | .atomAnd _ _ _ _ => true
  | .atomOr _ _ _ _ => true
  | .atomXor _ _ _ _ => true
  | .atomMin _ _ _ _ => true
  | .atomMax _ _ _ _ => true
  | .atomMinu _ _ _ _ => true
  | .atomMaxu _ _ _ _ => true
  | .atomCas _ _ _ _ => true
  | .ldAcq _ _ => true
  | .stRel _ _ => true
  | .waitv _ _ _ => true
  | .psend _ => true
  | .precv _ => true
  | .hbread _ => true
  | .hbwait _ => true
  | .csrr _ _ => true
  | .csrw _ _ => true
  | .csrs _ _ => true
  | .csrc _ _ => true
  | .turn lvl _ _ _ => decide (1 ≤ lvl.toNat ∧ lvl.toNat ≤ 5)
  | .twait _ _ _ _ => true
  | .cpyin _ _ _ _ _ vdst vg _ toa aoff _ => decide (vdst = 1 ∨ vg = 0) && decide (vdst = 0 ∨ aoff = 0) && decide (toa = 0)
  | .cpyout _ _ _ _ _ comp toa _ _ => decide (toa.toNat ≤ 5 ∧ comp = 0)
  | .cpyreg _ _ _ _ _ _ _ comp toa => decide (toa = 0 ∧ comp = 0)
  | .cpyfold _ _ _ _ _ fold _ comp toa _ _ => decide (fold ≠ 3 ∧ toa = 0 ∧ comp = 0)
  | .scpy _ _ _ _ _ comp toa _ _ => decide (toa.toNat ≤ 5 ∧ comp = 0)
  | .exportPage _ _ => true
  | .tcpyIn _ _ _ _ _ toa _ _ _ _ _ => decide (toa = 0)
  | .tcpyOut _ _ _ _ comp toa _ _ _ _ _ => decide (toa.toNat ≤ 5 ∧ comp = 0)
  | .sbind _ _ => true
  | .sfree _ => true
  | .tspawn a => decide (a.toNat ≤ 24)
  | .tdep _ _ d => decide (d.toNat ≤ 24)
  | .tdec _ => true
  | .sfarm _ => true
  | .snext _ => true
  | .launch _ _ => true
  | .tsusp _ mask => decide (mask.getLsbD 0 = false ∧ popCount mask ≤ 16)
  | .qcreate _ _ => true
  | .qpush _ _ _ => true
  | .qpop _ _ _ => true
  | .qinfo _ _ => true
  | .qclose _ => true
  | .barinit _ _ _ => true
  | .bararr _ => true
  | .bartx _ _ => true
  | .barwait _ => true
  | .bartest _ _ => true
  | .coll _ _ _ => true
  | .cdreg _ _ _ => true
  | .ruquery _ _ => true
  | .ruinval _ => true
  | .rustat _ _ => true
  | .ruflush _ => true
  | .chsend c _ => decide (c.toNat ≤ 15)
  | .chsendS c _ => decide (c.toNat ≤ 15)
  | .chrecv _ c => decide (c.toNat ≤ 15)
  | .chrecvS _ c => decide (c.toNat ≤ 15)
  | .vadd _ _ _ _ _ => true
  | .vsub _ _ _ _ _ => true
  | .vmul _ _ _ _ _ => true
  | .vdiv _ _ _ _ _ => true
  | .vmin _ _ _ _ _ => true
  | .vmax _ _ _ _ _ => true
  | .vand _ _ _ _ _ => true
  | .vor _ _ _ _ _ => true
  | .vxor _ _ _ _ _ => true
  | .vsll _ _ _ _ _ => true
  | .vsrl _ _ _ _ _ => true
  | .vsra _ _ _ _ _ => true
  | .vfma _ _ _ _ _ => true
  | .vfms _ _ _ _ _ => true
  | .vabs _ _ _ => true
  | .vneg _ _ _ => true
  | .vsqrt _ _ _ => true
  | .vrcp _ _ _ => true
  | .vrsq _ _ _ => true
  | .vexp2 _ _ _ => true
  | .vlog2 _ _ _ => true
  | .vtanh _ _ _ => true
  | .vsigm _ _ _ => true
  | .vmov _ _ _ => true
  | .vceq _ _ _ _ _ => true
  | .vcne _ _ _ _ _ => true
  | .vclt _ _ _ _ _ => true
  | .vcle _ _ _ _ _ => true
  | .vcgt _ _ _ _ _ => true
  | .vcge _ _ _ _ _ => true
  | .mand _ _ _ => true
  | .mor _ _ _ => true
  | .mxor _ _ _ => true
  | .mnot _ _ => true
  | .vmerge _ _ _ _ _ => true
  | .vcvt _ _ _ => true
  | .vqnt _ _ _ => true
  | .vhad _ _ b => decide (b.toNat ≤ 2)
  | .vtag _ _ _ _ _ => true
  | .vconf _ _ _ _ _ _ => true
  | .vconfR _ _ _ => true
  | .vld _ _ _ => true
  | .vst _ _ _ => true
  | .vlds _ _ _ _ => true
  | .vsts _ _ _ _ => true
  | .vldx _ _ _ _ => true
  | .vldff _ _ _ => true
  | .vscadd _ _ _ _ => true
  | .vspill _ _ => true
  | .vreload _ _ => true
  | .vlenq _ => true
  | .scld _ _ _ => true
  | .vslideup _ _ _ _ => true
  | .vslidedn _ _ _ _ => true
  | .vshuf _ _ _ _ _ => true
  | .vcompress _ _ _ => true
  | .vsplat _ _ _ => true
  | .vins _ _ _ => true
  | .vext _ _ _ => true
  | .vredSum _ _ _ => true
  | .vredMin _ _ _ => true
  | .vredMax _ _ _ => true
  | .vredAnd _ _ _ => true
  | .vredOr _ _ _ => true
  | .vredXor _ _ _ => true
  | .vredMini _ _ _ => true
  | .vredMaxi _ _ _ => true
  | .vscanAdd _ _ _ _ _ => true
  | .vscanMax _ _ _ _ _ => true
  | .vscanMin _ _ _ _ _ => true
  | .vscanLin _ _ _ _ _ _ => true
  | .mop _ _ _ _ _ => true
  | .mzero _ => true
  | .mrow _ _ _ _ => true
  | .mcol _ _ _ _ => true
  | .mwrow _ _ _ => true
  | .dadd _ _ _ => true
  | .dsub _ _ _ => true
  | .dmul _ _ _ => true
  | .dmin _ _ _ => true
  | .dmax _ _ _ => true
  | .dfma _ _ _ => true
  | .daff _ _ _ b => decide (b.getLsbD 0 = false)
  | .dpt _ _ => true
  | .dset _ a b => decide (a.getLsbD 0 = false ∧ b.toNat ≤ 7)
  | .dget d _ b => decide (d.getLsbD 0 = false ∧ b.toNat ≤ 7)
  | .dtag _ _ => true
  | .dmom _ _ b => decide (1 ≤ b.toNat ∧ b.toNat ≤ 4)
  | .dqnt _ _ _ => true
  | .dcdf _ _ _ => true
  | .dld _ _ => true
  | .dst _ _ => true
  | .fmtset _ _ => true
  | .hint _ => true
  | .hint64 _ _ => true
  | .hint96 _ _ _ => true
  | .hint160 _ _ _ _ _ => true
  | .fenceCore => true
  | .fenceQuad => true
  | .fenceDie => true
  | .fenceDev => true
  | .fenceFab => true
  | .fenceEng => true
  | .fenceSc => true
  | .ecall => true
  | .ebreak => true
  | .eret => true
  | .tdone => true
  | .maxlenWrite => true
  | .copyStart => true
  | .copyAtom => true
  | .scpyStamp => true
  | .tokenWrite => true
  | .streamRefill => true
  | .gatherServe => true
  | .scatterUpdate => true
  | .dispatch => true
  | .queueRefill => true
  | .collectiveRun => true
  | .hitCopyDone => true
  | .insertionDone => true
  | .messageArrival => true
  | .trapRecordWrite => true
  | .engerrAsync => true
  | .replyResume => true
  | .replyResumeAt => true
  | .replyReturn => true
  | .replyDeliver => true
  | .replyKill => true
  | .replySkip => true
  | .slotSwap => true
  | .fairShareExpiry => true
  | .contextSave => true
  | .saveDone => true
  | .contextRestore => true
  | .restoreDone => true
  | .preemption => true
  | .doorbell => true
  | .kqEntryTake => true
  | .placement => true
  | .agingStep => true
  | .launchTick => true
  | .timedStartSwap => true
  | .kernelRetire => true
  | .watchdog => true
  | .heartbeatTick => true
  | .pageWalkDone => true
  | .xinvPage => true
  | .xinvTenant => true
  | .xinvAll => true
  | .migcmdGo => true
  | .hotWindowEnd => true
  | .migrationSwitch => true
  | .ruquotaWrite => true
  | .rupoolWrite => true
  | .hostMemRead => true
  | .hostMemWrite => true
  | .hostRegWrite => true
  | .alarmpolWrite => true
  | .fwGo => true
  | .fwVerifyDone => true
  | .tkeyWrite => true
  | .tkctlLoad => true
  | .tkctlErase => true
  | .tresetGo => true
  | .functionLevelReset => true
  | .securityAlarm => true
  | .coldReset => true
  | .warmReset => true
  | .hbmReady => true
  | .freeze => true
  | .idcode => true
  | .bypass => true
  | .unlock => true
  | .readout => true
  | .patrolScrub => true
  | .halfWidth => true
  | .fullWidth => true
  | .powerGate => true
  | .trainingDone => true
  | .trainingFail => true
  | .flitReceive => true
  | .nakReceive => true
  | .ackReceive => true
  | .nakRepeat => true
  | .nakTimeout => true
  | .packetDeliver => true
  | .routerSleep => true
  | .wake => true
  | .deadlockProbeSend => true
  | .probeReceive => true
  | .deadlockStep => true
  | .probeRetry => true
  | .twaitTimeout => true
  | .cxlCacheSnoop => true

end Sys2Proof
end

