-- ==== Sys2Proof/Decode.lean ====
section
/-! DEFINITION. The decoder, total on any parcels and rejecting by name (03_encoding R40–R51), and the encoder,
written from the same encoding tables (R44, R45, R48, R49). -/

namespace Sys2Proof

/-- Why a word is no instruction (R50, in the order of R51). -/
inductive DecodeReject where
  /-- Detail 1. -/
  | unassignedMajor
  /-- Detail 2. -/
  | lengthMismatch
  /-- Fewer parcels were given than the length field asks for. -/
  | truncated
  /-- Detail 3. -/
  | unassignedMinor
  /-- Detail 4: a reserved field of this parcel is not zero. -/
  | reservedField (parcel : Nat)
  /-- Detail 5: an operand field of this parcel is outside its limit. -/
  | operandLimit (parcel : Nat)
deriving DecidableEq, Repr

/-- The ILLEGAL detail of a reject (R50). -/
def DecodeReject.detail : DecodeReject → Nat
  | .unassignedMajor => 1
  | .lengthMismatch => 2
  | .truncated => 0
  | .unassignedMinor => 3
  | .reservedField _ => 4
  | .operandLimit _ => 5

/-- LEN (R40). -/
def lenField (p : Parcel) : BitVec 2 := field 0 2 p
/-- MAJ (R40). -/
def majField (p : Parcel) : BitVec 6 := field 2 6 p
/-- MIN of the R, V, RL and RA formats (R44). -/
def minField (p : Parcel) : BitVec 5 := field 23 5 p

/-- The parcels of a length code (R40). -/
def parcelsOfLen (l : BitVec 2) : Nat :=
  match l.toNat with
  | 0 => 1
  | 1 => 2
  | 2 => 3
  | _ => 5

/-- The length code of an assigned major opcode (R48); a hint has the length its word states. -/
def majorLen (maj : BitVec 6) (len : BitVec 2) : Option (BitVec 2) :=
  match maj.toNat with
  | 0x1 => some 0
  | 0x2 => some 0
  | 0x3 => some 0
  | 0x4 => some 0
  | 0x5 => some 0
  | 0x6 => some 0
  | 0x7 => some 0
  | 0x8 => some 0
  | 0x9 => some 0
  | 0xa => some 1
  | 0xb => some 0
  | 0xc => some 1
  | 0xd => some 2
  | 0xe => some 0
  | 0x10 => some 0
  | 0x11 => some 0
  | 0x12 => some 0
  | 0x14 => some 0
  | 0x15 => some 0
  | 0x16 => some 1
  | 0x17 => some 1
  | 0x18 => some 0
  | 0x1a => some 0
  | 0x1b => some 0
  | 0x1c => some 0
  | 0x1d => some 1
  | 0x20 => some 2
  | 0x21 => some 3
  | 0x22 => some 0
  | 0x24 => some 0
  | 0x25 => some 1
  | 0x26 => some 0
  | 0x27 => some 0
  | 0x28 => some 0
  | 0x29 => some 0
  | 0x30 => some 0
  | 0x31 => some 0
  | 0x32 => some 0
  | 0x33 => some 0
  | 0x34 => some 0
  | 0x35 => some 0
  | 0x36 => some 0
  | 0x37 => some 0
  | 0x38 => some 0
  | 0x39 => some 1
  | 0x3a => some 1
  | 0x3b => some 0
  | 0x3c => some 0
  | 0x3f => some len
  | _ => none

/-- A reserved field that must be zero (detail 4). -/
def reserved {n : Nat} (parcel : Nat) (x : BitVec n) (k : Except DecodeReject Instr) : Except DecodeReject Instr :=
  if x = 0 then k else .error (.reservedField parcel)

/-- A field that is reserved unless another field makes it one (detail 4). -/
def reservedUnless (parcel : Nat) (b : Bool) (k : Except DecodeReject Instr) : Except DecodeReject Instr :=
  if b then k else .error (.reservedField parcel)

/-- An operand limit (detail 5). -/
def limit (parcel : Nat) (b : Bool) (k : Except DecodeReject Instr) : Except DecodeReject Instr :=
  if b then k else .error (.operandLimit parcel)

/-- The selectors of R59, 09_page R201 and 17_reuse R383. -/
def csrOfSelector (sel : BitVec 12) : Option Csr :=
  match sel.toNat with
  | 0x0 => some .pc
  | 0x1 => some .fflags
  | 0x10 => some .vl
  | 0x11 => some .vtype
  | 0x12 => some .vfill
  | 0x13 => some .maxlen
  | 0x20 => some .vcp
  | 0x21 => some .spc
  | 0x22 => some .trapinfo
  | 0x23 => some .trapaddr
  | 0x24 => some .trapvec
  | 0x30 => some .hb
  | 0x40 => some .grpid
  | 0x41 => some .corid
  | 0x42 => some .hartid
  | 0x43 => some .tenant
  | 0x50 => some .turncap
  | 0x800 => some .xtsel
  | 0x801 => some .xroot
  | 0x802 => some .xinv
  | 0x803 => some .xwalk
  | 0x810 => some .hotctl
  | 0x811 => some .hotres
  | 0x812 => some .hotlog
  | 0x813 => some .hotstat
  | 0x820 => some .migva
  | 0x821 => some .migcmd
  | 0x822 => some .migstat
  | 0x900 => some .rutsel
  | 0x901 => some .ruquota
  | 0x902 => some .rupool
  | _ => none

/-- The selector of a register (R59). -/
def Csr.selector : Csr → BitVec 12
  | .pc => 0x0
  | .fflags => 0x1
  | .vl => 0x10
  | .vtype => 0x11
  | .vfill => 0x12
  | .maxlen => 0x13
  | .vcp => 0x20
  | .spc => 0x21
  | .trapinfo => 0x22
  | .trapaddr => 0x23
  | .trapvec => 0x24
  | .hb => 0x30
  | .grpid => 0x40
  | .corid => 0x41
  | .hartid => 0x42
  | .tenant => 0x43
  | .turncap => 0x50
  | .xtsel => 0x800
  | .xroot => 0x801
  | .xinv => 0x802
  | .xwalk => 0x803
  | .hotctl => 0x810
  | .hotres => 0x811
  | .hotlog => 0x812
  | .hotstat => 0x813
  | .migva => 0x820
  | .migcmd => 0x821
  | .migstat => 0x822
  | .rutsel => 0x900
  | .ruquota => 0x901
  | .rupool => 0x902

/-- Major 0x01 (R48, R49). -/
def decodeMajor01 (p0 : Parcel) : Except DecodeReject Instr :=
  match (minField p0).toNat with
  | 0 => reserved 0 (field 28 4 p0) <|
    .ok (.add (field 8 5 p0) (field 13 5 p0) (field 18 5 p0))
  | 1 => reserved 0 (field 28 4 p0) <|
    .ok (.sub (field 8 5 p0) (field 13 5 p0) (field 18 5 p0))
  | 2 => reserved 0 (field 28 4 p0) <|
    .ok (.and (field 8 5 p0) (field 13 5 p0) (field 18 5 p0))
  | 3 => reserved 0 (field 28 4 p0) <|
    .ok (.or (field 8 5 p0) (field 13 5 p0) (field 18 5 p0))
  | 4 => reserved 0 (field 28 4 p0) <|
    .ok (.xor (field 8 5 p0) (field 13 5 p0) (field 18 5 p0))
  | 5 => reserved 0 (field 28 4 p0) <|
    .ok (.sll (field 8 5 p0) (field 13 5 p0) (field 18 5 p0))
  | 6 => reserved 0 (field 28 4 p0) <|
    .ok (.srl (field 8 5 p0) (field 13 5 p0) (field 18 5 p0))
  | 7 => reserved 0 (field 28 4 p0) <|
    .ok (.sra (field 8 5 p0) (field 13 5 p0) (field 18 5 p0))
  | 8 => reserved 0 (field 28 4 p0) <|
    .ok (.setlt (field 8 5 p0) (field 13 5 p0) (field 18 5 p0))
  | 9 => reserved 0 (field 28 4 p0) <|
    .ok (.setltu (field 8 5 p0) (field 13 5 p0) (field 18 5 p0))
  | 10 => reserved 0 (field 28 4 p0) <|
    .ok (.min (field 8 5 p0) (field 13 5 p0) (field 18 5 p0))
  | 11 => reserved 0 (field 28 4 p0) <|
    .ok (.max (field 8 5 p0) (field 13 5 p0) (field 18 5 p0))
  | 12 => reserved 0 (field 28 4 p0) <|
    .ok (.minu (field 8 5 p0) (field 13 5 p0) (field 18 5 p0))
  | 13 => reserved 0 (field 28 4 p0) <|
    .ok (.maxu (field 8 5 p0) (field 13 5 p0) (field 18 5 p0))
  | 14 => reserved 0 (field 28 4 p0) <|
    .ok (.andn (field 8 5 p0) (field 13 5 p0) (field 18 5 p0))
  | 15 => reserved 0 (field 28 4 p0) <|
    .ok (.orn (field 8 5 p0) (field 13 5 p0) (field 18 5 p0))
  | 16 => reserved 0 (field 28 4 p0) <|
    .ok (.rol (field 8 5 p0) (field 13 5 p0) (field 18 5 p0))
  | 17 => reserved 0 (field 28 4 p0) <|
    .ok (.ror (field 8 5 p0) (field 13 5 p0) (field 18 5 p0))
  | _ => .error .unassignedMinor

/-- Major 0x02 (R48, R49). -/
def decodeMajor02 (p0 : Parcel) : Except DecodeReject Instr :=
  match (minField p0).toNat with
  | 0 => reserved 0 (field 28 4 p0) <|
    .ok (.mul (field 8 5 p0) (field 13 5 p0) (field 18 5 p0))
  | 1 => reserved 0 (field 28 4 p0) <|
    .ok (.mulhiSs (field 8 5 p0) (field 13 5 p0) (field 18 5 p0))
  | 2 => reserved 0 (field 28 4 p0) <|
    .ok (.mulhiUu (field 8 5 p0) (field 13 5 p0) (field 18 5 p0))
  | 3 => reserved 0 (field 28 4 p0) <|
    .ok (.mulhiSu (field 8 5 p0) (field 13 5 p0) (field 18 5 p0))
  | 4 => reserved 0 (field 28 4 p0) <|
    .ok (.div (field 8 5 p0) (field 13 5 p0) (field 18 5 p0))
  | 5 => reserved 0 (field 28 4 p0) <|
    .ok (.divu (field 8 5 p0) (field 13 5 p0) (field 18 5 p0))
  | 6 => reserved 0 (field 28 4 p0) <|
    .ok (.rem (field 8 5 p0) (field 13 5 p0) (field 18 5 p0))
  | 7 => reserved 0 (field 28 4 p0) <|
    .ok (.remu (field 8 5 p0) (field 13 5 p0) (field 18 5 p0))
  | 8 => reserved 0 (field 28 4 p0) <|
    .ok (.pmul (field 8 5 p0) (field 13 5 p0) (field 18 5 p0))
  | 9 => reserved 0 (field 28 4 p0) <|
    .ok (.pmulhi (field 8 5 p0) (field 13 5 p0) (field 18 5 p0))
  | 10 => reserved 0 (field 28 4 p0) <|
    reserved 0 (field 18 5 p0) <|
    .ok (.popc (field 8 5 p0) (field 13 5 p0))
  | 11 => reserved 0 (field 28 4 p0) <|
    reserved 0 (field 18 5 p0) <|
    .ok (.clz (field 8 5 p0) (field 13 5 p0))
  | 12 => reserved 0 (field 28 4 p0) <|
    reserved 0 (field 18 5 p0) <|
    .ok (.ctz (field 8 5 p0) (field 13 5 p0))
  | 13 => reserved 0 (field 28 4 p0) <|
    reserved 0 (field 18 5 p0) <|
    .ok (.brev (field 8 5 p0) (field 13 5 p0))
  | 14 => reserved 0 (field 28 4 p0) <|
    reserved 0 (field 18 5 p0) <|
    .ok (.bswap (field 8 5 p0) (field 13 5 p0))
  | _ => .error .unassignedMinor

/-- Major 0x03 (R48, R49). -/
def decodeMajor03 (p0 : Parcel) : Except DecodeReject Instr :=
  .ok (.addi (field 8 5 p0) (field 13 5 p0) (field 18 14 p0))

/-- Major 0x04 (R48, R49). -/
def decodeMajor04 (p0 : Parcel) : Except DecodeReject Instr :=
  .ok (.andi (field 8 5 p0) (field 13 5 p0) (field 18 14 p0))

/-- Major 0x05 (R48, R49). -/
def decodeMajor05 (p0 : Parcel) : Except DecodeReject Instr :=
  .ok (.ori (field 8 5 p0) (field 13 5 p0) (field 18 14 p0))

/-- Major 0x06 (R48, R49). -/
def decodeMajor06 (p0 : Parcel) : Except DecodeReject Instr :=
  .ok (.xori (field 8 5 p0) (field 13 5 p0) (field 18 14 p0))

/-- Major 0x07 (R48, R49). -/
def decodeMajor07 (p0 : Parcel) : Except DecodeReject Instr :=
  .ok (.setlti (field 8 5 p0) (field 13 5 p0) (field 18 14 p0))

/-- Major 0x08 (R48, R49). -/
def decodeMajor08 (p0 : Parcel) : Except DecodeReject Instr :=
  .ok (.setltiu (field 8 5 p0) (field 13 5 p0) (field 18 14 p0))

/-- Major 0x09 (R48, R49). -/
def decodeMajor09 (p0 : Parcel) : Except DecodeReject Instr :=
  match (field 24 2 p0).toNat with
  | 0 => reserved 0 (field 26 6 p0) <|
    .ok (.slli (field 8 5 p0) (field 13 5 p0) (field 18 6 p0))
  | 1 => reserved 0 (field 26 6 p0) <|
    .ok (.srli (field 8 5 p0) (field 13 5 p0) (field 18 6 p0))
  | 2 => reserved 0 (field 26 6 p0) <|
    .ok (.srai (field 8 5 p0) (field 13 5 p0) (field 18 6 p0))
  | _ => reserved 0 (field 26 6 p0) <|
    .ok (.rori (field 8 5 p0) (field 13 5 p0) (field 18 6 p0))

/-- Major 0x0a (R48, R49). -/
def decodeMajor0A (p0 p1 : Parcel) : Except DecodeReject Instr :=
  match (minField p0).toNat with
  | 0 => reserved 0 (field 28 4 p0) <|
    reserved 0 (field 18 5 p0) <|
    reserved 1 (field 13 19 p1) <|
    limit 1 (decide ((field 6 7 p1).toNat ≤ 64)) <|
    .ok (.bext (field 8 5 p0) (field 13 5 p0) (field 0 6 p1) (field 6 7 p1))
  | 1 => reserved 0 (field 28 4 p0) <|
    reserved 0 (field 18 5 p0) <|
    reserved 1 (field 13 19 p1) <|
    limit 1 (decide ((field 6 7 p1).toNat ≤ 64)) <|
    .ok (.bexts (field 8 5 p0) (field 13 5 p0) (field 0 6 p1) (field 6 7 p1))
  | 2 => reserved 0 (field 28 4 p0) <|
    reserved 0 (field 18 5 p0) <|
    reserved 1 (field 13 19 p1) <|
    limit 1 (decide ((field 6 7 p1).toNat ≤ 64)) <|
    .ok (.bins (field 8 5 p0) (field 13 5 p0) (field 0 6 p1) (field 6 7 p1))
  | _ => .error .unassignedMinor

/-- Major 0x0b (R48, R49). -/
def decodeMajor0B (p0 : Parcel) : Except DecodeReject Instr :=
  .ok (.li (field 8 5 p0) (field 13 19 p0))

/-- Major 0x0c (R48, R49). -/
def decodeMajor0C (p0 p1 : Parcel) : Except DecodeReject Instr :=
  reserved 0 (field 13 19 p0) <|
  .ok (.li64 (field 8 5 p0) (field 0 32 p1))

/-- Major 0x0d (R48, R49). -/
def decodeMajor0D (p0 p1 p2 : Parcel) : Except DecodeReject Instr :=
  reserved 0 (field 13 19 p0) <|
  .ok (.li96 (field 8 5 p0) (field 0 32 p1) (field 0 32 p2))

/-- Major 0x0e (R48, R49). -/
def decodeMajor0E (p0 : Parcel) : Except DecodeReject Instr :=
  .ok (.la (field 8 5 p0) (field 13 19 p0))

/-- Major 0x10 (R48, R49). -/
def decodeMajor10 (p0 : Parcel) : Except DecodeReject Instr :=
  match (field 18 3 p0).toNat with
  | 0 => .ok (.beq (field 8 5 p0) (field 13 5 p0) (field 21 11 p0))
  | 1 => .ok (.bne (field 8 5 p0) (field 13 5 p0) (field 21 11 p0))
  | 2 => .ok (.blt (field 8 5 p0) (field 13 5 p0) (field 21 11 p0))
  | 3 => .ok (.bge (field 8 5 p0) (field 13 5 p0) (field 21 11 p0))
  | 4 => .ok (.bltu (field 8 5 p0) (field 13 5 p0) (field 21 11 p0))
  | 5 => .ok (.bgeu (field 8 5 p0) (field 13 5 p0) (field 21 11 p0))
  | _ => .error .unassignedMinor

/-- Major 0x11 (R48, R49). -/
def decodeMajor11 (p0 : Parcel) : Except DecodeReject Instr :=
  .ok (.jal (field 8 5 p0) (field 13 19 p0))

/-- Major 0x12 (R48, R49). -/
def decodeMajor12 (p0 : Parcel) : Except DecodeReject Instr :=
  .ok (.jalr (field 8 5 p0) (field 13 5 p0) (field 18 14 p0))

/-- Major 0x14 (R48, R49). -/
def decodeMajor14 (p0 : Parcel) : Except DecodeReject Instr :=
  match (field 18 3 p0).toNat with
  | 0 => .ok (.lb (field 8 5 p0) (field 13 5 p0) (field 21 11 p0))
  | 1 => .ok (.lh (field 8 5 p0) (field 13 5 p0) (field 21 11 p0))
  | 2 => .ok (.lw (field 8 5 p0) (field 13 5 p0) (field 21 11 p0))
  | 3 => .ok (.ld (field 8 5 p0) (field 13 5 p0) (field 21 11 p0))
  | 4 => .ok (.lbu (field 8 5 p0) (field 13 5 p0) (field 21 11 p0))
  | 5 => .ok (.lhu (field 8 5 p0) (field 13 5 p0) (field 21 11 p0))
  | 6 => .ok (.lwu (field 8 5 p0) (field 13 5 p0) (field 21 11 p0))
  | _ => .error .unassignedMinor

/-- Major 0x15 (R48, R49). -/
def decodeMajor15 (p0 : Parcel) : Except DecodeReject Instr :=
  match (field 18 3 p0).toNat with
  | 0 => .ok (.sb (field 8 5 p0) (field 13 5 p0) (field 21 11 p0))
  | 1 => .ok (.sh (field 8 5 p0) (field 13 5 p0) (field 21 11 p0))
  | 2 => .ok (.sw (field 8 5 p0) (field 13 5 p0) (field 21 11 p0))
  | 3 => .ok (.st (field 8 5 p0) (field 13 5 p0) (field 21 11 p0))
  | 4 => .ok (.stLocal (field 8 5 p0) (field 13 5 p0) (field 21 11 p0))
  | _ => .error .unassignedMinor

/-- Major 0x16 (R48, R49). -/
def decodeMajor16 (p0 p1 : Parcel) : Except DecodeReject Instr :=
  match (field 18 3 p0).toNat with
  | 0 => reserved 0 (field 21 11 p0) <|
    .ok (.lbL (field 8 5 p0) (field 13 5 p0) (field 0 32 p1))
  | 1 => reserved 0 (field 21 11 p0) <|
    .ok (.lhL (field 8 5 p0) (field 13 5 p0) (field 0 32 p1))
  | 2 => reserved 0 (field 21 11 p0) <|
    .ok (.lwL (field 8 5 p0) (field 13 5 p0) (field 0 32 p1))
  | 3 => reserved 0 (field 21 11 p0) <|
    .ok (.ldL (field 8 5 p0) (field 13 5 p0) (field 0 32 p1))
  | 4 => reserved 0 (field 21 11 p0) <|
    .ok (.lbuL (field 8 5 p0) (field 13 5 p0) (field 0 32 p1))
  | 5 => reserved 0 (field 21 11 p0) <|
    .ok (.lhuL (field 8 5 p0) (field 13 5 p0) (field 0 32 p1))
  | 6 => reserved 0 (field 21 11 p0) <|
    .ok (.lwuL (field 8 5 p0) (field 13 5 p0) (field 0 32 p1))
  | _ => .error .unassignedMinor

/-- Major 0x17 (R48, R49). -/
def decodeMajor17 (p0 p1 : Parcel) : Except DecodeReject Instr :=
  match (field 18 3 p0).toNat with
  | 0 => reserved 0 (field 21 11 p0) <|
    .ok (.sbL (field 8 5 p0) (field 13 5 p0) (field 0 32 p1))
  | 1 => reserved 0 (field 21 11 p0) <|
    .ok (.shL (field 8 5 p0) (field 13 5 p0) (field 0 32 p1))
  | 2 => reserved 0 (field 21 11 p0) <|
    .ok (.swL (field 8 5 p0) (field 13 5 p0) (field 0 32 p1))
  | 3 => reserved 0 (field 21 11 p0) <|
    .ok (.stL (field 8 5 p0) (field 13 5 p0) (field 0 32 p1))
  | 4 => reserved 0 (field 21 11 p0) <|
    .ok (.stLocalL (field 8 5 p0) (field 13 5 p0) (field 0 32 p1))
  | _ => .error .unassignedMinor

/-- Major 0x18 (R48, R49). -/
def decodeMajor18 (p0 : Parcel) : Except DecodeReject Instr :=
  match (minField p0).toNat with
  | 0 => reserved 0 (field 30 2 p0) <|
    .ok (.atomSwap (field 28 2 p0) (field 8 5 p0) (field 13 5 p0) (field 18 5 p0))
  | 1 => reserved 0 (field 30 2 p0) <|
    .ok (.atomAdd (field 28 2 p0) (field 8 5 p0) (field 13 5 p0) (field 18 5 p0))
  | 2 => reserved 0 (field 30 2 p0) <|
    .ok (.atomAnd (field 28 2 p0) (field 8 5 p0) (field 13 5 p0) (field 18 5 p0))
  | 3 => reserved 0 (field 30 2 p0) <|
    .ok (.atomOr (field 28 2 p0) (field 8 5 p0) (field 13 5 p0) (field 18 5 p0))
  | 4 => reserved 0 (field 30 2 p0) <|
    .ok (.atomXor (field 28 2 p0) (field 8 5 p0) (field 13 5 p0) (field 18 5 p0))
  | 5 => reserved 0 (field 30 2 p0) <|
    .ok (.atomMin (field 28 2 p0) (field 8 5 p0) (field 13 5 p0) (field 18 5 p0))
  | 6 => reserved 0 (field 30 2 p0) <|
    .ok (.atomMax (field 28 2 p0) (field 8 5 p0) (field 13 5 p0) (field 18 5 p0))
  | 7 => reserved 0 (field 30 2 p0) <|
    .ok (.atomMinu (field 28 2 p0) (field 8 5 p0) (field 13 5 p0) (field 18 5 p0))
  | 8 => reserved 0 (field 30 2 p0) <|
    .ok (.atomMaxu (field 28 2 p0) (field 8 5 p0) (field 13 5 p0) (field 18 5 p0))
  | 9 => reserved 0 (field 30 2 p0) <|
    .ok (.atomCas (field 28 2 p0) (field 8 5 p0) (field 13 5 p0) (field 18 5 p0))
  | 10 => reserved 0 (field 28 4 p0) <|
    reserved 0 (field 18 5 p0) <|
    .ok (.ldAcq (field 8 5 p0) (field 13 5 p0))
  | 11 => reserved 0 (field 28 4 p0) <|
    reserved 0 (field 8 5 p0) <|
    .ok (.stRel (field 13 5 p0) (field 18 5 p0))
  | 12 => reserved 0 (field 28 4 p0) <|
    .ok (.waitv (field 8 5 p0) (field 13 5 p0) (field 18 5 p0))
  | _ => .error .unassignedMinor

/-- Major 0x1a (R48, R49). -/
def decodeMajor1A (p0 : Parcel) : Except DecodeReject Instr :=
  match (minField p0).toNat with
  | 0 => reserved 0 (field 28 4 p0) <|
    reserved 0 (field 18 5 p0) <|
    reserved 0 (field 8 5 p0) <|
    .ok (.psend (field 13 5 p0))
  | 1 => reserved 0 (field 28 4 p0) <|
    reserved 0 (field 13 10 p0) <|
    .ok (.precv (field 8 5 p0))
  | 9 => reserved 0 (field 28 4 p0) <|
    reserved 0 (field 13 10 p0) <|
    .ok (.hbread (field 8 5 p0))
  | 10 => reserved 0 (field 28 4 p0) <|
    reserved 0 (field 18 5 p0) <|
    reserved 0 (field 8 5 p0) <|
    .ok (.hbwait (field 13 5 p0))
  | 2 => reserved 0 (field 28 4 p0) <|
    reserved 0 (field 8 15 p0) <|
    .ok (.fenceCore)
  | 3 => reserved 0 (field 28 4 p0) <|
    reserved 0 (field 8 15 p0) <|
    .ok (.fenceQuad)
  | 4 => reserved 0 (field 28 4 p0) <|
    reserved 0 (field 8 15 p0) <|
    .ok (.fenceDie)
  | 5 => reserved 0 (field 28 4 p0) <|
    reserved 0 (field 8 15 p0) <|
    .ok (.fenceDev)
  | 6 => reserved 0 (field 28 4 p0) <|
    reserved 0 (field 8 15 p0) <|
    .ok (.fenceFab)
  | 7 => reserved 0 (field 28 4 p0) <|
    reserved 0 (field 8 15 p0) <|
    .ok (.fenceEng)
  | 8 => reserved 0 (field 28 4 p0) <|
    reserved 0 (field 8 15 p0) <|
    .ok (.fenceSc)
  | 11 => reserved 0 (field 28 4 p0) <|
    reserved 0 (field 8 15 p0) <|
    .ok (.ecall)
  | 12 => reserved 0 (field 28 4 p0) <|
    reserved 0 (field 8 15 p0) <|
    .ok (.ebreak)
  | 13 => reserved 0 (field 28 4 p0) <|
    reserved 0 (field 8 15 p0) <|
    .ok (.eret)
  | _ => .error .unassignedMinor

/-- Major 0x1b (R48, R49). -/
def decodeMajor1B (p0 : Parcel) : Except DecodeReject Instr :=
  match csrOfSelector (field 20 12 p0), (field 18 2 p0).toNat with
  | some c, 0 => reserved 0 (field 13 5 p0) (.ok (.csrr (field 8 5 p0) c))
  | none, 0 => reserved 0 (field 13 5 p0) (.error (.operandLimit 0))
  | some c, 1 => reserved 0 (field 8 5 p0) (.ok (.csrw c (field 13 5 p0)))
  | some c, 2 => reserved 0 (field 8 5 p0) (.ok (.csrs c (field 13 5 p0)))
  | some c, _ => reserved 0 (field 8 5 p0) (.ok (.csrc c (field 13 5 p0)))
  | none, _ => reserved 0 (field 8 5 p0) (.error (.operandLimit 0))

/-- Major 0x1c (R48, R49). -/
def decodeMajor1C (p0 : Parcel) : Except DecodeReject Instr :=
  match (minField p0).toNat with
  | 0 => reserved 0 (field 31 1 p0) <|
    limit 0 (decide (1 ≤ (field 28 3 p0).toNat ∧ (field 28 3 p0).toNat ≤ 5)) <|
    .ok (.turn (field 28 3 p0) (field 8 5 p0) (field 13 5 p0) (field 18 5 p0))
  | _ => .error .unassignedMinor

/-- Major 0x1d (R48, R49). -/
def decodeMajor1D (p0 p1 : Parcel) : Except DecodeReject Instr :=
  reserved 0 (field 23 9 p0) <|
  .ok (.twait (field 8 5 p0) (field 13 5 p0) (field 18 5 p0) (field 0 32 p1))

/-- Major 0x20 (R48, R49). -/
def decodeMajor20 (p0 p1 p2 : Parcel) : Except DecodeReject Instr :=
  match (minField p0).toNat with
  | 0 => reserved 0 (field 28 4 p0) <|
    reserved 1 (field 20 12 p1) <|
    reserved 1 (field 14 3 p1) <|
    reservedUnless 1 (decide ((field 17 1 p1) = 1 ∨ (field 18 2 p1) = 0)) <|
    reservedUnless 2 (decide ((field 17 1 p1) = 0 ∨ (field 0 16 p2) = 0)) <|
    limit 1 (decide ((field 10 3 p1) = 0)) <|
    .ok (.cpyin (field 8 5 p0) (field 13 5 p0) (field 18 5 p0) (field 0 5 p1) (field 5 5 p1) (field 17 1 p1) (field 18 2 p1) (field 13 1 p1) (field 10 3 p1) (field 0 16 p2) (field 16 16 p2))
  | 1 => reserved 0 (field 28 4 p0) <|
    reserved 1 (field 14 18 p1) <|
    limit 1 (decide ((field 10 3 p1).toNat ≤ 5 ∧ (field 13 1 p1) = 0)) <|
    .ok (.cpyout (field 8 5 p0) (field 13 5 p0) (field 18 5 p0) (field 0 5 p1) (field 5 5 p1) (field 13 1 p1) (field 10 3 p1) (field 0 16 p2) (field 16 16 p2))
  | 2 => reserved 0 (field 28 4 p0) <|
    reserved 1 (field 25 7 p1) <|
    reserved 1 (field 14 4 p1) <|
    reserved 2 (field 0 32 p2) <|
    limit 1 (decide ((field 10 3 p1) = 0 ∧ (field 13 1 p1) = 0)) <|
    .ok (.cpyreg (field 8 5 p0) (field 13 5 p0) (field 18 5 p0) (field 0 5 p1) (field 5 5 p1) (field 20 5 p1) (field 18 2 p1) (field 13 1 p1) (field 10 3 p1))
  | 3 => reserved 0 (field 28 4 p0) <|
    reserved 1 (field 17 15 p1) <|
    limit 1 (decide ((field 14 2 p1) ≠ 3 ∧ (field 10 3 p1) = 0 ∧ (field 13 1 p1) = 0)) <|
    .ok (.cpyfold (field 8 5 p0) (field 13 5 p0) (field 18 5 p0) (field 0 5 p1) (field 5 5 p1) (field 14 2 p1) (field 16 1 p1) (field 13 1 p1) (field 10 3 p1) (field 0 16 p2) (field 16 16 p2))
  | 4 => reserved 0 (field 28 4 p0) <|
    reserved 1 (field 14 18 p1) <|
    limit 1 (decide ((field 10 3 p1).toNat ≤ 5 ∧ (field 13 1 p1) = 0)) <|
    .ok (.scpy (field 8 5 p0) (field 13 5 p0) (field 18 5 p0) (field 0 5 p1) (field 5 5 p1) (field 13 1 p1) (field 10 3 p1) (field 0 16 p2) (field 16 16 p2))
  | 5 => reserved 0 (field 28 4 p0) <|
    reserved 0 (field 13 5 p0) <|
    reserved 1 (field 0 32 p1) <|
    reserved 2 (field 0 32 p2) <|
    .ok (.exportPage (field 8 5 p0) (field 18 5 p0))
  | _ => .error .unassignedMinor

/-- Major 0x21 (R48, R49). -/
def decodeMajor21 (p0 p1 p2 p3 p4 : Parcel) : Except DecodeReject Instr :=
  match (minField p0).toNat with
  | 0 => reserved 0 (field 28 4 p0) <|
    reserved 1 (field 14 18 p1) <|
    reserved 1 (field 0 5 p1) <|
    reserved 4 (field 16 16 p4) <|
    limit 1 (decide ((field 10 3 p1) = 0)) <|
    .ok (.tcpyIn (field 8 5 p0) (field 13 5 p0) (field 18 5 p0) (field 5 5 p1) (field 13 1 p1) (field 10 3 p1) (field 0 16 p2) (field 16 16 p2) (field 0 16 p3) (field 16 16 p3) (field 0 16 p4))
  | 1 => reserved 0 (field 28 4 p0) <|
    reserved 1 (field 14 18 p1) <|
    reserved 1 (field 0 5 p1) <|
    reserved 4 (field 16 16 p4) <|
    limit 1 (decide ((field 10 3 p1).toNat ≤ 5 ∧ (field 13 1 p1) = 0)) <|
    .ok (.tcpyOut (field 8 5 p0) (field 13 5 p0) (field 18 5 p0) (field 5 5 p1) (field 13 1 p1) (field 10 3 p1) (field 0 16 p2) (field 16 16 p2) (field 0 16 p3) (field 16 16 p3) (field 0 16 p4))
  | _ => .error .unassignedMinor

/-- Major 0x22 (R48, R49). -/
def decodeMajor22 (p0 : Parcel) : Except DecodeReject Instr :=
  match (minField p0).toNat with
  | 0 => reserved 0 (field 28 4 p0) <|
    reserved 0 (field 18 5 p0) <|
    .ok (.sbind (field 8 5 p0) (field 13 5 p0))
  | 1 => reserved 0 (field 28 4 p0) <|
    reserved 0 (field 13 10 p0) <|
    .ok (.sfree (field 8 5 p0))
  | _ => .error .unassignedMinor

/-- Major 0x24 (R48, R49). -/
def decodeMajor24 (p0 : Parcel) : Except DecodeReject Instr :=
  match (minField p0).toNat with
  | 0 => reserved 0 (field 28 4 p0) <|
    reserved 0 (field 18 5 p0) <|
    reserved 0 (field 8 5 p0) <|
    limit 0 (decide ((field 13 5 p0).toNat ≤ 24)) <|
    .ok (.tspawn (field 13 5 p0))
  | 2 => reserved 0 (field 28 4 p0) <|
    limit 0 (decide ((field 8 5 p0).toNat ≤ 24)) <|
    .ok (.tdep (field 13 5 p0) (field 18 5 p0) (field 8 5 p0))
  | 3 => reserved 0 (field 28 4 p0) <|
    reserved 0 (field 18 5 p0) <|
    reserved 0 (field 8 5 p0) <|
    .ok (.tdec (field 13 5 p0))
  | 4 => reserved 0 (field 28 4 p0) <|
    reserved 0 (field 18 5 p0) <|
    reserved 0 (field 8 5 p0) <|
    .ok (.sfarm (field 13 5 p0))
  | 5 => reserved 0 (field 28 4 p0) <|
    reserved 0 (field 13 10 p0) <|
    .ok (.snext (field 8 5 p0))
  | 6 => reserved 0 (field 28 4 p0) <|
    reserved 0 (field 18 5 p0) <|
    .ok (.launch (field 8 5 p0) (field 13 5 p0))
  | 1 => reserved 0 (field 28 4 p0) <|
    reserved 0 (field 8 15 p0) <|
    .ok (.tdone)
  | _ => .error .unassignedMinor

/-- Major 0x25 (R48, R49). -/
def decodeMajor25 (p0 p1 : Parcel) : Except DecodeReject Instr :=
  reserved 0 (field 18 14 p0) <|
  reserved 0 (field 8 5 p0) <|
  limit 1 (decide ((field 0 32 p1).getLsbD 0 = false ∧ popCount (field 0 32 p1) ≤ 16)) <|
  .ok (.tsusp (field 13 5 p0) (field 0 32 p1))

/-- Major 0x26 (R48, R49). -/
def decodeMajor26 (p0 : Parcel) : Except DecodeReject Instr :=
  match (minField p0).toNat with
  | 0 => reserved 0 (field 28 4 p0) <|
    reserved 0 (field 18 5 p0) <|
    .ok (.qcreate (field 8 5 p0) (field 13 5 p0))
  | 1 => reserved 0 (field 28 4 p0) <|
    .ok (.qpush (field 8 5 p0) (field 13 5 p0) (field 18 5 p0))
  | 2 => reserved 0 (field 28 4 p0) <|
    .ok (.qpop (field 8 5 p0) (field 13 5 p0) (field 18 5 p0))
  | 3 => reserved 0 (field 28 4 p0) <|
    reserved 0 (field 18 5 p0) <|
    .ok (.qinfo (field 8 5 p0) (field 13 5 p0))
  | 4 => reserved 0 (field 28 4 p0) <|
    reserved 0 (field 18 5 p0) <|
    reserved 0 (field 8 5 p0) <|
    .ok (.qclose (field 13 5 p0))
  | _ => .error .unassignedMinor

/-- Major 0x27 (R48, R49). -/
def decodeMajor27 (p0 : Parcel) : Except DecodeReject Instr :=
  match (minField p0).toNat with
  | 0 => reserved 0 (field 28 4 p0) <|
    .ok (.barinit (field 13 5 p0) (field 18 5 p0) (field 8 5 p0))
  | 1 => reserved 0 (field 28 4 p0) <|
    reserved 0 (field 18 5 p0) <|
    reserved 0 (field 8 5 p0) <|
    .ok (.bararr (field 13 5 p0))
  | 2 => reserved 0 (field 28 4 p0) <|
    reserved 0 (field 8 5 p0) <|
    .ok (.bartx (field 13 5 p0) (field 18 5 p0))
  | 3 => reserved 0 (field 28 4 p0) <|
    reserved 0 (field 18 5 p0) <|
    reserved 0 (field 8 5 p0) <|
    .ok (.barwait (field 13 5 p0))
  | 4 => reserved 0 (field 28 4 p0) <|
    reserved 0 (field 18 5 p0) <|
    .ok (.bartest (field 8 5 p0) (field 13 5 p0))
  | 5 => reserved 0 (field 28 4 p0) <|
    .ok (.coll (field 8 5 p0) (field 13 5 p0) (field 18 5 p0))
  | _ => .error .unassignedMinor

/-- Major 0x28 (R48, R49). -/
def decodeMajor28 (p0 : Parcel) : Except DecodeReject Instr :=
  match (minField p0).toNat with
  | 0 => reserved 0 (field 28 4 p0) <|
    .ok (.cdreg (field 8 5 p0) (field 13 5 p0) (field 18 5 p0))
  | 1 => reserved 0 (field 28 4 p0) <|
    reserved 0 (field 18 5 p0) <|
    .ok (.ruquery (field 8 5 p0) (field 13 5 p0))
  | 2 => reserved 0 (field 28 4 p0) <|
    reserved 0 (field 18 5 p0) <|
    reserved 0 (field 8 5 p0) <|
    .ok (.ruinval (field 13 5 p0))
  | 3 => reserved 0 (field 28 4 p0) <|
    reserved 0 (field 18 5 p0) <|
    .ok (.rustat (field 8 5 p0) (field 13 5 p0))
  | 4 => reserved 0 (field 28 4 p0) <|
    reserved 0 (field 18 5 p0) <|
    reserved 0 (field 8 5 p0) <|
    .ok (.ruflush (field 13 5 p0))
  | _ => .error .unassignedMinor

/-- Major 0x29 (R48, R49). -/
def decodeMajor29 (p0 : Parcel) : Except DecodeReject Instr :=
  match (minField p0).toNat with
  | 0 => reserved 0 (field 28 4 p0) <|
    reserved 0 (field 8 5 p0) <|
    limit 0 (decide ((field 18 5 p0).toNat ≤ 15)) <|
    .ok (.chsend (field 18 5 p0) (field 13 5 p0))
  | 1 => reserved 0 (field 28 4 p0) <|
    reserved 0 (field 8 5 p0) <|
    limit 0 (decide ((field 18 5 p0).toNat ≤ 15)) <|
    .ok (.chsendS (field 18 5 p0) (field 13 5 p0))
  | 2 => reserved 0 (field 28 4 p0) <|
    reserved 0 (field 13 5 p0) <|
    limit 0 (decide ((field 18 5 p0).toNat ≤ 15)) <|
    .ok (.chrecv (field 8 5 p0) (field 18 5 p0))
  | 3 => reserved 0 (field 28 4 p0) <|
    reserved 0 (field 13 5 p0) <|
    limit 0 (decide ((field 18 5 p0).toNat ≤ 15)) <|
    .ok (.chrecvS (field 8 5 p0) (field 18 5 p0))
  | _ => .error .unassignedMinor

/-- Major 0x30 (R48, R49). -/
def decodeMajor30 (p0 : Parcel) : Except DecodeReject Instr :=
  match (minField p0).toNat with
  | 0 => .ok (.vadd (field 31 1 p0) (field 28 3 p0) (field 8 5 p0) (field 13 5 p0) (field 18 5 p0))
  | 1 => .ok (.vsub (field 31 1 p0) (field 28 3 p0) (field 8 5 p0) (field 13 5 p0) (field 18 5 p0))
  | 2 => .ok (.vmul (field 31 1 p0) (field 28 3 p0) (field 8 5 p0) (field 13 5 p0) (field 18 5 p0))
  | 3 => .ok (.vdiv (field 31 1 p0) (field 28 3 p0) (field 8 5 p0) (field 13 5 p0) (field 18 5 p0))
  | 4 => .ok (.vmin (field 31 1 p0) (field 28 3 p0) (field 8 5 p0) (field 13 5 p0) (field 18 5 p0))
  | 5 => .ok (.vmax (field 31 1 p0) (field 28 3 p0) (field 8 5 p0) (field 13 5 p0) (field 18 5 p0))
  | 6 => .ok (.vand (field 31 1 p0) (field 28 3 p0) (field 8 5 p0) (field 13 5 p0) (field 18 5 p0))
  | 7 => .ok (.vor (field 31 1 p0) (field 28 3 p0) (field 8 5 p0) (field 13 5 p0) (field 18 5 p0))
  | 8 => .ok (.vxor (field 31 1 p0) (field 28 3 p0) (field 8 5 p0) (field 13 5 p0) (field 18 5 p0))
  | 9 => .ok (.vsll (field 31 1 p0) (field 28 3 p0) (field 8 5 p0) (field 13 5 p0) (field 18 5 p0))
  | 10 => .ok (.vsrl (field 31 1 p0) (field 28 3 p0) (field 8 5 p0) (field 13 5 p0) (field 18 5 p0))
  | 11 => .ok (.vsra (field 31 1 p0) (field 28 3 p0) (field 8 5 p0) (field 13 5 p0) (field 18 5 p0))
  | 12 => .ok (.vfma (field 31 1 p0) (field 28 3 p0) (field 8 5 p0) (field 13 5 p0) (field 18 5 p0))
  | 13 => .ok (.vfms (field 31 1 p0) (field 28 3 p0) (field 8 5 p0) (field 13 5 p0) (field 18 5 p0))
  | 14 => reserved 0 (field 31 1 p0) <|
    reserved 0 (field 18 5 p0) <|
    .ok (.vabs (field 28 3 p0) (field 8 5 p0) (field 13 5 p0))
  | 15 => reserved 0 (field 31 1 p0) <|
    reserved 0 (field 18 5 p0) <|
    .ok (.vneg (field 28 3 p0) (field 8 5 p0) (field 13 5 p0))
  | 16 => reserved 0 (field 31 1 p0) <|
    reserved 0 (field 18 5 p0) <|
    .ok (.vsqrt (field 28 3 p0) (field 8 5 p0) (field 13 5 p0))
  | 17 => reserved 0 (field 31 1 p0) <|
    reserved 0 (field 18 5 p0) <|
    .ok (.vrcp (field 28 3 p0) (field 8 5 p0) (field 13 5 p0))
  | 18 => reserved 0 (field 31 1 p0) <|
    reserved 0 (field 18 5 p0) <|
    .ok (.vrsq (field 28 3 p0) (field 8 5 p0) (field 13 5 p0))
  | 19 => reserved 0 (field 31 1 p0) <|
    reserved 0 (field 18 5 p0) <|
    .ok (.vexp2 (field 28 3 p0) (field 8 5 p0) (field 13 5 p0))
  | 20 => reserved 0 (field 31 1 p0) <|
    reserved 0 (field 18 5 p0) <|
    .ok (.vlog2 (field 28 3 p0) (field 8 5 p0) (field 13 5 p0))
  | 21 => reserved 0 (field 31 1 p0) <|
    reserved 0 (field 18 5 p0) <|
    .ok (.vtanh (field 28 3 p0) (field 8 5 p0) (field 13 5 p0))
  | 22 => reserved 0 (field 31 1 p0) <|
    reserved 0 (field 18 5 p0) <|
    .ok (.vsigm (field 28 3 p0) (field 8 5 p0) (field 13 5 p0))
  | 23 => reserved 0 (field 31 1 p0) <|
    reserved 0 (field 18 5 p0) <|
    .ok (.vmov (field 28 3 p0) (field 8 5 p0) (field 13 5 p0))
  | _ => .error .unassignedMinor

/-- Major 0x31 (R48, R49). -/
def decodeMajor31 (p0 : Parcel) : Except DecodeReject Instr :=
  match (minField p0).toNat with
  | 0 => reserved 0 (field 11 2 p0) <|
    .ok (.vceq (field 31 1 p0) (field 28 3 p0) (field 8 3 p0) (field 13 5 p0) (field 18 5 p0))
  | 1 => reserved 0 (field 11 2 p0) <|
    .ok (.vcne (field 31 1 p0) (field 28 3 p0) (field 8 3 p0) (field 13 5 p0) (field 18 5 p0))
  | 2 => reserved 0 (field 11 2 p0) <|
    .ok (.vclt (field 31 1 p0) (field 28 3 p0) (field 8 3 p0) (field 13 5 p0) (field 18 5 p0))
  | 3 => reserved 0 (field 11 2 p0) <|
    .ok (.vcle (field 31 1 p0) (field 28 3 p0) (field 8 3 p0) (field 13 5 p0) (field 18 5 p0))
  | 4 => reserved 0 (field 11 2 p0) <|
    .ok (.vcgt (field 31 1 p0) (field 28 3 p0) (field 8 3 p0) (field 13 5 p0) (field 18 5 p0))
  | 5 => reserved 0 (field 11 2 p0) <|
    .ok (.vcge (field 31 1 p0) (field 28 3 p0) (field 8 3 p0) (field 13 5 p0) (field 18 5 p0))
  | 6 => reserved 0 (field 28 4 p0) <|
    reserved 0 (field 21 2 p0) <|
    reserved 0 (field 16 2 p0) <|
    reserved 0 (field 11 2 p0) <|
    .ok (.mand (field 8 3 p0) (field 13 3 p0) (field 18 3 p0))
  | 7 => reserved 0 (field 28 4 p0) <|
    reserved 0 (field 21 2 p0) <|
    reserved 0 (field 16 2 p0) <|
    reserved 0 (field 11 2 p0) <|
    .ok (.mor (field 8 3 p0) (field 13 3 p0) (field 18 3 p0))
  | 8 => reserved 0 (field 28 4 p0) <|
    reserved 0 (field 21 2 p0) <|
    reserved 0 (field 16 2 p0) <|
    reserved 0 (field 11 2 p0) <|
    .ok (.mxor (field 8 3 p0) (field 13 3 p0) (field 18 3 p0))
  | 9 => reserved 0 (field 28 4 p0) <|
    reserved 0 (field 16 7 p0) <|
    reserved 0 (field 11 2 p0) <|
    .ok (.mnot (field 8 3 p0) (field 13 3 p0))
  | 10 => .ok (.vmerge (field 31 1 p0) (field 28 3 p0) (field 8 5 p0) (field 13 5 p0) (field 18 5 p0))
  | _ => .error .unassignedMinor

/-- Major 0x32 (R48, R49). -/
def decodeMajor32 (p0 : Parcel) : Except DecodeReject Instr :=
  match (minField p0).toNat with
  | 0 => reserved 0 (field 31 1 p0) <|
    reserved 0 (field 18 5 p0) <|
    .ok (.vcvt (field 28 3 p0) (field 8 5 p0) (field 13 5 p0))
  | 1 => reserved 0 (field 31 1 p0) <|
    reserved 0 (field 18 5 p0) <|
    .ok (.vqnt (field 28 3 p0) (field 8 5 p0) (field 13 5 p0))
  | 2 => reserved 0 (field 28 4 p0) <|
    limit 0 (decide ((field 18 5 p0).toNat ≤ 2)) <|
    .ok (.vhad (field 8 5 p0) (field 13 5 p0) (field 18 5 p0))
  | _ => .error .unassignedMinor

/-- Major 0x33 (R48, R49). -/
def decodeMajor33 (p0 : Parcel) : Except DecodeReject Instr :=
  reserved 0 (field 25 7 p0) <|
  .ok (.vtag (field 24 1 p0) (field 21 3 p0) (field 19 2 p0) (field 13 6 p0) (field 8 5 p0))

/-- Major 0x34 (R48, R49). -/
def decodeMajor34 (p0 : Parcel) : Except DecodeReject Instr :=
  reserved 0 (field 28 4 p0) <|
  .ok (.vconf (field 25 3 p0) (field 23 2 p0) (field 21 2 p0) (field 18 3 p0) (field 8 5 p0) (field 13 5 p0))

/-- Major 0x35 (R48, R49). -/
def decodeMajor35 (p0 : Parcel) : Except DecodeReject Instr :=
  reserved 0 (field 23 9 p0) <|
  .ok (.vconfR (field 8 5 p0) (field 13 5 p0) (field 18 5 p0))

/-- Major 0x36 (R48, R49). -/
def decodeMajor36 (p0 : Parcel) : Except DecodeReject Instr :=
  match (minField p0).toNat with
  | 0 => reserved 0 (field 31 1 p0) <|
    reserved 0 (field 18 5 p0) <|
    .ok (.vld (field 28 3 p0) (field 8 5 p0) (field 13 5 p0))
  | 1 => reserved 0 (field 31 1 p0) <|
    reserved 0 (field 18 5 p0) <|
    .ok (.vst (field 28 3 p0) (field 8 5 p0) (field 13 5 p0))
  | 2 => reserved 0 (field 31 1 p0) <|
    .ok (.vlds (field 28 3 p0) (field 8 5 p0) (field 13 5 p0) (field 18 5 p0))
  | 3 => reserved 0 (field 31 1 p0) <|
    .ok (.vsts (field 28 3 p0) (field 8 5 p0) (field 13 5 p0) (field 18 5 p0))
  | 4 => reserved 0 (field 31 1 p0) <|
    .ok (.vldx (field 28 3 p0) (field 8 5 p0) (field 13 5 p0) (field 18 5 p0))
  | 5 => reserved 0 (field 31 1 p0) <|
    reserved 0 (field 18 5 p0) <|
    .ok (.vldff (field 28 3 p0) (field 8 5 p0) (field 13 5 p0))
  | 6 => reserved 0 (field 31 1 p0) <|
    .ok (.vscadd (field 28 3 p0) (field 8 5 p0) (field 13 5 p0) (field 18 5 p0))
  | 7 => reserved 0 (field 28 4 p0) <|
    reserved 0 (field 18 5 p0) <|
    .ok (.vspill (field 8 5 p0) (field 13 5 p0))
  | 8 => reserved 0 (field 28 4 p0) <|
    reserved 0 (field 18 5 p0) <|
    .ok (.vreload (field 8 5 p0) (field 13 5 p0))
  | 9 => reserved 0 (field 28 4 p0) <|
    reserved 0 (field 13 10 p0) <|
    .ok (.vlenq (field 8 5 p0))
  | 10 => reserved 0 (field 28 4 p0) <|
    reserved 0 (field 10 3 p0) <|
    .ok (.scld (field 8 2 p0) (field 13 5 p0) (field 18 5 p0))
  | _ => .error .unassignedMinor

/-- Major 0x37 (R48, R49). VSHUF takes XS = 1, as 06_vector R141 marks it and defines it, although R49 gives it no mark
(notes/assumptions/82). -/
def decodeMajor37 (p0 : Parcel) : Except DecodeReject Instr :=
  match (minField p0).toNat with
  | 0 => reserved 0 (field 31 1 p0) <|
    .ok (.vslideup (field 28 3 p0) (field 8 5 p0) (field 13 5 p0) (field 18 5 p0))
  | 1 => reserved 0 (field 31 1 p0) <|
    .ok (.vslidedn (field 28 3 p0) (field 8 5 p0) (field 13 5 p0) (field 18 5 p0))
  | 2 => .ok (.vshuf (field 31 1 p0) (field 28 3 p0) (field 8 5 p0) (field 13 5 p0) (field 18 5 p0))
  | 3 => reserved 0 (field 31 1 p0) <|
    reserved 0 (field 18 5 p0) <|
    .ok (.vcompress (field 28 3 p0) (field 8 5 p0) (field 13 5 p0))
  | 4 => reserved 0 (field 31 1 p0) <|
    reserved 0 (field 18 5 p0) <|
    .ok (.vsplat (field 28 3 p0) (field 8 5 p0) (field 13 5 p0))
  | 5 => reserved 0 (field 28 4 p0) <|
    .ok (.vins (field 8 5 p0) (field 13 5 p0) (field 18 5 p0))
  | 6 => reserved 0 (field 28 4 p0) <|
    .ok (.vext (field 8 5 p0) (field 13 5 p0) (field 18 5 p0))
  | _ => .error .unassignedMinor

/-- Major 0x38 (R48, R49). -/
def decodeMajor38 (p0 : Parcel) : Except DecodeReject Instr :=
  match (minField p0).toNat with
  | 0 => reserved 0 (field 31 1 p0) <|
    reserved 0 (field 18 5 p0) <|
    .ok (.vredSum (field 28 3 p0) (field 8 5 p0) (field 13 5 p0))
  | 1 => reserved 0 (field 31 1 p0) <|
    reserved 0 (field 18 5 p0) <|
    .ok (.vredMin (field 28 3 p0) (field 8 5 p0) (field 13 5 p0))
  | 2 => reserved 0 (field 31 1 p0) <|
    reserved 0 (field 18 5 p0) <|
    .ok (.vredMax (field 28 3 p0) (field 8 5 p0) (field 13 5 p0))
  | 3 => reserved 0 (field 31 1 p0) <|
    reserved 0 (field 18 5 p0) <|
    .ok (.vredAnd (field 28 3 p0) (field 8 5 p0) (field 13 5 p0))
  | 4 => reserved 0 (field 31 1 p0) <|
    reserved 0 (field 18 5 p0) <|
    .ok (.vredOr (field 28 3 p0) (field 8 5 p0) (field 13 5 p0))
  | 5 => reserved 0 (field 31 1 p0) <|
    reserved 0 (field 18 5 p0) <|
    .ok (.vredXor (field 28 3 p0) (field 8 5 p0) (field 13 5 p0))
  | 6 => reserved 0 (field 31 1 p0) <|
    reserved 0 (field 18 5 p0) <|
    .ok (.vredMini (field 28 3 p0) (field 8 5 p0) (field 13 5 p0))
  | 7 => reserved 0 (field 31 1 p0) <|
    reserved 0 (field 18 5 p0) <|
    .ok (.vredMaxi (field 28 3 p0) (field 8 5 p0) (field 13 5 p0))
  | _ => .error .unassignedMinor

/-- The carry-in of a scan, whose unused fields are reserved (R45). -/
def decodeCarryIn (p1 : Parcel) : Except DecodeReject CarryIn :=
  match (field 0 2 p1).toNat with
  | 0 => if field 17 5 p1 = 0 ∧ field 4 4 p1 = 0 then .ok .none else .error (.reservedField 1)
  | 1 => if field 4 4 p1 = 0 then .ok (.scalar (field 17 5 p1)) else .error (.reservedField 1)
  | 2 => if field 4 4 p1 = 0 then .ok (.vector (field 17 5 p1)) else .error (.reservedField 1)
  | _ => if field 17 5 p1 = 0 then .ok (.channel (field 4 4 p1)) else .error (.reservedField 1)

/-- The carry-out of a scan, whose unused fields are reserved (R45). -/
def decodeCarryOut (p1 : Parcel) : Except DecodeReject CarryOut :=
  match (field 2 2 p1).toNat with
  | 0 => if field 12 5 p1 = 0 ∧ field 8 4 p1 = 0 then .ok .none else .error (.reservedField 1)
  | 1 => if field 8 4 p1 = 0 then .ok (.scalar (field 12 5 p1)) else .error (.reservedField 1)
  | 2 => if field 8 4 p1 = 0 then .ok (.vector (field 12 5 p1)) else .error (.reservedField 1)
  | _ => if field 12 5 p1 = 0 then .ok (.channel (field 8 4 p1)) else .error (.reservedField 1)

/-- The two carry fields of a scan. -/
def decodeCarries (p1 : Parcel) (k : CarryIn → CarryOut → Instr) : Except DecodeReject Instr :=
  reserved 1 (field 22 10 p1) <|
  match decodeCarryIn p1, decodeCarryOut p1 with
  | .ok ci, .ok co => .ok (k ci co)
  | .error e, _ => .error e
  | _, .error e => .error e

/-- Major 0x39 (R48, R49). -/
def decodeMajor39 (p0 p1 : Parcel) : Except DecodeReject Instr :=
  match (minField p0).toNat with
  | 0 => reserved 0 (field 31 1 p0) <| reserved 0 (field 18 5 p0) <|
    decodeCarries p1 (.vscanAdd (field 28 3 p0) (field 8 5 p0) (field 13 5 p0))
  | 1 => reserved 0 (field 31 1 p0) <| reserved 0 (field 18 5 p0) <|
    decodeCarries p1 (.vscanMax (field 28 3 p0) (field 8 5 p0) (field 13 5 p0))
  | 2 => reserved 0 (field 31 1 p0) <| reserved 0 (field 18 5 p0) <|
    decodeCarries p1 (.vscanMin (field 28 3 p0) (field 8 5 p0) (field 13 5 p0))
  | 3 => reserved 0 (field 31 1 p0) <|
    decodeCarries p1 (.vscanLin (field 28 3 p0) (field 8 5 p0) (field 13 5 p0) (field 18 5 p0))
  | _ => .error .unassignedMinor

/-- Major 0x3a (R48, R49). -/
def decodeMajor3A (p0 p1 : Parcel) : Except DecodeReject Instr :=
  match (minField p0).toNat with
  | 0 => reserved 0 (field 31 1 p0) <|
    reserved 0 (field 11 2 p0) <|
    reserved 1 (field 3 29 p1) <|
    .ok (.mop (field 28 3 p0) (field 8 3 p0) (field 13 5 p0) (field 18 5 p0) (field 0 3 p1))
  | 1 => reserved 0 (field 28 4 p0) <|
    reserved 0 (field 11 12 p0) <|
    reserved 1 (field 0 32 p1) <|
    .ok (.mzero (field 8 3 p0))
  | 2 => reserved 0 (field 31 1 p0) <|
    reserved 0 (field 16 7 p0) <|
    reserved 1 (field 10 22 p1) <|
    reserved 1 (field 0 3 p1) <|
    .ok (.mrow (field 28 3 p0) (field 8 5 p0) (field 13 3 p0) (field 3 7 p1))
  | 3 => reserved 0 (field 31 1 p0) <|
    reserved 0 (field 16 7 p0) <|
    reserved 1 (field 10 22 p1) <|
    reserved 1 (field 0 3 p1) <|
    .ok (.mcol (field 28 3 p0) (field 8 5 p0) (field 13 3 p0) (field 3 7 p1))
  | 4 => reserved 0 (field 28 4 p0) <|
    reserved 0 (field 18 5 p0) <|
    reserved 0 (field 11 2 p0) <|
    reserved 1 (field 10 22 p1) <|
    reserved 1 (field 0 3 p1) <|
    .ok (.mwrow (field 8 3 p0) (field 13 5 p0) (field 3 7 p1))
  | _ => .error .unassignedMinor

/-- Major 0x3b (R48, R49). -/
def decodeMajor3B (p0 : Parcel) : Except DecodeReject Instr :=
  match (minField p0).toNat with
  | 0 => reserved 0 (field 28 4 p0) <|
    reserved 0 (field 21 2 p0) <|
    reserved 0 (field 16 2 p0) <|
    reserved 0 (field 11 2 p0) <|
    .ok (.dadd (field 8 3 p0) (field 13 3 p0) (field 18 3 p0))
  | 1 => reserved 0 (field 28 4 p0) <|
    reserved 0 (field 21 2 p0) <|
    reserved 0 (field 16 2 p0) <|
    reserved 0 (field 11 2 p0) <|
    .ok (.dsub (field 8 3 p0) (field 13 3 p0) (field 18 3 p0))
  | 2 => reserved 0 (field 28 4 p0) <|
    reserved 0 (field 21 2 p0) <|
    reserved 0 (field 16 2 p0) <|
    reserved 0 (field 11 2 p0) <|
    .ok (.dmul (field 8 3 p0) (field 13 3 p0) (field 18 3 p0))
  | 3 => reserved 0 (field 28 4 p0) <|
    reserved 0 (field 21 2 p0) <|
    reserved 0 (field 16 2 p0) <|
    reserved 0 (field 11 2 p0) <|
    .ok (.dmin (field 8 3 p0) (field 13 3 p0) (field 18 3 p0))
  | 4 => reserved 0 (field 28 4 p0) <|
    reserved 0 (field 21 2 p0) <|
    reserved 0 (field 16 2 p0) <|
    reserved 0 (field 11 2 p0) <|
    .ok (.dmax (field 8 3 p0) (field 13 3 p0) (field 18 3 p0))
  | 5 => reserved 0 (field 28 4 p0) <|
    reserved 0 (field 21 2 p0) <|
    reserved 0 (field 16 2 p0) <|
    reserved 0 (field 11 2 p0) <|
    .ok (.dfma (field 8 3 p0) (field 13 3 p0) (field 18 3 p0))
  | 6 => reserved 0 (field 28 3 p0) <|
    reserved 0 (field 16 2 p0) <|
    reserved 0 (field 11 2 p0) <|
    limit 0 (decide ((field 18 5 p0).getLsbD 0 = false)) <|
    .ok (.daff (field 31 1 p0) (field 8 3 p0) (field 13 3 p0) (field 18 5 p0))
  | 7 => reserved 0 (field 28 4 p0) <|
    reserved 0 (field 18 5 p0) <|
    reserved 0 (field 11 2 p0) <|
    .ok (.dpt (field 8 3 p0) (field 13 5 p0))
  | 8 => reserved 0 (field 28 4 p0) <|
    reserved 0 (field 11 2 p0) <|
    limit 0 (decide ((field 13 5 p0).getLsbD 0 = false ∧ (field 18 5 p0).toNat ≤ 7)) <|
    .ok (.dset (field 8 3 p0) (field 13 5 p0) (field 18 5 p0))
  | 9 => reserved 0 (field 28 4 p0) <|
    reserved 0 (field 16 2 p0) <|
    limit 0 (decide ((field 8 5 p0).getLsbD 0 = false ∧ (field 18 5 p0).toNat ≤ 7)) <|
    .ok (.dget (field 8 5 p0) (field 13 3 p0) (field 18 5 p0))
  | 10 => reserved 0 (field 28 4 p0) <|
    reserved 0 (field 18 5 p0) <|
    reserved 0 (field 11 2 p0) <|
    .ok (.dtag (field 8 3 p0) (field 13 5 p0))
  | 11 => reserved 0 (field 28 4 p0) <|
    reserved 0 (field 16 2 p0) <|
    limit 0 (decide (1 ≤ (field 18 5 p0).toNat ∧ (field 18 5 p0).toNat ≤ 4)) <|
    .ok (.dmom (field 8 5 p0) (field 13 3 p0) (field 18 5 p0))
  | 12 => reserved 0 (field 28 4 p0) <|
    reserved 0 (field 16 2 p0) <|
    .ok (.dqnt (field 8 5 p0) (field 13 3 p0) (field 18 5 p0))
  | 13 => reserved 0 (field 28 4 p0) <|
    reserved 0 (field 16 2 p0) <|
    .ok (.dcdf (field 8 5 p0) (field 13 3 p0) (field 18 5 p0))
  | 14 => reserved 0 (field 28 4 p0) <|
    reserved 0 (field 18 5 p0) <|
    reserved 0 (field 11 2 p0) <|
    .ok (.dld (field 8 3 p0) (field 13 5 p0))
  | 15 => reserved 0 (field 28 4 p0) <|
    reserved 0 (field 18 5 p0) <|
    reserved 0 (field 11 2 p0) <|
    .ok (.dst (field 8 3 p0) (field 13 5 p0))
  | _ => .error .unassignedMinor

/-- Major 0x3c (R48, R49). -/
def decodeMajor3C (p0 : Parcel) : Except DecodeReject Instr :=
  reserved 0 (field 18 14 p0) <|
  reserved 0 (field 11 2 p0) <|
  .ok (.fmtset (field 8 3 p0) (field 13 5 p0))

/-- The parcels of one instruction, once its major and length agree (R51 step 4, the details that the word alone
shows). -/
def decodeBody (p0 p1 p2 p3 p4 : Parcel) : Except DecodeReject Instr :=
  match (majField p0).toNat with
  | 0x1 => decodeMajor01 p0
  | 0x2 => decodeMajor02 p0
  | 0x3 => decodeMajor03 p0
  | 0x4 => decodeMajor04 p0
  | 0x5 => decodeMajor05 p0
  | 0x6 => decodeMajor06 p0
  | 0x7 => decodeMajor07 p0
  | 0x8 => decodeMajor08 p0
  | 0x9 => decodeMajor09 p0
  | 0xa => decodeMajor0A p0 p1
  | 0xb => decodeMajor0B p0
  | 0xc => decodeMajor0C p0 p1
  | 0xd => decodeMajor0D p0 p1 p2
  | 0xe => decodeMajor0E p0
  | 0x10 => decodeMajor10 p0
  | 0x11 => decodeMajor11 p0
  | 0x12 => decodeMajor12 p0
  | 0x14 => decodeMajor14 p0
  | 0x15 => decodeMajor15 p0
  | 0x16 => decodeMajor16 p0 p1
  | 0x17 => decodeMajor17 p0 p1
  | 0x18 => decodeMajor18 p0
  | 0x1a => decodeMajor1A p0
  | 0x1b => decodeMajor1B p0
  | 0x1c => decodeMajor1C p0
  | 0x1d => decodeMajor1D p0 p1
  | 0x20 => decodeMajor20 p0 p1 p2
  | 0x21 => decodeMajor21 p0 p1 p2 p3 p4
  | 0x22 => decodeMajor22 p0
  | 0x24 => decodeMajor24 p0
  | 0x25 => decodeMajor25 p0 p1
  | 0x26 => decodeMajor26 p0
  | 0x27 => decodeMajor27 p0
  | 0x28 => decodeMajor28 p0
  | 0x29 => decodeMajor29 p0
  | 0x30 => decodeMajor30 p0
  | 0x31 => decodeMajor31 p0
  | 0x32 => decodeMajor32 p0
  | 0x33 => decodeMajor33 p0
  | 0x34 => decodeMajor34 p0
  | 0x35 => decodeMajor35 p0
  | 0x36 => decodeMajor36 p0
  | 0x37 => decodeMajor37 p0
  | 0x38 => decodeMajor38 p0
  | 0x39 => decodeMajor39 p0 p1
  | 0x3a => decodeMajor3A p0 p1
  | 0x3b => decodeMajor3B p0
  | 0x3c => decodeMajor3C p0
  | 0x3f =>
    match (lenField p0).toNat with
    | 0 => .ok (.hint (field 8 24 p0))
    | 1 => .ok (.hint64 (field 8 24 p0) p1)
    | 2 => .ok (.hint96 (field 8 24 p0) p1 p2)
    | _ => .ok (.hint160 (field 8 24 p0) p1 p2 p3 p4)
  | _ => .error .unassignedMajor

/-- The decoder: the instruction that the parcels begin with, or the reject that R51 puts first. -/
def decode (ps : List Parcel) : Except DecodeReject Instr :=
  match ps with
  | [] => .error .truncated
  | p :: _ =>
    match majorLen (majField p) (lenField p) with
    | none => .error .unassignedMajor
    | some l =>
      if l ≠ lenField p then .error .lengthMismatch
      else if ps.length < parcelsOfLen l then .error .truncated
      else decodeBody p (ps.getD 1 0) (ps.getD 2 0) (ps.getD 3 0) (ps.getD 4 0)

/-- One parcel from its four bytes, the least significant at the lowest address (01_scope R10). -/
def parcelOfBytes : List Byte → Parcel
  | b0 :: b1 :: b2 :: b3 :: _ => (b3 ++ b2 ++ b1 ++ b0 : BitVec 32)
  | _ => 0

/-- The bytes of a parcel, lowest address first. -/
def bytesOfParcel (p : Parcel) : List Byte := [field 0 8 p, field 8 8 p, field 16 8 p, field 24 8 p]

/-- The parcels that a table word of nbits bits stands for, the bits above nbits zero: five of them, the longest
instruction. -/
def parcelsOfTableWord (nbits w : Nat) : List Parcel :=
  let x := w % 2 ^ nbits
  [BitVec.ofNat 32 x, BitVec.ofNat 32 (x / 2 ^ 32), BitVec.ofNat 32 (x / 2 ^ 64), BitVec.ofNat 32 (x / 2 ^ 96),
   BitVec.ofNat 32 (x / 2 ^ 128)]

/-- The bytes of a table word as memory holds them. -/
def bytesOfTableWord (nbits w : Nat) : List Byte := (parcelsOfTableWord nbits w).flatMap bytesOfParcel

/-- The parcels that a string of bytes holds. -/
def parcelsOfBytes : List Byte → List Parcel
  | b0 :: b1 :: b2 :: b3 :: rest => parcelOfBytes [b0, b1, b2, b3] :: parcelsOfBytes rest
  | _ => []

/-- The instruction that the decoder reads from a word of the opcode table. -/
def decodeTableWord (nbits w : Nat) : Option Instr :=
  match decode (parcelsOfBytes (bytesOfTableWord nbits w)) with
  | .ok i => some i
  | .error _ => none

/-- CIN, CIREG and CINCH of a scan. -/
def CarryIn.fields : CarryIn → BitVec 2 × BitVec 5 × BitVec 4
  | .none => (0, 0, 0)
  | .scalar r => (1, r, 0)
  | .vector r => (2, r, 0)
  | .channel c => (3, 0, c)

/-- COUT, COREG and COUTCH of a scan. -/
def CarryOut.fields : CarryOut → BitVec 2 × BitVec 5 × BitVec 4
  | .none => (0, 0, 0)
  | .scalar r => (1, r, 0)
  | .vector r => (2, r, 0)
  | .channel c => (3, 0, c)

/-- Parcel 1 of a scan (R45). -/
def carryParcel (ci : CarryIn) (co : CarryOut) : Parcel :=
  (0#10 ++ ci.fields.2.1 ++ co.fields.2.1 ++ co.fields.2.2 ++ ci.fields.2.2 ++ co.fields.1 ++ ci.fields.1 : BitVec 32)

/-- Parcel 0 of a CSR instruction (R44). -/
def csrParcel (c : Csr) (op : BitVec 2) (a d : BitVec 5) : Parcel :=
  (c.selector ++ op ++ a ++ d ++ 0x1B#6 ++ 0#2 : BitVec 32)

/-- The encoder: the parcels of an instruction, parcel 0 first; nothing for a row that has no encoding. -/
def encode : Instr → List Parcel
  | .add d a b =>
    [(0#4 ++ 0#5 ++ b ++ a ++ d ++ 1#6 ++ 0#2 : BitVec 32)]
  | .sub d a b =>
    [(0#4 ++ 1#5 ++ b ++ a ++ d ++ 1#6 ++ 0#2 : BitVec 32)]
  | .and d a b =>
    [(0#4 ++ 2#5 ++ b ++ a ++ d ++ 1#6 ++ 0#2 : BitVec 32)]
  | .or d a b =>
    [(0#4 ++ 3#5 ++ b ++ a ++ d ++ 1#6 ++ 0#2 : BitVec 32)]
  | .xor d a b =>
    [(0#4 ++ 4#5 ++ b ++ a ++ d ++ 1#6 ++ 0#2 : BitVec 32)]
  | .sll d a b =>
    [(0#4 ++ 5#5 ++ b ++ a ++ d ++ 1#6 ++ 0#2 : BitVec 32)]
  | .srl d a b =>
    [(0#4 ++ 6#5 ++ b ++ a ++ d ++ 1#6 ++ 0#2 : BitVec 32)]
  | .sra d a b =>
    [(0#4 ++ 7#5 ++ b ++ a ++ d ++ 1#6 ++ 0#2 : BitVec 32)]
  | .setlt d a b =>
    [(0#4 ++ 8#5 ++ b ++ a ++ d ++ 1#6 ++ 0#2 : BitVec 32)]
  | .setltu d a b =>
    [(0#4 ++ 9#5 ++ b ++ a ++ d ++ 1#6 ++ 0#2 : BitVec 32)]
  | .min d a b =>
    [(0#4 ++ 10#5 ++ b ++ a ++ d ++ 1#6 ++ 0#2 : BitVec 32)]
  | .max d a b =>
    [(0#4 ++ 11#5 ++ b ++ a ++ d ++ 1#6 ++ 0#2 : BitVec 32)]
  | .minu d a b =>
    [(0#4 ++ 12#5 ++ b ++ a ++ d ++ 1#6 ++ 0#2 : BitVec 32)]
  | .maxu d a b =>
    [(0#4 ++ 13#5 ++ b ++ a ++ d ++ 1#6 ++ 0#2 : BitVec 32)]
  | .andn d a b =>
    [(0#4 ++ 14#5 ++ b ++ a ++ d ++ 1#6 ++ 0#2 : BitVec 32)]
  | .orn d a b =>
    [(0#4 ++ 15#5 ++ b ++ a ++ d ++ 1#6 ++ 0#2 : BitVec 32)]
  | .rol d a b =>
    [(0#4 ++ 16#5 ++ b ++ a ++ d ++ 1#6 ++ 0#2 : BitVec 32)]
  | .ror d a b =>
    [(0#4 ++ 17#5 ++ b ++ a ++ d ++ 1#6 ++ 0#2 : BitVec 32)]
  | .mul d a b =>
    [(0#4 ++ 0#5 ++ b ++ a ++ d ++ 2#6 ++ 0#2 : BitVec 32)]
  | .mulhiSs d a b =>
    [(0#4 ++ 1#5 ++ b ++ a ++ d ++ 2#6 ++ 0#2 : BitVec 32)]
  | .mulhiUu d a b =>
    [(0#4 ++ 2#5 ++ b ++ a ++ d ++ 2#6 ++ 0#2 : BitVec 32)]
  | .mulhiSu d a b =>
    [(0#4 ++ 3#5 ++ b ++ a ++ d ++ 2#6 ++ 0#2 : BitVec 32)]
  | .div d a b =>
    [(0#4 ++ 4#5 ++ b ++ a ++ d ++ 2#6 ++ 0#2 : BitVec 32)]
  | .divu d a b =>
    [(0#4 ++ 5#5 ++ b ++ a ++ d ++ 2#6 ++ 0#2 : BitVec 32)]
  | .rem d a b =>
    [(0#4 ++ 6#5 ++ b ++ a ++ d ++ 2#6 ++ 0#2 : BitVec 32)]
  | .remu d a b =>
    [(0#4 ++ 7#5 ++ b ++ a ++ d ++ 2#6 ++ 0#2 : BitVec 32)]
  | .pmul d a b =>
    [(0#4 ++ 8#5 ++ b ++ a ++ d ++ 2#6 ++ 0#2 : BitVec 32)]
  | .pmulhi d a b =>
    [(0#4 ++ 9#5 ++ b ++ a ++ d ++ 2#6 ++ 0#2 : BitVec 32)]
  | .popc d a =>
    [(0#4 ++ 10#5 ++ 0#5 ++ a ++ d ++ 2#6 ++ 0#2 : BitVec 32)]
  | .clz d a =>
    [(0#4 ++ 11#5 ++ 0#5 ++ a ++ d ++ 2#6 ++ 0#2 : BitVec 32)]
  | .ctz d a =>
    [(0#4 ++ 12#5 ++ 0#5 ++ a ++ d ++ 2#6 ++ 0#2 : BitVec 32)]
  | .brev d a =>
    [(0#4 ++ 13#5 ++ 0#5 ++ a ++ d ++ 2#6 ++ 0#2 : BitVec 32)]
  | .bswap d a =>
    [(0#4 ++ 14#5 ++ 0#5 ++ a ++ d ++ 2#6 ++ 0#2 : BitVec 32)]
  | .addi d a imm =>
    [(imm ++ a ++ d ++ 3#6 ++ 0#2 : BitVec 32)]
  | .andi d a imm =>
    [(imm ++ a ++ d ++ 4#6 ++ 0#2 : BitVec 32)]
  | .ori d a imm =>
    [(imm ++ a ++ d ++ 5#6 ++ 0#2 : BitVec 32)]
  | .xori d a imm =>
    [(imm ++ a ++ d ++ 6#6 ++ 0#2 : BitVec 32)]
  | .setlti d a imm =>
    [(imm ++ a ++ d ++ 7#6 ++ 0#2 : BitVec 32)]
  | .setltiu d a imm =>
    [(imm ++ a ++ d ++ 8#6 ++ 0#2 : BitVec 32)]
  | .slli d a sh =>
    [(0#6 ++ 0#2 ++ sh ++ a ++ d ++ 9#6 ++ 0#2 : BitVec 32)]
  | .srli d a sh =>
    [(0#6 ++ 1#2 ++ sh ++ a ++ d ++ 9#6 ++ 0#2 : BitVec 32)]
  | .srai d a sh =>
    [(0#6 ++ 2#2 ++ sh ++ a ++ d ++ 9#6 ++ 0#2 : BitVec 32)]
  | .rori d a sh =>
    [(0#6 ++ 3#2 ++ sh ++ a ++ d ++ 9#6 ++ 0#2 : BitVec 32)]
  | .bext d a offset width =>
    [(0#4 ++ 0#5 ++ 0#5 ++ a ++ d ++ 10#6 ++ 1#2 : BitVec 32),
     (0#19 ++ width ++ offset : BitVec 32)]
  | .bexts d a offset width =>
    [(0#4 ++ 1#5 ++ 0#5 ++ a ++ d ++ 10#6 ++ 1#2 : BitVec 32),
     (0#19 ++ width ++ offset : BitVec 32)]
  | .bins d a offset width =>
    [(0#4 ++ 2#5 ++ 0#5 ++ a ++ d ++ 10#6 ++ 1#2 : BitVec 32),
     (0#19 ++ width ++ offset : BitVec 32)]
  | .li d imm =>
    [(imm ++ d ++ 11#6 ++ 0#2 : BitVec 32)]
  | .li64 d imm =>
    [(0#19 ++ d ++ 12#6 ++ 1#2 : BitVec 32),
     imm]
  | .li96 d lo hi =>
    [(0#19 ++ d ++ 13#6 ++ 2#2 : BitVec 32),
     lo,
     hi]
  | .la d imm =>
    [(imm ++ d ++ 14#6 ++ 0#2 : BitVec 32)]
  | .beq a b off =>
    [(off ++ 0#3 ++ b ++ a ++ 16#6 ++ 0#2 : BitVec 32)]
  | .bne a b off =>
    [(off ++ 1#3 ++ b ++ a ++ 16#6 ++ 0#2 : BitVec 32)]
  | .blt a b off =>
    [(off ++ 2#3 ++ b ++ a ++ 16#6 ++ 0#2 : BitVec 32)]
  | .bge a b off =>
    [(off ++ 3#3 ++ b ++ a ++ 16#6 ++ 0#2 : BitVec 32)]
  | .bltu a b off =>
    [(off ++ 4#3 ++ b ++ a ++ 16#6 ++ 0#2 : BitVec 32)]
  | .bgeu a b off =>
    [(off ++ 5#3 ++ b ++ a ++ 16#6 ++ 0#2 : BitVec 32)]
  | .jal d imm =>
    [(imm ++ d ++ 17#6 ++ 0#2 : BitVec 32)]
  | .jalr d a imm =>
    [(imm ++ a ++ d ++ 18#6 ++ 0#2 : BitVec 32)]
  | .lb d a off =>
    [(off ++ 0#3 ++ a ++ d ++ 20#6 ++ 0#2 : BitVec 32)]
  | .lh d a off =>
    [(off ++ 1#3 ++ a ++ d ++ 20#6 ++ 0#2 : BitVec 32)]
  | .lw d a off =>
    [(off ++ 2#3 ++ a ++ d ++ 20#6 ++ 0#2 : BitVec 32)]
  | .ld d a off =>
    [(off ++ 3#3 ++ a ++ d ++ 20#6 ++ 0#2 : BitVec 32)]
  | .lbu d a off =>
    [(off ++ 4#3 ++ a ++ d ++ 20#6 ++ 0#2 : BitVec 32)]
  | .lhu d a off =>
    [(off ++ 5#3 ++ a ++ d ++ 20#6 ++ 0#2 : BitVec 32)]
  | .lwu d a off =>
    [(off ++ 6#3 ++ a ++ d ++ 20#6 ++ 0#2 : BitVec 32)]
  | .sb d a off =>
    [(off ++ 0#3 ++ a ++ d ++ 21#6 ++ 0#2 : BitVec 32)]
  | .sh d a off =>
    [(off ++ 1#3 ++ a ++ d ++ 21#6 ++ 0#2 : BitVec 32)]
  | .sw d a off =>
    [(off ++ 2#3 ++ a ++ d ++ 21#6 ++ 0#2 : BitVec 32)]
  | .st d a off =>
    [(off ++ 3#3 ++ a ++ d ++ 21#6 ++ 0#2 : BitVec 32)]
  | .stLocal d a off =>
    [(off ++ 4#3 ++ a ++ d ++ 21#6 ++ 0#2 : BitVec 32)]
  | .lbL d a off =>
    [(0#11 ++ 0#3 ++ a ++ d ++ 22#6 ++ 1#2 : BitVec 32),
     off]
  | .lhL d a off =>
    [(0#11 ++ 1#3 ++ a ++ d ++ 22#6 ++ 1#2 : BitVec 32),
     off]
  | .lwL d a off =>
    [(0#11 ++ 2#3 ++ a ++ d ++ 22#6 ++ 1#2 : BitVec 32),
     off]
  | .ldL d a off =>
    [(0#11 ++ 3#3 ++ a ++ d ++ 22#6 ++ 1#2 : BitVec 32),
     off]
  | .lbuL d a off =>
    [(0#11 ++ 4#3 ++ a ++ d ++ 22#6 ++ 1#2 : BitVec 32),
     off]
  | .lhuL d a off =>
    [(0#11 ++ 5#3 ++ a ++ d ++ 22#6 ++ 1#2 : BitVec 32),
     off]
  | .lwuL d a off =>
    [(0#11 ++ 6#3 ++ a ++ d ++ 22#6 ++ 1#2 : BitVec 32),
     off]
  | .sbL d a off =>
    [(0#11 ++ 0#3 ++ a ++ d ++ 23#6 ++ 1#2 : BitVec 32),
     off]
  | .shL d a off =>
    [(0#11 ++ 1#3 ++ a ++ d ++ 23#6 ++ 1#2 : BitVec 32),
     off]
  | .swL d a off =>
    [(0#11 ++ 2#3 ++ a ++ d ++ 23#6 ++ 1#2 : BitVec 32),
     off]
  | .stL d a off =>
    [(0#11 ++ 3#3 ++ a ++ d ++ 23#6 ++ 1#2 : BitVec 32),
     off]
  | .stLocalL d a off =>
    [(0#11 ++ 4#3 ++ a ++ d ++ 23#6 ++ 1#2 : BitVec 32),
     off]
  | .atomSwap ord d a b =>
    [(0#2 ++ ord ++ 0#5 ++ b ++ a ++ d ++ 24#6 ++ 0#2 : BitVec 32)]
  | .atomAdd ord d a b =>
    [(0#2 ++ ord ++ 1#5 ++ b ++ a ++ d ++ 24#6 ++ 0#2 : BitVec 32)]
  | .atomAnd ord d a b =>
    [(0#2 ++ ord ++ 2#5 ++ b ++ a ++ d ++ 24#6 ++ 0#2 : BitVec 32)]
  | .atomOr ord d a b =>
    [(0#2 ++ ord ++ 3#5 ++ b ++ a ++ d ++ 24#6 ++ 0#2 : BitVec 32)]
  | .atomXor ord d a b =>
    [(0#2 ++ ord ++ 4#5 ++ b ++ a ++ d ++ 24#6 ++ 0#2 : BitVec 32)]
  | .atomMin ord d a b =>
    [(0#2 ++ ord ++ 5#5 ++ b ++ a ++ d ++ 24#6 ++ 0#2 : BitVec 32)]
  | .atomMax ord d a b =>
    [(0#2 ++ ord ++ 6#5 ++ b ++ a ++ d ++ 24#6 ++ 0#2 : BitVec 32)]
  | .atomMinu ord d a b =>
    [(0#2 ++ ord ++ 7#5 ++ b ++ a ++ d ++ 24#6 ++ 0#2 : BitVec 32)]
  | .atomMaxu ord d a b =>
    [(0#2 ++ ord ++ 8#5 ++ b ++ a ++ d ++ 24#6 ++ 0#2 : BitVec 32)]
  | .atomCas ord d a b =>
    [(0#2 ++ ord ++ 9#5 ++ b ++ a ++ d ++ 24#6 ++ 0#2 : BitVec 32)]
  | .ldAcq d a =>
    [(0#4 ++ 10#5 ++ 0#5 ++ a ++ d ++ 24#6 ++ 0#2 : BitVec 32)]
  | .stRel a b =>
    [(0#4 ++ 11#5 ++ b ++ a ++ 0#5 ++ 24#6 ++ 0#2 : BitVec 32)]
  | .waitv d a b =>
    [(0#4 ++ 12#5 ++ b ++ a ++ d ++ 24#6 ++ 0#2 : BitVec 32)]
  | .psend a =>
    [(0#4 ++ 0#5 ++ 0#5 ++ a ++ 0#5 ++ 26#6 ++ 0#2 : BitVec 32)]
  | .precv d =>
    [(0#4 ++ 1#5 ++ 0#10 ++ d ++ 26#6 ++ 0#2 : BitVec 32)]
  | .hbread d =>
    [(0#4 ++ 9#5 ++ 0#10 ++ d ++ 26#6 ++ 0#2 : BitVec 32)]
  | .hbwait a =>
    [(0#4 ++ 10#5 ++ 0#5 ++ a ++ 0#5 ++ 26#6 ++ 0#2 : BitVec 32)]
  | .csrr d c => [csrParcel c 0 0 d]
  | .csrw c a => [csrParcel c 1 a 0]
  | .csrs c a => [csrParcel c 2 a 0]
  | .csrc c a => [csrParcel c 3 a 0]
  | .turn lvl d a b =>
    [(0#1 ++ lvl ++ 0#5 ++ b ++ a ++ d ++ 28#6 ++ 0#2 : BitVec 32)]
  | .twait d a b timeout =>
    [(0#9 ++ b ++ a ++ d ++ 29#6 ++ 1#2 : BitVec 32),
     timeout]
  | .cpyin d a b sz bar vdst vg comp toa aoff boff =>
    [(0#4 ++ 0#5 ++ b ++ a ++ d ++ 32#6 ++ 2#2 : BitVec 32),
     (0#12 ++ vg ++ vdst ++ 0#3 ++ comp ++ toa ++ bar ++ sz : BitVec 32),
     (boff ++ aoff : BitVec 32)]
  | .cpyout d a b sz bar comp toa aoff boff =>
    [(0#4 ++ 1#5 ++ b ++ a ++ d ++ 32#6 ++ 2#2 : BitVec 32),
     (0#18 ++ comp ++ toa ++ bar ++ sz : BitVec 32),
     (boff ++ aoff : BitVec 32)]
  | .cpyreg d a b sz bar aux vg comp toa =>
    [(0#4 ++ 2#5 ++ b ++ a ++ d ++ 32#6 ++ 2#2 : BitVec 32),
     (0#7 ++ aux ++ vg ++ 0#4 ++ comp ++ toa ++ bar ++ sz : BitVec 32),
     0#32]
  | .cpyfold d a b sz bar fold ordered comp toa aoff boff =>
    [(0#4 ++ 3#5 ++ b ++ a ++ d ++ 32#6 ++ 2#2 : BitVec 32),
     (0#15 ++ ordered ++ fold ++ comp ++ toa ++ bar ++ sz : BitVec 32),
     (boff ++ aoff : BitVec 32)]
  | .scpy d a b sz bar comp toa aoff boff =>
    [(0#4 ++ 4#5 ++ b ++ a ++ d ++ 32#6 ++ 2#2 : BitVec 32),
     (0#18 ++ comp ++ toa ++ bar ++ sz : BitVec 32),
     (boff ++ aoff : BitVec 32)]
  | .exportPage d b =>
    [(0#4 ++ 5#5 ++ b ++ 0#5 ++ d ++ 32#6 ++ 2#2 : BitVec 32),
     0#32,
     0#32]
  | .tcpyIn d a b bar comp toa t0 t1 t2 t3 aoff =>
    [(0#4 ++ 0#5 ++ b ++ a ++ d ++ 33#6 ++ 3#2 : BitVec 32),
     (0#18 ++ comp ++ toa ++ bar ++ 0#5 : BitVec 32),
     (t1 ++ t0 : BitVec 32),
     (t3 ++ t2 : BitVec 32),
     (0#16 ++ aoff : BitVec 32)]
  | .tcpyOut d a b bar comp toa t0 t1 t2 t3 aoff =>
    [(0#4 ++ 1#5 ++ b ++ a ++ d ++ 33#6 ++ 3#2 : BitVec 32),
     (0#18 ++ comp ++ toa ++ bar ++ 0#5 : BitVec 32),
     (t1 ++ t0 : BitVec 32),
     (t3 ++ t2 : BitVec 32),
     (0#16 ++ aoff : BitVec 32)]
  | .sbind d a =>
    [(0#4 ++ 0#5 ++ 0#5 ++ a ++ d ++ 34#6 ++ 0#2 : BitVec 32)]
  | .sfree d =>
    [(0#4 ++ 1#5 ++ 0#10 ++ d ++ 34#6 ++ 0#2 : BitVec 32)]
  | .tspawn a =>
    [(0#4 ++ 0#5 ++ 0#5 ++ a ++ 0#5 ++ 36#6 ++ 0#2 : BitVec 32)]
  | .tdep a b d =>
    [(0#4 ++ 2#5 ++ b ++ a ++ d ++ 36#6 ++ 0#2 : BitVec 32)]
  | .tdec a =>
    [(0#4 ++ 3#5 ++ 0#5 ++ a ++ 0#5 ++ 36#6 ++ 0#2 : BitVec 32)]
  | .sfarm a =>
    [(0#4 ++ 4#5 ++ 0#5 ++ a ++ 0#5 ++ 36#6 ++ 0#2 : BitVec 32)]
  | .snext d =>
    [(0#4 ++ 5#5 ++ 0#10 ++ d ++ 36#6 ++ 0#2 : BitVec 32)]
  | .launch d a =>
    [(0#4 ++ 6#5 ++ 0#5 ++ a ++ d ++ 36#6 ++ 0#2 : BitVec 32)]
  | .tsusp a mask =>
    [(0#14 ++ a ++ 0#5 ++ 37#6 ++ 1#2 : BitVec 32),
     mask]
  | .qcreate d a =>
    [(0#4 ++ 0#5 ++ 0#5 ++ a ++ d ++ 38#6 ++ 0#2 : BitVec 32)]
  | .qpush d a b =>
    [(0#4 ++ 1#5 ++ b ++ a ++ d ++ 38#6 ++ 0#2 : BitVec 32)]
  | .qpop d a b =>
    [(0#4 ++ 2#5 ++ b ++ a ++ d ++ 38#6 ++ 0#2 : BitVec 32)]
  | .qinfo d a =>
    [(0#4 ++ 3#5 ++ 0#5 ++ a ++ d ++ 38#6 ++ 0#2 : BitVec 32)]
  | .qclose a =>
    [(0#4 ++ 4#5 ++ 0#5 ++ a ++ 0#5 ++ 38#6 ++ 0#2 : BitVec 32)]
  | .barinit a b d =>
    [(0#4 ++ 0#5 ++ b ++ a ++ d ++ 39#6 ++ 0#2 : BitVec 32)]
  | .bararr a =>
    [(0#4 ++ 1#5 ++ 0#5 ++ a ++ 0#5 ++ 39#6 ++ 0#2 : BitVec 32)]
  | .bartx a b =>
    [(0#4 ++ 2#5 ++ b ++ a ++ 0#5 ++ 39#6 ++ 0#2 : BitVec 32)]
  | .barwait a =>
    [(0#4 ++ 3#5 ++ 0#5 ++ a ++ 0#5 ++ 39#6 ++ 0#2 : BitVec 32)]
  | .bartest d a =>
    [(0#4 ++ 4#5 ++ 0#5 ++ a ++ d ++ 39#6 ++ 0#2 : BitVec 32)]
  | .coll d a b =>
    [(0#4 ++ 5#5 ++ b ++ a ++ d ++ 39#6 ++ 0#2 : BitVec 32)]
  | .cdreg d a b =>
    [(0#4 ++ 0#5 ++ b ++ a ++ d ++ 40#6 ++ 0#2 : BitVec 32)]
  | .ruquery d a =>
    [(0#4 ++ 1#5 ++ 0#5 ++ a ++ d ++ 40#6 ++ 0#2 : BitVec 32)]
  | .ruinval a =>
    [(0#4 ++ 2#5 ++ 0#5 ++ a ++ 0#5 ++ 40#6 ++ 0#2 : BitVec 32)]
  | .rustat d a =>
    [(0#4 ++ 3#5 ++ 0#5 ++ a ++ d ++ 40#6 ++ 0#2 : BitVec 32)]
  | .ruflush a =>
    [(0#4 ++ 4#5 ++ 0#5 ++ a ++ 0#5 ++ 40#6 ++ 0#2 : BitVec 32)]
  | .chsend c a =>
    [(0#4 ++ 0#5 ++ c ++ a ++ 0#5 ++ 41#6 ++ 0#2 : BitVec 32)]
  | .chsendS c a =>
    [(0#4 ++ 1#5 ++ c ++ a ++ 0#5 ++ 41#6 ++ 0#2 : BitVec 32)]
  | .chrecv d c =>
    [(0#4 ++ 2#5 ++ c ++ 0#5 ++ d ++ 41#6 ++ 0#2 : BitVec 32)]
  | .chrecvS d c =>
    [(0#4 ++ 3#5 ++ c ++ 0#5 ++ d ++ 41#6 ++ 0#2 : BitVec 32)]
  | .vadd xs k d a b =>
    [(xs ++ k ++ 0#5 ++ b ++ a ++ d ++ 48#6 ++ 0#2 : BitVec 32)]
  | .vsub xs k d a b =>
    [(xs ++ k ++ 1#5 ++ b ++ a ++ d ++ 48#6 ++ 0#2 : BitVec 32)]
  | .vmul xs k d a b =>
    [(xs ++ k ++ 2#5 ++ b ++ a ++ d ++ 48#6 ++ 0#2 : BitVec 32)]
  | .vdiv xs k d a b =>
    [(xs ++ k ++ 3#5 ++ b ++ a ++ d ++ 48#6 ++ 0#2 : BitVec 32)]
  | .vmin xs k d a b =>
    [(xs ++ k ++ 4#5 ++ b ++ a ++ d ++ 48#6 ++ 0#2 : BitVec 32)]
  | .vmax xs k d a b =>
    [(xs ++ k ++ 5#5 ++ b ++ a ++ d ++ 48#6 ++ 0#2 : BitVec 32)]
  | .vand xs k d a b =>
    [(xs ++ k ++ 6#5 ++ b ++ a ++ d ++ 48#6 ++ 0#2 : BitVec 32)]
  | .vor xs k d a b =>
    [(xs ++ k ++ 7#5 ++ b ++ a ++ d ++ 48#6 ++ 0#2 : BitVec 32)]
  | .vxor xs k d a b =>
    [(xs ++ k ++ 8#5 ++ b ++ a ++ d ++ 48#6 ++ 0#2 : BitVec 32)]
  | .vsll xs k d a b =>
    [(xs ++ k ++ 9#5 ++ b ++ a ++ d ++ 48#6 ++ 0#2 : BitVec 32)]
  | .vsrl xs k d a b =>
    [(xs ++ k ++ 10#5 ++ b ++ a ++ d ++ 48#6 ++ 0#2 : BitVec 32)]
  | .vsra xs k d a b =>
    [(xs ++ k ++ 11#5 ++ b ++ a ++ d ++ 48#6 ++ 0#2 : BitVec 32)]
  | .vfma xs k d a b =>
    [(xs ++ k ++ 12#5 ++ b ++ a ++ d ++ 48#6 ++ 0#2 : BitVec 32)]
  | .vfms xs k d a b =>
    [(xs ++ k ++ 13#5 ++ b ++ a ++ d ++ 48#6 ++ 0#2 : BitVec 32)]
  | .vabs k d a =>
    [(0#1 ++ k ++ 14#5 ++ 0#5 ++ a ++ d ++ 48#6 ++ 0#2 : BitVec 32)]
  | .vneg k d a =>
    [(0#1 ++ k ++ 15#5 ++ 0#5 ++ a ++ d ++ 48#6 ++ 0#2 : BitVec 32)]
  | .vsqrt k d a =>
    [(0#1 ++ k ++ 16#5 ++ 0#5 ++ a ++ d ++ 48#6 ++ 0#2 : BitVec 32)]
  | .vrcp k d a =>
    [(0#1 ++ k ++ 17#5 ++ 0#5 ++ a ++ d ++ 48#6 ++ 0#2 : BitVec 32)]
  | .vrsq k d a =>
    [(0#1 ++ k ++ 18#5 ++ 0#5 ++ a ++ d ++ 48#6 ++ 0#2 : BitVec 32)]
  | .vexp2 k d a =>
    [(0#1 ++ k ++ 19#5 ++ 0#5 ++ a ++ d ++ 48#6 ++ 0#2 : BitVec 32)]
  | .vlog2 k d a =>
    [(0#1 ++ k ++ 20#5 ++ 0#5 ++ a ++ d ++ 48#6 ++ 0#2 : BitVec 32)]
  | .vtanh k d a =>
    [(0#1 ++ k ++ 21#5 ++ 0#5 ++ a ++ d ++ 48#6 ++ 0#2 : BitVec 32)]
  | .vsigm k d a =>
    [(0#1 ++ k ++ 22#5 ++ 0#5 ++ a ++ d ++ 48#6 ++ 0#2 : BitVec 32)]
  | .vmov k d a =>
    [(0#1 ++ k ++ 23#5 ++ 0#5 ++ a ++ d ++ 48#6 ++ 0#2 : BitVec 32)]
  | .vceq xs k d a b =>
    [(xs ++ k ++ 0#5 ++ b ++ a ++ 0#2 ++ d ++ 49#6 ++ 0#2 : BitVec 32)]
  | .vcne xs k d a b =>
    [(xs ++ k ++ 1#5 ++ b ++ a ++ 0#2 ++ d ++ 49#6 ++ 0#2 : BitVec 32)]
  | .vclt xs k d a b =>
    [(xs ++ k ++ 2#5 ++ b ++ a ++ 0#2 ++ d ++ 49#6 ++ 0#2 : BitVec 32)]
  | .vcle xs k d a b =>
    [(xs ++ k ++ 3#5 ++ b ++ a ++ 0#2 ++ d ++ 49#6 ++ 0#2 : BitVec 32)]
  | .vcgt xs k d a b =>
    [(xs ++ k ++ 4#5 ++ b ++ a ++ 0#2 ++ d ++ 49#6 ++ 0#2 : BitVec 32)]
  | .vcge xs k d a b =>
    [(xs ++ k ++ 5#5 ++ b ++ a ++ 0#2 ++ d ++ 49#6 ++ 0#2 : BitVec 32)]
  | .mand d a b =>
    [(0#4 ++ 6#5 ++ 0#2 ++ b ++ 0#2 ++ a ++ 0#2 ++ d ++ 49#6 ++ 0#2 : BitVec 32)]
  | .mor d a b =>
    [(0#4 ++ 7#5 ++ 0#2 ++ b ++ 0#2 ++ a ++ 0#2 ++ d ++ 49#6 ++ 0#2 : BitVec 32)]
  | .mxor d a b =>
    [(0#4 ++ 8#5 ++ 0#2 ++ b ++ 0#2 ++ a ++ 0#2 ++ d ++ 49#6 ++ 0#2 : BitVec 32)]
  | .mnot d a =>
    [(0#4 ++ 9#5 ++ 0#7 ++ a ++ 0#2 ++ d ++ 49#6 ++ 0#2 : BitVec 32)]
  | .vmerge xs k d a b =>
    [(xs ++ k ++ 10#5 ++ b ++ a ++ d ++ 49#6 ++ 0#2 : BitVec 32)]
  | .vcvt k d a =>
    [(0#1 ++ k ++ 0#5 ++ 0#5 ++ a ++ d ++ 50#6 ++ 0#2 : BitVec 32)]
  | .vqnt k d a =>
    [(0#1 ++ k ++ 1#5 ++ 0#5 ++ a ++ d ++ 50#6 ++ 0#2 : BitVec 32)]
  | .vhad d a b =>
    [(0#4 ++ 2#5 ++ b ++ a ++ d ++ 50#6 ++ 0#2 : BitVec 32)]
  | .vtag sc blk bank type d =>
    [(0#7 ++ sc ++ blk ++ bank ++ type ++ d ++ 51#6 ++ 0#2 : BitVec 32)]
  | .vconf wid sat rm grp d a =>
    [(0#4 ++ wid ++ sat ++ rm ++ grp ++ a ++ d ++ 52#6 ++ 0#2 : BitVec 32)]
  | .vconfR d a b =>
    [(0#9 ++ b ++ a ++ d ++ 53#6 ++ 0#2 : BitVec 32)]
  | .vld k d a =>
    [(0#1 ++ k ++ 0#5 ++ 0#5 ++ a ++ d ++ 54#6 ++ 0#2 : BitVec 32)]
  | .vst k d a =>
    [(0#1 ++ k ++ 1#5 ++ 0#5 ++ a ++ d ++ 54#6 ++ 0#2 : BitVec 32)]
  | .vlds k d a b =>
    [(0#1 ++ k ++ 2#5 ++ b ++ a ++ d ++ 54#6 ++ 0#2 : BitVec 32)]
  | .vsts k d a b =>
    [(0#1 ++ k ++ 3#5 ++ b ++ a ++ d ++ 54#6 ++ 0#2 : BitVec 32)]
  | .vldx k d a b =>
    [(0#1 ++ k ++ 4#5 ++ b ++ a ++ d ++ 54#6 ++ 0#2 : BitVec 32)]
  | .vldff k d a =>
    [(0#1 ++ k ++ 5#5 ++ 0#5 ++ a ++ d ++ 54#6 ++ 0#2 : BitVec 32)]
  | .vscadd k d a b =>
    [(0#1 ++ k ++ 6#5 ++ b ++ a ++ d ++ 54#6 ++ 0#2 : BitVec 32)]
  | .vspill d a =>
    [(0#4 ++ 7#5 ++ 0#5 ++ a ++ d ++ 54#6 ++ 0#2 : BitVec 32)]
  | .vreload d a =>
    [(0#4 ++ 8#5 ++ 0#5 ++ a ++ d ++ 54#6 ++ 0#2 : BitVec 32)]
  | .vlenq d =>
    [(0#4 ++ 9#5 ++ 0#10 ++ d ++ 54#6 ++ 0#2 : BitVec 32)]
  | .scld d a b =>
    [(0#4 ++ 10#5 ++ b ++ a ++ 0#3 ++ d ++ 54#6 ++ 0#2 : BitVec 32)]
  | .vslideup k d a b =>
    [(0#1 ++ k ++ 0#5 ++ b ++ a ++ d ++ 55#6 ++ 0#2 : BitVec 32)]
  | .vslidedn k d a b =>
    [(0#1 ++ k ++ 1#5 ++ b ++ a ++ d ++ 55#6 ++ 0#2 : BitVec 32)]
  | .vshuf xs k d a b =>
    [(xs ++ k ++ 2#5 ++ b ++ a ++ d ++ 55#6 ++ 0#2 : BitVec 32)]
  | .vcompress k d a =>
    [(0#1 ++ k ++ 3#5 ++ 0#5 ++ a ++ d ++ 55#6 ++ 0#2 : BitVec 32)]
  | .vsplat k d a =>
    [(0#1 ++ k ++ 4#5 ++ 0#5 ++ a ++ d ++ 55#6 ++ 0#2 : BitVec 32)]
  | .vins d a b =>
    [(0#4 ++ 5#5 ++ b ++ a ++ d ++ 55#6 ++ 0#2 : BitVec 32)]
  | .vext d a b =>
    [(0#4 ++ 6#5 ++ b ++ a ++ d ++ 55#6 ++ 0#2 : BitVec 32)]
  | .vredSum k d a =>
    [(0#1 ++ k ++ 0#5 ++ 0#5 ++ a ++ d ++ 56#6 ++ 0#2 : BitVec 32)]
  | .vredMin k d a =>
    [(0#1 ++ k ++ 1#5 ++ 0#5 ++ a ++ d ++ 56#6 ++ 0#2 : BitVec 32)]
  | .vredMax k d a =>
    [(0#1 ++ k ++ 2#5 ++ 0#5 ++ a ++ d ++ 56#6 ++ 0#2 : BitVec 32)]
  | .vredAnd k d a =>
    [(0#1 ++ k ++ 3#5 ++ 0#5 ++ a ++ d ++ 56#6 ++ 0#2 : BitVec 32)]
  | .vredOr k d a =>
    [(0#1 ++ k ++ 4#5 ++ 0#5 ++ a ++ d ++ 56#6 ++ 0#2 : BitVec 32)]
  | .vredXor k d a =>
    [(0#1 ++ k ++ 5#5 ++ 0#5 ++ a ++ d ++ 56#6 ++ 0#2 : BitVec 32)]
  | .vredMini k d a =>
    [(0#1 ++ k ++ 6#5 ++ 0#5 ++ a ++ d ++ 56#6 ++ 0#2 : BitVec 32)]
  | .vredMaxi k d a =>
    [(0#1 ++ k ++ 7#5 ++ 0#5 ++ a ++ d ++ 56#6 ++ 0#2 : BitVec 32)]
  | .vscanAdd k d a cin cout =>
    [(0#1 ++ k ++ 0#5 ++ 0#5 ++ a ++ d ++ 0x39#6 ++ 1#2 : BitVec 32), carryParcel cin cout]
  | .vscanMax k d a cin cout =>
    [(0#1 ++ k ++ 1#5 ++ 0#5 ++ a ++ d ++ 0x39#6 ++ 1#2 : BitVec 32), carryParcel cin cout]
  | .vscanMin k d a cin cout =>
    [(0#1 ++ k ++ 2#5 ++ 0#5 ++ a ++ d ++ 0x39#6 ++ 1#2 : BitVec 32), carryParcel cin cout]
  | .vscanLin k d a b cin cout =>
    [(0#1 ++ k ++ 3#5 ++ b ++ a ++ d ++ 0x39#6 ++ 1#2 : BitVec 32), carryParcel cin cout]
  | .mop k d a b cmask =>
    [(0#1 ++ k ++ 0#5 ++ b ++ a ++ 0#2 ++ d ++ 58#6 ++ 1#2 : BitVec 32),
     (0#29 ++ cmask : BitVec 32)]
  | .mzero d =>
    [(0#4 ++ 1#5 ++ 0#12 ++ d ++ 58#6 ++ 1#2 : BitVec 32),
     0#32]
  | .mrow k d a row =>
    [(0#1 ++ k ++ 2#5 ++ 0#7 ++ a ++ d ++ 58#6 ++ 1#2 : BitVec 32),
     (0#22 ++ row ++ 0#3 : BitVec 32)]
  | .mcol k d a row =>
    [(0#1 ++ k ++ 3#5 ++ 0#7 ++ a ++ d ++ 58#6 ++ 1#2 : BitVec 32),
     (0#22 ++ row ++ 0#3 : BitVec 32)]
  | .mwrow d a row =>
    [(0#4 ++ 4#5 ++ 0#5 ++ a ++ 0#2 ++ d ++ 58#6 ++ 1#2 : BitVec 32),
     (0#22 ++ row ++ 0#3 : BitVec 32)]
  | .dadd d a b =>
    [(0#4 ++ 0#5 ++ 0#2 ++ b ++ 0#2 ++ a ++ 0#2 ++ d ++ 59#6 ++ 0#2 : BitVec 32)]
  | .dsub d a b =>
    [(0#4 ++ 1#5 ++ 0#2 ++ b ++ 0#2 ++ a ++ 0#2 ++ d ++ 59#6 ++ 0#2 : BitVec 32)]
  | .dmul d a b =>
    [(0#4 ++ 2#5 ++ 0#2 ++ b ++ 0#2 ++ a ++ 0#2 ++ d ++ 59#6 ++ 0#2 : BitVec 32)]
  | .dmin d a b =>
    [(0#4 ++ 3#5 ++ 0#2 ++ b ++ 0#2 ++ a ++ 0#2 ++ d ++ 59#6 ++ 0#2 : BitVec 32)]
  | .dmax d a b =>
    [(0#4 ++ 4#5 ++ 0#2 ++ b ++ 0#2 ++ a ++ 0#2 ++ d ++ 59#6 ++ 0#2 : BitVec 32)]
  | .dfma d a b =>
    [(0#4 ++ 5#5 ++ 0#2 ++ b ++ 0#2 ++ a ++ 0#2 ++ d ++ 59#6 ++ 0#2 : BitVec 32)]
  | .daff xs d a b =>
    [(xs ++ 0#3 ++ 6#5 ++ b ++ 0#2 ++ a ++ 0#2 ++ d ++ 59#6 ++ 0#2 : BitVec 32)]
  | .dpt d a =>
    [(0#4 ++ 7#5 ++ 0#5 ++ a ++ 0#2 ++ d ++ 59#6 ++ 0#2 : BitVec 32)]
  | .dset d a b =>
    [(0#4 ++ 8#5 ++ b ++ a ++ 0#2 ++ d ++ 59#6 ++ 0#2 : BitVec 32)]
  | .dget d a b =>
    [(0#4 ++ 9#5 ++ b ++ 0#2 ++ a ++ d ++ 59#6 ++ 0#2 : BitVec 32)]
  | .dtag d a =>
    [(0#4 ++ 10#5 ++ 0#5 ++ a ++ 0#2 ++ d ++ 59#6 ++ 0#2 : BitVec 32)]
  | .dmom d a b =>
    [(0#4 ++ 11#5 ++ b ++ 0#2 ++ a ++ d ++ 59#6 ++ 0#2 : BitVec 32)]
  | .dqnt d a b =>
    [(0#4 ++ 12#5 ++ b ++ 0#2 ++ a ++ d ++ 59#6 ++ 0#2 : BitVec 32)]
  | .dcdf d a b =>
    [(0#4 ++ 13#5 ++ b ++ 0#2 ++ a ++ d ++ 59#6 ++ 0#2 : BitVec 32)]
  | .dld d a =>
    [(0#4 ++ 14#5 ++ 0#5 ++ a ++ 0#2 ++ d ++ 59#6 ++ 0#2 : BitVec 32)]
  | .dst d a =>
    [(0#4 ++ 15#5 ++ 0#5 ++ a ++ 0#2 ++ d ++ 59#6 ++ 0#2 : BitVec 32)]
  | .fmtset nf a =>
    [(0#14 ++ a ++ 0#2 ++ nf ++ 60#6 ++ 0#2 : BitVec 32)]
  | .hint h =>
    [(h ++ 63#6 ++ 0#2 : BitVec 32)]
  | .hint64 h p1 =>
    [(h ++ 63#6 ++ 1#2 : BitVec 32),
     p1]
  | .hint96 h p1 p2 =>
    [(h ++ 63#6 ++ 2#2 : BitVec 32),
     p1,
     p2]
  | .hint160 h p1 p2 p3 p4 =>
    [(h ++ 63#6 ++ 3#2 : BitVec 32),
     p1,
     p2,
     p3,
     p4]
  | .fenceCore =>
    [(0#4 ++ 2#5 ++ 0#15 ++ 26#6 ++ 0#2 : BitVec 32)]
  | .fenceQuad =>
    [(0#4 ++ 3#5 ++ 0#15 ++ 26#6 ++ 0#2 : BitVec 32)]
  | .fenceDie =>
    [(0#4 ++ 4#5 ++ 0#15 ++ 26#6 ++ 0#2 : BitVec 32)]
  | .fenceDev =>
    [(0#4 ++ 5#5 ++ 0#15 ++ 26#6 ++ 0#2 : BitVec 32)]
  | .fenceFab =>
    [(0#4 ++ 6#5 ++ 0#15 ++ 26#6 ++ 0#2 : BitVec 32)]
  | .fenceEng =>
    [(0#4 ++ 7#5 ++ 0#15 ++ 26#6 ++ 0#2 : BitVec 32)]
  | .fenceSc =>
    [(0#4 ++ 8#5 ++ 0#15 ++ 26#6 ++ 0#2 : BitVec 32)]
  | .ecall =>
    [(0#4 ++ 11#5 ++ 0#15 ++ 26#6 ++ 0#2 : BitVec 32)]
  | .ebreak =>
    [(0#4 ++ 12#5 ++ 0#15 ++ 26#6 ++ 0#2 : BitVec 32)]
  | .eret =>
    [(0#4 ++ 13#5 ++ 0#15 ++ 26#6 ++ 0#2 : BitVec 32)]
  | .tdone =>
    [(0#4 ++ 1#5 ++ 0#15 ++ 36#6 ++ 0#2 : BitVec 32)]
  | .maxlenWrite => []
  | .copyStart => []
  | .copyAtom => []
  | .scpyStamp => []
  | .tokenWrite => []
  | .streamRefill => []
  | .gatherServe => []
  | .scatterUpdate => []
  | .dispatch => []
  | .queueRefill => []
  | .collectiveRun => []
  | .hitCopyDone => []
  | .insertionDone => []
  | .messageArrival => []
  | .trapRecordWrite => []
  | .engerrAsync => []
  | .replyResume => []
  | .replyResumeAt => []
  | .replyReturn => []
  | .replyDeliver => []
  | .replyKill => []
  | .replySkip => []
  | .slotSwap => []
  | .fairShareExpiry => []
  | .contextSave => []
  | .saveDone => []
  | .contextRestore => []
  | .restoreDone => []
  | .preemption => []
  | .doorbell => []
  | .kqEntryTake => []
  | .placement => []
  | .agingStep => []
  | .launchTick => []
  | .timedStartSwap => []
  | .kernelRetire => []
  | .watchdog => []
  | .heartbeatTick => []
  | .pageWalkDone => []
  | .xinvPage => []
  | .xinvTenant => []
  | .xinvAll => []
  | .migcmdGo => []
  | .hotWindowEnd => []
  | .migrationSwitch => []
  | .ruquotaWrite => []
  | .rupoolWrite => []
  | .hostMemRead => []
  | .hostMemWrite => []
  | .hostRegWrite => []
  | .alarmpolWrite => []
  | .fwGo => []
  | .fwVerifyDone => []
  | .tkeyWrite => []
  | .tkctlLoad => []
  | .tkctlErase => []
  | .tresetGo => []
  | .functionLevelReset => []
  | .securityAlarm => []
  | .coldReset => []
  | .warmReset => []
  | .hbmReady => []
  | .freeze => []
  | .idcode => []
  | .bypass => []
  | .unlock => []
  | .readout => []
  | .patrolScrub => []
  | .halfWidth => []
  | .fullWidth => []
  | .powerGate => []
  | .trainingDone => []
  | .trainingFail => []
  | .flitReceive => []
  | .nakReceive => []
  | .ackReceive => []
  | .nakRepeat => []
  | .nakTimeout => []
  | .packetDeliver => []
  | .routerSleep => []
  | .wake => []
  | .deadlockProbeSend => []
  | .probeReceive => []
  | .deadlockStep => []
  | .probeRetry => []
  | .twaitTimeout => []
  | .cxlCacheSnoop => []

end Sys2Proof
end

