-- ==== Sys2Proof/Machine/Scan.lean ====
section
/-! DEFINITION. The frozen state of each unit as words, for READOUT (20_system R453; notes/assumptions/99). The storage of keys
is no part of it. -/

namespace Sys2Proof.Machine

/-- A number as a word. -/
def scanNat (n : Nat) : Word := BitVec.ofNat 64 n

/-- A truth value as a word. -/
def scanBool (b : Bool) : Word := if b then 1 else 0

/-- What may be absent: 0, or 1 and then it. -/
def scanOpt {α : Type} (f : α → List Word) : Option α → List Word
  | none => [0]
  | some a => 1 :: f a

/-- A list: its length, and its elements. -/
def scanList {α : Type} (f : α → List Word) (l : List α) : List Word := scanNat l.length :: l.flatMap f

/-- A table: each key with its value. -/
def scanTable {α : Type} (f : α → List Word) (t : List (Nat × α)) : List Word := scanList (fun e => scanNat e.1 :: f e.2) t

/-- A list of numbers. -/
def scanNats (l : List Nat) : List Word := scanList (fun n => [scanNat n]) l

/-- A list of words. -/
def scanWords (l : List Word) : List Word := scanList (fun w => [w]) l

/-- Bits as a word. -/
def scanBits {n : Nat} (x : BitVec n) : List Word := [x.setWidth 64]

/-- A list of bytes. -/
def scanBytes (l : List Byte) : List Word := scanList scanBits l

/-- A list of pairs of numbers. -/
def scanPairs (l : List (Nat × Nat)) : List Word := scanList (fun p => [scanNat p.1, scanNat p.2]) l

/-- An instruction by its words. -/
def scanInstr (i : Instr) : List Word := scanList scanBits (encode i)

/-- A hart by its context and its kind. -/
def HartRef.scan (r : HartRef) : List Word := [scanNat r.cid, scanNat (kindNum r.kind)]

/-- A trap before it is taken. -/
def Trap.scan (t : Trap) : List Word :=
  [scanNat t.cause.code, scanNat t.acc, scanNat t.level.rank, scanNat t.writer, scanNat t.detail, scanNat t.elem, t.addr]

/-- A task record. -/
def TaskRec.scan (t : TaskRec) : List Word := [t.w0, t.w1, t.w2] ++ scanWords t.args

/-- A key of a pure task: its storage holds a tag of the inputs, and no key of a tenant. -/
def Keyed.scan (k : Keyed) : List Word :=
  scanBytes k.key ++ scanNat k.slot :: scanNats k.reads ++ scanNats k.inputs ++ scanNats k.code

/-- Where a pure task stands. -/
def PurePhase.scan : PurePhase → List Word
  | .lookup => [0, 0]
  | .run => [1, 0]
  | .hit e => [2, scanNat e]
  | .retire => [3, 0]
  | .insert => [4, 0]

/-- The pure state of a task. -/
def PureState.scan (p : PureState) : List Word :=
  p.phase.scan ++ scanNat p.desc :: scanPairs p.inputs ++ scanPairs p.outputs
    ++ [p.code, scanBool p.byAddr, scanBool p.demote, scanBool p.fill, p.w0] ++ scanWords p.args ++ scanNats p.cores
    ++ scanOpt Keyed.scan p.key ++ scanOpt (fun n => [scanNat n]) p.claim

/-- The place of an address. -/
def Place.scan (p : Place) : List Word :=
  [scanNat p.kind.ctorIdx, scanNat p.pa] ++ scanNats p.copies
    ++ [scanNat p.pageVa, scanNat p.frame, scanNat p.shift, scanBool p.pin, scanBool p.loose, scanNat p.home, scanNat p.leafAt, p.leaf]

/-- Where an access lies. -/
def Region.scan : Region → List Word
  | .window i off => [0, scanBool i, scanNat off]
  | .pages ps => 1 :: scanList (fun p => p.1.scan ++ [scanNat p.2.1, scanNat p.2.2]) ps

/-- A store under way. -/
def Split.scan (x : Split) : List Word :=
  scanNat x.len :: scanList scanBits x.reads ++ scanNat x.base :: scanBytes x.data ++ scanBool x.localOnly :: x.region.scan
    ++ scanNats x.left

/-- A wait of TWAIT. -/
def TWait.scan (t : TWait) : List Word :=
  scanBits t.d ++ [scanNat t.start, scanNat t.len, scanNat t.timeout, t.since]

/-- An arrival record. -/
def Arrival.scan (a : Arrival) : List Word := scanBits a.arrph ++ [scanBool a.a, scanBool a.c]

/-- A hart. -/
def Hart.scan (h : Hart) : List Word :=
  h.pc :: scanTable (fun w => [w]) h.regs ++ scanNats h.busy ++ scanNats h.unread ++ scanBits h.fflags
    ++ [h.trapinfo, h.trapaddr, scanNat h.dispatch.ctorIdx, h.w1, h.w2] ++ scanOpt PureState.scan h.pure
    ++ scanNat h.farm :: scanTable Arrival.scan h.arrivals ++ scanOpt TWait.scan h.twait ++ scanOpt scanBits h.barwait
    ++ scanOpt (fun w => [w]) h.fenceHb ++ scanTable scanBits h.part ++ scanOpt Split.scan h.split
    ++ scanOpt (fun p => [scanNat p.1.ctorIdx, p.2]) h.pendCsr ++ scanWords h.engErr ++ [scanBool h.yielding]
    ++ scanOpt (fun n => [scanNat n]) h.stalled

/-- What a VSCADD adds where. -/
def Target.scan (t : Target) : List Word := [scanNat t.va, scanNat t.pa, scanNat t.part] ++ scanBits t.flags

/-- The updates of a VSCADD. -/
def Scatter.scan (x : Scatter) : List Word := scanList Target.scan x.targets ++ scanOpt Trap.scan x.fault

/-- An entry of the vector instruction queue. -/
def VEntry.scan (e : VEntry) : List Word :=
  scanInstr e.instr ++ e.addr :: scanWords e.ops ++ scanNat e.vl :: scanBits e.vtype ++ [scanNat e.epoch, scanNat e.step]
    ++ scanOpt Scatter.scan e.scatter ++ scanNats e.marks ++ scanBool e.popped :: scanOpt (fun n => [scanNat n]) e.job
    ++ scanBits e.flags ++ scanNats e.index ++ [scanBool e.outside]

/-- A VIQ image. -/
def Image.scan (m : Image) : List Word :=
  scanList VEntry.scan m.entries ++ scanNat m.vl :: scanBits m.vtype ++ [scanNat m.epoch]

/-- A buffered element. -/
def Buffered.scan (x : Buffered) : List Word :=
  scanBits x.word ++ scanList (fun r => [scanNat r.1, scanNat r.2]) x.reads ++ scanNats x.keys

/-- A bound stream. -/
def Stream.scan (x : Stream) : List Word :=
  scanWords x.desc ++ scanNat x.pos :: scanList (fun l => scanList Buffered.scan l) x.strips

/-- A continuation. -/
def Cont.scan (k : Cont) : List Word :=
  [scanNat k.id, k.pc] ++ scanTable (fun w => [w]) k.saved ++ scanBits k.mask ++ [scanNat k.reg, scanNat (kindNum k.kind), k.w1, k.w2]
    ++ scanOpt PureState.scan k.pure ++ scanOpt (fun w => [w]) k.token ++ [scanBool k.ready]

/-- A context, its harts apart and its vector, mask, tile, sorus, scale and window contents, which have cells of their own. -/
def Ctx.scan (c : Ctx) : List Word :=
  [scanNat c.slotState.ctorIdx, scanNat c.core, scanNat c.slot, scanNat c.kernel, scanNat c.member, scanBool c.full,
    scanBool c.super, scanNat c.tenant, scanNat c.vl] ++ scanBits c.vtype ++ [scanNat c.epoch, c.vfill] ++ scanBits c.maxlen
    ++ [c.vcp, c.spc, c.trapvec] ++ scanOpt (fun k => [scanNat (kindNum k)]) c.handler ++ scanTable scanBits c.vtag
    ++ scanTable (fun k => [scanNat k.ctorIdx]) c.tileKind ++ scanTable scanBits c.lineage ++ scanTable scanBits c.scaleMode
    ++ scanTable scanBits c.nf ++ scanWords c.pipeIn ++ scanWords c.pipeOut ++ scanList VEntry.scan c.viq
    ++ scanOpt Image.scan c.image ++ scanTable Stream.scan c.streams ++ scanList TaskRec.scan c.deque ++ scanList Cont.scan c.conts
    ++ [c.xtsel, c.migva, c.migstat, c.rutsel, scanBool c.imaged, scanNat c.imgCause]

/-- A launch record. -/
def LaunchRec.scan (r : LaunchRec) : List Word :=
  [r.entryCh, r.entryFh, r.entryDh, r.shape, r.tick, r.trapvec, r.save, r.ring, r.compl, r.watch] ++ scanWords r.args
    ++ r.dw15 :: scanList (fun e => [e.1, e.2]) r.chans

/-- A message of a channel. -/
def Msg.scan (m : Msg) : List Word :=
  scanBool m.scalar :: scanList scanBits m.vals ++ scanBits m.tag ++ [scanNat m.len, scanNat m.beats, scanBool m.complete]

/-- A channel. -/
def Chan.scan (c : Chan) : List Word :=
  [scanNat c.decl.smem, scanNat (kindNum c.decl.shart), scanNat c.decl.rmem, scanNat (kindNum c.decl.rhart), scanNat c.decl.slots,
    scanNat c.decl.status] ++ scanList Msg.scan c.msgs ++ [scanNat c.sent, scanNat c.taken]

/-- An item of a ready queue. -/
def ReadyItem.scan : ReadyItem → List Word
  | .record r => 0 :: r.scan
  | .cont cid id prio kind => [1, scanNat cid, scanNat id, scanNat prio, scanNat (kindNum kind)]

/-- A kernel. -/
def Kernel.scan (x : Kernel) : List Word :=
  scanBits x.number ++ scanNat x.state.ctorIdx :: x.rcd.scan
    ++ [scanNat x.tenant, scanBool x.super, scanBool x.half, scanNat x.prio, scanNat x.eff, scanNat x.size, scanNat x.group,
        scanNat x.order, scanNat x.placedAt]
    ++ scanOpt (fun w => [w]) x.startAt ++ [scanBool x.late, scanNat x.ran, scanNat x.reason] ++ scanNats x.cores
    ++ [scanNat x.quadUnit, scanNat x.dieUnit] ++ scanNats x.qbars ++ scanNats x.dbars ++ scanList Chan.scan x.chans
    ++ scanList ReadyItem.scan x.ready ++ [scanNat x.farm, scanNat x.farmN, scanNat x.farmNext, scanBool x.owed]

/-- A trap record. -/
def TrapRec.scan (t : TrapRec) : List Word :=
  scanNat t.id :: t.ref.scan ++ [t.info, t.addr, t.spc, t.vcp, t.hb, t.s10, t.s11, scanBool t.xlat]
    ++ scanOpt (fun n => [scanNat n]) t.job ++ scanBool t.idle :: scanOpt (fun n => [scanNat n]) t.ringAt ++ [t.reply]

/-- The turn state of a granule. -/
def Gran.scan (g : Gran) : List Word :=
  [scanNat g.writer, scanNat g.level.rank, scanNat g.tenant] ++ scanOpt (fun n => [scanNat n]) g.comp

/-- A code slot. -/
def CodeSlot.scan (c : CodeSlot) : List Word :=
  scanBool c.used :: scanBits c.gen ++ [scanNat c.start, scanNat c.len] ++ scanBytes c.digest ++ scanTable (fun w => [w]) c.wgens
    ++ scanNats c.frames

/-- A kernel queue. -/
def KQueue.scan (q : KQueue) : List Word := [q.base, q.size, scanBool q.err] ++ scanBits q.head ++ scanBits q.tail

/-- What the device holds for a function, its key and staged key apart. -/
def Tenant.scan (t : Tenant) : List Word :=
  [t.xroot, t.ruquota, t.rupool, scanBool t.key.isSome, scanNat t.tkey.length, scanBool t.badload, t.tsave, t.texport]
    ++ scanTable CodeSlot.scan t.slots ++ scanTable (fun w => [w]) t.counts ++ scanTable KQueue.scan t.kq ++ scanNats t.killed

/-- What the device holds for a die. -/
def Die.scan (d : Die) : List Word :=
  [d.hotctl, d.hotres, d.hotlog, d.hotstat] ++ scanNats d.spare ++ [scanNat d.walks, d.hotSince] ++ scanPairs d.leaves

/-- A cached translation. -/
def TlbEntry.scan (e : TlbEntry) : List Word :=
  [scanNat e.tenant, scanNat e.va, scanNat e.shift, e.leaf] ++ scanNats e.frames

/-- A migration. -/
def Migration.scan (m : Migration) : List Word :=
  [scanNat m.id, scanNat m.tenant, scanNat m.va, scanNat m.src, scanNat m.dst, scanNat m.leafAddr, m.leafWord]
    ++ scanOpt (fun n => [scanNat n]) m.starter ++ [scanNat m.die]

/-- A pair of numbers that may be absent. -/
def scanMaybePair (p : Option (Nat × Nat)) : List Word := scanOpt (fun q => [scanNat q.1, scanNat q.2]) p

/-- A multicast under way. -/
def Packet.scan (p : Packet) : List Word :=
  scanNat p.id :: scanBits p.seq ++ p.ref.scan ++ scanMaybePair p.copy ++ scanNat p.pa :: scanBytes p.bytes ++ scanMaybePair p.part
    ++ [scanNat p.writer, scanNat p.level.rank, scanNat p.tenant]

/-- A watch. -/
def Watch.scan (w : Watch) : List Word := w.ref.scan ++ [scanNat w.pa, w.want, scanBool w.hit]

/-- A watched output granule. -/
def OutWatch.scan (o : OutWatch) : List Word := o.ref.scan ++ [scanNat o.key, scanBool o.dirty]

/-- A copy that a KILL has left. -/
def LateHit.scan (h : LateHit) : List Word :=
  h.ref.scan ++ [scanNat h.core, scanNat h.tenant] ++ scanPairs h.outputs ++ [scanNat h.entry]

/-- A reuse entry. -/
def ReuseEntry.scan (e : ReuseEntry) : List Word :=
  scanBytes e.key16 ++ [scanNat e.tenant, scanNat e.slot, scanBool e.byAddr, scanNat e.state.ctorIdx, scanNat e.imgPa, scanNat e.imgVa,
    scanNat e.imgShift, scanNat e.imgLen] ++ scanNats e.pages ++ [scanNat e.readers, scanBool e.claimed]

/-- A queue window. -/
def Window.scan (w : Window) : List Word :=
  scanNat w.state.ctorIdx :: scanBits w.gen ++ [scanNat w.tenant, scanNat w.rbase, scanNat w.rcap] ++ scanNats w.frames
    ++ scanList scanBytes w.recs ++ [scanNat w.rhead, scanNat w.rcount] ++ scanBits w.seq

/-- A barrier. -/
def Barrier.scan (b : Barrier) : List Word :=
  scanOpt (fun n => [scanNat n]) b.owner ++ [scanNat b.expect, scanNat b.arrived] ++ scanBits b.pend ++ scanBool b.ovf :: scanBits b.phase
    ++ b.cstat :: scanList (fun a => a.ref.scan ++ scanOpt scanWords a.coll) b.open_ ++ [scanBool b.running]

/-- Where a token goes. -/
def TokenDest.scan : TokenDest → List Word
  | .none => [0, 0]
  | .reg r => [1, scanNat r]
  | .cont id => [2, scanNat id]

/-- A command of a copy queue. -/
def CopyCmd.scan (x : CopyCmd) : List Word :=
  scanNat x.id :: x.ref.scan ++ scanNat x.core :: scanInstr x.instr ++ [x.dst, x.src, x.len] ++ scanOpt (fun w => [w]) x.bar
    ++ x.aux :: x.tok.scan ++ scanBool x.started :: scanWords x.desc ++ scanNats x.moved ++ scanNat x.upTo :: scanTable scanBytes x.landing
    ++ [scanNat x.retired, scanNat x.posted] ++ scanOpt (fun f => [scanNat f.1, scanNat f.2.1, scanNat f.2.2]) x.fail
    ++ scanOpt (fun w => [w]) x.status ++ scanOpt (fun n => [scanNat n]) x.record ++ [scanBool x.stamped]

/-- A part of a sorus file that no context owns. -/
def SorusHalf.scan (h : SorusHalf) : List Word := scanTable scanBits h.words ++ scanTable scanBits h.lineage

/-- The device block. -/
def DeviceBlock.scan (d : DeviceBlock) : List Word :=
  [scanBool d.alarm, scanBool d.ready] ++ scanBits d.lastRst ++ [d.evring, d.evTail, scanBool d.lock, scanBool d.policy]
    ++ scanBits d.limit ++ scanBits d.draw ++ scanBits d.gate ++ scanBits d.temp ++ scanBits d.fabid ++ [d.fabgrp, d.fwaddr,
      scanNat d.fwState.ctorIdx] ++ scanBits d.fwVer ++ scanOpt scanBits d.fwSlots.1 ++ scanOpt scanBits d.fwSlots.2
    ++ [scanBool d.fwSecond, scanBool d.fwNew, scanBool d.noFw, scanNat d.fwRej, scanNat d.unlRej] ++ scanNats d.causes
    ++ [scanBool d.devKeys]

/-- A direction of a link. -/
def Direction.scan (d : Direction) : List Word :=
  let flits := scanList (fun (f : Flit) => scanBits f.seq ++ scanBytes f.data ++ scanBits f.crc)
  scanBits d.next ++ flits d.buffer ++ scanBits d.expect ++ flits d.held ++ scanOpt scanBits d.nak ++ scanNat d.naks :: scanList scanBits d.again
    ++ scanList scanBits d.pend ++ scanNat d.done :: scanList scanBytes d.queue

/-- A link. -/
def Link.scan (x : Link) : List Word := [scanNat x.state.ctorIdx, scanNat x.attempts] ++ x.fwd.scan ++ x.bwd.scan

/-- A router. -/
def Router.scan (r : Router) : List Word :=
  scanBool r.asleep :: scanNats r.buffer ++ scanOpt (fun n => [scanNat n]) r.blocked ++ scanOpt (fun n => [scanNat n]) r.probe
    ++ [scanBool r.sent, scanBool r.cycle, scanBool r.stepped]

/-- The counters of a die's links. -/
def LinkCounts.scan (c : LinkCounts) : List Word :=
  scanBits c.resends ++ scanBits c.replays ++ scanBits c.retrains ++ scanBits c.probes ++ scanBits c.steps

/-- The words of a unit (R453): the one of a number, or what the unit holds as a whole. -/
def State.scanUnit (s : State) (u : Config.ScanUnit) (n : Nat) : List Word :=
  match u with
  | .hart => (s.hart { cid := n / 3, kind := if n % 3 = 0 then .ch else if n % 3 = 1 then .fh else .dh }).scan
  | .context => (s.ctx n).scan
  | .kernel => scanOpt Kernel.scan (s.kernel n) ++ scanBits s.kernelNo
  | .trapRecord => scanList TrapRec.scan s.traps
  | .granules => scanTable Gran.scan s.gran
  | .generations => scanTable (fun g => [g.gen, scanBool g.read]) s.wgen
  | .errors => scanNats s.ecc ++ scanNats s.reported ++ scanNats s.soft
  | .tenant => (s.tenant n).scan
  | .die => (s.dieOf n).scan
  | .tlb => scanList TlbEntry.scan ((tget s.tlb n).getD [])
  | .migrations => scanList Migration.scan s.migs
  | .packets => scanList Packet.scan s.packets
  | .pairs => scanTable (fun p => scanBits p.1 ++ scanBits p.2) s.pairs
  | .watches => scanList Watch.scan s.watches
  | .outputs => scanList OutWatch.scan s.outWatch
  | .hits => scanList LateHit.scan s.hits
  | .reuse => scanTable ReuseEntry.scan s.reuse
  | .window => ((tget s.windows n).getD Window.reset).scan
  | .quadBarrier => ((tget s.quadBars n).getD Barrier.reset).scan
  | .dieBarrier => ((tget s.dieBars n).getD Barrier.reset).scan
  | .reserve => scanTable scanNats s.reserve
  | .copies => scanList CopyCmd.scan (s.copyQueue n)
  | .issue => scanTable (fun k => [scanNat k]) s.issue ++ scanTable (fun k => [scanNat k]) s.fair
    ++ scanList HartRef.scan s.starts
  | .sorusHalf => scanTable SorusHalf.scan s.sorusOff
  | .device => s.dev.scan
  | .port => [scanNat s.tap.instr.ctorIdx, scanBool s.tap.unlocked]
  | .link => ((tget s.links n).getD Link.reset).scan
  | .router => ((tget s.routers n).getD Router.reset).scan
  | .counters => ((tget s.linkCnt n).getD LinkCounts.reset).scan
  | .channels => scanList (fun h => [scanNat h.1, scanNat h.2.1, scanBool h.2.2]) s.half

end Sys2Proof.Machine
end

