-- ==== Sys2Proof/Machine/TestPort.lean ====
section
/-! DEFINITION. The test access port (20_system R452, R453). -/

namespace Sys2Proof.Machine

/-- IDCODE: the port selects the identification code and shifts it out. -/
def execIdcode (s : State) : Host.Outcome State Fault Refusal :=
  .next { s with tap := { s.tap with instr := .idcode, out := (List.range 32).map (fun i => bit Config.idcode i) } }

/-- BYPASS: the port selects its bypass bit. -/
def execBypass (s : State) : Host.Outcome State Fault Refusal :=
  .next { s with tap := { s.tap with instr := .bypass, out := [false] } }

/-- An unlock fails: at the eighth in a row the alarm is to fire on cause 4, and the count begins again (R449;
notes/assumptions/98). -/
def DeviceBlock.unlockFails (d : DeviceBlock) : DeviceBlock :=
  if 7 ≤ d.unlRej then ({ d with unlRej := 0 } : DeviceBlock).due 4 else { d with unlRej := d.unlRej + 1 }

/-- UNLOCK (R449, R453): f says whether both signatures of the response verify; failures in a row are counted. -/
def execUnlock (s : State) : Host.Outcome State Fault Refusal :=
  if s.evArg.f then
    .next { s with tap := { s.tap with instr := .unlock, unlocked := true }, dev := { s.dev with unlRej := 0 } }
  else .next { s with tap := { s.tap with instr := .unlock }, dev := s.dev.unlockFails }

/-- The hart of a number, the compute hart for every other. -/
def State.scanHart (s : State) (cid n : Nat) : Hart := s.hart { cid := cid, kind := (hartOfCode n).getD .ch }

/-- Words of w bytes put together to 64 bits. -/
def scanPacked {n : Nat} (m : Sparse (BitVec n)) (w i : Nat) : Word :=
  wordOfBytes ((List.range 8).map (fun j => packedByte m w (8 * i + j)))

/-- What a piece of the frozen state is (R453): the storage of keys and TKEY staging read as zeros. -/
def State.scan (s : State) : Config.ScanCell → Word
  | .unit u n i => (s.scanUnit u n).getD i 0
  | .mem i => s.memWord (8 * i)
  | .hostReg f off => s.hostReg f off
  | .heartbeat => s.hb
  | .scalar cid h r => sget 0 (s.scanHart cid h).regs r
  | .pc cid h => (s.scanHart cid h).pc
  | .trapInfo cid h => (s.scanHart cid h).trapinfo
  | .trapAddr cid h => (s.scanHart cid h).trapaddr
  | .vector cid i => wordOfBytes (sgetList 0 (s.ctx cid).v (8 * i) 8)
  | .mask cid i => wordOfBytes ((List.range 8).map (fun j => maskByte (s.ctx cid).m (8 * i + j)))
  | .tile cid i => scanPacked (s.ctx cid).tile 4 i
  | .sorus cid i => scanPacked (s.ctx cid).sorus 4 i
  | .scale cid i => scanPacked (s.ctx cid).scale 2 i
  | .inWindow cid i => wordOfBytes (sgetList 0 (s.ctx cid).isw (8 * i) 8)
  | .outWindow cid i => wordOfBytes (sgetList 0 (s.ctx cid).osw (8 * i) 8)
  | .pipeIn cid i => (s.ctx cid).pipeIn.getD i 0
  | .pipeOut cid i => (s.ctx cid).pipeOut.getD i 0
  | .granule key => BitVec.ofNat 64 (((tget s.gran key).map (fun g => g.writer + 512 * g.level.rank)).getD 0)
  | .tenantKey _ _ => 0
  | .stagedKey _ _ => 0

/-- READOUT (R453): the next 64 bits of the frozen state are shifted out, in an order that is not given, so which bits they
are is free (notes/assumptions/99); before a successful UNLOCK they are zeros, and nothing is shifted while the device
runs. -/
def execReadout (s : State) : Host.Outcome State Fault Refusal :=
  if !s.tap.unlocked then
    .next { s with tap := { s.tap with instr := .readout, out := List.replicate 64 false } }
  else if !s.frozen then .next { s with tap := { s.tap with instr := .readout, out := [] } }
  else
    let x := s.scan (Config.scanCell s.tap.pos)
    .next { s with tap := { s.tap with instr := .readout, out := (List.range 64).map (fun i => bit x i)
                                       pos := s.tap.pos + 1 } }

end Sys2Proof.Machine
end

