-- ==== Sys2Proof/Machine/VIssue.lean ====
section
/-! DEFINITION. The push of vector, matrix and sorus instructions into the queue (02_machine R20; 06_vector): each
captures its scalar operands in program order, and the vector unit then goes on as far as it can. -/

namespace Sys2Proof.Machine

/-- The registers that the entry will write are busy from the push on (06_vector R143). -/
def Hart.markBusy (h : Hart) (ws : List SReg) : Hart :=
  { h with busy := (ws.filter (fun r => decide (r ≠ 0))).foldl (fun b r => insertNat b r.toNat) h.busy }

/-- The push of an entry by the moving hart. -/
def State.pushEntry (s : State) (i : Instr) (ops : List Word) (writes : List SReg) : State :=
  let c := s.myCtx
  let s1 := s.withMyCtx { c with viq := c.viq ++ [c.entry i s.me.pc ops s.outside] }
  s1.withMe (s1.me.markBusy writes)

/-- An instruction of n bytes that enters the queue: on the compute hart only (detail 7), after the checks that the
front end makes; it waits while the queue is full. -/
def issueV (i : Instr) (n : Nat) (reads writes : List SReg) (early late : State → Option Trap) (s : State) :
    Host.Outcome State Fault Refusal :=
  match early s with
  | some t => (Res.trap t s).outcome
  | none =>
    onlyOn [.ch] (framed reads writes (fun s =>
      match late s with
      | some t => .trap t s
      | none =>
        if s.myCtx.viq.length < Config.viqCap then
          .done (drain ((s.pushEntry i (reads.map s.readS) writes).advance n))
        else .wait false s)) s

/-- No check. -/
def noCheck (_ : State) : Option Trap := none

/-- An accumulator a4–a7 in HALF mode (03_encoding R50, detail 8; found at decode, R51). -/
def halfTile (t : AReg) (s : State) : Option Trap :=
  if 4 ≤ t.toNat ∧ !s.myCtx.full then some (illegal s 8 0) else none

/-- A channel that this hart may not send on (07_matrix R161, R166). -/
def cannotSend (parcel : Nat) (ch : Nat) (s : State) : Option Trap :=
  if s.sends ch then none else some (illegal s 5 parcel)
/-- A channel that this hart may not receive from (R161, R166). -/
def cannotReceive (parcel : Nat) (ch : Nat) (s : State) : Option Trap :=
  if s.receives ch then none else some (illegal s 5 parcel)

/-- The channels of a scan's carries (R161). -/
def carryChannels (cin : CarryIn) (cout : CarryOut) (s : State) : Option Trap :=
  match (match cin with | .channel c => cannotReceive 1 c.toNat s | _ => none) with
  | some t => some t
  | none => match cout with | .channel c => cannotSend 1 c.toNat s | _ => none

/-- CHSEND (R170): into the queue. -/
def execChsend (c : BitVec 5) (a : VReg) (s : State) : Host.Outcome State Fault Refusal :=
  issueV (.chsend c a) 4 [] [] (cannotSend 0 c.toNat) noCheck s
/-- CHRECV (R171): into the queue. -/
def execChrecv (d : VReg) (c : BitVec 5) (s : State) : Host.Outcome State Fault Refusal :=
  issueV (.chrecv d c) 4 [] [] (cannotReceive 0 c.toNat) noCheck s
/-- VADD (R125): into the queue. -/
def execVadd (xs : BitVec 1) (k : MReg) (d : VReg) (a : VReg) (b : BitVec 5) (s : State) : Host.Outcome State Fault Refusal :=
  issueV (.vadd xs k d a b) 4 (if xs = 1 then [b] else []) [] noCheck noCheck s
/-- VSUB (R125): into the queue. -/
def execVsub (xs : BitVec 1) (k : MReg) (d : VReg) (a : VReg) (b : BitVec 5) (s : State) : Host.Outcome State Fault Refusal :=
  issueV (.vsub xs k d a b) 4 (if xs = 1 then [b] else []) [] noCheck noCheck s
/-- VMUL (R125): into the queue. -/
def execVmul (xs : BitVec 1) (k : MReg) (d : VReg) (a : VReg) (b : BitVec 5) (s : State) : Host.Outcome State Fault Refusal :=
  issueV (.vmul xs k d a b) 4 (if xs = 1 then [b] else []) [] noCheck noCheck s
/-- VDIV (R125): into the queue. -/
def execVdiv (xs : BitVec 1) (k : MReg) (d : VReg) (a : VReg) (b : BitVec 5) (s : State) : Host.Outcome State Fault Refusal :=
  issueV (.vdiv xs k d a b) 4 (if xs = 1 then [b] else []) [] noCheck noCheck s
/-- VMIN (R125): into the queue. -/
def execVmin (xs : BitVec 1) (k : MReg) (d : VReg) (a : VReg) (b : BitVec 5) (s : State) : Host.Outcome State Fault Refusal :=
  issueV (.vmin xs k d a b) 4 (if xs = 1 then [b] else []) [] noCheck noCheck s
/-- VMAX (R125): into the queue. -/
def execVmax (xs : BitVec 1) (k : MReg) (d : VReg) (a : VReg) (b : BitVec 5) (s : State) : Host.Outcome State Fault Refusal :=
  issueV (.vmax xs k d a b) 4 (if xs = 1 then [b] else []) [] noCheck noCheck s
/-- VAND (R126): into the queue. -/
def execVand (xs : BitVec 1) (k : MReg) (d : VReg) (a : VReg) (b : BitVec 5) (s : State) : Host.Outcome State Fault Refusal :=
  issueV (.vand xs k d a b) 4 (if xs = 1 then [b] else []) [] noCheck noCheck s
/-- VOR (R126): into the queue. -/
def execVor (xs : BitVec 1) (k : MReg) (d : VReg) (a : VReg) (b : BitVec 5) (s : State) : Host.Outcome State Fault Refusal :=
  issueV (.vor xs k d a b) 4 (if xs = 1 then [b] else []) [] noCheck noCheck s
/-- VXOR (R126): into the queue. -/
def execVxor (xs : BitVec 1) (k : MReg) (d : VReg) (a : VReg) (b : BitVec 5) (s : State) : Host.Outcome State Fault Refusal :=
  issueV (.vxor xs k d a b) 4 (if xs = 1 then [b] else []) [] noCheck noCheck s
/-- VSLL (R126): into the queue. -/
def execVsll (xs : BitVec 1) (k : MReg) (d : VReg) (a : VReg) (b : BitVec 5) (s : State) : Host.Outcome State Fault Refusal :=
  issueV (.vsll xs k d a b) 4 (if xs = 1 then [b] else []) [] noCheck noCheck s
/-- VSRL (R126): into the queue. -/
def execVsrl (xs : BitVec 1) (k : MReg) (d : VReg) (a : VReg) (b : BitVec 5) (s : State) : Host.Outcome State Fault Refusal :=
  issueV (.vsrl xs k d a b) 4 (if xs = 1 then [b] else []) [] noCheck noCheck s
/-- VSRA (R126): into the queue. -/
def execVsra (xs : BitVec 1) (k : MReg) (d : VReg) (a : VReg) (b : BitVec 5) (s : State) : Host.Outcome State Fault Refusal :=
  issueV (.vsra xs k d a b) 4 (if xs = 1 then [b] else []) [] noCheck noCheck s
/-- VFMA (R125): into the queue. -/
def execVfma (xs : BitVec 1) (k : MReg) (d : VReg) (a : VReg) (b : BitVec 5) (s : State) : Host.Outcome State Fault Refusal :=
  issueV (.vfma xs k d a b) 4 (if xs = 1 then [b] else []) [] noCheck noCheck s
/-- VFMS (R125): into the queue. -/
def execVfms (xs : BitVec 1) (k : MReg) (d : VReg) (a : VReg) (b : BitVec 5) (s : State) : Host.Outcome State Fault Refusal :=
  issueV (.vfms xs k d a b) 4 (if xs = 1 then [b] else []) [] noCheck noCheck s
/-- VABS (R127): into the queue. -/
def execVabs (k : MReg) (d : VReg) (a : VReg) (s : State) : Host.Outcome State Fault Refusal :=
  issueV (.vabs k d a) 4 [] [] noCheck noCheck s
/-- VNEG (R127): into the queue. -/
def execVneg (k : MReg) (d : VReg) (a : VReg) (s : State) : Host.Outcome State Fault Refusal :=
  issueV (.vneg k d a) 4 [] [] noCheck noCheck s
/-- VSQRT (R127): into the queue. -/
def execVsqrt (k : MReg) (d : VReg) (a : VReg) (s : State) : Host.Outcome State Fault Refusal :=
  issueV (.vsqrt k d a) 4 [] [] noCheck noCheck s
/-- VRCP (R127): into the queue. -/
def execVrcp (k : MReg) (d : VReg) (a : VReg) (s : State) : Host.Outcome State Fault Refusal :=
  issueV (.vrcp k d a) 4 [] [] noCheck noCheck s
/-- VRSQ (R127): into the queue. -/
def execVrsq (k : MReg) (d : VReg) (a : VReg) (s : State) : Host.Outcome State Fault Refusal :=
  issueV (.vrsq k d a) 4 [] [] noCheck noCheck s
/-- VEXP2 (R127): into the queue. -/
def execVexp2 (k : MReg) (d : VReg) (a : VReg) (s : State) : Host.Outcome State Fault Refusal :=
  issueV (.vexp2 k d a) 4 [] [] noCheck noCheck s
/-- VLOG2 (R127): into the queue. -/
def execVlog2 (k : MReg) (d : VReg) (a : VReg) (s : State) : Host.Outcome State Fault Refusal :=
  issueV (.vlog2 k d a) 4 [] [] noCheck noCheck s
/-- VTANH (R127): into the queue. -/
def execVtanh (k : MReg) (d : VReg) (a : VReg) (s : State) : Host.Outcome State Fault Refusal :=
  issueV (.vtanh k d a) 4 [] [] noCheck noCheck s
/-- VSIGM (R127): into the queue. -/
def execVsigm (k : MReg) (d : VReg) (a : VReg) (s : State) : Host.Outcome State Fault Refusal :=
  issueV (.vsigm k d a) 4 [] [] noCheck noCheck s
/-- VMOV (R128): into the queue. -/
def execVmov (k : MReg) (d : VReg) (a : VReg) (s : State) : Host.Outcome State Fault Refusal :=
  issueV (.vmov k d a) 4 [] [] noCheck noCheck s
/-- VCEQ (R129): into the queue. -/
def execVceq (xs : BitVec 1) (k : MReg) (d : MReg) (a : VReg) (b : BitVec 5) (s : State) : Host.Outcome State Fault Refusal :=
  issueV (.vceq xs k d a b) 4 (if xs = 1 then [b] else []) [] noCheck noCheck s
/-- VCNE (R129): into the queue. -/
def execVcne (xs : BitVec 1) (k : MReg) (d : MReg) (a : VReg) (b : BitVec 5) (s : State) : Host.Outcome State Fault Refusal :=
  issueV (.vcne xs k d a b) 4 (if xs = 1 then [b] else []) [] noCheck noCheck s
/-- VCLT (R129): into the queue. -/
def execVclt (xs : BitVec 1) (k : MReg) (d : MReg) (a : VReg) (b : BitVec 5) (s : State) : Host.Outcome State Fault Refusal :=
  issueV (.vclt xs k d a b) 4 (if xs = 1 then [b] else []) [] noCheck noCheck s
/-- VCLE (R129): into the queue. -/
def execVcle (xs : BitVec 1) (k : MReg) (d : MReg) (a : VReg) (b : BitVec 5) (s : State) : Host.Outcome State Fault Refusal :=
  issueV (.vcle xs k d a b) 4 (if xs = 1 then [b] else []) [] noCheck noCheck s
/-- VCGT (R129): into the queue. -/
def execVcgt (xs : BitVec 1) (k : MReg) (d : MReg) (a : VReg) (b : BitVec 5) (s : State) : Host.Outcome State Fault Refusal :=
  issueV (.vcgt xs k d a b) 4 (if xs = 1 then [b] else []) [] noCheck noCheck s
/-- VCGE (R129): into the queue. -/
def execVcge (xs : BitVec 1) (k : MReg) (d : MReg) (a : VReg) (b : BitVec 5) (s : State) : Host.Outcome State Fault Refusal :=
  issueV (.vcge xs k d a b) 4 (if xs = 1 then [b] else []) [] noCheck noCheck s
/-- MAND (R130): into the queue. -/
def execMand (d : MReg) (a : MReg) (b : MReg) (s : State) : Host.Outcome State Fault Refusal :=
  issueV (.mand d a b) 4 [] [] noCheck noCheck s
/-- MOR (R130): into the queue. -/
def execMor (d : MReg) (a : MReg) (b : MReg) (s : State) : Host.Outcome State Fault Refusal :=
  issueV (.mor d a b) 4 [] [] noCheck noCheck s
/-- MXOR (R130): into the queue. -/
def execMxor (d : MReg) (a : MReg) (b : MReg) (s : State) : Host.Outcome State Fault Refusal :=
  issueV (.mxor d a b) 4 [] [] noCheck noCheck s
/-- MNOT (R130): into the queue. -/
def execMnot (d : MReg) (a : MReg) (s : State) : Host.Outcome State Fault Refusal :=
  issueV (.mnot d a) 4 [] [] noCheck noCheck s
/-- VMERGE (R131): into the queue. -/
def execVmerge (xs : BitVec 1) (k : MReg) (d : VReg) (a : VReg) (b : BitVec 5) (s : State) : Host.Outcome State Fault Refusal :=
  issueV (.vmerge xs k d a b) 4 (if xs = 1 then [b] else []) [] noCheck noCheck s
/-- VCVT (R132): into the queue. -/
def execVcvt (k : MReg) (d : VReg) (a : VReg) (s : State) : Host.Outcome State Fault Refusal :=
  issueV (.vcvt k d a) 4 [] [] noCheck noCheck s
/-- VQNT (R133): into the queue. -/
def execVqnt (k : MReg) (d : VReg) (a : VReg) (s : State) : Host.Outcome State Fault Refusal :=
  issueV (.vqnt k d a) 4 [] [] noCheck noCheck s
/-- VHAD (R160): into the queue. -/
def execVhad (d : VReg) (a : VReg) (b : BitVec 5) (s : State) : Host.Outcome State Fault Refusal :=
  issueV (.vhad d a b) 4 [] [] noCheck noCheck s
/-- VTAG (R113): into the queue. -/
def execVtag (sc : BitVec 1) (blk : BitVec 3) (bank : BitVec 2) (type : BitVec 6) (d : VReg) (s : State) : Host.Outcome State Fault Refusal :=
  issueV (.vtag sc blk bank type d) 4 [] [] noCheck noCheck s
/-- VLD (R135): into the queue. -/
def execVld (k : MReg) (d : VReg) (a : SReg) (s : State) : Host.Outcome State Fault Refusal :=
  issueV (.vld k d a) 4 [a] [] noCheck noCheck s
/-- VST (R135): into the queue. -/
def execVst (k : MReg) (d : VReg) (a : SReg) (s : State) : Host.Outcome State Fault Refusal :=
  issueV (.vst k d a) 4 [a] [] noCheck noCheck s
/-- VLDS (R135): into the queue. -/
def execVlds (k : MReg) (d : VReg) (a : SReg) (b : SReg) (s : State) : Host.Outcome State Fault Refusal :=
  issueV (.vlds k d a b) 4 [a, b] [] noCheck noCheck s
/-- VSTS (R135): into the queue. -/
def execVsts (k : MReg) (d : VReg) (a : SReg) (b : SReg) (s : State) : Host.Outcome State Fault Refusal :=
  issueV (.vsts k d a b) 4 [a, b] [] noCheck noCheck s
/-- VLDX (R136): into the queue. -/
def execVldx (k : MReg) (d : VReg) (a : SReg) (b : VReg) (s : State) : Host.Outcome State Fault Refusal :=
  issueV (.vldx k d a b) 4 [a] [] noCheck noCheck s
/-- VLDFF (R137): into the queue. -/
def execVldff (k : MReg) (d : VReg) (a : SReg) (s : State) : Host.Outcome State Fault Refusal :=
  issueV (.vldff k d a) 4 [a] [] noCheck noCheck s
/-- VSCADD (R138): into the queue. -/
def execVscadd (k : MReg) (d : VReg) (a : SReg) (b : VReg) (s : State) : Host.Outcome State Fault Refusal :=
  issueV (.vscadd k d a b) 4 [a] [] noCheck noCheck s
/-- VSPILL (R120): into the queue. -/
def execVspill (d : VReg) (a : SReg) (s : State) : Host.Outcome State Fault Refusal :=
  issueV (.vspill d a) 4 [a] [] noCheck noCheck s
/-- VRELOAD (R120): into the queue. -/
def execVreload (d : VReg) (a : SReg) (s : State) : Host.Outcome State Fault Refusal :=
  issueV (.vreload d a) 4 [a] [] noCheck noCheck s
/-- VLENQ (R120): into the queue. -/
def execVlenq (d : SReg) (s : State) : Host.Outcome State Fault Refusal :=
  issueV (.vlenq d) 4 [] [d] noCheck noCheck s
/-- SCLD (R159): into the queue. -/
def execScld (d : KReg) (a : SReg) (b : SReg) (s : State) : Host.Outcome State Fault Refusal :=
  issueV (.scld d a b) 4 [a, b] [] noCheck noCheck s
/-- VSLIDEUP (R140): into the queue. -/
def execVslideup (k : MReg) (d : VReg) (a : VReg) (b : SReg) (s : State) : Host.Outcome State Fault Refusal :=
  issueV (.vslideup k d a b) 4 [b] [] noCheck noCheck s
/-- VSLIDEDN (R140): into the queue. -/
def execVslidedn (k : MReg) (d : VReg) (a : VReg) (b : SReg) (s : State) : Host.Outcome State Fault Refusal :=
  issueV (.vslidedn k d a b) 4 [b] [] noCheck noCheck s
/-- VSHUF (R141): into the queue. -/
def execVshuf (xs : BitVec 1) (k : MReg) (d : VReg) (a : VReg) (b : BitVec 5) (s : State) : Host.Outcome State Fault Refusal :=
  issueV (.vshuf xs k d a b) 4 (if xs = 1 then [b] else []) [] noCheck noCheck s
/-- VCOMPRESS (R142): into the queue. -/
def execVcompress (k : MReg) (d : VReg) (a : VReg) (s : State) : Host.Outcome State Fault Refusal :=
  issueV (.vcompress k d a) 4 [] [] noCheck noCheck s
/-- VSPLAT (R143): into the queue. -/
def execVsplat (k : MReg) (d : VReg) (a : SReg) (s : State) : Host.Outcome State Fault Refusal :=
  issueV (.vsplat k d a) 4 [a] [] noCheck noCheck s
/-- VINS (R143): into the queue. -/
def execVins (d : VReg) (a : SReg) (b : SReg) (s : State) : Host.Outcome State Fault Refusal :=
  issueV (.vins d a b) 4 [a, b] [] noCheck noCheck s
/-- VEXT (R143): into the queue. -/
def execVext (d : SReg) (a : VReg) (b : SReg) (s : State) : Host.Outcome State Fault Refusal :=
  issueV (.vext d a b) 4 [b] [d] noCheck noCheck s
/-- VRED_SUM (R144): into the queue. -/
def execVredSum (k : MReg) (d : VReg) (a : VReg) (s : State) : Host.Outcome State Fault Refusal :=
  issueV (.vredSum k d a) 4 [] [] noCheck noCheck s
/-- VRED_MIN (R144): into the queue. -/
def execVredMin (k : MReg) (d : VReg) (a : VReg) (s : State) : Host.Outcome State Fault Refusal :=
  issueV (.vredMin k d a) 4 [] [] noCheck noCheck s
/-- VRED_MAX (R144): into the queue. -/
def execVredMax (k : MReg) (d : VReg) (a : VReg) (s : State) : Host.Outcome State Fault Refusal :=
  issueV (.vredMax k d a) 4 [] [] noCheck noCheck s
/-- VRED_AND (R144): into the queue. -/
def execVredAnd (k : MReg) (d : VReg) (a : VReg) (s : State) : Host.Outcome State Fault Refusal :=
  issueV (.vredAnd k d a) 4 [] [] noCheck noCheck s
/-- VRED_OR (R144): into the queue. -/
def execVredOr (k : MReg) (d : VReg) (a : VReg) (s : State) : Host.Outcome State Fault Refusal :=
  issueV (.vredOr k d a) 4 [] [] noCheck noCheck s
/-- VRED_XOR (R144): into the queue. -/
def execVredXor (k : MReg) (d : VReg) (a : VReg) (s : State) : Host.Outcome State Fault Refusal :=
  issueV (.vredXor k d a) 4 [] [] noCheck noCheck s
/-- VRED_MINI (R144): into the queue. -/
def execVredMini (k : MReg) (d : VReg) (a : VReg) (s : State) : Host.Outcome State Fault Refusal :=
  issueV (.vredMini k d a) 4 [] [] noCheck noCheck s
/-- VRED_MAXI (R144): into the queue. -/
def execVredMaxi (k : MReg) (d : VReg) (a : VReg) (s : State) : Host.Outcome State Fault Refusal :=
  issueV (.vredMaxi k d a) 4 [] [] noCheck noCheck s
/-- VSCAN_ADD (R164): into the queue. -/
def execVscanAdd (k : MReg) (d : VReg) (a : VReg) (cin : CarryIn) (cout : CarryOut) (s : State) : Host.Outcome State Fault Refusal :=
  issueV (.vscanAdd k d a cin cout) 8 (carryInOps cin) (carryOutRegs cout) (carryChannels cin cout) noCheck s
/-- VSCAN_MAX (R164): into the queue. -/
def execVscanMax (k : MReg) (d : VReg) (a : VReg) (cin : CarryIn) (cout : CarryOut) (s : State) : Host.Outcome State Fault Refusal :=
  issueV (.vscanMax k d a cin cout) 8 (carryInOps cin) (carryOutRegs cout) (carryChannels cin cout) noCheck s
/-- VSCAN_MIN (R164): into the queue. -/
def execVscanMin (k : MReg) (d : VReg) (a : VReg) (cin : CarryIn) (cout : CarryOut) (s : State) : Host.Outcome State Fault Refusal :=
  issueV (.vscanMin k d a cin cout) 8 (carryInOps cin) (carryOutRegs cout) (carryChannels cin cout) noCheck s
/-- VSCAN_LIN (R164): into the queue. -/
def execVscanLin (k : MReg) (d : VReg) (a : VReg) (b : VReg) (cin : CarryIn) (cout : CarryOut) (s : State) : Host.Outcome State Fault Refusal :=
  issueV (.vscanLin k d a b cin cout) 8 (carryInOps cin) (carryOutRegs cout) (carryChannels cin cout) noCheck s
/-- MOP (R150): into the queue. -/
def execMop (k : MReg) (d : AReg) (a : VReg) (b : VReg) (cmask : MReg) (s : State) : Host.Outcome State Fault Refusal :=
  issueV (.mop k d a b cmask) 8 [] [] noCheck (halfTile d) s
/-- MZERO (R152): into the queue. -/
def execMzero (d : AReg) (s : State) : Host.Outcome State Fault Refusal :=
  issueV (.mzero d) 8 [] [] noCheck (halfTile d) s
/-- MROW (R153): into the queue. -/
def execMrow (k : MReg) (d : VReg) (a : AReg) (row : BitVec 7) (s : State) : Host.Outcome State Fault Refusal :=
  issueV (.mrow k d a row) 8 [] [] noCheck (halfTile a) s
/-- MCOL (R153): into the queue. -/
def execMcol (k : MReg) (d : VReg) (a : AReg) (row : BitVec 7) (s : State) : Host.Outcome State Fault Refusal :=
  issueV (.mcol k d a row) 8 [] [] noCheck (halfTile a) s
/-- MWROW (R154): into the queue. -/
def execMwrow (d : AReg) (a : VReg) (row : BitVec 7) (s : State) : Host.Outcome State Fault Refusal :=
  issueV (.mwrow d a row) 8 [] [] noCheck (halfTile d) s
/-- DADD (R187): into the queue. -/
def execDadd (d : DReg) (a : DReg) (b : DReg) (s : State) : Host.Outcome State Fault Refusal :=
  issueV (.dadd d a b) 4 [] [] noCheck noCheck s
/-- DSUB (R187): into the queue. -/
def execDsub (d : DReg) (a : DReg) (b : DReg) (s : State) : Host.Outcome State Fault Refusal :=
  issueV (.dsub d a b) 4 [] [] noCheck noCheck s
/-- DMUL (R187): into the queue. -/
def execDmul (d : DReg) (a : DReg) (b : DReg) (s : State) : Host.Outcome State Fault Refusal :=
  issueV (.dmul d a b) 4 [] [] noCheck noCheck s
/-- DMIN (R187): into the queue. -/
def execDmin (d : DReg) (a : DReg) (b : DReg) (s : State) : Host.Outcome State Fault Refusal :=
  issueV (.dmin d a b) 4 [] [] noCheck noCheck s
/-- DMAX (R187): into the queue. -/
def execDmax (d : DReg) (a : DReg) (b : DReg) (s : State) : Host.Outcome State Fault Refusal :=
  issueV (.dmax d a b) 4 [] [] noCheck noCheck s
/-- DFMA (R187): into the queue. -/
def execDfma (d : DReg) (a : DReg) (b : DReg) (s : State) : Host.Outcome State Fault Refusal :=
  issueV (.dfma d a b) 4 [] [] noCheck noCheck s
/-- DAFF (R188): into the queue. -/
def execDaff (xs : BitVec 1) (d : DReg) (a : DReg) (b : BitVec 5) (s : State) : Host.Outcome State Fault Refusal :=
  issueV (.daff xs d a b) 4 (if xs = 1 then [b, b + 1] else []) [] noCheck noCheck s
/-- DPT (R189): into the queue. -/
def execDpt (d : DReg) (a : VReg) (s : State) : Host.Outcome State Fault Refusal :=
  issueV (.dpt d a) 4 [] [] noCheck noCheck s
/-- DSET (R189): into the queue. -/
def execDset (d : DReg) (a : VReg) (b : BitVec 5) (s : State) : Host.Outcome State Fault Refusal :=
  issueV (.dset d a b) 4 [] [] noCheck noCheck s
/-- DGET (R189): into the queue. -/
def execDget (d : VReg) (a : DReg) (b : BitVec 5) (s : State) : Host.Outcome State Fault Refusal :=
  issueV (.dget d a b) 4 [] [] noCheck noCheck s
/-- DTAG (R189): into the queue. -/
def execDtag (d : DReg) (a : SReg) (s : State) : Host.Outcome State Fault Refusal :=
  issueV (.dtag d a) 4 [a] [] noCheck noCheck s
/-- DMOM (R190): into the queue. -/
def execDmom (d : VReg) (a : DReg) (b : BitVec 5) (s : State) : Host.Outcome State Fault Refusal :=
  issueV (.dmom d a b) 4 [] [] noCheck noCheck s
/-- DQNT (R191): into the queue. -/
def execDqnt (d : VReg) (a : DReg) (b : VReg) (s : State) : Host.Outcome State Fault Refusal :=
  issueV (.dqnt d a b) 4 [] [] noCheck noCheck s
/-- DCDF (R191): into the queue. -/
def execDcdf (d : VReg) (a : DReg) (b : VReg) (s : State) : Host.Outcome State Fault Refusal :=
  issueV (.dcdf d a b) 4 [] [] noCheck noCheck s
/-- DLD (R192): into the queue. -/
def execDld (d : DReg) (a : SReg) (s : State) : Host.Outcome State Fault Refusal :=
  issueV (.dld d a) 4 [a] [] noCheck noCheck s
/-- DST (R192): into the queue. -/
def execDst (d : DReg) (a : SReg) (s : State) : Host.Outcome State Fault Refusal :=
  issueV (.dst d a) 4 [a] [] noCheck noCheck s
/-- FMTSET (R68): into the queue. -/
def execFmtset (nf : BitVec 3) (a : SReg) (s : State) : Host.Outcome State Fault Refusal :=
  issueV (.fmtset nf a) 4 [a] [] noCheck noCheck s

/-- SBIND (10_copies R248): on the compute hart through the queue, on the fetch hart at once. -/
def execSbind (d : VReg) (a : SReg) (s : State) : Host.Outcome State Fault Refusal :=
  if s.cur.kind = .ch then issueV (.sbind d a) 4 [a] [] noCheck noCheck s
  else
    onlyOn [.ch, .fh] (scalar [a] [] (impureOnly 7 (fun s =>
      bindStream d (s.readS a).toNat (fun n => illegal s n 0) (fun s => .done (s.advance 4)) s))) s

/-- SFREE (10_copies R248). -/
def execSfree (d : VReg) (s : State) : Host.Outcome State Fault Refusal :=
  if s.cur.kind = .ch then issueV (.sfree d) 4 [] [] noCheck noCheck s
  else onlyOn [.ch, .fh] (scalar [] [] (fun s => .done ((s.withMyCtx (s.myCtx.unbind d)).advance 4))) s

end Sys2Proof.Machine
end

