-- ==== Sys2Proof/Machine/Dispatch.lean ====
section
/-! DEFINITION. The meaning of an instruction: one direct call an arm. -/

namespace Sys2Proof.Machine

/-- What an instruction does in a state. -/
def exec (i : Instr) (s : State) : Host.Outcome State Fault Refusal :=
  match i with
  | .add d a b => Sys2Proof.Machine.execAdd d a b s
  | .sub d a b => Sys2Proof.Machine.execSub d a b s
  | .and d a b => Sys2Proof.Machine.execAnd d a b s
  | .or d a b => Sys2Proof.Machine.execOr d a b s
  | .xor d a b => Sys2Proof.Machine.execXor d a b s
  | .sll d a b => Sys2Proof.Machine.execSll d a b s
  | .srl d a b => Sys2Proof.Machine.execSrl d a b s
  | .sra d a b => Sys2Proof.Machine.execSra d a b s
  | .setlt d a b => Sys2Proof.Machine.execSetlt d a b s
  | .setltu d a b => Sys2Proof.Machine.execSetltu d a b s
  | .min d a b => Sys2Proof.Machine.execMin d a b s
  | .max d a b => Sys2Proof.Machine.execMax d a b s
  | .minu d a b => Sys2Proof.Machine.execMinu d a b s
  | .maxu d a b => Sys2Proof.Machine.execMaxu d a b s
  | .andn d a b => Sys2Proof.Machine.execAndn d a b s
  | .orn d a b => Sys2Proof.Machine.execOrn d a b s
  | .rol d a b => Sys2Proof.Machine.execRol d a b s
  | .ror d a b => Sys2Proof.Machine.execRor d a b s
  | .mul d a b => Sys2Proof.Machine.execMul d a b s
  | .mulhiSs d a b => Sys2Proof.Machine.execMulhiSs d a b s
  | .mulhiUu d a b => Sys2Proof.Machine.execMulhiUu d a b s
  | .mulhiSu d a b => Sys2Proof.Machine.execMulhiSu d a b s
  | .div d a b => Sys2Proof.Machine.execDiv d a b s
  | .divu d a b => Sys2Proof.Machine.execDivu d a b s
  | .rem d a b => Sys2Proof.Machine.execRem d a b s
  | .remu d a b => Sys2Proof.Machine.execRemu d a b s
  | .pmul d a b => Sys2Proof.Machine.execPmul d a b s
  | .pmulhi d a b => Sys2Proof.Machine.execPmulhi d a b s
  | .popc d a => Sys2Proof.Machine.execPopc d a s
  | .clz d a => Sys2Proof.Machine.execClz d a s
  | .ctz d a => Sys2Proof.Machine.execCtz d a s
  | .brev d a => Sys2Proof.Machine.execBrev d a s
  | .bswap d a => Sys2Proof.Machine.execBswap d a s
  | .addi d a imm => Sys2Proof.Machine.execAddi d a imm s
  | .andi d a imm => Sys2Proof.Machine.execAndi d a imm s
  | .ori d a imm => Sys2Proof.Machine.execOri d a imm s
  | .xori d a imm => Sys2Proof.Machine.execXori d a imm s
  | .setlti d a imm => Sys2Proof.Machine.execSetlti d a imm s
  | .setltiu d a imm => Sys2Proof.Machine.execSetltiu d a imm s
  | .slli d a sh => Sys2Proof.Machine.execSlli d a sh s
  | .srli d a sh => Sys2Proof.Machine.execSrli d a sh s
  | .srai d a sh => Sys2Proof.Machine.execSrai d a sh s
  | .rori d a sh => Sys2Proof.Machine.execRori d a sh s
  | .bext d a offset width => Sys2Proof.Machine.execBext d a offset width s
  | .bexts d a offset width => Sys2Proof.Machine.execBexts d a offset width s
  | .bins d a offset width => Sys2Proof.Machine.execBins d a offset width s
  | .li d imm => Sys2Proof.Machine.execLi d imm s
  | .li64 d imm => Sys2Proof.Machine.execLi64 d imm s
  | .li96 d lo hi => Sys2Proof.Machine.execLi96 d lo hi s
  | .la d imm => Sys2Proof.Machine.execLa d imm s
  | .beq a b off => Sys2Proof.Machine.execBeq a b off s
  | .bne a b off => Sys2Proof.Machine.execBne a b off s
  | .blt a b off => Sys2Proof.Machine.execBlt a b off s
  | .bge a b off => Sys2Proof.Machine.execBge a b off s
  | .bltu a b off => Sys2Proof.Machine.execBltu a b off s
  | .bgeu a b off => Sys2Proof.Machine.execBgeu a b off s
  | .jal d imm => Sys2Proof.Machine.execJal d imm s
  | .jalr d a imm => Sys2Proof.Machine.execJalr d a imm s
  | .lb d a off => Sys2Proof.Machine.execLb d a off s
  | .lh d a off => Sys2Proof.Machine.execLh d a off s
  | .lw d a off => Sys2Proof.Machine.execLw d a off s
  | .ld d a off => Sys2Proof.Machine.execLd d a off s
  | .lbu d a off => Sys2Proof.Machine.execLbu d a off s
  | .lhu d a off => Sys2Proof.Machine.execLhu d a off s
  | .lwu d a off => Sys2Proof.Machine.execLwu d a off s
  | .sb d a off => Sys2Proof.Machine.execSb d a off s
  | .sh d a off => Sys2Proof.Machine.execSh d a off s
  | .sw d a off => Sys2Proof.Machine.execSw d a off s
  | .st d a off => Sys2Proof.Machine.execSt d a off s
  | .stLocal d a off => Sys2Proof.Machine.execStLocal d a off s
  | .lbL d a off => Sys2Proof.Machine.execLbL d a off s
  | .lhL d a off => Sys2Proof.Machine.execLhL d a off s
  | .lwL d a off => Sys2Proof.Machine.execLwL d a off s
  | .ldL d a off => Sys2Proof.Machine.execLdL d a off s
  | .lbuL d a off => Sys2Proof.Machine.execLbuL d a off s
  | .lhuL d a off => Sys2Proof.Machine.execLhuL d a off s
  | .lwuL d a off => Sys2Proof.Machine.execLwuL d a off s
  | .sbL d a off => Sys2Proof.Machine.execSbL d a off s
  | .shL d a off => Sys2Proof.Machine.execShL d a off s
  | .swL d a off => Sys2Proof.Machine.execSwL d a off s
  | .stL d a off => Sys2Proof.Machine.execStL d a off s
  | .stLocalL d a off => Sys2Proof.Machine.execStLocalL d a off s
  | .atomSwap ord d a b => Sys2Proof.Machine.execAtomSwap ord d a b s
  | .atomAdd ord d a b => Sys2Proof.Machine.execAtomAdd ord d a b s
  | .atomAnd ord d a b => Sys2Proof.Machine.execAtomAnd ord d a b s
  | .atomOr ord d a b => Sys2Proof.Machine.execAtomOr ord d a b s
  | .atomXor ord d a b => Sys2Proof.Machine.execAtomXor ord d a b s
  | .atomMin ord d a b => Sys2Proof.Machine.execAtomMin ord d a b s
  | .atomMax ord d a b => Sys2Proof.Machine.execAtomMax ord d a b s
  | .atomMinu ord d a b => Sys2Proof.Machine.execAtomMinu ord d a b s
  | .atomMaxu ord d a b => Sys2Proof.Machine.execAtomMaxu ord d a b s
  | .atomCas ord d a b => Sys2Proof.Machine.execAtomCas ord d a b s
  | .ldAcq d a => Sys2Proof.Machine.execLdAcq d a s
  | .stRel a b => Sys2Proof.Machine.execStRel a b s
  | .waitv d a b => Sys2Proof.Machine.execWaitv d a b s
  | .psend a => Sys2Proof.Machine.execPsend a s
  | .precv d => Sys2Proof.Machine.execPrecv d s
  | .hbread d => Sys2Proof.Machine.execHbread d s
  | .hbwait a => Sys2Proof.Machine.execHbwait a s
  | .csrr d csr => Sys2Proof.Machine.execCsrr d csr s
  | .csrw csr a => Sys2Proof.Machine.execCsrw csr a s
  | .csrs csr a => Sys2Proof.Machine.execCsrs csr a s
  | .csrc csr a => Sys2Proof.Machine.execCsrc csr a s
  | .turn lvl d a b => Sys2Proof.Machine.execTurn lvl d a b s
  | .twait d a b timeout => Sys2Proof.Machine.execTwait d a b timeout s
  | .cpyin d a b sz bar vdst vg comp toa aoff boff => Sys2Proof.Machine.execCpyin d a b sz bar vdst vg comp toa aoff boff s
  | .cpyout d a b sz bar comp toa aoff boff => Sys2Proof.Machine.execCpyout d a b sz bar comp toa aoff boff s
  | .cpyreg d a b sz bar aux vg comp toa => Sys2Proof.Machine.execCpyreg d a b sz bar aux vg comp toa s
  | .cpyfold d a b sz bar fold ordered comp toa aoff boff => Sys2Proof.Machine.execCpyfold d a b sz bar fold ordered comp toa aoff boff s
  | .scpy d a b sz bar comp toa aoff boff => Sys2Proof.Machine.execScpy d a b sz bar comp toa aoff boff s
  | .exportPage d b => Sys2Proof.Machine.execExportPage d b s
  | .tcpyIn d a b bar comp toa t0 t1 t2 t3 aoff => Sys2Proof.Machine.execTcpyIn d a b bar comp toa t0 t1 t2 t3 aoff s
  | .tcpyOut d a b bar comp toa t0 t1 t2 t3 aoff => Sys2Proof.Machine.execTcpyOut d a b bar comp toa t0 t1 t2 t3 aoff s
  | .sbind d a => Sys2Proof.Machine.execSbind d a s
  | .sfree d => Sys2Proof.Machine.execSfree d s
  | .tspawn a => Sys2Proof.Machine.execTspawn a s
  | .tdep a b d => Sys2Proof.Machine.execTdep a b d s
  | .tdec a => Sys2Proof.Machine.execTdec a s
  | .sfarm a => Sys2Proof.Machine.execSfarm a s
  | .snext d => Sys2Proof.Machine.execSnext d s
  | .launch d a => Sys2Proof.Machine.execLaunch d a s
  | .tsusp a mask => Sys2Proof.Machine.execTsusp a mask s
  | .qcreate d a => Sys2Proof.Machine.execQcreate d a s
  | .qpush d a b => Sys2Proof.Machine.execQpush d a b s
  | .qpop d a b => Sys2Proof.Machine.execQpop d a b s
  | .qinfo d a => Sys2Proof.Machine.execQinfo d a s
  | .qclose a => Sys2Proof.Machine.execQclose a s
  | .barinit a b d => Sys2Proof.Machine.execBarinit a b d s
  | .bararr a => Sys2Proof.Machine.execBararr a s
  | .bartx a b => Sys2Proof.Machine.execBartx a b s
  | .barwait a => Sys2Proof.Machine.execBarwait a s
  | .bartest d a => Sys2Proof.Machine.execBartest d a s
  | .coll d a b => Sys2Proof.Machine.execColl d a b s
  | .cdreg d a b => Sys2Proof.Machine.execCdreg d a b s
  | .ruquery d a => Sys2Proof.Machine.execRuquery d a s
  | .ruinval a => Sys2Proof.Machine.execRuinval a s
  | .rustat d a => Sys2Proof.Machine.execRustat d a s
  | .ruflush a => Sys2Proof.Machine.execRuflush a s
  | .chsend c a => Sys2Proof.Machine.execChsend c a s
  | .chsendS c a => Sys2Proof.Machine.execChsendS c a s
  | .chrecv d c => Sys2Proof.Machine.execChrecv d c s
  | .chrecvS d c => Sys2Proof.Machine.execChrecvS d c s
  | .vadd xs k d a b => Sys2Proof.Machine.execVadd xs k d a b s
  | .vsub xs k d a b => Sys2Proof.Machine.execVsub xs k d a b s
  | .vmul xs k d a b => Sys2Proof.Machine.execVmul xs k d a b s
  | .vdiv xs k d a b => Sys2Proof.Machine.execVdiv xs k d a b s
  | .vmin xs k d a b => Sys2Proof.Machine.execVmin xs k d a b s
  | .vmax xs k d a b => Sys2Proof.Machine.execVmax xs k d a b s
  | .vand xs k d a b => Sys2Proof.Machine.execVand xs k d a b s
  | .vor xs k d a b => Sys2Proof.Machine.execVor xs k d a b s
  | .vxor xs k d a b => Sys2Proof.Machine.execVxor xs k d a b s
  | .vsll xs k d a b => Sys2Proof.Machine.execVsll xs k d a b s
  | .vsrl xs k d a b => Sys2Proof.Machine.execVsrl xs k d a b s
  | .vsra xs k d a b => Sys2Proof.Machine.execVsra xs k d a b s
  | .vfma xs k d a b => Sys2Proof.Machine.execVfma xs k d a b s
  | .vfms xs k d a b => Sys2Proof.Machine.execVfms xs k d a b s
  | .vabs k d a => Sys2Proof.Machine.execVabs k d a s
  | .vneg k d a => Sys2Proof.Machine.execVneg k d a s
  | .vsqrt k d a => Sys2Proof.Machine.execVsqrt k d a s
  | .vrcp k d a => Sys2Proof.Machine.execVrcp k d a s
  | .vrsq k d a => Sys2Proof.Machine.execVrsq k d a s
  | .vexp2 k d a => Sys2Proof.Machine.execVexp2 k d a s
  | .vlog2 k d a => Sys2Proof.Machine.execVlog2 k d a s
  | .vtanh k d a => Sys2Proof.Machine.execVtanh k d a s
  | .vsigm k d a => Sys2Proof.Machine.execVsigm k d a s
  | .vmov k d a => Sys2Proof.Machine.execVmov k d a s
  | .vceq xs k d a b => Sys2Proof.Machine.execVceq xs k d a b s
  | .vcne xs k d a b => Sys2Proof.Machine.execVcne xs k d a b s
  | .vclt xs k d a b => Sys2Proof.Machine.execVclt xs k d a b s
  | .vcle xs k d a b => Sys2Proof.Machine.execVcle xs k d a b s
  | .vcgt xs k d a b => Sys2Proof.Machine.execVcgt xs k d a b s
  | .vcge xs k d a b => Sys2Proof.Machine.execVcge xs k d a b s
  | .mand d a b => Sys2Proof.Machine.execMand d a b s
  | .mor d a b => Sys2Proof.Machine.execMor d a b s
  | .mxor d a b => Sys2Proof.Machine.execMxor d a b s
  | .mnot d a => Sys2Proof.Machine.execMnot d a s
  | .vmerge xs k d a b => Sys2Proof.Machine.execVmerge xs k d a b s
  | .vcvt k d a => Sys2Proof.Machine.execVcvt k d a s
  | .vqnt k d a => Sys2Proof.Machine.execVqnt k d a s
  | .vhad d a b => Sys2Proof.Machine.execVhad d a b s
  | .vtag sc blk bank type d => Sys2Proof.Machine.execVtag sc blk bank type d s
  | .vconf wid sat rm grp d a => Sys2Proof.Machine.execVconf wid sat rm grp d a s
  | .vconfR d a b => Sys2Proof.Machine.execVconfR d a b s
  | .vld k d a => Sys2Proof.Machine.execVld k d a s
  | .vst k d a => Sys2Proof.Machine.execVst k d a s
  | .vlds k d a b => Sys2Proof.Machine.execVlds k d a b s
  | .vsts k d a b => Sys2Proof.Machine.execVsts k d a b s
  | .vldx k d a b => Sys2Proof.Machine.execVldx k d a b s
  | .vldff k d a => Sys2Proof.Machine.execVldff k d a s
  | .vscadd k d a b => Sys2Proof.Machine.execVscadd k d a b s
  | .vspill d a => Sys2Proof.Machine.execVspill d a s
  | .vreload d a => Sys2Proof.Machine.execVreload d a s
  | .vlenq d => Sys2Proof.Machine.execVlenq d s
  | .scld d a b => Sys2Proof.Machine.execScld d a b s
  | .vslideup k d a b => Sys2Proof.Machine.execVslideup k d a b s
  | .vslidedn k d a b => Sys2Proof.Machine.execVslidedn k d a b s
  | .vshuf xs k d a b => Sys2Proof.Machine.execVshuf xs k d a b s
  | .vcompress k d a => Sys2Proof.Machine.execVcompress k d a s
  | .vsplat k d a => Sys2Proof.Machine.execVsplat k d a s
  | .vins d a b => Sys2Proof.Machine.execVins d a b s
  | .vext d a b => Sys2Proof.Machine.execVext d a b s
  | .vredSum k d a => Sys2Proof.Machine.execVredSum k d a s
  | .vredMin k d a => Sys2Proof.Machine.execVredMin k d a s
  | .vredMax k d a => Sys2Proof.Machine.execVredMax k d a s
  | .vredAnd k d a => Sys2Proof.Machine.execVredAnd k d a s
  | .vredOr k d a => Sys2Proof.Machine.execVredOr k d a s
  | .vredXor k d a => Sys2Proof.Machine.execVredXor k d a s
  | .vredMini k d a => Sys2Proof.Machine.execVredMini k d a s
  | .vredMaxi k d a => Sys2Proof.Machine.execVredMaxi k d a s
  | .vscanAdd k d a cin cout => Sys2Proof.Machine.execVscanAdd k d a cin cout s
  | .vscanMax k d a cin cout => Sys2Proof.Machine.execVscanMax k d a cin cout s
  | .vscanMin k d a cin cout => Sys2Proof.Machine.execVscanMin k d a cin cout s
  | .vscanLin k d a b cin cout => Sys2Proof.Machine.execVscanLin k d a b cin cout s
  | .mop k d a b cmask => Sys2Proof.Machine.execMop k d a b cmask s
  | .mzero d => Sys2Proof.Machine.execMzero d s
  | .mrow k d a row => Sys2Proof.Machine.execMrow k d a row s
  | .mcol k d a row => Sys2Proof.Machine.execMcol k d a row s
  | .mwrow d a row => Sys2Proof.Machine.execMwrow d a row s
  | .dadd d a b => Sys2Proof.Machine.execDadd d a b s
  | .dsub d a b => Sys2Proof.Machine.execDsub d a b s
  | .dmul d a b => Sys2Proof.Machine.execDmul d a b s
  | .dmin d a b => Sys2Proof.Machine.execDmin d a b s
  | .dmax d a b => Sys2Proof.Machine.execDmax d a b s
  | .dfma d a b => Sys2Proof.Machine.execDfma d a b s
  | .daff xs d a b => Sys2Proof.Machine.execDaff xs d a b s
  | .dpt d a => Sys2Proof.Machine.execDpt d a s
  | .dset d a b => Sys2Proof.Machine.execDset d a b s
  | .dget d a b => Sys2Proof.Machine.execDget d a b s
  | .dtag d a => Sys2Proof.Machine.execDtag d a s
  | .dmom d a b => Sys2Proof.Machine.execDmom d a b s
  | .dqnt d a b => Sys2Proof.Machine.execDqnt d a b s
  | .dcdf d a b => Sys2Proof.Machine.execDcdf d a b s
  | .dld d a => Sys2Proof.Machine.execDld d a s
  | .dst d a => Sys2Proof.Machine.execDst d a s
  | .fmtset nf a => Sys2Proof.Machine.execFmtset nf a s
  | .hint h => Sys2Proof.Machine.execHint h s
  | .hint64 h p1 => Sys2Proof.Machine.execHint64 h p1 s
  | .hint96 h p1 p2 => Sys2Proof.Machine.execHint96 h p1 p2 s
  | .hint160 h p1 p2 p3 p4 => Sys2Proof.Machine.execHint160 h p1 p2 p3 p4 s
  | .fenceCore => Sys2Proof.Machine.execFenceCore s
  | .fenceQuad => Sys2Proof.Machine.execFenceQuad s
  | .fenceDie => Sys2Proof.Machine.execFenceDie s
  | .fenceDev => Sys2Proof.Machine.execFenceDev s
  | .fenceFab => Sys2Proof.Machine.execFenceFab s
  | .fenceEng => Sys2Proof.Machine.execFenceEng s
  | .fenceSc => Sys2Proof.Machine.execFenceSc s
  | .ecall => Sys2Proof.Machine.execEcall s
  | .ebreak => Sys2Proof.Machine.execEbreak s
  | .eret => Sys2Proof.Machine.execEret s
  | .tdone => Sys2Proof.Machine.execTdone s
  | .maxlenWrite => Sys2Proof.Machine.execMaxlenWrite s
  | .copyStart => Sys2Proof.Machine.execCopyStart s
  | .copyAtom => Sys2Proof.Machine.execCopyAtom s
  | .scpyStamp => Sys2Proof.Machine.execScpyStamp s
  | .tokenWrite => Sys2Proof.Machine.execTokenWrite s
  | .streamRefill => Sys2Proof.Machine.execStreamRefill s
  | .gatherServe => Sys2Proof.Machine.execGatherServe s
  | .scatterUpdate => Sys2Proof.Machine.execScatterUpdate s
  | .dispatch => Sys2Proof.Machine.execDispatch s
  | .queueRefill => Sys2Proof.Machine.execQueueRefill s
  | .collectiveRun => Sys2Proof.Machine.execCollectiveRun s
  | .hitCopyDone => Sys2Proof.Machine.execHitCopyDone s
  | .insertionDone => Sys2Proof.Machine.execInsertionDone s
  | .messageArrival => Sys2Proof.Machine.execMessageArrival s
  | .trapRecordWrite => Sys2Proof.Machine.execTrapRecordWrite s
  | .engerrAsync => Sys2Proof.Machine.execEngerrAsync s
  | .replyResume => Sys2Proof.Machine.execReplyResume s
  | .replyResumeAt => Sys2Proof.Machine.execReplyResumeAt s
  | .replyReturn => Sys2Proof.Machine.execReplyReturn s
  | .replyDeliver => Sys2Proof.Machine.execReplyDeliver s
  | .replyKill => Sys2Proof.Machine.execReplyKill s
  | .replySkip => Sys2Proof.Machine.execReplySkip s
  | .slotSwap => Sys2Proof.Machine.execSlotSwap s
  | .fairShareExpiry => Sys2Proof.Machine.execFairShareExpiry s
  | .contextSave => Sys2Proof.Machine.execContextSave s
  | .saveDone => Sys2Proof.Machine.execSaveDone s
  | .contextRestore => Sys2Proof.Machine.execContextRestore s
  | .restoreDone => Sys2Proof.Machine.execRestoreDone s
  | .preemption => Sys2Proof.Machine.execPreemption s
  | .doorbell => Sys2Proof.Machine.execDoorbell s
  | .kqEntryTake => Sys2Proof.Machine.execKqEntryTake s
  | .placement => Sys2Proof.Machine.execPlacement s
  | .agingStep => Sys2Proof.Machine.execAgingStep s
  | .launchTick => Sys2Proof.Machine.execLaunchTick s
  | .timedStartSwap => Sys2Proof.Machine.execTimedStartSwap s
  | .kernelRetire => Sys2Proof.Machine.execKernelRetire s
  | .watchdog => Sys2Proof.Machine.execWatchdog s
  | .heartbeatTick => Sys2Proof.Machine.execHeartbeatTick s
  | .pageWalkDone => Sys2Proof.Machine.execPageWalkDone s
  | .xinvPage => Sys2Proof.Machine.execXinvPage s
  | .xinvTenant => Sys2Proof.Machine.execXinvTenant s
  | .xinvAll => Sys2Proof.Machine.execXinvAll s
  | .migcmdGo => Sys2Proof.Machine.execMigcmdGo s
  | .hotWindowEnd => Sys2Proof.Machine.execHotWindowEnd s
  | .migrationSwitch => Sys2Proof.Machine.execMigrationSwitch s
  | .ruquotaWrite => Sys2Proof.Machine.execRuquotaWrite s
  | .rupoolWrite => Sys2Proof.Machine.execRupoolWrite s
  | .hostMemRead => Sys2Proof.Machine.execHostMemRead s
  | .hostMemWrite => Sys2Proof.Machine.execHostMemWrite s
  | .hostRegWrite => Sys2Proof.Machine.execHostRegWrite s
  | .alarmpolWrite => Sys2Proof.Machine.execAlarmpolWrite s
  | .fwGo => Sys2Proof.Machine.execFwGo s
  | .fwVerifyDone => Sys2Proof.Machine.execFwVerifyDone s
  | .tkeyWrite => Sys2Proof.Machine.execTkeyWrite s
  | .tkctlLoad => Sys2Proof.Machine.execTkctlLoad s
  | .tkctlErase => Sys2Proof.Machine.execTkctlErase s
  | .tresetGo => Sys2Proof.Machine.execTresetGo s
  | .functionLevelReset => Sys2Proof.Machine.execFunctionLevelReset s
  | .securityAlarm => Sys2Proof.Machine.execSecurityAlarm s
  | .coldReset => Sys2Proof.Machine.execColdReset s
  | .warmReset => Sys2Proof.Machine.execWarmReset s
  | .hbmReady => Sys2Proof.Machine.execHbmReady s
  | .freeze => Sys2Proof.Machine.execFreeze s
  | .idcode => Sys2Proof.Machine.execIdcode s
  | .bypass => Sys2Proof.Machine.execBypass s
  | .unlock => Sys2Proof.Machine.execUnlock s
  | .readout => Sys2Proof.Machine.execReadout s
  | .patrolScrub => Sys2Proof.Machine.execPatrolScrub s
  | .halfWidth => Sys2Proof.Machine.execHalfWidth s
  | .fullWidth => Sys2Proof.Machine.execFullWidth s
  | .powerGate => Sys2Proof.Machine.execPowerGate s
  | .trainingDone => Sys2Proof.Machine.execTrainingDone s
  | .trainingFail => Sys2Proof.Machine.execTrainingFail s
  | .flitReceive => Sys2Proof.Machine.execFlitReceive s
  | .nakReceive => Sys2Proof.Machine.execNakReceive s
  | .ackReceive => Sys2Proof.Machine.execAckReceive s
  | .nakRepeat => Sys2Proof.Machine.execNakRepeat s
  | .nakTimeout => Sys2Proof.Machine.execNakTimeout s
  | .packetDeliver => Sys2Proof.Machine.execPacketDeliver s
  | .routerSleep => Sys2Proof.Machine.execRouterSleep s
  | .wake => Sys2Proof.Machine.execWake s
  | .deadlockProbeSend => Sys2Proof.Machine.execDeadlockProbeSend s
  | .probeReceive => Sys2Proof.Machine.execProbeReceive s
  | .deadlockStep => Sys2Proof.Machine.execDeadlockStep s
  | .probeRetry => Sys2Proof.Machine.execProbeRetry s
  | .twaitTimeout => Sys2Proof.Machine.execTwaitTimeout s
  | .cxlCacheSnoop => Sys2Proof.Machine.execCxlCacheSnoop s

end Sys2Proof.Machine
end

