-- ==== Sys2Proof/Machine/Fetch.lean ====
section
/-! DEFINITION. Instruction fetch (03_encoding R40–R42, R51), when a hart may issue (12_context R272, 13_kernel R294,
R309), and the placing of a program where the next step fetches (notes/assumptions/5). -/

namespace Sys2Proof.Machine

/-- Whether a hart may issue its next instruction: its context is ISSUING and not held for another hart's handler, its
kernel runs, it has a task to run or is in its handler, also after a TDONE or a TSUSP there (notes/assumptions/95), and no
fault or write of a register holds it. -/
def State.canIssue (s : State) (r : HartRef) : Bool :=
  let h := s.hart r
  let c := s.ctx r.cid
  c.runs r.kind && (h.hasWork || decide (c.handler = some r.kind)) && h.stalled.isNone && h.pendCsr.isNone && s.kernelRuns r.cid

/-- A read of n parcels by instruction fetch, one after another: a fault names its own parcel (R42). -/
def State.fetchParcels (s : State) (r : HartRef) : Nat → Nat → MemRes (List Parcel)
  | _, 0 => .ok []
  | a, n + 1 =>
    (s.loadFor (s.who r) 3 .fetch fetchKinds 4 a 4).bind (fun bs =>
      (s.fetchParcels r (a + 4) n).bind (fun ps => .ok (parcelsOfBytes bs ++ ps)))

/-- The trap of a word that is no instruction (R50; 12_context R280). -/
def rejectTrap (s : State) : DecodeReject → Trap
  | .reservedField p => illegal s 4 p
  | .operandLimit p => illegal s 5 p
  | e => illegal s e.detail 0

/-- What the moving hart finds at its PC: an instruction and its length in parcels, or the trap that R51 puts first. The
manual lets a hart fetch up to 256 bytes ahead and does not say when it does; this one fetches an instruction when it
executes it (notes/assumptions/75). -/
def State.fetchInstr (s : State) : MemRes (Instr × Nat) :=
  let a := s.me.pc.toNat
  (s.fetchParcels s.cur a 1).bind (fun ps =>
    match ps with
    | [] => .trap (pageFault 3 1 a)
    | p0 :: _ =>
      match majorLen (majField p0) (lenField p0) with
      | none => .trap (illegal s 1 0)
      | some l =>
        if l ≠ lenField p0 then .trap (illegal s 2 0)
        else
          let n := parcelsOfLen l
          (if n = 1 then MemRes.ok [] else s.fetchParcels s.cur (a + 4) (n - 1)).bind (fun rest =>
            match decode (p0 :: rest) with
            | .ok i => .ok (i, n)
            | .error e => .trap (rejectTrap s e)))

/-- Whether the instruction of n parcels at the moving hart's PC lies outside the code of the pure task that it runs
(17_reuse R396, detail 8). -/
def State.outsideCode (s : State) (n : Nat) : Bool :=
  match s.me.checkedBy with
  | none => false
  | some p =>
    match (s.tenant s.myCtx.tenant).liveSlot p.code with
    | none => false
    | some c =>
      let inside := fun (x m : Nat) => decide (c.start ≤ x) && decide (x + m ≤ c.start + c.len)
      inside p.w0.toNat 1 && !inside s.me.pc.toNat (4 * n)

/-- The moving hart comes to its next instruction: a first issue is due no more (13_kernel R309), whether the instruction waits
or not. -/
def State.firstCome (s : State) : State := { s with starts := s.starts.filter (fun r => decide (r ≠ s.cur)) }

/-- The moving hart issues, an instruction or the fault of its fetch: windows learn of the cycle (15_queue R348). -/
def State.hartIssues (s : State) : State :=
  { s.firstCome with windows := s.windows.map (fun (e : Nat × Window) => (e.1, e.2.hartIssues s.cur)) }

/-- The moving hart executes an instruction: it is in no wait until that instruction says so (13_kernel R310), and its
kernel, if it was PLACED without a launch tick, is RUNNING (R294). -/
def State.nowRunning (s0 : State) : State :=
  let s := (s0.withMe { s0.me with yielding := false }).hartIssues
  match s.kernel s.myCtx.kernel with
  | some x => if x.state = .placed ∧ x.startAt.isNone then s.withKernel s.myCtx.kernel { x with state := .running } else s
  | none => s

/-- Where the moving hart fetches the longest instruction, when nothing keeps it from doing so. -/
def State.fetchPlaces (s : State) : Option (List (Place × Nat × Nat)) :=
  let a := s.me.pc.toNat
  if !s.canIssue s.cur ∨ s.frozen ∨ !s.myCtx.viq.isEmpty then none
  else
    match s.locate (s.who s.cur) 3 .fetch a 20, s.loadFor (s.who s.cur) 3 .fetch fetchKinds 4 a 20 with
    | .ok (.pages ps), .ok _ => some ps
    | _, _ => none

/-- Bytes put where a fetch reads them, with no other effect. -/
def State.putProgram (s : State) (a : Nat) (bs : List Byte) (ps : List (Place × Nat × Nat)) : State :=
  ps.foldl (fun s p =>
    let part := (bs.drop (p.2.1 - a)).take p.2.2
    if p.1.kind = .hostmem then { s with hostMem := ssetList 0 s.hostMem p.1.pa part }
    else { s with mem := ssetList 0 s.mem p.1.pa part }) s

/-- First address of a program that is loaded from outside: the page that the tables of `loadTables` map. -/
def loadPc : Nat := 0x400000

/-- Page tables at 0x10000 that map the 64 KiB page of loadPc, STREAM with RD, W and X, to the frame 0x20000
(09_page R194–R196). -/
def loadTables (m : Sparse Byte) : Sparse Byte :=
  let put := fun (m : Sparse Byte) (a : Nat) (x : Nat) => ssetList 0 m a (bytesOfNat 8 x)
  put (put (put (put (put m 0x10000 0x11001) 0x11000 0x12001) 0x12000 0x13001) 0x13010 0x14001) 0x14000 0x2001F

/-- The moving hart as it starts to run a program that is loaded from outside. -/
def Hart.loaded (h : Hart) : Hart :=
  { h with pc := BitVec.ofNat 64 loadPc, dispatch := .root, pure := none, stalled := none, pendCsr := none }

/-- A device whose moving hart has nothing to issue gets a context that runs, with page tables of its own and the
program (notes/assumptions/5). -/
def State.loadProgram (s : State) (bs : List Byte) : State :=
  let c := s.myCtx
  let c1 := { c with slotState := .issuing, handler := none, viq := [], kernel := s.serial }
  let c2 := c1.withHart s.cur.kind (c1.hart s.cur.kind).loaded
  let t := s.tenant c.tenant
  let s1 : State :=
    { s with mem := ssetList 0 (loadTables s.mem) 0x20000 bs, gran := tdel s.gran (0x20000 / 64), ecc := [], tlb := []
             frozen := false }
  (s1.withTenant c.tenant { t with xroot := 0x10000 }).withCtx s.cur.cid c2

/-- A program placed where the very next step fetches it. -/
def State.placeProgram (s : State) (bs : List Byte) : State :=
  let s1 := match s.fetchPlaces with
    | some ps => s.putProgram s.me.pc.toNat bs ps
    | none => s.loadProgram bs
  { s1 with sched := [], yieldNow := false }

end Sys2Proof.Machine
end

