-- ==== Sys2Proof/Machine/Moves.lean ====
section
/-! DEFINITION. What a step is made of: a hart's turn, a move of the schedule, and the move of another agent that the
model makes where the schedule says nothing (notes/assumptions/1). -/

namespace Sys2Proof.Machine

/-- A hart that has gone back in its program lets the others move: a loop that waits does not keep them out. -/
def yieldBack (pc : Word) (s : State) : State :=
  if s.me.pc.toNat ≤ pc.toNat then { s with yieldNow := true } else s

/-- A hart that has not left its instruction at pc has issued nothing that shows a window a later cycle (15_queue R348): the
windows are those of before. -/
def notLeft (pc : Word) (ws : Table Window) (s : State) : State := if s.me.pc = pc then { s with windows := ws } else s

/-- What a step adds around the meaning of the instruction at pc, begun with the windows ws. -/
def afterExec (pc : Word) (ws : Table Window) : Host.Outcome State Fault Refusal → Host.Outcome State Fault Refusal
  | .next s => .next (yieldBack pc (notLeft pc ws s))
  | .fault f => .fault f
  | .refused r => .refused r

/-- The moving hart's next instruction: fetched, decoded, executed. -/
def State.runInstr (s : State) : Host.Outcome State Fault Refusal :=
  match s.fetchInstr with
  | .ok (i, n) => afterExec s.me.pc s.windows (exec i { s.nowRunning with outside := s.outsideCode n })
  | .trap t => (Res.trap t (if s.trapsLater then s.firstCome else s.hartIssues)).outcome
  | .stall => (Res.wait false s.firstCome).outcome

/-- Whether the moving hart's vector unit has an entry that can go on. -/
def State.vectorMoves (s : State) : Bool :=
  decide (s.cur.kind = .ch) && !s.myCtx.viq.isEmpty && decide (s.viqMove s.cur.cid ≠ s)

/-- The turn of the moving hart: its vector unit goes first where it can; then a store under way (05_scalar R100), else the
next instruction. -/
def State.turn (s : State) : Host.Outcome State Fault Refusal :=
  if s.vectorMoves then .next (s.viqMove s.cur.cid)
  else match s.me.split with
    | some x => .next (s.goOnStore x)
    | none => s.runInstr

/-- An event with its data. -/
def State.event (s : State) (i : Instr) (a : EventArg) : Host.Outcome State Fault Refusal := exec i { s with evArg := a }

/-- Moves that reach a frozen device (20_system R452, R453). -/
def Move.whileFrozen : Move → Bool
  | .hart _ => false
  | .hartUntil _ _ _ _ => false
  | .hartBy _ _ _ => false
  | .hartBytes _ _ => false
  | .flip _ _ => false
  | .event i _ =>
    match i with
    | .coldReset => true
    | .idcode => true
    | .bypass => true
    | .unlock => true
    | .readout => true
    | _ => false

/-- A hart of the schedule takes its turn, where it may; else its context's vector unit goes on. -/
def State.hartMove (s : State) (r : HartRef) : Host.Outcome State Fault Refusal :=
  if s.canIssue r then ({ s with cur := r } : State).turn
  else if r.kind = .ch then .next (s.viqMove r.cid)
  else .next s

/-- What happens interrupts a hart (12_context R274): its context loses its slot or its rights, or a handler is entered. -/
def State.interrupts (s : State) (r : HartRef) : Host.Outcome State Fault Refusal → Bool
  | .next t =>
    (s.ctx r.cid).runs r.kind
      && (!(t.ctx r.cid).runs r.kind || decide ((t.ctx r.cid).handler ≠ (s.ctx r.cid).handler))
  | _ => false

/-- What has waited for a TURN to stop takes effect (09_page R221). -/
def thenDo (f : State → Host.Outcome State Fault Refusal) :
    Host.Outcome State Fault Refusal → Host.Outcome State Fault Refusal
  | .next s => f { s with turnIntr := none }
  | .fault x => .fault x
  | .refused x => .refused x

/-- A hart's turn, and then something else: where that is an interruption of the hart, a TURN stops for it once its walk has
come to byte x of its region (09_page R221). -/
def State.hartThen (s : State) (r : HartRef) (x : Nat) (f : State → Host.Outcome State Fault Refusal) :
    Host.Outcome State Fault Refusal :=
  thenDo f ((if s.interrupts r (f s) then { s with turnIntr := some x } else s).hartMove r)

/-- The bytes of an unaligned access were those of one move (05_scalar R100). -/
def endBytes : Host.Outcome State Fault Refusal → Host.Outcome State Fault Refusal
  | .next s => .next { s with bytesNow := none }
  | .fault f => .fault f
  | .refused r => .refused r

/-- An error comes into the half-atom h of memory (20_system R454), a lasting one or one that the controller corrects. -/
def State.flipped (s : State) (h : Nat) (lasting : Bool) : State :=
  if !populated (32 * h) 32 then s
  else if lasting then
    { s with
      ecc := insertNat s.ecc h
      reported := s.reported.filter (fun x => decide (x ≠ h))
      soft := s.soft.filter (fun x => decide (x ≠ h)) }
  else if s.ecc.contains h then s
  else { s with soft := insertNat s.soft h }

/-- A move of the schedule. -/
def State.makeMove (s : State) (m : Move) (rest : List Move) : Host.Outcome State Fault Refusal :=
  let s1 : State := { s with sched := rest }
  match m with
  | .event i a => s1.event i a
  | .hart r => s1.hartMove r
  | .hartBytes r js => endBytes (({ s1 with bytesNow := some js } : State).hartMove r)
  | .hartUntil r x i a => s1.hartThen r x (fun s => s.event i a)
  | .hartBy r x r' => s1.hartThen r x (fun s => s.hartMove r')
  | .flip h lasting => .next (s1.flipped h lasting)

/-- Data of an event that names one thing. -/
def argA (a : Nat) : EventArg := { EventArg.none with a := a }
/-- Data of an event that names two things. -/
def argAB (a b : Nat) : EventArg := { EventArg.none with a := a, b := b }
/-- Data of an event that names a hart. -/
def argHart (r : HartRef) : EventArg := { EventArg.none with a := r.cid, h := r.kind }

/-- The harts of which a KILL has left the copy of a hit. -/
def State.lateRefs (s : State) : List HartRef := s.hits.map (·.ref)

/-- Every hart of every context. -/
def State.hartRefs (s : State) : List HartRef :=
  s.ctxs.flatMap (fun e => [{ cid := e.1, kind := .ch }, { cid := e.1, kind := .fh }, { cid := e.1, kind := .dh }])

/-- The events of harts that other agents may make now. -/
def State.hartEvents (s : State) : List (Instr × EventArg) :=
  s.hartRefs.flatMap (fun r =>
    [.dispatch, .hitCopyDone, .insertionDone, .engerrAsync, .xinvPage, .xinvTenant, .xinvAll, .migcmdGo, .ruquotaWrite,
     .rupoolWrite, .twaitTimeout].map (fun i => (i, argHart r)))
  ++ s.lateRefs.map (fun r => (.hitCopyDone, argHart r))

/-- The events of contexts. -/
def State.ctxEvents (s : State) : List (Instr × EventArg) :=
  s.ctxs.flatMap (fun e =>
    (e.2.streams.map (fun x => (.streamRefill, argAB e.1 x.1)))
      ++ [.gatherServe, .scatterUpdate, .contextSave, .saveDone, .contextRestore, .restoreDone].map (fun i => (i, argA e.1)))

/-- The events of copies: the lowest atom that is open is moved first. -/
def State.copyEvents (s : State) : List (Instr × EventArg) :=
  s.allCopies.flatMap (fun x =>
    let atom := ((List.range (x.moved.length + x.landing.length + 1)).find?
      (fun i => !x.moved.contains i && (tget x.landing i).isNone)).getD 0
    [(.copyStart, argA x.id), (.copyAtom, argAB x.id atom), (.scpyStamp, argA x.id), (.tokenWrite, argA x.id)])

/-- The events of trap records. -/
def State.trapEvents (s : State) : List (Instr × EventArg) :=
  s.traps.flatMap (fun t =>
    [.trapRecordWrite, .replyResume, .replyResumeAt, .replyReturn, .replyDeliver, .replyKill, .replySkip].map
      (fun i => (i, argA t.id)))

/-- The events of kernels, of their channels, and of kernel queues. -/
def State.kernelEvents (s : State) : List (Instr × EventArg) :=
  (s.kernels.flatMap (fun e =>
    ((List.range e.2.chans.length).map (fun c => (.messageArrival, argAB e.1 c)))
      ++ [.watchdog, .launchTick, .kernelRetire].map (fun i => (i, argA e.1))))
  ++ s.tenants.flatMap (fun t => t.2.kq.map (fun q => (.kqEntryTake, argAB t.1 q.1)))
  ++ [(.placement, EventArg.none), (.preemption, EventArg.none)]

/-- The events of cores, of the units of quadrants and dies, of migrations, packets, routers and the alarm. -/
def State.unitEvents (s : State) : List (Instr × EventArg) :=
  (s.ctxs.map (·.2.core)).dedup.flatMap (fun c =>
    [(.timedStartSwap, argA c), (.slotSwap, argA c), (.fairShareExpiry, argA c)])
  ++ s.windows.map (fun w => (.queueRefill, argA w.1))
  ++ s.quadBars.map (fun b => (.collectiveRun, argA b.1))
  ++ s.dieBars.map (fun b => (.collectiveRun, argA (b.1 + 1024)))
  ++ s.migs.map (fun m => (.migrationSwitch, argA m.id))
  ++ s.packets.map (fun p => (.packetDeliver, argA p.id))
  ++ [(.securityAlarm, argA 3), (.securityAlarm, argA 4), (.hbmReady, EventArg.none)]

/-- Every event that the model makes by itself where the schedule says nothing. -/
def State.candidates (s : State) : List (Instr × EventArg) :=
  s.trapEvents ++ s.hartEvents ++ s.copyEvents ++ s.ctxEvents ++ s.kernelEvents ++ s.unitEvents

/-- The first move of another agent that changes the state: a context's vector unit, or an event. -/
def State.otherMove (s : State) : Option (Option Instr × State) :=
  match s.ctxs.findSome? (fun e => if s.viqMove e.1 ≠ s then some (s.viqMove e.1) else none) with
  | some s1 => some (none, s1)
  | none =>
    s.candidates.findSome? (fun e =>
      match s.event e.1 e.2 with
      | .next s1 => if s1 ≠ { s with evArg := e.2 } then some (some e.1, s1) else none
      | _ => none)

/-- The next hart after the moving one that can issue, in the order of harts. -/
def State.later (s : State) : Option HartRef :=
  ((s.hartRefs.dropWhile (fun r => decide (r ≠ s.cur))).drop 1).find? (fun r => s.canIssue r)

/-- The next hart that can issue moves; after the last the first. -/
def State.rotate (s : State) : State :=
  match s.later.or (s.hartRefs.find? (fun r => s.canIssue r)) with
  | some r => { s with cur := r }
  | none => s

/-- A heartbeat. -/
def State.tick (s : State) : State :=
  match execHeartbeatTick s with
  | .next s1 => s1
  | _ => s

/-- The move of another agent where the schedule says nothing: the first that changes the state. Where there is none and
every hart has had its turn, or issue rights pass, a heartbeat. -/
def State.arbiter (s : State) : State :=
  let s0 : State := { s with yieldNow := false }
  let s1 := match s0.otherMove with
    | some (some .slotSwap, s1) => s1.tick
    | some (_, s1) => s1
    | none => if s0.later.isSome then s0 else s0.tick
  if !s.yieldNow && s1.canIssue s1.cur then s1 else s1.rotate

/-- The move that a step makes. -/
def State.nextMove (s : State) : Host.Outcome State Fault Refusal :=
  match s.sched with
  | m :: rest => s.makeMove m rest
  | [] => if s.yieldNow || !s.canIssue s.cur then .next s.arbiter else s.turn

/-- A frozen device does nothing but a cold reset and the moves of the test access port (20_system R452, R453). -/
def State.stopped (s : State) : Bool := s.frozen && !(s.sched.head?.map Move.whileFrozen).getD false

/-- The state that a step leaves, but for a mark of one half-atom. -/
def afterRead (h : Nat) : Host.Outcome State Fault Refusal → Option State
  | .next s => some { s with ecc := s.ecc.filter (fun x => decide (x ≠ h)) }
  | .fault _ => none
  | .refused _ => none

/-- Whether a step reads a half-atom: a lasting error there would change what it does. -/
def State.reads (s : State) (f : State → Host.Outcome State Fault Refusal) (h : Nat) : Bool :=
  decide (afterRead h (f { s with ecc := insertNat s.ecc h }) ≠ afterRead h (f s))

/-- A step with the errors that the controller corrects in what the step reads: each is logged (20_system R447, R454). -/
def State.corrected (s : State) (f : State → Host.Outcome State Fault Refusal) : Host.Outcome State Fault Refusal :=
  match f s with
  | .next t => .next ((s.soft.filter (s.reads f)).foldl State.logCorrected t)
  | .fault x => .fault x
  | .refused x => .refused x

end Sys2Proof.Machine
end

