-- ==== Sys2Proof/Machine/Step.lean ====
section
/-! DEFINITION. The step of the device: the next move of the schedule, else the moving hart's next instruction, else a
move of another agent (notes/assumptions/1, 5). -/

namespace Sys2Proof.Machine

/-- One step: a move, and the corrections that the controller makes in what it reads (20_system R454). -/
def step (s : State) : Host.Outcome State Fault Refusal :=
  if s.stopped then .fault .frozen else s.corrected State.nextMove

/-- The state in which the very next step fetches and runs the instruction whose bits are w, as the opcode table numbers
them (notes/assumptions/5). -/
def State.withFetchWord (s : State) (nbits w : Nat) : State := s.placeProgram (bytesOfTableWord nbits w)

end Sys2Proof.Machine
end

