-- ==== Sys2Proof/Safety.lean ====
section
/-! DEFINITION. What a run keeps, and when an instruction can be executed, in the terms that the statements use. -/

namespace Sys2Proof

open Machine

/-- The invariant of the device: both memories keep their canonical form. -/
abbrev Machine.State.Inv (s : State) : Prop := Memory.wf s.mem = true ∧ Memory.wf s.hostMem = true

/-- A step that is safe: the device is not frozen, and goes on. -/
def Machine.State.Safe (s : State) : Prop := ∃ t, step s = .next t

/-- The moving hart can execute an instruction that reads and writes the named scalar registers: none of them waits for
a token or a vector result (10_copies R232), no unread error would be overwritten (12_context R287), and in a pure task
the instruction comes from the task's own code (17_reuse R396). -/
abbrev Machine.State.Ready (s : State) (reads writes : List SReg) : Prop :=
  (reads ++ writes).all s.me.free = true ∧ (s.me.clearRead reads).overwrites writes = none ∧
    (s.outside = false ∨ s.me.checkedBy = none)

/-- The state once the moving hart has read its registers: their unread-error bits are clear (12_context R287). -/
def Machine.State.reading (s : State) (reads : List SReg) : State := s.withMe (s.me.clearRead reads)

/-- The state itself, with the moving hart's context listed in its table. -/
def Machine.State.here (s : State) : State := s.withMe s.me

/-- The moving hart runs no pure task that checks its instructions (17_reuse R395). -/
abbrev Machine.State.Plain (s : State) : Prop := s.me.checkedBy = none

/-- No entry of the moving context's queue is under way (02_machine R20). -/
abbrev Machine.State.Quiet (s : State) : Prop := s.myCtx.viq = []

/-- The compute hart can issue a vector, matrix or sorus instruction that is executed at once: the queue is empty, no
register is bound to a stream (10_copies R249), and no copy of the context is queued (10_copies R237). -/
abbrev Machine.State.VReady (s : State) (reads writes : List SReg) : Prop :=
  s.cur.kind = .ch ∧ s.Quiet ∧ s.myCtx.streams = [] ∧ s.Ready reads writes ∧
    (s.copyQueue s.myCtx.core).all (fun x => decide (x.ref.cid ≠ s.cur.cid)) = true

/-- The entry of an instruction that the moving hart issues, with its scalar operands. -/
def Machine.State.entryOf (s : State) (i : Instr) (reads : List SReg) : VEntry :=
  s.myCtx.entry i s.me.pc (reads.map s.readS) s.outside

/-- The state in which that entry stands alone in the queue: PC has moved on, and the registers that it will write are
busy. -/
def Machine.State.issued (s : State) (i : Instr) (n : Nat) (reads writes : List SReg) : State :=
  ((s.reading reads).pushEntry i (reads.map s.readS) writes).advance n

/-- What a statement on a vector, matrix or sorus instruction says: where it can be issued and executed at once, the
step of the instruction is its issue, the effect f, and its leaving the queue. -/
def entryGives (s : State) (i : Instr) (n : Nat) (reads writes : List SReg) (f : State → State) : Prop :=
  s.VReady reads writes → exec i s = .next (completeHead (s.entryOf i reads) (f (s.issued i n reads writes)))

/-- The first bytes of the copies that a store to a place writes at once: every replica of a REPL page under ATOMIC, the
writer's own under LOOSE and for ST.LOCAL; else the one copy (05_scalar R102, 09_page R209, 11_ordering R266). -/
def storedCopies (pl : Place) (localOnly : Bool) : List Nat :=
  if pl.kind = .repl ∧ !localOnly ∧ !pl.loose then pl.copies else [pl.pa]

end Sys2Proof
end

