-- ==== Sys2Proof/Certificates/Slice0/Obligations.lean ====
section
/-! DEFINITION. The statements for the provers. Each says what the numbered rules of the manual that its docstring names say of
the model. -/

open Sys2Proof Sys2Proof.Machine

/-- 03_encoding R40–R51, 12_context R283: where no vector work can go on and the hart has no store under way
(notes/assumptions/2), a step at which the fetched parcels decode to an instruction runs that instruction; the step adds only
what `nowRunning` puts before it, whether the instruction lies outside a pure task's code (17_reuse R396), and, after it,
that a hart which has gone back lets the others move (notes/assumptions/1), that a wait shows no window a later cycle (15_queue
R348; notes/assumptions/78), and the events of the errors that the controller has corrected in what the step read (20_system R447, R454; notes/assumptions/91). That the parcels are read in the step that
executes them is the model's choice, not R42's words, which allow fetching up to 256 bytes ahead (notes/assumptions/75). -/
def Obligations.StepRunsDecoded : Prop :=
  ∀ (s : State) (p0 : Parcel) (rest : List Parcel) (i : Instr),
    s.sched = [] → s.frozen = false → s.yieldNow = false → s.canIssue s.cur = true → s.vectorMoves = false →
    s.me.split = none →
    s.fetchParcels s.cur s.me.pc.toNat 1 = .ok [p0] →
    (if parcelsOfLen (lenField p0) = 1 then rest = []
     else s.fetchParcels s.cur (s.me.pc.toNat + 4) (parcelsOfLen (lenField p0) - 1) = .ok rest) →
    decode (p0 :: rest) = .ok i →
    let o := afterExec s.me.pc s.windows (exec i { s.nowRunning with outside := s.outsideCode (parcelsOfLen (lenField p0)) })
    s.nextMove = o ∧ (s.soft = [] → step s = o) ∧
    ∀ t, o = .next t → step s = .next ((s.soft.filter (s.reads State.nextMove)).foldl State.logCorrected t)

/-- The words that the manual writes out stand for the instructions it says (03_encoding R43–R49 and its worked
encodings, 05_scalar, 06_vector, 09_page), and what the decoder refuses by its first check (03_encoding R50, R51). -/
def Obligations.Decoding : Prop :=
  (decode [0x00082104] = .ok (.add 1 1 2) ∧
   decode [0xFF680C40] = .ok (.blt 12 0 (BitVec.ofInt 11 (-5))) ∧
   decode [0x000C7159, 0x00001FF8] = .ok (.ldL 17 3 0x1FF8) ∧
   decode [0x00018D29, 0x00000A00] = .ok (.bext 13 12 0 40) ∧
   decode [0x202D4C70] = .ok (.turn 2 12 10 11) ∧
   decode [0x00107075, 0x000F4240] = .ok (.twait 16 3 4 1000000) ∧
   decode [0x000823C0] = .ok (.vadd 0 0 3 1 2)) ∧
  (decode [] = .error .truncated ∧
   (∀ (p : Parcel) (r : List Parcel), majorLen (majField p) (lenField p) = none →
     decode (p :: r) = .error .unassignedMajor) ∧
   (∀ (p : Parcel) (r : List Parcel) (l : BitVec 2), majorLen (majField p) (lenField p) = some l → l ≠ lenField p →
     decode (p :: r) = .error .lengthMismatch))

/-- 03_encoding R43–R49: the decoder reads back what the encoder writes, for every well-formed instruction. -/
def Obligations.RoundTrip : Prop :=
  ∀ i : Instr, i.wf = true → i.isEvent = false → decode (encode i) = .ok i

/-- Every step of the device keeps both memories in their canonical form. The form is the model's own
(notes/assumptions/3). -/
def Obligations.StepKeepsMemories : Prop := ∀ s t : State, s.Inv → step s = .next t → t.Inv

/-- 02_machine R32, R34; 09_page R206, R212; 20_system R445, R451: the memories are canonical after reset, and what the
manual gives for a cold reset: HB is 0, every granule is CLEAN, no core has a pending granule, HOTCTL holds its
defaults, no tenant has a key or a page table, and the device block holds the reset values of R445. The values that the
manual does not give (notes/assumptions/4) are not stated here. -/
def Obligations.ResetState : Prop :=
  (State.reset.Inv) ∧
  (let s := State.reset
   s.hb = 0 ∧ s.gran = [] ∧ (∀ core, s.pending core = 0) ∧
   (∀ d, (s.dieOf d).hotctl = 0x0000100000400000) ∧
   (∀ t, (s.tenant t).key = none ∧ (s.tenant t).xroot = 0 ∧ (s.tenant t).tsave = 0) ∧
   s.dev.ready = false ∧ s.dev.alarm = false ∧ s.dev.lastRst = 0 ∧ s.dev.evring = 0 ∧ s.dev.lock = false ∧
   s.dev.policy = false ∧ s.dev.limit = 2200 ∧ s.kernels = [] ∧ s.ctxs = [] ∧
   (∀ core, s.copyQueue core = []))

/-- The operations through which instructions, copies, the host and migrations write memory keep the canonical form, and
every byte of device memory outside what each stores: for a store to a region of pages the copies of its pieces, for a
write of the host, a peer or the device, and for one copy within a granule, [pa, pa + n), for a migration the new frame.
Host memory changes by none of these but the store to a region, of which this does not say it, and a copy within a granule
of a HOSTMEM page, which keeps the host bytes outside [pa, pa + n). A store to a window changes no memory. The canonical
form is the model's own (notes/assumptions/3), and so is that a store to a LOOSE page writes the replica of the writer's die
in its step, the others later (notes/assumptions/14). -/
def Obligations.WritesKeepMemories : Prop :=
  ∀ (s : State) (w : Who) (l : Level) (lo : Bool) (a pa : Nat) (bs : List Byte) (r : Region) (kind : PageKind)
    (writer tenant src dst : Nat), s.Inv →
    (s.writeRegion w l lo a bs r).Inv ∧ (s.cleanWrite pa bs).Inv ∧ (s.movePage src dst).Inv ∧
    (s.writePiece kind pa bs writer l tenant).Inv ∧
    (∀ x, x < pa ∨ pa + bs.length ≤ x →
      (s.writePiece kind pa bs writer l tenant).memByte x = s.memByte x ∧
      sget 0 (s.writePiece kind pa bs writer l tenant).hostMem x = sget 0 s.hostMem x ∧
      (s.cleanWrite pa bs).memByte x = s.memByte x) ∧
    (kind = .hostmem → (s.writePiece kind pa bs writer l tenant).mem = s.mem) ∧
    (kind ≠ .hostmem → (s.writePiece kind pa bs writer l tenant).hostMem = s.hostMem) ∧
    (s.cleanWrite pa bs).hostMem = s.hostMem ∧
    (∀ x, x < dst ∨ dst + 65536 ≤ x → (s.movePage src dst).memByte x = s.memByte x) ∧
    (s.movePage src dst).hostMem = s.hostMem ∧
    (∀ i off, r = .window i off → (s.writeRegion w l lo a bs r).mem = s.mem ∧
      (s.writeRegion w l lo a bs r).hostMem = s.hostMem) ∧
    (∀ ps x, r = .pages ps → (∀ p ∈ ps, ∀ c ∈ storedCopies p.1 lo, x < c ∨ c + p.2.2 ≤ x) →
      (s.writeRegion w l lo a bs r).memByte x = s.memByte x)

/-- 02_machine R25, 03_encoding R61: s0 reads 0 and discards what is written to it; any other register holds what was
last written, and the others stay. An instruction that only writes a scalar register changes that register, PC, and the
unread-error bits of what it reads, and nothing else anywhere. -/
def Obligations.ScalarRegisters : Prop :=
  (∀ (h : Hart) (r q : SReg) (x : Word), swf 0 h.regs = true →
    (h.writeS r x).readS q = (if q = 0 then 0 else if q = r then x else h.readS q) ∧
    swf 0 (h.writeS r x).regs = true ∧ (h.writeS 0 x) = h) ∧
  (∀ (s : State) (reads : List SReg) (d : SReg) (n : Nat) (x : Word),
    let u := (s.reading reads).retire n d x
    u.me = { s.me.writeS d x with pc := s.me.pc + BitVec.ofNat 64 n, unread := (s.me.clearRead reads).unread } ∧
    u.myCtx = s.myCtx.withHart s.cur.kind u.me ∧ (∀ cid, cid ≠ s.cur.cid → u.ctx cid = s.ctx cid) ∧
    ({ u with ctxs := s.ctxs } : State) = s)

/-- 05_scalar R87, R88: the instructions of ALU and the binary ones of MULDIV write f(a, b) to sd and move on by 4. -/
def Obligations.ScalarBinary : Prop :=
  ∀ (s : State) (d a b : SReg), s.Ready [a, b] [d] →
    let x := s.readS a
    let y := s.readS b
    let n := (y.toNat % 64)
    let put := fun (v : Word) => ((s.reading [a, b]).retire 4 d v)
    exec (.add d a b) s = .next (put (x + y)) ∧
    exec (.sub d a b) s = .next (put (x - y)) ∧
    exec (.and d a b) s = .next (put (x &&& y)) ∧
    exec (.or d a b) s = .next (put (x ||| y)) ∧
    exec (.xor d a b) s = .next (put (x ^^^ y)) ∧
    exec (.sll d a b) s = .next (put (x <<< n)) ∧
    exec (.srl d a b) s = .next (put (x >>> n)) ∧
    exec (.sra d a b) s = .next (put (x.sshiftRight n)) ∧
    exec (.setlt d a b) s = .next (put (if x.toInt < y.toInt then 1 else 0)) ∧
    exec (.setltu d a b) s = .next (put (if x.toNat < y.toNat then 1 else 0)) ∧
    exec (.min d a b) s = .next (put (if x.toInt ≤ y.toInt then x else y)) ∧
    exec (.max d a b) s = .next (put (if x.toInt ≤ y.toInt then y else x)) ∧
    exec (.minu d a b) s = .next (put (if x.toNat ≤ y.toNat then x else y)) ∧
    exec (.maxu d a b) s = .next (put (if x.toNat ≤ y.toNat then y else x)) ∧
    exec (.andn d a b) s = .next (put (x &&& ~~~y)) ∧
    exec (.orn d a b) s = .next (put (x ||| ~~~y)) ∧
    exec (.rol d a b) s = .next (put (x.rotateLeft n)) ∧
    exec (.ror d a b) s = .next (put (x.rotateRight n)) ∧
    exec (.mul d a b) s = .next (put (x * y)) ∧
    exec (.mulhiSs d a b) s = .next (put (BitVec.ofInt 64 (x.toInt * y.toInt / 2 ^ 64))) ∧
    exec (.mulhiUu d a b) s = .next (put (BitVec.ofNat 64 (x.toNat * y.toNat / 2 ^ 64))) ∧
    exec (.mulhiSu d a b) s = .next (put (BitVec.ofInt 64 (x.toInt * (y.toNat : Int) / 2 ^ 64))) ∧
    exec (.pmul d a b) s = .next (put ((clmul x y 64).setWidth 64)) ∧
    exec (.pmulhi d a b) s = .next (put (((clmul x y 64) >>> 64).setWidth 64))

/-- 05_scalar R89: division never traps, and its corners. -/
def Obligations.DivisionNeverTraps : Prop :=
  ∀ (s : State) (d a b : SReg), s.Ready [a, b] [d] →
    let x := s.readS a
    let y := s.readS b
    let put := fun (v : Word) => ((s.reading [a, b]).retire 4 d v)
    (y = 0 → exec (.div d a b) s = .next (put 0) ∧ exec (.divu d a b) s = .next (put 0) ∧
      exec (.rem d a b) s = .next (put x) ∧ exec (.remu d a b) s = .next (put x)) ∧
    (y ≠ 0 →
      (x.toInt = -2 ^ 63 → y.toInt = -1 →
        exec (.div d a b) s = .next (put x) ∧ exec (.rem d a b) s = .next (put 0)) ∧
      (¬ (x.toInt = -2 ^ 63 ∧ y.toInt = -1) → ∃ q r : Word,
        exec (.div d a b) s = .next (put q) ∧ exec (.rem d a b) s = .next (put r) ∧ q.toInt = x.toInt.tdiv y.toInt ∧
        r.toInt = x.toInt - y.toInt * q.toInt) ∧
      ∃ q r : Word, exec (.divu d a b) s = .next (put q) ∧ exec (.remu d a b) s = .next (put r) ∧
        q.toNat = x.toNat / y.toNat ∧ r.toNat = x.toNat - y.toNat * q.toNat)

/-- 05_scalar R88, R90, R91, R93, R94; 03_encoding R53: the unary, immediate and literal forms, the shifts by a literal,
and the hints. -/
def Obligations.ScalarUnary : Prop :=
  (∀ (s : State) (d a : SReg) (imm : BitVec 14) (sh : BitVec 6), s.Ready [a] [d] →
    let x := s.readS a
    let y : Word := imm.signExtend 64
    let put := fun (v : Word) => ((s.reading [a]).retire 4 d v)
    exec (.popc d a) s = .next (put (BitVec.ofNat 64 ((List.range 64).countP (fun i => x.getLsbD i)))) ∧
    exec (.clz d a) s = .next (put (if x = 0 then 64 else BitVec.ofNat 64 (63 - x.toNat.log2))) ∧
    (∃ v : Word, exec (.ctz d a) s = .next (put v) ∧ (x = 0 → v = 64) ∧
      (x ≠ 0 → x.getLsbD v.toNat = true ∧ ∀ i, i < v.toNat → x.getLsbD i = false)) ∧
    (∃ v : Word, exec (.brev d a) s = .next (put v) ∧ ∀ i, i < 64 → v.getLsbD i = x.getLsbD (63 - i)) ∧
    (∃ v : Word, exec (.bswap d a) s = .next (put v) ∧ ∀ i, i < 64 → v.getLsbD i = x.getLsbD (56 - 8 * (i / 8) + i % 8)) ∧
    exec (.addi d a imm) s = .next (put (x + y)) ∧
    exec (.andi d a imm) s = .next (put (x &&& y)) ∧
    exec (.ori d a imm) s = .next (put (x ||| y)) ∧
    exec (.xori d a imm) s = .next (put (x ^^^ y)) ∧
    exec (.setlti d a imm) s = .next (put (if x.toInt < y.toInt then 1 else 0)) ∧
    exec (.setltiu d a imm) s = .next (put (if x.toNat < y.toNat then 1 else 0)) ∧
    exec (.slli d a sh) s = .next (put (x <<< sh.toNat)) ∧
    exec (.srli d a sh) s = .next (put (x >>> sh.toNat)) ∧
    exec (.srai d a sh) s = .next (put (x.sshiftRight sh.toNat)) ∧
    exec (.rori d a sh) s = .next (put (x.rotateRight sh.toNat))) ∧
  (∀ (s : State) (d : SReg) (i19 : BitVec 19) (lo hi : BitVec 32), s.Ready [] [d] →
    let t := s.reading []
    exec (.li d i19) s = .next (t.retire 4 d (i19.signExtend 64)) ∧
    exec (.li64 d lo) s = .next (t.retire 8 d (lo.signExtend 64)) ∧
    exec (.li96 d lo hi) s = .next (t.retire 12 d (hi ++ lo : BitVec 64)) ∧
    exec (.la d i19) s = .next (t.retire 4 d (s.me.pc + 4 * i19.signExtend 64))) ∧
  (∀ (s : State) (h : BitVec 24) (p1 p2 p3 p4 : BitVec 32),
    exec (.hint h) s = .next (s.advance 4) ∧ exec (.hint64 h p1) s = .next (s.advance 8) ∧
    exec (.hint96 h p1 p2) s = .next (s.advance 12) ∧ exec (.hint160 h p1 p2 p3 p4) s = .next (s.advance 20))

/-- 05_scalar R92: bit by bit, what BEXT, BEXTS and BINS write; and a WIDTH above 64 is Illegal with detail 5. -/
def Obligations.BitFields : Prop :=
  (∀ (s : State) (d a : SReg) (o : BitVec 6) (w : BitVec 7), w.toNat ≤ 64 →
      let x := s.readS a
      let f := fun i => decide (o.toNat + i ≤ 63) && x.getLsbD (o.toNat + i)
      (s.Ready [a] [d] →
        ∃ u v : Word,
          exec (.bext d a o w) s = .next ((s.reading [a]).retire 8 d u) ∧
          exec (.bexts d a o w) s = .next ((s.reading [a]).retire 8 d v) ∧
          ∀ i, i < 64 → u.getLsbD i = (decide (i < w.toNat) && f i) ∧
            v.getLsbD i = (if i < w.toNat then f i else decide (w.toNat ≠ 0) && f (w.toNat - 1))) ∧
      (s.Ready [a, d] [d] →
        ∃ u : Word, exec (.bins d a o w) s = .next ((s.reading [a, d]).retire 8 d u) ∧
          ∀ i, i < 64 → u.getLsbD i =
            (if o.toNat ≤ i ∧ i < o.toNat + w.toNat then x.getLsbD (i - o.toNat) else (s.readS d).getLsbD i))) ∧
  (∀ (s : State) (d a : SReg) (o : BitVec 6) (w : BitVec 7), 64 < w.toNat →
    ∃ e : DecodeReject, decode (encode (.bext d a o w)) = .error e ∧ decode (encode (.bexts d a o w)) = .error e ∧
      decode (encode (.bins d a o w)) = .error e ∧ (rejectTrap s e).cause = .illegal ∧ (rejectTrap s e).detail = 5)

/-- 05_scalar R95, R96; 03_encoding R41: a branch whose comparison holds continues at its own address plus 4 times the
offset, else behind it; JAL and JALR write the return address and continue at the target, whose bits [1:0] are clear. -/
def Obligations.BranchesAndJumps : Prop :=
  (∀ (s : State) (a b : SReg) (off : BitVec 11), s.Ready [a, b] [] →
    let x := s.readS a
    let y := s.readS b
    let t := s.reading [a, b]
    let go := fun (c : Prop) [Decidable c] =>
      (if c then t.jump (s.me.pc + 4 * off.signExtend 64) else t.advance 4)
    exec (.beq a b off) s = .next (go (x = y)) ∧
    exec (.bne a b off) s = .next (go (x ≠ y)) ∧
    exec (.blt a b off) s = .next (go (x.toInt < y.toInt)) ∧
    exec (.bge a b off) s = .next (go (y.toInt ≤ x.toInt)) ∧
    exec (.bltu a b off) s = .next (go (x.toNat < y.toNat)) ∧
    exec (.bgeu a b off) s = .next (go (y.toNat ≤ x.toNat))) ∧
  (∀ (s : State) (d : SReg) (off : BitVec 19), s.Ready [] [d] →
    exec (.jal d off) s = .next (((s.reading []).writeS d (s.me.pc + 4)).jump (s.me.pc + 4 * off.signExtend 64))) ∧
  (∀ (s : State) (d a : SReg) (imm : BitVec 14), s.Ready [a] [d] →
    exec (.jalr d a imm) s =
      .next (((s.reading [a]).writeS d (s.me.pc + 4)).jump (s.readS a + imm.signExtend 64))) ∧
  (∀ (s : State) (pc : Word), (s.jump pc).me.pc = pc &&& ~~~3#64)

/-- 10_copies R232, 12_context R287: an instruction that reads or writes a register which waits for a token or a vector result
does not execute yet; its reads clear unread-error bits; one that would overwrite an unread error which it does not read
traps with ENGERR, unless it is Illegal (03_encoding R51), and else it does what it does. Shown for whatever a scalar
instruction with these reads and writes does, in no pure task's code from outside; and for ADD, LD, ST and SCPY, whose
registers are those that they name, a copy's token register being one that it writes. -/
def Obligations.BusyAndUnreadRegisters : Prop :=
  (∀ (s : State) (reads writes : List SReg) (k : State → Res),
    ((reads ++ writes).all s.me.free = false → scalar reads writes k s = .next (s.waitHere false)) ∧
    ((reads ++ writes).all s.me.free = true → s.outside = false →
      (∀ u, (∀ r ∈ writes, r ≠ 0 → r ∉ reads → s.me.unread.contains r.toNat = false) → k (s.reading reads) = .done u →
        scalar reads writes k s = .next u) ∧
      (∀ r, writes.find? (fun w => decide (w ≠ 0) && !reads.contains w && s.me.unread.contains w.toNat) = some r →
        (k (s.reading reads)).early = false → ∃ t, t.cause = .engerr ∧ t.detail = r.toNat ∧
          t.addr = sget 0 s.me.regs r.toNat ∧ scalar reads writes k s = .next (s.scalarTrap t))) ∧
    (s.reading reads).me.unread = s.me.unread.filter (fun n => !(reads.any (fun r => decide (r.toNat = n))))) ∧
  (∀ (s : State) (d a b sz bar : SReg) (off : BitVec 11) (comp : BitVec 1) (toa : BitVec 3) (x y : BitVec 16),
    ([a, b, d].all s.me.free = false → exec (.add d a b) s = .next (s.waitHere false)) ∧
    ([a, d].all s.me.free = false → exec (.ld d a off) s = .next (s.waitHere false) ∧
      exec (.st d a off) s = .next (s.waitHere false)) ∧
    ([a, b, sz, bar, d].all s.me.free = false → exec (.scpy d a b sz bar comp toa x y) s = .next (s.waitHere false)) ∧
    (d ≠ 0 → s.me.unread.contains d.toNat = true → ∃ t, t.cause = .engerr ∧ t.detail = d.toNat ∧
      t.addr = sget 0 s.me.regs d.toNat ∧
      ([a, b, d].all s.me.free = true → d ≠ a → d ≠ b → exec (.add d a b) s = .next (s.scalarTrap t)) ∧
      ([a, b, sz, bar, d].all s.me.free = true → d ∉ [a, b, sz, bar] → s.Plain →
        exec (.scpy d a b sz bar comp toa x y) s = .next (s.scalarTrap t))))

/-- 05_scalar R97, R100: the loads, by length, access width, extension and address. A load completes where its registers
are ready, no entry of the queue is under way, no pure task checks it, and the checks of R99 find nothing: its bytes are
those that `State.load` reads. One whose address is no multiple of its width accesses its bytes one by one, those of a
move in one step, and completes with the bytes as they were when each was accessed; that the schedule names the bytes of
a move, and that they are checked as a whole each time, is the model's choice (notes/assumptions/2). -/
def Obligations.ScalarLoads : Prop :=
  (∀ (s : State) (d a : SReg) (o11 : BitVec 11) (o32 : BitVec 32), s.Ready [a] [d] → s.Quiet → s.Plain →
    let t := s.reading [a]
    let go := fun (i : Instr) (len n : Nat) (x : Word) (ext : Word → Word) =>
      ∀ bs, t.load (t.who s.cur) x.toNat n = .ok bs →
        (x.toNat % n = 0 → exec i s = .next (t.retire len d (ext (wordOfBytes bs)))) ∧
        (x.toNat % n ≠ 0 →
          let p := t.partWith bs (t.bytesOf x.toNat n)
          ((∀ j < n, (tget p j).isSome = true) → exec i s = .next ((t.withPart []).retire len d
            (ext (wordOfBytes ((List.range n).map (fun j => (tget p j).getD 0)))))) ∧
          (∀ j < n, tget p j = none → exec i s = .next ((s.withPart p).waitHere false)))
    let x := s.readS a + o11.signExtend 64
    let y := s.readS a + o32.signExtend 64
    go (.lb d a o11) 4 1 x (fun v => (v.setWidth 8).signExtend 64) ∧
    go (.lbu d a o11) 4 1 x (fun v => (v.setWidth 8).setWidth 64) ∧
    go (.lh d a o11) 4 2 x (fun v => (v.setWidth 16).signExtend 64) ∧
    go (.lhu d a o11) 4 2 x (fun v => (v.setWidth 16).setWidth 64) ∧
    go (.lw d a o11) 4 4 x (fun v => (v.setWidth 32).signExtend 64) ∧
    go (.lwu d a o11) 4 4 x (fun v => (v.setWidth 32).setWidth 64) ∧
    go (.ld d a o11) 4 8 x id ∧
    go (.lbL d a o32) 8 1 y (fun v => (v.setWidth 8).signExtend 64) ∧
    go (.lbuL d a o32) 8 1 y (fun v => (v.setWidth 8).setWidth 64) ∧
    go (.lhL d a o32) 8 2 y (fun v => (v.setWidth 16).signExtend 64) ∧
    go (.lhuL d a o32) 8 2 y (fun v => (v.setWidth 16).setWidth 64) ∧
    go (.lwL d a o32) 8 4 y (fun v => (v.setWidth 32).signExtend 64) ∧
    go (.lwuL d a o32) 8 4 y (fun v => (v.setWidth 32).setWidth 64) ∧
    go (.ldL d a o32) 8 8 y id) ∧
  (∀ (s : State) (bs : List Byte) (js : List Nat) (e n j : Nat), e % n ≠ 0 →
    tget (s.partWith bs js) j = (if j ∈ js then some (bs.getD j 0) else tget s.me.part j) ∧
    (j ∈ s.bytesOf e n ↔ j < n ∧ tget s.me.part j = none ∧ ∀ m, s.bytesNow = some m → j ∈ m))

/-- 05_scalar R97, R99, R100, R102: the stores write the low bytes of sd where the checks of R99 say, and move on. One whose
address is no multiple of its width stores its bytes one by one, those of a move in one step; where some are left, later
moves of the hart store them without a check, and the move that stores the last leaves the hart behind the store with its
registers as they are. A move stores every byte that is left, or those of them that the schedule names, which is shown byte
by byte for the OS window; that the schedule names the bytes of a move, and that a store is checked once, is the model's
choice (notes/assumptions/2). -/
def Obligations.ScalarStores : Prop :=
  (∀ (s : State) (d a : SReg) (o11 : BitVec 11) (o32 : BitVec 32) (r : Region), s.Ready [a, d] [] → s.Quiet → s.Plain →
    let t := s.reading [a, d]
    let w := t.who s.cur
    let put := fun (i : Instr) (len n : Nat) (lo : Bool) (ea : Word) =>
      let bs := bytesOfNat n (s.readS d).toNat
      let x : Split := { len := len, reads := [a, d], base := ea.toNat, data := bs, localOnly := lo, region := r,
                         left := List.range n }
      let js := t.placesNow x
      let u := x.write w js t
      t.storeCheck w .write storeKinds n .none lo ea.toNat n = .ok r →
        (ea.toNat % n = 0 ∨ s.bytesNow = none →
          exec i s = .next ((t.writeRegion w .none lo ea.toNat bs r).advance len)) ∧
        ((∀ j < n, j ∈ js) → exec i s = .next (u.advance len)) ∧
        (∀ j < n, j ∉ js →
          exec i s = .next ((u.withMe { u.me with split := some (x.after js), unread := s.me.unread }).waitHere false))
    let x := s.readS a + o11.signExtend 64
    let y := s.readS a + o32.signExtend 64
    put (.sb d a o11) 4 1 false x ∧ put (.sh d a o11) 4 2 false x ∧ put (.sw d a o11) 4 4 false x ∧
    put (.st d a o11) 4 8 false x ∧ put (.stLocal d a o11) 4 8 true x ∧
    put (.sbL d a o32) 8 1 false y ∧ put (.shL d a o32) 8 2 false y ∧ put (.swL d a o32) 8 4 false y ∧
    put (.stL d a o32) 8 8 false y ∧ put (.stLocalL d a o32) 8 8 true y) ∧
  (∀ (s : State) (x : Split), s.me.split = some x → s.vectorMoves = false →
    let js := s.placesNow x
    let u := x.write (s.who s.cur) js s
    ((∀ j ∈ x.left, j ∈ js) → ∃ v, s.turn = .next v ∧ v.me.pc = s.me.pc + BitVec.ofNat 64 x.len ∧ v.me.split = none ∧
      v.me.regs = s.me.regs ∧ v.mem = u.mem ∧ v.hostMem = u.hostMem) ∧
    (∀ j ∈ x.left, j ∉ js →
      s.turn = .next ((u.withMe { u.me with split := some (x.after js) }).waitHere false))) ∧
  (∀ (s : State) (x : Split) (j : Nat),
    (j ∈ s.placesNow x ↔ j ∈ x.left ∧ (x.base % x.data.length ≠ 0 → ∀ m, s.bytesNow = some m → j ∈ m)) ∧
    (∀ js, j ∈ (x.after js).left ↔ j ∈ x.left ∧ j ∉ js)) ∧
  (∀ (s : State) (x : Split) (js : List Nat) (off y : Nat), swf 0 s.myCtx.osw = true → x.region = .window false off →
    (∀ j ∈ js, j < x.data.length) →
    let u := x.write (s.who s.cur) js s
    sget 0 u.myCtx.osw y = (if off ≤ y ∧ y - off ∈ js then x.data.getD (y - off) 0 else sget 0 s.myCtx.osw y) ∧
    u.mem = s.mem ∧ u.hostMem = s.hostMem ∧ u.me = s.me)

/-- 05_scalar R97–R102, frame: ST, and ST.LOCAL, aligned or not, change no byte of device memory outside the copies of
the pieces that the checks answer, no byte of a window outside the bytes stored, no tag, mask, tile, distribution, scale
or control register of the context, and no register of the hart; PC moves on, or stays while bytes of an unaligned store
are left. That a store to a LOOSE page writes the replica of the writer's die in its step, the others later, is
the model's choice (notes/assumptions/14). Of what a store marks besides (granules, WGEN, watches, unread-error bits) this says nothing. -/
def Obligations.StoreFrame : Prop :=
  ∀ (s u : State) (lo : Bool) (d a : SReg) (o11 : BitVec 11) (r : Region), s.Ready [a, d] [] → s.Quiet → s.Plain →
    let t := s.reading [a, d]
    let w := t.who s.cur
    let e := (s.readS a + o11.signExtend 64).toNat
    t.storeCheck w .write storeKinds 8 .none lo e 8 = .ok r →
    exec (if lo then .stLocal d a o11 else .st d a o11) s = .next u →
    (∀ x, (match r with
        | .window _ _ => True
        | .pages ps => ∀ p ∈ ps, ∀ c ∈ storedCopies p.1 lo, x < c ∨ c + p.2.2 ≤ x) → u.memByte x = s.memByte x) ∧
    (∀ x, (match r with
        | .window false off => x < off ∨ off + 8 ≤ x
        | _ => True) → sget 0 u.myCtx.osw x = sget 0 s.myCtx.osw x) ∧
    (e % 8 = 0 → u.me.pc = s.me.pc + 4) ∧ (u.me.pc = s.me.pc + 4 ∨ u.me.pc = s.me.pc) ∧
    u.myCtx.isw = s.myCtx.isw ∧ u.me.regs = s.me.regs ∧ u.me.fflags = s.me.fflags ∧
    u.myCtx.v = s.myCtx.v ∧ u.myCtx.vtag = s.myCtx.vtag ∧ u.myCtx.m = s.myCtx.m ∧ u.myCtx.tile = s.myCtx.tile ∧
    u.myCtx.sorus = s.myCtx.sorus ∧ u.myCtx.scale = s.myCtx.scale ∧ u.myCtx.vl = s.myCtx.vl ∧
    u.myCtx.vtype = s.myCtx.vtype ∧ u.myCtx.vfill = s.myCtx.vfill ∧ u.myCtx.spc = s.myCtx.spc ∧
    u.myCtx.vcp = s.myCtx.vcp ∧ u.myCtx.trapvec = s.myCtx.trapvec ∧ u.me.trapinfo = s.me.trapinfo ∧
    u.me.trapaddr = s.me.trapaddr

/-- 02_machine R35; 05_scalar R97–R99; 12_context R279, R280: an access that ends past 2^57 is a PAGEFAULT with DETAIL 2
and its address in TRAPADDR, before any other check, and ACC tells a load from a store. A load inside the IS window
answers the window's bytes; a store there, a load from the OS window, and a store to the OS window by the fetch hart are
attribute faults; other stores to the OS window go there. -/
def Obligations.AddressChecks : Prop :=
  (∀ (s : State) (w : Who) (a n : Nat) (kinds : PageKind → Bool) (align : Nat) (l : Level) (lo : Bool),
     2 ^ 57 < a + n →
     s.loadFor w 1 .read kinds align a n = .trap { cause := .pagefault, acc := 1, detail := 2, addr := BitVec.ofNat 64 a } ∧
     s.storeCheck w .write kinds align l lo a n =
       .trap { cause := .pagefault, acc := 2, detail := 2, addr := BitVec.ofNat 64 a }) ∧
  (∀ (s : State) (r : HartRef) (off n : Nat), 0 < n →
     let w := s.who r
     let c := s.ctx r.cid
     (off + n ≤ c.isBytes →
       s.load w (windowLo + off) n = .ok (sgetList 0 c.isw off n) ∧
       s.storeCheck w .write storeKinds n .none false (windowLo + off) n =
         .trap { cause := .pageattr, acc := 2, addr := BitVec.ofNat 64 (windowLo + off) }) ∧
     (off + n ≤ c.osBytes →
       s.load w (osBase + off) n = .trap { cause := .pageattr, acc := 1, addr := BitVec.ofNat 64 (osBase + off) } ∧
       s.storeCheck w .write storeKinds n .none false (osBase + off) n =
         (if r.kind = .fh then .trap { cause := .pageattr, acc := 2, addr := BitVec.ofNat 64 (osBase + off) }
          else .ok (.window false off))))

/-- 05_scalar R103–R106: every atomic reads the old doubleword into sd and writes the new one at the home slice, in one
step; one of a releasing order, and ST.REL, waits while multicasts of the hart are under way, which is the model's choice
(notes/assumptions/14); ATOM.CAS writes only where the old doubleword is the
expected one, which sd holds; LD.ACQ reads and ST.REL writes a doubleword of a SYNC page; an atomic off its alignment is
MISALIGN, after the page faults. -/
def Obligations.Atomics : Prop :=
  (∀ (s : State) (ord : BitVec 2) (d a b : SReg) (pl : Place), s.Ready [a, b] [d] → s.Quiet → s.Plain →
     s.outstanding = false ∨ ordReleases ord = false →
     let t := s.reading [a, b]
     t.atomicCheck (t.who s.cur) 2 .rmw 8 (s.readS a).toNat 8 = .ok pl → s.migrating .sync pl.pa = false →
     let x := s.memWord pl.pa
     let y := s.readS b
     let put := fun (v : Word) => (t.syncWrite (t.who s.cur) pl.pa (bytesOfNat 8 v.toNat)).retire 4 d x
     exec (.atomSwap ord d a b) s = .next (put y) ∧
     exec (.atomAdd ord d a b) s = .next (put (x + y)) ∧
     exec (.atomAnd ord d a b) s = .next (put (x &&& y)) ∧
     exec (.atomOr ord d a b) s = .next (put (x ||| y)) ∧
     exec (.atomXor ord d a b) s = .next (put (x ^^^ y)) ∧
     exec (.atomMin ord d a b) s = .next (put (if x.toInt ≤ y.toInt then x else y)) ∧
     exec (.atomMax ord d a b) s = .next (put (if x.toInt ≤ y.toInt then y else x)) ∧
     exec (.atomMinu ord d a b) s = .next (put (if x.toNat ≤ y.toNat then x else y)) ∧
     exec (.atomMaxu ord d a b) s = .next (put (if x.toNat ≤ y.toNat then y else x))) ∧
  (∀ (s : State) (ord : BitVec 2) (d a b : SReg), s.outstanding = true → s.Plain →
     (ordReleases ord = true → s.Ready [a, b] [d] →
       exec (.atomSwap ord d a b) s = .next (s.waitHere false) ∧ exec (.atomAdd ord d a b) s = .next (s.waitHere false) ∧
       exec (.atomAnd ord d a b) s = .next (s.waitHere false) ∧ exec (.atomOr ord d a b) s = .next (s.waitHere false) ∧
       exec (.atomXor ord d a b) s = .next (s.waitHere false) ∧ exec (.atomMin ord d a b) s = .next (s.waitHere false) ∧
       exec (.atomMax ord d a b) s = .next (s.waitHere false) ∧ exec (.atomMinu ord d a b) s = .next (s.waitHere false) ∧
       exec (.atomMaxu ord d a b) s = .next (s.waitHere false)) ∧
     (ordReleases ord = true → s.Ready [a, b, d] [d] → exec (.atomCas ord d a b) s = .next (s.waitHere false)) ∧
     (s.Ready [a, b] [] → exec (.stRel a b) s = .next (s.waitHere false))) ∧
  (∀ ord : BitVec 2, ordReleases ord = decide (2 ≤ ord.toNat)) ∧
  ((∀ (s : State) (ord : BitVec 2) (d a b : SReg) (pl : Place), s.Ready [a, b, d] [d] → s.Quiet → s.Plain →
     s.outstanding = false ∨ ordReleases ord = false →
     let t := s.reading [a, b, d]
     t.atomicCheck (t.who s.cur) 2 .rmw 8 (s.readS a).toNat 8 = .ok pl → s.migrating .sync pl.pa = false →
     let x := s.memWord pl.pa
     exec (.atomCas ord d a b) s = .next
       ((if x = s.readS d then t.syncWrite (t.who s.cur) pl.pa (bytesOfNat 8 (s.readS b).toNat) else t).retire 4 d x)) ∧
   (∀ (s : State) (d a : SReg) (pl : Place), s.Ready [a] [d] → s.Quiet → s.Plain →
     let t := s.reading [a]
     t.atomicCheck (t.who s.cur) 1 .read 8 (s.readS a).toNat 8 = .ok pl →
     exec (.ldAcq d a) s = .next (t.retire 4 d (s.memWord pl.pa))) ∧
   (∀ (s : State) (a b : SReg) (pl : Place), s.Ready [a, b] [] → s.Quiet → s.Plain →
     s.outstanding = false →
     let t := s.reading [a, b]
     t.atomicCheck (t.who s.cur) 2 .write 8 (s.readS a).toNat 8 = .ok pl → s.migrating .sync pl.pa = false →
     exec (.stRel a b) s = .next ((t.syncWrite (t.who s.cur) pl.pa (bytesOfNat 8 (s.readS b).toNat)).advance 4)) ∧
   (∀ (s : State) (w : Who) (acc : Nat) (need : Need) (a n : Nat) (ps : List (Place × Nat × Nat)),
     s.locate w acc need a n = .ok (.pages ps) → ps.all (fun p => decide (p.1.kind = .sync)) = true → a % 8 ≠ 0 →
     s.atomicCheck w acc need 8 a n = .trap { cause := .misalign, acc := acc, addr := BitVec.ofNat 64 a }))

/-- 02_machine R21, R23; 05_scalar R107, R109: the pipes hold 16 entries in order, and a full or an empty one makes the
hart wait, yielding; that PSEND waits for the hart's own multicasts is the model's choice (notes/assumptions/14). WAITV completes at once where the doubleword holds the value, else it leaves a watch at the home slice and
yields; once a write has shown the value, it completes with it. -/
def Obligations.PipesAndWaits : Prop :=
  ((∀ (s : State) (a : SReg), s.Ready [a] [] → s.Plain →
     let t := s.reading [a]
     let can := s.Quiet ∧ s.outstanding = false
     (can → s.cur.kind = .fh → s.myCtx.pipeIn.length < 16 → exec (.psend a) s =
       .next ((t.withMyCtx { t.myCtx with pipeIn := s.myCtx.pipeIn ++ [s.readS a] }).advance 4)) ∧
     (can → s.cur.kind = .ch → s.myCtx.pipeOut.length < 16 → exec (.psend a) s =
       .next ((t.withMyCtx { t.myCtx with pipeOut := s.myCtx.pipeOut ++ [s.readS a] }).advance 4)) ∧
     (s.cur.kind = .fh → 16 ≤ s.myCtx.pipeIn.length → exec (.psend a) s = .next (s.waitHere true)) ∧
     (s.cur.kind = .ch → 16 ≤ s.myCtx.pipeOut.length → exec (.psend a) s = .next (s.waitHere true)) ∧
     (s.outstanding = true → s.cur.kind = .fh → s.myCtx.pipeIn.length < 16 → exec (.psend a) s = .next (s.waitHere false)) ∧
     (s.outstanding = true → s.cur.kind = .ch → s.myCtx.pipeOut.length < 16 → exec (.psend a) s = .next (s.waitHere false)) ∧
     (s.cur.kind = .dh → ∃ t, t.cause = .illegal ∧ t.detail = 7 ∧ exec (.psend a) s = .next (s.scalarTrap t))) ∧
   (∀ (s : State) (d : SReg) (x : Word) (r : List Word), s.Ready [] [d] → s.Plain →
     let t := s.reading []
     (s.cur.kind = .ch → s.myCtx.pipeIn = [] → exec (.precv d) s = .next (s.waitHere true)) ∧
     (s.cur.kind = .dh → s.myCtx.pipeOut = [] → exec (.precv d) s = .next (s.waitHere true)) ∧
     (s.cur.kind = .ch → s.myCtx.pipeIn = x :: r → exec (.precv d) s =
       .next ((t.withMyCtx { t.myCtx with pipeIn := r }).retire 4 d x)) ∧
     (s.cur.kind = .dh → s.myCtx.pipeOut = x :: r → exec (.precv d) s =
       .next ((t.withMyCtx { t.myCtx with pipeOut := r }).retire 4 d x)) ∧
     (s.cur.kind = .fh → ∃ t, t.cause = .illegal ∧ t.detail = 7 ∧ exec (.precv d) s = .next (s.scalarTrap t)))) ∧
  (∀ (s : State) (d a b : SReg), s.Ready [a, b] [d] → s.Quiet → s.Plain →
     let t := s.reading [a, b]
     (∀ pl, s.watchOf s.cur = none → t.atomicCheck (t.who s.cur) 1 .read 8 (s.readS a).toNat 8 = .ok pl →
       (s.memWord pl.pa = s.readS b → exec (.waitv d a b) s = .next (t.retire 4 d (s.readS b))) ∧
       (s.memWord pl.pa ≠ s.readS b → ∃ u, exec (.waitv d a b) s = .next u ∧ u.me.pc = s.me.pc ∧
         u.me.yielding = true ∧ u.me.regs = s.me.regs ∧ u.mem = s.mem ∧
         u.watches = s.watches ++ [{ ref := s.cur, pa := pl.pa, want := s.readS b, hit := false }])) ∧
     (∀ w, s.watchOf s.cur = some w → w.hit = true →
       exec (.waitv d a b) s = .next ((t.unwatch s.cur).retire 4 d w.want)))

/-- 11_ordering R268–R270; 13_kernel R315: the fences complete once the hart's copies have ended and no entry of the queue
accesses memory, those of a scope that takes in other dies when its multicasts have reached every replica; FENCE.SC waits
for the next heartbeat as well. That a fence of DEV or FAB waits for the hart's own multicasts, and that FENCE.FAB
completes on this device as FENCE.DEV does, is the model's choice (notes/assumptions/14, 50). HBREAD
reads HB, and HBWAIT completes where HB has reached ReadS(A). -/
def Obligations.FencesAndHeartbeat : Prop :=
  (∀ (s : State), s.Ready [] [] → s.Quiet → s.copiesDone s.cur = true →
    let t := s.reading []
    exec .fenceCore s = .next (t.advance 4) ∧ exec .fenceQuad s = .next (t.advance 4) ∧
    exec .fenceDie s = .next (t.advance 4) ∧ exec .fenceEng s = .next (t.advance 4) ∧
    (s.outstanding = false → exec .fenceDev s = .next (t.advance 4) ∧ exec .fenceFab s = .next (t.advance 4)) ∧
    (s.outstanding = true →
      exec .fenceDev s = .next (s.here.waitHere false) ∧ exec .fenceFab s = .next (s.here.waitHere false)) ∧
    (∀ hb, s.me.fenceHb = some hb → hb ≠ s.hb →
      exec .fenceSc s = .next ((t.withMe { t.me with fenceHb := none }).advance 4)) ∧
    (s.outstanding = false → s.me.fenceHb = none →
      ∃ u, exec .fenceSc s = .next u ∧ u.me.fenceHb = some s.hb ∧ u.me.pc = s.me.pc)) ∧
  (∀ (s : State) (d a : SReg), s.Plain →
    (s.Ready [] [d] → exec (.hbread d) s = .next ((s.reading []).retire 4 d s.hb)) ∧
    (s.Ready [a] [] → (s.readS a).toNat ≤ s.hb.toNat → exec (.hbwait a) s = .next ((s.reading [a]).advance 4)) ∧
    (s.Ready [a] [] → s.hb.toNat < (s.readS a).toNat → ∃ u, exec (.hbwait a) s = .next u ∧ u.me.pc = s.me.pc ∧
      u.me.yielding = true ∧ u.me.regs = s.me.regs))

/-- 12_context R278–R284: taking a trap in the context's handler. TRAPINFO has the cause in [63:58], ACC in [55:54], the
level in [53:51], the writer in [50:42] and DETAIL in [41:34]; TRAPADDR is the address; SPC is PC, or the next
instruction for EBREAK; PC is BASE of TRAPVEC plus 64 × cause; and INH is set. A trap of the compute hart sets VCP to SPC as well,
which is the model's choice (notes/assumptions/19). While earlier entries of the queue are
under way a trap of the compute hart is not taken: nothing has happened, and the hart waits at its instruction. A store that
another hart of the context has under way is completed first (R274; notes/assumptions/2); where there is none, memory and
the turn state stay. -/
def Obligations.TrapEntry : Prop :=
  (∀ (s : State) (t : Trap), s.Quiet → s.me.split = none → s.myCtx.handler = none → bit s.myCtx.trapvec 63 = true → t.toSupervisor = false →
     let u := s.scalarTrap t
     u.me.trapinfo = BitVec.ofNat 64 (t.cause.code * 2 ^ 58 + t.acc * 2 ^ 54 + t.level.rank * 2 ^ 51 + t.writer * 2 ^ 42
       + t.detail * 2 ^ 34 + t.elem * 2 ^ 14) ∧
     u.me.trapaddr = t.addr ∧
     u.myCtx.spc = (if t.cause = .ebreak then s.me.pc + 4 else s.me.pc) ∧
     (s.cur.kind = .ch → u.myCtx.vcp = u.myCtx.spc) ∧ (s.cur.kind ≠ .ch → u.myCtx.vcp = s.myCtx.vcp) ∧
     u.myCtx.handler = some s.cur.kind ∧
     u.me.pc = BitVec.ofNat 64 (bits s.myCtx.trapvec 12 45 * 4096 + 64 * t.cause.code) ∧
     u.me.regs = s.me.regs ∧ u.me.fflags = s.me.fflags ∧ (∀ k, (u.myCtx.hart k).split = none) ∧
     ((∀ k, (s.myCtx.hart k).split = none) → u.mem = s.mem ∧ u.gran = s.gran)) ∧
  (∀ (s : State) (t : Trap), s.cur.kind = .ch → s.myCtx.viq ≠ [] → s.scalarTrap t = s.waitHere false)

/-- 12_context R278, R288, R291, R292: a trap that the context does not handle stops it: without a supervisor its kernel
is killed; with one it is HELD, unless it is being saved, and a record of the trap waits for the ring, except that a
translation fault stalls the hart alone. -/
def Obligations.TrapToSupervisor : Prop :=
  ∀ (s : State) (t : Trap), s.Quiet → s.me.split = none →
    (t.toSupervisor = true ∨ bit s.myCtx.trapvec 63 = false ∨ s.myCtx.handler.isSome = true) →
    (s.supervisor = none → s.scalarTrap t = (s.logTrap s.cur t).killCtx s.cur.cid) ∧
    (t.cause ≠ .eccfatal → s.logTrap s.cur t = s) ∧
    (∀ c, s.supervisor = some c → t.isXlat = false →
      (s.myCtx.slotState ≠ .saving → (s.scalarTrap t).myCtx.slotState = .held) ∧
      (s.myCtx.slotState = .saving → (s.scalarTrap t).myCtx.slotState = .saving) ∧ (s.scalarTrap t).me.pc = s.me.pc ∧
      ∃ r, (s.scalarTrap t).traps = s.traps ++ [r] ∧ r.ref = s.cur ∧ r.addr = t.addr ∧ r.hb = s.hb) ∧
    (∀ c, s.supervisor = some c → t.isXlat = true →
      (s.scalarTrap t).myCtx.slotState = s.myCtx.slotState ∧ (s.scalarTrap t).me.pc = s.me.pc ∧
      (s.scalarTrap t).me.stalled = some s.serial ∧ ∃ r, (s.scalarTrap t).traps = s.traps ++ [r] ∧ r.xlat = true)

/-- 12_context R285, R286: ECALL and EBREAK trap with their causes; ERET outside a handler is Illegal with detail 7, and
in the handler it clears INH, restores VL, VTYPE and the queue's image on the compute hart, and continues at SPC. -/
def Obligations.CallsAndReturns : Prop :=
  (∀ s : State, s.Ready [] [] → (∃ t, t.cause = .ecall ∧ t.detail = 0 ∧ exec .ecall s = .next (s.here.scalarTrap t)) ∧
    ∃ t, t.cause = .ebreak ∧ t.detail = 0 ∧ exec .ebreak s = .next (s.here.scalarTrap t)) ∧
  (∀ s : State, s.myCtx.handler ≠ some s.cur.kind →
    ∃ t, t.cause = .illegal ∧ t.detail = 7 ∧ exec .eret s = .next (s.here.scalarTrap t)) ∧
  (∀ s : State, s.Ready [] [] → s.Quiet → s.myCtx.handler = some s.cur.kind → ∃ u, exec .eret s = .next u ∧
    u.myCtx.handler = none ∧ u.me.pc = s.myCtx.spc &&& ~~~3#64 ∧ u.me.regs = s.me.regs ∧ u.mem = s.mem ∧
    (∀ im, s.cur.kind = .ch → s.myCtx.image = some im →
      u.myCtx.viq = im.entries ∧ u.myCtx.vl = im.vl ∧ u.myCtx.vtype = im.vtype ∧ u.myCtx.image = none))

/-- 02_machine R30–R34; 03_encoding R54, R60; 05_scalar R110; 09_page R201; 12_context R279, R281; 17_reuse R383: CSRR writes a
register's value to sd; CSRW, CSRS and CSRC write, set and clear bits of FFLAGS on every hart, of VFILL on the compute hart,
and at SUPER of the privileged registers, but for MAXLEN (in the statement on vector configuration) and the registers whose
writes other units do (whose waiting is shown here, and what they do in the statements on pages and on reuse). A write
keeps the bits that a register has; that the low bits of HOTLOG are among them is the model's choice (notes/assumptions/38). At
USER a write of any other control register is Illegal with detail 6; a write of a register that no code may write is Illegal
with detail 5 also at SUPER; one of VFILL or MAXLEN on another hart with detail 7. The last clauses say what CSRR reads. -/
def Obligations.ControlRegisters : Prop :=
  (∀ (s : State) (d a : SReg) (r : Csr), s.Quiet → s.Plain →
     (s.Ready [] [d] → exec (.csrr d r) s = .next ((s.reading []).retire 4 d (s.csrValue r))) ∧
     (s.Ready [a] [] → s.me.pendCsr = none →
       let t := s.reading [a]
       let x := s.csrValue r
       let y := s.readS a
       (r = .fflags ∨ (r = .vfill ∧ s.cur.kind = .ch) ∨
          (s.myCtx.super = true ∧ r ∈ [Csr.vcp, .spc, .trapinfo, .trapaddr, .trapvec, .xtsel, .xroot, .hotctl, .hotres, .hotlog,
            .hotstat, .migva, .rutsel]) →
         exec (.csrw r a) s = .next ((t.setCsr r y).advance 4) ∧
         exec (.csrs r a) s = .next ((t.setCsr r (x ||| y)).advance 4) ∧
         exec (.csrc r a) s = .next ((t.setCsr r (x &&& ~~~y)).advance 4)) ∧
       (s.myCtx.super = true → r = .ruquota ∨ r = .rupool ∨ (r = .xinv ∧ bits y 0 2 ≠ 3) ∨
          (r = .migcmd ∧ bit y 0 = true ∧ bits s.myCtx.migstat 0 2 ≠ 1) →
         ∃ u, exec (.csrw r a) s = .next u ∧ u.me.pc = s.me.pc ∧ u.me.pendCsr = some (r, y &&& csrMask r) ∧ u.mem = s.mem) ∧
       (s.myCtx.super = true → (r = .xinv ∧ bits y 0 2 = 3) ∨ (r = .migcmd ∧ (bit y 0 = false ∨ bits s.myCtx.migstat 0 2 = 1)) →
         exec (.csrw r a) s = .next (t.advance 4)))) ∧
  (∀ (s : State) (x : Word), let c := s.myCtx
     let t := bits c.xtsel 0 7
     let dn := coreDie c.core
     (s.setCsr .fflags x).me.fflags = (x &&& 0x3F1F).setWidth 14 ∧ (s.setCsr .vfill x).myCtx.vfill = x ∧
     (s.setCsr .vcp x).myCtx.vcp = x ∧ (s.setCsr .spc x).myCtx.spc = x &&& ~~~3#64 ∧
     (s.setCsr .trapinfo x).me.trapinfo = x &&& ~~~0x3FFF#64 ∧ (s.setCsr .trapaddr x).me.trapaddr = x ∧
     (s.setCsr .trapvec x).myCtx.trapvec = x &&& 0x81FFFFFFFFFFF000 ∧
     (s.setCsr .xtsel x).myCtx.xtsel = x &&& 0x7F ∧ ((s.setCsr .xroot x).tenant t).xroot = x &&& ~~~0xFFF#64 ∧
     (∀ t', t' ≠ t → (s.setCsr .xroot x).tenant t' = s.tenant t') ∧
     ((s.setCsr .hotctl x).dieOf dn).hotctl = x &&& 0xFFFFFFFF0001 ∧
     ((s.setCsr .hotres x).dieOf dn).hotres = x &&& ~~~0xFFFF#64 ∧ ((s.setCsr .hotlog x).dieOf dn).hotlog = x ∧
     ((s.setCsr .hotstat x).dieOf dn).hotstat = x ∧ (s.setCsr .migva x).myCtx.migva = x ∧
     (s.setCsr .rutsel x).myCtx.rutsel = x &&& 0x7F ∧
     (∀ r, (s.setCsr r x).mem = s.mem ∧ (s.setCsr r x).gran = s.gran ∧ (s.setCsr r x).me.regs = s.me.regs ∧
       (s.setCsr r x).me.pc = s.me.pc ∧ (s.setCsr r x).hb = s.hb)) ∧
  (∀ (s : State) (a : SReg) (r : Csr), s.Ready [a] [] → s.Quiet → s.myCtx.super = false → r ≠ .fflags → r ≠ .vfill →
     ∃ t : Trap, t.cause = .illegal ∧ t.detail = 6 ∧ exec (.csrw r a) s = .next (s.here.scalarTrap t) ∧
       exec (.csrs r a) s = .next (s.here.scalarTrap t) ∧ exec (.csrc r a) s = .next (s.here.scalarTrap t)) ∧
  (∀ (s : State) (a : SReg) (r : Csr), s.Ready [a] [] → s.Quiet →
     (s.myCtx.super = true ∧ r ∈ [Csr.pc, .vl, .vtype, .hb, .grpid, .corid, .hartid, .tenant, .turncap, .xwalk, .migstat]) ∨
       (s.cur.kind ≠ .ch ∧ (r = .vfill ∨ (r = .maxlen ∧ s.myCtx.super = true))) →
     ∃ t : Trap, t.cause = .illegal ∧ t.detail = (if r = .vfill ∨ r = .maxlen then 7 else 5) ∧
       exec (.csrw r a) s = .next (s.here.scalarTrap t) ∧
       exec (.csrs r a) s = .next (s.here.scalarTrap t) ∧ exec (.csrc r a) s = .next (s.here.scalarTrap t)) ∧
  (∀ s : State, let c := s.myCtx
     let dn := coreDie c.core
     s.csrValue .hb = s.hb ∧ s.csrValue .fflags = s.me.fflags.setWidth 64 ∧
     s.csrValue .hartid = (match s.cur.kind with | .ch => 0 | .fh => 1 | .dh => 2) ∧
     s.csrValue .corid = BitVec.ofNat 64
       (c.core / 96 * 2 ^ 30 + c.core % 96 / 24 * 2 ^ 28 + c.core % 24 * 2 ^ 23 + c.slot * 2 ^ 16 + c.core) ∧
     (∀ k, s.kernel c.kernel = some k →
       s.csrValue .grpid = BitVec.ofNat 64 (k.group * 2 ^ 32 + k.size * 2 ^ 16 + c.member)) ∧
     s.csrValue .vl = BitVec.ofNat 64 c.vl ∧ (s.Quiet → s.csrValue .vtype = BitVec.ofNat 64 (c.vl * 2 ^ 32 + c.vtype.toNat)) ∧
     s.csrValue .vfill = c.vfill ∧ s.csrValue .maxlen = c.maxlen.setWidth 64 ∧
     s.csrValue .tenant = BitVec.ofNat 64 c.tenant ∧
     s.csrValue .turncap = BitVec.ofNat 64 (s.pending c.core * 2 ^ 32 + 65536) ∧
     s.csrValue .trapvec = c.trapvec ||| (if c.handler.isSome then 0x4000000000000000 else 0) ∧
     s.csrValue .pc = s.me.pc ∧ s.csrValue .trapinfo = s.me.trapinfo ∧ s.csrValue .trapaddr = s.me.trapaddr ∧
     s.csrValue .spc = c.spc ∧ s.csrValue .vcp = c.vcp ∧
     s.csrValue .xwalk = BitVec.ofNat 64 (s.dieOf dn).walks ∧ s.csrValue .hotctl = (s.dieOf dn).hotctl ∧
     s.csrValue .hotstat = (s.dieOf dn).hotstat ∧ s.csrValue .migstat = c.migstat ∧
     s.csrValue .xtsel = (if c.super then c.xtsel else 0) ∧
     s.csrValue .xroot = (if c.super then (s.tenant (bits c.xtsel 0 7)).xroot else 0) ∧
     s.csrValue .hotres = (if c.super then (s.dieOf dn).hotres else 0) ∧
     s.csrValue .hotlog = (if c.super then (s.dieOf dn).hotlog else 0) ∧
     s.csrValue .migva = (if c.super then c.migva else 0) ∧ s.csrValue .rutsel = (if c.super then c.rutsel else 0) ∧
     s.csrValue .ruquota = (s.tenant (if c.super then bits c.rutsel 0 7 else c.tenant)).ruquota ∧
     s.csrValue .rupool = (s.tenant (if c.super then bits c.rutsel 0 7 else c.tenant)).rupool)

/-- 09_page R211, R213, R214, R218: TURN over no bytes writes 0; over a region it walks the granules and writes the
status word, here for a walk that no interruption cuts short; a region of 2^40 bytes or one that ends past 2^57 is a
PAGEFAULT with DETAIL 2, which for a region of 2^40 bytes or more that ends below 2^57 is the model's choice
(notes/assumptions/28), as are the wait for multicasts under way (notes/assumptions/14, 90) and which buffered strips it
discards (notes/assumptions/120). In a walk a copy that another core wrote counts as foreign and stays; the core's own rises to the level and
never falls, and is CLEAN at HOST; and a reader whose distance exceeds the level fails its check. -/
def Obligations.Turn : Prop :=
  (∀ (s : State) (lvl : BitVec 3) (d a b : SReg), s.Ready [a, b] [d] → s.Quiet →
     s.outstanding = false →
     let t := s.reading [a, b]
     let x := (s.readS a).toNat
     let n := (s.readS b).toNat
     let L := levelOfCode lvl.toNat
     let lo := x / 64 * 64
     let hi := (x + n + 63) / 64 * 64
     (n = 0 → exec (.turn lvl d a b) s = .next (t.retire 4 d 0)) ∧
     (0 < n → n < 2 ^ 40 → x + n ≤ 2 ^ 57 → t.turnStalls (t.who s.cur) lo (hi - lo) = false → s.turnIntr = none →
       let r := turnWalk (t.who s.cur) L lo none ((hi - lo) / 64) lo (t, 0)
       exec (.turn lvl d a b) s = .next
         ((r.1.dropStrips (L.reaches (t.who s.cur).core) (t.rangeKeys (t.who s.cur) true lo (hi - lo))).retire 4 d
           (BitVec.ofNat 64 (min r.2.1 0xFFFF * 2 ^ 40 + n)))) ∧
     (0 < n → 2 ^ 40 ≤ n ∨ 2 ^ 57 < x + n → ∃ f : Trap, f.cause = .pagefault ∧ f.detail = 2 ∧ f.addr = s.readS a ∧
       exec (.turn lvl d a b) s = .next (s.here.scalarTrap f))) ∧
  ((∀ (s : State) (core key : Nat) (L : Level) (f : Nat) (g : Gran), tget s.gran key = some g →
     (g.writer ≠ core → turnCopy core L (s, f) key = (s, f + 1)) ∧
     (g.writer = core → L = .host → g.level.rank < 5 → turnCopy core L (s, f) key = ({ s with gran := tdel s.gran key }, f)) ∧
     (g.writer = core → L ≠ .host → g.level.rank < L.rank →
       turnCopy core L (s, f) key = ({ s with gran := tput s.gran key { g with level := L } }, f)) ∧
     (g.writer = core → L.rank ≤ g.level.rank → turnCopy core L (s, f) key = (s, f))) ∧
   (∀ (s : State) (core key : Nat), tget s.gran key = none → s.readCheck core key = none) ∧
   (∀ (s : State) (core key : Nat) (g : Gran), tget s.gran key = some g →
     s.readCheck core key = (if g.level.rank < (distance g.writer core).rank then some g else none)))

/-- 09_page R223, R224: TWAIT answers how many granules of its widened region cannot be read yet: at once when there are
none or TIMEOUT is 0, else it waits, and when TIMEOUT has passed it ends with the count; an entry of the queue that
accesses memory or a window comes first, and so do the multicasts of its core that are under way to the stacks of the region
(11_ordering R254; 18_link R423; notes/assumptions/90). Time is counted in heartbeats
of 64 cycles, which is the model's choice (notes/assumptions/8). -/
def Obligations.TurnWait : Prop :=
  (∀ (s : State) (d a b : SReg) (timeout : BitVec 32), s.Ready [a, b] [d] →
    let t := s.reading [a, b]
    let x := (s.readS a).toNat
    let n := (s.readS b).toNat
    let u := t.unready (t.who s.cur) x n
    (n = 0 → exec (.twait d a b timeout) s = .next (t.retire 8 d 0)) ∧
    (0 < n → n < 2 ^ 40 → x + n ≤ 2 ^ 57 → s.cur.kind = .ch → s.myCtx.viq.any (entryMem s.myCtx) = true →
      exec (.twait d a b timeout) s = .next (s.waitHere false)) ∧
    (0 < n → n < 2 ^ 40 → x + n ≤ 2 ^ 57 → s.Quiet → s.me.twait = none → t.twaitFault (t.who s.cur) x n = none →
      (t.unreadyBehind (t.who s.cur) x n = true → exec (.twait d a b timeout) s = .next (s.waitHere false)) ∧
      (t.unreadyBehind (t.who s.cur) x n = false → u = 0 ∨ timeout = 0 →
        exec (.twait d a b timeout) s = .next ((t.withMe { t.me with twait := none }).retire 8 d (BitVec.ofNat 64 u))) ∧
      (t.unreadyBehind (t.who s.cur) x n = false → u ≠ 0 → timeout ≠ 0 → ∃ v, exec (.twait d a b timeout) s = .next v ∧ v.me.pc = s.me.pc ∧ v.me.yielding = true ∧
        v.me.twait = some { d := d, start := x, len := n, timeout := timeout.toNat, since := s.hb }))) ∧
  (∀ (s : State) (w : TWait),
    let r : HartRef := { cid := s.evArg.a, kind := s.evArg.h }
    (s.hart r).twait = some w → w.timeout ≤ 64 * (s.hb - w.since).toNat + 63 →
    s.unreadyBehind (s.who r) w.start w.len = false →
    exec .twaitTimeout s = .next (s.withHart r { ((s.hart r).writeS w.d
      (BitVec.ofNat 64 (s.unready (s.who r) w.start w.len))) with
        twait := none, pc := (s.hart r).pc + 8, yielding := false }))

/-- 06_vector R116, R123, R125; 04_numbers R70–R78: the value minors. An active element of vd becomes the exact result
of its sources' values, rounded into the type of vd; the fused forms take the old vd as the addend. That an entry is
executed as soon as it can be is the model's choice (notes/assumptions/17). -/
def Obligations.VectorArithmetic : Prop :=
  ∀ (s : State) (xs : BitVec 1) (k : MReg) (d a : VReg) (b : BitVec 5),
    let reads := if xs = 1 then [b] else []
    let c := s.myCtx
    let y := if xs = 1 then Src2.scalar (s.readS b) else Src2.vec b
    let rm := rmodeOf (bits c.vtype 3 2)
    let int := c.intReg a && c.src2Int a y
    let two := fun (i : Instr) (f : Val → Val → Val × FFlags) =>
      let e := s.entryOf i reads
      vecCheck c e ([tagType (c.tag d), tagType (c.tag a)] ++ c.src2Codes y) [k]
        ([c.span d, c.span a] ++ c.src2Spans y) = none →
      entryGives s i 4 reads [] (fun t => t.writeResults d (c.regWidth d) 0x30 ((c.actives e k).map (fun j =>
        let p := c.srcVal e a j
        let q := c.src2Val e a y j
        let r := f p.1 q.1
        (j, e.toDest (c.regType d) int (r.1, (p.2.or q.2).or r.2)))))
    let three := fun (i : Instr) (f : Val → Val) =>
      let e := s.entryOf i reads
      vecCheck c e ([tagType (c.tag d), tagType (c.tag a)] ++ c.src2Codes y) [k]
        ([c.span d, c.span a] ++ c.src2Spans y) = none →
      entryGives s i 4 reads [] (fun t => t.writeResults d (c.regWidth d) 0x30 ((c.actives e k).map (fun j =>
        let p := c.srcVal e a j
        let q := c.src2Val e a y j
        let z := c.srcVal e d j
        let r := Val.fma rm p.1 q.1 (f z.1)
        (j, e.toDest (c.regType d) (int && c.intReg d) (r.1, ((p.2.or q.2).or z.2).or r.2)))))
    two (.vadd xs k d a b) (fun x y => x.add rm y) ∧
    two (.vsub xs k d a b) (fun x y => x.add rm y.negate) ∧
    two (.vmul xs k d a b) (fun x y => x.mul y) ∧
    two (.vdiv xs k d a b) (fun x y => if int then (x.intDiv y, .none) else x.div y) ∧
    two (.vmin xs k d a b) (Val.pick false) ∧
    two (.vmax xs k d a b) (Val.pick true) ∧
    three (.vfma xs k d a b) id ∧
    three (.vfms xs k d a b) Val.negate

/-- 06_vector R126: the bit minors work on stored bits; a result is zero-extended or cut to the width of vd, and a shift
takes its amount modulo the width of va's type. They raise no flag. The write of results, with which every element-wise
instruction ends, changes FFLAGS and the bytes of the elements it writes; issue changes the queue, PC, the busy and the
unread-error bits, and the end of an entry the queue and the busy bits: nothing else changes. That an entry is executed
as soon as it can be is the model's choice (notes/assumptions/17). -/
def Obligations.VectorBits : Prop :=
  (∀ (s : State) (xs : BitVec 1) (k : MReg) (d a : VReg) (b : BitVec 5),
     let reads := if xs = 1 then [b] else []
     let c := s.myCtx
     let y := if xs = 1 then Src2.scalar (s.readS b) else Src2.vec b
     let w := c.regWidth a
     let op := fun (i : Instr) (f : Nat → Nat → Nat) =>
       let e := s.entryOf i reads
       vecCheck c e [] [k] ([c.span d, c.span a] ++ c.src2Spans y) = none →
       entryGives s i 4 reads [] (fun t => t.writeResults d (c.regWidth d) 0x30 ((c.actives e k).map (fun j =>
         (j, f (c.src e a w j) (c.src2Bits e a y j) % 2 ^ w % 2 ^ c.regWidth d, .none))))
     op (.vand xs k d a b) (fun x y => x &&& (y % 2 ^ w)) ∧
     op (.vor xs k d a b) (fun x y => x ||| (y % 2 ^ w)) ∧
     op (.vxor xs k d a b) (fun x y => x ^^^ (y % 2 ^ w)) ∧
     op (.vsll xs k d a b) (fun x y => x * 2 ^ (y % w)) ∧
     op (.vsrl xs k d a b) (fun x y => x / 2 ^ (y % w)) ∧
     op (.vsra xs k d a b) (fun x y => x / 2 ^ (y % w) +
       (if x / 2 ^ (w - 1) % 2 = 1 then 2 ^ w - 2 ^ (w - y % w) else 0))) ∧
  (∀ (s : State) (d : VReg) (w : Nat) (maj : BitVec 6) (rs : List (Nat × Nat × FFlags)), swf 0 s.myCtx.v = true →
    let u := s.writeResults d w maj rs
    let used := s.myCtx.usedBytes
    let at_ := fun (i : Nat) => (d.toNat + i * w / (8 * used)) * vStride + i * w % (8 * used) / 8
    u.me = { s.me with fflags := u.me.fflags } ∧
    u.myCtx = { s.myCtx.withHart s.cur.kind u.me with v := u.myCtx.v } ∧
    (∀ cid, cid ≠ s.cur.cid → u.ctx cid = s.ctx cid) ∧ ({ u with ctxs := s.ctxs } : State) = s ∧
    ∀ x, (∀ r ∈ rs, x < at_ r.1 ∨ at_ r.1 + max 1 (w / 8) ≤ x) → sget 0 u.myCtx.v x = sget 0 s.myCtx.v x) ∧
  (∀ (s : State) (e : VEntry),
    let u := completeHead e s
    u.me = { s.me with busy := u.me.busy } ∧
    u.myCtx = { s.myCtx.withHart s.cur.kind u.me with viq := s.myCtx.viq.drop 1 } ∧
    (∀ cid, cid ≠ s.cur.cid → u.ctx cid = s.ctx cid) ∧ ({ u with ctxs := s.ctxs } : State) = s) ∧
  (∀ (s : State) (i : Instr) (n : Nat) (reads writes : List SReg),
    let u := s.issued i n reads writes
    u.me = { s.me with
      pc := s.me.pc + BitVec.ofNat 64 n, busy := u.me.busy, unread := (s.me.clearRead reads).unread } ∧
    u.myCtx = { s.myCtx.withHart s.cur.kind u.me with viq := s.myCtx.viq ++ [s.entryOf i reads] } ∧
    (∀ cid, cid ≠ s.cur.cid → u.ctx cid = s.ctx cid) ∧ ({ u with ctxs := s.ctxs } : State) = s)

/-- 06_vector R127, R128, R132, R133: the unary minors, VMOV, which moves bits and the tag, VCVT, and VQNT, which
divides by the scale of the destination and saturates. That an entry is executed as soon as it can be is the model's
choice (notes/assumptions/17). -/
def Obligations.VectorUnary : Prop :=
  ∀ (s : State) (k : MReg) (d a : VReg),
    let c := s.myCtx
    let one := fun (i : Instr) (maj : BitVec 6) (int : Bool) (g : Val → Val × FFlags) =>
      let e := s.entryOf i []
      vecCheck c e [tagType (c.tag d), tagType (c.tag a)] [k] [c.span d, c.span a] = none →
      entryGives s i 4 [] [] (fun t => t.writeResults d (c.regWidth d) maj ((c.actives e k).map (fun j =>
        let p := c.srcVal e a j
        let r := g p.1
        (j, e.toDest (c.regType d) (int && c.intReg a) (r.1, p.2.or r.2)))))
    one (.vabs k d a) 0x30 true valAbs ∧
    one (.vneg k d a) 0x30 true valNeg ∧
    one (.vsqrt k d a) 0x30 false valSqrt ∧
    one (.vrcp k d a) 0x30 false valRcp ∧
    one (.vrsq k d a) 0x30 false valRsq ∧
    one (.vexp2 k d a) 0x30 false valExp2 ∧
    one (.vlog2 k d a) 0x30 false valLog2 ∧
    one (.vtanh k d a) 0x30 false valTanh ∧
    one (.vsigm k d a) 0x30 false valSigm ∧
    one (.vcvt k d a) 0x32 true (fun x => (x, .none)) ∧
    (let e := s.entryOf (.vmov k d a) []
     vecCheck c e [] [k] [c.spanAs d a, c.span a] = none →
     entryGives s (.vmov k d a) 4 [] [] (fun t => t.withMyCtx ((t.myCtx.setTag d (c.tag a)).setElems d (c.regWidth a)
       ((c.actives e k).map (fun j => (j, c.elem a (c.regWidth a) j)))))) ∧
    (let e := s.entryOf (.vqnt k d a) []
     vecCheck c e [tagType (c.tag d), tagType (c.tag a)] [k] [c.span d, c.span a] = none →
     entryGives s (.vqnt k d a) 4 [] [] (fun t => t.writeResults d (c.regWidth d) 0x32 ((c.actives e k).map (fun j =>
       let p := c.srcVal e a j
       let r := if tagScaled (c.tag d) then p.1.div (c.scaleOf (c.tag d) j) else (p.1, .none)
       let q := toType (c.regType d) false true e.rm r.1
       (j, q.1, (p.2.or r.2).or q.2)))))

/-- 06_vector R129, R130, R131: a comparison writes the mask bits of the active elements; NaN answers only VCNE, and a
quiet NaN raises IV in the ordered ones; the mask instructions act on every bit below VL; VMERGE takes va where the mask
is set, else vb, and converts it as its own kind of source, with the flags of that operand alone, which is the model's
choice (notes/assumptions/25). That an entry is executed as soon as it can be is the model's choice (notes/assumptions/17). -/
def Obligations.VectorComparesAndMasks : Prop :=
  (∀ (s : State) (xs : BitVec 1) (k dm : MReg) (d a : VReg) (b : BitVec 5),
    let reads := if xs = 1 then [b] else []
    let c := s.myCtx
    let y := if xs = 1 then Src2.scalar (s.readS b) else Src2.vec b
    let cmp := fun (i : Instr) (rel : Val → Val → Bool) (nan quiet : Bool) =>
      let e := s.entryOf i reads
      let res := fun (j : Nat) =>
        let p := c.srcVal e a j
        let q := c.src2Val e a y j
        let un := p.1.isNan || q.1.isNan
        (j, if un then nan else rel p.1 q.1, (p.2.or q.2).or { iv := p.1.sig || q.1.sig || (un && !quiet) })
      vecCheck c e (tagType (c.tag a) :: c.src2Codes y) [k, dm] (c.span a :: c.src2Spans y) = none →
      entryGives s i 4 reads [] (fun t =>
        (t.withMyCtx (t.myCtx.setMaskBits dm ((c.actives e k).map (fun j => (j, (res j).2.1))))).raise 0x31
          (orFlags ((c.actives e k).map (fun j => (res j).2.2))))
    cmp (.vceq xs k dm a b) Val.eqv false true ∧
    cmp (.vcne xs k dm a b) (fun x y => !x.eqv y) true true ∧
    cmp (.vclt xs k dm a b) (fun x y => x.lt false y) false false ∧
    cmp (.vcle xs k dm a b) (fun x y => !y.lt false x) false false ∧
    cmp (.vcgt xs k dm a b) (fun x y => y.lt false x) false false ∧
    cmp (.vcge xs k dm a b) (fun x y => !x.lt false y) false false ∧
    (let e := s.entryOf (.vmerge xs k d a b) reads
     vecCheck c e ([tagType (c.tag d), tagType (c.tag a)] ++ c.src2Codes y) [k]
       ([c.span d, c.span a] ++ c.src2Spans y) = none →
     entryGives s (.vmerge xs k d a b) 4 reads [] (fun t => t.writeResults d (c.regWidth d) 0x31
       ((List.range e.vl).map (fun j => (j, if c.maskBit k j then e.toDest (c.regType d) (c.intReg a) (c.srcVal e a j)
         else e.toDest (c.regType d) (c.src2Int a y) (c.src2Val e a y j)))))) ) ∧
  (∀ (s : State) (d a b : MReg),
    let c := s.myCtx
    let logic := fun (i : Instr) (b : MReg) (f : Bool → Bool → Bool) =>
      let e := s.entryOf i []
      vecCheck c e [] [d, a, b] [] = none →
      entryGives s i 4 [] [] (fun t => t.withMyCtx (t.myCtx.setMaskBits d
        ((List.range e.vl).map (fun j => (j, f (c.maskBit a j) (c.maskBit b j))))))
    logic (.mand d a b) b (fun x y => x && y) ∧
    logic (.mor d a b) b (fun x y => x || y) ∧
    logic (.mxor d a b) b (fun x y => x != y) ∧
    logic (.mnot d a) 0 (fun x _ => !x))

/-- 06_vector R140–R143: the slides, shuffles and VCOMPRESS move stored bits and give vd the tag of va; VSPLAT and VINS
write a scalar's low bits, and VEXT writes an element to a scalar register, sign-extended for a Z type. That an entry is
executed as soon as it can be is the model's choice (notes/assumptions/17). -/
def Obligations.VectorPermutes : Prop :=
  ∀ (s : State) (xs : BitVec 1) (k : MReg) (d a : VReg) (b : BitVec 5) (p q : SReg),
    let c := s.myCtx
    let w := c.regWidth a
    let move := fun (i : Instr) (reads : List SReg) (spans : List Span) (f : VEntry → List (Nat × Nat)) =>
      let e := s.entryOf i reads
      vecCheck c e [] [k] ([c.spanAs d a, c.span a] ++ spans) = none →
      entryGives s i 4 reads [] (fun t => t.withMyCtx ((t.myCtx.setTag d (c.tag a)).setElems d w (f e)))
    let y := if xs = 1 then Src2.scalar (s.readS b) else Src2.vec b
    move (.vslideup k d a b) [b] [] (fun e => (c.actives e k).map (fun j =>
      (j, if (s.readS b).toNat ≤ j then c.src e a w (j - (s.readS b).toNat) else c.fill w))) ∧
    move (.vslidedn k d a b) [b] [] (fun e => (c.actives e k).map (fun j => (j, c.src e a w (j + (s.readS b).toNat)))) ∧
    move (.vshuf xs k d a b) (if xs = 1 then [b] else []) (c.src2Spans y) (fun e => (c.actives e k).map (fun j =>
      (j, c.src e a w (match y with | .vec r => c.src e r (c.regWidth r) j | .scalar x => x.toNat)))) ∧
    move (.vcompress k d a) [] [] (fun e =>
      let xs := (c.actives e k).map (fun j => c.src e a w j)
      (List.range xs.length).map (fun j => (j, xs.getD j 0))) ∧
    (let e := s.entryOf (.vsplat k d p) [p]
     vecCheck c e [] [k] [c.span d] = none →
     entryGives s (.vsplat k d p) 4 [p] [] (fun t => t.withMyCtx (t.myCtx.setElems d (c.regWidth d)
       ((c.actives e k).map (fun j => (j, (s.readS p).toNat % 2 ^ c.regWidth d)))))) ∧
    (let e := s.entryOf (.vins d p q) [p, q]
     vecCheck c e [] [] [c.span d] = none →
     entryGives s (.vins d p q) 4 [p, q] [] (fun t => if (s.readS q).toNat < c.vl then
       t.withMyCtx (t.myCtx.setElem d (c.regWidth d) (s.readS q).toNat ((s.readS p).toNat % 2 ^ c.regWidth d)) else t)) ∧
    (let e := s.entryOf (.vext p a q) [q]
     let x := BitVec.ofNat 64 (c.src e a w (s.readS q).toNat)
     vecCheck c e [] [] [c.span a] = none →
     entryGives s (.vext p a q) 4 [q] [p] (fun t => t.writeS p (if (c.regType a).isZ then sext w x else x)))

/-- 06_vector R118, R144; 04_numbers R81: the reductions write element 0 of vd, and MINI and MAXI elements 0 and 1,
whatever VL and the mask. That scaled integer elements are reduced as values of float kind, that VRED.AND, VRED.OR and
VRED.XOR use no format, and that an entry is executed as soon as it can be, is the model's choice (notes/assumptions/34, 105,
17). -/
def Obligations.VectorReductions : Prop :=
  ∀ (s : State) (k : MReg) (d a : VReg),
    let c := s.myCtx
    let w := c.regWidth a
    let red := fun (i : Instr) (values : Bool) (f : VEntry → List (Nat × Nat × FFlags) × FFlags) =>
      let e := s.entryOf i []
      vecCheck c e (if values then [tagType (c.tag d), tagType (c.tag a)] else []) [k] [c.span d, c.span a] = none →
      entryGives s i 4 [] [] (fun t => (t.writeResults d (c.regWidth d) 0x38 (f e).1).raise 0x38 (f e).2)
    let bitsOf := fun (g : Nat → Nat → Nat) (z : Nat) (e : VEntry) =>
      ([(0, ((c.actives e k).map (fun j => c.src e a w j)).foldl g z % 2 ^ c.regWidth d, FFlags.none)], FFlags.none)
    let sums := fun (e : VEntry) =>
      if c.intReg a then
        let n := ((c.actives e k).map (fun j => (c.srcVal e a j).1.toInt)).foldl (· + ·) 0
        e.toDest (c.regType d) true (.ofInt n, .none)
      else
        let t := redOrder (sumStep e.rm) (ceilDiv e.vl (16 * c.fronds)) c.fronds (fun j =>
          if j < e.vl ∧ c.maskBit k j then
            let v := c.srcVal e a j
            let z := roundF32 .rne v.1
            some (z.1, v.2.or z.2)
          else none)
        e.toDest (c.regType d) false (t.getD (Val.zero, .none))
    let least := fun (max : Bool) (e : VEntry) =>
      let t := ((c.actives e k).map (fun j => c.srcVal e a j)).foldl (fun acc v =>
        match acc with
        | none => some (match v.1 with | .nan g => (.nan false, v.2.or { iv := g }) | _ => v)
        | some p => let r := Val.pick max p.1 v.1; some (r.1, (p.2.or v.2).or r.2)) (none : Option FVal)
      e.toDest (c.regType d) (c.intReg a) (t.getD (minMaxIdentity c a max, .none))
    let index := fun (max : Bool) (e : VEntry) =>
      let vs := (c.actives e k).map (fun j => (j, c.srcVal e a j))
      let best := vs.foldl (fun acc v =>
        if v.2.1.isNan then acc else
        match acc with
        | none => some (v.1, v.2.1)
        | some p =>
          if (if max then p.2.lt true v.2.1 else v.2.1.lt true p.2) then some (v.1, v.2.1) else some p)
        (none : Option (Nat × Val))
      ([(0, e.toDest (c.regType d) (c.intReg a) ((best.map (·.2)).getD (minMaxIdentity c a max), .none)),
        (1, e.toDest (c.regType d) true (.ofInt ((best.map (fun p => (p.1 : Int))).getD (-1)), .none))],
       orFlags (vs.map (fun v => v.2.2.or { iv := v.2.1.sig })))
    red (.vredSum k d a) true (fun e => ([(0, sums e)], .none)) ∧
    red (.vredMin k d a) true (fun e => ([(0, least false e)], .none)) ∧
    red (.vredMax k d a) true (fun e => ([(0, least true e)], .none)) ∧
    red (.vredAnd k d a) false (bitsOf (fun x y => x &&& y) (2 ^ w - 1)) ∧
    red (.vredOr k d a) false (bitsOf (fun x y => x ||| y) 0) ∧
    red (.vredXor k d a) false (bitsOf (fun x y => x ^^^ y) 0) ∧
    red (.vredMini k d a) true (index false) ∧
    red (.vredMaxi k d a) true (index true)

/-- 07_matrix R161–R165; 04_numbers R82, R83: the scans, with their carries. A scan of an unscaled integer source is
exact, and the word of its carry-out is the value modulo 2^64 (of a value that is no integer, which only a scaled
carry-in brings, it is free: notes/assumptions/73); the others round each step to F32. A carry channel holds a scalar
message to take, and has a free slot to send. That an entry is executed as soon as it can be is the model's choice
(notes/assumptions/17). -/
def Obligations.VectorScans : Prop :=
  (∀ (s : State) (n : Int), s.carryOutWord (.ofInt n) = (BitVec.ofInt 64 n, s)) ∧
  ∀ (s : State) (k : MReg) (d a b : VReg) (cin : CarryIn) (cout : CarryOut), s.Plain →
    carryChannels cin cout s = none →
    (∀ n, cin = .channel n → ∃ x, carryMsg s n.toNat = some (some x)) →
    (∀ n, cout = .channel n → ∃ q, s.chan n.toNat = some q ∧ q.free ≠ 0 ∧
      s.outstanding = false) →
    let c := s.myCtx
    let rs := [d, a] ++ carryRegs cin cout
    let ls := [d, a, b] ++ carryRegs cin cout
    let scan := fun (m : ScanForm) (i : Instr) =>
      let e := s.entryOf i (carryInOps cin)
      vecCheck c e (rs.map (fun r => tagType (c.tag r))) [k] (rs.map c.span) = none →
      entryGives s i 8 (carryInOps cin) (carryOutRegs cout) (fun t =>
        let int := c.intReg a
        let ci := carryIn t e int a cin
        let conv := fun j => let v := c.srcVal e a j; if int then v else let z := roundF32 .rne v.1; (z.1, v.2.or z.2)
        let r := scanOrder (if int then scanInt m else scanFloat m e.rm)
          (fun j => if c.active e k j then some (conv j).1 else none) (ci.map (fun v => v.1)) (scanFronds c e)
        let v := r.1.getD (scanIdentity c a int m)
        let x := if int then t.carryOutWord v else (BitVec.ofNat 64 (f32Bits v), t)
        deliverCarry e cin cout int x.1 v
          ((x.2.writeResults d (c.regWidth d) 0x39 (scanOutputs c e k d int r.2.1)).raise 0x39
            ((orFlags ((c.actives e k).map (fun j => (conv j).2))).or (((ci.map (fun v => v.2)).getD FFlags.none).or r.2.2))))
    scan .add (.vscanAdd k d a cin cout) ∧
    scan .max (.vscanMax k d a cin cout) ∧
    scan .min (.vscanMin k d a cin cout) ∧
    (let e := s.entryOf (.vscanLin k d a b cin cout) (carryInOps cin)
     vecCheck c e (ls.map (fun r => tagType (c.tag r))) [k] (ls.map c.span) = none → c.intReg a = false →
     c.intReg b = false →
     entryGives s (.vscanLin k d a b cin cout) 8 (carryInOps cin) (carryOutRegs cout) (fun t =>
       let ci := carryIn t e false a cin
       let f32 := fun r j => let v := c.srcVal e r j; let z := roundF32 .rne v.1; (z.1, v.2.or z.2)
       let r := scanOrder scanLin (fun j => if c.active e k j then some ((f32 a j).1, (f32 b j).1) else none)
         (ci.map (fun v => (Val.fin false 1 1, v.1))) (scanFronds c e)
       let v := (r.1.map (·.2)).getD Val.zero
       deliverCarry e cin cout false (BitVec.ofNat 64 (f32Bits v)) v
         ((t.writeResults d (c.regWidth d) 0x39
           (scanOutputs c e k d false (r.2.1.map (fun o => (o.1, o.2.map (·.2)))))).raise 0x39
           ((orFlags ((c.actives e k).map (fun j => (f32 a j).2.or (f32 b j).2))).or
             (((ci.map (fun v => v.2)).getD FFlags.none).or r.2.2)))))

/-- 02_machine R29; 03_encoding R54–R58; 06_vector R113, R119, R120; 12_context R284: VCONF, VCONF.R, VTAG, FMTSET, VLENQ and
the write of MAXLEN that stands at the head of the queue; a VTAG of a reserved code sets ILL as it is executed. That an entry is executed as soon as it can be is the model's choice
(notes/assumptions/17). -/
def Obligations.VectorConfiguration : Prop :=
  (∀ (s : State) (wid grp : BitVec 3) (sat rm : BitVec 2) (d a b : SReg), s.cur.kind = .ch → s.Quiet →
    let conf := fun (i : Instr) (reads : List SReg) (req : BitVec 10) =>
      s.Ready reads [d] →
      let t := s.reading reads
      (bits req 0 3 < 4 ∧ bits req 5 2 < 2 ∧ bits req 7 3 ≠ 7 →
        let c := s.myCtx
        let vl := min (s.readS a).toNat (c.vlmax (req.setWidth 11))
        exec i s = .next ((t.withMyCtx { c with vl := vl, vtype := req.setWidth 11, epoch := c.epoch + 1 }).retire 4 d
          (BitVec.ofNat 64 vl))) ∧
      (¬ (bits req 0 3 < 4 ∧ bits req 5 2 < 2 ∧ bits req 7 3 ≠ 7) →
        let c := s.myCtx
        exec i s = .next ((t.withMyCtx { c with vtype := c.vtype ||| 0x400 }).retire 4 d (BitVec.allOnes 64)))
    conf (.vconf wid sat rm grp d a) [a] (wid ++ sat ++ rm ++ grp) ∧
    conf (.vconfR d a b) [a, b] ((s.readS b).setWidth 10)) ∧
  (∀ (s : State) (sc : BitVec 1) (blk : BitVec 3) (bank : BitVec 2) (type : BitVec 6) (d : VReg),
    entryGives s (.vtag sc blk bank type d) 4 [] [] (fun t =>
      let c := t.myCtx.setTag d (sc ++ blk ++ bank ++ type)
      t.withMyCtx (if 34 ≤ type.toNat then c.modEpoch s.myCtx.epoch id (fun v => v ||| 0x400) else c))) ∧
  (∀ (s : State) (nf : BitVec 3) (a : SReg),
    entryGives s (.fmtset nf a) 4 [a] [] (fun t =>
      t.withMyCtx { t.myCtx with nf := sset 0 s.myCtx.nf nf.toNat ((s.readS a).setWidth 32) })) ∧
  (∀ (s : State) (d : SReg), bit s.myCtx.vtype 10 = false →
    entryGives s (.vlenq d) 4 [] [d] (fun t =>
      t.writeS d (BitVec.ofNat 64 (64 + 64 * ceilDiv (ceilDiv (s.myCtx.vl * 2 ^ bits s.myCtx.vtype 7 3) 8) 64)))) ∧
  (∀ (s : State) (e : VEntry) (a : SReg),
    let c := s.ctx s.evArg.a
    c.viq = [e] → e.instr = .csrw .maxlen a → e.job = none → c.streams = [] → c.vectorRuns = true →
    (e.outside = false ∨ (c.hart .ch).checkedBy = none) →
    (s.copyQueue c.core).all (fun x => decide (x.ref.cid ≠ s.evArg.a)) = true →
    ∃ u, exec .maxlenWrite s = .next u ∧
      let v := u.ctx s.evArg.a
      v.maxlen = (e.op 0).setWidth 2 ∧ v.viq = [] ∧ v.vtype = c.vtype ∧ u.mem = s.mem ∧
      v.vl = (if c.epoch = e.epoch then min c.vl (v.vlmax c.vtype) else c.vl) ∧
      v.vlmax c.vtype =
        c.regBytes * 2 ^ v.maxlen.toNat / 8 * 8 / 2 ^ bits c.vtype 7 3 * 2 ^ bits c.vtype 0 3)

/-- 05_scalar R97–R99; 06_vector R134–R137; 10_copies R250: the vector loads. Where every active element's bytes can be
read, each element of vd takes its bits from them, and nothing else changes; VLDFF at an element that faults, other than
element 0, keeps what it has loaded and shortens VL. A VLDX with its base outside the windows waits for the gather unit,
which GATHER_SERVE is; one that has been served before keeps the addresses it took then. That an entry is executed as
soon as it can be is the model's choice (notes/assumptions/17). -/
def Obligations.VectorLoads : Prop :=
  (∀ (s : State) (k : MReg) (d b : VReg) (a p : SReg) (data : Nat → List Byte), s.Plain →
    let c := s.myCtx
    let w := c.regWidth d
    let base := s.readS a
    let put := fun (shift : Nat → Nat) (js : List Nat) (c : Ctx) =>
      c.setElems d w (js.map (fun j => (j, natOfBytes (data j) / 2 ^ shift j % 2 ^ w)))
    let go := fun (i : Instr) (reads : List SReg) (spans : List Span) (addr shift : Nat → Nat) =>
      let e := s.entryOf i reads
      let t := s.issued i 4 reads []
      vecCheck c e [] [k] spans = none →
      (∀ j ∈ c.actives e k, t.load (t.who t.cur) (addr j) (ceilDiv w 8) = .ok (data j)) →
      entryGives s i 4 reads [] (fun t => t.withMyCtx (put shift (c.actives e k) t.myCtx))
    let line := fun (j : Nat) => (base + BitVec.ofNat 64 (j * w / 8)).toNat
    go (.vld k d a) [a] [c.span d] line (fun j => j * w % 8) ∧
    go (.vldff k d a) [a] [c.span d] line (fun j => j * w % 8) ∧
    (8 ≤ w → go (.vlds k d a p) [a, p] [c.span d]
      (fun j => (base + BitVec.ofNat 64 j * s.readS p).toNat) (fun _ => 0)) ∧
    (8 ≤ w → (c.windowOf base.toNat).isSome = true → go (.vldx k d a b) [a] [c.span d, c.span b]
      (fun j => indexedAddr c (s.entryOf (.vldx k d a b) [a]) b w base j) (fun _ => 0)) ∧
    (∀ (before after : List Nat) (j : Nat) (x : Trap), 0 < j →
      x.cause = .pagefault ∨ x.cause = .pageattr ∨ x.cause = .misalign ∨ x.cause = .turnfault →
      let e := s.entryOf (.vldff k d a) [a]
      let t := s.issued (.vldff k d a) 4 [a] []
      vecCheck c e [] [k] [c.span d] = none → c.actives e k = before ++ j :: after →
      (∀ i ∈ before, t.load (t.who t.cur) (line i) (ceilDiv w 8) = .ok (data i)) →
      t.load (t.who t.cur) (line j) (ceilDiv w 8) = .trap x →
      entryGives s (.vldff k d a) 4 [a] [] (fun t =>
        t.withMyCtx ((put (fun i => i * w % 8) before t.myCtx).modEpoch c.epoch (fun _ => j) id))) ∧
    (let e := s.entryOf (.vldx k d a b) [a]
     8 ≤ w → (c.windowOf base.toNat).isSome = false → vecCheck c e [] [k] [c.span d, c.span b] = none →
     c.actives e k ≠ [] → s.VReady [a] [] → exec (.vldx k d a b) s = .next (s.issued (.vldx k d a b) 4 [a] []))) ∧
  (∀ (s : State) (e : VEntry) (k : MReg) (d b : VReg) (a : SReg) (data : Nat → List Byte),
    let s1 : State := { s with cur := { cid := s.evArg.a, kind := .ch } }
    let c := s1.myCtx
    let w := c.regWidth d
    c.viq = [e] → e.instr = .vldx k d a b → e.job = none → e.step = 0 → c.streams = [] → c.vectorRuns = true → s1.Plain →
    (s1.copyQueue c.core).all (fun x => decide (x.ref.cid ≠ s.evArg.a)) = true → 8 ≤ w →
    vecCheck c e [] [k] [c.span d, c.span b] = none →
    (∀ j ∈ c.actives e k, s1.load (s1.who s1.cur)
      (if e.index = [] then indexedAddr c e b w (e.op 0) j else e.index.getD j 0) (ceilDiv w 8) = .ok (data j)) →
    ∃ u, exec .gatherServe s = .next u ∧ u.cur = s.cur ∧ u.mem = s.mem ∧ (u.ctx s.evArg.a).viq = [] ∧
      (u.ctx s.evArg.a).v =
        (c.setElems d w ((c.actives e k).map (fun j => (j, natOfBytes (data j) % 2 ^ w)))).v)

/-- 05_scalar R99; 06_vector R134, R135: the vector stores. The active elements are stored in ascending order, each as a
store of its own by the checks of R99, from the register group as it stood before. That an entry is executed as soon as
it can be is the model's choice (notes/assumptions/17). -/
def Obligations.VectorStores : Prop :=
  ∀ (s u : State) (k : MReg) (d : VReg) (a p : SReg), s.Plain →
    let c := s.myCtx
    let w := c.regWidth d
    let go := fun (i : Instr) (reads : List SReg) (addr shift : Nat → Nat) =>
      let e := s.entryOf i reads
      vecCheck c e [] [k] [c.span d] = none →
      (c.actives e k).foldl (fun (r : MemRes State) j => r.bind (storeElem c d w addr shift j))
        (MemRes.ok (s.issued i 4 reads [])) = .ok u →
      entryGives s i 4 reads [] (fun _ => u)
    go (.vst k d a) [a] (fun j => (s.readS a + BitVec.ofNat 64 (j * w / 8)).toNat) (fun j => j * w % 8) ∧
    (8 ≤ w → go (.vsts k d a p) [a, p] (fun j => (s.readS a + BitVec.ofNat 64 j * s.readS p).toNat) (fun _ => 0))

/-- 02_machine R33; 06_vector R138; 10_copies R251: VSCADD waits in the queue until its merged partials have been updated,
and completes at once where it has none; a SCATTER_UPDATE adds one merged partial to its target at the home slice, and
the last one ends the instruction, whose flags are raised then; the targets and the fault stay as they were when the first
update was made. Where the check of a target must wait, the instruction waits (18_link R423; notes/assumptions/90). That an entry is executed as soon as it can be is the
model's choice (notes/assumptions/17). -/
def Obligations.ScatterAdds : Prop :=
  (∀ (s : State) (k : MReg) (d b : VReg) (a : SReg), s.Plain →
    let c := s.myCtx
    let i : Instr := .vscadd k d a b
    let e := s.entryOf i [a]
    vecCheck c e [] [k] [c.span d, c.span b] = none → scaddType (c.regType d) = true →
    (c.actives e k = [] → entryGives s i 4 [a] [] (fun t => t.raise 0x36 FFlags.none)) ∧
    (∀ x, scaddTargets c k d b e (s.issued i 4 [a] []) = .ok x → scaddLeft e x ≠ [] → s.VReady [a] [] →
      exec i s = .next (s.issued i 4 [a] [])) ∧
    (scaddTargets c k d b e (s.issued i 4 [a] []) = .stall → s.VReady [a] [] →
      exec i s = .next (s.issued i 4 [a] []))) ∧
  (∀ (s : State) (e : VEntry) (k : MReg) (d b : VReg) (a : SReg) (n : Nat) (t : Target) (pl : Place),
    let s1 : State := { s with cur := { cid := s.evArg.a, kind := .ch } }
    let c := s1.myCtx
    let w := c.regWidth d
    ∀ ts, scaddTargets c k d b e s1 = .ok ts →
    c.viq = [e] → e.instr = .vscadd k d a b → e.job = none → c.streams = [] → c.vectorRuns = true → s1.Plain →
    (s1.copyQueue c.core).all (fun x => decide (x.ref.cid ≠ s.evArg.a)) = true →
    vecCheck c e [] [k] [c.span d, c.span b] = none → scaddType (c.regType d) = true →
    ts.fault = none → scaddLeft e ts = [n] → ts.targets[n]? = some t →
    s1.atomicCheck (s1.who s1.cur) 2 .rmw (w / 8) t.va (w / 8) = .ok pl → s1.migrating .sync pl.pa = false →
    s1.behind c.core .sync pl.pa (w / 8) = false →
    let r := scaddCombine (c.regType d) e (natOfBytes (s1.memBytes pl.pa (w / 8))) t.part
    ∃ u, exec .scatterUpdate s = .next u ∧ u.cur = s.cur ∧ (u.ctx s.evArg.a).viq = [] ∧
      u.mem = (s1.syncWrite (s1.who s1.cur) pl.pa (bytesOfNat (w / 8) r.1)).mem ∧ (u.ctx s.evArg.a).v = c.v ∧
      (u.hart s1.cur).fflags = commitFlags s1.me.fflags (FFlags.ofBits (e.flags ||| t.flags ||| r.2.toBits)) 0x36) ∧
  (∀ (c : Ctx) (k : MReg) (d b : VReg) (e : VEntry) (s : State) (x : Scatter), e.scatter = some x →
    scaddTargets c k d b e s = .ok x)

/-- 06_vector R120; 07_matrix R158, R159: VSPILL writes the 64 bytes of header and the data of the frame, VRELOAD reads
them back, with the tag, and leaves the rest of the group free, and SCLD fills entries of a scale bank and sets its
mode. That an entry is executed as soon as it can be is the model's choice (notes/assumptions/17). -/
def Obligations.SpillsAndScales : Prop :=
  ∀ (s : State) (d : VReg) (kb : KReg) (a b : SReg), s.Plain → bit s.myCtx.vtype 10 = false →
    let c := s.myCtx
    let g := 2 ^ bits c.vtype 0 3
    let at_ := (s.readS a).toNat
    (d.toNat % g = 0 → d.toNat + g ≤ 32 →
      let i : Instr := .vspill d a
      let e := s.entryOf i [a]
      let t := s.issued i 4 [a] []
      ∀ r, t.storeCheck (t.who t.cur) .write storeKinds 8 .none false at_ e.frameLen = .ok r →
        (spillImage c d e).length = e.frameLen ∧
        entryGives s i 4 [a] [] (fun t => t.writeRegion (t.who t.cur) .none false at_ (spillImage c d e) r)) ∧
    (d.toNat % g = 0 → d.toNat + g ≤ 32 →
      let i : Instr := .vreload d a
      let e := s.entryOf i [a]
      let t := s.issued i 4 [a] []
      ∀ h bs, t.loadFor (t.who t.cur) 1 .read loadKinds 8 at_ 64 = .ok h →
        let hs := wordsOfBytes 8 h
        let cap := g * c.usedBytes
        let n := min (hs.getD 3 0).toNat cap
        let tag : BitVec 12 := (hs.getD 0 0).setWidth 12
        t.loadFor (t.who t.cur) 1 .read loadKinds 8 at_ (64 + n) = .ok bs →
        entryGives s i 4 [a] [] (fun t =>
          let c1 := (t.myCtx.setElems d 8
            ((List.range n).map (fun j => (j, ((bs.drop 64).getD j 0).toNat)))).setTag d tag
          freeGroup d (cap - n) n (t.withMyCtx
            (if 34 ≤ bits tag 0 6 then c1.modEpoch e.epoch id (fun x => x ||| 0x400) else c1)))) ∧
    (∀ data : Nat → List Byte,
      let i : Instr := .scld kb a b
      let t := s.issued i 4 [a, b] []
      let ctl := s.readS b
      let n := min (bits ctl 16 10) 512
      let len := if bit ctl 27 then 1 else 2
      (∀ j < n, t.load (t.who t.cur) (s.readS a + BitVec.ofNat 64 j * sext 16 ctl).toNat len = .ok (data j)) →
      entryGives s i 4 [a, b] [] (fun t =>
        t.withMyCtx { t.myCtx with
          scale := (List.range n).foldl (fun m j =>
            sset 0 m (kb.toNat * 512 + (bits ctl 32 9 + j) % c.scaleEntries) (BitVec.ofNat 16 (natOfBytes (data j)))) c.scale
          scaleMode := sset 0 c.scaleMode kb.toNat (BitVec.ofBool (bit ctl 26)) }))

/-- 04_numbers R80; 07_matrix R145–R154, R50: the matrix engine. MOP adds the products of the selected elements to the
words of a tile, exactly, with one rounding; MZERO clears a tile; MROW and MCOL read a row and a column, MWROW writes a
row. A tile a4 to a7 in HALF mode is Illegal with detail 8. That an entry is executed as soon as it can be is the
model's choice (notes/assumptions/17). -/
def Obligations.MatrixEngine : Prop :=
  (∀ (s : State) (k cm : MReg) (ta : AReg) (a b : VReg), ta.toNat < 4 ∨ s.myCtx.full = true →
    let c := s.myCtx
    let i : Instr := .mop k ta a b cm
    let e := s.entryOf i []
    let x := tagType (c.tag a)
    let y := tagType (c.tag b)
    vecCheck c e [x, y] [k, cm] [c.span a, c.span b] = none → mopPair x y (c.regType a) (c.regType b) = true →
    let rank := 32 / c.regWidth a
    let n := min (ceilDiv c.vl rank) (16 * c.fronds)
    let float := !(c.regType a).integral || tagScaled (c.tag a) || tagScaled (c.tag b)
    let places := (List.range n).flatMap (fun p =>
      if c.maskBit k p then ((List.range n).filter (c.maskBit cm)).map (fun q => (p, q)) else [])
    let word := fun (p : Nat × Nat) =>
      let ts := (mopTerms e rank p.1 p.2).map (fun q => (c.elemVal a q.1, c.elemVal b q.2))
      if float then
        let r := mopFloat (f32Val (c.tileWord ta p.1 p.2).toNat) (ts.map (fun t => (t.1.1, t.2.1)))
        (BitVec.ofNat 32 (f32Bits r.1), (orFlags (ts.map (fun t => t.1.2.or t.2.2))).or r.2)
      else
        (BitVec.ofInt 32 (ts.foldl (fun x t => x + t.1.1.toInt * t.2.1.toInt) (c.tileWord ta p.1 p.2).toInt), FFlags.none)
    entryGives s i 8 [] [] (fun t =>
      let c1 := t.myCtx.setTile ta (places.map (fun p => (p.1, p.2, (word p).1)))
      (t.withMyCtx (if 0 < n then c1.setKind ta (if float then .float else .int) else c1)).raise 0x3A
        (orFlags (places.map (fun p => (word p).2))))) ∧
  (∀ (s : State) (k : MReg) (d a : VReg) (ta : AReg) (row : BitVec 7), ta.toNat < 4 ∨ s.myCtx.full = true →
    let c := s.myCtx
    let out := fun (i : Instr) (inside : Nat → Bool) (val : Nat → Val) =>
      let e := s.entryOf i []
      vecCheck c e [tagType (c.tag d)] [k] [c.span d] = none →
      entryGives s i 8 [] [] (fun t => t.writeResults d (c.regWidth d) 0x3A ((c.actives e k).map (fun j =>
        (j, if inside j then toType (c.regType d) (decide (c.kindOf ta = .int)) e.sat e.rm (val j)
          else (c.fill (c.regWidth d), .none)))))
    entryGives s (.mzero ta) 8 [] [] (fun t => t.withMyCtx (({ t.myCtx with
      tile := sclear c.tile (tileKey ta 0 0) (tileKey ta 0 0 + 16384) }).setKind ta .float)) ∧
    out (.mrow k d ta row) (fun j => decide (j < 128) && decide (row.toNat < 16 * c.fronds)) (c.tileVal ta row.toNat) ∧
    out (.mcol k d ta row) (fun j => decide (j < 16 * c.fronds)) (fun j => c.tileVal ta j row.toNat) ∧
    (let e := s.entryOf (.mwrow ta a row) []
     let r := fun j => e.toDest (match c.kindOf ta with | .float => .float fmtF32 32 | .int => .int true 32)
       (c.intReg a) (c.srcVal e a j)
     vecCheck c e [tagType (c.tag a)] [] [c.span a] = none →
     entryGives s (.mwrow ta a row) 8 [] [] (fun t =>
       if row.toNat < 16 * c.fronds then
         (t.withMyCtx (t.myCtx.setTile ta ((List.range 128).map (fun j => (row.toNat, j, BitVec.ofNat 32 (r j).1))))).raise
           0x3A (orFlags ((List.range 128).map (fun j => (r j).2)))
       else t))) ∧
  (∀ (s : State) (ta : AReg) (k cm : MReg) (d a b : VReg) (row : BitVec 7), s.cur.kind = .ch → s.Quiet → s.Ready [] [] →
    4 ≤ ta.toNat → s.myCtx.full = false →
    ∃ t : Trap, t.cause = .illegal ∧ t.detail = 8 ∧ exec (.mzero ta) s = .next (s.here.scalarTrap t) ∧
      exec (.mop k ta a b cm) s = .next (s.here.scalarTrap t) ∧ exec (.mrow k d ta row) s = .next (s.here.scalarTrap t) ∧
      exec (.mcol k d ta row) s = .next (s.here.scalarTrap t) ∧ exec (.mwrow ta a row) s = .next (s.here.scalarTrap t))

/-- 08_sorus R178–R192: the sorus instructions, over the elements below VL and 128. The pairing instructions combine
linked operands point by point and unlinked ones by every pair, condensed to eight points. That an entry is executed as
soon as it can be is the model's choice (notes/assumptions/17). -/
def Obligations.SorusInstructions : Prop :=
  ∀ (s : State) (d a b : DReg) (v : VReg) (u : BitVec 5) (p : SReg), bit s.myCtx.vtype 10 = false →
    let c := s.myCtx
    let N := min c.vl 128
    let fill := fun (tag : BitVec 8) (f : Nat → List Point × FFlags) (t : State) =>
      (t.withMyCtx (((List.range N).foldl (fun c j => c.setPoints d j (f j).1) t.myCtx).setLtag d tag)).raise 0x3B
        (orFlags ((List.range N).map (fun j => (f j).2)))
    let two := fun (i : Instr) (f : Val → Val → Val × FFlags) =>
      entryGives s i 4 [] [] (fill (c.ltag a ||| c.ltag b) (fun j =>
        pair2 f (linked (c.ltag a) (c.ltag b)) (c.points a j) (c.points b j)))
    let out := fun (i : Instr) (r : VReg) (f : Nat → Val × FFlags) (t : State) =>
      t.writeResults r (c.regWidth r) 0x3B ((List.range N).map (fun j =>
        (j, (s.entryOf i []).toDest (c.regType r) false (f j))))
    let ok := fun (i : Instr) (rs : List VReg) (q : Prop) => sorusCheck c (s.entryOf i []) rs = none → q
    two (.dadd d a b) (fun x y => rne (x.add .rne y)) ∧
    two (.dsub d a b) (fun x y => rne (x.add .rne y.negate)) ∧
    two (.dmul d a b) (fun x y => rne (x.mul y)) ∧
    two (.dmin d a b) (Val.pick false) ∧
    two (.dmax d a b) (Val.pick true) ∧
    entryGives s (.dfma d a b) 4 [] [] (fill ((c.ltag a ||| c.ltag b) ||| c.ltag d) (fun j =>
      pair3 (fun x y z => rne (Val.fma .rne x y z)) (linked (c.ltag a) (c.ltag b)) (linked (c.ltag a) (c.ltag d))
        (linked (c.ltag b) (c.ltag d)) (c.points a j) (c.points b j) (c.points d j))) ∧
    (let aff := fun (α β : Nat → Val × FFlags) => fill (c.ltag a) (fun j =>
       let r := sortedPoints ((c.points a j).map (fun q =>
         let y := rne (Val.fma .rne (α j).1 q.v (β j).1)
         (({ v := y.1, w := q.w } : Point), y.2)))
       (r.1, ((α j).2.or (β j).2).or r.2))
     ok (.daff 0 d a v) [v, v + 1]
       (entryGives s (.daff 0 d a v) 4 [] [] (aff (sorusElem c v) (sorusElem c (v + 1)))) ∧
     entryGives s (.daff 1 d a p) 4 [p, p + 1] [] (aff (fun _ => (f32Val ((s.readS p).toNat % 2 ^ 32), .none))
       (fun _ => (f32Val ((s.readS (p + 1)).toNat % 2 ^ 32), .none)))) ∧
    ok (.dpt d v) [v] (entryGives s (.dpt d v) 4 [] [] (fill 0 (fun j =>
      (List.replicate 8 { v := (sorusElem c v j).1, w := .fin false 1 8 }, (sorusElem c v j).2)))) ∧
    (let q := fun j => setWeight (sorusElem c (v + 1) j).1
     ok (.dset d v u) [v, v + 1] (entryGives s (.dset d v u) 4 [] [] (fun t =>
       (t.withMyCtx ((List.range N).foldl (fun c' j =>
         c'.setPoint d j u.toNat { v := (sorusElem c v j).1, w := (q j).1 }) t.myCtx)).raise 0x3B
         (orFlags ((List.range N).map (fun j => ((sorusElem c v j).2.or (sorusElem c (v + 1) j).2).or (q j).2)))))) ∧
    ok (.dget v a u) [v, v + 1] (entryGives s (.dget v a u) 4 [] [] (fun t =>
      out (.dget v a u) (v + 1) (fun j => ((c.point a j u.toNat).w, .none))
        (out (.dget v a u) v (fun j => ((c.point a j u.toNat).v, .none)) t))) ∧
    entryGives s (.dtag d p) 4 [p] [] (fun t => t.withMyCtx (t.myCtx.setLtag d ((s.readS p).setWidth 8))) ∧
    ok (.dmom v a u) [v] (entryGives s (.dmom v a u) 4 [] [] (out (.dmom v a u) v (fun j =>
      moment u.toNat (c.points a j)))) ∧
    ok (.dqnt v a u) [v, u] (entryGives s (.dqnt v a u) 4 [] [] (out (.dqnt v a u) v (fun j =>
      let r := quantile (sorusElem c u j).1 (c.points a j); (r.1, (sorusElem c u j).2.or r.2)))) ∧
    ok (.dcdf v a u) [v, u] (entryGives s (.dcdf v a u) 4 [] [] (out (.dcdf v a u) v (fun j =>
      let r := cdf (sorusElem c u j).1 (c.points a j); (r.1, (sorusElem c u j).2.or r.2)))) ∧
    (s.Plain →
      (let t := s.issued (.dld d p) 4 [p] []
       ∀ bs, t.loadImage (s.readS p).toNat 8256 = .ok bs →
         entryGives s (.dld d p) 4 [p] [] (fun t => t.withMyCtx (({ t.myCtx with
           sorus := ssetList 0 c.sorus (d.toNat * 2048) ((List.range 2048).map (fun j =>
             BitVec.ofNat 32 (natOfBytes ((bs.drop (64 + 4 * j)).take 4)))) }).setLtag d (bs.getD 0 0)))) ∧
      (let t := s.issued (.dst d p) 4 [p] []
       ∀ u, t.storeImage (s.readS p).toNat
           (padTo 64 [c.ltag d] ++ (sgetList 0 c.sorus (d.toNat * 2048) 2048).flatMap (fun w => bytesOfNat 4 w.toNat)) = .ok u →
         u.myCtx.viq = t.myCtx.viq → entryGives s (.dst d p) 4 [p] [] (fun _ => u)))

/-- 07_matrix R166–R173: the neighbour channels. A vector message holds the bits of the elements below VL, a scalar
message one doubleword; a receive takes the message at the head once its last beat has arrived; and a channel that the
hart may not use is Illegal with detail 5, the .S forms on an empty queue. That an element is cut to, or extended with
zeros for, the receiver's width, that a send waits for the hart's own multicasts, and that an entry is executed as soon as
it can be is the model's choice (notes/assumptions/87, 14, 17). -/
def Obligations.Channels : Prop :=
  (∀ (s : State) (ch : BitVec 5) (a d : VReg) (q : Chan), s.Plain → s.chan ch.toNat = some q →
    let c := s.myCtx
    (let e := s.entryOf (.chsend ch a) []
     let w := c.regWidth a
     let beats := max 1 (ceilDiv (c.vl * w) 512)
     s.sends ch.toNat = true → vecCheck c e [] [] [c.span a] = none → beats ≤ q.free → beats ≤ q.decl.slots →
     s.outstanding = false →
     entryGives s (.chsend ch a) 4 [] [] (fun t => t.modChan ch.toNat (fun q => q.push
       { scalar := false, vals := (List.range c.vl).map (fun j => BitVec.ofNat 64 (c.elem a w j)), tag := c.tag a,
         len := c.vl, beats := beats, complete := false }))) ∧
    (∀ m, s.receives ch.toNat = true → q.ready = some m → m.scalar = false →
      let e := s.entryOf (.chrecv d ch) []
      vecCheck c e [] [] [{ reg := d, code := tagType m.tag }] = none → m.len = c.vl ∨ q.decl.status = 0 →
      let w := c.widthOf (tagType m.tag)
      entryGives s (.chrecv d ch) 4 [] [] (fun t =>
        (t.withMyCtx ((t.myCtx.setTag d m.tag).setElems d w ((List.range c.vl).map (fun j =>
          (j, if j < m.len then (m.vals.getD j 0).toNat % 2 ^ w else 0))))).modChan ch.toNat Chan.pop)) ∧
    (s.cur.kind = .ch → s.sends ch.toNat = false → ∃ t : Trap, t.cause = .illegal ∧ t.detail = 5 ∧
      exec (.chsend ch a) s = .next (s.scalarTrap t)) ∧
    (s.cur.kind = .ch → s.receives ch.toNat = false → ∃ t : Trap, t.cause = .illegal ∧ t.detail = 5 ∧
      exec (.chrecv d ch) s = .next (s.scalarTrap t))) ∧
  (∀ (s : State) (ch : BitVec 5) (a : SReg) (q : Chan), s.Plain → s.Quiet → s.chan ch.toNat = some q →
    (s.Ready [a] [] → s.sends ch.toNat = true → q.free ≠ 0 → s.outstanding = false →
      exec (.chsendS ch a) s = .next (((s.reading [a]).modChan ch.toNat (fun q => q.push
        { scalar := true, vals := [s.readS a], tag := 0, len := 1, beats := 1, complete := false })).advance 4)) ∧
    (∀ m, s.Ready [] [a] → s.receives ch.toNat = true → q.ready = some m → m.scalar = true →
      exec (.chrecvS a ch) s =
        .next (((s.reading []).modChan ch.toNat Chan.pop).retire 4 a (m.vals.getD 0 0))) ∧
    (∀ m, s.Ready [] [a] → s.receives ch.toNat = true → q.ready = some m → m.scalar = false →
      ∃ t : Trap, t.cause = .chanlen ∧ exec (.chrecvS a ch) s = .next (s.here.scalarTrap t))) ∧
  (∀ (s : State) (ch : BitVec 5) (a : SReg), s.Quiet →
    (s.Ready [a] [] → s.sends ch.toNat = false → ∃ t : Trap, t.cause = .illegal ∧ t.detail = 5 ∧
      exec (.chsendS ch a) s = .next (s.here.scalarTrap t)) ∧
    (s.Ready [] [a] → s.receives ch.toNat = false → ∃ t : Trap, t.cause = .illegal ∧ t.detail = 5 ∧
      exec (.chrecvS a ch) s = .next (s.here.scalarTrap t))) ∧
  (∀ (s : State) (kn : Kernel) (q : Chan) (before after : List Msg) (m : Msg), s.kernel s.evArg.a = some kn →
    kn.chans[s.evArg.b]? = some q → q.msgs = before ++ m :: after → before.all (·.complete) = true →
    m.complete = false →
    exec .messageArrival s = .next (s.modKernel s.evArg.a (fun kn =>
      { kn with chans := modifyAt kn.chans s.evArg.b (fun q =>
        { q with msgs := before ++ { m with complete := true } :: after }) })))

/-- 02_machine R20; 03_encoding R51; 06_vector R122; 12_context R283, R284: an instruction for the queue on another hart
is Illegal with detail 7. On the compute hart it is pushed behind the entries under way, with its operands as they
stand; while 64 entries are there it waits; and an entry whose VTYPE has ILL traps with ILLVTYPE at its own address, on an empty
queue in the step of its issue, which is the model's choice (notes/assumptions/17). Shown for VADD and VABS. -/
def Obligations.VectorQueue : Prop :=
  (∀ (s : State) (xs : BitVec 1) (k : MReg) (d a : VReg) (b : BitVec 5), s.cur.kind ≠ .ch →
    ∃ t : Trap, t.cause = .illegal ∧ t.detail = 7 ∧ exec (.vadd xs k d a b) s = .next (s.scalarTrap t) ∧
      exec (.vabs k d a) s = .next (s.scalarTrap t)) ∧
  (∀ (s : State) (k : MReg) (d a : VReg), s.cur.kind = .ch → s.Ready [] [] → 64 ≤ s.myCtx.viq.length →
    exec (.vabs k d a) s = .next (s.here.waitHere false)) ∧
  (∀ (s : State) (k : MReg) (d a : VReg) (e : VEntry) (r : List VEntry), s.cur.kind = .ch → s.Ready [] [] →
    s.myCtx.viq = e :: r → e.job.isSome = true → s.myCtx.viq.length < 64 →
    ∃ u, exec (.vabs k d a) s = .next u ∧ u.me.pc = s.me.pc + 4 ∧ u.mem = s.mem ∧
      u.myCtx.viq = s.myCtx.viq ++ [s.entryOf (.vabs k d a) []]) ∧
  (∀ (s : State) (k : MReg) (d a : VReg), s.VReady [] [] → bit s.myCtx.vtype 10 = true →
    ∃ t : Trap, t.cause = .illvtype ∧
      exec (.vabs k d a) s = .next ((s.issued (.vabs k d a) 4 [] []).takeTrap s.cur true t))

/-- 10_copies R225, R226, R232, R234, R241, R249: the issue of the copies. Once the hart's multicasts have reached every
replica, which is the model's choice (notes/assumptions/14), and with room in the core's queue, the command enters it
behind the others and the hart goes on; the register of its token is busy from then on. The waiting is shown for EXPORT. A
CPYIN into a group with a bound register, and a CPYREG into one of its own context, is Illegal with detail 8; that a bound
register other than the first of the group is enough is the model's choice (notes/assumptions/108). -/
def Obligations.CopyIssue : Prop :=
  (∀ (s : State) (d a b sz bar aux : SReg) (va vb : VReg) (vg fold : BitVec 2) (ordered comp : BitVec 1)
    (toa : BitVec 3) (ao bo t0 t1 t2 t3 : BitVec 16), s.Plain → s.Quiet → s.outstanding = false →
    (s.copyQueue s.myCtx.core).length < 16 →
    let go := fun (i : Instr) (n : Nat) (reads : List SReg) (bar : SReg) (dst src len aux : Word) =>
      s.Ready reads [d] → exec i s = .next (((s.reading reads).enqueue
        { id := s.serial, ref := s.cur, core := s.myCtx.core, instr := i, dst := dst, src := src, len := len,
          bar := if bar = 0 then none else some (s.readS bar), aux := aux,
          tok := if d = 0 then .none else .reg d.toNat, started := false, desc := [], moved := [], upTo := 0, landing := [],
          retired := 0, posted := 0, fail := none, status := none, record := none, stamped := false }).advance n)
    let A := s.readS a + ao.signExtend 64
    let B := s.readS b + bo.signExtend 64
    go (.cpyin d a b sz bar 0 vg comp toa ao bo) 12 [a, b, sz, bar] bar A B (s.readS sz) 0 ∧
    (s.cur.kind ≠ .dh → (copyGroup va vg).all (fun r => (tget s.myCtx.streams r.toNat).isNone) = true →
      go (.cpyin d va b sz bar 1 vg comp toa ao bo) 12 [b, sz, bar] bar (va.setWidth 64) B (s.readS sz) 0) ∧
    go (.cpyout d a b sz bar comp toa ao bo) 12 [a, b, sz, bar] bar A B (s.readS sz) 0 ∧
    go (.cpyfold d a b sz bar fold ordered comp toa ao bo) 12 [a, b, sz, bar] bar A B (s.readS sz) 0 ∧
    go (.scpy d a b sz bar comp toa ao bo) 12 [a, b, sz, bar] bar A B (s.readS sz) 0 ∧
    (s.cur.kind = .ch →
      (bits (s.readS aux) 0 9 = s.myCtx.core → (copyGroup va vg).all (fun r => (tget s.myCtx.streams r.toNat).isNone) = true) →
      go (.cpyreg d va vb sz bar aux vg comp toa) 12 [sz, bar, aux] bar (va.setWidth 64)
      (vb.setWidth 64) (s.readS sz) (s.readS aux)) ∧
    go (.exportPage d b) 12 [b] 0 0 (s.readS b) 65536 0 ∧
    go (.tcpyIn d a b bar comp toa t0 t1 t2 t3 ao) 20 [a, b, bar] bar A 0 0 (s.readS b) ∧
    go (.tcpyOut d a b bar comp toa t0 t1 t2 t3 ao) 20 [a, b, bar] bar 0 A 0 (s.readS b)) ∧
  (∀ (s : State) (x : CopyCmd), (s.enqueue x).copyQueue x.core = s.copyQueue x.core ++ [x] ∧
    (s.enqueue x).mem = s.mem ∧ (s.enqueue x).me.regs = s.me.regs ∧
    (∀ n, x.tok = .reg n → (s.enqueue x).me.busy = insertNat s.me.busy n)) ∧
  (∀ (s : State) (d b : SReg), s.Plain → s.Quiet → s.Ready [b] [d] →
    s.outstanding = true ∨ 16 ≤ (s.copyQueue s.myCtx.core).length →
    exec (.exportPage d b) s = .next (s.here.waitHere false)) ∧
  (∀ (s : State) (d b sz bar aux : SReg) (va vb : VReg) (vg : BitVec 2) (comp : BitVec 1) (toa : BitVec 3)
    (ao bo : BitVec 16), s.Quiet → (copyGroup va vg).any (fun r => (tget s.myCtx.streams r.toNat).isSome) = true →
    (s.Ready [b, sz, bar] [d] → s.cur.kind ≠ .dh → ∃ t : Trap, t.cause = .illegal ∧ t.detail = 8 ∧
      exec (.cpyin d va b sz bar 1 vg comp toa ao bo) s = .next (s.here.scalarTrap t)) ∧
    (s.Ready [sz, bar, aux] [d] → s.cur.kind = .ch → bits (s.readS aux) 0 9 = s.myCtx.core →
      ∃ t : Trap, t.cause = .illegal ∧ t.detail = 8 ∧
      exec (.cpyreg d va vb sz bar aux vg comp toa) s = .next (s.here.scalarTrap t)))

/-- 10_copies R228–R233, R235, R237–R242, R245, R246, R457; 12_context R287: the copy engine. A command that the range checker
lets start ends with the word of the checks that come before a tensor descriptor, and, where they find nothing, with that of
the others, which for TCPY come after its descriptor has been read; a CPYIN or CPYOUT of no bytes ends with 0, and a command
that has retired all its bytes with their number, SCPY apart. An atom moves the bytes that its form reads to where its form
writes them, in any order, of a register group one element group at a time; the units of a copy that encodes or decodes tiles
go in ascending order. A unit of CPYFOLD folds its terms into one element of the target; EXPORT raises the page's granules to
HOST and writes its record to the ring, or ends with code 8 where a copy of another core stays. What is moved retires in order
and is posted to the barrier, 64 bytes at a time, each atom once none of its multicasts is under way; SCPY writes its stamp
last; and a token, which waits for every write of the copy to reach every replica, writes the status word to its register,
frees it, and sets its unread-error bit where the word says ERROR. The order in which an unordered CPYFOLD combines its terms is
free (notes/assumptions/6). Model's choices: that CPYFOLD retires 4 bytes for each term, and updates its elements in ascending
order (notes/assumptions/42); that EXPORT waits while the ring is full, and ends without a record where TEXPORT is 0
(notes/assumptions/44); that a TCPY is checked for its window and its barrier first, then reads its descriptor, with the rules
of a load of no alignment, and is checked at BASE then (notes/assumptions/77); and which buffered strips a raise discards
(notes/assumptions/120). -/
def Obligations.CopyEngine : Prop :=
  (∀ (s : State) (x : CopyCmd), s.copy s.evArg.a = some x → x.started = false → x.record = none → s.mayStart x = true →
    (∀ w, s.checkFirst x = some w →
      exec .copyStart s = .next (s.withCopy { x with started := true, status := some w })) ∧
    (x.tile = [] → s.checkFirst x = none → ∀ w, s.checkLast x = some w →
      exec .copyStart s = .next (s.withCopy { x with started := true, status := some w })) ∧
    (x.tile = [] → s.checkFirst x = none → s.checkLast x = none →
      exec .copyStart s = .next (s.withCopy { x with started := true }.settle)) ∧
    ((match x.instr with | .tcpyIn .. => True | .tcpyOut .. => True | _ => False) → s.checkFirst x = none →
      ∀ bs, s.loadFor (s.copyWho x) 1 .read loadKinds 1 x.aux.toNat 64 = .ok bs →
      let y := { x with desc := wordsOfBytes 8 bs }
      (∀ w, s.checkLast y = some w → exec .copyStart s = .next (s.withCopy { y with started := true, status := some w })) ∧
      (s.checkLast y = none → exec .copyStart s = .next (s.withCopy { y with started := true }.settle))) ∧
    ((match x.instr with | .cpyin .. => True | .cpyout .. => True | _ => False) → x.len = 0 → s.checkFirst x = some 0)) ∧
  (∀ x : CopyCmd, x.fail = none → x.retired = x.total → x.stamps = false →
    x.settle.status = some (BitVec.ofNat 64 x.total)) ∧
  (∀ (s : State) (x : CopyCmd), s.copy s.evArg.a = some x → x.started = true → x.status = none → x.record = none →
    s.postWaits x = false → x.retired < x.total →
    (match x.instr with | .cpyfold .. => False | .exportPage .. => False | _ => True) →
    (s.ascending x = false → x.atomOpen s.evArg.b = true →
      let off := 64 * s.evArg.b
      ∀ bs, s.copyRead x off (min 64 (x.total - off)) = .ok bs →
      (∀ t, x.vdst = none → s.copyWrite x off bs = .ok t →
        let p := retireAtoms (x.total / 64 + 1) (t, { x with moved := insertNat x.moved s.evArg.b })
        exec .copyAtom s = .next (p.1.withCopy p.2.settle)) ∧
      (∀ g, x.vdst = some g →
        let l := tput x.landing s.evArg.b bs
        let k := s.evArg.b / 8
        let need := ((List.range 8).map (8 * k + ·)).filter (fun j => decide (64 * j < x.total))
        let land : State × CopyCmd :=
          if need.all (fun j => (tget l j).isSome) then
            (s.putGroup x.ref.cid g.1 (512 * k) (need.flatMap (fun j => (tget l j).getD [])),
              { x with moved := need.foldl insertNat x.moved, landing := l.filter (fun e => !need.contains e.1) })
          else (s, { x with landing := l })
        let p := retireAtoms (x.total / 64 + 1) land
        exec .copyAtom s = .next (p.1.withCopy p.2.settle))) ∧
    (s.ascending x = true → x.fail = none →
      let p := max x.upTo x.retired
      ∀ t y n, p < x.total → s.ascendUnit x p = .ok (t, y, n) →
      let q := retireAtoms ((y.movedTo (p + n)).total / 64 + 1) (t, y.movedTo (p + n))
      exec .copyAtom s = .next (q.1.withCopy q.2.settle))) ∧
  (∀ (s : State) (x : CopyCmd) (off n : Nat) (bs : List Byte),
    let src := x.src.toNat + off
    let dst := x.dst.toNat + off
    (match x.instr with
     | .cpyin _ a _ _ _ vdst _ _ _ _ _ =>
       (vdst = 1 → s.copyRead x off n = s.engRead x anyKind src n ∧
         s.copyWrite x off bs = .ok (s.putGroup x.ref.cid a off bs)) ∧
       (vdst ≠ 1 → s.copyWrite x off bs = .ok (s.putIs x.ref.cid dst bs)) ∧
       (touchesWindows src n = false → s.copyRead x off n = s.engRead x anyKind src n)
     | .cpyout .. => s.copyRead x off n = s.engRead x copySrcKinds src n ∧
       (∀ pl, s.dstPlace x dst = some pl → pl.kind ≠ .comp → s.copyWrite x off bs = s.engWrite x (off / 64) dst bs)
     | .scpy .. => s.copyRead x off n = s.engRead x copySrcKinds src n ∧
       s.copyWrite x off bs = s.engWrite x (off / 64) dst bs
     | .cpyreg _ a b _ _ _ _ _ _ =>
       s.copyRead x off n = .ok ((List.range n).map (fun i => BitVec.ofNat 8 ((s.ctx x.ref.cid).elem b 8 (off + i)))) ∧
       (∀ cid, s.cpyregTarget x = some cid → (s.ctx cid).present = true →
         (s.coreRoute x.core (s.ctx cid).core).isSome = true →
         s.copyWrite x off bs = .ok (s.putGroup cid a off bs))
     | .tcpyIn .. => s.copyWrite x off bs = .ok (s.putIs x.ref.cid dst bs) ∧
       (∀ z : List (List Byte), Eng.all ((List.range (n / tdEsz x.desc)).map (fun i =>
           match tdAddr x.desc x.tile (off / tdEsz x.desc + i) with
           | none => Eng.ok (List.replicate (tdEsz x.desc) 0)
           | some a => (s.globalOnly x a (tdEsz x.desc)).bind (fun _ => s.engRead x copySrcKinds a (tdEsz x.desc)))) = .ok z →
         s.copyRead x off n = .ok z.flatten)
     | .tcpyOut .. => s.copyRead x off n = s.engRead x copySrcKinds src n ∧
       s.copyWrite x off bs = (List.range (bs.length / tdEsz x.desc)).foldl (fun (r : Eng State) i => r.bind (fun s =>
         match tdAddr x.desc x.tile (off / tdEsz x.desc + i) with
         | none => .ok s
         | some a => (s.globalOnly x a (tdEsz x.desc)).bind (fun _ =>
             s.engWrite x (off / 64) a ((bs.drop (tdEsz x.desc * i)).take (tdEsz x.desc))))) (.ok s)
     | _ => True)) ∧
  (∀ (s : State) (x : CopyCmd) (vs : List Val) (pl : Place) (va m : Nat) (r : List (Place × Nat × Nat)),
    s.copy s.evArg.a = some x → x.started = true → x.status = none → x.record = none → s.postWaits x = false →
    x.retired < x.total → ∀ d a b sz bar fold ordered comp toa ao bo,
    x.instr = .cpyfold d a b sz bar fold ordered comp toa ao bo →
    let j := x.moved.length
    let y := { x with moved := x.moved ++ [j] }
    s.foldTerms y j = .ok vs → s.locate (s.copyWho x) 2 .write (x.dst.toNat + 4 * j) 4 = .ok (.pages ((pl, va, m) :: r)) →
    pl.kind = .sync → s.migrating .sync pl.pa = false → s.behind x.core .sync pl.pa 4 = false →
    s.eccCheck x.core 2 [(pl, va, 4)] = none →
    let f := foldVal (fold.toNat + 1)
    let z := if ordered = 1 then ((match vs with | [] => Val.zero | v :: rest => rest.foldl f v), s.freeCtr)
      else foldFree (fold.toNat + 1) vs.length s.freeCtr vs
    let s1 : State := { s with freeCtr := z.2 }
    let p := (s1.syncWrite (s.copyWho x) pl.pa
      (bytesOfNat 4 (f32Bits (f (f32Val (natOfBytes (s.memBytes pl.pa 4))) z.1)))).retireBytes y (4 * vs.length)
    exec .copyAtom s = .next (p.1.withCopy p.2.settle)) ∧
  (∀ (s : State) (x : CopyCmd) (d b : SReg) (pl : Place) (va m : Nat) (r : List (Place × Nat × Nat)),
    s.copy s.evArg.a = some x → x.started = true → x.status = none → x.record = none → s.postWaits x = false →
    x.retired < x.total → x.instr = .exportPage d b →
    let a := x.src.toNat / 65536 * 65536
    s.locate (s.copyWho x) 1 .nothing a 65536 = .ok (.pages ((pl, va, m) :: r)) → pl.kind = .comp →
    s.migrating .comp pl.pa = false → s.behind x.core .comp pl.pa 65536 = false →
    let keys := (List.range 1024).map (fun g => granKey .comp (pl.pa + 64 * g))
    let r := keys.foldl (turnCopy x.core .host) (s, 0)
    let k := (r.1.dropStrips (fun _ => true) keys, r.2)
    let base := (k.1.tenant (s.copyWho x).tenant).texport.toNat
    let done := fun (t : State) => (t.retireBytes x 65536).1.withCopy (t.retireBytes x 65536).2.settle
    (0 < k.2 → exec .copyAtom s = .next (k.1.withCopy { x with status := some (errStatus 8 0 x.retired) })) ∧
    (k.2 = 0 → k.1.badHalf x.core pl.pa 136 = none →
      (base = 0 → exec .copyAtom s = .next (done k.1)) ∧
      (base ≠ 0 → k.1.routeTo x.core .hostmem base = true →
        (∀ t, k.1.ringPut base (k.1.hostWord (base + 8)) [BitVec.ofNat 64 a, BitVec.ofNat 64 pl.pa,
            BitVec.ofNat 64 (imageLength (k.1.frameImage pl.pa)), k.1.wgenOf (frameKey .comp pl.pa)] = some t →
          exec .copyAtom s = .next (done t)) ∧
        (k.1.ringPut base (k.1.hostWord (base + 8)) [BitVec.ofNat 64 a, BitVec.ofNat 64 pl.pa,
            BitVec.ofNat 64 (imageLength (k.1.frameImage pl.pa)), k.1.wgenOf (frameKey .comp pl.pa)] = none →
          exec .copyAtom s = .next s)))) ∧
  (∀ (n : Nat) (s : State) (x : CopyCmd),
    (x.moved.contains (x.retired / 64) = false ∨ s.atomDone x (x.retired / 64) = false ∨ s.postWaits x = true ∨
      x.total ≤ x.retired → retireAtoms n (s, x) = (s, x)) ∧
    (x.moved.contains (x.retired / 64) = true → s.atomDone x (x.retired / 64) = true → s.postWaits x = false →
      x.retired < x.total →
      retireAtoms (n + 1) (s, x) = retireAtoms n (s.retireBytes x (min 64 (x.total - x.retired))))) ∧
  (∀ (s : State) (x : CopyCmd) (bs : List Byte) (t : State), s.copy s.evArg.a = some x → x.stamps = true →
    x.started = true → x.status = none → x.record = none → x.fail = none → x.retired = x.total →
    s.postWaits x = false →
    (x.stamped = false → s.engRead x copySrcKinds (x.src.toNat + x.total) 8 = .ok bs →
      s.engWrite x (x.total / 64 + 1) (x.dst.toNat + x.total) bs = .ok t →
      exec .scpyStamp s = .next (t.endStamp { x with stamped := true })) ∧
    (x.stamped = true → exec .scpyStamp s = .next (s.endStamp x)) ∧
    (s.effectsDone x = true → s.endStamp x = (s.retireBytes x 8).1.withCopy { (s.retireBytes x 8).2 with
      status := some (BitVec.ofNat 64 (x.total + 8)) }) ∧
    (s.effectsDone x = false → s.endStamp x = s.withCopy x)) ∧
  (∀ (s : State) (x : CopyCmd) (i : Nat) (p : Packet), p ∈ s.packets → p.copy = some (x.id, i) →
    s.effectsDone x = false ∧ s.atomDone x i = false) ∧
  (∀ (s : State) (x : CopyCmd) (w : Word), s.copy s.evArg.a = some x → x.status = some w → s.effectsDone x = false →
    exec .tokenWrite s = .next s) ∧
  (∀ (s : State) (x : CopyCmd) (w : Word) (n : Nat), s.copy s.evArg.a = some x → x.status = some w →
    s.effectsDone x = true → x.tok = .reg n → 0 < n → n < 32 → (s.ctx x.ref.cid).slotState ≠ .free →
    ∃ u, exec .tokenWrite s = .next u ∧ u.mem = s.mem ∧ (u.hart x.ref).readS (BitVec.ofNat 5 n) =
        ((s.hart x.ref).writeS (BitVec.ofNat 5 n) w).readS (BitVec.ofNat 5 n) ∧
      (u.hart x.ref).busy = (s.hart x.ref).busy.filter (fun m => decide (m ≠ n)) ∧
      (u.hart x.ref).unread = (if bit w 63 then insertNat (s.hart x.ref).unread n else (s.hart x.ref).unread) ∧
      u.copyQueue x.core = (s.copyQueue x.core).filter (fun y => decide (y.id ≠ x.id)))

/-- 10_copies R247–R249: SBIND reads a descriptor of 64 bytes and binds the register at its element 0, with the type of
the stream's output as its tag; SFREE unbinds it; on the compute hart both have their place in the queue; an
instruction that reads a bound register, shown for VADD, has positions 0 to VL − 1 of it filled with the next strip, and
with the fill past the end of the stream, and moves the stream on; and STREAM_REFILL buffers the next elements, at most two
strips ahead, while the context issues, each with the granules that it was read from. Which strips a TURN then discards, and
that FMTSET leaves them, is the model's choice (notes/assumptions/119, 120). That an entry is executed as soon as it can be is the
model's choice (notes/assumptions/17). -/
def Obligations.Streams : Prop :=
  (∀ (s : State) (d : VReg) (a : SReg) (bs : List Byte), s.Plain →
    let desc := wordsOfBytes 8 bs
    let bound := fun (t : State) => t.withMyCtx { t.myCtx.setTag d (BitVec.ofNat 12 (strOut desc)) with
      streams := tput s.myCtx.streams d.toNat { desc := desc, pos := 0, strips := [] } }
    strMalformed s.myCtx desc = false → s.myCtx.streams.length < 4 →
    (s.cur.kind = .fh → s.Ready [a] [] →
      (s.reading [a]).loadFor (s.who s.cur) 1 .read loadKinds 8 (s.readS a).toNat 64 = .ok bs →
      exec (.sbind d a) s = .next ((bound (s.reading [a])).advance 4)) ∧
    (let t := s.issued (.sbind d a) 4 [a] []
     t.loadFor (t.who t.cur) 1 .read loadKinds 8 (s.readS a).toNat 64 = .ok bs →
     entryGives s (.sbind d a) 4 [a] [] bound)) ∧
  (∀ (s : State) (d : VReg),
    (s.cur.kind = .fh → s.Ready [] [] → exec (.sfree d) s =
      .next (((s.reading []).withMyCtx (((s.reading []).myCtx).unbind d)).advance 4)) ∧
    entryGives s (.sfree d) 4 [] [] (fun t => t.withMyCtx (t.myCtx.unbind d)) ∧
    (s.cur.kind = .dh → ∃ t : Trap, t.cause = .illegal ∧ t.detail = 7 ∧ exec (.sfree d) s = .next (s.scalarTrap t))) ∧
  (∀ (s : State) (st : Stream) (xs : List Nat),
    let c := s.ctx s.evArg.a
    let pos := st.pos + st.strips.flatten.length
    let w := s.who { cid := s.evArg.a, kind := .ch }
    let n := min c.vl (strLen st.desc - pos)
    tget c.streams s.evArg.b = some st → st.strips.length < 2 → c.slotState = .issuing → xs ≠ [] →
    MemRes.all ((List.range n).map (fun i => s.strElem w st.desc (pos + i))) = .ok xs →
    let strip := ((List.range n).zip xs).map (fun p => s.buffered w st.desc (pos + p.1) p.2)
    strip.map (·.word) = xs.map (BitVec.ofNat 64) ∧
    exec .streamRefill s = .next (s.withCtx s.evArg.a { c with
      streams := tput c.streams s.evArg.b { st with strips := st.strips ++ [strip] } })) ∧
  (∀ (s : State) (xs : BitVec 1) (k : MReg) (d a : VReg) (b : BitVec 5) (st : Stream) (vs : List Nat),
    let c := s.myCtx
    let i : Instr := .vadd xs k d a b
    let reads := if xs = 1 then [b] else []
    let y := if xs = 1 then Src2.scalar (s.readS b) else Src2.vec b
    let e := s.entryOf i reads
    let u := s.issued i 4 reads []
    let w := c.regWidth a
    s.cur.kind = .ch → s.Quiet → s.Plain → s.Ready reads [] →
    (s.copyQueue c.core).all (fun x => decide (x.ref.cid ≠ s.cur.cid)) = true →
    tget c.streams a.toNat = some st → tget c.streams d.toNat = none → boundSources c i = [a] →
    streamsIllFormed c [a] = false →
    vecCheck c e ([tagType (c.tag d), tagType (c.tag a)] ++ c.src2Codes y) [k]
      ([c.span d, c.span a] ++ c.src2Spans y) = none →
    u.strip (u.who u.cur) st (c.fill w) c.vl = .ok vs →
    let p : Ctx := u.myCtx.setElems a w ((List.range c.vl).zip vs)
    let c2 : Ctx := { p with
      streams := tput p.streams a.toNat (st.popped c.vl)
      viq := modifyAt p.viq 0 (fun (x : VEntry) => { x with popped := true }) }
    exec i s = .next (completeHead e ((u.withMyCtx c2).writeResults d (c.regWidth d) 0x30 ((c2.actives e k).map (fun j =>
      let m := c2.srcVal e a j
      let q := c2.src2Val e a y j
      let z := m.1.add e.rm q.1
      (j, e.toDest (c.regType d) (c.intReg a && c.src2Int a y) (z.1, (m.2.or q.2).or z.2))))))) ∧
  (∀ (s : State) (w : Who) (st : Stream) (fill n : Nat) (vs : List Nat), s.strip w st fill n = .ok vs →
    vs.length = n ∧ (st.popped n).pos = st.pos + n ∧
    ∀ i < n, (strLen st.desc ≤ st.pos + i → vs[i]? = some fill) ∧
      (∀ x, st.pos + i < strLen st.desc → st.strips.flatten[i]? = some x → vs[i]? = some x.word.toNat) ∧
      (st.pos + i < strLen st.desc → st.strips.flatten[i]? = none → s.strElem w st.desc (st.pos + i) = .ok (vs.getD i 0)))

/-- 14_group R317–R324, R327–R331: tasks. TSPAWN puts its record at the head of the deque; TDEP builds a counter object,
or a ready record where the count is 0; TDEC takes one from a counter, which at 1 enters the record of the object into
the ready queue; TDONE ends the root's work or a task, whose join counter w2, where there is one, it takes one from, as TDEC does
where CONT is 1 and with no record released where it is 0; of a task that has ended but for its insertion, or is a hit, it
changes nothing but PC, which is the model's choice (notes/assumptions/95); and DISPATCH starts a record on an idle hart: its PC, w1 and w2 are the record's,
s10 to s14 its arguments, the other registers 0. -/
def Obligations.Tasks : Prop :=
  (∀ (s : State) (a b c : SReg), s.Plain → s.Quiet → s.outstanding = false →
    let k := s.myCtx.kernel
    (let t := s.reading (regRange a 8)
     let r := taskRecOf ((regRange a 8).map s.readS)
     s.Ready (regRange a 8) [] → recMalformed r = false → s.myCtx.deque.length < 64 →
     exec (.tspawn a) s = .next ((t.withMyCtx { t.myCtx with deque := r :: s.myCtx.deque }).advance 4)) ∧
    (∀ pl, let t := s.reading ([a, b] ++ regRange c 8)
     let r := taskRecOf ((regRange c 8).map s.readS)
     let w := t.who s.cur
     s.Ready ([a, b] ++ regRange c 8) [] → t.atomicCheck w 2 .rmw 128 (s.readS a).toNat 8 = .ok pl →
     recMalformed r = false → s.migrating .sync pl.pa = false → s.memWord pl.pa = 0 →
     bit (s.memWord (pl.pa + 8)) 0 = false → s.readyFull k = false →
     let put := fun (f : Word) =>
       t.syncWrite w pl.pa (bytesOfWords ([s.readS b, f, 0, 0, 0, 0, 0, 0] ++ r.words))
     exec (.tdep a b c) s = .next
       ((if s.readS b = 0 then (put 0).enterReady k (.record r) else put 1).advance 4)) ∧
    (∀ pl, let t := s.reading [a]
     let w := t.who s.cur
     s.Ready [a] [] → t.atomicCheck w 2 .rmw 128 (s.readS a).toNat 8 = .ok pl → s.migrating .sync pl.pa = false →
     let n := s.memWord pl.pa
     (n ≠ 0 → n ≠ 1 ∨ bit (s.memWord (pl.pa + 8)) 0 = false →
       exec (.tdec a) s = .next ((t.syncWrite w pl.pa (bytesOfWord 8 (n - 1))).advance 4)) ∧
     (n = 0 → ∃ x : Trap, x.cause = .depunder ∧ exec (.tdec a) s = .next (s.here.scalarTrap x)) ∧
     (let r := taskRecOf (wordsOfBytes 8 (s.memBytes (pl.pa + 64) 64))
      n = 1 → bit (s.memWord (pl.pa + 8)) 0 = true → recMalformed r = false →
      s.imageBad w.core (pl.pa + 64) 64 = false →
      s.readyFull k = false →
      let s1 := t.syncWrite w pl.pa (bytesOfWord 8 0)
      exec (.tdec a) s = .next (((s1.syncWrite w (pl.pa + 8)
        (bytesOfWord 8 (s1.memWord (pl.pa + 8) &&& ~~~1#64))).enterReady k (.record r)).advance 4)))) ∧
  (∀ (s : State), s.Plain → s.Quiet → s.outstanding = false →
    s.tokensOut s.cur 0 = false → s.me.unread = [] →
    let t := s.reading []
    let w := t.who s.cur
    let k := s.myCtx.kernel
    (s.me.dispatch = .root → exec .tdone s = .next ((t.advance 4).goIdle s.cur)) ∧
    (s.me.dispatch ≠ .root → s.me.ending = true → exec .tdone s = .next (t.advance 4)) ∧
    (s.me.dispatch ≠ .root → s.me.ending = false →
      (s.me.w2 = 0 → exec .tdone s = .next ((t.advance 4).goIdle s.cur)) ∧
      (s.me.w2 ≠ 0 →
        ∀ pl, t.atomicCheck w 2 .rmw (if bit s.me.w1 6 then 128 else 8) s.me.w2.toNat 8 = .ok pl →
        s.migrating .sync pl.pa = false →
        let n := s.memWord pl.pa
        (n = 0 → ∃ x : Trap, x.cause = .depunder ∧ exec .tdone s = .next (s.here.scalarTrap x)) ∧
        (n ≠ 0 → bit s.me.w1 6 = false ∨ n ≠ 1 ∨ bit (s.memWord (pl.pa + 8)) 0 = false →
          exec .tdone s = .next (((t.syncWrite w pl.pa (bytesOfWord 8 (n - 1))).advance 4).goIdle s.cur)) ∧
        (let r := taskRecOf (wordsOfBytes 8 (s.memBytes (pl.pa + 64) 64))
         n = 1 → bit s.me.w1 6 = true → bit (s.memWord (pl.pa + 8)) 0 = true → recMalformed r = false →
         s.imageBad w.core (pl.pa + 64) 64 = false → s.readyFull k = false →
         let s1 := t.syncWrite w pl.pa (bytesOfWord 8 0)
         exec .tdone s = .next ((((s1.syncWrite w (pl.pa + 8)
           (bytesOfWord 8 (s1.memWord (pl.pa + 8) &&& ~~~1#64))).enterReady k (.record r)).advance 4).goIdle s.cur))))) ∧
  (∀ (s : State) (t : TaskRec) (rest : List TaskRec) (x : Kernel),
    let r : HartRef := { cid := s.evArg.a, kind := s.evArg.h }
    let c := s.ctx r.cid
    c.runs r.kind = true → c.handler = none → (s.hart r).stalled = none → (s.hart r).dispatch = .idle →
    (r.kind = .ch → c.viq = []) → s.kernel c.kernel = some x → x.ready = [] → c.deque = t :: rest → recEligible r.kind t = true → bit t.w1 3 = false →
    ∃ u, exec .dispatch s = .next u ∧ (u.ctx r.cid).deque = rest ∧ u.mem = s.mem ∧
      let h := u.hart r
      h.pc = t.w0 ∧ h.w1 = t.w1 ∧ h.w2 = t.w2 ∧ h.dispatch = .task ∧ h.unread = [] ∧ h.pure = none ∧
      h.regs = ((List.range 5).zip t.args).foldl (fun m p => sset 0 m (10 + p.1) p.2) [])

/-- 14_group R333, R335, R339, R340: TSUSP keeps PC + 8 and the registers of its mask in a continuation and leaves the
hart idle; a hart that takes the continuation has them again, with the token in its register. SFARM opens the next strip
farm, and SNEXT gives out its indices in order, then all ones. -/
def Obligations.SuspensionAndFarm : Prop :=
  (∀ (s : State) (a : SReg) (m : BitVec 32), s.Plain → s.Quiet →
    s.outstanding = false → s.me.dispatch = .task → s.me.ending = false → s.myCtx.conts.length < 16 →
    s.tokensOut s.cur a.toNat = false → s.me.busy = [] → s.me.unread = [] →
    exec (.tsusp a m) s = .next (((s.reading []).suspend a m).admitConts s.myCtx.kernel)) ∧
  (∀ (s : State) (a : SReg) (m : BitVec 32), s.tokenCopy s.cur a.toNat = none →
    let x : Cont := {
      id := s.serial, pc := s.me.pc + 8, saved := (maskRegs m).map (fun i => (i, sget 0 s.me.regs i)), mask := m,
      reg := a.toNat, kind := s.cur.kind, w1 := s.me.w1, w2 := s.me.w2, pure := s.me.pure,
      token := some (s.readS a), ready := false }
    ((s.suspend a m).ctx s.cur.cid).conts = s.myCtx.conts ++ [x] ∧ ((s.suspend a m).hart s.cur).dispatch = .idle) ∧
  (∀ (s : State) (r : HartRef) (id : Nat) (x : Cont), (s.ctx r.cid).conts.find? (fun y => decide (y.id = id)) = some x →
    let h := (s.startCont r r.cid id).hart r
    h.pc = x.pc ∧ h.dispatch = .task ∧ h.w1 = x.w1 ∧ h.w2 = x.w2 ∧
    h.regs = (if (BitVec.ofNat 5 x.reg : SReg) = 0 then x.saved.foldl (fun m p => sset 0 m p.1 p.2) []
      else sset 0 (x.saved.foldl (fun m p => sset 0 m p.1 p.2) []) (BitVec.ofNat 5 x.reg).toNat (x.token.getD 0))) ∧
  (∀ (s : State) (d a : SReg) (x : Kernel), s.Plain → s.kernel s.myCtx.kernel = some x →
    (let t := s.reading [a]
     s.Ready [a] [] → (s.readS a).toNat < 2 ^ 32 → x.farm = s.me.farm → x.farmN ≤ x.farmNext →
     exec (.sfarm a) s = .next (((t.withKernel s.myCtx.kernel { x with
       farm := s.me.farm + 1, farmN := (s.readS a).toNat, farmNext := 0 }).withMe
       { t.me with farm := s.me.farm + 1 }).advance 4)) ∧
    (let t := s.reading []
     s.Ready [] [d] →
     (x.farm = s.me.farm → x.farmNext < x.farmN → exec (.snext d) s =
       .next ((t.withKernel s.myCtx.kernel { x with farmNext := x.farmNext + 1 }).retire 4 d
         (BitVec.ofNat 64 x.farmNext))) ∧
     (x.farm ≠ s.me.farm ∨ x.farmN ≤ x.farmNext →
       exec (.snext d) s = .next (t.retire 4 d (BitVec.allOnes 64)))))

/-- 13_kernel R296–R304: LAUNCH of a record at an address off its alignment answers MALFORMED; a record that can be read
is submitted, and the answer is the kernel's number, with ERROR and the reason of the first check that fails; QFULL is
counted by the tenant of the launching context, which is the model's choice for a context at SUPER (notes/assumptions/47),
as is the wait of LAUNCH for the hart's own multicasts (notes/assumptions/14). A doorbell sets TAIL of an enabled queue,
unless the device is not READY or a reset of the tenant is under way, which the model tells by the completion words that
it owes (notes/assumptions/97), and KQ_ENTRY_TAKE submits the record of the next entry and moves HEAD on; an entry or a
record that cannot be read is RECORD, reason 7, and sets ERR. -/
def Obligations.Launches : Prop :=
  (∀ (s : State) (d a : SReg) (hb tb : List Byte), s.Ready [a] [d] → s.Plain → s.Quiet →
    s.outstanding = false →
    let t := s.reading [a]
    let x := (s.readS a).toNat
    let hdr := wordsOfBytes 16 hb
    let n := 16 * shNchan (hdr.getD 3 0)
    let reads := t.loadFor (t.who s.cur) 1 .read loadKinds 1 x 128 = .ok hb ∧
      (if n = 0 then tb = [] else t.loadFor (t.who s.cur) 1 .read loadKinds 1 (x + 128) n = .ok tb)
    (x % 64 ≠ 0 → exec (.launch d a) s = .next (t.retire 4 d 0x8100000000000000)) ∧
    (x % 64 = 0 → reads → s.queuedOf s.myCtx.tenant < 256 →
      let r := launchRecOf hdr (wordsOfBytes (n / 8) tb)
      let why := t.refusal (.hart s.myCtx.tenant s.myCtx.super) x r
      exec (.launch d a) s = .next ((t.submit r.tenant r why).retire 4 d (BitVec.ofNat 64
        (match why with | some e => 2 ^ 63 + e * 2 ^ 56 + s.kernelNo.toNat | none => s.kernelNo.toNat)))) ∧
    (x % 64 = 0 → reads → 256 ≤ s.queuedOf s.myCtx.tenant → exec (.launch d a) s = .next (t.retire 4 d 0x8600000000000000))) ∧
  (∀ (s : State), s.evArg.b < 4 → s.cxlDown = false → let q := s.kqueue s.evArg.a s.evArg.b
    s.dev.ready = false ∨ s.resetting s.evArg.a = true ∨ q.entries = none →
    exec .doorbell s = .next (s.withKqueue s.evArg.a s.evArg.b { q with err := true })) ∧
  (∀ (s : State) (n : Nat), s.evArg.b < 4 → (s.kqueue s.evArg.a s.evArg.b).entries = some n → s.dev.ready = true →
    s.resetting s.evArg.a = false → s.cxlDown = false →
    let q := s.kqueue s.evArg.a s.evArg.b
    let tail : BitVec 32 := s.evArg.w.setWidth 32
    ((tail - q.head).toNat ≤ n → exec .doorbell s = .next (s.withKqueue s.evArg.a s.evArg.b { q with tail := tail })) ∧
    (n < (tail - q.head).toNat → exec .doorbell s = .next (s.withKqueue s.evArg.a s.evArg.b { q with err := true }))) ∧
  (∀ (s : State) (n : Nat) (bs : List Byte) (r : LaunchRec),
    let q := s.kqueue s.evArg.a s.evArg.b
    q.entries = some n → q.head ≠ q.tail → s.dev.ready = true →
    s.funcRead s.evArg.a (bits q.base 0 57 + 8 * (q.head.toNat % n)) 8 = some bs →
    s.readRecord s.evArg.a (wordOfBytes bs).toNat = some r →
    exec .kqEntryTake s = .next ((s.submit r.tenant r
      (s.refusal (.func s.evArg.a) (wordOfBytes bs).toNat r)).withKqueue s.evArg.a s.evArg.b { q with head := q.head + 1 })) ∧
  (∀ (s : State) (n : Nat),
    let q := s.kqueue s.evArg.a s.evArg.b
    let at_ := bits q.base 0 57 + 8 * (q.head.toNat % n)
    let addr := (s.funcRead s.evArg.a at_ 8).map (fun bs => (wordOfBytes bs).toNat)
    q.entries = some n → q.head ≠ q.tail → s.dev.ready = true → addr.bind (s.readRecord s.evArg.a) = none →
    exec .kqEntryTake s = .next (((s.logTake s.evArg.a at_ addr).submit s.evArg.a noRecord (some 7)).withKqueue
      s.evArg.a s.evArg.b { q with head := q.head + 1, err := true }))

/-- 15_queue R344–R358: queues. QCREATE takes a free window of the core's quadrant; QPUSH appends a record of 64 bytes
and answers the new count, and one that meets a full ring and a window with room waits for the refill; QPOP takes the head
and answers what is left, and EMPTY when there is none; QINFO reads a queue, QCLOSE ends it, and QUEUE_REFILL moves a
record from the ring to the window. A QCLOSE that finds the queue CLOSED frees it, except that one which may stand in the
cycle in which the queue was made CLOSED frees it or not: it may where no hart has issued twice since (each issues at most once a
cycle, 13_kernel R310), and its place in the order of R348 is behind the last operation's. That a queue remembers this until the
next heartbeat, and that a release waits for the hart's own multicasts, is the model's choice (notes/assumptions/78, 14). A
handle that names no window is an OBJECT of class 2, reason 1, shown for QINFO. -/
def Obligations.Queues : Prop :=
  (∀ (s : State) (d a b : SReg) (i : Nat) (bs : List Byte), s.Plain → s.Quiet →
    s.outstanding = false →
    let w := s.window i
    let me := s.who s.cur
    let live := handleWindow (s.readS a) = some i ∧ w.live (s.readS a) = true ∧ w.tenant = s.myCtx.tenant
    let since := fun (k : QKind) =>
      if s.sharesCycle w k then w.closedBy.map (fun p => (p.1, s.cyclePlace k)) else none
    let after := fun (k : QKind) => ({ w with closedBy := since k } : Window)
    (let t := s.reading [a]
     ∀ fs, s.Ready [a] [d] → (s.readS a).toNat % 64 = 0 → t.load me (s.readS a).toNat 64 = .ok bs →
     qdMalformed (wordsOfBytes 8 bs) = false →
     (let ws := wordsOfBytes 8 bs
      if qdRcap ws = 0 then fs = [] else t.ringFrames me (pagePieces (qdRbase ws) (64 * qdRcap ws)) = .ok fs) →
     (List.range 16).find? (fun j => decide ((s.window (coreQuad me.core * 16 + j)).state = .free)) = some i →
     let j := coreQuad me.core * 16 + i
     exec (.qcreate d a) s = .next ((t.withWindow j {
       state := .active, gen := (s.window j).gen, tenant := me.tenant, rbase := qdRbase (wordsOfBytes 8 bs),
       rcap := qdRcap (wordsOfBytes 8 bs), frames := fs, recs := [], rhead := 0, rcount := 0, seq := 0, closedBy := none }).retire 4 d (queueHandle j (s.window j).gen))) ∧
    (let t := s.reading [a, b]
     s.Ready [a, b] [d] → live → (s.readS b).toNat % 64 = 0 → t.load me (s.readS b).toNat 64 = .ok bs →
     (w.state = .active → w.rcount = 0 → w.recs.length < 32 → exec (.qpush d a b) s =
       .next ((t.withWindow i { w with recs := w.recs ++ [bs], seq := w.seq + 1 }).retire 4 d
         (BitVec.ofNat 64 (w.recs.length + 1)))) ∧
     (w.state = .active ∨ w.state = .spilling → w.count = 32 + w.rcap →
       exec (.qpush d a b) s = .next (t.retire 4 d 0x8200000000000000)) ∧
     (w.state = .spilling → w.rcount = w.rcap → 0 < w.rcount → w.recs.length < 32 →
       exec (.qpush d a b) s = .next (s.here.waitHere false)) ∧
     ((w.state = .spilling ∧ 0 < w.rcount ∧ w.rcount < w.rcap) ∨ (w.state = .active ∧ w.rcount = 0 ∧ 32 ≤ w.recs.length) →
       let pa := (w.slot ((w.rhead + w.rcount) % w.rcap)).2
       w.count ≠ 32 + w.rcap → s.migrating .sync pa = false → s.behind s.myCtx.core .sync pa 64 = false → exec (.qpush d a b) s =
         .next (((t.syncWrite me pa bs).withWindow i { w with state := .spilling, rcount := w.rcount + 1, seq := w.seq + 1 }).retire
           4 d (BitVec.ofNat 64 (w.recs.length + w.rcount + 1)))) ∧
     (w.state = .draining ∨ (w.state = .closed ∧ w.closedBy = none) →
       exec (.qpush d a b) s = .next (t.retire 4 d 0x8100000000000000)) ∧
     (w.state = .closed → w.closedBy.isSome = true →
       exec (.qpush d a b) s = .next ((t.withWindow i (after .push)).retire 4 d 0x8100000000000000))) ∧
    (let t := s.reading [a, b]
     s.Ready [a, b] [d] → live → (s.readS b).toNat % 64 = 0 →
     ∀ r, t.storeCheck me .write storeKinds 64 .none false (s.readS b).toNat 64 = .ok r →
       (w.recs = [] → w.rcount = 0 → w.state = .active →
         exec (.qpop d a b) s = .next (t.retire 4 d 0x8300000000000000)) ∧
       (w.recs = [] → w.rcount = 0 → w.state = .closed → w.closedBy.isSome = true →
         exec (.qpop d a b) s = .next ((t.withWindow i (after .pop)).retire 4 d 0x8100000000000000)) ∧
       (w.recs = [] → w.rcount = 0 → w.state = .closed → w.closedBy = none →
         exec (.qpop d a b) s = .next (t.retire 4 d 0x8100000000000000)) ∧
       (∀ rest, w.recs = bs :: rest → bs.length = 64 → exec (.qpop d a b) s =
         .next (((t.withWindow i (if w.state = .draining ∧ rest.length + w.rcount = 0 then
             { w with recs := rest, state := .closed, closedBy := some ([s.cur], s.cyclePlace .pop) }
           else { w with recs := rest })).writeRegion me .none false (s.readS b).toNat bs r).retire
           4 d (BitVec.ofNat 64 (rest.length + w.rcount))))) ∧
    (let t := s.reading [a]
     let word := BitVec.ofNat 64 (w.state.code * 2 ^ 61 + w.rcount * 2 ^ 38 + w.recs.length * 2 ^ 32 + w.seq.toNat)
     (s.Ready [a] [d] → live → w.state ≠ .closed ∨ w.closedBy = none → exec (.qinfo d a) s = .next (t.retire 4 d word)) ∧
     (s.Ready [a] [d] → live → w.state = .closed → w.closedBy.isSome = true →
       exec (.qinfo d a) s = .next ((t.withWindow i (after .info)).retire 4 d word)) ∧
     (s.Ready [a] [d] → handleWindow (s.readS a) = none →
       ∃ x : Trap, x.cause = .object ∧ x.detail = 33 ∧ exec (.qinfo d a) s = .next (s.here.scalarTrap x)) ∧
     (s.Ready [a] [] → live → w.state = .active → exec (.qclose a) s = .next ((t.withWindow i
       (if w.count = 0 then { w with state := .closed, closedBy := some ([s.cur], s.cyclePlace .close) } else { w with state := .draining })).advance 4)) ∧
     (s.Ready [a] [] → live → w.state = .spilling → exec (.qclose a) s =
       .next ((t.withWindow i { w with state := .draining }).advance 4)) ∧
     (s.Ready [a] [] → live → w.state = .draining → exec (.qclose a) s = .next (t.advance 4)) ∧
     (let freed : Window := { Window.reset with gen := w.gen + 1 }
      s.Ready [a] [] → live → w.state = .closed →
      (s.sharesCycle w .close = false → exec (.qclose a) s = .next ((t.withWindow i freed).advance 4)) ∧
      (s.sharesCycle w .close = true → ∃ u, exec (.qclose a) s = .next u ∧ u.me.pc = s.me.pc + 4 ∧
        u.mem = s.mem ∧ (u.window i = freed ∨ u.window i = after .close))))) ∧
  (∀ (s : State) (w : Window) (k : QKind),
    (w.closedBy = none → s.sharesCycle w k = false) ∧
    (∀ rs p, w.closedBy = some (rs, p) → (s.sharesCycle w k = true ↔ p < s.cyclePlace k))) ∧
  (∀ (s : State) (i : Nat) (rs : List HartRef) (p : Nat), (s.window i).closedBy = some (rs, p) →
    (s.nowRunning.window i).closedBy = (if s.cur ∈ rs then none else some (s.cur :: rs, p))) ∧
  (∀ (s t : State) (k l : QKind), s.myCtx.core < 384 → s.myCtx.slot < 2 → k.rank < l.rank → s.cyclePlace k < t.cyclePlace l) ∧
  (∀ (s : State), let w := s.window s.evArg.a
    w.state ≠ .free → 0 < w.rcount → w.recs.length < 32 → s.imageBad (s.evArg.a / 16 * 24) (w.slot w.rhead).2 64 = false →
    s.behind (s.evArg.a / 16 * 24) .sync (w.slot w.rhead).2 64 = false →
    exec .queueRefill s = .next (s.withWindow s.evArg.a { w with
      recs := w.recs ++ [s.memBytes (w.slot w.rhead).2 64], rhead := (w.rhead + 1) % w.rcap, rcount := w.rcount - 1,
      state := if w.state = .spilling ∧ w.rcount = 1 then .active else w.state }))

/-- 16_barrier R362–R375: BARINIT sets EXPECT and PEND; BARARR and BARTX change ARRIVED and PEND, and the phase ends
when ARRIVED has reached EXPECT and PEND is 0; BARWAIT completes in a later phase than that of the hart's arrival, and
BARTEST reads the barrier. A handle of no barrier of the kernel is an OBJECT of class 3, reason 1,
shown for BARARR. COLL arrives with its
descriptor and waits; when its phase has completed it writes CSTAT to sd. COLLECTIVE_RUN does the work of the completing
phase: with descriptors that do not match CSTAT is 0x81 in its top byte, else the status of the work; then the phase
completes. That a collective of scope FAB completes on this device alone, and that a release waits for the hart's own
multicasts, is the model's choice (notes/assumptions/50, 14). -/
def Obligations.Barriers : Prop :=
  ((∀ (s : State) (a b d : SReg), s.Plain → s.Quiet → s.outstanding = false →
     let k := s.myCtx.kernel
     (∀ r, s.barOf k (s.readS a) = some r →
       let x := s.barrier r
       let h := (s.readS a).toNat
       (let t := s.reading [a, b, d]
        s.Ready [a, b, d] [] → 1 ≤ (s.readS b).toNat → (s.readS b).toNat ≤ 4095 → x.arrived = 0 → s.anyC k h = false →
        exec (.barinit a b d) s = .next ((t.withBarrier r { x with
          expect := (s.readS b).toNat, pend := (s.readS d).setWidth 40, ovf := false }).advance 4)) ∧
       (let t := s.reading [a]
        s.Ready [a] [] → x.running = false → exec (.bararr a) s = .next (((t.withMe (t.me.withArrival h
          { s.me.arrival h with arrph := x.phase, a := true })).withBarrier r
          (x.arrive { ref := s.cur, coll := none })).advance 4)) ∧
       (let t := s.reading [a, b]
        s.Ready [a, b] [] → x.running = false → exec (.bartx a b) s =
          .next ((t.withBarrier r (x.addPend (s.readS b).toInt).test).advance 4)) ∧
       (let t := s.reading [a]
        s.Ready [a] [] → (s.me.arrival h).a = true → x.phase ≠ (s.me.arrival h).arrph →
        exec (.barwait a) s = .next ((t.withMe { t.me with barwait := none }).advance 4)) ∧
       (let t := s.reading [a]
        s.Ready [a] [d] → exec (.bartest d a) s = .next (t.retire 4 d (BitVec.ofNat 64
          ((if (s.me.arrival h).a ∧ x.phase ≠ (s.me.arrival h).arrph then 2 ^ 63 else 0) + (if x.ovf then 2 ^ 62 else 0)
            + x.arrived * 2 ^ 40 + x.pend.toNat))))) ∧
     (s.barOf k (s.readS a) = none → s.Ready [a] [] →
       ∃ x : Trap, x.cause = .object ∧ x.detail = 49 ∧ exec (.bararr a) s = .next (s.here.scalarTrap x))) ∧
   (∀ (x : Barrier) (r : BarArrival), x.open_.any (fun y => y.coll.isSome) = false → r.coll = none → x.arrived < 8191 →
     (x.expect ≤ x.arrived + 1 → x.pend = 0 → (x.arrive r).phase = x.phase + 1 ∧ (x.arrive r).arrived = 0) ∧
     (x.arrived + 1 < x.expect ∨ x.pend ≠ 0 → (x.arrive r).phase = x.phase ∧ (x.arrive r).arrived = x.arrived + 1))) ∧
  ((∀ (s : State) (d a b : SReg) (r : BarRef), s.Ready [a, b] [d] → s.Plain → s.Quiet →
     s.outstanding = false → s.barOf s.myCtx.kernel (s.readS a) = some r →
     let t := s.reading [a, b]
     let x := s.barrier r
     let h := (s.readS a).toNat
     let y := s.me.arrival h
     (y.c = true → x.phase ≠ y.arrph → exec (.coll d a b) s =
       .next ((t.withMe (t.me.withArrival h { y with c := false })).retire 4 d x.cstat)) ∧
     (∀ bs, y.c = false → (s.readS b).toNat % 64 = 0 → t.load (t.who s.cur) (s.readS b).toNat 64 = .ok bs →
       colMalformed (wordsOfBytes 8 bs) = false → x.running = false →
       ∃ u, exec (.coll d a b) s = .next u ∧ u.me.pc = s.me.pc ∧ u.me.regs = s.me.regs ∧
         u.me.arrival h = { arrph := x.phase, a := true, c := true } ∧
         u.barrier r = x.arrive { ref := s.cur, coll := some (wordsOfBytes 8 bs) })) ∧
   (∀ (s : State) (k : Nat) (x : Kernel),
     let r := barRefOf s.evArg.a
     let b := s.barrier r
     b.owner = some k → s.kernel k = some x → b.running = true →
     (s.colMismatch b (x.handleOf r) = true →
       exec .collectiveRun s = .next (s.withBarrier r { b with cstat := 0x8100000000000000 }.complete)) ∧
     (s.colMismatch b (x.handleOf r) = false → s.colStalls b = false →
       exec .collectiveRun s = .next (((s.collective b).1.logCollective b (s.collective b).2).withBarrier r { b with
         cstat := colStatus (s.collective b).2 (((b.open_.filterMap (fun (y : BarArrival) => y.coll)).head?.map colLen).getD 0) }.complete)) ∧
     (∀ x : Barrier, x.complete.phase = x.phase + 1 ∧ x.complete.arrived = 0 ∧ x.complete.running = false)))

/-- 17_reuse R381, R382, R406–R409: the REUSE major. CDREG registers code and answers its handle; RUQUERY answers
whether a task's key has an entry, or why it has no key, and waits where the reading of its key must (18_link R423;
notes/assumptions/90); RUINVAL drops that entry; RUSTAT reads a count; and RUFLUSH,
which only code at SUPER may execute, drops the entries of a tenant. -/
def Obligations.ReuseInstructions : Prop :=
  ∀ (s : State) (d a b : SReg), s.Plain → s.Quiet →
    let w := s.who s.cur
    let x := (s.readS a).toNat
    (∀ bs i, let t := s.reading [a, b]
     let n := (s.readS b).toNat
     let tn := s.tenant w.tenant
     let frames := ((s.rangePlaces w .fetch (x, n)).getD []).map (fun p => frameKey p.2.kind p.2.pa)
     let all := allFrames ((s.rangePlaces w .fetch (x, n)).getD [])
     let c : CodeSlot := {
       frames := all, used := true, gen := ((tget tn.slots i).map (·.gen)).getD 0, start := x, len := n,
       digest := sha256 bs, wgens := frames.map (fun f => (f, s.wgenOf f)) }
     s.Ready [a, b] [d] → 0 < n → n ≤ 65536 → x % 4 = 0 → n % 4 = 0 →
     t.loadFor (t.who s.cur) 3 .fetch fetchKinds 4 x n = .ok bs → tn.slots.all (fun e => !e.2.used) = true →
     (List.range 64).find? (fun i => !((tget tn.slots i).map (·.used)).getD false) = some i →
     let s1 := frames.foldl (fun s f => s.wgenRead f) t
     exec (.cdreg d a b) s = .next ((s1.withTenant w.tenant { tn with slots := tput tn.slots i c }).retire 4 d
       (handleOf i c))) ∧
    (let t := s.reading [a]
     (∀ bs ds q, let p := pureOf (taskRecOf (wordsOfBytes 8 bs)) w.core
      let p1 := p.withDesc (wordsOfBytes 40 ds)
      x % 64 = 0 → t.loadFor (t.who s.cur) 1 .read loadKinds 8 x 64 = .ok bs →
      bit (taskRecOf (wordsOfBytes 8 bs)).w1 3 = true → p.desc % 64 = 0 →
      t.loadFor (t.who s.cur) 1 .read loadKinds 8 p.desc 320 = .ok ds → descMalformed (wordsOfBytes 40 ds) = false →
      (∀ f, t.keyOf (t.who s.cur) p1 = .skip f → s.Ready [a] [d] → exec (.ruquery d a) s =
        .next ((t.logSkip (t.who s.cur) f).retire 4 d 0x8500000000000000)) ∧
      (t.keyOf (t.who s.cur) p1 = .wait → s.Ready [a] [d] → exec (.ruquery d a) s = .next (s.waitHere false)) ∧
      (t.keyOf (t.who s.cur) p1 = .key q →
      let s1 := t.keyReads p1.byAddr q
      (s.Ready [a] [d] → exec (.ruquery d a) s = .next (s1.retire 4 d (match s1.matching w.tenant q.key with
        | some e => if e.2.state = .valid then 2 else 1
        | none => 0))) ∧
      (s.Ready [a] [] → exec (.ruinval a) s = .next (match s1.matching w.tenant q.key with
        | some e => (s1.dropEntries (fun i _ => decide (i = e.1))).advance 4
        | none => s1.advance 4)))) ∧
     (∀ bs, x % 64 = 0 → t.loadFor (t.who s.cur) 1 .read loadKinds 8 x 64 = .ok bs →
       bit (taskRecOf (wordsOfBytes 8 bs)).w1 3 = false → s.Ready [a] [d] →
       exec (.ruquery d a) s = .next (t.retire 4 d 0x8100000000000000)) ∧
     (s.Ready [a] [d] → exec (.rustat d a) s = .next (t.retire 4 d
       (if 7 < x then 0 else if x = 6 then BitVec.ofNat 64 (s.held w.tenant) else sget 0 (s.tenant w.tenant).counts x))) ∧
     (s.Ready [a] [] → s.myCtx.super = true → exec (.ruflush a) s =
       .next ((t.dropEntries (fun _ e => bit (s.readS a) 9 || decide (e.tenant = bits (s.readS a) 0 7))).advance 4)) ∧
     (s.Ready [a] [] → s.myCtx.super = false →
       ∃ f : Trap, f.cause = .illegal ∧ f.detail = 6 ∧ exec (.ruflush a) s = .next (s.here.scalarTrap f)))

/-- 07_matrix R160; 04_numbers R84: VHAD puts each block of 2^(B + 4) elements through the Hadamard transform. Elements
at or beyond VL enter as +0 and are not written. The flags of every rounding of a block are raised, also of those that
make only positions at or beyond VL, which is the model's choice (notes/assumptions/85), as it is that an entry is
executed as soon as it can be (notes/assumptions/17). -/
def Obligations.VectorHadamard : Prop :=
  ∀ (s : State) (d a : VReg) (b : BitVec 5),
    let c := s.myCtx
    let p := b.toNat + 4
    let n := 2 ^ p
    let e := s.entryOf (.vhad d a b) []
    let rm := rmodeOf (bits c.vtype 3 2)
    let input := fun (j q : Nat) =>
      if j * n + q < c.vl then
        let v := c.srcVal e a (j * n + q)
        let z := roundF32 rm v.1
        (z.1, v.2.or z.2)
      else (Val.zero, FFlags.none)
    let block := fun (j : Nat) =>
      let x := (List.range n).map (input j)
      let y := hadBlock rm p (x.map (fun v => v.1))
      ((List.range n).filterMap (fun q =>
        if j * n + q < c.vl then some (j * n + q, e.toDest (c.regType d) false (y.1.getD q Val.zero, .none)) else none),
       (orFlags (x.map (fun v => v.2))).or y.2)
    let blocks := (List.range (ceilDiv c.vl n)).map block
    vecCheck c e [tagType (c.tag a), tagType (c.tag d)] [] [c.span d, c.span a] = none →
    entryGives s (.vhad d a b) 4 [] [] (fun t =>
      (t.writeResults d (c.regWidth d) 0x32 (blocks.flatMap (fun x => x.1))).raise 0x32 (orFlags (blocks.map (fun x => x.2))))

/-- 17_reuse R384–R386, R392, R399–R402, R412: the end of a hit's copy: where the copy can be made the task, once its hart may
go on, retires as by TDONE: the counter is decremented, and the hart is IDLE, with no register of it changed; where it
cannot be made, the task starts, and an uncorrectable error of the image is logged; a copy that must wait waits, and one that a
KILL has left is made, or ends at its fault, with no decrement, which the model makes in a step of its own where it had to
wait (notes/assumptions/118). An insertion, which is made only while
its hart may issue and is in no handler, claims an entry where the task
holds none, writes the image at a free place of the pool and makes the entry VALID; a task that wrote over its outputs, or
one that meets an entry of its key, makes none. The write of RUQUOTA drops entries above LIMIT; that of RUPOOL first makes
every entry of the tenant DEAD, and completes when no hit reads one. -/
def Obligations.ReuseEvents : Prop :=
  (∀ (s : State) (p : PureState),
    let r : HartRef := { cid := s.evArg.a, kind := s.evArg.h }
    let w := s.who r
    let runs := (s.ctx r.cid).runs r.kind && (s.ctx r.cid).handler.isNone && (s.hart r).stalled.isNone
    (s.hart r).pure = some p → s.lateHit r = none →
    (∀ e, p.phase = .hit e → s.hitWaits w p.outputs e = true → exec .hitCopyDone s = .next s) ∧
    (∀ e, p.phase = .hit e → s.hitWaits w p.outputs e = false →
      (s.hitCopy w p.outputs e = none →
        exec .hitCopyDone s = .next (((s.logImage w p.outputs e).endRead e).startPure r p)) ∧
      (∀ s1, s.hitCopy w p.outputs e = some s1 →
        let s2 := (s1.endRead e).setPure r (some { p with phase := .retire })
        (runs = false → exec .hitCopyDone s = .next s2) ∧
        (∀ s3, runs = true → s2.endDecrement r = .ok s3 → exec .hitCopyDone s = .next (s3.goIdle r)))) ∧
    (p.phase = .retire → ∀ s3, runs = true → s.endDecrement r = .ok s3 → exec .hitCopyDone s = .next (s3.goIdle r)) ∧
    (∀ key, p.phase = .insert → p.key = some key →
      ((s.ctx r.cid).runs r.kind = false ∨ (s.ctx r.cid).handler.isSome = true → exec .insertionDone s = .next s) ∧
      (∀ id, p.claim = some id → s.insertClaim w.tenant p key = (some id, s)) ∧
      (p.claim = none → (s.matching w.tenant key.key).isSome = true → (s.ctx r.cid).runs r.kind = true →
        (s.ctx r.cid).handler = none → exec .insertionDone s = .next (s.abandonInsertion r none)) ∧
      (∀ id u page pa image x, (s.ctx r.cid).runs r.kind = true → (s.ctx r.cid).handler = none → s.insertClaim w.tenant p key = (some id, u) →
        let n := imageSize p.outputs
        let v := u.notePool w
        let f := v.freeBelow (v.poolSpaces w n).length
        (v.poolSpaces w n)[f.1]? = some (page, pa) → f.2.imageOf w p.outputs = some image →
        s.migrating .pool pa = false → s.insertWaits w pa p.outputs = false →
        let dirty := v.outWatch.any (fun o => decide (o.ref = r) && o.dirty)
        (dirty = true → exec .insertionDone s = .next (v.abandonInsertion r (some id))) ∧
        (dirty = false →
          let s2 := f.2.writeCopy .pool pa image w.core .host w.tenant
          tget s2.reuse id = some x →
          (x.state = .dead → exec .insertionDone s = .next (s2.abandonInsertion r (some id))) ∧
          (x.state ≠ .dead → exec .insertionDone s = .next ((({ s2 with reuse := tput s2.reuse id { x with
            state := .valid, claimed := false, imgPa := pa, imgVa := page.1, imgShift := page.2, imgLen := n,
            pages := if x.byAddr then key.inputs.dedup else [] } } : State).count w.tenant 2).goIdle r)))))) ∧
  (∀ (s : State) (x : LateHit), s.hits.find? (fun h => decide (h.ref = { cid := s.evArg.a, kind := s.evArg.h })) = some x →
    let w : Who := { ref := x.ref, core := x.core, tenant := x.tenant }
    (s.hitWaits w x.outputs x.entry = true → exec .hitCopyDone s = .next s) ∧
    (s.hitWaits w x.outputs x.entry = false →
      let s1 : State := { s with hits := s.hits.filter (fun h => decide (h ≠ x)) }
      exec .hitCopyDone s = .next (((s1.hitCopy w x.outputs x.entry).getD (s1.logImage w x.outputs x.entry)).endRead x.entry))) ∧
  (∀ (s : State) (x : Word),
    let r : HartRef := { cid := s.evArg.a, kind := s.evArg.h }
    let t := (s.ctx r.cid).reuseTenant
    ((s.hart r).pendCsr = some (.ruquota, x) →
      exec .ruquotaWrite s =
        .next (((s.withTenant t { s.tenant t with ruquota := x }).shrinkHeld t s.reuse.length).csrDone r)) ∧
    ((s.hart r).pendCsr = some (.rupool, x) →
      let s1 := s.dropTenant t
      (s1.reuse.any (fun e => decide (e.2.tenant = t) && decide (e.2.readers ≠ 0)) = false →
        exec .rupoolWrite s = .next ((s1.withTenant t { s1.tenant t with rupool := x }).csrDone r)) ∧
      (s1.reuse.any (fun e => decide (e.2.tenant = t) && decide (e.2.readers ≠ 0)) = true →
        exec .rupoolWrite s = .next s1))) ∧
  (∀ (s : State) (r : HartRef), ((s.csrDone r).hart r).pc = (s.hart r).pc + 4 ∧ ((s.csrDone r).hart r).pendCsr = none) ∧
  (∀ (s : State) (t : Nat) (e : Nat × ReuseEntry), e ∈ (s.dropTenant t).reuse → e.2.tenant = t →
    e.2.state = .dead ∧ (e.2.readers ≠ 0 ∨ e.2.claimed = true)) ∧
  (∀ (s : State) (r : HartRef), ((s.goIdle r).hart r).regs = (s.hart r).regs ∧ ((s.goIdle r).hart r).pc = (s.hart r).pc)

/-- 12_context R287–R293: the supervisor. The oldest record is appended to the ring, and then HEAD, unless the ring is
full; while its header cannot be read nothing is written, and the error is logged once, which is the model's choice
(notes/assumptions/116); an error of a copy without a token traps its hart at the next boundary; and each reply acts on the record, which
then is gone. That RESUME AT discards the queue only where the compute hart trapped, and that an IDLE hart then runs as
ROOT, and that RESUME goes to SPC as it stands then, is the model's choice (notes/assumptions/49, 109). The delivery is shown for
a hart with no store under way. -/
def Obligations.Supervisor : Prop :=
  (∀ (s : State) (t : TrapRec) (sup h z : Nat), s.nextRecord = some t → s.supervisor = some sup → t.id = s.evArg.a →
    let c := s.ctx sup
    let ring := ((s.kernel c.kernel).map (fun x => x.rcd.ring.toNat)).getD 0
    let head := s.memWord h
    let size := s.memWord z
    s.syncAddr c.tenant ring = some h → s.syncAddr c.tenant (ring + 16) = some z →
    let core := c.core
    (∀ half, s.ringUnread core h z = some half → exec .trapRecordWrite s = .next (s.logOnce c.tenant core half)) ∧
    (s.ringUnread core h z = none → ringFull head (s.memWord (h + 8)) size = true → exec .trapRecordWrite s = .next s) ∧
    (∀ a, s.ringUnread core h z = none → ringFull head (s.memWord (h + 8)) size = false →
      s.syncAddr c.tenant (ring + 64 + 128 * (head.toNat % size.toNat)) = some a →
      s.migrating .sync a = false → s.migrating .sync h = false →
      s.behind core .sync a 128 = false → s.behind core .sync h 8 = false →
      let s1 := s.writeCopy .sync a (bytesOfWords (s.recordWords t)) c.core .host c.tenant
      let s2 := s1.writeCopy .sync h (bytesOfWord 8 (head + 1)) c.core .host c.tenant
      exec .trapRecordWrite s = .next { s2 with traps := s2.traps.map (fun (x : TrapRec) =>
        if x.id = t.id then { x with ringAt := some a, reply := 0 } else x) })) ∧
  (∀ (s : State) (w : Word) (rest : List Word),
    let r : HartRef := { cid := s.evArg.a, kind := s.evArg.h }
    let c := s.ctx r.cid
    let h := s.hart r
    h.engErr = w :: rest → c.present = true → c.slotState ≠ .held → h.stalled = none → s.answered r.cid = false →
    (c.handler = none ∧ h.dispatch ≠ .idle) ∨ c.handler = some r.kind → (r.kind = .ch → c.viq = []) →
    exec .engerrAsync s = .next (((s.withHart r { h with engErr := rest }).interrupt r).takeTrap r false
      { cause := .engerr, detail := 0, addr := w })) ∧
  (∀ (s : State) (t : TrapRec), s.trapRec s.evArg.a = some t → t.reply ≠ 0 → (s.ctx t.ref.cid).present = true →
    (∀ id, t.job = some id →
      (t.action = 1 → exec .replyResume s = .next ((s.endCopyFault id true).dropRecord t.id)) ∧
      (t.action = 2 → exec .replyResumeAt s = .next ((s.endCopyFault id false).dropRecord t.id)) ∧
      (t.action = 3 → exec .replyReturn s = .next ((s.endCopyFault id false).dropRecord t.id)) ∧
      (t.action = 4 → exec .replyDeliver s = .next ((s.endCopyFault id false).dropRecord t.id)) ∧
      (t.action = 5 ∨ t.action = 7 → exec .replyKill s = .next ((s.endCopyFault id false).dropRecord t.id)) ∧
      (t.action = 6 → exec .replySkip s = .next ((s.endCopyFault id false).dropRecord t.id))) ∧
    (t.job = none →
      (t.action = 1 → exec .replyResume s = .next ((s.resume t).dropRecord t.id)) ∧
      (t.action = 2 → t.xlat = false →
        let u := if t.ref.kind = .ch then (s.unhold t.ref.cid).discardViq t.ref.cid else s.unhold t.ref.cid
        let h := u.hart t.ref
        exec .replyResumeAt s = .next (((u.withHart t.ref { h with
          pc := s.replyValue t &&& ~~~3#64, dispatch := if h.dispatch = .idle then .root else h.dispatch }).noteReply t).dropRecord
            t.id)) ∧
      (t.action = 3 → exec .replyReturn s =
        .next ((((s.withHart t.ref ((s.hart t.ref).writeS 10 (s.replyValue t))).resume t).noteReply t).dropRecord t.id)) ∧
      s.replyValue t = (if (s.replyUnread t).isSome then BitVec.allOnes 64 else s.memWord (t.ringAt.getD 0 + 64)) ∧
      (t.action = 4 → (s.ctx t.ref.cid).handler = none → t.xlat = false → (s.hart t.ref).split = none →
        exec .replyDeliver s = .next (((s.unhold t.ref.cid).enterHandler t.ref
          { cause := infoCause t.info, addr := t.addr } t.info t.spc t.vcp).dropRecord t.id)) ∧
      (t.action = 5 ∨ t.action = 7 → exec .replyKill s = .next ((s.killCtx t.ref.cid).dropRecord t.id)) ∧
      (t.action = 6 → t.skipsWord = true → s.wordAt t.ref = .stall → exec .replySkip s = .next s) ∧
      (t.action = 6 → (t.skipsWord = true → s.wordAt t.ref ≠ .stall) →
        exec .replySkip s = .next ((s.skip t).dropRecord t.id)))) ∧
  (∀ (s : State) (t : TrapRec), t.xlat = false → t.idle = false →
    let u := s.resume t
    let c := s.ctx t.ref.cid
    (u.hart t.ref).pc = c.spc &&& ~~~3#64 ∧ u.mem = s.mem ∧
    (u.ctx t.ref.cid).slotState = (if c.slotState = .held then .resident else c.slotState) ∧
    (u.hart t.ref).regs = (s.hart t.ref).regs)

/-- 12_context R272–R277; 13_kernel R308–R311: issue rights and the context-save engine. Rights pass to the other
context of higher PRIO that has a ready hart, or of no lower PRIO than a holder that has none; for an equal one after
65,536 cycles; and for a timed start 200 cycles before it, of two of the same start that of higher PRIO, then that placed
first; and they stay with a member that has started until its harts, which issue in the cycle of the start or the next (13_kernel
R309), have come to their first instruction, and do not go to a context whose reply has not acted (R290). A swap leaves memory
as it is where no store is under way. A context is saved, and read back, as a whole. The counts of
cycles in heartbeats, the bytes of the image whose layout is not given, and what the slot keeps of a sorus half at the end
of a save, are the model's choice (notes/assumptions/8, 18, 22). -/
def Obligations.ContextsAndRights : Prop :=
  (∀ (s : State), (∀ cid, s.rightsTo s.evArg.a = some cid → exec .slotSwap s = .next (s.giveRights s.evArg.a cid)) ∧
    (s.rightsTo s.evArg.a = none → exec .slotSwap s = .next s)) ∧
  (∀ (s : State) (core h o : Nat), s.cidIn core (s.issueSlot core) = some h → s.otherCtx core = some o →
    s.ctxReady o = true → s.starting h = false →
    (s.answered o = false → s.ctxPrio h < s.ctxPrio o → s.rightsTo core = some o) ∧
    (s.answered o = false → s.ctxPrio h ≤ s.ctxPrio o → s.ctxReady h = false → s.rightsTo core = some o) ∧
    (s.ctxPrio o < s.ctxPrio h → (s.ctx h).slotState = .issuing → s.rightsTo core = none)) ∧
  (∀ (s : State) (core cid : Nat), ((s.giveRights core cid).ctx cid).slotState = .issuing ∧
    (∀ old, s.issuer core = some old → old ≠ cid → ((s.giveRights core cid).ctx old).slotState = .resident) ∧
    (s.giveRights core cid).issueSlot core = (s.ctx cid).slot ∧
    ((∀ old k, s.issuer core = some old → ((s.ctx old).hart k).split = none) → (s.giveRights core cid).mem = s.mem) ∧
    tget (s.giveRights core cid).fair core = none) ∧
  (∀ (s : State) (h o : Nat), s.issuer s.evArg.a = some h → s.otherCtx s.evArg.a = some o → s.ctxReady o = true →
    s.starting h = false → s.answered o = false → s.ctxPrio o = s.ctxPrio h → 1024 ≤ (tget s.fair s.evArg.a).getD 0 →
    exec .fairShareExpiry s = .next (s.giveRights s.evArg.a o)) ∧
  (∀ (s : State) (o : Nat), (s.ctx o).slotState = .resident → s.startsSoon o = true →
    (s.cidIn s.evArg.a 0 = some o ∨ (s.cidIn s.evArg.a 1 = some o ∧ ∀ p, s.cidIn s.evArg.a 0 = some p →
      (s.ctx p).slotState ≠ .resident ∨ s.startsSoon p = false)) →
    (∀ h, s.issuer s.evArg.a = some h →
      s.timedFirst o h = true ∧ ∀ k, s.firstDue { cid := h, kind := k } = false) →
    exec .timedStartSwap s = .next (s.giveRights s.evArg.a o)) ∧
  (∀ (s : State) (a b : Nat) (x y : Kernel), s.kernel (s.ctx a).kernel = some x → s.kernel (s.ctx b).kernel = some y →
    x.startAt = y.startAt →
    (s.timedFirst a b = true ↔ y.prio < x.prio ∨ (y.prio = x.prio ∧ x.placedAt < y.placedAt))) ∧
  (∀ (s : State),
    let cid := s.evArg.a
    let c := s.ctx cid
    (c.slotState = .saving → c.imaged = false → s.allCopies.any (fun x => decide (x.ref.cid = cid)) = false →
      s.saveStalls cid = false →
      let begun := ((c.viq.head?).map VEntry.begun).getD false
      (s.sending cid = true ∨ begun = true → exec .contextSave s = .next s) ∧
      (s.sending cid = false → begun = false → let u := (s.unpopHead cid).writeImage cid
        exec .contextSave s = .next (u.withCtx cid { u.ctx cid with imaged := true }))) ∧
    (c.slotState = .saving → c.imaged = true → exec .saveDone s = .next ((s.leaveSorus c).withCtx cid { c with
      slotState := .saved, imaged := false, imgCause := 17
      viq := c.viq.map (fun (e : VEntry) => { e with step := 0, scatter := none, marks := [], popped := false, flags := 0, index := [] })
      streams := c.streams.map (fun (x : Nat × Stream) => (x.1, { x.2 with strips := [] })) })) ∧
    (∀ x, s.kernel c.kernel = some x → s.restorable c.kernel x = true → s.queued = [] →
      let slots := s.ctxs.flatMap (fun e => if e.2.kernel = c.kernel then slotsTaken e.2.full e.2.core e.2.slot else [])
      let s1 := (s.withKernel c.kernel { x with eff := x.prio }).closeSlots slots
      exec .contextRestore s = .next ({ s1 with ctxs := s1.ctxs.map (fun (e : Nat × Ctx) =>
          if e.2.kernel = c.kernel ∧ e.2.slotState = .saved then (e.1, { e.2 with slotState := .restoring }) else e) })) ∧
    (c.slotState = .restoring → s.saveBehind cid = true → exec .restoreDone s = .next s) ∧
    (c.slotState = .restoring → s.saveBehind cid = false → s.imageError cid = none →
      let s1 := s.readImage cid
      exec .restoreDone s = .next ((s1.withCtx cid { s1.ctx cid with
        slotState := if s.heldBy cid then .held else .resident, imgCause := 0 }).backToRunning c.kernel)))

/-- 02_machine R34; 13_kernel R305–R309, R313, R314: the scheduler and the heartbeat. A QUEUED kernel that fits is placed,
unless one that can be restored goes first, and takes its start from its record; for one that does not fit, the contexts
of the first victims are SAVING and their kernels PREEMPTED, and then the other contexts of those, one at a time; aging
raises the effective priority to 7 at most; a timed kernel runs once HB has reached its start, and of two kernels of one start
that have members on one core the one without the rights is late, which is settled at the first of their ticks
(notes/assumptions/96); a RUNNING kernel whose group is quiet is DRAINING; a kernel that is DRAINING retires once its writes have been made and no error waits, and
one that has ended pays its completion word; WATCH ends one whose ticks have come to it; and a heartbeat, which waits for a
start that is due, adds 1 to HB and to those ticks. The reservation of a kernel of effective priority 7, and that the
completion word is owed until the writes of the kernel have performed, is the model's choice (notes/assumptions/51, 89), and
so is which moves come when (notes/assumptions/1). -/
def Obligations.KernelEvents : Prop :=
  (∀ (s : State) (k : Nat) (x : Kernel) (rest : List (Nat × Kernel)), s.queued = (k, x) :: rest →
    (∀ ws, s.nextSave = none → s.fit k x = none → s.ctxs.any (fun e => decide (e.2.slotState = .saving)) = false →
      s.chooseVictims k x (s.victims x.eff) = some ws →
      exec .preemption s = .next (ws.foldl (fun s w => (s.savable w).head?.elim s s.saveContext) s)) ∧
    (∀ cores, let u := s.updateReserve
      u.fit k x = some cores → u.kernels.any (fun y => u.restorable y.1 y.2 && decide (x.eff ≤ y.2.eff)) = false →
      exec .placement s = .next (u.place k x cores).updateReserve) ∧
    (s.reserve = [] → x.eff < 7 → s.updateReserve = s)) ∧
  (∀ (s : State) (cid : Nat), s.nextSave = some cid → exec .preemption s = .next (s.saveContext cid)) ∧
  (∀ (s : State) (cid : Nat) (x : Kernel), s.kernel (cid / 384) = some x →
    ((s.saveContext cid).ctx cid).slotState = .saving ∧
    ((∀ k, ((s.ctx cid).hart k).split = none) → (s.saveContext cid).mem = s.mem) ∧
    ((s.saveContext cid).kernel (cid / 384)).map (fun y => y.state) = some .preempted) ∧
  (∀ (s : State) (k : Nat) (x : Kernel) (cores : List Nat), ∃ y, (s.place k x cores).kernel k = some y ∧
    y.state = .placed ∧ y.eff = x.prio ∧ y.cores = cores ∧
    y.startAt = (if bit x.rcd.shape 5 then some (if x.rcd.tick.toNat ≤ s.hb.toNat then s.hb + 1 else x.rcd.tick) else none)) ∧
  (∀ (s : State) (x : Kernel), s.kernel s.evArg.a = some x →
    (x.state = .queued ∨ x.state = .preempted → exec .agingStep s =
      .next (s.withKernel s.evArg.a { x with eff := min 7 (x.eff + 1) }).updateReserve) ∧
    (∀ t, x.state = .placed → x.startAt = some t → t.toNat ≤ s.hb.toNat →
      let k := s.evArg.a
      let late := fun (e : Nat × Kernel) =>
        s.yieldsStart k e.1 || (decide (e.1 = k) && s.kernels.any (fun y => s.yieldsStart y.1 k))
      let s1 : State := { s with kernels := s.kernels.map (fun e => if late e then (e.1, { e.2 with late := true }) else e) }
      exec .launchTick s = .next { s1.modKernel k (fun x => { x with state := .running }) with
        starts := s.starts ++ s.startHarts k }) ∧
    (∀ l y, s.kernel l = some y → (s.yieldsStart s.evArg.a l = true ↔ s.evArg.a ≠ l ∧ x.startAt = y.startAt ∧
      (y.prio < x.prio ∨ (y.prio = x.prio ∧ x.placedAt < y.placedAt)) ∧ s.shareCore s.evArg.a l = true)) ∧
    (∀ t, x.state = .placed → x.startAt = some t → s.hb.toNat < t.toNat → exec .launchTick s = .next s) ∧
    (x.state = .draining → x.owed = false → x.expired = false → s.writesLeft s.evArg.a = false →
      s.traps.any (fun t => t.ref.ofKernel s.evArg.a) = false →
      (s.ctxsOf s.evArg.a).any (fun cid => [HartKind.ch, .fh, .dh].any (fun h =>
        !((s.ctx cid).hart h).engErr.isEmpty)) = false →
      exec .kernelRetire s = .next (s.endKernel s.evArg.a .retired 0)) ∧
    (x.owed = false → x.state ≠ .running → x.expired = true → exec .kernelRetire s = .next s) ∧
    (x.owed = false → x.state = .running → exec .kernelRetire s = .next (if s.quiet s.evArg.a x then
      s.withKernel s.evArg.a { x with state := .draining } else s)) ∧
    (x.owed = true → s.writesLeft s.evArg.a = false →
      (s.complPlace x).any (fun pl => s.migrating pl.kind pl.pa || s.behind 0 pl.kind pl.pa 8) = false →
      exec .kernelRetire s = .next ((s.withKernel s.evArg.a { x with owed := false }).writeCompletion x)) ∧
    (x.rcd.watch ≠ 0 → x.rcd.watch.toNat ≤ x.ran → x.state = .running ∨ x.state = .preempted ∨ x.state = .draining →
      exec .watchdog s = .next (s.killKernel s.evArg.a 10)) ∧
    (x.rcd.watch = 0 → exec .watchdog s = .next s)) ∧
  (∀ (s : State), s.startDue = true → exec .heartbeatTick s = .next s) ∧
  (∀ (s : State), s.startDue = false → ∃ u, exec .heartbeatTick s = .next u ∧ u.hb = s.hb + 1 ∧ u.mem = s.mem ∧
    u.ctxs = s.ctxs ∧ u.gran = s.gran ∧ u.kernels.map (fun e => e.2.ran) = s.kernels.map (fun e =>
      if e.2.state = .running ∨ e.2.state = .preempted ∨ e.2.state = .draining then e.2.ran + 1 else e.2.ran))

/-- 09_page R199–R207; 17_reuse R402: a walk that ends gives the core a cached translation; XINV drops what its scope
names and completes once no hit reads a freed page; MIGCMD starts a migration or names a reason; a window of the tracker
that is on starts its candidates; and the switch of a migration moves the bytes and the write generation of the page, and
rewrites the leaf, unless it has changed. A walk that an error or the lack of a route keeps from a table gives none, and a
switch waits for a route to the new frame (notes/assumptions/71). Model's choices besides: the counts of accesses that make the
candidates of a window are free (notes/assumptions/15); a leaf that lies in the page that moves is written in the new frame,
and one that lies in a page which is MIGRATING holds the switch (notes/assumptions/32); a migration starts once no unaligned
store to its page is under way (notes/assumptions/2); a log header that cannot be read is logged once (notes/assumptions/116); the
page, the leaf and the entries that a migration cannot read (notes/assumptions/117); which of several reasons MIGCMD names is free (notes/assumptions/55); the count of walks and the recorded leaf
(notes/assumptions/79, 9); that a migration of MIGCMD is not logged (notes/assumptions/56); that the frame of one whose
leaf has changed goes back to the reserve (notes/assumptions/58); and what moves with a page (notes/assumptions/59). The
completion of XINV is shown for an empty reuse table. -/
def Obligations.PagesAndMigration : Prop :=
  (∀ (s : State) (l : Leaf),
    let core := s.evArg.a
    let t := s.evArg.b
    let va := s.evArg.c % 2 ^ 57
    core < 384 → t < 128 → s.tlbFind core t va = none →
    (let e : TlbEntry := {
       tenant := t, va := va - va % 2 ^ l.shift, shift := l.shift, leaf := l.word, frames := l.frames }
     s.walk t va = some l → s.badWalk core t va = false → exec .pageWalkDone s =
       .next (({ s with tlb := tput s.tlb core (e :: (tget s.tlb core).getD []) } : State).walked (coreDie core) t va
         s.evArg.w.toNat)) ∧
    (∀ die n, ((s.walked die t va n).dieOf die).walks ≤ 512 ∧
      (t, va - va % 65536) ∈ ((s.walked die t va n).dieOf die).leaves) ∧
    (s.walk t va = none ∨ s.badWalk core t va = true → exec .pageWalkDone s = .next s)) ∧
  (∀ (s : State) (x : Word),
    let r : HartRef := { cid := s.evArg.a, kind := s.evArg.h }
    (s.hart r).pendCsr = some (.xinv, x) →
    let t := bits x 9 7
    let va := bits x 16 41 * 65536
    (bits x 0 2 = 0 → exec .xinvPage s = .next (s.xinv r
      (fun t' va' n => decide (t' = t) && decide (va' / 2 ^ n = va / 2 ^ n))
      (fun e => decide (e.tenant = t) && decide (va / 2 ^ e.shift = e.va / 2 ^ e.shift)))) ∧
    (bits x 0 2 = 1 → exec .xinvTenant s = .next (s.xinv r (fun t' _ _ => decide (t' = t)) (fun e => decide (e.tenant = t)))) ∧
    (bits x 0 2 = 2 → exec .xinvAll s = .next (s.xinv r (fun _ _ _ => true) (fun _ => true)))) ∧
  (∀ (s : State) (r : HartRef) (covers : Nat → Nat → Nat → Bool) (drop : TlbEntry → Bool),
    let u := s.xinv r covers drop
    u.mem = s.mem ∧ (∀ core e, e ∈ (tget u.tlb core).getD [] → e ∈ (tget s.tlb core).getD [] ∧ drop e = false) ∧
    (s.reuse = [] → (u.hart r).pc = (s.hart r).pc + 4 ∧ (u.hart r).pendCsr = none)) ∧
  (∀ (s : State) (x : Word),
    let r : HartRef := { cid := s.evArg.a, kind := s.evArg.h }
    (s.hart r).pendCsr = some (.migcmd, x) →
    let va := bits (s.ctx r.cid).migva 16 41 * 65536
    let l := if s.badWalk (s.ctx r.cid).core (bits x 9 7) va then none else s.walk (bits x 9 7) va
    let why := s.migRefusals l (bits x 2 2)
    bit x 0 = true →
    ((s.ctx r.cid).migBusy = true → exec .migcmdGo s = .next (s.csrDone r)) ∧
    (∀ leaf, (s.ctx r.cid).migBusy = false → l = some leaf → why = [] → s.storing (entryAddr leaf.word) = true →
      exec .migcmdGo s = .next s) ∧
    (∀ leaf, (s.ctx r.cid).migBusy = false → l = some leaf → why = [] → s.storing (entryAddr leaf.word) = false →
      let s1 := (s.csrDone r).startMigration (bits x 9 7) va leaf (bits x 2 2) (some r.cid)
      exec .migcmdGo s = .next (s1.withCtx r.cid { s1.ctx r.cid with migstat := 1 })) ∧
    ((s.ctx r.cid).migBusy = false → why ≠ [] → ∃ u n, exec .migcmdGo s = .next u ∧ n ∈ why ∧ (u.ctx r.cid).migstat = BitVec.ofNat 64 (n * 4 + 3) ∧
      u.mem = s.mem ∧ u.migs = s.migs ∧ (u.hart r).pc = (s.hart r).pc + 4)) ∧
  (∀ (s : State), s.evArg.a < 4 →
    let d := s.dieOf s.evArg.a
    (bit d.hotctl 0 = true → 65536 ≤ (s.hb - d.hotSince).toNat →
      let cs := s.hotCands s.evArg.a
      cs.any (fun c => s.storing (entryAddr c.page.leaf.word)) = false →
      let s1 := ({ s with freeCtr := s.freeCtr + 1 } : State).withDie s.evArg.a { d with hotSince := s.hb }
      exec .hotWindowEnd s =
        .next ((if cs = [] then s1 else s1.noteUnread s.evArg.a).startHot s.evArg.a cs (bits d.hotctl 16 16))) ∧
    (bit d.hotctl 0 = false ∨ (s.hb - d.hotSince).toNat < 65536 → exec .hotWindowEnd s = .next s)) ∧
  (∀ (s : State) (m : Migration) (cid : Nat), s.migs.find? (fun y => decide (y.id = s.evArg.a)) = some m →
    m.starter = some cid →
    let s0 := ({ s with migs := s.migs.filter (fun y => decide (y.id ≠ m.id)) } : State).dropTlb (fun e =>
      decide (e.tenant = m.tenant) && decide (m.va / 2 ^ e.shift = e.va / 2 ^ e.shift))
    let core := 96 * paDie m.src
    (s.imageBad core m.leafAddr 8 = true → exec .migrationSwitch s =
      .next (((s0.logUncorr m.tenant core m.leafAddr).giveFrame m.die m.dst).setMigstat m.starter 31)) ∧
    (s.imageBad core m.leafAddr 8 = false → s.memWord m.leafAddr ≠ m.leafWord →
      exec .migrationSwitch s = .next ((s0.giveFrame m.die m.dst).setMigstat m.starter 31)) ∧
    (s.imageBad core m.leafAddr 8 = false → s.memWord m.leafAddr = m.leafWord →
      s.reaches core m.dst 65536 = false ∨ s0.migrating .sync m.leafAddr = true ∨ s.behind 0 .sync m.leafAddr 8 = true →
      exec .migrationSwitch s = .next s) ∧
    (s.imageBad core m.leafAddr 8 = false → s.memWord m.leafAddr = m.leafWord → s.reaches core m.dst 65536 = true →
      s0.migrating .sync m.leafAddr = false → s.behind 0 .sync m.leafAddr 8 = false →
      let s1 := (s.badHalves m.src).foldl (fun t h => t.logUncorr m.tenant core (32 * h)) s0
      exec .migrationSwitch s = .next (((s1.movePage m.src m.dst).writeCopy .sync (movedPa m.src m.dst m.leafAddr)
        (bytesOfWord 8 ((m.leafWord &&& 0xFFF00000000000FF) ||| BitVec.ofNat 64 m.dst)) 0 .host m.tenant).setMigstat
          m.starter 2))) ∧
  (∀ (s : State) (src dst : Nat), s.Inv → src % 65536 = 0 → dst % 65536 = 0 → src ≠ dst →
    let u := s.movePage src dst
    (∀ i < 65536, u.memByte (dst + i) = (if populated (dst + i) 1 = false then s.memByte (dst + i)
      else if (src + i) / 32 ∈ s.ecc then 0xFF else s.memByte (src + i))) ∧
    (∀ x, x < dst ∨ dst + 65536 ≤ x → u.memByte x = s.memByte x) ∧
    (∀ h ∈ u.ecc, h ∈ s.ecc ∧ h / 2048 ≠ dst / 65536) ∧
    tget u.wgen (dst / 65536) = tget s.wgen (src / 65536))

/-- 00_scope R11; 09_page R208, R213, R216, R458; 18_link R422, R426; 20_system R445–R449, R451, R454: the host. A host read
of CLEAN memory answers its bytes, of a PENDING granule all ones with an event, and of memory that is not populated all
ones; its writes arrive CLEAN, and without a route are lost; until READY both are held, and a write that came while a warm
reset was under way ends in an error; its reads of registers answer
their RO and RW fields, the others as zero; its writes of registers, of ALARMPOL, of firmware and of tenant keys do what
their registers say, and without the CXL link none of its requests arrives: an image is accepted into the inactive slot, or rejected with the first check that it fails, and the
eighth rejection in a row is a cause of the alarm. Model's choices: how a write during a reset is told
(notes/assumptions/93); address and detail of LOSTWRITE (notes/assumptions/62); that the low bits of EVRING and of like
bases are ignored (notes/assumptions/38); the free detail word of ECCUNCORR (notes/assumptions/91); how the checks of an
image are told, and that the count of rejections begins again (notes/assumptions/98). -/
def Obligations.HostAccess : Prop :=
  (∀ (s : State), s.dev.ready = true → s.cxlDown = false →
    (∀ q, s.evArg.f = false → granPieces s.evArg.a s.evArg.b = [q] →
      (populated q.1 q.2 = false →
        exec .hostMemRead s = .next { s with hostSeen := { bytes := allOnes q.2, error := false } }) ∧
      (populated q.1 q.2 = true → s.hostRoute q.1 = false → exec .hostMemRead s =
        .next (let s1 := s.logUncorr 0 0 q.1
          { s1 with hostSeen := { bytes := allOnes q.2, error := false } })) ∧
      (populated q.1 q.2 = true → s.hostRoute q.1 = true → s.hostTurn q.1 = none →
        s.ecc.find? (fun h => decide (q.1 / 32 ≤ h ∧ h ≤ (q.1 + q.2 - 1) / 32)) = none →
        exec .hostMemRead s = .next { s with hostSeen := { bytes := s.memBytes q.1 q.2, error := false } }) ∧
      (∀ g, populated q.1 q.2 = true → s.hostRoute q.1 = true → s.hostTurn q.1 = some g → exec .hostMemRead s =
        .next (let s1 := (s.noteFrame q.1).logEvent .hostturn g.tenant g.writer g.level (BitVec.ofNat 64 q.1) 0
          { s1 with hostSeen := { bytes := allOnes q.2, error := false } }))) ∧
    (let bs := s.evArg.bytes
     let pieces := granPieces s.evArg.a bs.length
     pieces.any (fun q => s.migrating .stream q.1) = false → exec .hostMemWrite s =
       .next (pieces.foldl (fun t q => t.hostWritePiece q.1 ((bs.drop (q.1 - s.evArg.a)).take q.2)) s))) ∧
  (∀ (s : State) (tenant core pa : Nat), ∃ x : Word,
    s.logUncorr tenant core pa = ({ s with freeCtr := s.freeCtr + 1 } : State).logEvent .eccuncorr tenant core .none
      (BitVec.ofNat 64 pa) x) ∧
  (∀ (s : State) (pa : Nat) (bs : List Byte),
    (s.hostRoute pa = true → s.hostWritePiece pa bs = s.cleanWrite pa bs) ∧
    (s.hostRoute pa = false → s.hostWritePiece pa bs =
      s.logEvent .lostwrite 0 0 .none (BitVec.ofNat 64 pa) (BitVec.ofNat 64 bs.length)) ∧
    (∀ g, tget s.gran (pa / 64) = some g → s.compFrame pa = false →
      tget (s.cleanPiece pa bs).gran (pa / 64) = none)) ∧
  (∀ (s : State), s.dev.ready = false →
    (s.evArg.f = false → exec .hostMemWrite s = .next s ∧ exec .hostMemRead s = .next s) ∧
    (s.evArg.f = true → s.dev.lastRst ≠ 0 → s.cxlDown = false →
      exec .hostMemWrite s = .next { s with hostSeen := { bytes := [], error := true } })) ∧
  (∀ (s : State), s.cxlDown = false → s.evArg.f = true → exec .hostMemRead s =
    .next { s with hostSeen := { bytes := bytesOfWord 8 (s.hostReg s.evArg.a s.evArg.b), error := false } }) ∧
  (∀ (s : State),
    (let x := s.hostReg 128 0x3000
     bit x 3 = s.dev.alarm ∧ bit x 2 = s.dev.ready ∧ bits x 0 2 = s.dev.lastRst.toNat ∧ bits x 4 60 = 0) ∧
    (let x := s.hostReg 128 0x3010
     bit x 8 = s.dev.lock ∧ bit x 0 = s.dev.policy) ∧
    (∀ t, t < 128 → let x := s.hostReg 128 (0x4018 + 0x40 * t)
      bit x 9 = (s.tenant t).badload ∧ bit x 8 = (s.tenant t).key.isSome ∧ bits x 0 8 = 0 ∧
      s.hostReg 128 (0x4010 + 0x40 * t) = 0 ∧ s.hostReg 128 (0x4020 + 0x40 * t) = 0) ∧
    (∀ f off, f < 128 → 0x1080 ≤ off → s.hostReg f off = 0)) ∧
  (∀ (s : State), s.Inv → ∃ u, exec .cxlCacheSnoop s = .next u ∧ u.mem = s.mem ∧ u.ctxs = s.ctxs ∧
    ∀ x, x < 64 * s.evArg.a ∨ 64 * s.evArg.a + 64 ≤ x → sget 0 u.hostMem x = sget 0 s.hostMem x) ∧
  (∀ (s : State), s.cxlDown = true →
    exec .hostMemRead s = .next s ∧ exec .hostMemWrite s = .next s ∧ exec .hostRegWrite s = .next s ∧
    exec .alarmpolWrite s = .next s ∧ exec .fwGo s = .next s ∧ exec .doorbell s = .next s ∧ exec .tkeyWrite s = .next s ∧
    exec .tkctlLoad s = .next s ∧ exec .tkctlErase s = .next s ∧ exec .tresetGo s = .next s) ∧
  (∀ (s : State), s.evArg.a = 128 → s.cxlDown = false →
    let w := s.evArg.w
    let dev := fun (d : DeviceBlock) => exec .hostRegWrite s = .next { s with dev := d }
    (s.evArg.b = 0x3008 → dev { s.dev with evring := w &&& 0xFFFFFFFFFFFFFFC0 }) ∧
    (s.evArg.b = 0x3018 → dev { s.dev with limit := BitVec.ofNat 16 (max 300 (min 2200 (bits w 0 16))) }) ∧
    (s.evArg.b = 0x3038 → dev { s.dev with fwaddr := w }) ∧
    (s.evArg.b = 0x3000 → bit w 3 = true → dev { s.dev with alarm := false }) ∧
    (∀ t, t < 128 → s.evArg.b = 0x4000 + 0x40 * t →
      exec .hostRegWrite s = .next (s.withTenant t { s.tenant t with tsave := w &&& 0x000FFFFFFFFFFFFF }))) ∧
  (∀ (s : State) (f q : Nat), f = s.evArg.a → f ≤ 128 → q < 4 → s.evArg.b = 0x1000 + 0x20 * q →
    s.cxlDown = false →
    exec .hostRegWrite s = .next (s.withKqueue f q { s.kqueue f q with base := s.evArg.w &&& 0x01FFFFFFFFFFFFF8 })) ∧
  (∀ (s : State), (s.dev.lock = true → exec .alarmpolWrite s = .next s) ∧
    (s.dev.lock = false → s.cxlDown = false → exec .alarmpolWrite s =
      .next { s with dev := { s.dev with lock := bit s.evArg.w 8, policy := bit s.evArg.w 0 } }) ∧
    (s.cxlDown = false → exec .fwGo s = .next { s with dev := { s.dev with fwState := .verifying } }) ∧
    (s.dev.fwState = .verifying →
      let v := BitVec.ofNat 16 s.evArg.b
      let old := decide (v.toNat < Config.rollback.toNat)
      let rejects := fun (why : Nat) => exec .fwVerifyDone s =
        .next (let s1 := s.logEvent .fwreject 0 0 .none 0 (BitVec.ofNat 64 why)
          { s1 with dev := { s1.dev with
            fwState := .rejected, fwRej := if 7 ≤ s1.dev.fwRej then 0 else s1.dev.fwRej + 1
            causes := if 7 ≤ s1.dev.fwRej then (s1.dev.causes ++ [3]).dedup else s1.dev.causes } })
      (s.evArg.a = 0 → old = false → exec .fwVerifyDone s = .next { s with dev := { s.dev with
        fwState := .accepted, fwRej := 0, fwNew := true
        fwSlots := if s.dev.fwSecond then (some v, s.dev.fwSlots.2) else (s.dev.fwSlots.1, some v) } }) ∧
      (1 ≤ s.evArg.a → s.evArg.a ≤ 3 → rejects s.evArg.a) ∧
      (s.evArg.a = 0 ∨ s.evArg.a = 4 → old = true → rejects 4) ∧
      (s.evArg.a = 4 → old = false → exec .fwVerifyDone s = .next s))) ∧
  (∀ (s : State), s.evArg.a < 128 → s.cxlDown = false →
    let t := s.evArg.a
    let x := s.tenant t
    exec .tkeyWrite s = .next (s.withTenant t { x with tkey := x.tkey ++ [s.evArg.w] }) ∧
    (x.tkey.length = 4 → exec .tkctlLoad s = .next (let s1 := s.dropTenant t
      s1.withTenant t { s1.tenant t with key := some (bytesOfWords x.tkey), tkey := [] })) ∧
    (x.tkey.length ≠ 4 → exec .tkctlLoad s = .next (s.withTenant t { x with badload := true, tkey := [] })) ∧
    ∃ u, exec .tkctlErase s = .next u ∧ (u.tenant t).key = none ∧ u.mem = s.mem ∧
      ∀ e ∈ u.reuse, e.2.tenant = t → e.2.state = .dead)

/-- 20_system R448–R456: the resets and what each keeps, the alarm, the freeze, the test access port, half width and the
power gate. A cold reset runs the image accepted since the last one, where its slot does not verify the other one, and where
none does the device does not become READY; the alarm fires on the causes 1 and 2 whenever they arise, and on the others
once for each time they come due, the eighth failed UNLOCK in a row among these; READOUT shifts out, of a frozen device that
is unlocked, the next piece of its state, of keys zeros, and zeros before; a channel drops for heat above 95 degrees, or for
a lane fault at any, and returns from heat below 85. Model's choices: empty device memory after a cold reset
(notes/assumptions/3); the identification code, the order of READOUT and the details of a change of width, which are free
(notes/assumptions/6, 99); a GATE of 0 within bounds (notes/assumptions/66); the fault of a frozen device's step
(notes/assumptions/70); when an error in memory arises (notes/assumptions/91); how the verdicts on firmware and on an UNLOCK
are told, and that the count of failures begins again (notes/assumptions/98); that a warm reset keeps the version and the slots
of the firmware, which R451 does not say (notes/assumptions/65); that a warm reset and the reset of a tenant or a function are
made in one step (notes/assumptions/93, 97). -/
def Obligations.ResetsAndPort : Prop :=
  (∀ (s : State), s.evArg.a < 128 → s.cxlDown = false → exec .tresetGo s = .next (s.resetTenant s.evArg.a) ∧
    exec .functionLevelReset s = .next (s.resetTenant s.evArg.a) ∧
    let u := s.resetTenant s.evArg.a
    (u.tenant s.evArg.a).counts = [] ∧ (∀ e ∈ u.reuse, e.2.tenant = s.evArg.a → e.2.state = .dead) ∧
    (∀ c ∈ (u.tenant s.evArg.a).slots, c.2.used = false)) ∧
  (∀ (s : State), (∃ u, exec .warmReset s = .next u ∧ u.mem = s.mem ∧ u.hostMem = s.hostMem ∧ u.wgen = s.wgen ∧
      u.ecc = s.ecc ∧ u.soft = s.soft ∧ u.hb = 0 ∧ u.gran = [] ∧ u.ctxs = [] ∧ u.kernels = [] ∧ u.reuse = [] ∧
      u.tenants = [] ∧ u.windows = [] ∧ u.dev.ready = false ∧ u.dev.lastRst = 1 ∧ u.dev.lock = s.dev.lock ∧
      u.dev.fwVer = s.dev.fwVer ∧ u.dev.fwSlots = s.dev.fwSlots ∧ (s.dev.lock = true → u.dev.policy = s.dev.policy)) ∧
    (∃ u, exec .coldReset s = .next u ∧ u.mem = [] ∧ u.hostMem = s.hostMem ∧ u.wgen = [] ∧ u.hb = 0 ∧ u.gran = [] ∧
      u.ctxs = [] ∧ u.kernels = [] ∧ u.reuse = [] ∧ u.tenants = [] ∧ u.windows = [] ∧ u.frozen = false ∧
      u.dev.ready = false ∧ u.dev.lastRst = 0 ∧ u.dev.lock = false ∧ u.dev.fwSlots = s.dev.fwSlots ∧
      let good := fun (second : Bool) (v : BitVec 16) =>
        (if second then s.dev.fwSlots.2 else s.dev.fwSlots.1) = some v ∧ Config.rollback.toNat ≤ v.toNat ∧
          bit (BitVec.ofNat 64 s.evArg.a) (if second then 1 else 0) = true
      let first := s.dev.fwSecond != s.dev.fwNew
      (∀ v, good first v → u.dev.fwVer = v ∧ u.dev.fwSecond = first ∧ u.dev.noFw = false) ∧
      (∀ v, (∀ x, ¬ good first x) → good (!first) v → u.dev.fwVer = v ∧ u.dev.fwSecond = !first ∧ u.dev.noFw = false) ∧
      ((∀ b x, ¬ good b x) → u.dev.noFw = true)) ∧
    exec .hbmReady s = .next { s with dev := { s.dev with ready := !s.dev.noFw } } ∧
    exec .freeze s = .next { s with
      frozen := true, links := tput s.links cxlLink { s.link cxlLink with state := .down } } ∧
    (s.soft.contains s.evArg.a = false → exec .patrolScrub s = .next s) ∧
    (s.soft.contains s.evArg.a = true → ∃ u, exec .patrolScrub s = .next u ∧ u.mem = s.mem ∧ u.ecc = s.ecc ∧
      u.ctxs = s.ctxs ∧ u.soft = s.soft.filter (fun h => decide (h ≠ s.evArg.a)) ∧
      u.hostMem = (s.logCorrected s.evArg.a).hostMem)) ∧
  (∀ (s : State), s.frozen = true → s.sched = [] → step s = .fault .frozen) ∧
  (∀ (s : State), s.evArg.a = 1 ∨ s.evArg.a = 2 ∨ s.evArg.a ∈ s.dev.causes → ∃ u, exec .securityAlarm s = .next u ∧
    u.dev.alarm = true ∧ u.dev.lastRst = 2 ∧ u.ctxs = [] ∧ u.mem = s.mem ∧ (∀ t, (u.tenant t).key = none) ∧
    u.dev.devKeys = (s.dev.devKeys && !s.dev.policy) ∧ u.dev.causes = s.dev.causes.filter (fun c => decide (c ≠ s.evArg.a))) ∧
  (∀ (s : State), s.evArg.a ≠ 1 → s.evArg.a ≠ 2 → s.evArg.a ∉ s.dev.causes → exec .securityAlarm s = .next s) ∧
  (∀ (s : State), exec .bypass s = .next { s with tap := { s.tap with instr := .bypass, out := [false] } } ∧
    (∃ out : List Bool, out.length = 32 ∧ exec .idcode s = .next { s with tap := { s.tap with instr := .idcode, out := out } }) ∧
    (s.evArg.f = true → exec .unlock s = .next { s with
      tap := { s.tap with instr := .unlock, unlocked := true }, dev := { s.dev with unlRej := 0 } }) ∧
    (s.evArg.f = false → exec .unlock s = .next { s with
      tap := { s.tap with instr := .unlock }
      dev := if 7 ≤ s.dev.unlRej then { s.dev with unlRej := 0, causes := (s.dev.causes ++ [4]).dedup }
             else { s.dev with unlRej := s.dev.unlRej + 1 } }) ∧
    (s.tap.unlocked = false → exec .readout s =
      .next { s with tap := { s.tap with instr := .readout, out := List.replicate 64 false } }) ∧
    (s.tap.unlocked = true → s.frozen = false → exec .readout s =
      .next { s with tap := { s.tap with instr := .readout, out := [] } }) ∧
    (s.tap.unlocked = true → s.frozen = true → ∃ x, exec .readout s = .next { s with tap := { s.tap with
      instr := .readout, out := (List.range 64).map (fun i => bit (s.scan x) i), pos := s.tap.pos + 1 } }) ∧
    (∀ t i, s.scan (.tenantKey t i) = 0 ∧ s.scan (.stagedKey t i) = 0)) ∧
  (∀ (s : State),
    let a := s.evArg
    let at_ := s.half.any (fun h => decide (h.1 = a.a ∧ h.2.1 = a.b))
    (at_ = false → a.f = false ∨ 95 < a.w.toNat →
      exec .halfWidth s = .next ({ s with half := (a.a, a.b, a.f) :: s.half } : State).logWidth) ∧
    (at_ = true → a.f = false → exec .halfWidth s = .next { s with
      half := s.half.map (fun h => if h.1 = a.a ∧ h.2.1 = a.b then (h.1, h.2.1, false) else h) }) ∧
    (a.f = true → at_ = true ∨ a.w.toNat ≤ 95 → exec .halfWidth s = .next s) ∧
    ((a.a, a.b, true) ∈ s.half → a.w.toNat < 85 → exec .fullWidth s = .next ({ s with
      half := s.half.filter (fun h => decide (h ≠ (a.a, a.b, true))) } : State).logWidth) ∧
    ((a.a, a.b, true) ∉ s.half ∨ 85 ≤ a.w.toNat → exec .fullWidth s = .next s) ∧
    (s.logWidth.mem = s.mem ∧ s.logWidth.half = s.half ∧ s.logWidth.ctxs = s.ctxs)) ∧
  (∀ (s : State), s.evArg.a < 2 ^ 32 → s.evArg.b < 256 → ∃ u, exec .powerGate s = .next u ∧
    u.dev.draw.toNat = s.evArg.a ∧ u.dev.temp.toNat = s.evArg.b ∧ u.mem = s.mem ∧ u.ctxs = s.ctxs ∧ u.hb = s.hb ∧
    (s.evArg.a ≤ s.dev.limit.toNat → s.evArg.b ≤ 105 → u.dev.gate = 0) ∧
    (s.dev.limit.toNat < s.evArg.a ∨ 105 < s.evArg.b → s.dev.gate.toNat < 16 → u.dev.gate = s.dev.gate + 1))

/-- 18_link R417–R426; 11_ordering R266: links and routers. A link's states follow R418; a sender sends again what is due,
oldest first, before any new flit; the flit expected delivers itself and what is held behind it, and a duplicate is
discarded; a gap of one is asked for again, any other brings RESEND; a third NAK RETRAIN; and the flits of a link that
fails go to the new route's output queue. A packet is delivered in the order of its pair, a duplicate of one is
discarded, and one before its turn waits. A router sleeps when idle, a wake, a flit or a probe wakes it; probes find a
cycle, whose step moves every head one hop. Model's choices: which gap is asked for again, what is sent again and when a
link retrains (notes/assumptions/67); flits and the CXL link (notes/assumptions/88); the packets of LOOSE multicasts
(notes/assumptions/90, 14); and the head packets that probes name (notes/assumptions/92). -/
def Obligations.LinksAndRouters : Prop :=
  (∀ (s : State), s.evArg.a ≤ 306 →
    let l := s.evArg.a
    let up := s.evArg.f
    let x := s.link l
    let d := x.dir up
    let seq := s.evArg.w.setWidth 10
    (x.state = .training → exec .trainingDone s = .next (s.withLink l { x with state := .up, attempts := 0 })) ∧
    (x.state = .retrain → exec .trainingDone s = .next (s.resendLink l { x with attempts := 0 })) ∧
    (x.state = .training ∨ x.state = .retrain →
      (x.attempts < 7 → exec .trainingFail s = .next (s.withLink l { x with attempts := x.attempts + 1 })) ∧
      (7 ≤ x.attempts → exec .trainingFail s = .next (s.failLink l) ∧ ((s.failLink l).link l).state = .down)) ∧
    (let d0 := { d with queue := d.queue ++ flitsOf (flitBytes l) s.evArg.bytes }
     let x0 := x.withDir up d0
     (s.endSleeps l = true → ∃ u, exec .flitReceive s = .next u ∧ ((u.link l).dir up).queue = d0.queue ∧
       ((u.link l).dir up).done = d.done ∧ ∀ r ∈ endRouters l, (u.router r).asleep = false) ∧
     (∀ d1 f, s.endSleeps l = false → x.state = .up → d0.sends (flitBytes l) seq = some d1 →
       d1.buffer.find? (fun y => decide (y.seq = seq)) = some f →
       (s.evArg.g = false → exec .flitReceive s = .next (s.withLink l (x0.withDir up d1))) ∧
       (s.evArg.g = true → seq = d1.expect →
         exec .flitReceive s = .next (s.withLink l (x0.withDir up d1.deliver))) ∧
       (∀ k, s.evArg.g = true → seq = d1.expect - BitVec.ofNat 10 k → 1 ≤ k → k ≤ 768 →
         exec .flitReceive s = .next (s.withLink l (x0.withDir up d1))) ∧
       (s.evArg.g = true → seq = d1.expect + 1 → asksOne l = true → d1.held = [] → d1.nak = none →
         exec .flitReceive s = .next ((s.withLink l { x0.withDir up { d1.askAgain with held := [f] } with
           state := .replay }).countLink (linkDie l) (fun c => { c with replays := satInc c.replays }))) ∧
       (∀ k, s.evArg.g = true → seq = d1.expect + BitVec.ofNat 10 k → (2 ≤ k ∨ k = 1 ∧ asksOne l = false) → k < 256 →
         d1.held = [] → d1.nak = none → exec .flitReceive s = .next (s.bigGap l (x0.withDir up d1) up)))) ∧
    (x.state = .replay → d.nak = some seq → seq ∈ d.seqs →
      exec .nakReceive s = .next (s.withLink l (x.withDir up { d with again := [seq] }))) ∧
    (x.state = .up → seq ∈ d.seqs → (d.expect - 1 - seq).toNat < 256 → ∃ u, exec .ackReceive s = .next u ∧
      ((u.link l).dir up).buffer = d.buffer.drop (d.seqs.findIdx (fun y => decide (y = seq)) + 1)) ∧
    (x.state = .replay → d.nak.isSome = true →
      (d.naks < 2 → exec .nakRepeat s = .next (s.withLink l (x.withDir up d.askAgain))) ∧
      (2 ≤ d.naks → exec .nakRepeat s = .next (s.retrainLink l (x.withDir up d.askAgain))) ∧
      exec .nakTimeout s = .next (s.resendLink l x)) ∧
    ((s.retrainLink l x).link l).state = .retrain ∧
    ((s.resendLink l x).link l).state = (if x.fwd.buffer = [] ∧ x.bwd.buffer = [] then .up else .resend) ∧
    (d.deliver.expect = d.expect + BitVec.ofNat 10 (1 + d.held.length) ∧ d.deliver.done = d.done + (1 + d.held.length))) ∧
  (∀ (d : Direction) (n : Nat) (seq : BitVec 10),
    (seq ∈ d.seqs → seq ∉ d.again → d.sends n seq = none) ∧
    (∀ a b, seq ∈ d.seqs → d.again = a ++ seq :: b → seq ∉ a → d.sends n seq = some { d with again := b }) ∧
    (∀ bs rest, d.next ∉ d.seqs → d.buffer.length < 256 → d.queue = bs :: rest → d.sends n d.next = some { d with
      again := [], next := d.next + 1, queue := rest,
      buffer := d.buffer ++ [{ seq := d.next, data := bs, crc := Config.linkCrc d.next bs }] })) ∧
  (∀ (s : State) (a m : Nat) (rest : List Nat) (fs : List (List Byte)),
    let up := (linkEnds m).any (fun e => decide (e.1 = a))
    (((s.handFlits a (some (m :: rest)) fs).link m).dir up).queue = fs ++ ((s.link m).dir up).queue) ∧
  (∀ (s : State) (p : Packet), s.packets.find? (fun q => decide (q.id = s.evArg.a)) = some p →
    let key := pairKey p.writer p.pa
    let n := s.pair key
    let gone : State := { s with packets := s.packets.filter (fun q => decide (q.id ≠ p.id)) }
    (p.seq = n.2 → exec .packetDeliver s =
      .next (({ if s.evArg.f then s else gone with pairs := tput s.pairs key (n.1, n.2 + 1) } : State).writeCopy
        .repl p.pa (s.packetBytes p) p.writer p.level p.tenant)) ∧
    (∀ k, p.seq = n.2 - BitVec.ofNat 16 k → 1 ≤ k → k ≤ 32768 → exec .packetDeliver s = .next gone) ∧
    (∀ k, p.seq = n.2 + BitVec.ofNat 16 k → 1 ≤ k → k < 32768 → exec .packetDeliver s = .next s) ∧
    (p.part = none → s.packetBytes p = p.bytes)) ∧
  (∀ (s : State), s.evArg.a < 96 →
    let r := s.evArg.a
    let b := s.evArg.b
    let x := s.router r
    (x.asleep = false → s.routerIdle r = true → ∃ u, exec .routerSleep s = .next u ∧ (u.router r).asleep = true ∧
      u.mem = s.mem) ∧
    (x.asleep = true → ∃ u, exec .wake s = .next u ∧ (u.router r).asleep = false ∧
      ∀ e ∈ linksOf r, (u.link e.1).state ≠ .sleep) ∧
    (b < 96 → x.sent = false → x.cycle = false → x.stepped = false →
      exec .deadlockProbeSend s = .next ((s.withRouter r (x.withHead s.evArg.c)).sendProbe r b)) ∧
    (∀ o, x.probe = some o →
      (o = r → exec .probeReceive s = .next (s.withRouter r { x with probe := none, sent := false, cycle := true })) ∧
      (o ≠ r → s.evArg.f = false → exec .probeReceive s =
        .next ((s.withRouter r { x with probe := none, blocked := none, buffer := [] }).dropProbe o)) ∧
      (o ≠ r → s.evArg.f = true → b < 96 → s.hop r b = .goes → exec .probeReceive s =
        .next ((s.withRouter r { x.withHead s.evArg.c with probe := none, blocked := some b }).probeTo o b))) ∧
    (x.cycle = true → ∃ u, exec .deadlockStep s = .next u ∧ (u.router r).cycle = false ∧ (u.router r).stepped = true ∧
      (u.router r).blocked = none ∧ u.mem = s.mem ∧
      ∀ o p q ps qs, o ≠ r → x.blocked = some o → (s.router o).blocked = some r → x.buffer = p :: ps →
        (s.router o).buffer = q :: qs → (u.router r).buffer = ps ++ [q] ∧ (u.router o).buffer = qs ++ [p]) ∧
    (x.stepped = true → b < 96 →
      (s.evArg.f = true → exec .probeRetry s = .next (s.sendProbe r b)) ∧
      (s.evArg.f = false → exec .probeRetry s = .next (s.withRouter r { x with stepped := false, buffer := [] }))))
end

