-- ==== Sys2Proof/Laws/Memory.lean ====
section
/-! SUPPORT. Sparse data and the memories: every operation keeps the canonical form, a write leaves the other addresses
alone, and the operations that write memory keep the invariant of the device. -/

namespace Sys2Proof.Machine

set_option Elab.async false

/-- The canonical form, read off the first entry. -/
theorem swf_cons {α : Type} [DecidableEq α] (d : α) (k : Nat) (v : α) (r : Sparse α) :
    swf d ((k, v) :: r) = true ↔ v ≠ d ∧ (∀ e ∈ r, k < e.1) ∧ swf d r = true := by
  induction r generalizing k v with
  | nil => simp [swf]
  | cons e r ih =>
    obtain ⟨k', v'⟩ := e
    simp only [swf, Bool.and_eq_true, decide_eq_true_eq, List.mem_cons, forall_eq_or_imp]
    constructor
    · rintro ⟨⟨hv, hk⟩, hr⟩
      exact ⟨hv, ⟨hk, fun e he => lt_trans hk (((ih k' v').1 hr).2.1 e he)⟩, hr⟩
    · rintro ⟨hv, ⟨hk, -⟩, hr⟩
      exact ⟨⟨hv, hk⟩, hr⟩

/-- Keys above a bound stay above it when a key above it is set. -/
theorem sset_above {α : Type} [DecidableEq α] (d : α) (m : Sparse α) (i b : Nat) (x : α) (hb : b < i)
    (hm : ∀ e ∈ m, b < e.1) : ∀ e ∈ sset d m i x, b < e.1 := by
  induction m with
  | nil => intro e he; simp only [sset] at he; split at he <;> simp_all
  | cons y r ih =>
    obtain ⟨k, v⟩ := y
    have hr : ∀ e ∈ r, b < e.1 := fun e he => hm e (List.mem_cons_of_mem _ he)
    have hk : b < k := hm (k, v) (List.mem_cons_self ..)
    intro e he
    simp only [sset] at he
    split at he
    · split at he <;> simp only [List.mem_cons] at he
      · rcases he with rfl | he
        · exact hk
        · exact hr e he
      · rcases he with rfl | rfl | he
        · exact hb
        · exact hk
        · exact hr e he
    · split at he
      · split at he
        · exact hr e he
        · simp only [List.mem_cons] at he
          rcases he with rfl | he
          · exact hb
          · exact hr e he
      · simp only [List.mem_cons] at he
        rcases he with rfl | he
        · exact hk
        · exact ih hr e he

/-- Setting a value keeps the canonical form. -/
theorem swf_sset {α : Type} [DecidableEq α] (d : α) (m : Sparse α) (i : Nat) (x : α) (hm : swf d m = true) :
    swf d (sset d m i x) = true := by
  induction m with
  | nil => by_cases h : x = d <;> simp [sset, swf, h]
  | cons e r ih =>
    obtain ⟨k, v⟩ := e
    obtain ⟨hv, hk, hr⟩ := (swf_cons d k v r).1 hm
    simp only [sset]
    split
    · split
      · exact hm
      · rename_i h1 h2
        refine (swf_cons ..).2 ⟨h2, ?_, hm⟩
        intro e he
        simp only [List.mem_cons] at he
        rcases he with rfl | he
        · exact h1
        · exact lt_trans h1 (hk e he)
    · split
      · rename_i h1 h2
        subst h2
        split
        · exact hr
        · rename_i h3; exact (swf_cons ..).2 ⟨h3, hk, hr⟩
      · rename_i h1 h2
        exact (swf_cons ..).2 ⟨hv, sset_above d r i k x (by omega) hk, ih hr⟩

/-- Setting consecutive values keeps the canonical form. -/
theorem swf_ssetList {α : Type} [DecidableEq α] (d : α) (xs : List α) (m : Sparse α) (i : Nat) (hm : swf d m = true) :
    swf d (ssetList d m i xs) = true := by
  induction xs generalizing m i with
  | nil => exact hm
  | cons x xs ih => exact ih _ _ (swf_sset d m i x hm)

/-- Leaving out entries keeps the canonical form. -/
theorem swf_filter {α : Type} [DecidableEq α] (d : α) (p : Nat × α → Bool) (m : Sparse α) (hm : swf d m = true) :
    swf d (m.filter p) = true := by
  induction m with
  | nil => rfl
  | cons e r ih =>
    obtain ⟨k, v⟩ := e
    obtain ⟨hv, hk, hr⟩ := (swf_cons d k v r).1 hm
    simp only [List.filter]
    split
    · exact (swf_cons ..).2 ⟨hv, fun e he => hk e (List.mem_filter.1 he).1, ih hr⟩
    · exact ih hr

/-- Clearing a range keeps the canonical form. -/
theorem swf_sclear {α : Type} [DecidableEq α] (d : α) (m : Sparse α) (lo hi : Nat) (hm : swf d m = true) :
    swf d (sclear m lo hi) = true := swf_filter d _ m hm

/-- A fold of single writes keeps the canonical form. -/
theorem swf_foldl_sset {α β : Type} [DecidableEq α] (d : α) (k : β → Nat) (v : β → α) (l : List β) (m : Sparse α)
    (hm : swf d m = true) : swf d (l.foldl (fun m e => sset d m (k e) (v e)) m) = true := by
  induction l generalizing m with
  | nil => exact hm
  | cons e l ih => exact ih _ (swf_sset d m _ _ hm)

/-- Setting a value leaves every other key alone. -/
theorem sget_sset_other {α : Type} [DecidableEq α] (d : α) (m : Sparse α) (i j : Nat) (x : α) (h : j ≠ i) :
    sget d (sset d m i x) j = sget d m j := by
  induction m with
  | nil => by_cases hx : x = d <;> simp [sset, sget, hx, h]
  | cons e r ih =>
    obtain ⟨k, v⟩ := e
    simp only [sset]
    split
    · split <;> simp [sget, h]
    · split
      · rename_i h1 h2
        subst h2
        split <;> simp [sget, h]
      · simp only [sget, ih]

/-- Setting consecutive values leaves the keys outside their range alone. -/
theorem sget_ssetList_other {α : Type} [DecidableEq α] (d : α) (xs : List α) (m : Sparse α) (i j : Nat)
    (h : j < i ∨ i + xs.length ≤ j) : sget d (ssetList d m i xs) j = sget d m j := by
  induction xs generalizing m i with
  | nil => rfl
  | cons x xs ih =>
    simp only [List.length_cons] at h
    simp only [ssetList]
    rw [ih _ _ (by omega), sget_sset_other _ _ _ _ _ (by omega)]

/-- A consecutive value that has been set reads back. -/
theorem sget_ssetList_same {α : Type} [DecidableEq α] (d : α) (xs : List α) (m : Sparse α) (i n : Nat)
    (hget : ∀ (m : Sparse α) (i : Nat) (x : α), swf d m = true → sget d (sset d m i x) i = x)
    (hm : swf d m = true) (h : n < xs.length) : sget d (ssetList d m i xs) (i + n) = xs[n] := by
  induction xs generalizing m i n with
  | nil => simp at h
  | cons x xs ih =>
    cases n with
    | zero =>
      simp only [ssetList, Nat.add_zero, List.getElem_cons_zero]
      rw [sget_ssetList_other _ _ _ _ _ (by omega)]
      exact hget m i x hm
    | succ n =>
      simp only [ssetList, List.getElem_cons_succ]
      have := ih (sset d m i x) (i + 1) n (swf_sset d m i x hm) (by simpa using h)
      rw [show i + (n + 1) = i + 1 + n by omega]
      exact this

/-- The memories after reset are canonical. -/
theorem reset_inv : State.reset.Inv := ⟨rfl, rfl⟩

/-- A state with the same memories keeps the invariant. -/
theorem State.Inv.same {s t : State} (h : s.Inv) (h1 : t.mem = s.mem) (h2 : t.hostMem = s.hostMem) : t.Inv :=
  ⟨h1 ▸ h.1, h2 ▸ h.2⟩

/-- A fold of operations that keep the invariant keeps it. -/
theorem State.Inv.foldl {β : Type} {f : State → β → State} (hf : ∀ s b, s.Inv → (f s b).Inv) (l : List β) {s : State}
    (h : s.Inv) : (l.foldl f s).Inv := by
  induction l generalizing s with
  | nil => exact h
  | cons b l ih => exact ih (hf s b h)

/-- A write to host memory keeps the invariant. -/
theorem State.Inv.hostWrite {s : State} (h : s.Inv) (pa : Nat) (bs : List Byte) : (s.hostWrite pa bs).Inv :=
  ⟨h.1, swf_ssetList 0 bs s.hostMem pa h.2⟩

/-- A record put into a ring keeps the invariant. -/
theorem State.Inv.ringPut {s t : State} (h : s.Inv) (base : Nat) (tail : Word) (ws : List Word)
    (ht : s.ringPut base tail ws = some t) : t.Inv := by
  simp only [State.ringPut] at ht
  split at ht
  · cases ht
  · cases ht; exact (h.hostWrite _ _).hostWrite _ _

/-- A change of the device block keeps the invariant. -/
theorem State.Inv.withDev {s : State} (h : s.Inv) (d : DeviceBlock) : ({ s with dev := d } : State).Inv := ⟨h.1, h.2⟩

/-- Logging an event keeps the invariant. -/
theorem State.Inv.logEvent {s : State} (h : s.Inv) (t : EventType) (tenant core : Nat) (level : Level)
    (addr detail : Word) : (s.logEvent t tenant core level addr detail).Inv := by
  unfold State.logEvent
  split
  · exact h
  · simp only
    split
    · rename_i s1 h1; exact State.Inv.ringPut h _ _ _ h1
    · split
      · rename_i s1 h1; exact State.Inv.ringPut (h.withDev _) _ _ _ h1
      · exact State.Inv.hostWrite (h.withDev _) _ _

/-- A lost write keeps the invariant. -/
theorem State.Inv.lostWrite {s : State} (h : s.Inv) (tenant core pa n : Nat) : (s.lostWrite tenant core pa n).Inv :=
  h.logEvent ..

/-- Counting drops changes no memory. -/
theorem State.countDrops_mems (l : List Nat) (s : State) :
    (s.countDrops l).mem = s.mem ∧ (s.countDrops l).hostMem = s.hostMem := by
  induction l generalizing s with
  | nil => exact ⟨rfl, rfl⟩
  | cons t r ih => exact ih _

/-- A write to one granule of one copy: device memory changes only on a page kind other than HOSTMEM. -/
theorem State.writePiece_mem (s : State) (kind : PageKind) (pa : Nat) (bs : List Byte) (w : Nat) (l : Level) (t : Nat) :
    (s.writePiece kind pa bs w l t).mem = if kind = .hostmem then s.mem else ssetList 0 s.mem pa bs := by
  simp only [State.writePiece, State.checkWatches, State.countDrops_mems]
  split <;> split <;> rfl

/-- A write to one granule of one copy: host memory changes only on a HOSTMEM page. -/
theorem State.writePiece_hostMem (s : State) (kind : PageKind) (pa : Nat) (bs : List Byte) (w : Nat) (l : Level)
    (t : Nat) :
    (s.writePiece kind pa bs w l t).hostMem = if kind = .hostmem then ssetList 0 s.hostMem pa bs else s.hostMem := by
  simp only [State.writePiece, State.checkWatches, State.countDrops_mems]
  split <;> split <;> rfl

/-- A write to one granule keeps the invariant. -/
theorem State.Inv.writePiece {s : State} (h : s.Inv) (kind : PageKind) (pa : Nat) (bs : List Byte) (w : Nat) (l : Level)
    (t : Nat) : (s.writePiece kind pa bs w l t).Inv := by
  refine ⟨?_, ?_⟩
  · rw [State.writePiece_mem]; split
    · exact h.1
    · exact swf_ssetList 0 bs s.mem pa h.1
  · rw [State.writePiece_hostMem]; split
    · exact swf_ssetList 0 bs s.hostMem pa h.2
    · exact h.2

/-- A write within a block keeps the invariant. -/
theorem State.Inv.writeBlock {s : State} (h : s.Inv) (kind : PageKind) (pa : Nat) (bs : List Byte) (w : Nat) (l : Level)
    (t : Nat) : (s.writeBlock kind pa bs w l t).Inv := by
  simp only [State.writeBlock]
  split
  · exact h.lostWrite ..
  · exact State.Inv.foldl (fun s q hs => hs.writePiece ..) _ h

/-- A write to one copy keeps the invariant. -/
theorem State.Inv.writeCopy {s : State} (h : s.Inv) (kind : PageKind) (pa : Nat) (bs : List Byte) (w : Nat) (l : Level)
    (t : Nat) : (s.writeCopy kind pa bs w l t).Inv :=
  State.Inv.foldl (f := fun s (q : Nat × Nat) => s.writeBlock kind q.1 ((bs.drop (q.1 - pa)).take q.2) w l t) (fun _ _ hs => hs.writeBlock ..) _ h

/-- A multicast writes no memory yet. -/
theorem State.Inv.multicast {s : State} (h : s.Inv) (pl : Place) (bs : List Byte) (part : Option (Nat × Nat)) (w : Who)
    (l : Level) : (s.multicast pl bs part w l).Inv :=
  State.Inv.foldl (f := fun s pa => s.sendPacket w l part bs pa) (fun _ _ hs => ⟨hs.1, hs.2⟩) _ h

/-- A write to a place keeps the invariant. -/
theorem State.Inv.writePlace {s : State} (h : s.Inv) (pl : Place) (bs : List Byte) (w : Who) (l : Level) (lo : Bool) :
    (s.writePlace pl bs w l lo).Inv := by
  simp only [State.writePlace]
  split
  · split
    · exact (h.writeCopy ..).multicast ..
    · exact State.Inv.foldl (fun s q hs => hs.writeCopy ..) _ h
  · exact h.writeCopy ..

/-- The writing of a region keeps the invariant. -/
theorem State.Inv.writeRegion {s : State} (h : s.Inv) (w : Who) (l : Level) (lo : Bool) (a : Nat) (bs : List Byte)
    (r : Region) : (s.writeRegion w l lo a bs r).Inv := by
  match r with
  | .window true off => exact h.same rfl rfl
  | .window false off => exact h.same rfl rfl
  | .pages ps => exact State.Inv.foldl (fun s p hs => hs.writePlace ..) ps h

/-- A store keeps the invariant. -/
theorem State.Inv.store {s t : State} (h : s.Inv) (w : Who) (a : Nat) (bs : List Byte) (ht : s.store w a bs = .ok t) :
    t.Inv := by
  simp only [State.store, MemRes.bind] at ht
  split at ht
  · cases ht; exact h.writeRegion ..
  · cases ht
  · cases ht

/-- A write at the home slice keeps the invariant. -/
theorem State.Inv.syncWrite {s : State} (h : s.Inv) (w : Who) (pa : Nat) (bs : List Byte) : (s.syncWrite w pa bs).Inv :=
  h.writeCopy ..

/-- A write of the host within a granule keeps the invariant. -/
theorem State.Inv.cleanPiece {s : State} (h : s.Inv) (pa : Nat) (bs : List Byte) : (s.cleanPiece pa bs).Inv := by
  have h1 := h.writePiece .stream pa bs 0 .host 0
  simp only [State.cleanPiece]
  split
  · split
    · exact ⟨h1.1, h1.2⟩
    · exact h1
  · exact h1

/-- A write of the host keeps the invariant. -/
theorem State.Inv.cleanWrite {s : State} (h : s.Inv) (pa : Nat) (bs : List Byte) : (s.cleanWrite pa bs).Inv := by
  refine State.Inv.foldl (fun s q hs => ?_) _ h
  split
  · exact hs.cleanPiece ..
  · exact hs

/-- A write of device machinery keeps the invariant. -/
theorem State.Inv.devWrite {s : State} (h : s.Inv) (core tenant pa : Nat) (bs : List Byte) :
    (s.devWrite core tenant pa bs).Inv := by
  unfold State.devWrite
  split
  · exact h.cleanWrite ..
  · exact h.lostWrite ..

/-- A fold of writes of bytes keeps the canonical form. -/
theorem swf_foldl_ssetList {α β : Type} [DecidableEq α] (d : α) (k : β → Nat) (v : β → List α) (l : List β) (m : Sparse α)
    (hm : swf d m = true) : swf d (l.foldl (fun m e => ssetList d m (k e) (v e)) m) = true := by
  induction l generalizing m with
  | nil => exact hm
  | cons e l ih => exact ih _ (swf_ssetList d _ m _ hm)

/-- The bytes that a migration copies keep the canonical form. -/
theorem swf_movedBytes {s : State} (h : swf 0 s.mem = true) (src dst : Nat) : swf 0 (s.movedBytes src dst) = true := by
  unfold State.movedBytes
  generalize populatedPart dst 65536 = n
  simp only
  exact swf_foldl_ssetList 0 _ (fun _ => List.replicate 32 (BitVec.allOnes 8)) _ _
    (swf_foldl_sset 0 _ _ _ _ (swf_sclear 0 _ _ _ h))

/-- The copy of a migration keeps the invariant. -/
theorem State.Inv.movePage {s : State} (h : s.Inv) (src dst : Nat) : (s.movePage src dst).Inv := by
  have hm : swf 0 (s.movePage src dst).mem = true := by
    have h1 := swf_movedBytes h.1 src dst
    simpa only [State.movePage] using h1
  have hh : (s.movePage src dst).hostMem = s.hostMem := by simp only [State.movePage]
  exact ⟨hm, hh ▸ h.2⟩

/-- The placing of a program keeps the invariant. -/
theorem State.Inv.putProgram {s : State} (h : s.Inv) (a : Nat) (bs : List Byte) (ps : List (Place × Nat × Nat)) :
    (s.putProgram a bs ps).Inv := by
  refine State.Inv.foldl (fun s p hs => ?_) ps h
  simp only
  split
  · exact ⟨hs.1, swf_ssetList 0 _ _ _ hs.2⟩
  · exact ⟨swf_ssetList 0 _ _ _ hs.1, hs.2⟩

end Sys2Proof.Machine
end

