-- ==== Sys2Proof/Laws/Access.lean ====
section
/-! SUPPORT. What an access of several bytes can do: an unaligned one that goes on or waits, and the bytes of device memory
that a write leaves alone. -/

namespace Sys2Proof.Machine

set_option Elab.async false

/-- An aligned access goes on with its bytes. -/
theorem State.accessed_aligned (s : State) (e n : Nat) (bs : List Byte) (k : List Byte → State → Res) (h : e % n = 0) :
    s.accessed e n bs k = k bs s := by
  simp only [State.accessed, if_pos h]

/-- An unaligned access all of whose bytes have been accessed goes on with them as they were then. -/
theorem State.accessed_whole (s : State) (e n : Nat) (bs : List Byte) (k : List Byte → State → Res) (h : e % n ≠ 0)
    (ha : ∀ j < n, (tget (s.partWith bs (s.bytesOf e n)) j).isSome = true) :
    s.accessed e n bs k = k ((List.range n).map (fun j => (tget (s.partWith bs (s.bytesOf e n)) j).getD 0)) (s.withPart []) := by
  simp only [State.accessed, if_neg h]
  rw [if_pos (by simpa [List.all_eq_true] using ha)]

/-- An unaligned access of which a byte is left waits, and keeps what it has accessed. -/
theorem State.accessed_waits (s : State) (e n : Nat) (bs : List Byte) (k : List Byte → State → Res) (j : Nat)
    (h : e % n ≠ 0) (hj : j < n) (hn : tget (s.partWith bs (s.bytesOf e n)) j = none) :
    s.accessed e n bs k = .wait false (s.withPart (s.partWith bs (s.bytesOf e n))) := by
  simp only [State.accessed, if_neg h]
  rw [if_neg]
  intro hh
  have h1 := List.all_eq_true.1 hh j (by simpa using hj)
  simp [hn] at h1

/-- The pieces of a range lie in it. -/
theorem pieces_within (m fuel a n : Nat) (q : Nat × Nat) (hq : q ∈ pieces m fuel a n) : a ≤ q.1 ∧ q.1 + q.2 ≤ a + n := by
  induction fuel generalizing a n with
  | zero => simp [pieces] at hq
  | succ f ih =>
    simp only [pieces] at hq
    split at hq
    · simp at hq
    · rcases List.mem_cons.1 hq with rfl | hq
      · simp
      · have := ih _ _ hq
        omega

/-- A fold leaves a byte of device memory where its steps do. -/
theorem State.memByte_foldl {β : Type} (f : State → β → State) (l : List β) (x : Nat)
    (h : ∀ s, ∀ b ∈ l, (f s b).memByte x = s.memByte x) (s : State) : (l.foldl f s).memByte x = s.memByte x := by
  induction l generalizing s with
  | nil => rfl
  | cons b r ih =>
    simp only [List.foldl_cons]
    rw [ih (fun s b hb => h s b (List.mem_cons_of_mem _ hb)), h _ _ (List.mem_cons_self ..)]

/-- A write within a granule leaves the bytes of device memory outside its range. -/
theorem State.memByte_writePiece (s : State) (kind : PageKind) (pa : Nat) (bs : List Byte) (w : Nat) (l : Level) (t x : Nat)
    (h : x < pa ∨ pa + bs.length ≤ x) : (s.writePiece kind pa bs w l t).memByte x = s.memByte x := by
  simp only [State.memByte, State.writePiece_mem]
  split
  · rfl
  · exact sget_ssetList_other _ _ _ _ _ h

/-- Logging an event changes no device memory. -/
theorem State.mem_logEvent (s : State) (t : EventType) (tenant core : Nat) (l : Level) (a d : Word) :
    (s.logEvent t tenant core l a d).mem = s.mem := by
  have h : ∀ (s u : State) (base : Nat) (tail : Word) (ws : List Word), s.ringPut base tail ws = some u →
      u.mem = s.mem := by
    intro s u base tail ws hu
    simp only [State.ringPut] at hu
    split at hu
    · cases hu
    · cases hu; rfl
  unfold State.logEvent
  split
  · rfl
  · simp only
    split
    · rename_i s1 h1; exact h _ _ _ _ _ h1
    · split
      · rename_i s1 h1; have := h _ _ _ _ _ h1; rw [this]
      · rw [show ∀ (s : State) pa bs, (s.hostWrite pa bs).mem = s.mem from fun _ _ _ => rfl]

/-- A write within a block leaves the bytes of device memory outside its range. -/
theorem State.memByte_writeBlock (s : State) (kind : PageKind) (pa : Nat) (bs : List Byte) (w : Nat) (l : Level) (t x : Nat)
    (h : x < pa ∨ pa + bs.length ≤ x) : (s.writeBlock kind pa bs w l t).memByte x = s.memByte x := by
  simp only [State.writeBlock]
  split
  · simp only [State.memByte, State.lostWrite, State.mem_logEvent]
  · refine State.memByte_foldl
      (fun (s : State) (q : Nat × Nat) => s.writePiece kind q.1 ((bs.drop (q.1 - pa)).take q.2) w l t) _ _ ?_ s
    intro s q hq
    have h1 := pieces_within 64 _ _ _ q hq
    have h2 : ((bs.drop (q.1 - pa)).take q.2).length ≤ q.2 := by simp
    exact State.memByte_writePiece _ _ _ _ _ _ _ _ (by omega)

/-- A write to one copy leaves the bytes of device memory outside its range. -/
theorem State.memByte_writeCopy (s : State) (kind : PageKind) (pa : Nat) (bs : List Byte) (w : Nat) (l : Level) (t x : Nat)
    (h : x < pa ∨ pa + bs.length ≤ x) : (s.writeCopy kind pa bs w l t).memByte x = s.memByte x := by
  refine State.memByte_foldl
    (fun (s : State) (q : Nat × Nat) => s.writeBlock kind q.1 ((bs.drop (q.1 - pa)).take q.2) w l t) _ _ ?_ s
  intro s q hq
  have h1 := pieces_within 4096 _ _ _ q hq
  have h2 : ((bs.drop (q.1 - pa)).take q.2).length ≤ q.2 := by simp
  exact State.memByte_writeBlock _ _ _ _ _ _ _ _ (by omega)

/-- A multicast writes no memory in the step that sends it. -/
theorem State.memByte_multicast (s : State) (pl : Place) (bs : List Byte) (part : Option (Nat × Nat)) (w : Who) (l : Level)
    (x : Nat) : (s.multicast pl bs part w l).memByte x = s.memByte x :=
  State.memByte_foldl (fun (s : State) pa => s.sendPacket w l part bs pa) _ _ (fun _ _ _ => rfl) s

end Sys2Proof.Machine
end

