-- ==== Sys2Proof/Laws/Fields.lean ====
section
/-! SUPPORT. The fields of a parcel that is put together from its fields, one lemma a layout (03_encoding R44, R45).
-/

namespace Sys2Proof.Laws

set_option linter.unusedSimpArgs false

/-- A field below the seam of two parts. -/
theorem field_low {v w : Nat} (lo k : Nat) (hi : BitVec v) (l : BitVec w) (h : lo + k ≤ w) :
    field lo k (hi ++ l) = field lo k l := BitVec.extractLsb'_append_eq_of_add_le h

/-- A field above the seam of two parts. -/
theorem field_high {v w : Nat} (lo k : Nat) (hi : BitVec v) (l : BitVec w) (h : w ≤ lo) :
    field lo k (hi ++ l) = field (lo - w) k hi := BitVec.extractLsb'_append_eq_of_le h

/-- A field that is the whole. -/
theorem field_whole {w : Nat} (x : BitVec w) : field 0 w x = x := BitVec.extractLsb'_eq_self

/-- The layout 29-3. -/
theorem fields_29_3 (x0 : BitVec 29) (x1 : BitVec 3) :
    field 3 29 (x0 ++ x1 : BitVec 32) = x0 ∧
    field 0 3 (x0 ++ x1 : BitVec 32) = x1 := by
  refine ⟨?_, ?_⟩
  · show @field (29 + 3) 3 29 _ = _
    simp (disch := decide) only [field_low, field_high]
    exact field_whole _
  · show @field (29 + 3) 0 3 _ = _
    simp (disch := decide) only [field_low, field_high]
    exact field_whole _

/-- The layout 24-6-2. -/
theorem fields_24_6_2 (x0 : BitVec 24) (x1 : BitVec 6) (x2 : BitVec 2) :
    field 8 24 (x0 ++ x1 ++ x2 : BitVec 32) = x0 ∧
    field 2 6 (x0 ++ x1 ++ x2 : BitVec 32) = x1 ∧
    field 0 2 (x0 ++ x1 ++ x2 : BitVec 32) = x2 := by
  refine ⟨?_, ?_, ?_⟩
  · show @field (24 + 6 + 2) 8 24 _ = _
    simp (disch := decide) only [field_low, field_high]
    exact field_whole _
  · show @field (24 + 6 + 2) 2 6 _ = _
    simp (disch := decide) only [field_low, field_high]
    exact field_whole _
  · show @field (24 + 6 + 2) 0 2 _ = _
    simp (disch := decide) only [field_low, field_high]
    exact field_whole _

/-- The layout 22-7-3. -/
theorem fields_22_7_3 (x0 : BitVec 22) (x1 : BitVec 7) (x2 : BitVec 3) :
    field 10 22 (x0 ++ x1 ++ x2 : BitVec 32) = x0 ∧
    field 3 7 (x0 ++ x1 ++ x2 : BitVec 32) = x1 ∧
    field 0 3 (x0 ++ x1 ++ x2 : BitVec 32) = x2 := by
  refine ⟨?_, ?_, ?_⟩
  · show @field (22 + 7 + 3) 10 22 _ = _
    simp (disch := decide) only [field_low, field_high]
    exact field_whole _
  · show @field (22 + 7 + 3) 3 7 _ = _
    simp (disch := decide) only [field_low, field_high]
    exact field_whole _
  · show @field (22 + 7 + 3) 0 3 _ = _
    simp (disch := decide) only [field_low, field_high]
    exact field_whole _

/-- The layout 19-7-6. -/
theorem fields_19_7_6 (x0 : BitVec 19) (x1 : BitVec 7) (x2 : BitVec 6) :
    field 13 19 (x0 ++ x1 ++ x2 : BitVec 32) = x0 ∧
    field 6 7 (x0 ++ x1 ++ x2 : BitVec 32) = x1 ∧
    field 0 6 (x0 ++ x1 ++ x2 : BitVec 32) = x2 := by
  refine ⟨?_, ?_, ?_⟩
  · show @field (19 + 7 + 6) 13 19 _ = _
    simp (disch := decide) only [field_low, field_high]
    exact field_whole _
  · show @field (19 + 7 + 6) 6 7 _ = _
    simp (disch := decide) only [field_low, field_high]
    exact field_whole _
  · show @field (19 + 7 + 6) 0 6 _ = _
    simp (disch := decide) only [field_low, field_high]
    exact field_whole _

/-- The layout 19-5-6-2. -/
theorem fields_19_5_6_2 (x0 : BitVec 19) (x1 : BitVec 5) (x2 : BitVec 6) (x3 : BitVec 2) :
    field 13 19 (x0 ++ x1 ++ x2 ++ x3 : BitVec 32) = x0 ∧
    field 8 5 (x0 ++ x1 ++ x2 ++ x3 : BitVec 32) = x1 ∧
    field 2 6 (x0 ++ x1 ++ x2 ++ x3 : BitVec 32) = x2 ∧
    field 0 2 (x0 ++ x1 ++ x2 ++ x3 : BitVec 32) = x3 := by
  refine ⟨?_, ?_, ?_, ?_⟩
  · show @field (19 + 5 + 6 + 2) 13 19 _ = _
    simp (disch := decide) only [field_low, field_high]
    exact field_whole _
  · show @field (19 + 5 + 6 + 2) 8 5 _ = _
    simp (disch := decide) only [field_low, field_high]
    exact field_whole _
  · show @field (19 + 5 + 6 + 2) 2 6 _ = _
    simp (disch := decide) only [field_low, field_high]
    exact field_whole _
  · show @field (19 + 5 + 6 + 2) 0 2 _ = _
    simp (disch := decide) only [field_low, field_high]
    exact field_whole _

/-- The layout 18-1-3-5-5. -/
theorem fields_18_1_3_5_5 (x0 : BitVec 18) (x1 : BitVec 1) (x2 : BitVec 3) (x3 : BitVec 5) (x4 : BitVec 5) :
    field 14 18 (x0 ++ x1 ++ x2 ++ x3 ++ x4 : BitVec 32) = x0 ∧
    field 13 1 (x0 ++ x1 ++ x2 ++ x3 ++ x4 : BitVec 32) = x1 ∧
    field 10 3 (x0 ++ x1 ++ x2 ++ x3 ++ x4 : BitVec 32) = x2 ∧
    field 5 5 (x0 ++ x1 ++ x2 ++ x3 ++ x4 : BitVec 32) = x3 ∧
    field 0 5 (x0 ++ x1 ++ x2 ++ x3 ++ x4 : BitVec 32) = x4 := by
  refine ⟨?_, ?_, ?_, ?_, ?_⟩
  · show @field (18 + 1 + 3 + 5 + 5) 14 18 _ = _
    simp (disch := decide) only [field_low, field_high]
    exact field_whole _
  · show @field (18 + 1 + 3 + 5 + 5) 13 1 _ = _
    simp (disch := decide) only [field_low, field_high]
    exact field_whole _
  · show @field (18 + 1 + 3 + 5 + 5) 10 3 _ = _
    simp (disch := decide) only [field_low, field_high]
    exact field_whole _
  · show @field (18 + 1 + 3 + 5 + 5) 5 5 _ = _
    simp (disch := decide) only [field_low, field_high]
    exact field_whole _
  · show @field (18 + 1 + 3 + 5 + 5) 0 5 _ = _
    simp (disch := decide) only [field_low, field_high]
    exact field_whole _

/-- The layout 16-16. -/
theorem fields_16_16 (x0 : BitVec 16) (x1 : BitVec 16) :
    field 16 16 (x0 ++ x1 : BitVec 32) = x0 ∧
    field 0 16 (x0 ++ x1 : BitVec 32) = x1 := by
  refine ⟨?_, ?_⟩
  · show @field (16 + 16) 16 16 _ = _
    simp (disch := decide) only [field_low, field_high]
    exact field_whole _
  · show @field (16 + 16) 0 16 _ = _
    simp (disch := decide) only [field_low, field_high]
    exact field_whole _

/-- The layout 15-1-2-1-3-5-5. -/
theorem fields_15_1_2_1_3_5_5 (x0 : BitVec 15) (x1 : BitVec 1) (x2 : BitVec 2) (x3 : BitVec 1) (x4 : BitVec 3) (x5 : BitVec 5) (x6 : BitVec 5) :
    field 17 15 (x0 ++ x1 ++ x2 ++ x3 ++ x4 ++ x5 ++ x6 : BitVec 32) = x0 ∧
    field 16 1 (x0 ++ x1 ++ x2 ++ x3 ++ x4 ++ x5 ++ x6 : BitVec 32) = x1 ∧
    field 14 2 (x0 ++ x1 ++ x2 ++ x3 ++ x4 ++ x5 ++ x6 : BitVec 32) = x2 ∧
    field 13 1 (x0 ++ x1 ++ x2 ++ x3 ++ x4 ++ x5 ++ x6 : BitVec 32) = x3 ∧
    field 10 3 (x0 ++ x1 ++ x2 ++ x3 ++ x4 ++ x5 ++ x6 : BitVec 32) = x4 ∧
    field 5 5 (x0 ++ x1 ++ x2 ++ x3 ++ x4 ++ x5 ++ x6 : BitVec 32) = x5 ∧
    field 0 5 (x0 ++ x1 ++ x2 ++ x3 ++ x4 ++ x5 ++ x6 : BitVec 32) = x6 := by
  refine ⟨?_, ?_, ?_, ?_, ?_, ?_, ?_⟩
  · show @field (15 + 1 + 2 + 1 + 3 + 5 + 5) 17 15 _ = _
    simp (disch := decide) only [field_low, field_high]
    exact field_whole _
  · show @field (15 + 1 + 2 + 1 + 3 + 5 + 5) 16 1 _ = _
    simp (disch := decide) only [field_low, field_high]
    exact field_whole _
  · show @field (15 + 1 + 2 + 1 + 3 + 5 + 5) 14 2 _ = _
    simp (disch := decide) only [field_low, field_high]
    exact field_whole _
  · show @field (15 + 1 + 2 + 1 + 3 + 5 + 5) 13 1 _ = _
    simp (disch := decide) only [field_low, field_high]
    exact field_whole _
  · show @field (15 + 1 + 2 + 1 + 3 + 5 + 5) 10 3 _ = _
    simp (disch := decide) only [field_low, field_high]
    exact field_whole _
  · show @field (15 + 1 + 2 + 1 + 3 + 5 + 5) 5 5 _ = _
    simp (disch := decide) only [field_low, field_high]
    exact field_whole _
  · show @field (15 + 1 + 2 + 1 + 3 + 5 + 5) 0 5 _ = _
    simp (disch := decide) only [field_low, field_high]
    exact field_whole _

/-- The layout 14-5-5-6-2. -/
theorem fields_14_5_5_6_2 (x0 : BitVec 14) (x1 : BitVec 5) (x2 : BitVec 5) (x3 : BitVec 6) (x4 : BitVec 2) :
    field 18 14 (x0 ++ x1 ++ x2 ++ x3 ++ x4 : BitVec 32) = x0 ∧
    field 13 5 (x0 ++ x1 ++ x2 ++ x3 ++ x4 : BitVec 32) = x1 ∧
    field 8 5 (x0 ++ x1 ++ x2 ++ x3 ++ x4 : BitVec 32) = x2 ∧
    field 2 6 (x0 ++ x1 ++ x2 ++ x3 ++ x4 : BitVec 32) = x3 ∧
    field 0 2 (x0 ++ x1 ++ x2 ++ x3 ++ x4 : BitVec 32) = x4 := by
  refine ⟨?_, ?_, ?_, ?_, ?_⟩
  · show @field (14 + 5 + 5 + 6 + 2) 18 14 _ = _
    simp (disch := decide) only [field_low, field_high]
    exact field_whole _
  · show @field (14 + 5 + 5 + 6 + 2) 13 5 _ = _
    simp (disch := decide) only [field_low, field_high]
    exact field_whole _
  · show @field (14 + 5 + 5 + 6 + 2) 8 5 _ = _
    simp (disch := decide) only [field_low, field_high]
    exact field_whole _
  · show @field (14 + 5 + 5 + 6 + 2) 2 6 _ = _
    simp (disch := decide) only [field_low, field_high]
    exact field_whole _
  · show @field (14 + 5 + 5 + 6 + 2) 0 2 _ = _
    simp (disch := decide) only [field_low, field_high]
    exact field_whole _

/-- The layout 14-5-2-3-6-2. -/
theorem fields_14_5_2_3_6_2 (x0 : BitVec 14) (x1 : BitVec 5) (x2 : BitVec 2) (x3 : BitVec 3) (x4 : BitVec 6) (x5 : BitVec 2) :
    field 18 14 (x0 ++ x1 ++ x2 ++ x3 ++ x4 ++ x5 : BitVec 32) = x0 ∧
    field 13 5 (x0 ++ x1 ++ x2 ++ x3 ++ x4 ++ x5 : BitVec 32) = x1 ∧
    field 11 2 (x0 ++ x1 ++ x2 ++ x3 ++ x4 ++ x5 : BitVec 32) = x2 ∧
    field 8 3 (x0 ++ x1 ++ x2 ++ x3 ++ x4 ++ x5 : BitVec 32) = x3 ∧
    field 2 6 (x0 ++ x1 ++ x2 ++ x3 ++ x4 ++ x5 : BitVec 32) = x4 ∧
    field 0 2 (x0 ++ x1 ++ x2 ++ x3 ++ x4 ++ x5 : BitVec 32) = x5 := by
  refine ⟨?_, ?_, ?_, ?_, ?_, ?_⟩
  · show @field (14 + 5 + 2 + 3 + 6 + 2) 18 14 _ = _
    simp (disch := decide) only [field_low, field_high]
    exact field_whole _
  · show @field (14 + 5 + 2 + 3 + 6 + 2) 13 5 _ = _
    simp (disch := decide) only [field_low, field_high]
    exact field_whole _
  · show @field (14 + 5 + 2 + 3 + 6 + 2) 11 2 _ = _
    simp (disch := decide) only [field_low, field_high]
    exact field_whole _
  · show @field (14 + 5 + 2 + 3 + 6 + 2) 8 3 _ = _
    simp (disch := decide) only [field_low, field_high]
    exact field_whole _
  · show @field (14 + 5 + 2 + 3 + 6 + 2) 2 6 _ = _
    simp (disch := decide) only [field_low, field_high]
    exact field_whole _
  · show @field (14 + 5 + 2 + 3 + 6 + 2) 0 2 _ = _
    simp (disch := decide) only [field_low, field_high]
    exact field_whole _

/-- The layout 12-2-5-5-6-2. -/
theorem fields_12_2_5_5_6_2 (x0 : BitVec 12) (x1 : BitVec 2) (x2 : BitVec 5) (x3 : BitVec 5) (x4 : BitVec 6) (x5 : BitVec 2) :
    field 20 12 (x0 ++ x1 ++ x2 ++ x3 ++ x4 ++ x5 : BitVec 32) = x0 ∧
    field 18 2 (x0 ++ x1 ++ x2 ++ x3 ++ x4 ++ x5 : BitVec 32) = x1 ∧
    field 13 5 (x0 ++ x1 ++ x2 ++ x3 ++ x4 ++ x5 : BitVec 32) = x2 ∧
    field 8 5 (x0 ++ x1 ++ x2 ++ x3 ++ x4 ++ x5 : BitVec 32) = x3 ∧
    field 2 6 (x0 ++ x1 ++ x2 ++ x3 ++ x4 ++ x5 : BitVec 32) = x4 ∧
    field 0 2 (x0 ++ x1 ++ x2 ++ x3 ++ x4 ++ x5 : BitVec 32) = x5 := by
  refine ⟨?_, ?_, ?_, ?_, ?_, ?_⟩
  · show @field (12 + 2 + 5 + 5 + 6 + 2) 20 12 _ = _
    simp (disch := decide) only [field_low, field_high]
    exact field_whole _
  · show @field (12 + 2 + 5 + 5 + 6 + 2) 18 2 _ = _
    simp (disch := decide) only [field_low, field_high]
    exact field_whole _
  · show @field (12 + 2 + 5 + 5 + 6 + 2) 13 5 _ = _
    simp (disch := decide) only [field_low, field_high]
    exact field_whole _
  · show @field (12 + 2 + 5 + 5 + 6 + 2) 8 5 _ = _
    simp (disch := decide) only [field_low, field_high]
    exact field_whole _
  · show @field (12 + 2 + 5 + 5 + 6 + 2) 2 6 _ = _
    simp (disch := decide) only [field_low, field_high]
    exact field_whole _
  · show @field (12 + 2 + 5 + 5 + 6 + 2) 0 2 _ = _
    simp (disch := decide) only [field_low, field_high]
    exact field_whole _

/-- The layout 12-2-1-3-1-3-5-5. -/
theorem fields_12_2_1_3_1_3_5_5 (x0 : BitVec 12) (x1 : BitVec 2) (x2 : BitVec 1) (x3 : BitVec 3) (x4 : BitVec 1) (x5 : BitVec 3) (x6 : BitVec 5) (x7 : BitVec 5) :
    field 20 12 (x0 ++ x1 ++ x2 ++ x3 ++ x4 ++ x5 ++ x6 ++ x7 : BitVec 32) = x0 ∧
    field 18 2 (x0 ++ x1 ++ x2 ++ x3 ++ x4 ++ x5 ++ x6 ++ x7 : BitVec 32) = x1 ∧
    field 17 1 (x0 ++ x1 ++ x2 ++ x3 ++ x4 ++ x5 ++ x6 ++ x7 : BitVec 32) = x2 ∧
    field 14 3 (x0 ++ x1 ++ x2 ++ x3 ++ x4 ++ x5 ++ x6 ++ x7 : BitVec 32) = x3 ∧
    field 13 1 (x0 ++ x1 ++ x2 ++ x3 ++ x4 ++ x5 ++ x6 ++ x7 : BitVec 32) = x4 ∧
    field 10 3 (x0 ++ x1 ++ x2 ++ x3 ++ x4 ++ x5 ++ x6 ++ x7 : BitVec 32) = x5 ∧
    field 5 5 (x0 ++ x1 ++ x2 ++ x3 ++ x4 ++ x5 ++ x6 ++ x7 : BitVec 32) = x6 ∧
    field 0 5 (x0 ++ x1 ++ x2 ++ x3 ++ x4 ++ x5 ++ x6 ++ x7 : BitVec 32) = x7 := by
  refine ⟨?_, ?_, ?_, ?_, ?_, ?_, ?_, ?_⟩
  · show @field (12 + 2 + 1 + 3 + 1 + 3 + 5 + 5) 20 12 _ = _
    simp (disch := decide) only [field_low, field_high]
    exact field_whole _
  · show @field (12 + 2 + 1 + 3 + 1 + 3 + 5 + 5) 18 2 _ = _
    simp (disch := decide) only [field_low, field_high]
    exact field_whole _
  · show @field (12 + 2 + 1 + 3 + 1 + 3 + 5 + 5) 17 1 _ = _
    simp (disch := decide) only [field_low, field_high]
    exact field_whole _
  · show @field (12 + 2 + 1 + 3 + 1 + 3 + 5 + 5) 14 3 _ = _
    simp (disch := decide) only [field_low, field_high]
    exact field_whole _
  · show @field (12 + 2 + 1 + 3 + 1 + 3 + 5 + 5) 13 1 _ = _
    simp (disch := decide) only [field_low, field_high]
    exact field_whole _
  · show @field (12 + 2 + 1 + 3 + 1 + 3 + 5 + 5) 10 3 _ = _
    simp (disch := decide) only [field_low, field_high]
    exact field_whole _
  · show @field (12 + 2 + 1 + 3 + 1 + 3 + 5 + 5) 5 5 _ = _
    simp (disch := decide) only [field_low, field_high]
    exact field_whole _
  · show @field (12 + 2 + 1 + 3 + 1 + 3 + 5 + 5) 0 5 _ = _
    simp (disch := decide) only [field_low, field_high]
    exact field_whole _

/-- The layout 11-3-5-5-6-2. -/
theorem fields_11_3_5_5_6_2 (x0 : BitVec 11) (x1 : BitVec 3) (x2 : BitVec 5) (x3 : BitVec 5) (x4 : BitVec 6) (x5 : BitVec 2) :
    field 21 11 (x0 ++ x1 ++ x2 ++ x3 ++ x4 ++ x5 : BitVec 32) = x0 ∧
    field 18 3 (x0 ++ x1 ++ x2 ++ x3 ++ x4 ++ x5 : BitVec 32) = x1 ∧
    field 13 5 (x0 ++ x1 ++ x2 ++ x3 ++ x4 ++ x5 : BitVec 32) = x2 ∧
    field 8 5 (x0 ++ x1 ++ x2 ++ x3 ++ x4 ++ x5 : BitVec 32) = x3 ∧
    field 2 6 (x0 ++ x1 ++ x2 ++ x3 ++ x4 ++ x5 : BitVec 32) = x4 ∧
    field 0 2 (x0 ++ x1 ++ x2 ++ x3 ++ x4 ++ x5 : BitVec 32) = x5 := by
  refine ⟨?_, ?_, ?_, ?_, ?_, ?_⟩
  · show @field (11 + 3 + 5 + 5 + 6 + 2) 21 11 _ = _
    simp (disch := decide) only [field_low, field_high]
    exact field_whole _
  · show @field (11 + 3 + 5 + 5 + 6 + 2) 18 3 _ = _
    simp (disch := decide) only [field_low, field_high]
    exact field_whole _
  · show @field (11 + 3 + 5 + 5 + 6 + 2) 13 5 _ = _
    simp (disch := decide) only [field_low, field_high]
    exact field_whole _
  · show @field (11 + 3 + 5 + 5 + 6 + 2) 8 5 _ = _
    simp (disch := decide) only [field_low, field_high]
    exact field_whole _
  · show @field (11 + 3 + 5 + 5 + 6 + 2) 2 6 _ = _
    simp (disch := decide) only [field_low, field_high]
    exact field_whole _
  · show @field (11 + 3 + 5 + 5 + 6 + 2) 0 2 _ = _
    simp (disch := decide) only [field_low, field_high]
    exact field_whole _

/-- The layout 10-5-5-4-4-2-2. -/
theorem fields_10_5_5_4_4_2_2 (x0 : BitVec 10) (x1 : BitVec 5) (x2 : BitVec 5) (x3 : BitVec 4) (x4 : BitVec 4) (x5 : BitVec 2) (x6 : BitVec 2) :
    field 22 10 (x0 ++ x1 ++ x2 ++ x3 ++ x4 ++ x5 ++ x6 : BitVec 32) = x0 ∧
    field 17 5 (x0 ++ x1 ++ x2 ++ x3 ++ x4 ++ x5 ++ x6 : BitVec 32) = x1 ∧
    field 12 5 (x0 ++ x1 ++ x2 ++ x3 ++ x4 ++ x5 ++ x6 : BitVec 32) = x2 ∧
    field 8 4 (x0 ++ x1 ++ x2 ++ x3 ++ x4 ++ x5 ++ x6 : BitVec 32) = x3 ∧
    field 4 4 (x0 ++ x1 ++ x2 ++ x3 ++ x4 ++ x5 ++ x6 : BitVec 32) = x4 ∧
    field 2 2 (x0 ++ x1 ++ x2 ++ x3 ++ x4 ++ x5 ++ x6 : BitVec 32) = x5 ∧
    field 0 2 (x0 ++ x1 ++ x2 ++ x3 ++ x4 ++ x5 ++ x6 : BitVec 32) = x6 := by
  refine ⟨?_, ?_, ?_, ?_, ?_, ?_, ?_⟩
  · show @field (10 + 5 + 5 + 4 + 4 + 2 + 2) 22 10 _ = _
    simp (disch := decide) only [field_low, field_high]
    exact field_whole _
  · show @field (10 + 5 + 5 + 4 + 4 + 2 + 2) 17 5 _ = _
    simp (disch := decide) only [field_low, field_high]
    exact field_whole _
  · show @field (10 + 5 + 5 + 4 + 4 + 2 + 2) 12 5 _ = _
    simp (disch := decide) only [field_low, field_high]
    exact field_whole _
  · show @field (10 + 5 + 5 + 4 + 4 + 2 + 2) 8 4 _ = _
    simp (disch := decide) only [field_low, field_high]
    exact field_whole _
  · show @field (10 + 5 + 5 + 4 + 4 + 2 + 2) 4 4 _ = _
    simp (disch := decide) only [field_low, field_high]
    exact field_whole _
  · show @field (10 + 5 + 5 + 4 + 4 + 2 + 2) 2 2 _ = _
    simp (disch := decide) only [field_low, field_high]
    exact field_whole _
  · show @field (10 + 5 + 5 + 4 + 4 + 2 + 2) 0 2 _ = _
    simp (disch := decide) only [field_low, field_high]
    exact field_whole _

/-- The layout 9-5-5-5-6-2. -/
theorem fields_9_5_5_5_6_2 (x0 : BitVec 9) (x1 : BitVec 5) (x2 : BitVec 5) (x3 : BitVec 5) (x4 : BitVec 6) (x5 : BitVec 2) :
    field 23 9 (x0 ++ x1 ++ x2 ++ x3 ++ x4 ++ x5 : BitVec 32) = x0 ∧
    field 18 5 (x0 ++ x1 ++ x2 ++ x3 ++ x4 ++ x5 : BitVec 32) = x1 ∧
    field 13 5 (x0 ++ x1 ++ x2 ++ x3 ++ x4 ++ x5 : BitVec 32) = x2 ∧
    field 8 5 (x0 ++ x1 ++ x2 ++ x3 ++ x4 ++ x5 : BitVec 32) = x3 ∧
    field 2 6 (x0 ++ x1 ++ x2 ++ x3 ++ x4 ++ x5 : BitVec 32) = x4 ∧
    field 0 2 (x0 ++ x1 ++ x2 ++ x3 ++ x4 ++ x5 : BitVec 32) = x5 := by
  refine ⟨?_, ?_, ?_, ?_, ?_, ?_⟩
  · show @field (9 + 5 + 5 + 5 + 6 + 2) 23 9 _ = _
    simp (disch := decide) only [field_low, field_high]
    exact field_whole _
  · show @field (9 + 5 + 5 + 5 + 6 + 2) 18 5 _ = _
    simp (disch := decide) only [field_low, field_high]
    exact field_whole _
  · show @field (9 + 5 + 5 + 5 + 6 + 2) 13 5 _ = _
    simp (disch := decide) only [field_low, field_high]
    exact field_whole _
  · show @field (9 + 5 + 5 + 5 + 6 + 2) 8 5 _ = _
    simp (disch := decide) only [field_low, field_high]
    exact field_whole _
  · show @field (9 + 5 + 5 + 5 + 6 + 2) 2 6 _ = _
    simp (disch := decide) only [field_low, field_high]
    exact field_whole _
  · show @field (9 + 5 + 5 + 5 + 6 + 2) 0 2 _ = _
    simp (disch := decide) only [field_low, field_high]
    exact field_whole _

/-- The layout 7-5-2-4-1-3-5-5. -/
theorem fields_7_5_2_4_1_3_5_5 (x0 : BitVec 7) (x1 : BitVec 5) (x2 : BitVec 2) (x3 : BitVec 4) (x4 : BitVec 1) (x5 : BitVec 3) (x6 : BitVec 5) (x7 : BitVec 5) :
    field 25 7 (x0 ++ x1 ++ x2 ++ x3 ++ x4 ++ x5 ++ x6 ++ x7 : BitVec 32) = x0 ∧
    field 20 5 (x0 ++ x1 ++ x2 ++ x3 ++ x4 ++ x5 ++ x6 ++ x7 : BitVec 32) = x1 ∧
    field 18 2 (x0 ++ x1 ++ x2 ++ x3 ++ x4 ++ x5 ++ x6 ++ x7 : BitVec 32) = x2 ∧
    field 14 4 (x0 ++ x1 ++ x2 ++ x3 ++ x4 ++ x5 ++ x6 ++ x7 : BitVec 32) = x3 ∧
    field 13 1 (x0 ++ x1 ++ x2 ++ x3 ++ x4 ++ x5 ++ x6 ++ x7 : BitVec 32) = x4 ∧
    field 10 3 (x0 ++ x1 ++ x2 ++ x3 ++ x4 ++ x5 ++ x6 ++ x7 : BitVec 32) = x5 ∧
    field 5 5 (x0 ++ x1 ++ x2 ++ x3 ++ x4 ++ x5 ++ x6 ++ x7 : BitVec 32) = x6 ∧
    field 0 5 (x0 ++ x1 ++ x2 ++ x3 ++ x4 ++ x5 ++ x6 ++ x7 : BitVec 32) = x7 := by
  refine ⟨?_, ?_, ?_, ?_, ?_, ?_, ?_, ?_⟩
  · show @field (7 + 5 + 2 + 4 + 1 + 3 + 5 + 5) 25 7 _ = _
    simp (disch := decide) only [field_low, field_high]
    exact field_whole _
  · show @field (7 + 5 + 2 + 4 + 1 + 3 + 5 + 5) 20 5 _ = _
    simp (disch := decide) only [field_low, field_high]
    exact field_whole _
  · show @field (7 + 5 + 2 + 4 + 1 + 3 + 5 + 5) 18 2 _ = _
    simp (disch := decide) only [field_low, field_high]
    exact field_whole _
  · show @field (7 + 5 + 2 + 4 + 1 + 3 + 5 + 5) 14 4 _ = _
    simp (disch := decide) only [field_low, field_high]
    exact field_whole _
  · show @field (7 + 5 + 2 + 4 + 1 + 3 + 5 + 5) 13 1 _ = _
    simp (disch := decide) only [field_low, field_high]
    exact field_whole _
  · show @field (7 + 5 + 2 + 4 + 1 + 3 + 5 + 5) 10 3 _ = _
    simp (disch := decide) only [field_low, field_high]
    exact field_whole _
  · show @field (7 + 5 + 2 + 4 + 1 + 3 + 5 + 5) 5 5 _ = _
    simp (disch := decide) only [field_low, field_high]
    exact field_whole _
  · show @field (7 + 5 + 2 + 4 + 1 + 3 + 5 + 5) 0 5 _ = _
    simp (disch := decide) only [field_low, field_high]
    exact field_whole _

/-- The layout 7-1-3-2-6-5-6-2. -/
theorem fields_7_1_3_2_6_5_6_2 (x0 : BitVec 7) (x1 : BitVec 1) (x2 : BitVec 3) (x3 : BitVec 2) (x4 : BitVec 6) (x5 : BitVec 5) (x6 : BitVec 6) (x7 : BitVec 2) :
    field 25 7 (x0 ++ x1 ++ x2 ++ x3 ++ x4 ++ x5 ++ x6 ++ x7 : BitVec 32) = x0 ∧
    field 24 1 (x0 ++ x1 ++ x2 ++ x3 ++ x4 ++ x5 ++ x6 ++ x7 : BitVec 32) = x1 ∧
    field 21 3 (x0 ++ x1 ++ x2 ++ x3 ++ x4 ++ x5 ++ x6 ++ x7 : BitVec 32) = x2 ∧
    field 19 2 (x0 ++ x1 ++ x2 ++ x3 ++ x4 ++ x5 ++ x6 ++ x7 : BitVec 32) = x3 ∧
    field 13 6 (x0 ++ x1 ++ x2 ++ x3 ++ x4 ++ x5 ++ x6 ++ x7 : BitVec 32) = x4 ∧
    field 8 5 (x0 ++ x1 ++ x2 ++ x3 ++ x4 ++ x5 ++ x6 ++ x7 : BitVec 32) = x5 ∧
    field 2 6 (x0 ++ x1 ++ x2 ++ x3 ++ x4 ++ x5 ++ x6 ++ x7 : BitVec 32) = x6 ∧
    field 0 2 (x0 ++ x1 ++ x2 ++ x3 ++ x4 ++ x5 ++ x6 ++ x7 : BitVec 32) = x7 := by
  refine ⟨?_, ?_, ?_, ?_, ?_, ?_, ?_, ?_⟩
  · show @field (7 + 1 + 3 + 2 + 6 + 5 + 6 + 2) 25 7 _ = _
    simp (disch := decide) only [field_low, field_high]
    exact field_whole _
  · show @field (7 + 1 + 3 + 2 + 6 + 5 + 6 + 2) 24 1 _ = _
    simp (disch := decide) only [field_low, field_high]
    exact field_whole _
  · show @field (7 + 1 + 3 + 2 + 6 + 5 + 6 + 2) 21 3 _ = _
    simp (disch := decide) only [field_low, field_high]
    exact field_whole _
  · show @field (7 + 1 + 3 + 2 + 6 + 5 + 6 + 2) 19 2 _ = _
    simp (disch := decide) only [field_low, field_high]
    exact field_whole _
  · show @field (7 + 1 + 3 + 2 + 6 + 5 + 6 + 2) 13 6 _ = _
    simp (disch := decide) only [field_low, field_high]
    exact field_whole _
  · show @field (7 + 1 + 3 + 2 + 6 + 5 + 6 + 2) 8 5 _ = _
    simp (disch := decide) only [field_low, field_high]
    exact field_whole _
  · show @field (7 + 1 + 3 + 2 + 6 + 5 + 6 + 2) 2 6 _ = _
    simp (disch := decide) only [field_low, field_high]
    exact field_whole _
  · show @field (7 + 1 + 3 + 2 + 6 + 5 + 6 + 2) 0 2 _ = _
    simp (disch := decide) only [field_low, field_high]
    exact field_whole _

/-- The layout 6-2-6-5-5-6-2. -/
theorem fields_6_2_6_5_5_6_2 (x0 : BitVec 6) (x1 : BitVec 2) (x2 : BitVec 6) (x3 : BitVec 5) (x4 : BitVec 5) (x5 : BitVec 6) (x6 : BitVec 2) :
    field 26 6 (x0 ++ x1 ++ x2 ++ x3 ++ x4 ++ x5 ++ x6 : BitVec 32) = x0 ∧
    field 24 2 (x0 ++ x1 ++ x2 ++ x3 ++ x4 ++ x5 ++ x6 : BitVec 32) = x1 ∧
    field 18 6 (x0 ++ x1 ++ x2 ++ x3 ++ x4 ++ x5 ++ x6 : BitVec 32) = x2 ∧
    field 13 5 (x0 ++ x1 ++ x2 ++ x3 ++ x4 ++ x5 ++ x6 : BitVec 32) = x3 ∧
    field 8 5 (x0 ++ x1 ++ x2 ++ x3 ++ x4 ++ x5 ++ x6 : BitVec 32) = x4 ∧
    field 2 6 (x0 ++ x1 ++ x2 ++ x3 ++ x4 ++ x5 ++ x6 : BitVec 32) = x5 ∧
    field 0 2 (x0 ++ x1 ++ x2 ++ x3 ++ x4 ++ x5 ++ x6 : BitVec 32) = x6 := by
  refine ⟨?_, ?_, ?_, ?_, ?_, ?_, ?_⟩
  · show @field (6 + 2 + 6 + 5 + 5 + 6 + 2) 26 6 _ = _
    simp (disch := decide) only [field_low, field_high]
    exact field_whole _
  · show @field (6 + 2 + 6 + 5 + 5 + 6 + 2) 24 2 _ = _
    simp (disch := decide) only [field_low, field_high]
    exact field_whole _
  · show @field (6 + 2 + 6 + 5 + 5 + 6 + 2) 18 6 _ = _
    simp (disch := decide) only [field_low, field_high]
    exact field_whole _
  · show @field (6 + 2 + 6 + 5 + 5 + 6 + 2) 13 5 _ = _
    simp (disch := decide) only [field_low, field_high]
    exact field_whole _
  · show @field (6 + 2 + 6 + 5 + 5 + 6 + 2) 8 5 _ = _
    simp (disch := decide) only [field_low, field_high]
    exact field_whole _
  · show @field (6 + 2 + 6 + 5 + 5 + 6 + 2) 2 6 _ = _
    simp (disch := decide) only [field_low, field_high]
    exact field_whole _
  · show @field (6 + 2 + 6 + 5 + 5 + 6 + 2) 0 2 _ = _
    simp (disch := decide) only [field_low, field_high]
    exact field_whole _

/-- The layout 4-5-15-6-2. -/
theorem fields_4_5_15_6_2 (x0 : BitVec 4) (x1 : BitVec 5) (x2 : BitVec 15) (x3 : BitVec 6) (x4 : BitVec 2) :
    field 28 4 (x0 ++ x1 ++ x2 ++ x3 ++ x4 : BitVec 32) = x0 ∧
    field 23 5 (x0 ++ x1 ++ x2 ++ x3 ++ x4 : BitVec 32) = x1 ∧
    field 8 15 (x0 ++ x1 ++ x2 ++ x3 ++ x4 : BitVec 32) = x2 ∧
    field 2 6 (x0 ++ x1 ++ x2 ++ x3 ++ x4 : BitVec 32) = x3 ∧
    field 0 2 (x0 ++ x1 ++ x2 ++ x3 ++ x4 : BitVec 32) = x4 := by
  refine ⟨?_, ?_, ?_, ?_, ?_⟩
  · show @field (4 + 5 + 15 + 6 + 2) 28 4 _ = _
    simp (disch := decide) only [field_low, field_high]
    exact field_whole _
  · show @field (4 + 5 + 15 + 6 + 2) 23 5 _ = _
    simp (disch := decide) only [field_low, field_high]
    exact field_whole _
  · show @field (4 + 5 + 15 + 6 + 2) 8 15 _ = _
    simp (disch := decide) only [field_low, field_high]
    exact field_whole _
  · show @field (4 + 5 + 15 + 6 + 2) 2 6 _ = _
    simp (disch := decide) only [field_low, field_high]
    exact field_whole _
  · show @field (4 + 5 + 15 + 6 + 2) 0 2 _ = _
    simp (disch := decide) only [field_low, field_high]
    exact field_whole _

/-- The layout 4-5-12-3-6-2. -/
theorem fields_4_5_12_3_6_2 (x0 : BitVec 4) (x1 : BitVec 5) (x2 : BitVec 12) (x3 : BitVec 3) (x4 : BitVec 6) (x5 : BitVec 2) :
    field 28 4 (x0 ++ x1 ++ x2 ++ x3 ++ x4 ++ x5 : BitVec 32) = x0 ∧
    field 23 5 (x0 ++ x1 ++ x2 ++ x3 ++ x4 ++ x5 : BitVec 32) = x1 ∧
    field 11 12 (x0 ++ x1 ++ x2 ++ x3 ++ x4 ++ x5 : BitVec 32) = x2 ∧
    field 8 3 (x0 ++ x1 ++ x2 ++ x3 ++ x4 ++ x5 : BitVec 32) = x3 ∧
    field 2 6 (x0 ++ x1 ++ x2 ++ x3 ++ x4 ++ x5 : BitVec 32) = x4 ∧
    field 0 2 (x0 ++ x1 ++ x2 ++ x3 ++ x4 ++ x5 : BitVec 32) = x5 := by
  refine ⟨?_, ?_, ?_, ?_, ?_, ?_⟩
  · show @field (4 + 5 + 12 + 3 + 6 + 2) 28 4 _ = _
    simp (disch := decide) only [field_low, field_high]
    exact field_whole _
  · show @field (4 + 5 + 12 + 3 + 6 + 2) 23 5 _ = _
    simp (disch := decide) only [field_low, field_high]
    exact field_whole _
  · show @field (4 + 5 + 12 + 3 + 6 + 2) 11 12 _ = _
    simp (disch := decide) only [field_low, field_high]
    exact field_whole _
  · show @field (4 + 5 + 12 + 3 + 6 + 2) 8 3 _ = _
    simp (disch := decide) only [field_low, field_high]
    exact field_whole _
  · show @field (4 + 5 + 12 + 3 + 6 + 2) 2 6 _ = _
    simp (disch := decide) only [field_low, field_high]
    exact field_whole _
  · show @field (4 + 5 + 12 + 3 + 6 + 2) 0 2 _ = _
    simp (disch := decide) only [field_low, field_high]
    exact field_whole _

/-- The layout 4-5-10-5-6-2. -/
theorem fields_4_5_10_5_6_2 (x0 : BitVec 4) (x1 : BitVec 5) (x2 : BitVec 10) (x3 : BitVec 5) (x4 : BitVec 6) (x5 : BitVec 2) :
    field 28 4 (x0 ++ x1 ++ x2 ++ x3 ++ x4 ++ x5 : BitVec 32) = x0 ∧
    field 23 5 (x0 ++ x1 ++ x2 ++ x3 ++ x4 ++ x5 : BitVec 32) = x1 ∧
    field 13 10 (x0 ++ x1 ++ x2 ++ x3 ++ x4 ++ x5 : BitVec 32) = x2 ∧
    field 8 5 (x0 ++ x1 ++ x2 ++ x3 ++ x4 ++ x5 : BitVec 32) = x3 ∧
    field 2 6 (x0 ++ x1 ++ x2 ++ x3 ++ x4 ++ x5 : BitVec 32) = x4 ∧
    field 0 2 (x0 ++ x1 ++ x2 ++ x3 ++ x4 ++ x5 : BitVec 32) = x5 := by
  refine ⟨?_, ?_, ?_, ?_, ?_, ?_⟩
  · show @field (4 + 5 + 10 + 5 + 6 + 2) 28 4 _ = _
    simp (disch := decide) only [field_low, field_high]
    exact field_whole _
  · show @field (4 + 5 + 10 + 5 + 6 + 2) 23 5 _ = _
    simp (disch := decide) only [field_low, field_high]
    exact field_whole _
  · show @field (4 + 5 + 10 + 5 + 6 + 2) 13 10 _ = _
    simp (disch := decide) only [field_low, field_high]
    exact field_whole _
  · show @field (4 + 5 + 10 + 5 + 6 + 2) 8 5 _ = _
    simp (disch := decide) only [field_low, field_high]
    exact field_whole _
  · show @field (4 + 5 + 10 + 5 + 6 + 2) 2 6 _ = _
    simp (disch := decide) only [field_low, field_high]
    exact field_whole _
  · show @field (4 + 5 + 10 + 5 + 6 + 2) 0 2 _ = _
    simp (disch := decide) only [field_low, field_high]
    exact field_whole _

/-- The layout 4-5-7-3-2-3-6-2. -/
theorem fields_4_5_7_3_2_3_6_2 (x0 : BitVec 4) (x1 : BitVec 5) (x2 : BitVec 7) (x3 : BitVec 3) (x4 : BitVec 2) (x5 : BitVec 3) (x6 : BitVec 6) (x7 : BitVec 2) :
    field 28 4 (x0 ++ x1 ++ x2 ++ x3 ++ x4 ++ x5 ++ x6 ++ x7 : BitVec 32) = x0 ∧
    field 23 5 (x0 ++ x1 ++ x2 ++ x3 ++ x4 ++ x5 ++ x6 ++ x7 : BitVec 32) = x1 ∧
    field 16 7 (x0 ++ x1 ++ x2 ++ x3 ++ x4 ++ x5 ++ x6 ++ x7 : BitVec 32) = x2 ∧
    field 13 3 (x0 ++ x1 ++ x2 ++ x3 ++ x4 ++ x5 ++ x6 ++ x7 : BitVec 32) = x3 ∧
    field 11 2 (x0 ++ x1 ++ x2 ++ x3 ++ x4 ++ x5 ++ x6 ++ x7 : BitVec 32) = x4 ∧
    field 8 3 (x0 ++ x1 ++ x2 ++ x3 ++ x4 ++ x5 ++ x6 ++ x7 : BitVec 32) = x5 ∧
    field 2 6 (x0 ++ x1 ++ x2 ++ x3 ++ x4 ++ x5 ++ x6 ++ x7 : BitVec 32) = x6 ∧
    field 0 2 (x0 ++ x1 ++ x2 ++ x3 ++ x4 ++ x5 ++ x6 ++ x7 : BitVec 32) = x7 := by
  refine ⟨?_, ?_, ?_, ?_, ?_, ?_, ?_, ?_⟩
  · show @field (4 + 5 + 7 + 3 + 2 + 3 + 6 + 2) 28 4 _ = _
    simp (disch := decide) only [field_low, field_high]
    exact field_whole _
  · show @field (4 + 5 + 7 + 3 + 2 + 3 + 6 + 2) 23 5 _ = _
    simp (disch := decide) only [field_low, field_high]
    exact field_whole _
  · show @field (4 + 5 + 7 + 3 + 2 + 3 + 6 + 2) 16 7 _ = _
    simp (disch := decide) only [field_low, field_high]
    exact field_whole _
  · show @field (4 + 5 + 7 + 3 + 2 + 3 + 6 + 2) 13 3 _ = _
    simp (disch := decide) only [field_low, field_high]
    exact field_whole _
  · show @field (4 + 5 + 7 + 3 + 2 + 3 + 6 + 2) 11 2 _ = _
    simp (disch := decide) only [field_low, field_high]
    exact field_whole _
  · show @field (4 + 5 + 7 + 3 + 2 + 3 + 6 + 2) 8 3 _ = _
    simp (disch := decide) only [field_low, field_high]
    exact field_whole _
  · show @field (4 + 5 + 7 + 3 + 2 + 3 + 6 + 2) 2 6 _ = _
    simp (disch := decide) only [field_low, field_high]
    exact field_whole _
  · show @field (4 + 5 + 7 + 3 + 2 + 3 + 6 + 2) 0 2 _ = _
    simp (disch := decide) only [field_low, field_high]
    exact field_whole _

/-- The layout 4-5-5-5-5-6-2. -/
theorem fields_4_5_5_5_5_6_2 (x0 : BitVec 4) (x1 : BitVec 5) (x2 : BitVec 5) (x3 : BitVec 5) (x4 : BitVec 5) (x5 : BitVec 6) (x6 : BitVec 2) :
    field 28 4 (x0 ++ x1 ++ x2 ++ x3 ++ x4 ++ x5 ++ x6 : BitVec 32) = x0 ∧
    field 23 5 (x0 ++ x1 ++ x2 ++ x3 ++ x4 ++ x5 ++ x6 : BitVec 32) = x1 ∧
    field 18 5 (x0 ++ x1 ++ x2 ++ x3 ++ x4 ++ x5 ++ x6 : BitVec 32) = x2 ∧
    field 13 5 (x0 ++ x1 ++ x2 ++ x3 ++ x4 ++ x5 ++ x6 : BitVec 32) = x3 ∧
    field 8 5 (x0 ++ x1 ++ x2 ++ x3 ++ x4 ++ x5 ++ x6 : BitVec 32) = x4 ∧
    field 2 6 (x0 ++ x1 ++ x2 ++ x3 ++ x4 ++ x5 ++ x6 : BitVec 32) = x5 ∧
    field 0 2 (x0 ++ x1 ++ x2 ++ x3 ++ x4 ++ x5 ++ x6 : BitVec 32) = x6 := by
  refine ⟨?_, ?_, ?_, ?_, ?_, ?_, ?_⟩
  · show @field (4 + 5 + 5 + 5 + 5 + 6 + 2) 28 4 _ = _
    simp (disch := decide) only [field_low, field_high]
    exact field_whole _
  · show @field (4 + 5 + 5 + 5 + 5 + 6 + 2) 23 5 _ = _
    simp (disch := decide) only [field_low, field_high]
    exact field_whole _
  · show @field (4 + 5 + 5 + 5 + 5 + 6 + 2) 18 5 _ = _
    simp (disch := decide) only [field_low, field_high]
    exact field_whole _
  · show @field (4 + 5 + 5 + 5 + 5 + 6 + 2) 13 5 _ = _
    simp (disch := decide) only [field_low, field_high]
    exact field_whole _
  · show @field (4 + 5 + 5 + 5 + 5 + 6 + 2) 8 5 _ = _
    simp (disch := decide) only [field_low, field_high]
    exact field_whole _
  · show @field (4 + 5 + 5 + 5 + 5 + 6 + 2) 2 6 _ = _
    simp (disch := decide) only [field_low, field_high]
    exact field_whole _
  · show @field (4 + 5 + 5 + 5 + 5 + 6 + 2) 0 2 _ = _
    simp (disch := decide) only [field_low, field_high]
    exact field_whole _

/-- The layout 4-5-5-5-3-2-6-2. -/
theorem fields_4_5_5_5_3_2_6_2 (x0 : BitVec 4) (x1 : BitVec 5) (x2 : BitVec 5) (x3 : BitVec 5) (x4 : BitVec 3) (x5 : BitVec 2) (x6 : BitVec 6) (x7 : BitVec 2) :
    field 28 4 (x0 ++ x1 ++ x2 ++ x3 ++ x4 ++ x5 ++ x6 ++ x7 : BitVec 32) = x0 ∧
    field 23 5 (x0 ++ x1 ++ x2 ++ x3 ++ x4 ++ x5 ++ x6 ++ x7 : BitVec 32) = x1 ∧
    field 18 5 (x0 ++ x1 ++ x2 ++ x3 ++ x4 ++ x5 ++ x6 ++ x7 : BitVec 32) = x2 ∧
    field 13 5 (x0 ++ x1 ++ x2 ++ x3 ++ x4 ++ x5 ++ x6 ++ x7 : BitVec 32) = x3 ∧
    field 10 3 (x0 ++ x1 ++ x2 ++ x3 ++ x4 ++ x5 ++ x6 ++ x7 : BitVec 32) = x4 ∧
    field 8 2 (x0 ++ x1 ++ x2 ++ x3 ++ x4 ++ x5 ++ x6 ++ x7 : BitVec 32) = x5 ∧
    field 2 6 (x0 ++ x1 ++ x2 ++ x3 ++ x4 ++ x5 ++ x6 ++ x7 : BitVec 32) = x6 ∧
    field 0 2 (x0 ++ x1 ++ x2 ++ x3 ++ x4 ++ x5 ++ x6 ++ x7 : BitVec 32) = x7 := by
  refine ⟨?_, ?_, ?_, ?_, ?_, ?_, ?_, ?_⟩
  · show @field (4 + 5 + 5 + 5 + 3 + 2 + 6 + 2) 28 4 _ = _
    simp (disch := decide) only [field_low, field_high]
    exact field_whole _
  · show @field (4 + 5 + 5 + 5 + 3 + 2 + 6 + 2) 23 5 _ = _
    simp (disch := decide) only [field_low, field_high]
    exact field_whole _
  · show @field (4 + 5 + 5 + 5 + 3 + 2 + 6 + 2) 18 5 _ = _
    simp (disch := decide) only [field_low, field_high]
    exact field_whole _
  · show @field (4 + 5 + 5 + 5 + 3 + 2 + 6 + 2) 13 5 _ = _
    simp (disch := decide) only [field_low, field_high]
    exact field_whole _
  · show @field (4 + 5 + 5 + 5 + 3 + 2 + 6 + 2) 10 3 _ = _
    simp (disch := decide) only [field_low, field_high]
    exact field_whole _
  · show @field (4 + 5 + 5 + 5 + 3 + 2 + 6 + 2) 8 2 _ = _
    simp (disch := decide) only [field_low, field_high]
    exact field_whole _
  · show @field (4 + 5 + 5 + 5 + 3 + 2 + 6 + 2) 2 6 _ = _
    simp (disch := decide) only [field_low, field_high]
    exact field_whole _
  · show @field (4 + 5 + 5 + 5 + 3 + 2 + 6 + 2) 0 2 _ = _
    simp (disch := decide) only [field_low, field_high]
    exact field_whole _

/-- The layout 4-5-5-5-2-3-6-2. -/
theorem fields_4_5_5_5_2_3_6_2 (x0 : BitVec 4) (x1 : BitVec 5) (x2 : BitVec 5) (x3 : BitVec 5) (x4 : BitVec 2) (x5 : BitVec 3) (x6 : BitVec 6) (x7 : BitVec 2) :
    field 28 4 (x0 ++ x1 ++ x2 ++ x3 ++ x4 ++ x5 ++ x6 ++ x7 : BitVec 32) = x0 ∧
    field 23 5 (x0 ++ x1 ++ x2 ++ x3 ++ x4 ++ x5 ++ x6 ++ x7 : BitVec 32) = x1 ∧
    field 18 5 (x0 ++ x1 ++ x2 ++ x3 ++ x4 ++ x5 ++ x6 ++ x7 : BitVec 32) = x2 ∧
    field 13 5 (x0 ++ x1 ++ x2 ++ x3 ++ x4 ++ x5 ++ x6 ++ x7 : BitVec 32) = x3 ∧
    field 11 2 (x0 ++ x1 ++ x2 ++ x3 ++ x4 ++ x5 ++ x6 ++ x7 : BitVec 32) = x4 ∧
    field 8 3 (x0 ++ x1 ++ x2 ++ x3 ++ x4 ++ x5 ++ x6 ++ x7 : BitVec 32) = x5 ∧
    field 2 6 (x0 ++ x1 ++ x2 ++ x3 ++ x4 ++ x5 ++ x6 ++ x7 : BitVec 32) = x6 ∧
    field 0 2 (x0 ++ x1 ++ x2 ++ x3 ++ x4 ++ x5 ++ x6 ++ x7 : BitVec 32) = x7 := by
  refine ⟨?_, ?_, ?_, ?_, ?_, ?_, ?_, ?_⟩
  · show @field (4 + 5 + 5 + 5 + 2 + 3 + 6 + 2) 28 4 _ = _
    simp (disch := decide) only [field_low, field_high]
    exact field_whole _
  · show @field (4 + 5 + 5 + 5 + 2 + 3 + 6 + 2) 23 5 _ = _
    simp (disch := decide) only [field_low, field_high]
    exact field_whole _
  · show @field (4 + 5 + 5 + 5 + 2 + 3 + 6 + 2) 18 5 _ = _
    simp (disch := decide) only [field_low, field_high]
    exact field_whole _
  · show @field (4 + 5 + 5 + 5 + 2 + 3 + 6 + 2) 13 5 _ = _
    simp (disch := decide) only [field_low, field_high]
    exact field_whole _
  · show @field (4 + 5 + 5 + 5 + 2 + 3 + 6 + 2) 11 2 _ = _
    simp (disch := decide) only [field_low, field_high]
    exact field_whole _
  · show @field (4 + 5 + 5 + 5 + 2 + 3 + 6 + 2) 8 3 _ = _
    simp (disch := decide) only [field_low, field_high]
    exact field_whole _
  · show @field (4 + 5 + 5 + 5 + 2 + 3 + 6 + 2) 2 6 _ = _
    simp (disch := decide) only [field_low, field_high]
    exact field_whole _
  · show @field (4 + 5 + 5 + 5 + 2 + 3 + 6 + 2) 0 2 _ = _
    simp (disch := decide) only [field_low, field_high]
    exact field_whole _

/-- The layout 4-5-5-2-3-5-6-2. -/
theorem fields_4_5_5_2_3_5_6_2 (x0 : BitVec 4) (x1 : BitVec 5) (x2 : BitVec 5) (x3 : BitVec 2) (x4 : BitVec 3) (x5 : BitVec 5) (x6 : BitVec 6) (x7 : BitVec 2) :
    field 28 4 (x0 ++ x1 ++ x2 ++ x3 ++ x4 ++ x5 ++ x6 ++ x7 : BitVec 32) = x0 ∧
    field 23 5 (x0 ++ x1 ++ x2 ++ x3 ++ x4 ++ x5 ++ x6 ++ x7 : BitVec 32) = x1 ∧
    field 18 5 (x0 ++ x1 ++ x2 ++ x3 ++ x4 ++ x5 ++ x6 ++ x7 : BitVec 32) = x2 ∧
    field 16 2 (x0 ++ x1 ++ x2 ++ x3 ++ x4 ++ x5 ++ x6 ++ x7 : BitVec 32) = x3 ∧
    field 13 3 (x0 ++ x1 ++ x2 ++ x3 ++ x4 ++ x5 ++ x6 ++ x7 : BitVec 32) = x4 ∧
    field 8 5 (x0 ++ x1 ++ x2 ++ x3 ++ x4 ++ x5 ++ x6 ++ x7 : BitVec 32) = x5 ∧
    field 2 6 (x0 ++ x1 ++ x2 ++ x3 ++ x4 ++ x5 ++ x6 ++ x7 : BitVec 32) = x6 ∧
    field 0 2 (x0 ++ x1 ++ x2 ++ x3 ++ x4 ++ x5 ++ x6 ++ x7 : BitVec 32) = x7 := by
  refine ⟨?_, ?_, ?_, ?_, ?_, ?_, ?_, ?_⟩
  · show @field (4 + 5 + 5 + 2 + 3 + 5 + 6 + 2) 28 4 _ = _
    simp (disch := decide) only [field_low, field_high]
    exact field_whole _
  · show @field (4 + 5 + 5 + 2 + 3 + 5 + 6 + 2) 23 5 _ = _
    simp (disch := decide) only [field_low, field_high]
    exact field_whole _
  · show @field (4 + 5 + 5 + 2 + 3 + 5 + 6 + 2) 18 5 _ = _
    simp (disch := decide) only [field_low, field_high]
    exact field_whole _
  · show @field (4 + 5 + 5 + 2 + 3 + 5 + 6 + 2) 16 2 _ = _
    simp (disch := decide) only [field_low, field_high]
    exact field_whole _
  · show @field (4 + 5 + 5 + 2 + 3 + 5 + 6 + 2) 13 3 _ = _
    simp (disch := decide) only [field_low, field_high]
    exact field_whole _
  · show @field (4 + 5 + 5 + 2 + 3 + 5 + 6 + 2) 8 5 _ = _
    simp (disch := decide) only [field_low, field_high]
    exact field_whole _
  · show @field (4 + 5 + 5 + 2 + 3 + 5 + 6 + 2) 2 6 _ = _
    simp (disch := decide) only [field_low, field_high]
    exact field_whole _
  · show @field (4 + 5 + 5 + 2 + 3 + 5 + 6 + 2) 0 2 _ = _
    simp (disch := decide) only [field_low, field_high]
    exact field_whole _

/-- The layout 4-5-2-3-2-3-2-3-6-2. -/
theorem fields_4_5_2_3_2_3_2_3_6_2 (x0 : BitVec 4) (x1 : BitVec 5) (x2 : BitVec 2) (x3 : BitVec 3) (x4 : BitVec 2) (x5 : BitVec 3) (x6 : BitVec 2) (x7 : BitVec 3) (x8 : BitVec 6) (x9 : BitVec 2) :
    field 28 4 (x0 ++ x1 ++ x2 ++ x3 ++ x4 ++ x5 ++ x6 ++ x7 ++ x8 ++ x9 : BitVec 32) = x0 ∧
    field 23 5 (x0 ++ x1 ++ x2 ++ x3 ++ x4 ++ x5 ++ x6 ++ x7 ++ x8 ++ x9 : BitVec 32) = x1 ∧
    field 21 2 (x0 ++ x1 ++ x2 ++ x3 ++ x4 ++ x5 ++ x6 ++ x7 ++ x8 ++ x9 : BitVec 32) = x2 ∧
    field 18 3 (x0 ++ x1 ++ x2 ++ x3 ++ x4 ++ x5 ++ x6 ++ x7 ++ x8 ++ x9 : BitVec 32) = x3 ∧
    field 16 2 (x0 ++ x1 ++ x2 ++ x3 ++ x4 ++ x5 ++ x6 ++ x7 ++ x8 ++ x9 : BitVec 32) = x4 ∧
    field 13 3 (x0 ++ x1 ++ x2 ++ x3 ++ x4 ++ x5 ++ x6 ++ x7 ++ x8 ++ x9 : BitVec 32) = x5 ∧
    field 11 2 (x0 ++ x1 ++ x2 ++ x3 ++ x4 ++ x5 ++ x6 ++ x7 ++ x8 ++ x9 : BitVec 32) = x6 ∧
    field 8 3 (x0 ++ x1 ++ x2 ++ x3 ++ x4 ++ x5 ++ x6 ++ x7 ++ x8 ++ x9 : BitVec 32) = x7 ∧
    field 2 6 (x0 ++ x1 ++ x2 ++ x3 ++ x4 ++ x5 ++ x6 ++ x7 ++ x8 ++ x9 : BitVec 32) = x8 ∧
    field 0 2 (x0 ++ x1 ++ x2 ++ x3 ++ x4 ++ x5 ++ x6 ++ x7 ++ x8 ++ x9 : BitVec 32) = x9 := by
  refine ⟨?_, ?_, ?_, ?_, ?_, ?_, ?_, ?_, ?_, ?_⟩
  · show @field (4 + 5 + 2 + 3 + 2 + 3 + 2 + 3 + 6 + 2) 28 4 _ = _
    simp (disch := decide) only [field_low, field_high]
    exact field_whole _
  · show @field (4 + 5 + 2 + 3 + 2 + 3 + 2 + 3 + 6 + 2) 23 5 _ = _
    simp (disch := decide) only [field_low, field_high]
    exact field_whole _
  · show @field (4 + 5 + 2 + 3 + 2 + 3 + 2 + 3 + 6 + 2) 21 2 _ = _
    simp (disch := decide) only [field_low, field_high]
    exact field_whole _
  · show @field (4 + 5 + 2 + 3 + 2 + 3 + 2 + 3 + 6 + 2) 18 3 _ = _
    simp (disch := decide) only [field_low, field_high]
    exact field_whole _
  · show @field (4 + 5 + 2 + 3 + 2 + 3 + 2 + 3 + 6 + 2) 16 2 _ = _
    simp (disch := decide) only [field_low, field_high]
    exact field_whole _
  · show @field (4 + 5 + 2 + 3 + 2 + 3 + 2 + 3 + 6 + 2) 13 3 _ = _
    simp (disch := decide) only [field_low, field_high]
    exact field_whole _
  · show @field (4 + 5 + 2 + 3 + 2 + 3 + 2 + 3 + 6 + 2) 11 2 _ = _
    simp (disch := decide) only [field_low, field_high]
    exact field_whole _
  · show @field (4 + 5 + 2 + 3 + 2 + 3 + 2 + 3 + 6 + 2) 8 3 _ = _
    simp (disch := decide) only [field_low, field_high]
    exact field_whole _
  · show @field (4 + 5 + 2 + 3 + 2 + 3 + 2 + 3 + 6 + 2) 2 6 _ = _
    simp (disch := decide) only [field_low, field_high]
    exact field_whole _
  · show @field (4 + 5 + 2 + 3 + 2 + 3 + 2 + 3 + 6 + 2) 0 2 _ = _
    simp (disch := decide) only [field_low, field_high]
    exact field_whole _

/-- The layout 4-3-2-2-3-5-5-6-2. -/
theorem fields_4_3_2_2_3_5_5_6_2 (x0 : BitVec 4) (x1 : BitVec 3) (x2 : BitVec 2) (x3 : BitVec 2) (x4 : BitVec 3) (x5 : BitVec 5) (x6 : BitVec 5) (x7 : BitVec 6) (x8 : BitVec 2) :
    field 28 4 (x0 ++ x1 ++ x2 ++ x3 ++ x4 ++ x5 ++ x6 ++ x7 ++ x8 : BitVec 32) = x0 ∧
    field 25 3 (x0 ++ x1 ++ x2 ++ x3 ++ x4 ++ x5 ++ x6 ++ x7 ++ x8 : BitVec 32) = x1 ∧
    field 23 2 (x0 ++ x1 ++ x2 ++ x3 ++ x4 ++ x5 ++ x6 ++ x7 ++ x8 : BitVec 32) = x2 ∧
    field 21 2 (x0 ++ x1 ++ x2 ++ x3 ++ x4 ++ x5 ++ x6 ++ x7 ++ x8 : BitVec 32) = x3 ∧
    field 18 3 (x0 ++ x1 ++ x2 ++ x3 ++ x4 ++ x5 ++ x6 ++ x7 ++ x8 : BitVec 32) = x4 ∧
    field 13 5 (x0 ++ x1 ++ x2 ++ x3 ++ x4 ++ x5 ++ x6 ++ x7 ++ x8 : BitVec 32) = x5 ∧
    field 8 5 (x0 ++ x1 ++ x2 ++ x3 ++ x4 ++ x5 ++ x6 ++ x7 ++ x8 : BitVec 32) = x6 ∧
    field 2 6 (x0 ++ x1 ++ x2 ++ x3 ++ x4 ++ x5 ++ x6 ++ x7 ++ x8 : BitVec 32) = x7 ∧
    field 0 2 (x0 ++ x1 ++ x2 ++ x3 ++ x4 ++ x5 ++ x6 ++ x7 ++ x8 : BitVec 32) = x8 := by
  refine ⟨?_, ?_, ?_, ?_, ?_, ?_, ?_, ?_, ?_⟩
  · show @field (4 + 3 + 2 + 2 + 3 + 5 + 5 + 6 + 2) 28 4 _ = _
    simp (disch := decide) only [field_low, field_high]
    exact field_whole _
  · show @field (4 + 3 + 2 + 2 + 3 + 5 + 5 + 6 + 2) 25 3 _ = _
    simp (disch := decide) only [field_low, field_high]
    exact field_whole _
  · show @field (4 + 3 + 2 + 2 + 3 + 5 + 5 + 6 + 2) 23 2 _ = _
    simp (disch := decide) only [field_low, field_high]
    exact field_whole _
  · show @field (4 + 3 + 2 + 2 + 3 + 5 + 5 + 6 + 2) 21 2 _ = _
    simp (disch := decide) only [field_low, field_high]
    exact field_whole _
  · show @field (4 + 3 + 2 + 2 + 3 + 5 + 5 + 6 + 2) 18 3 _ = _
    simp (disch := decide) only [field_low, field_high]
    exact field_whole _
  · show @field (4 + 3 + 2 + 2 + 3 + 5 + 5 + 6 + 2) 13 5 _ = _
    simp (disch := decide) only [field_low, field_high]
    exact field_whole _
  · show @field (4 + 3 + 2 + 2 + 3 + 5 + 5 + 6 + 2) 8 5 _ = _
    simp (disch := decide) only [field_low, field_high]
    exact field_whole _
  · show @field (4 + 3 + 2 + 2 + 3 + 5 + 5 + 6 + 2) 2 6 _ = _
    simp (disch := decide) only [field_low, field_high]
    exact field_whole _
  · show @field (4 + 3 + 2 + 2 + 3 + 5 + 5 + 6 + 2) 0 2 _ = _
    simp (disch := decide) only [field_low, field_high]
    exact field_whole _

/-- The layout 2-2-5-5-5-5-6-2. -/
theorem fields_2_2_5_5_5_5_6_2 (x0 : BitVec 2) (x1 : BitVec 2) (x2 : BitVec 5) (x3 : BitVec 5) (x4 : BitVec 5) (x5 : BitVec 5) (x6 : BitVec 6) (x7 : BitVec 2) :
    field 30 2 (x0 ++ x1 ++ x2 ++ x3 ++ x4 ++ x5 ++ x6 ++ x7 : BitVec 32) = x0 ∧
    field 28 2 (x0 ++ x1 ++ x2 ++ x3 ++ x4 ++ x5 ++ x6 ++ x7 : BitVec 32) = x1 ∧
    field 23 5 (x0 ++ x1 ++ x2 ++ x3 ++ x4 ++ x5 ++ x6 ++ x7 : BitVec 32) = x2 ∧
    field 18 5 (x0 ++ x1 ++ x2 ++ x3 ++ x4 ++ x5 ++ x6 ++ x7 : BitVec 32) = x3 ∧
    field 13 5 (x0 ++ x1 ++ x2 ++ x3 ++ x4 ++ x5 ++ x6 ++ x7 : BitVec 32) = x4 ∧
    field 8 5 (x0 ++ x1 ++ x2 ++ x3 ++ x4 ++ x5 ++ x6 ++ x7 : BitVec 32) = x5 ∧
    field 2 6 (x0 ++ x1 ++ x2 ++ x3 ++ x4 ++ x5 ++ x6 ++ x7 : BitVec 32) = x6 ∧
    field 0 2 (x0 ++ x1 ++ x2 ++ x3 ++ x4 ++ x5 ++ x6 ++ x7 : BitVec 32) = x7 := by
  refine ⟨?_, ?_, ?_, ?_, ?_, ?_, ?_, ?_⟩
  · show @field (2 + 2 + 5 + 5 + 5 + 5 + 6 + 2) 30 2 _ = _
    simp (disch := decide) only [field_low, field_high]
    exact field_whole _
  · show @field (2 + 2 + 5 + 5 + 5 + 5 + 6 + 2) 28 2 _ = _
    simp (disch := decide) only [field_low, field_high]
    exact field_whole _
  · show @field (2 + 2 + 5 + 5 + 5 + 5 + 6 + 2) 23 5 _ = _
    simp (disch := decide) only [field_low, field_high]
    exact field_whole _
  · show @field (2 + 2 + 5 + 5 + 5 + 5 + 6 + 2) 18 5 _ = _
    simp (disch := decide) only [field_low, field_high]
    exact field_whole _
  · show @field (2 + 2 + 5 + 5 + 5 + 5 + 6 + 2) 13 5 _ = _
    simp (disch := decide) only [field_low, field_high]
    exact field_whole _
  · show @field (2 + 2 + 5 + 5 + 5 + 5 + 6 + 2) 8 5 _ = _
    simp (disch := decide) only [field_low, field_high]
    exact field_whole _
  · show @field (2 + 2 + 5 + 5 + 5 + 5 + 6 + 2) 2 6 _ = _
    simp (disch := decide) only [field_low, field_high]
    exact field_whole _
  · show @field (2 + 2 + 5 + 5 + 5 + 5 + 6 + 2) 0 2 _ = _
    simp (disch := decide) only [field_low, field_high]
    exact field_whole _

/-- The layout 1-3-5-7-3-5-6-2. -/
theorem fields_1_3_5_7_3_5_6_2 (x0 : BitVec 1) (x1 : BitVec 3) (x2 : BitVec 5) (x3 : BitVec 7) (x4 : BitVec 3) (x5 : BitVec 5) (x6 : BitVec 6) (x7 : BitVec 2) :
    field 31 1 (x0 ++ x1 ++ x2 ++ x3 ++ x4 ++ x5 ++ x6 ++ x7 : BitVec 32) = x0 ∧
    field 28 3 (x0 ++ x1 ++ x2 ++ x3 ++ x4 ++ x5 ++ x6 ++ x7 : BitVec 32) = x1 ∧
    field 23 5 (x0 ++ x1 ++ x2 ++ x3 ++ x4 ++ x5 ++ x6 ++ x7 : BitVec 32) = x2 ∧
    field 16 7 (x0 ++ x1 ++ x2 ++ x3 ++ x4 ++ x5 ++ x6 ++ x7 : BitVec 32) = x3 ∧
    field 13 3 (x0 ++ x1 ++ x2 ++ x3 ++ x4 ++ x5 ++ x6 ++ x7 : BitVec 32) = x4 ∧
    field 8 5 (x0 ++ x1 ++ x2 ++ x3 ++ x4 ++ x5 ++ x6 ++ x7 : BitVec 32) = x5 ∧
    field 2 6 (x0 ++ x1 ++ x2 ++ x3 ++ x4 ++ x5 ++ x6 ++ x7 : BitVec 32) = x6 ∧
    field 0 2 (x0 ++ x1 ++ x2 ++ x3 ++ x4 ++ x5 ++ x6 ++ x7 : BitVec 32) = x7 := by
  refine ⟨?_, ?_, ?_, ?_, ?_, ?_, ?_, ?_⟩
  · show @field (1 + 3 + 5 + 7 + 3 + 5 + 6 + 2) 31 1 _ = _
    simp (disch := decide) only [field_low, field_high]
    exact field_whole _
  · show @field (1 + 3 + 5 + 7 + 3 + 5 + 6 + 2) 28 3 _ = _
    simp (disch := decide) only [field_low, field_high]
    exact field_whole _
  · show @field (1 + 3 + 5 + 7 + 3 + 5 + 6 + 2) 23 5 _ = _
    simp (disch := decide) only [field_low, field_high]
    exact field_whole _
  · show @field (1 + 3 + 5 + 7 + 3 + 5 + 6 + 2) 16 7 _ = _
    simp (disch := decide) only [field_low, field_high]
    exact field_whole _
  · show @field (1 + 3 + 5 + 7 + 3 + 5 + 6 + 2) 13 3 _ = _
    simp (disch := decide) only [field_low, field_high]
    exact field_whole _
  · show @field (1 + 3 + 5 + 7 + 3 + 5 + 6 + 2) 8 5 _ = _
    simp (disch := decide) only [field_low, field_high]
    exact field_whole _
  · show @field (1 + 3 + 5 + 7 + 3 + 5 + 6 + 2) 2 6 _ = _
    simp (disch := decide) only [field_low, field_high]
    exact field_whole _
  · show @field (1 + 3 + 5 + 7 + 3 + 5 + 6 + 2) 0 2 _ = _
    simp (disch := decide) only [field_low, field_high]
    exact field_whole _

/-- The layout 1-3-5-5-5-5-6-2. -/
theorem fields_1_3_5_5_5_5_6_2 (x0 : BitVec 1) (x1 : BitVec 3) (x2 : BitVec 5) (x3 : BitVec 5) (x4 : BitVec 5) (x5 : BitVec 5) (x6 : BitVec 6) (x7 : BitVec 2) :
    field 31 1 (x0 ++ x1 ++ x2 ++ x3 ++ x4 ++ x5 ++ x6 ++ x7 : BitVec 32) = x0 ∧
    field 28 3 (x0 ++ x1 ++ x2 ++ x3 ++ x4 ++ x5 ++ x6 ++ x7 : BitVec 32) = x1 ∧
    field 23 5 (x0 ++ x1 ++ x2 ++ x3 ++ x4 ++ x5 ++ x6 ++ x7 : BitVec 32) = x2 ∧
    field 18 5 (x0 ++ x1 ++ x2 ++ x3 ++ x4 ++ x5 ++ x6 ++ x7 : BitVec 32) = x3 ∧
    field 13 5 (x0 ++ x1 ++ x2 ++ x3 ++ x4 ++ x5 ++ x6 ++ x7 : BitVec 32) = x4 ∧
    field 8 5 (x0 ++ x1 ++ x2 ++ x3 ++ x4 ++ x5 ++ x6 ++ x7 : BitVec 32) = x5 ∧
    field 2 6 (x0 ++ x1 ++ x2 ++ x3 ++ x4 ++ x5 ++ x6 ++ x7 : BitVec 32) = x6 ∧
    field 0 2 (x0 ++ x1 ++ x2 ++ x3 ++ x4 ++ x5 ++ x6 ++ x7 : BitVec 32) = x7 := by
  refine ⟨?_, ?_, ?_, ?_, ?_, ?_, ?_, ?_⟩
  · show @field (1 + 3 + 5 + 5 + 5 + 5 + 6 + 2) 31 1 _ = _
    simp (disch := decide) only [field_low, field_high]
    exact field_whole _
  · show @field (1 + 3 + 5 + 5 + 5 + 5 + 6 + 2) 28 3 _ = _
    simp (disch := decide) only [field_low, field_high]
    exact field_whole _
  · show @field (1 + 3 + 5 + 5 + 5 + 5 + 6 + 2) 23 5 _ = _
    simp (disch := decide) only [field_low, field_high]
    exact field_whole _
  · show @field (1 + 3 + 5 + 5 + 5 + 5 + 6 + 2) 18 5 _ = _
    simp (disch := decide) only [field_low, field_high]
    exact field_whole _
  · show @field (1 + 3 + 5 + 5 + 5 + 5 + 6 + 2) 13 5 _ = _
    simp (disch := decide) only [field_low, field_high]
    exact field_whole _
  · show @field (1 + 3 + 5 + 5 + 5 + 5 + 6 + 2) 8 5 _ = _
    simp (disch := decide) only [field_low, field_high]
    exact field_whole _
  · show @field (1 + 3 + 5 + 5 + 5 + 5 + 6 + 2) 2 6 _ = _
    simp (disch := decide) only [field_low, field_high]
    exact field_whole _
  · show @field (1 + 3 + 5 + 5 + 5 + 5 + 6 + 2) 0 2 _ = _
    simp (disch := decide) only [field_low, field_high]
    exact field_whole _

/-- The layout 1-3-5-5-5-2-3-6-2. -/
theorem fields_1_3_5_5_5_2_3_6_2 (x0 : BitVec 1) (x1 : BitVec 3) (x2 : BitVec 5) (x3 : BitVec 5) (x4 : BitVec 5) (x5 : BitVec 2) (x6 : BitVec 3) (x7 : BitVec 6) (x8 : BitVec 2) :
    field 31 1 (x0 ++ x1 ++ x2 ++ x3 ++ x4 ++ x5 ++ x6 ++ x7 ++ x8 : BitVec 32) = x0 ∧
    field 28 3 (x0 ++ x1 ++ x2 ++ x3 ++ x4 ++ x5 ++ x6 ++ x7 ++ x8 : BitVec 32) = x1 ∧
    field 23 5 (x0 ++ x1 ++ x2 ++ x3 ++ x4 ++ x5 ++ x6 ++ x7 ++ x8 : BitVec 32) = x2 ∧
    field 18 5 (x0 ++ x1 ++ x2 ++ x3 ++ x4 ++ x5 ++ x6 ++ x7 ++ x8 : BitVec 32) = x3 ∧
    field 13 5 (x0 ++ x1 ++ x2 ++ x3 ++ x4 ++ x5 ++ x6 ++ x7 ++ x8 : BitVec 32) = x4 ∧
    field 11 2 (x0 ++ x1 ++ x2 ++ x3 ++ x4 ++ x5 ++ x6 ++ x7 ++ x8 : BitVec 32) = x5 ∧
    field 8 3 (x0 ++ x1 ++ x2 ++ x3 ++ x4 ++ x5 ++ x6 ++ x7 ++ x8 : BitVec 32) = x6 ∧
    field 2 6 (x0 ++ x1 ++ x2 ++ x3 ++ x4 ++ x5 ++ x6 ++ x7 ++ x8 : BitVec 32) = x7 ∧
    field 0 2 (x0 ++ x1 ++ x2 ++ x3 ++ x4 ++ x5 ++ x6 ++ x7 ++ x8 : BitVec 32) = x8 := by
  refine ⟨?_, ?_, ?_, ?_, ?_, ?_, ?_, ?_, ?_⟩
  · show @field (1 + 3 + 5 + 5 + 5 + 2 + 3 + 6 + 2) 31 1 _ = _
    simp (disch := decide) only [field_low, field_high]
    exact field_whole _
  · show @field (1 + 3 + 5 + 5 + 5 + 2 + 3 + 6 + 2) 28 3 _ = _
    simp (disch := decide) only [field_low, field_high]
    exact field_whole _
  · show @field (1 + 3 + 5 + 5 + 5 + 2 + 3 + 6 + 2) 23 5 _ = _
    simp (disch := decide) only [field_low, field_high]
    exact field_whole _
  · show @field (1 + 3 + 5 + 5 + 5 + 2 + 3 + 6 + 2) 18 5 _ = _
    simp (disch := decide) only [field_low, field_high]
    exact field_whole _
  · show @field (1 + 3 + 5 + 5 + 5 + 2 + 3 + 6 + 2) 13 5 _ = _
    simp (disch := decide) only [field_low, field_high]
    exact field_whole _
  · show @field (1 + 3 + 5 + 5 + 5 + 2 + 3 + 6 + 2) 11 2 _ = _
    simp (disch := decide) only [field_low, field_high]
    exact field_whole _
  · show @field (1 + 3 + 5 + 5 + 5 + 2 + 3 + 6 + 2) 8 3 _ = _
    simp (disch := decide) only [field_low, field_high]
    exact field_whole _
  · show @field (1 + 3 + 5 + 5 + 5 + 2 + 3 + 6 + 2) 2 6 _ = _
    simp (disch := decide) only [field_low, field_high]
    exact field_whole _
  · show @field (1 + 3 + 5 + 5 + 5 + 2 + 3 + 6 + 2) 0 2 _ = _
    simp (disch := decide) only [field_low, field_high]
    exact field_whole _

/-- The layout 1-3-5-5-2-3-2-3-6-2. -/
theorem fields_1_3_5_5_2_3_2_3_6_2 (x0 : BitVec 1) (x1 : BitVec 3) (x2 : BitVec 5) (x3 : BitVec 5) (x4 : BitVec 2) (x5 : BitVec 3) (x6 : BitVec 2) (x7 : BitVec 3) (x8 : BitVec 6) (x9 : BitVec 2) :
    field 31 1 (x0 ++ x1 ++ x2 ++ x3 ++ x4 ++ x5 ++ x6 ++ x7 ++ x8 ++ x9 : BitVec 32) = x0 ∧
    field 28 3 (x0 ++ x1 ++ x2 ++ x3 ++ x4 ++ x5 ++ x6 ++ x7 ++ x8 ++ x9 : BitVec 32) = x1 ∧
    field 23 5 (x0 ++ x1 ++ x2 ++ x3 ++ x4 ++ x5 ++ x6 ++ x7 ++ x8 ++ x9 : BitVec 32) = x2 ∧
    field 18 5 (x0 ++ x1 ++ x2 ++ x3 ++ x4 ++ x5 ++ x6 ++ x7 ++ x8 ++ x9 : BitVec 32) = x3 ∧
    field 16 2 (x0 ++ x1 ++ x2 ++ x3 ++ x4 ++ x5 ++ x6 ++ x7 ++ x8 ++ x9 : BitVec 32) = x4 ∧
    field 13 3 (x0 ++ x1 ++ x2 ++ x3 ++ x4 ++ x5 ++ x6 ++ x7 ++ x8 ++ x9 : BitVec 32) = x5 ∧
    field 11 2 (x0 ++ x1 ++ x2 ++ x3 ++ x4 ++ x5 ++ x6 ++ x7 ++ x8 ++ x9 : BitVec 32) = x6 ∧
    field 8 3 (x0 ++ x1 ++ x2 ++ x3 ++ x4 ++ x5 ++ x6 ++ x7 ++ x8 ++ x9 : BitVec 32) = x7 ∧
    field 2 6 (x0 ++ x1 ++ x2 ++ x3 ++ x4 ++ x5 ++ x6 ++ x7 ++ x8 ++ x9 : BitVec 32) = x8 ∧
    field 0 2 (x0 ++ x1 ++ x2 ++ x3 ++ x4 ++ x5 ++ x6 ++ x7 ++ x8 ++ x9 : BitVec 32) = x9 := by
  refine ⟨?_, ?_, ?_, ?_, ?_, ?_, ?_, ?_, ?_, ?_⟩
  · show @field (1 + 3 + 5 + 5 + 2 + 3 + 2 + 3 + 6 + 2) 31 1 _ = _
    simp (disch := decide) only [field_low, field_high]
    exact field_whole _
  · show @field (1 + 3 + 5 + 5 + 2 + 3 + 2 + 3 + 6 + 2) 28 3 _ = _
    simp (disch := decide) only [field_low, field_high]
    exact field_whole _
  · show @field (1 + 3 + 5 + 5 + 2 + 3 + 2 + 3 + 6 + 2) 23 5 _ = _
    simp (disch := decide) only [field_low, field_high]
    exact field_whole _
  · show @field (1 + 3 + 5 + 5 + 2 + 3 + 2 + 3 + 6 + 2) 18 5 _ = _
    simp (disch := decide) only [field_low, field_high]
    exact field_whole _
  · show @field (1 + 3 + 5 + 5 + 2 + 3 + 2 + 3 + 6 + 2) 16 2 _ = _
    simp (disch := decide) only [field_low, field_high]
    exact field_whole _
  · show @field (1 + 3 + 5 + 5 + 2 + 3 + 2 + 3 + 6 + 2) 13 3 _ = _
    simp (disch := decide) only [field_low, field_high]
    exact field_whole _
  · show @field (1 + 3 + 5 + 5 + 2 + 3 + 2 + 3 + 6 + 2) 11 2 _ = _
    simp (disch := decide) only [field_low, field_high]
    exact field_whole _
  · show @field (1 + 3 + 5 + 5 + 2 + 3 + 2 + 3 + 6 + 2) 8 3 _ = _
    simp (disch := decide) only [field_low, field_high]
    exact field_whole _
  · show @field (1 + 3 + 5 + 5 + 2 + 3 + 2 + 3 + 6 + 2) 2 6 _ = _
    simp (disch := decide) only [field_low, field_high]
    exact field_whole _
  · show @field (1 + 3 + 5 + 5 + 2 + 3 + 2 + 3 + 6 + 2) 0 2 _ = _
    simp (disch := decide) only [field_low, field_high]
    exact field_whole _

end Sys2Proof.Laws
end

