-- ==== Sys2Proof/Laws/State.lean ====
section
/-! SUPPORT. What an update of the state leaves alone, one lemma a field, and what it changes: reading back contexts,
harts and registers. -/

namespace Sys2Proof.Machine

set_option Elab.async false

@[simp] theorem State.withCtx_mem (s : State) (cid : Nat) (c : Ctx) : (s.withCtx cid c).mem = s.mem := rfl
@[simp] theorem State.withCtx_hostMem (s : State) (cid : Nat) (c : Ctx) : (s.withCtx cid c).hostMem = s.hostMem := rfl
@[simp] theorem State.withCtx_gran (s : State) (cid : Nat) (c : Ctx) : (s.withCtx cid c).gran = s.gran := rfl
@[simp] theorem State.withCtx_wgen (s : State) (cid : Nat) (c : Ctx) : (s.withCtx cid c).wgen = s.wgen := rfl
@[simp] theorem State.withCtx_ecc (s : State) (cid : Nat) (c : Ctx) : (s.withCtx cid c).ecc = s.ecc := rfl
@[simp] theorem State.withCtx_soft (s : State) (cid : Nat) (c : Ctx) : (s.withCtx cid c).soft = s.soft := rfl
@[simp] theorem State.withCtx_hb (s : State) (cid : Nat) (c : Ctx) : (s.withCtx cid c).hb = s.hb := rfl
@[simp] theorem State.withCtx_tenants (s : State) (cid : Nat) (c : Ctx) : (s.withCtx cid c).tenants = s.tenants := rfl
@[simp] theorem State.withCtx_die (s : State) (cid : Nat) (c : Ctx) : (s.withCtx cid c).die = s.die := rfl
@[simp] theorem State.withCtx_tlb (s : State) (cid : Nat) (c : Ctx) : (s.withCtx cid c).tlb = s.tlb := rfl
@[simp] theorem State.withCtx_migs (s : State) (cid : Nat) (c : Ctx) : (s.withCtx cid c).migs = s.migs := rfl
@[simp] theorem State.withCtx_packets (s : State) (cid : Nat) (c : Ctx) : (s.withCtx cid c).packets = s.packets := rfl
@[simp] theorem State.withCtx_watches (s : State) (cid : Nat) (c : Ctx) : (s.withCtx cid c).watches = s.watches := rfl
@[simp] theorem State.withCtx_outWatch (s : State) (cid : Nat) (c : Ctx) : (s.withCtx cid c).outWatch = s.outWatch := rfl
@[simp] theorem State.withCtx_hits (s : State) (cid : Nat) (c : Ctx) : (s.withCtx cid c).hits = s.hits := rfl
@[simp] theorem State.withCtx_reported (s : State) (cid : Nat) (c : Ctx) : (s.withCtx cid c).reported = s.reported := rfl
@[simp] theorem State.withCtx_reuse (s : State) (cid : Nat) (c : Ctx) : (s.withCtx cid c).reuse = s.reuse := rfl
@[simp] theorem State.withCtx_windows (s : State) (cid : Nat) (c : Ctx) : (s.withCtx cid c).windows = s.windows := rfl
@[simp] theorem State.withCtx_quadBars (s : State) (cid : Nat) (c : Ctx) : (s.withCtx cid c).quadBars = s.quadBars := rfl
@[simp] theorem State.withCtx_dieBars (s : State) (cid : Nat) (c : Ctx) : (s.withCtx cid c).dieBars = s.dieBars := rfl
@[simp] theorem State.withCtx_kernels (s : State) (cid : Nat) (c : Ctx) : (s.withCtx cid c).kernels = s.kernels := rfl
@[simp] theorem State.withCtx_kernelNo (s : State) (cid : Nat) (c : Ctx) : (s.withCtx cid c).kernelNo = s.kernelNo := rfl
@[simp] theorem State.withCtx_reserve (s : State) (cid : Nat) (c : Ctx) : (s.withCtx cid c).reserve = s.reserve := rfl
@[simp] theorem State.withCtx_copies (s : State) (cid : Nat) (c : Ctx) : (s.withCtx cid c).copies = s.copies := rfl
@[simp] theorem State.withCtx_issue (s : State) (cid : Nat) (c : Ctx) : (s.withCtx cid c).issue = s.issue := rfl
@[simp] theorem State.withCtx_fair (s : State) (cid : Nat) (c : Ctx) : (s.withCtx cid c).fair = s.fair := rfl
@[simp] theorem State.withCtx_starts (s : State) (cid : Nat) (c : Ctx) : (s.withCtx cid c).starts = s.starts := rfl
@[simp] theorem State.withCtx_sorusOff (s : State) (cid : Nat) (c : Ctx) : (s.withCtx cid c).sorusOff = s.sorusOff := rfl
@[simp] theorem State.withCtx_traps (s : State) (cid : Nat) (c : Ctx) : (s.withCtx cid c).traps = s.traps := rfl
@[simp] theorem State.withCtx_dev (s : State) (cid : Nat) (c : Ctx) : (s.withCtx cid c).dev = s.dev := rfl
@[simp] theorem State.withCtx_tap (s : State) (cid : Nat) (c : Ctx) : (s.withCtx cid c).tap = s.tap := rfl
@[simp] theorem State.withCtx_frozen (s : State) (cid : Nat) (c : Ctx) : (s.withCtx cid c).frozen = s.frozen := rfl
@[simp] theorem State.withCtx_links (s : State) (cid : Nat) (c : Ctx) : (s.withCtx cid c).links = s.links := rfl
@[simp] theorem State.withCtx_routers (s : State) (cid : Nat) (c : Ctx) : (s.withCtx cid c).routers = s.routers := rfl
@[simp] theorem State.withCtx_linkCnt (s : State) (cid : Nat) (c : Ctx) : (s.withCtx cid c).linkCnt = s.linkCnt := rfl
@[simp] theorem State.withCtx_half (s : State) (cid : Nat) (c : Ctx) : (s.withCtx cid c).half = s.half := rfl
@[simp] theorem State.withCtx_hostSeen (s : State) (cid : Nat) (c : Ctx) : (s.withCtx cid c).hostSeen = s.hostSeen := rfl
@[simp] theorem State.withCtx_serial (s : State) (cid : Nat) (c : Ctx) : (s.withCtx cid c).serial = s.serial := rfl
@[simp] theorem State.withCtx_sched (s : State) (cid : Nat) (c : Ctx) : (s.withCtx cid c).sched = s.sched := rfl
@[simp] theorem State.withCtx_cur (s : State) (cid : Nat) (c : Ctx) : (s.withCtx cid c).cur = s.cur := rfl
@[simp] theorem State.withCtx_yieldNow (s : State) (cid : Nat) (c : Ctx) : (s.withCtx cid c).yieldNow = s.yieldNow := rfl
@[simp] theorem State.withCtx_evArg (s : State) (cid : Nat) (c : Ctx) : (s.withCtx cid c).evArg = s.evArg := rfl
@[simp] theorem State.withCtx_freeCtr (s : State) (cid : Nat) (c : Ctx) : (s.withCtx cid c).freeCtr = s.freeCtr := rfl
@[simp] theorem State.withCtx_turnIntr (s : State) (cid : Nat) (c : Ctx) : (s.withCtx cid c).turnIntr = s.turnIntr := rfl
@[simp] theorem State.withCtx_pairs (s : State) (cid : Nat) (c : Ctx) : (s.withCtx cid c).pairs = s.pairs := rfl
@[simp] theorem State.withCtx_outside (s : State) (cid : Nat) (c : Ctx) : (s.withCtx cid c).outside = s.outside := rfl
@[simp] theorem State.withCtx_bytesNow (s : State) (cid : Nat) (c : Ctx) : (s.withCtx cid c).bytesNow = s.bytesNow := rfl

@[simp] theorem State.withHart_mem (s : State) (r : HartRef) (h : Hart) : (s.withHart r h).mem = s.mem := rfl
@[simp] theorem State.withHart_hostMem (s : State) (r : HartRef) (h : Hart) : (s.withHart r h).hostMem = s.hostMem := rfl
@[simp] theorem State.withHart_gran (s : State) (r : HartRef) (h : Hart) : (s.withHart r h).gran = s.gran := rfl
@[simp] theorem State.withHart_wgen (s : State) (r : HartRef) (h : Hart) : (s.withHart r h).wgen = s.wgen := rfl
@[simp] theorem State.withHart_ecc (s : State) (r : HartRef) (h : Hart) : (s.withHart r h).ecc = s.ecc := rfl
@[simp] theorem State.withHart_soft (s : State) (r : HartRef) (h : Hart) : (s.withHart r h).soft = s.soft := rfl
@[simp] theorem State.withHart_hb (s : State) (r : HartRef) (h : Hart) : (s.withHart r h).hb = s.hb := rfl
@[simp] theorem State.withHart_tenants (s : State) (r : HartRef) (h : Hart) : (s.withHart r h).tenants = s.tenants := rfl
@[simp] theorem State.withHart_die (s : State) (r : HartRef) (h : Hart) : (s.withHart r h).die = s.die := rfl
@[simp] theorem State.withHart_tlb (s : State) (r : HartRef) (h : Hart) : (s.withHart r h).tlb = s.tlb := rfl
@[simp] theorem State.withHart_migs (s : State) (r : HartRef) (h : Hart) : (s.withHart r h).migs = s.migs := rfl
@[simp] theorem State.withHart_packets (s : State) (r : HartRef) (h : Hart) : (s.withHart r h).packets = s.packets := rfl
@[simp] theorem State.withHart_watches (s : State) (r : HartRef) (h : Hart) : (s.withHart r h).watches = s.watches := rfl
@[simp] theorem State.withHart_outWatch (s : State) (r : HartRef) (h : Hart) : (s.withHart r h).outWatch = s.outWatch := rfl
@[simp] theorem State.withHart_hits (s : State) (r : HartRef) (h : Hart) : (s.withHart r h).hits = s.hits := rfl
@[simp] theorem State.withHart_reported (s : State) (r : HartRef) (h : Hart) : (s.withHart r h).reported = s.reported := rfl
@[simp] theorem State.withHart_reuse (s : State) (r : HartRef) (h : Hart) : (s.withHart r h).reuse = s.reuse := rfl
@[simp] theorem State.withHart_windows (s : State) (r : HartRef) (h : Hart) : (s.withHart r h).windows = s.windows := rfl
@[simp] theorem State.withHart_quadBars (s : State) (r : HartRef) (h : Hart) : (s.withHart r h).quadBars = s.quadBars := rfl
@[simp] theorem State.withHart_dieBars (s : State) (r : HartRef) (h : Hart) : (s.withHart r h).dieBars = s.dieBars := rfl
@[simp] theorem State.withHart_kernels (s : State) (r : HartRef) (h : Hart) : (s.withHart r h).kernels = s.kernels := rfl
@[simp] theorem State.withHart_kernelNo (s : State) (r : HartRef) (h : Hart) : (s.withHart r h).kernelNo = s.kernelNo := rfl
@[simp] theorem State.withHart_reserve (s : State) (r : HartRef) (h : Hart) : (s.withHart r h).reserve = s.reserve := rfl
@[simp] theorem State.withHart_copies (s : State) (r : HartRef) (h : Hart) : (s.withHart r h).copies = s.copies := rfl
@[simp] theorem State.withHart_issue (s : State) (r : HartRef) (h : Hart) : (s.withHart r h).issue = s.issue := rfl
@[simp] theorem State.withHart_fair (s : State) (r : HartRef) (h : Hart) : (s.withHart r h).fair = s.fair := rfl
@[simp] theorem State.withHart_starts (s : State) (r : HartRef) (h : Hart) : (s.withHart r h).starts = s.starts := rfl
@[simp] theorem State.withHart_sorusOff (s : State) (r : HartRef) (h : Hart) : (s.withHart r h).sorusOff = s.sorusOff := rfl
@[simp] theorem State.withHart_traps (s : State) (r : HartRef) (h : Hart) : (s.withHart r h).traps = s.traps := rfl
@[simp] theorem State.withHart_dev (s : State) (r : HartRef) (h : Hart) : (s.withHart r h).dev = s.dev := rfl
@[simp] theorem State.withHart_tap (s : State) (r : HartRef) (h : Hart) : (s.withHart r h).tap = s.tap := rfl
@[simp] theorem State.withHart_frozen (s : State) (r : HartRef) (h : Hart) : (s.withHart r h).frozen = s.frozen := rfl
@[simp] theorem State.withHart_links (s : State) (r : HartRef) (h : Hart) : (s.withHart r h).links = s.links := rfl
@[simp] theorem State.withHart_routers (s : State) (r : HartRef) (h : Hart) : (s.withHart r h).routers = s.routers := rfl
@[simp] theorem State.withHart_linkCnt (s : State) (r : HartRef) (h : Hart) : (s.withHart r h).linkCnt = s.linkCnt := rfl
@[simp] theorem State.withHart_half (s : State) (r : HartRef) (h : Hart) : (s.withHart r h).half = s.half := rfl
@[simp] theorem State.withHart_hostSeen (s : State) (r : HartRef) (h : Hart) : (s.withHart r h).hostSeen = s.hostSeen := rfl
@[simp] theorem State.withHart_serial (s : State) (r : HartRef) (h : Hart) : (s.withHart r h).serial = s.serial := rfl
@[simp] theorem State.withHart_sched (s : State) (r : HartRef) (h : Hart) : (s.withHart r h).sched = s.sched := rfl
@[simp] theorem State.withHart_cur (s : State) (r : HartRef) (h : Hart) : (s.withHart r h).cur = s.cur := rfl
@[simp] theorem State.withHart_yieldNow (s : State) (r : HartRef) (h : Hart) : (s.withHart r h).yieldNow = s.yieldNow := rfl
@[simp] theorem State.withHart_evArg (s : State) (r : HartRef) (h : Hart) : (s.withHart r h).evArg = s.evArg := rfl
@[simp] theorem State.withHart_freeCtr (s : State) (r : HartRef) (h : Hart) : (s.withHart r h).freeCtr = s.freeCtr := rfl
@[simp] theorem State.withHart_turnIntr (s : State) (r : HartRef) (h : Hart) : (s.withHart r h).turnIntr = s.turnIntr := rfl
@[simp] theorem State.withHart_pairs (s : State) (r : HartRef) (h : Hart) : (s.withHart r h).pairs = s.pairs := rfl
@[simp] theorem State.withHart_outside (s : State) (r : HartRef) (h : Hart) : (s.withHart r h).outside = s.outside := rfl
@[simp] theorem State.withHart_bytesNow (s : State) (r : HartRef) (h : Hart) : (s.withHart r h).bytesNow = s.bytesNow := rfl

@[simp] theorem State.withMe_mem (s : State) (h : Hart) : (s.withMe h).mem = s.mem := rfl
@[simp] theorem State.withMe_hostMem (s : State) (h : Hart) : (s.withMe h).hostMem = s.hostMem := rfl
@[simp] theorem State.withMe_gran (s : State) (h : Hart) : (s.withMe h).gran = s.gran := rfl
@[simp] theorem State.withMe_wgen (s : State) (h : Hart) : (s.withMe h).wgen = s.wgen := rfl
@[simp] theorem State.withMe_ecc (s : State) (h : Hart) : (s.withMe h).ecc = s.ecc := rfl
@[simp] theorem State.withMe_soft (s : State) (h : Hart) : (s.withMe h).soft = s.soft := rfl
@[simp] theorem State.withMe_hb (s : State) (h : Hart) : (s.withMe h).hb = s.hb := rfl
@[simp] theorem State.withMe_tenants (s : State) (h : Hart) : (s.withMe h).tenants = s.tenants := rfl
@[simp] theorem State.withMe_die (s : State) (h : Hart) : (s.withMe h).die = s.die := rfl
@[simp] theorem State.withMe_tlb (s : State) (h : Hart) : (s.withMe h).tlb = s.tlb := rfl
@[simp] theorem State.withMe_migs (s : State) (h : Hart) : (s.withMe h).migs = s.migs := rfl
@[simp] theorem State.withMe_packets (s : State) (h : Hart) : (s.withMe h).packets = s.packets := rfl
@[simp] theorem State.withMe_watches (s : State) (h : Hart) : (s.withMe h).watches = s.watches := rfl
@[simp] theorem State.withMe_outWatch (s : State) (h : Hart) : (s.withMe h).outWatch = s.outWatch := rfl
@[simp] theorem State.withMe_hits (s : State) (h : Hart) : (s.withMe h).hits = s.hits := rfl
@[simp] theorem State.withMe_reported (s : State) (h : Hart) : (s.withMe h).reported = s.reported := rfl
@[simp] theorem State.withMe_reuse (s : State) (h : Hart) : (s.withMe h).reuse = s.reuse := rfl
@[simp] theorem State.withMe_windows (s : State) (h : Hart) : (s.withMe h).windows = s.windows := rfl
@[simp] theorem State.withMe_quadBars (s : State) (h : Hart) : (s.withMe h).quadBars = s.quadBars := rfl
@[simp] theorem State.withMe_dieBars (s : State) (h : Hart) : (s.withMe h).dieBars = s.dieBars := rfl
@[simp] theorem State.withMe_kernels (s : State) (h : Hart) : (s.withMe h).kernels = s.kernels := rfl
@[simp] theorem State.withMe_kernelNo (s : State) (h : Hart) : (s.withMe h).kernelNo = s.kernelNo := rfl
@[simp] theorem State.withMe_reserve (s : State) (h : Hart) : (s.withMe h).reserve = s.reserve := rfl
@[simp] theorem State.withMe_copies (s : State) (h : Hart) : (s.withMe h).copies = s.copies := rfl
@[simp] theorem State.withMe_issue (s : State) (h : Hart) : (s.withMe h).issue = s.issue := rfl
@[simp] theorem State.withMe_fair (s : State) (h : Hart) : (s.withMe h).fair = s.fair := rfl
@[simp] theorem State.withMe_starts (s : State) (h : Hart) : (s.withMe h).starts = s.starts := rfl
@[simp] theorem State.withMe_sorusOff (s : State) (h : Hart) : (s.withMe h).sorusOff = s.sorusOff := rfl
@[simp] theorem State.withMe_traps (s : State) (h : Hart) : (s.withMe h).traps = s.traps := rfl
@[simp] theorem State.withMe_dev (s : State) (h : Hart) : (s.withMe h).dev = s.dev := rfl
@[simp] theorem State.withMe_tap (s : State) (h : Hart) : (s.withMe h).tap = s.tap := rfl
@[simp] theorem State.withMe_frozen (s : State) (h : Hart) : (s.withMe h).frozen = s.frozen := rfl
@[simp] theorem State.withMe_links (s : State) (h : Hart) : (s.withMe h).links = s.links := rfl
@[simp] theorem State.withMe_routers (s : State) (h : Hart) : (s.withMe h).routers = s.routers := rfl
@[simp] theorem State.withMe_linkCnt (s : State) (h : Hart) : (s.withMe h).linkCnt = s.linkCnt := rfl
@[simp] theorem State.withMe_half (s : State) (h : Hart) : (s.withMe h).half = s.half := rfl
@[simp] theorem State.withMe_hostSeen (s : State) (h : Hart) : (s.withMe h).hostSeen = s.hostSeen := rfl
@[simp] theorem State.withMe_serial (s : State) (h : Hart) : (s.withMe h).serial = s.serial := rfl
@[simp] theorem State.withMe_sched (s : State) (h : Hart) : (s.withMe h).sched = s.sched := rfl
@[simp] theorem State.withMe_cur (s : State) (h : Hart) : (s.withMe h).cur = s.cur := rfl
@[simp] theorem State.withMe_yieldNow (s : State) (h : Hart) : (s.withMe h).yieldNow = s.yieldNow := rfl
@[simp] theorem State.withMe_evArg (s : State) (h : Hart) : (s.withMe h).evArg = s.evArg := rfl
@[simp] theorem State.withMe_freeCtr (s : State) (h : Hart) : (s.withMe h).freeCtr = s.freeCtr := rfl
@[simp] theorem State.withMe_turnIntr (s : State) (h : Hart) : (s.withMe h).turnIntr = s.turnIntr := rfl
@[simp] theorem State.withMe_pairs (s : State) (h : Hart) : (s.withMe h).pairs = s.pairs := rfl
@[simp] theorem State.withMe_outside (s : State) (h : Hart) : (s.withMe h).outside = s.outside := rfl
@[simp] theorem State.withMe_bytesNow (s : State) (h : Hart) : (s.withMe h).bytesNow = s.bytesNow := rfl

@[simp] theorem State.withMyCtx_mem (s : State) (c : Ctx) : (s.withMyCtx c).mem = s.mem := rfl
@[simp] theorem State.withMyCtx_hostMem (s : State) (c : Ctx) : (s.withMyCtx c).hostMem = s.hostMem := rfl
@[simp] theorem State.withMyCtx_gran (s : State) (c : Ctx) : (s.withMyCtx c).gran = s.gran := rfl
@[simp] theorem State.withMyCtx_wgen (s : State) (c : Ctx) : (s.withMyCtx c).wgen = s.wgen := rfl
@[simp] theorem State.withMyCtx_ecc (s : State) (c : Ctx) : (s.withMyCtx c).ecc = s.ecc := rfl
@[simp] theorem State.withMyCtx_soft (s : State) (c : Ctx) : (s.withMyCtx c).soft = s.soft := rfl
@[simp] theorem State.withMyCtx_hb (s : State) (c : Ctx) : (s.withMyCtx c).hb = s.hb := rfl
@[simp] theorem State.withMyCtx_tenants (s : State) (c : Ctx) : (s.withMyCtx c).tenants = s.tenants := rfl
@[simp] theorem State.withMyCtx_die (s : State) (c : Ctx) : (s.withMyCtx c).die = s.die := rfl
@[simp] theorem State.withMyCtx_tlb (s : State) (c : Ctx) : (s.withMyCtx c).tlb = s.tlb := rfl
@[simp] theorem State.withMyCtx_migs (s : State) (c : Ctx) : (s.withMyCtx c).migs = s.migs := rfl
@[simp] theorem State.withMyCtx_packets (s : State) (c : Ctx) : (s.withMyCtx c).packets = s.packets := rfl
@[simp] theorem State.withMyCtx_watches (s : State) (c : Ctx) : (s.withMyCtx c).watches = s.watches := rfl
@[simp] theorem State.withMyCtx_outWatch (s : State) (c : Ctx) : (s.withMyCtx c).outWatch = s.outWatch := rfl
@[simp] theorem State.withMyCtx_hits (s : State) (c : Ctx) : (s.withMyCtx c).hits = s.hits := rfl
@[simp] theorem State.withMyCtx_reported (s : State) (c : Ctx) : (s.withMyCtx c).reported = s.reported := rfl
@[simp] theorem State.withMyCtx_reuse (s : State) (c : Ctx) : (s.withMyCtx c).reuse = s.reuse := rfl
@[simp] theorem State.withMyCtx_windows (s : State) (c : Ctx) : (s.withMyCtx c).windows = s.windows := rfl
@[simp] theorem State.withMyCtx_quadBars (s : State) (c : Ctx) : (s.withMyCtx c).quadBars = s.quadBars := rfl
@[simp] theorem State.withMyCtx_dieBars (s : State) (c : Ctx) : (s.withMyCtx c).dieBars = s.dieBars := rfl
@[simp] theorem State.withMyCtx_kernels (s : State) (c : Ctx) : (s.withMyCtx c).kernels = s.kernels := rfl
@[simp] theorem State.withMyCtx_kernelNo (s : State) (c : Ctx) : (s.withMyCtx c).kernelNo = s.kernelNo := rfl
@[simp] theorem State.withMyCtx_reserve (s : State) (c : Ctx) : (s.withMyCtx c).reserve = s.reserve := rfl
@[simp] theorem State.withMyCtx_copies (s : State) (c : Ctx) : (s.withMyCtx c).copies = s.copies := rfl
@[simp] theorem State.withMyCtx_issue (s : State) (c : Ctx) : (s.withMyCtx c).issue = s.issue := rfl
@[simp] theorem State.withMyCtx_fair (s : State) (c : Ctx) : (s.withMyCtx c).fair = s.fair := rfl
@[simp] theorem State.withMyCtx_starts (s : State) (c : Ctx) : (s.withMyCtx c).starts = s.starts := rfl
@[simp] theorem State.withMyCtx_sorusOff (s : State) (c : Ctx) : (s.withMyCtx c).sorusOff = s.sorusOff := rfl
@[simp] theorem State.withMyCtx_traps (s : State) (c : Ctx) : (s.withMyCtx c).traps = s.traps := rfl
@[simp] theorem State.withMyCtx_dev (s : State) (c : Ctx) : (s.withMyCtx c).dev = s.dev := rfl
@[simp] theorem State.withMyCtx_tap (s : State) (c : Ctx) : (s.withMyCtx c).tap = s.tap := rfl
@[simp] theorem State.withMyCtx_frozen (s : State) (c : Ctx) : (s.withMyCtx c).frozen = s.frozen := rfl
@[simp] theorem State.withMyCtx_links (s : State) (c : Ctx) : (s.withMyCtx c).links = s.links := rfl
@[simp] theorem State.withMyCtx_routers (s : State) (c : Ctx) : (s.withMyCtx c).routers = s.routers := rfl
@[simp] theorem State.withMyCtx_linkCnt (s : State) (c : Ctx) : (s.withMyCtx c).linkCnt = s.linkCnt := rfl
@[simp] theorem State.withMyCtx_half (s : State) (c : Ctx) : (s.withMyCtx c).half = s.half := rfl
@[simp] theorem State.withMyCtx_hostSeen (s : State) (c : Ctx) : (s.withMyCtx c).hostSeen = s.hostSeen := rfl
@[simp] theorem State.withMyCtx_serial (s : State) (c : Ctx) : (s.withMyCtx c).serial = s.serial := rfl
@[simp] theorem State.withMyCtx_sched (s : State) (c : Ctx) : (s.withMyCtx c).sched = s.sched := rfl
@[simp] theorem State.withMyCtx_cur (s : State) (c : Ctx) : (s.withMyCtx c).cur = s.cur := rfl
@[simp] theorem State.withMyCtx_yieldNow (s : State) (c : Ctx) : (s.withMyCtx c).yieldNow = s.yieldNow := rfl
@[simp] theorem State.withMyCtx_evArg (s : State) (c : Ctx) : (s.withMyCtx c).evArg = s.evArg := rfl
@[simp] theorem State.withMyCtx_freeCtr (s : State) (c : Ctx) : (s.withMyCtx c).freeCtr = s.freeCtr := rfl
@[simp] theorem State.withMyCtx_turnIntr (s : State) (c : Ctx) : (s.withMyCtx c).turnIntr = s.turnIntr := rfl
@[simp] theorem State.withMyCtx_pairs (s : State) (c : Ctx) : (s.withMyCtx c).pairs = s.pairs := rfl
@[simp] theorem State.withMyCtx_outside (s : State) (c : Ctx) : (s.withMyCtx c).outside = s.outside := rfl
@[simp] theorem State.withMyCtx_bytesNow (s : State) (c : Ctx) : (s.withMyCtx c).bytesNow = s.bytesNow := rfl

@[simp] theorem State.writeS_mem (s : State) (r : SReg) (x : Word) : (s.writeS r x).mem = s.mem := rfl
@[simp] theorem State.writeS_hostMem (s : State) (r : SReg) (x : Word) : (s.writeS r x).hostMem = s.hostMem := rfl
@[simp] theorem State.writeS_gran (s : State) (r : SReg) (x : Word) : (s.writeS r x).gran = s.gran := rfl
@[simp] theorem State.writeS_wgen (s : State) (r : SReg) (x : Word) : (s.writeS r x).wgen = s.wgen := rfl
@[simp] theorem State.writeS_ecc (s : State) (r : SReg) (x : Word) : (s.writeS r x).ecc = s.ecc := rfl
@[simp] theorem State.writeS_soft (s : State) (r : SReg) (x : Word) : (s.writeS r x).soft = s.soft := rfl
@[simp] theorem State.writeS_hb (s : State) (r : SReg) (x : Word) : (s.writeS r x).hb = s.hb := rfl
@[simp] theorem State.writeS_tenants (s : State) (r : SReg) (x : Word) : (s.writeS r x).tenants = s.tenants := rfl
@[simp] theorem State.writeS_die (s : State) (r : SReg) (x : Word) : (s.writeS r x).die = s.die := rfl
@[simp] theorem State.writeS_tlb (s : State) (r : SReg) (x : Word) : (s.writeS r x).tlb = s.tlb := rfl
@[simp] theorem State.writeS_migs (s : State) (r : SReg) (x : Word) : (s.writeS r x).migs = s.migs := rfl
@[simp] theorem State.writeS_packets (s : State) (r : SReg) (x : Word) : (s.writeS r x).packets = s.packets := rfl
@[simp] theorem State.writeS_watches (s : State) (r : SReg) (x : Word) : (s.writeS r x).watches = s.watches := rfl
@[simp] theorem State.writeS_outWatch (s : State) (r : SReg) (x : Word) : (s.writeS r x).outWatch = s.outWatch := rfl
@[simp] theorem State.writeS_hits (s : State) (r : SReg) (x : Word) : (s.writeS r x).hits = s.hits := rfl
@[simp] theorem State.writeS_reported (s : State) (r : SReg) (x : Word) : (s.writeS r x).reported = s.reported := rfl
@[simp] theorem State.writeS_reuse (s : State) (r : SReg) (x : Word) : (s.writeS r x).reuse = s.reuse := rfl
@[simp] theorem State.writeS_windows (s : State) (r : SReg) (x : Word) : (s.writeS r x).windows = s.windows := rfl
@[simp] theorem State.writeS_quadBars (s : State) (r : SReg) (x : Word) : (s.writeS r x).quadBars = s.quadBars := rfl
@[simp] theorem State.writeS_dieBars (s : State) (r : SReg) (x : Word) : (s.writeS r x).dieBars = s.dieBars := rfl
@[simp] theorem State.writeS_kernels (s : State) (r : SReg) (x : Word) : (s.writeS r x).kernels = s.kernels := rfl
@[simp] theorem State.writeS_kernelNo (s : State) (r : SReg) (x : Word) : (s.writeS r x).kernelNo = s.kernelNo := rfl
@[simp] theorem State.writeS_reserve (s : State) (r : SReg) (x : Word) : (s.writeS r x).reserve = s.reserve := rfl
@[simp] theorem State.writeS_copies (s : State) (r : SReg) (x : Word) : (s.writeS r x).copies = s.copies := rfl
@[simp] theorem State.writeS_issue (s : State) (r : SReg) (x : Word) : (s.writeS r x).issue = s.issue := rfl
@[simp] theorem State.writeS_fair (s : State) (r : SReg) (x : Word) : (s.writeS r x).fair = s.fair := rfl
@[simp] theorem State.writeS_starts (s : State) (r : SReg) (x : Word) : (s.writeS r x).starts = s.starts := rfl
@[simp] theorem State.writeS_sorusOff (s : State) (r : SReg) (x : Word) : (s.writeS r x).sorusOff = s.sorusOff := rfl
@[simp] theorem State.writeS_traps (s : State) (r : SReg) (x : Word) : (s.writeS r x).traps = s.traps := rfl
@[simp] theorem State.writeS_dev (s : State) (r : SReg) (x : Word) : (s.writeS r x).dev = s.dev := rfl
@[simp] theorem State.writeS_tap (s : State) (r : SReg) (x : Word) : (s.writeS r x).tap = s.tap := rfl
@[simp] theorem State.writeS_frozen (s : State) (r : SReg) (x : Word) : (s.writeS r x).frozen = s.frozen := rfl
@[simp] theorem State.writeS_links (s : State) (r : SReg) (x : Word) : (s.writeS r x).links = s.links := rfl
@[simp] theorem State.writeS_routers (s : State) (r : SReg) (x : Word) : (s.writeS r x).routers = s.routers := rfl
@[simp] theorem State.writeS_linkCnt (s : State) (r : SReg) (x : Word) : (s.writeS r x).linkCnt = s.linkCnt := rfl
@[simp] theorem State.writeS_half (s : State) (r : SReg) (x : Word) : (s.writeS r x).half = s.half := rfl
@[simp] theorem State.writeS_hostSeen (s : State) (r : SReg) (x : Word) : (s.writeS r x).hostSeen = s.hostSeen := rfl
@[simp] theorem State.writeS_serial (s : State) (r : SReg) (x : Word) : (s.writeS r x).serial = s.serial := rfl
@[simp] theorem State.writeS_sched (s : State) (r : SReg) (x : Word) : (s.writeS r x).sched = s.sched := rfl
@[simp] theorem State.writeS_cur (s : State) (r : SReg) (x : Word) : (s.writeS r x).cur = s.cur := rfl
@[simp] theorem State.writeS_yieldNow (s : State) (r : SReg) (x : Word) : (s.writeS r x).yieldNow = s.yieldNow := rfl
@[simp] theorem State.writeS_evArg (s : State) (r : SReg) (x : Word) : (s.writeS r x).evArg = s.evArg := rfl
@[simp] theorem State.writeS_freeCtr (s : State) (r : SReg) (x : Word) : (s.writeS r x).freeCtr = s.freeCtr := rfl
@[simp] theorem State.writeS_turnIntr (s : State) (r : SReg) (x : Word) : (s.writeS r x).turnIntr = s.turnIntr := rfl
@[simp] theorem State.writeS_pairs (s : State) (r : SReg) (x : Word) : (s.writeS r x).pairs = s.pairs := rfl
@[simp] theorem State.writeS_outside (s : State) (r : SReg) (x : Word) : (s.writeS r x).outside = s.outside := rfl
@[simp] theorem State.writeS_bytesNow (s : State) (r : SReg) (x : Word) : (s.writeS r x).bytesNow = s.bytesNow := rfl

@[simp] theorem State.advance_mem (s : State) (n : Nat) : (s.advance n).mem = s.mem := rfl
@[simp] theorem State.advance_hostMem (s : State) (n : Nat) : (s.advance n).hostMem = s.hostMem := rfl
@[simp] theorem State.advance_gran (s : State) (n : Nat) : (s.advance n).gran = s.gran := rfl
@[simp] theorem State.advance_wgen (s : State) (n : Nat) : (s.advance n).wgen = s.wgen := rfl
@[simp] theorem State.advance_ecc (s : State) (n : Nat) : (s.advance n).ecc = s.ecc := rfl
@[simp] theorem State.advance_soft (s : State) (n : Nat) : (s.advance n).soft = s.soft := rfl
@[simp] theorem State.advance_hb (s : State) (n : Nat) : (s.advance n).hb = s.hb := rfl
@[simp] theorem State.advance_tenants (s : State) (n : Nat) : (s.advance n).tenants = s.tenants := rfl
@[simp] theorem State.advance_die (s : State) (n : Nat) : (s.advance n).die = s.die := rfl
@[simp] theorem State.advance_tlb (s : State) (n : Nat) : (s.advance n).tlb = s.tlb := rfl
@[simp] theorem State.advance_migs (s : State) (n : Nat) : (s.advance n).migs = s.migs := rfl
@[simp] theorem State.advance_packets (s : State) (n : Nat) : (s.advance n).packets = s.packets := rfl
@[simp] theorem State.advance_watches (s : State) (n : Nat) : (s.advance n).watches = s.watches := rfl
@[simp] theorem State.advance_outWatch (s : State) (n : Nat) : (s.advance n).outWatch = s.outWatch := rfl
@[simp] theorem State.advance_hits (s : State) (n : Nat) : (s.advance n).hits = s.hits := rfl
@[simp] theorem State.advance_reported (s : State) (n : Nat) : (s.advance n).reported = s.reported := rfl
@[simp] theorem State.advance_reuse (s : State) (n : Nat) : (s.advance n).reuse = s.reuse := rfl
@[simp] theorem State.advance_windows (s : State) (n : Nat) : (s.advance n).windows = s.windows := rfl
@[simp] theorem State.advance_quadBars (s : State) (n : Nat) : (s.advance n).quadBars = s.quadBars := rfl
@[simp] theorem State.advance_dieBars (s : State) (n : Nat) : (s.advance n).dieBars = s.dieBars := rfl
@[simp] theorem State.advance_kernels (s : State) (n : Nat) : (s.advance n).kernels = s.kernels := rfl
@[simp] theorem State.advance_kernelNo (s : State) (n : Nat) : (s.advance n).kernelNo = s.kernelNo := rfl
@[simp] theorem State.advance_reserve (s : State) (n : Nat) : (s.advance n).reserve = s.reserve := rfl
@[simp] theorem State.advance_copies (s : State) (n : Nat) : (s.advance n).copies = s.copies := rfl
@[simp] theorem State.advance_issue (s : State) (n : Nat) : (s.advance n).issue = s.issue := rfl
@[simp] theorem State.advance_fair (s : State) (n : Nat) : (s.advance n).fair = s.fair := rfl
@[simp] theorem State.advance_starts (s : State) (n : Nat) : (s.advance n).starts = s.starts := rfl
@[simp] theorem State.advance_sorusOff (s : State) (n : Nat) : (s.advance n).sorusOff = s.sorusOff := rfl
@[simp] theorem State.advance_traps (s : State) (n : Nat) : (s.advance n).traps = s.traps := rfl
@[simp] theorem State.advance_dev (s : State) (n : Nat) : (s.advance n).dev = s.dev := rfl
@[simp] theorem State.advance_tap (s : State) (n : Nat) : (s.advance n).tap = s.tap := rfl
@[simp] theorem State.advance_frozen (s : State) (n : Nat) : (s.advance n).frozen = s.frozen := rfl
@[simp] theorem State.advance_links (s : State) (n : Nat) : (s.advance n).links = s.links := rfl
@[simp] theorem State.advance_routers (s : State) (n : Nat) : (s.advance n).routers = s.routers := rfl
@[simp] theorem State.advance_linkCnt (s : State) (n : Nat) : (s.advance n).linkCnt = s.linkCnt := rfl
@[simp] theorem State.advance_half (s : State) (n : Nat) : (s.advance n).half = s.half := rfl
@[simp] theorem State.advance_hostSeen (s : State) (n : Nat) : (s.advance n).hostSeen = s.hostSeen := rfl
@[simp] theorem State.advance_serial (s : State) (n : Nat) : (s.advance n).serial = s.serial := rfl
@[simp] theorem State.advance_sched (s : State) (n : Nat) : (s.advance n).sched = s.sched := rfl
@[simp] theorem State.advance_cur (s : State) (n : Nat) : (s.advance n).cur = s.cur := rfl
@[simp] theorem State.advance_yieldNow (s : State) (n : Nat) : (s.advance n).yieldNow = s.yieldNow := rfl
@[simp] theorem State.advance_evArg (s : State) (n : Nat) : (s.advance n).evArg = s.evArg := rfl
@[simp] theorem State.advance_freeCtr (s : State) (n : Nat) : (s.advance n).freeCtr = s.freeCtr := rfl
@[simp] theorem State.advance_turnIntr (s : State) (n : Nat) : (s.advance n).turnIntr = s.turnIntr := rfl
@[simp] theorem State.advance_pairs (s : State) (n : Nat) : (s.advance n).pairs = s.pairs := rfl
@[simp] theorem State.advance_outside (s : State) (n : Nat) : (s.advance n).outside = s.outside := rfl
@[simp] theorem State.advance_bytesNow (s : State) (n : Nat) : (s.advance n).bytesNow = s.bytesNow := rfl

@[simp] theorem State.jump_mem (s : State) (pc : Word) : (s.jump pc).mem = s.mem := rfl
@[simp] theorem State.jump_hostMem (s : State) (pc : Word) : (s.jump pc).hostMem = s.hostMem := rfl
@[simp] theorem State.jump_gran (s : State) (pc : Word) : (s.jump pc).gran = s.gran := rfl
@[simp] theorem State.jump_wgen (s : State) (pc : Word) : (s.jump pc).wgen = s.wgen := rfl
@[simp] theorem State.jump_ecc (s : State) (pc : Word) : (s.jump pc).ecc = s.ecc := rfl
@[simp] theorem State.jump_soft (s : State) (pc : Word) : (s.jump pc).soft = s.soft := rfl
@[simp] theorem State.jump_hb (s : State) (pc : Word) : (s.jump pc).hb = s.hb := rfl
@[simp] theorem State.jump_tenants (s : State) (pc : Word) : (s.jump pc).tenants = s.tenants := rfl
@[simp] theorem State.jump_die (s : State) (pc : Word) : (s.jump pc).die = s.die := rfl
@[simp] theorem State.jump_tlb (s : State) (pc : Word) : (s.jump pc).tlb = s.tlb := rfl
@[simp] theorem State.jump_migs (s : State) (pc : Word) : (s.jump pc).migs = s.migs := rfl
@[simp] theorem State.jump_packets (s : State) (pc : Word) : (s.jump pc).packets = s.packets := rfl
@[simp] theorem State.jump_watches (s : State) (pc : Word) : (s.jump pc).watches = s.watches := rfl
@[simp] theorem State.jump_outWatch (s : State) (pc : Word) : (s.jump pc).outWatch = s.outWatch := rfl
@[simp] theorem State.jump_hits (s : State) (pc : Word) : (s.jump pc).hits = s.hits := rfl
@[simp] theorem State.jump_reported (s : State) (pc : Word) : (s.jump pc).reported = s.reported := rfl
@[simp] theorem State.jump_reuse (s : State) (pc : Word) : (s.jump pc).reuse = s.reuse := rfl
@[simp] theorem State.jump_windows (s : State) (pc : Word) : (s.jump pc).windows = s.windows := rfl
@[simp] theorem State.jump_quadBars (s : State) (pc : Word) : (s.jump pc).quadBars = s.quadBars := rfl
@[simp] theorem State.jump_dieBars (s : State) (pc : Word) : (s.jump pc).dieBars = s.dieBars := rfl
@[simp] theorem State.jump_kernels (s : State) (pc : Word) : (s.jump pc).kernels = s.kernels := rfl
@[simp] theorem State.jump_kernelNo (s : State) (pc : Word) : (s.jump pc).kernelNo = s.kernelNo := rfl
@[simp] theorem State.jump_reserve (s : State) (pc : Word) : (s.jump pc).reserve = s.reserve := rfl
@[simp] theorem State.jump_copies (s : State) (pc : Word) : (s.jump pc).copies = s.copies := rfl
@[simp] theorem State.jump_issue (s : State) (pc : Word) : (s.jump pc).issue = s.issue := rfl
@[simp] theorem State.jump_fair (s : State) (pc : Word) : (s.jump pc).fair = s.fair := rfl
@[simp] theorem State.jump_starts (s : State) (pc : Word) : (s.jump pc).starts = s.starts := rfl
@[simp] theorem State.jump_sorusOff (s : State) (pc : Word) : (s.jump pc).sorusOff = s.sorusOff := rfl
@[simp] theorem State.jump_traps (s : State) (pc : Word) : (s.jump pc).traps = s.traps := rfl
@[simp] theorem State.jump_dev (s : State) (pc : Word) : (s.jump pc).dev = s.dev := rfl
@[simp] theorem State.jump_tap (s : State) (pc : Word) : (s.jump pc).tap = s.tap := rfl
@[simp] theorem State.jump_frozen (s : State) (pc : Word) : (s.jump pc).frozen = s.frozen := rfl
@[simp] theorem State.jump_links (s : State) (pc : Word) : (s.jump pc).links = s.links := rfl
@[simp] theorem State.jump_routers (s : State) (pc : Word) : (s.jump pc).routers = s.routers := rfl
@[simp] theorem State.jump_linkCnt (s : State) (pc : Word) : (s.jump pc).linkCnt = s.linkCnt := rfl
@[simp] theorem State.jump_half (s : State) (pc : Word) : (s.jump pc).half = s.half := rfl
@[simp] theorem State.jump_hostSeen (s : State) (pc : Word) : (s.jump pc).hostSeen = s.hostSeen := rfl
@[simp] theorem State.jump_serial (s : State) (pc : Word) : (s.jump pc).serial = s.serial := rfl
@[simp] theorem State.jump_sched (s : State) (pc : Word) : (s.jump pc).sched = s.sched := rfl
@[simp] theorem State.jump_cur (s : State) (pc : Word) : (s.jump pc).cur = s.cur := rfl
@[simp] theorem State.jump_yieldNow (s : State) (pc : Word) : (s.jump pc).yieldNow = s.yieldNow := rfl
@[simp] theorem State.jump_evArg (s : State) (pc : Word) : (s.jump pc).evArg = s.evArg := rfl
@[simp] theorem State.jump_freeCtr (s : State) (pc : Word) : (s.jump pc).freeCtr = s.freeCtr := rfl
@[simp] theorem State.jump_turnIntr (s : State) (pc : Word) : (s.jump pc).turnIntr = s.turnIntr := rfl
@[simp] theorem State.jump_pairs (s : State) (pc : Word) : (s.jump pc).pairs = s.pairs := rfl
@[simp] theorem State.jump_outside (s : State) (pc : Word) : (s.jump pc).outside = s.outside := rfl
@[simp] theorem State.jump_bytesNow (s : State) (pc : Word) : (s.jump pc).bytesNow = s.bytesNow := rfl

@[simp] theorem State.retire_mem (s : State) (n : Nat) (d : SReg) (x : Word) : (s.retire n d x).mem = s.mem := rfl
@[simp] theorem State.retire_hostMem (s : State) (n : Nat) (d : SReg) (x : Word) : (s.retire n d x).hostMem = s.hostMem := rfl
@[simp] theorem State.retire_gran (s : State) (n : Nat) (d : SReg) (x : Word) : (s.retire n d x).gran = s.gran := rfl
@[simp] theorem State.retire_wgen (s : State) (n : Nat) (d : SReg) (x : Word) : (s.retire n d x).wgen = s.wgen := rfl
@[simp] theorem State.retire_ecc (s : State) (n : Nat) (d : SReg) (x : Word) : (s.retire n d x).ecc = s.ecc := rfl
@[simp] theorem State.retire_soft (s : State) (n : Nat) (d : SReg) (x : Word) : (s.retire n d x).soft = s.soft := rfl
@[simp] theorem State.retire_hb (s : State) (n : Nat) (d : SReg) (x : Word) : (s.retire n d x).hb = s.hb := rfl
@[simp] theorem State.retire_tenants (s : State) (n : Nat) (d : SReg) (x : Word) : (s.retire n d x).tenants = s.tenants := rfl
@[simp] theorem State.retire_die (s : State) (n : Nat) (d : SReg) (x : Word) : (s.retire n d x).die = s.die := rfl
@[simp] theorem State.retire_tlb (s : State) (n : Nat) (d : SReg) (x : Word) : (s.retire n d x).tlb = s.tlb := rfl
@[simp] theorem State.retire_migs (s : State) (n : Nat) (d : SReg) (x : Word) : (s.retire n d x).migs = s.migs := rfl
@[simp] theorem State.retire_packets (s : State) (n : Nat) (d : SReg) (x : Word) : (s.retire n d x).packets = s.packets := rfl
@[simp] theorem State.retire_watches (s : State) (n : Nat) (d : SReg) (x : Word) : (s.retire n d x).watches = s.watches := rfl
@[simp] theorem State.retire_outWatch (s : State) (n : Nat) (d : SReg) (x : Word) : (s.retire n d x).outWatch = s.outWatch := rfl
@[simp] theorem State.retire_hits (s : State) (n : Nat) (d : SReg) (x : Word) : (s.retire n d x).hits = s.hits := rfl
@[simp] theorem State.retire_reported (s : State) (n : Nat) (d : SReg) (x : Word) : (s.retire n d x).reported = s.reported := rfl
@[simp] theorem State.retire_reuse (s : State) (n : Nat) (d : SReg) (x : Word) : (s.retire n d x).reuse = s.reuse := rfl
@[simp] theorem State.retire_windows (s : State) (n : Nat) (d : SReg) (x : Word) : (s.retire n d x).windows = s.windows := rfl
@[simp] theorem State.retire_quadBars (s : State) (n : Nat) (d : SReg) (x : Word) : (s.retire n d x).quadBars = s.quadBars := rfl
@[simp] theorem State.retire_dieBars (s : State) (n : Nat) (d : SReg) (x : Word) : (s.retire n d x).dieBars = s.dieBars := rfl
@[simp] theorem State.retire_kernels (s : State) (n : Nat) (d : SReg) (x : Word) : (s.retire n d x).kernels = s.kernels := rfl
@[simp] theorem State.retire_kernelNo (s : State) (n : Nat) (d : SReg) (x : Word) : (s.retire n d x).kernelNo = s.kernelNo := rfl
@[simp] theorem State.retire_reserve (s : State) (n : Nat) (d : SReg) (x : Word) : (s.retire n d x).reserve = s.reserve := rfl
@[simp] theorem State.retire_copies (s : State) (n : Nat) (d : SReg) (x : Word) : (s.retire n d x).copies = s.copies := rfl
@[simp] theorem State.retire_issue (s : State) (n : Nat) (d : SReg) (x : Word) : (s.retire n d x).issue = s.issue := rfl
@[simp] theorem State.retire_fair (s : State) (n : Nat) (d : SReg) (x : Word) : (s.retire n d x).fair = s.fair := rfl
@[simp] theorem State.retire_starts (s : State) (n : Nat) (d : SReg) (x : Word) : (s.retire n d x).starts = s.starts := rfl
@[simp] theorem State.retire_sorusOff (s : State) (n : Nat) (d : SReg) (x : Word) : (s.retire n d x).sorusOff = s.sorusOff := rfl
@[simp] theorem State.retire_traps (s : State) (n : Nat) (d : SReg) (x : Word) : (s.retire n d x).traps = s.traps := rfl
@[simp] theorem State.retire_dev (s : State) (n : Nat) (d : SReg) (x : Word) : (s.retire n d x).dev = s.dev := rfl
@[simp] theorem State.retire_tap (s : State) (n : Nat) (d : SReg) (x : Word) : (s.retire n d x).tap = s.tap := rfl
@[simp] theorem State.retire_frozen (s : State) (n : Nat) (d : SReg) (x : Word) : (s.retire n d x).frozen = s.frozen := rfl
@[simp] theorem State.retire_links (s : State) (n : Nat) (d : SReg) (x : Word) : (s.retire n d x).links = s.links := rfl
@[simp] theorem State.retire_routers (s : State) (n : Nat) (d : SReg) (x : Word) : (s.retire n d x).routers = s.routers := rfl
@[simp] theorem State.retire_linkCnt (s : State) (n : Nat) (d : SReg) (x : Word) : (s.retire n d x).linkCnt = s.linkCnt := rfl
@[simp] theorem State.retire_half (s : State) (n : Nat) (d : SReg) (x : Word) : (s.retire n d x).half = s.half := rfl
@[simp] theorem State.retire_hostSeen (s : State) (n : Nat) (d : SReg) (x : Word) : (s.retire n d x).hostSeen = s.hostSeen := rfl
@[simp] theorem State.retire_serial (s : State) (n : Nat) (d : SReg) (x : Word) : (s.retire n d x).serial = s.serial := rfl
@[simp] theorem State.retire_sched (s : State) (n : Nat) (d : SReg) (x : Word) : (s.retire n d x).sched = s.sched := rfl
@[simp] theorem State.retire_cur (s : State) (n : Nat) (d : SReg) (x : Word) : (s.retire n d x).cur = s.cur := rfl
@[simp] theorem State.retire_yieldNow (s : State) (n : Nat) (d : SReg) (x : Word) : (s.retire n d x).yieldNow = s.yieldNow := rfl
@[simp] theorem State.retire_evArg (s : State) (n : Nat) (d : SReg) (x : Word) : (s.retire n d x).evArg = s.evArg := rfl
@[simp] theorem State.retire_freeCtr (s : State) (n : Nat) (d : SReg) (x : Word) : (s.retire n d x).freeCtr = s.freeCtr := rfl
@[simp] theorem State.retire_turnIntr (s : State) (n : Nat) (d : SReg) (x : Word) : (s.retire n d x).turnIntr = s.turnIntr := rfl
@[simp] theorem State.retire_pairs (s : State) (n : Nat) (d : SReg) (x : Word) : (s.retire n d x).pairs = s.pairs := rfl
@[simp] theorem State.retire_outside (s : State) (n : Nat) (d : SReg) (x : Word) : (s.retire n d x).outside = s.outside := rfl
@[simp] theorem State.retire_bytesNow (s : State) (n : Nat) (d : SReg) (x : Word) : (s.retire n d x).bytesNow = s.bytesNow := rfl

@[simp] theorem State.withTenant_mem (s : State) (t : Nat) (x : Tenant) : (s.withTenant t x).mem = s.mem := rfl
@[simp] theorem State.withTenant_hostMem (s : State) (t : Nat) (x : Tenant) : (s.withTenant t x).hostMem = s.hostMem := rfl
@[simp] theorem State.withTenant_gran (s : State) (t : Nat) (x : Tenant) : (s.withTenant t x).gran = s.gran := rfl
@[simp] theorem State.withTenant_wgen (s : State) (t : Nat) (x : Tenant) : (s.withTenant t x).wgen = s.wgen := rfl
@[simp] theorem State.withTenant_ecc (s : State) (t : Nat) (x : Tenant) : (s.withTenant t x).ecc = s.ecc := rfl
@[simp] theorem State.withTenant_soft (s : State) (t : Nat) (x : Tenant) : (s.withTenant t x).soft = s.soft := rfl
@[simp] theorem State.withTenant_hb (s : State) (t : Nat) (x : Tenant) : (s.withTenant t x).hb = s.hb := rfl
@[simp] theorem State.withTenant_die (s : State) (t : Nat) (x : Tenant) : (s.withTenant t x).die = s.die := rfl
@[simp] theorem State.withTenant_tlb (s : State) (t : Nat) (x : Tenant) : (s.withTenant t x).tlb = s.tlb := rfl
@[simp] theorem State.withTenant_migs (s : State) (t : Nat) (x : Tenant) : (s.withTenant t x).migs = s.migs := rfl
@[simp] theorem State.withTenant_packets (s : State) (t : Nat) (x : Tenant) : (s.withTenant t x).packets = s.packets := rfl
@[simp] theorem State.withTenant_watches (s : State) (t : Nat) (x : Tenant) : (s.withTenant t x).watches = s.watches := rfl
@[simp] theorem State.withTenant_outWatch (s : State) (t : Nat) (x : Tenant) : (s.withTenant t x).outWatch = s.outWatch := rfl
@[simp] theorem State.withTenant_hits (s : State) (t : Nat) (x : Tenant) : (s.withTenant t x).hits = s.hits := rfl
@[simp] theorem State.withTenant_reported (s : State) (t : Nat) (x : Tenant) : (s.withTenant t x).reported = s.reported := rfl
@[simp] theorem State.withTenant_reuse (s : State) (t : Nat) (x : Tenant) : (s.withTenant t x).reuse = s.reuse := rfl
@[simp] theorem State.withTenant_windows (s : State) (t : Nat) (x : Tenant) : (s.withTenant t x).windows = s.windows := rfl
@[simp] theorem State.withTenant_quadBars (s : State) (t : Nat) (x : Tenant) : (s.withTenant t x).quadBars = s.quadBars := rfl
@[simp] theorem State.withTenant_dieBars (s : State) (t : Nat) (x : Tenant) : (s.withTenant t x).dieBars = s.dieBars := rfl
@[simp] theorem State.withTenant_kernels (s : State) (t : Nat) (x : Tenant) : (s.withTenant t x).kernels = s.kernels := rfl
@[simp] theorem State.withTenant_kernelNo (s : State) (t : Nat) (x : Tenant) : (s.withTenant t x).kernelNo = s.kernelNo := rfl
@[simp] theorem State.withTenant_reserve (s : State) (t : Nat) (x : Tenant) : (s.withTenant t x).reserve = s.reserve := rfl
@[simp] theorem State.withTenant_ctxs (s : State) (t : Nat) (x : Tenant) : (s.withTenant t x).ctxs = s.ctxs := rfl
@[simp] theorem State.withTenant_copies (s : State) (t : Nat) (x : Tenant) : (s.withTenant t x).copies = s.copies := rfl
@[simp] theorem State.withTenant_issue (s : State) (t : Nat) (x : Tenant) : (s.withTenant t x).issue = s.issue := rfl
@[simp] theorem State.withTenant_fair (s : State) (t : Nat) (x : Tenant) : (s.withTenant t x).fair = s.fair := rfl
@[simp] theorem State.withTenant_starts (s : State) (t : Nat) (x : Tenant) : (s.withTenant t x).starts = s.starts := rfl
@[simp] theorem State.withTenant_sorusOff (s : State) (t : Nat) (x : Tenant) : (s.withTenant t x).sorusOff = s.sorusOff := rfl
@[simp] theorem State.withTenant_traps (s : State) (t : Nat) (x : Tenant) : (s.withTenant t x).traps = s.traps := rfl
@[simp] theorem State.withTenant_dev (s : State) (t : Nat) (x : Tenant) : (s.withTenant t x).dev = s.dev := rfl
@[simp] theorem State.withTenant_tap (s : State) (t : Nat) (x : Tenant) : (s.withTenant t x).tap = s.tap := rfl
@[simp] theorem State.withTenant_frozen (s : State) (t : Nat) (x : Tenant) : (s.withTenant t x).frozen = s.frozen := rfl
@[simp] theorem State.withTenant_links (s : State) (t : Nat) (x : Tenant) : (s.withTenant t x).links = s.links := rfl
@[simp] theorem State.withTenant_routers (s : State) (t : Nat) (x : Tenant) : (s.withTenant t x).routers = s.routers := rfl
@[simp] theorem State.withTenant_linkCnt (s : State) (t : Nat) (x : Tenant) : (s.withTenant t x).linkCnt = s.linkCnt := rfl
@[simp] theorem State.withTenant_half (s : State) (t : Nat) (x : Tenant) : (s.withTenant t x).half = s.half := rfl
@[simp] theorem State.withTenant_hostSeen (s : State) (t : Nat) (x : Tenant) : (s.withTenant t x).hostSeen = s.hostSeen := rfl
@[simp] theorem State.withTenant_serial (s : State) (t : Nat) (x : Tenant) : (s.withTenant t x).serial = s.serial := rfl
@[simp] theorem State.withTenant_sched (s : State) (t : Nat) (x : Tenant) : (s.withTenant t x).sched = s.sched := rfl
@[simp] theorem State.withTenant_cur (s : State) (t : Nat) (x : Tenant) : (s.withTenant t x).cur = s.cur := rfl
@[simp] theorem State.withTenant_yieldNow (s : State) (t : Nat) (x : Tenant) : (s.withTenant t x).yieldNow = s.yieldNow := rfl
@[simp] theorem State.withTenant_evArg (s : State) (t : Nat) (x : Tenant) : (s.withTenant t x).evArg = s.evArg := rfl
@[simp] theorem State.withTenant_freeCtr (s : State) (t : Nat) (x : Tenant) : (s.withTenant t x).freeCtr = s.freeCtr := rfl
@[simp] theorem State.withTenant_turnIntr (s : State) (t : Nat) (x : Tenant) : (s.withTenant t x).turnIntr = s.turnIntr := rfl
@[simp] theorem State.withTenant_pairs (s : State) (t : Nat) (x : Tenant) : (s.withTenant t x).pairs = s.pairs := rfl
@[simp] theorem State.withTenant_outside (s : State) (t : Nat) (x : Tenant) : (s.withTenant t x).outside = s.outside := rfl
@[simp] theorem State.withTenant_bytesNow (s : State) (t : Nat) (x : Tenant) : (s.withTenant t x).bytesNow = s.bytesNow := rfl

@[simp] theorem State.withDie_mem (s : State) (d : Nat) (x : Die) : (s.withDie d x).mem = s.mem := rfl
@[simp] theorem State.withDie_hostMem (s : State) (d : Nat) (x : Die) : (s.withDie d x).hostMem = s.hostMem := rfl
@[simp] theorem State.withDie_gran (s : State) (d : Nat) (x : Die) : (s.withDie d x).gran = s.gran := rfl
@[simp] theorem State.withDie_wgen (s : State) (d : Nat) (x : Die) : (s.withDie d x).wgen = s.wgen := rfl
@[simp] theorem State.withDie_ecc (s : State) (d : Nat) (x : Die) : (s.withDie d x).ecc = s.ecc := rfl
@[simp] theorem State.withDie_soft (s : State) (d : Nat) (x : Die) : (s.withDie d x).soft = s.soft := rfl
@[simp] theorem State.withDie_hb (s : State) (d : Nat) (x : Die) : (s.withDie d x).hb = s.hb := rfl
@[simp] theorem State.withDie_tenants (s : State) (d : Nat) (x : Die) : (s.withDie d x).tenants = s.tenants := rfl
@[simp] theorem State.withDie_tlb (s : State) (d : Nat) (x : Die) : (s.withDie d x).tlb = s.tlb := rfl
@[simp] theorem State.withDie_migs (s : State) (d : Nat) (x : Die) : (s.withDie d x).migs = s.migs := rfl
@[simp] theorem State.withDie_packets (s : State) (d : Nat) (x : Die) : (s.withDie d x).packets = s.packets := rfl
@[simp] theorem State.withDie_watches (s : State) (d : Nat) (x : Die) : (s.withDie d x).watches = s.watches := rfl
@[simp] theorem State.withDie_outWatch (s : State) (d : Nat) (x : Die) : (s.withDie d x).outWatch = s.outWatch := rfl
@[simp] theorem State.withDie_hits (s : State) (d : Nat) (x : Die) : (s.withDie d x).hits = s.hits := rfl
@[simp] theorem State.withDie_reported (s : State) (d : Nat) (x : Die) : (s.withDie d x).reported = s.reported := rfl
@[simp] theorem State.withDie_reuse (s : State) (d : Nat) (x : Die) : (s.withDie d x).reuse = s.reuse := rfl
@[simp] theorem State.withDie_windows (s : State) (d : Nat) (x : Die) : (s.withDie d x).windows = s.windows := rfl
@[simp] theorem State.withDie_quadBars (s : State) (d : Nat) (x : Die) : (s.withDie d x).quadBars = s.quadBars := rfl
@[simp] theorem State.withDie_dieBars (s : State) (d : Nat) (x : Die) : (s.withDie d x).dieBars = s.dieBars := rfl
@[simp] theorem State.withDie_kernels (s : State) (d : Nat) (x : Die) : (s.withDie d x).kernels = s.kernels := rfl
@[simp] theorem State.withDie_kernelNo (s : State) (d : Nat) (x : Die) : (s.withDie d x).kernelNo = s.kernelNo := rfl
@[simp] theorem State.withDie_reserve (s : State) (d : Nat) (x : Die) : (s.withDie d x).reserve = s.reserve := rfl
@[simp] theorem State.withDie_ctxs (s : State) (d : Nat) (x : Die) : (s.withDie d x).ctxs = s.ctxs := rfl
@[simp] theorem State.withDie_copies (s : State) (d : Nat) (x : Die) : (s.withDie d x).copies = s.copies := rfl
@[simp] theorem State.withDie_issue (s : State) (d : Nat) (x : Die) : (s.withDie d x).issue = s.issue := rfl
@[simp] theorem State.withDie_fair (s : State) (d : Nat) (x : Die) : (s.withDie d x).fair = s.fair := rfl
@[simp] theorem State.withDie_starts (s : State) (d : Nat) (x : Die) : (s.withDie d x).starts = s.starts := rfl
@[simp] theorem State.withDie_sorusOff (s : State) (d : Nat) (x : Die) : (s.withDie d x).sorusOff = s.sorusOff := rfl
@[simp] theorem State.withDie_traps (s : State) (d : Nat) (x : Die) : (s.withDie d x).traps = s.traps := rfl
@[simp] theorem State.withDie_dev (s : State) (d : Nat) (x : Die) : (s.withDie d x).dev = s.dev := rfl
@[simp] theorem State.withDie_tap (s : State) (d : Nat) (x : Die) : (s.withDie d x).tap = s.tap := rfl
@[simp] theorem State.withDie_frozen (s : State) (d : Nat) (x : Die) : (s.withDie d x).frozen = s.frozen := rfl
@[simp] theorem State.withDie_links (s : State) (d : Nat) (x : Die) : (s.withDie d x).links = s.links := rfl
@[simp] theorem State.withDie_routers (s : State) (d : Nat) (x : Die) : (s.withDie d x).routers = s.routers := rfl
@[simp] theorem State.withDie_linkCnt (s : State) (d : Nat) (x : Die) : (s.withDie d x).linkCnt = s.linkCnt := rfl
@[simp] theorem State.withDie_half (s : State) (d : Nat) (x : Die) : (s.withDie d x).half = s.half := rfl
@[simp] theorem State.withDie_hostSeen (s : State) (d : Nat) (x : Die) : (s.withDie d x).hostSeen = s.hostSeen := rfl
@[simp] theorem State.withDie_serial (s : State) (d : Nat) (x : Die) : (s.withDie d x).serial = s.serial := rfl
@[simp] theorem State.withDie_sched (s : State) (d : Nat) (x : Die) : (s.withDie d x).sched = s.sched := rfl
@[simp] theorem State.withDie_cur (s : State) (d : Nat) (x : Die) : (s.withDie d x).cur = s.cur := rfl
@[simp] theorem State.withDie_yieldNow (s : State) (d : Nat) (x : Die) : (s.withDie d x).yieldNow = s.yieldNow := rfl
@[simp] theorem State.withDie_evArg (s : State) (d : Nat) (x : Die) : (s.withDie d x).evArg = s.evArg := rfl
@[simp] theorem State.withDie_freeCtr (s : State) (d : Nat) (x : Die) : (s.withDie d x).freeCtr = s.freeCtr := rfl
@[simp] theorem State.withDie_turnIntr (s : State) (d : Nat) (x : Die) : (s.withDie d x).turnIntr = s.turnIntr := rfl
@[simp] theorem State.withDie_pairs (s : State) (d : Nat) (x : Die) : (s.withDie d x).pairs = s.pairs := rfl
@[simp] theorem State.withDie_outside (s : State) (d : Nat) (x : Die) : (s.withDie d x).outside = s.outside := rfl
@[simp] theorem State.withDie_bytesNow (s : State) (d : Nat) (x : Die) : (s.withDie d x).bytesNow = s.bytesNow := rfl

@[simp] theorem State.withKernel_mem (s : State) (k : Nat) (x : Kernel) : (s.withKernel k x).mem = s.mem := rfl
@[simp] theorem State.withKernel_hostMem (s : State) (k : Nat) (x : Kernel) : (s.withKernel k x).hostMem = s.hostMem := rfl
@[simp] theorem State.withKernel_gran (s : State) (k : Nat) (x : Kernel) : (s.withKernel k x).gran = s.gran := rfl
@[simp] theorem State.withKernel_wgen (s : State) (k : Nat) (x : Kernel) : (s.withKernel k x).wgen = s.wgen := rfl
@[simp] theorem State.withKernel_ecc (s : State) (k : Nat) (x : Kernel) : (s.withKernel k x).ecc = s.ecc := rfl
@[simp] theorem State.withKernel_soft (s : State) (k : Nat) (x : Kernel) : (s.withKernel k x).soft = s.soft := rfl
@[simp] theorem State.withKernel_hb (s : State) (k : Nat) (x : Kernel) : (s.withKernel k x).hb = s.hb := rfl
@[simp] theorem State.withKernel_tenants (s : State) (k : Nat) (x : Kernel) : (s.withKernel k x).tenants = s.tenants := rfl
@[simp] theorem State.withKernel_die (s : State) (k : Nat) (x : Kernel) : (s.withKernel k x).die = s.die := rfl
@[simp] theorem State.withKernel_tlb (s : State) (k : Nat) (x : Kernel) : (s.withKernel k x).tlb = s.tlb := rfl
@[simp] theorem State.withKernel_migs (s : State) (k : Nat) (x : Kernel) : (s.withKernel k x).migs = s.migs := rfl
@[simp] theorem State.withKernel_packets (s : State) (k : Nat) (x : Kernel) : (s.withKernel k x).packets = s.packets := rfl
@[simp] theorem State.withKernel_watches (s : State) (k : Nat) (x : Kernel) : (s.withKernel k x).watches = s.watches := rfl
@[simp] theorem State.withKernel_outWatch (s : State) (k : Nat) (x : Kernel) : (s.withKernel k x).outWatch = s.outWatch := rfl
@[simp] theorem State.withKernel_hits (s : State) (k : Nat) (x : Kernel) : (s.withKernel k x).hits = s.hits := rfl
@[simp] theorem State.withKernel_reported (s : State) (k : Nat) (x : Kernel) : (s.withKernel k x).reported = s.reported := rfl
@[simp] theorem State.withKernel_reuse (s : State) (k : Nat) (x : Kernel) : (s.withKernel k x).reuse = s.reuse := rfl
@[simp] theorem State.withKernel_windows (s : State) (k : Nat) (x : Kernel) : (s.withKernel k x).windows = s.windows := rfl
@[simp] theorem State.withKernel_quadBars (s : State) (k : Nat) (x : Kernel) : (s.withKernel k x).quadBars = s.quadBars := rfl
@[simp] theorem State.withKernel_dieBars (s : State) (k : Nat) (x : Kernel) : (s.withKernel k x).dieBars = s.dieBars := rfl
@[simp] theorem State.withKernel_kernelNo (s : State) (k : Nat) (x : Kernel) : (s.withKernel k x).kernelNo = s.kernelNo := rfl
@[simp] theorem State.withKernel_reserve (s : State) (k : Nat) (x : Kernel) : (s.withKernel k x).reserve = s.reserve := rfl
@[simp] theorem State.withKernel_ctxs (s : State) (k : Nat) (x : Kernel) : (s.withKernel k x).ctxs = s.ctxs := rfl
@[simp] theorem State.withKernel_copies (s : State) (k : Nat) (x : Kernel) : (s.withKernel k x).copies = s.copies := rfl
@[simp] theorem State.withKernel_issue (s : State) (k : Nat) (x : Kernel) : (s.withKernel k x).issue = s.issue := rfl
@[simp] theorem State.withKernel_fair (s : State) (k : Nat) (x : Kernel) : (s.withKernel k x).fair = s.fair := rfl
@[simp] theorem State.withKernel_starts (s : State) (k : Nat) (x : Kernel) : (s.withKernel k x).starts = s.starts := rfl
@[simp] theorem State.withKernel_sorusOff (s : State) (k : Nat) (x : Kernel) : (s.withKernel k x).sorusOff = s.sorusOff := rfl
@[simp] theorem State.withKernel_traps (s : State) (k : Nat) (x : Kernel) : (s.withKernel k x).traps = s.traps := rfl
@[simp] theorem State.withKernel_dev (s : State) (k : Nat) (x : Kernel) : (s.withKernel k x).dev = s.dev := rfl
@[simp] theorem State.withKernel_tap (s : State) (k : Nat) (x : Kernel) : (s.withKernel k x).tap = s.tap := rfl
@[simp] theorem State.withKernel_frozen (s : State) (k : Nat) (x : Kernel) : (s.withKernel k x).frozen = s.frozen := rfl
@[simp] theorem State.withKernel_links (s : State) (k : Nat) (x : Kernel) : (s.withKernel k x).links = s.links := rfl
@[simp] theorem State.withKernel_routers (s : State) (k : Nat) (x : Kernel) : (s.withKernel k x).routers = s.routers := rfl
@[simp] theorem State.withKernel_linkCnt (s : State) (k : Nat) (x : Kernel) : (s.withKernel k x).linkCnt = s.linkCnt := rfl
@[simp] theorem State.withKernel_half (s : State) (k : Nat) (x : Kernel) : (s.withKernel k x).half = s.half := rfl
@[simp] theorem State.withKernel_hostSeen (s : State) (k : Nat) (x : Kernel) : (s.withKernel k x).hostSeen = s.hostSeen := rfl
@[simp] theorem State.withKernel_serial (s : State) (k : Nat) (x : Kernel) : (s.withKernel k x).serial = s.serial := rfl
@[simp] theorem State.withKernel_sched (s : State) (k : Nat) (x : Kernel) : (s.withKernel k x).sched = s.sched := rfl
@[simp] theorem State.withKernel_cur (s : State) (k : Nat) (x : Kernel) : (s.withKernel k x).cur = s.cur := rfl
@[simp] theorem State.withKernel_yieldNow (s : State) (k : Nat) (x : Kernel) : (s.withKernel k x).yieldNow = s.yieldNow := rfl
@[simp] theorem State.withKernel_evArg (s : State) (k : Nat) (x : Kernel) : (s.withKernel k x).evArg = s.evArg := rfl
@[simp] theorem State.withKernel_freeCtr (s : State) (k : Nat) (x : Kernel) : (s.withKernel k x).freeCtr = s.freeCtr := rfl
@[simp] theorem State.withKernel_turnIntr (s : State) (k : Nat) (x : Kernel) : (s.withKernel k x).turnIntr = s.turnIntr := rfl
@[simp] theorem State.withKernel_pairs (s : State) (k : Nat) (x : Kernel) : (s.withKernel k x).pairs = s.pairs := rfl
@[simp] theorem State.withKernel_outside (s : State) (k : Nat) (x : Kernel) : (s.withKernel k x).outside = s.outside := rfl
@[simp] theorem State.withKernel_bytesNow (s : State) (k : Nat) (x : Kernel) : (s.withKernel k x).bytesNow = s.bytesNow := rfl

@[simp] theorem State.withWindow_mem (s : State) (w : Nat) (x : Window) : (s.withWindow w x).mem = s.mem := rfl
@[simp] theorem State.withWindow_hostMem (s : State) (w : Nat) (x : Window) : (s.withWindow w x).hostMem = s.hostMem := rfl
@[simp] theorem State.withWindow_gran (s : State) (w : Nat) (x : Window) : (s.withWindow w x).gran = s.gran := rfl
@[simp] theorem State.withWindow_wgen (s : State) (w : Nat) (x : Window) : (s.withWindow w x).wgen = s.wgen := rfl
@[simp] theorem State.withWindow_ecc (s : State) (w : Nat) (x : Window) : (s.withWindow w x).ecc = s.ecc := rfl
@[simp] theorem State.withWindow_soft (s : State) (w : Nat) (x : Window) : (s.withWindow w x).soft = s.soft := rfl
@[simp] theorem State.withWindow_hb (s : State) (w : Nat) (x : Window) : (s.withWindow w x).hb = s.hb := rfl
@[simp] theorem State.withWindow_tenants (s : State) (w : Nat) (x : Window) : (s.withWindow w x).tenants = s.tenants := rfl
@[simp] theorem State.withWindow_die (s : State) (w : Nat) (x : Window) : (s.withWindow w x).die = s.die := rfl
@[simp] theorem State.withWindow_tlb (s : State) (w : Nat) (x : Window) : (s.withWindow w x).tlb = s.tlb := rfl
@[simp] theorem State.withWindow_migs (s : State) (w : Nat) (x : Window) : (s.withWindow w x).migs = s.migs := rfl
@[simp] theorem State.withWindow_packets (s : State) (w : Nat) (x : Window) : (s.withWindow w x).packets = s.packets := rfl
@[simp] theorem State.withWindow_watches (s : State) (w : Nat) (x : Window) : (s.withWindow w x).watches = s.watches := rfl
@[simp] theorem State.withWindow_outWatch (s : State) (w : Nat) (x : Window) : (s.withWindow w x).outWatch = s.outWatch := rfl
@[simp] theorem State.withWindow_hits (s : State) (w : Nat) (x : Window) : (s.withWindow w x).hits = s.hits := rfl
@[simp] theorem State.withWindow_reported (s : State) (w : Nat) (x : Window) : (s.withWindow w x).reported = s.reported := rfl
@[simp] theorem State.withWindow_reuse (s : State) (w : Nat) (x : Window) : (s.withWindow w x).reuse = s.reuse := rfl
@[simp] theorem State.withWindow_quadBars (s : State) (w : Nat) (x : Window) : (s.withWindow w x).quadBars = s.quadBars := rfl
@[simp] theorem State.withWindow_dieBars (s : State) (w : Nat) (x : Window) : (s.withWindow w x).dieBars = s.dieBars := rfl
@[simp] theorem State.withWindow_kernels (s : State) (w : Nat) (x : Window) : (s.withWindow w x).kernels = s.kernels := rfl
@[simp] theorem State.withWindow_kernelNo (s : State) (w : Nat) (x : Window) : (s.withWindow w x).kernelNo = s.kernelNo := rfl
@[simp] theorem State.withWindow_reserve (s : State) (w : Nat) (x : Window) : (s.withWindow w x).reserve = s.reserve := rfl
@[simp] theorem State.withWindow_ctxs (s : State) (w : Nat) (x : Window) : (s.withWindow w x).ctxs = s.ctxs := rfl
@[simp] theorem State.withWindow_copies (s : State) (w : Nat) (x : Window) : (s.withWindow w x).copies = s.copies := rfl
@[simp] theorem State.withWindow_issue (s : State) (w : Nat) (x : Window) : (s.withWindow w x).issue = s.issue := rfl
@[simp] theorem State.withWindow_fair (s : State) (w : Nat) (x : Window) : (s.withWindow w x).fair = s.fair := rfl
@[simp] theorem State.withWindow_starts (s : State) (w : Nat) (x : Window) : (s.withWindow w x).starts = s.starts := rfl
@[simp] theorem State.withWindow_sorusOff (s : State) (w : Nat) (x : Window) : (s.withWindow w x).sorusOff = s.sorusOff := rfl
@[simp] theorem State.withWindow_traps (s : State) (w : Nat) (x : Window) : (s.withWindow w x).traps = s.traps := rfl
@[simp] theorem State.withWindow_dev (s : State) (w : Nat) (x : Window) : (s.withWindow w x).dev = s.dev := rfl
@[simp] theorem State.withWindow_tap (s : State) (w : Nat) (x : Window) : (s.withWindow w x).tap = s.tap := rfl
@[simp] theorem State.withWindow_frozen (s : State) (w : Nat) (x : Window) : (s.withWindow w x).frozen = s.frozen := rfl
@[simp] theorem State.withWindow_links (s : State) (w : Nat) (x : Window) : (s.withWindow w x).links = s.links := rfl
@[simp] theorem State.withWindow_routers (s : State) (w : Nat) (x : Window) : (s.withWindow w x).routers = s.routers := rfl
@[simp] theorem State.withWindow_linkCnt (s : State) (w : Nat) (x : Window) : (s.withWindow w x).linkCnt = s.linkCnt := rfl
@[simp] theorem State.withWindow_half (s : State) (w : Nat) (x : Window) : (s.withWindow w x).half = s.half := rfl
@[simp] theorem State.withWindow_hostSeen (s : State) (w : Nat) (x : Window) : (s.withWindow w x).hostSeen = s.hostSeen := rfl
@[simp] theorem State.withWindow_serial (s : State) (w : Nat) (x : Window) : (s.withWindow w x).serial = s.serial := rfl
@[simp] theorem State.withWindow_sched (s : State) (w : Nat) (x : Window) : (s.withWindow w x).sched = s.sched := rfl
@[simp] theorem State.withWindow_cur (s : State) (w : Nat) (x : Window) : (s.withWindow w x).cur = s.cur := rfl
@[simp] theorem State.withWindow_yieldNow (s : State) (w : Nat) (x : Window) : (s.withWindow w x).yieldNow = s.yieldNow := rfl
@[simp] theorem State.withWindow_evArg (s : State) (w : Nat) (x : Window) : (s.withWindow w x).evArg = s.evArg := rfl
@[simp] theorem State.withWindow_freeCtr (s : State) (w : Nat) (x : Window) : (s.withWindow w x).freeCtr = s.freeCtr := rfl
@[simp] theorem State.withWindow_turnIntr (s : State) (w : Nat) (x : Window) : (s.withWindow w x).turnIntr = s.turnIntr := rfl
@[simp] theorem State.withWindow_pairs (s : State) (w : Nat) (x : Window) : (s.withWindow w x).pairs = s.pairs := rfl
@[simp] theorem State.withWindow_outside (s : State) (w : Nat) (x : Window) : (s.withWindow w x).outside = s.outside := rfl
@[simp] theorem State.withWindow_bytesNow (s : State) (w : Nat) (x : Window) : (s.withWindow w x).bytesNow = s.bytesNow := rfl

@[simp] theorem State.withCopyQueue_mem (s : State) (core : Nat) (q : List CopyCmd) : (s.withCopyQueue core q).mem = s.mem := rfl
@[simp] theorem State.withCopyQueue_hostMem (s : State) (core : Nat) (q : List CopyCmd) : (s.withCopyQueue core q).hostMem = s.hostMem := rfl
@[simp] theorem State.withCopyQueue_gran (s : State) (core : Nat) (q : List CopyCmd) : (s.withCopyQueue core q).gran = s.gran := rfl
@[simp] theorem State.withCopyQueue_wgen (s : State) (core : Nat) (q : List CopyCmd) : (s.withCopyQueue core q).wgen = s.wgen := rfl
@[simp] theorem State.withCopyQueue_ecc (s : State) (core : Nat) (q : List CopyCmd) : (s.withCopyQueue core q).ecc = s.ecc := rfl
@[simp] theorem State.withCopyQueue_soft (s : State) (core : Nat) (q : List CopyCmd) : (s.withCopyQueue core q).soft = s.soft := rfl
@[simp] theorem State.withCopyQueue_hb (s : State) (core : Nat) (q : List CopyCmd) : (s.withCopyQueue core q).hb = s.hb := rfl
@[simp] theorem State.withCopyQueue_tenants (s : State) (core : Nat) (q : List CopyCmd) : (s.withCopyQueue core q).tenants = s.tenants := rfl
@[simp] theorem State.withCopyQueue_die (s : State) (core : Nat) (q : List CopyCmd) : (s.withCopyQueue core q).die = s.die := rfl
@[simp] theorem State.withCopyQueue_tlb (s : State) (core : Nat) (q : List CopyCmd) : (s.withCopyQueue core q).tlb = s.tlb := rfl
@[simp] theorem State.withCopyQueue_migs (s : State) (core : Nat) (q : List CopyCmd) : (s.withCopyQueue core q).migs = s.migs := rfl
@[simp] theorem State.withCopyQueue_packets (s : State) (core : Nat) (q : List CopyCmd) : (s.withCopyQueue core q).packets = s.packets := rfl
@[simp] theorem State.withCopyQueue_watches (s : State) (core : Nat) (q : List CopyCmd) : (s.withCopyQueue core q).watches = s.watches := rfl
@[simp] theorem State.withCopyQueue_outWatch (s : State) (core : Nat) (q : List CopyCmd) : (s.withCopyQueue core q).outWatch = s.outWatch := rfl
@[simp] theorem State.withCopyQueue_hits (s : State) (core : Nat) (q : List CopyCmd) : (s.withCopyQueue core q).hits = s.hits := rfl
@[simp] theorem State.withCopyQueue_reported (s : State) (core : Nat) (q : List CopyCmd) : (s.withCopyQueue core q).reported = s.reported := rfl
@[simp] theorem State.withCopyQueue_reuse (s : State) (core : Nat) (q : List CopyCmd) : (s.withCopyQueue core q).reuse = s.reuse := rfl
@[simp] theorem State.withCopyQueue_windows (s : State) (core : Nat) (q : List CopyCmd) : (s.withCopyQueue core q).windows = s.windows := rfl
@[simp] theorem State.withCopyQueue_quadBars (s : State) (core : Nat) (q : List CopyCmd) : (s.withCopyQueue core q).quadBars = s.quadBars := rfl
@[simp] theorem State.withCopyQueue_dieBars (s : State) (core : Nat) (q : List CopyCmd) : (s.withCopyQueue core q).dieBars = s.dieBars := rfl
@[simp] theorem State.withCopyQueue_kernels (s : State) (core : Nat) (q : List CopyCmd) : (s.withCopyQueue core q).kernels = s.kernels := rfl
@[simp] theorem State.withCopyQueue_kernelNo (s : State) (core : Nat) (q : List CopyCmd) : (s.withCopyQueue core q).kernelNo = s.kernelNo := rfl
@[simp] theorem State.withCopyQueue_reserve (s : State) (core : Nat) (q : List CopyCmd) : (s.withCopyQueue core q).reserve = s.reserve := rfl
@[simp] theorem State.withCopyQueue_ctxs (s : State) (core : Nat) (q : List CopyCmd) : (s.withCopyQueue core q).ctxs = s.ctxs := rfl
@[simp] theorem State.withCopyQueue_issue (s : State) (core : Nat) (q : List CopyCmd) : (s.withCopyQueue core q).issue = s.issue := rfl
@[simp] theorem State.withCopyQueue_fair (s : State) (core : Nat) (q : List CopyCmd) : (s.withCopyQueue core q).fair = s.fair := rfl
@[simp] theorem State.withCopyQueue_starts (s : State) (core : Nat) (q : List CopyCmd) : (s.withCopyQueue core q).starts = s.starts := rfl
@[simp] theorem State.withCopyQueue_sorusOff (s : State) (core : Nat) (q : List CopyCmd) : (s.withCopyQueue core q).sorusOff = s.sorusOff := rfl
@[simp] theorem State.withCopyQueue_traps (s : State) (core : Nat) (q : List CopyCmd) : (s.withCopyQueue core q).traps = s.traps := rfl
@[simp] theorem State.withCopyQueue_dev (s : State) (core : Nat) (q : List CopyCmd) : (s.withCopyQueue core q).dev = s.dev := rfl
@[simp] theorem State.withCopyQueue_tap (s : State) (core : Nat) (q : List CopyCmd) : (s.withCopyQueue core q).tap = s.tap := rfl
@[simp] theorem State.withCopyQueue_frozen (s : State) (core : Nat) (q : List CopyCmd) : (s.withCopyQueue core q).frozen = s.frozen := rfl
@[simp] theorem State.withCopyQueue_links (s : State) (core : Nat) (q : List CopyCmd) : (s.withCopyQueue core q).links = s.links := rfl
@[simp] theorem State.withCopyQueue_routers (s : State) (core : Nat) (q : List CopyCmd) : (s.withCopyQueue core q).routers = s.routers := rfl
@[simp] theorem State.withCopyQueue_linkCnt (s : State) (core : Nat) (q : List CopyCmd) : (s.withCopyQueue core q).linkCnt = s.linkCnt := rfl
@[simp] theorem State.withCopyQueue_half (s : State) (core : Nat) (q : List CopyCmd) : (s.withCopyQueue core q).half = s.half := rfl
@[simp] theorem State.withCopyQueue_hostSeen (s : State) (core : Nat) (q : List CopyCmd) : (s.withCopyQueue core q).hostSeen = s.hostSeen := rfl
@[simp] theorem State.withCopyQueue_serial (s : State) (core : Nat) (q : List CopyCmd) : (s.withCopyQueue core q).serial = s.serial := rfl
@[simp] theorem State.withCopyQueue_sched (s : State) (core : Nat) (q : List CopyCmd) : (s.withCopyQueue core q).sched = s.sched := rfl
@[simp] theorem State.withCopyQueue_cur (s : State) (core : Nat) (q : List CopyCmd) : (s.withCopyQueue core q).cur = s.cur := rfl
@[simp] theorem State.withCopyQueue_yieldNow (s : State) (core : Nat) (q : List CopyCmd) : (s.withCopyQueue core q).yieldNow = s.yieldNow := rfl
@[simp] theorem State.withCopyQueue_evArg (s : State) (core : Nat) (q : List CopyCmd) : (s.withCopyQueue core q).evArg = s.evArg := rfl
@[simp] theorem State.withCopyQueue_freeCtr (s : State) (core : Nat) (q : List CopyCmd) : (s.withCopyQueue core q).freeCtr = s.freeCtr := rfl
@[simp] theorem State.withCopyQueue_turnIntr (s : State) (core : Nat) (q : List CopyCmd) : (s.withCopyQueue core q).turnIntr = s.turnIntr := rfl
@[simp] theorem State.withCopyQueue_pairs (s : State) (core : Nat) (q : List CopyCmd) : (s.withCopyQueue core q).pairs = s.pairs := rfl
@[simp] theorem State.withCopyQueue_outside (s : State) (core : Nat) (q : List CopyCmd) : (s.withCopyQueue core q).outside = s.outside := rfl
@[simp] theorem State.withCopyQueue_bytesNow (s : State) (core : Nat) (q : List CopyCmd) : (s.withCopyQueue core q).bytesNow = s.bytesNow := rfl

@[simp] theorem Hart.writeS_pc (h : Hart) (r : SReg) (x : Word) : (h.writeS r x).pc = h.pc := by
  unfold Hart.writeS; split <;> rfl
@[simp] theorem Hart.clearRead_pc (h : Hart) (rs : List SReg) : (h.clearRead rs).pc = h.pc := rfl
@[simp] theorem Hart.clearRead_regs (h : Hart) (rs : List SReg) : (h.clearRead rs).regs = h.regs := rfl
@[simp] theorem Hart.writeS_busy (h : Hart) (r : SReg) (x : Word) : (h.writeS r x).busy = h.busy := by
  unfold Hart.writeS; split <;> rfl
@[simp] theorem Hart.clearRead_busy (h : Hart) (rs : List SReg) : (h.clearRead rs).busy = h.busy := rfl
@[simp] theorem Hart.writeS_unread (h : Hart) (r : SReg) (x : Word) : (h.writeS r x).unread = h.unread := by
  unfold Hart.writeS; split <;> rfl
@[simp] theorem Hart.writeS_fflags (h : Hart) (r : SReg) (x : Word) : (h.writeS r x).fflags = h.fflags := by
  unfold Hart.writeS; split <;> rfl
@[simp] theorem Hart.clearRead_fflags (h : Hart) (rs : List SReg) : (h.clearRead rs).fflags = h.fflags := rfl
@[simp] theorem Hart.writeS_trapinfo (h : Hart) (r : SReg) (x : Word) : (h.writeS r x).trapinfo = h.trapinfo := by
  unfold Hart.writeS; split <;> rfl
@[simp] theorem Hart.clearRead_trapinfo (h : Hart) (rs : List SReg) : (h.clearRead rs).trapinfo = h.trapinfo := rfl
@[simp] theorem Hart.writeS_trapaddr (h : Hart) (r : SReg) (x : Word) : (h.writeS r x).trapaddr = h.trapaddr := by
  unfold Hart.writeS; split <;> rfl
@[simp] theorem Hart.clearRead_trapaddr (h : Hart) (rs : List SReg) : (h.clearRead rs).trapaddr = h.trapaddr := rfl
@[simp] theorem Hart.writeS_dispatch (h : Hart) (r : SReg) (x : Word) : (h.writeS r x).dispatch = h.dispatch := by
  unfold Hart.writeS; split <;> rfl
@[simp] theorem Hart.clearRead_dispatch (h : Hart) (rs : List SReg) : (h.clearRead rs).dispatch = h.dispatch := rfl
@[simp] theorem Hart.writeS_w1 (h : Hart) (r : SReg) (x : Word) : (h.writeS r x).w1 = h.w1 := by
  unfold Hart.writeS; split <;> rfl
@[simp] theorem Hart.clearRead_w1 (h : Hart) (rs : List SReg) : (h.clearRead rs).w1 = h.w1 := rfl
@[simp] theorem Hart.writeS_w2 (h : Hart) (r : SReg) (x : Word) : (h.writeS r x).w2 = h.w2 := by
  unfold Hart.writeS; split <;> rfl
@[simp] theorem Hart.clearRead_w2 (h : Hart) (rs : List SReg) : (h.clearRead rs).w2 = h.w2 := rfl
@[simp] theorem Hart.writeS_pure (h : Hart) (r : SReg) (x : Word) : (h.writeS r x).pure = h.pure := by
  unfold Hart.writeS; split <;> rfl
@[simp] theorem Hart.clearRead_pure (h : Hart) (rs : List SReg) : (h.clearRead rs).pure = h.pure := rfl
@[simp] theorem Hart.writeS_farm (h : Hart) (r : SReg) (x : Word) : (h.writeS r x).farm = h.farm := by
  unfold Hart.writeS; split <;> rfl
@[simp] theorem Hart.clearRead_farm (h : Hart) (rs : List SReg) : (h.clearRead rs).farm = h.farm := rfl
@[simp] theorem Hart.writeS_arrivals (h : Hart) (r : SReg) (x : Word) : (h.writeS r x).arrivals = h.arrivals := by
  unfold Hart.writeS; split <;> rfl
@[simp] theorem Hart.clearRead_arrivals (h : Hart) (rs : List SReg) : (h.clearRead rs).arrivals = h.arrivals := rfl
@[simp] theorem Hart.writeS_twait (h : Hart) (r : SReg) (x : Word) : (h.writeS r x).twait = h.twait := by
  unfold Hart.writeS; split <;> rfl
@[simp] theorem Hart.clearRead_twait (h : Hart) (rs : List SReg) : (h.clearRead rs).twait = h.twait := rfl
@[simp] theorem Hart.writeS_barwait (h : Hart) (r : SReg) (x : Word) : (h.writeS r x).barwait = h.barwait := by
  unfold Hart.writeS; split <;> rfl
@[simp] theorem Hart.clearRead_barwait (h : Hart) (rs : List SReg) : (h.clearRead rs).barwait = h.barwait := rfl
@[simp] theorem Hart.writeS_split (h : Hart) (r : SReg) (x : Word) : (h.writeS r x).split = h.split := by
  unfold Hart.writeS; split <;> rfl
@[simp] theorem Hart.clearRead_split (h : Hart) (rs : List SReg) : (h.clearRead rs).split = h.split := rfl
@[simp] theorem Hart.writeS_part (h : Hart) (r : SReg) (x : Word) : (h.writeS r x).part = h.part := by
  unfold Hart.writeS; split <;> rfl
@[simp] theorem Hart.clearRead_part (h : Hart) (rs : List SReg) : (h.clearRead rs).part = h.part := rfl
@[simp] theorem Hart.writeS_fenceHb (h : Hart) (r : SReg) (x : Word) : (h.writeS r x).fenceHb = h.fenceHb := by
  unfold Hart.writeS; split <;> rfl
@[simp] theorem Hart.clearRead_fenceHb (h : Hart) (rs : List SReg) : (h.clearRead rs).fenceHb = h.fenceHb := rfl
@[simp] theorem Hart.writeS_pendCsr (h : Hart) (r : SReg) (x : Word) : (h.writeS r x).pendCsr = h.pendCsr := by
  unfold Hart.writeS; split <;> rfl
@[simp] theorem Hart.clearRead_pendCsr (h : Hart) (rs : List SReg) : (h.clearRead rs).pendCsr = h.pendCsr := rfl
@[simp] theorem Hart.writeS_engErr (h : Hart) (r : SReg) (x : Word) : (h.writeS r x).engErr = h.engErr := by
  unfold Hart.writeS; split <;> rfl
@[simp] theorem Hart.clearRead_engErr (h : Hart) (rs : List SReg) : (h.clearRead rs).engErr = h.engErr := rfl
@[simp] theorem Hart.writeS_yielding (h : Hart) (r : SReg) (x : Word) : (h.writeS r x).yielding = h.yielding := by
  unfold Hart.writeS; split <;> rfl
@[simp] theorem Hart.clearRead_yielding (h : Hart) (rs : List SReg) : (h.clearRead rs).yielding = h.yielding := rfl
@[simp] theorem Hart.writeS_stalled (h : Hart) (r : SReg) (x : Word) : (h.writeS r x).stalled = h.stalled := by
  unfold Hart.writeS; split <;> rfl
@[simp] theorem Hart.clearRead_stalled (h : Hart) (rs : List SReg) : (h.clearRead rs).stalled = h.stalled := rfl

@[simp] theorem Ctx.withHart_slotState (c : Ctx) (k : HartKind) (h : Hart) : (c.withHart k h).slotState = c.slotState := by cases k <;> rfl
@[simp] theorem Ctx.withHart_core (c : Ctx) (k : HartKind) (h : Hart) : (c.withHart k h).core = c.core := by cases k <;> rfl
@[simp] theorem Ctx.withHart_slot (c : Ctx) (k : HartKind) (h : Hart) : (c.withHart k h).slot = c.slot := by cases k <;> rfl
@[simp] theorem Ctx.withHart_kernel (c : Ctx) (k : HartKind) (h : Hart) : (c.withHart k h).kernel = c.kernel := by cases k <;> rfl
@[simp] theorem Ctx.withHart_member (c : Ctx) (k : HartKind) (h : Hart) : (c.withHart k h).member = c.member := by cases k <;> rfl
@[simp] theorem Ctx.withHart_full (c : Ctx) (k : HartKind) (h : Hart) : (c.withHart k h).full = c.full := by cases k <;> rfl
@[simp] theorem Ctx.withHart_super (c : Ctx) (k : HartKind) (h : Hart) : (c.withHart k h).super = c.super := by cases k <;> rfl
@[simp] theorem Ctx.withHart_tenant (c : Ctx) (k : HartKind) (h : Hart) : (c.withHart k h).tenant = c.tenant := by cases k <;> rfl
@[simp] theorem Ctx.withHart_vl (c : Ctx) (k : HartKind) (h : Hart) : (c.withHart k h).vl = c.vl := by cases k <;> rfl
@[simp] theorem Ctx.withHart_vtype (c : Ctx) (k : HartKind) (h : Hart) : (c.withHart k h).vtype = c.vtype := by cases k <;> rfl
@[simp] theorem Ctx.withHart_epoch (c : Ctx) (k : HartKind) (h : Hart) : (c.withHart k h).epoch = c.epoch := by cases k <;> rfl
@[simp] theorem Ctx.withHart_vfill (c : Ctx) (k : HartKind) (h : Hart) : (c.withHart k h).vfill = c.vfill := by cases k <;> rfl
@[simp] theorem Ctx.withHart_maxlen (c : Ctx) (k : HartKind) (h : Hart) : (c.withHart k h).maxlen = c.maxlen := by cases k <;> rfl
@[simp] theorem Ctx.withHart_vcp (c : Ctx) (k : HartKind) (h : Hart) : (c.withHart k h).vcp = c.vcp := by cases k <;> rfl
@[simp] theorem Ctx.withHart_spc (c : Ctx) (k : HartKind) (h : Hart) : (c.withHart k h).spc = c.spc := by cases k <;> rfl
@[simp] theorem Ctx.withHart_trapvec (c : Ctx) (k : HartKind) (h : Hart) : (c.withHart k h).trapvec = c.trapvec := by cases k <;> rfl
@[simp] theorem Ctx.withHart_handler (c : Ctx) (k : HartKind) (h : Hart) : (c.withHart k h).handler = c.handler := by cases k <;> rfl
@[simp] theorem Ctx.withHart_v (c : Ctx) (k : HartKind) (h : Hart) : (c.withHart k h).v = c.v := by cases k <;> rfl
@[simp] theorem Ctx.withHart_vtag (c : Ctx) (k : HartKind) (h : Hart) : (c.withHart k h).vtag = c.vtag := by cases k <;> rfl
@[simp] theorem Ctx.withHart_m (c : Ctx) (k : HartKind) (h : Hart) : (c.withHart k h).m = c.m := by cases k <;> rfl
@[simp] theorem Ctx.withHart_tile (c : Ctx) (k : HartKind) (h : Hart) : (c.withHart k h).tile = c.tile := by cases k <;> rfl
@[simp] theorem Ctx.withHart_tileKind (c : Ctx) (k : HartKind) (h : Hart) : (c.withHart k h).tileKind = c.tileKind := by cases k <;> rfl
@[simp] theorem Ctx.withHart_sorus (c : Ctx) (k : HartKind) (h : Hart) : (c.withHart k h).sorus = c.sorus := by cases k <;> rfl
@[simp] theorem Ctx.withHart_lineage (c : Ctx) (k : HartKind) (h : Hart) : (c.withHart k h).lineage = c.lineage := by cases k <;> rfl
@[simp] theorem Ctx.withHart_scale (c : Ctx) (k : HartKind) (h : Hart) : (c.withHart k h).scale = c.scale := by cases k <;> rfl
@[simp] theorem Ctx.withHart_scaleMode (c : Ctx) (k : HartKind) (h : Hart) : (c.withHart k h).scaleMode = c.scaleMode := by cases k <;> rfl
@[simp] theorem Ctx.withHart_nf (c : Ctx) (k : HartKind) (h : Hart) : (c.withHart k h).nf = c.nf := by cases k <;> rfl
@[simp] theorem Ctx.withHart_isw (c : Ctx) (k : HartKind) (h : Hart) : (c.withHart k h).isw = c.isw := by cases k <;> rfl
@[simp] theorem Ctx.withHart_osw (c : Ctx) (k : HartKind) (h : Hart) : (c.withHart k h).osw = c.osw := by cases k <;> rfl
@[simp] theorem Ctx.withHart_pipeIn (c : Ctx) (k : HartKind) (h : Hart) : (c.withHart k h).pipeIn = c.pipeIn := by cases k <;> rfl
@[simp] theorem Ctx.withHart_pipeOut (c : Ctx) (k : HartKind) (h : Hart) : (c.withHart k h).pipeOut = c.pipeOut := by cases k <;> rfl
@[simp] theorem Ctx.withHart_viq (c : Ctx) (k : HartKind) (h : Hart) : (c.withHart k h).viq = c.viq := by cases k <;> rfl
@[simp] theorem Ctx.withHart_image (c : Ctx) (k : HartKind) (h : Hart) : (c.withHart k h).image = c.image := by cases k <;> rfl
@[simp] theorem Ctx.withHart_streams (c : Ctx) (k : HartKind) (h : Hart) : (c.withHart k h).streams = c.streams := by cases k <;> rfl
@[simp] theorem Ctx.withHart_deque (c : Ctx) (k : HartKind) (h : Hart) : (c.withHart k h).deque = c.deque := by cases k <;> rfl
@[simp] theorem Ctx.withHart_conts (c : Ctx) (k : HartKind) (h : Hart) : (c.withHart k h).conts = c.conts := by cases k <;> rfl
@[simp] theorem Ctx.withHart_xtsel (c : Ctx) (k : HartKind) (h : Hart) : (c.withHart k h).xtsel = c.xtsel := by cases k <;> rfl
@[simp] theorem Ctx.withHart_migva (c : Ctx) (k : HartKind) (h : Hart) : (c.withHart k h).migva = c.migva := by cases k <;> rfl
@[simp] theorem Ctx.withHart_migstat (c : Ctx) (k : HartKind) (h : Hart) : (c.withHart k h).migstat = c.migstat := by cases k <;> rfl
@[simp] theorem Ctx.withHart_rutsel (c : Ctx) (k : HartKind) (h : Hart) : (c.withHart k h).rutsel = c.rutsel := by cases k <;> rfl
@[simp] theorem Ctx.withHart_imaged (c : Ctx) (k : HartKind) (h : Hart) : (c.withHart k h).imaged = c.imaged := by cases k <;> rfl

/-- A table reads back what was put in. -/
@[simp] theorem tget_tput_same {α : Type} (t : Table α) (i : Nat) (x : α) : tget (tput t i x) i = some x := by
  induction t with
  | nil => simp [tput, tget]
  | cons e r ih =>
    obtain ⟨k, v⟩ := e
    simp only [tput]
    split
    · simp [tget]
    · split
      · simp [tget]
      · rename_i h1 h2; simp [tget, h2, ih]

/-- The other entries of a table stay. -/
theorem tget_tput_other {α : Type} (t : Table α) (i j : Nat) (x : α) (h : j ≠ i) : tget (tput t i x) j = tget t j := by
  induction t with
  | nil => simp [tput, tget, h]
  | cons e r ih =>
    obtain ⟨k, v⟩ := e
    simp only [tput]
    split
    · simp [tget, h]
    · split
      · rename_i h1 h2; subst h2; simp [tget, h]
      · simp only [tget, ih]

/-- A context reads back what was put in. -/
@[simp] theorem State.ctx_withCtx (s : State) (cid : Nat) (c : Ctx) : (s.withCtx cid c).ctx cid = c := by
  simp [State.ctx, State.withCtx]

/-- The other contexts stay. -/
theorem State.ctx_withCtx_other (s : State) (i j : Nat) (c : Ctx) (h : j ≠ i) : (s.withCtx i c).ctx j = s.ctx j := by
  simp [State.ctx, State.withCtx, tget_tput_other _ _ _ _ h]

/-- A context's hart reads back what was put in. -/
@[simp] theorem Ctx.hart_withHart (c : Ctx) (k : HartKind) (h : Hart) : (c.withHart k h).hart k = h := by cases k <;> rfl

/-- The other harts of a context stay. -/
theorem Ctx.hart_withHart_other (c : Ctx) (k j : HartKind) (h : Hart) (hj : j ≠ k) : (c.withHart k h).hart j = c.hart j := by
  cases k <;> cases j <;> simp_all [Ctx.withHart, Ctx.hart]

/-- A hart put back twice is the last one. -/
@[simp] theorem Ctx.withHart_withHart (c : Ctx) (k : HartKind) (h g : Hart) : (c.withHart k h).withHart k g = c.withHart k g := by
  cases k <;> rfl

/-- A hart put back as it is changes nothing. -/
@[simp] theorem Ctx.withHart_hart (c : Ctx) (k : HartKind) : c.withHart k (c.hart k) = c := by cases k <;> rfl

/-- An entry put in twice is the last one. -/
@[simp] theorem tput_tput {α : Type} (t : Table α) (i : Nat) (x y : α) : tput (tput t i x) i y = tput t i y := by
  induction t with
  | nil => simp [tput]
  | cons e r ih =>
    obtain ⟨k, v⟩ := e
    simp only [tput]
    split
    · simp [tput]
    · split
      · simp [tput]
      · rename_i h1 h2; simp [tput, h1, h2, ih]

/-- A context changed twice is the last one. -/
@[simp] theorem State.withCtx_withCtx (s : State) (i : Nat) (c d : Ctx) : (s.withCtx i c).withCtx i d = s.withCtx i d := by
  simp [State.withCtx]

/-- A hart reads back what was put in. -/
@[simp] theorem State.hart_withHart (s : State) (r : HartRef) (h : Hart) : (s.withHart r h).hart r = h := by
  simp [State.hart, State.withHart]

/-- A hart changed twice is the last one. -/
@[simp] theorem State.withHart_withHart (s : State) (r : HartRef) (h g : Hart) : (s.withHart r h).withHart r g = s.withHart r g := by
  simp [State.withHart]

/-- The moving hart reads back what was put in. -/
@[simp] theorem State.me_withMe (s : State) (h : Hart) : (s.withMe h).me = h := by simp [State.me, State.withMe]

/-- The moving hart changed twice is the last one. -/
@[simp] theorem State.withMe_withMe (s : State) (h g : Hart) : (s.withMe h).withMe g = s.withMe g := by simp [State.withMe]

/-- The moving hart's context reads back what was put in. -/
@[simp] theorem State.myCtx_withMyCtx (s : State) (c : Ctx) : (s.withMyCtx c).myCtx = c := by simp [State.myCtx, State.withMyCtx]

/-- The moving hart's context after a change of the hart. -/
@[simp] theorem State.myCtx_withMe (s : State) (h : Hart) : (s.withMe h).myCtx = s.myCtx.withHart s.cur.kind h := by
  simp [State.myCtx, State.withMe, State.withHart]

/-- The moving hart after a change of its context. -/
@[simp] theorem State.me_withMyCtx (s : State) (c : Ctx) : (s.withMyCtx c).me = c.hart s.cur.kind := by
  simp [State.me, State.withMyCtx, State.hart]

/-- s0 reads 0 (03_encoding R61). -/
@[simp] theorem Hart.readS_zero (h : Hart) : h.readS 0 = 0 := rfl

/-- A write to s0 is discarded (R61). -/
@[simp] theorem Hart.writeS_zero (h : Hart) (x : Word) : h.writeS 0 x = h := rfl

/-- Clearing unread-error bits leaves the registers. -/
@[simp] theorem Hart.readS_clearRead (h : Hart) (rs : List SReg) (r : SReg) : (h.clearRead rs).readS r = h.readS r := rfl

/-- Clearing the unread-error bits of the moving hart leaves its registers. -/
@[simp] theorem State.readS_clearRead (s : State) (rs : List SReg) (r : SReg) :
    (s.withMe (s.me.clearRead rs)).readS r = s.readS r := by simp [State.readS]

/-- Sparse data reads back what was put in. -/
@[simp] theorem sget_sset_same {α : Type} [DecidableEq α] (d : α) (m : Sparse α) (i : Nat) (x : α)
    (hm : swf d m = true) : sget d (sset d m i x) i = x := by
  induction m with
  | nil => by_cases h : x = d <;> simp [sset, sget, h]
  | cons e r ih =>
    obtain ⟨k, v⟩ := e
    have hr : swf d r = true := by
      cases r with
      | nil => rfl
      | cons e' r' => simp only [swf, Bool.and_eq_true] at hm; exact hm.2
    have below : ∀ j, j < k → sget d ((k, v) :: r) j = d := by
      intro j hj
      clear ih
      induction r generalizing k v with
      | nil => simp [sget]; omega
      | cons e' r' ihr =>
        obtain ⟨k', v'⟩ := e'
        simp only [swf, Bool.and_eq_true, decide_eq_true_eq] at hm
        simp only [sget]
        rw [if_neg (by omega)]
        have := ihr k' v' hm.2 (by cases r' with
          | nil => rfl
          | cons e'' r'' => simp only [swf, Bool.and_eq_true] at hr; exact hr.2) (by omega)
        simpa only [sget] using this
    simp only [sset]
    split
    · rename_i h1
      by_cases h : x = d
      · simp [h, below i h1]
      · simp [h, sget]
    · split
      · rename_i h1 h2
        subst h2
        by_cases h : x = d
        · simp only [h, if_true]
          cases r with
          | nil => simp [sget]
          | cons e' r' =>
            obtain ⟨k', v'⟩ := e'
            simp only [swf, Bool.and_eq_true, decide_eq_true_eq] at hm
            clear ih below
            have low : ∀ (r : Sparse α) (k' : Nat) (v' : α), swf d ((k', v') :: r) = true → i < k' → sget d ((k', v') :: r) i = d := by
              intro r
              induction r with
              | nil => intro k' v' _ hk; simp [sget]; omega
              | cons e'' r'' ih2 =>
                intro k' v' hw hk
                obtain ⟨k2, v2⟩ := e''
                simp only [swf, Bool.and_eq_true, decide_eq_true_eq] at hw
                simp only [sget]
                rw [if_neg (by omega)]
                have := ih2 k2 v2 hw.2 (by omega)
                simpa only [sget] using this
            exact low r' k' v' hm.2 hm.1.2
        · simp [h, sget]
      · rename_i h1 h2
        simp only [sget, if_neg h2]
        exact ih hr

end Sys2Proof.Machine
end

