-- ==== Sys2Proof/Laws/Scalar.lean ====
section
/-! SUPPORT. What the frame of a scalar instruction can do, and the issue of a vector instruction: one lemma a case. -/

namespace Sys2Proof.Machine

@[simp] theorem State.me_reading (s : State) (rs : List SReg) : (s.reading rs).me = s.me.clearRead rs := by
  simp [State.reading]

@[simp] theorem State.readS_reading (s : State) (rs : List SReg) (r : SReg) : (s.reading rs).readS r = s.readS r := by
  simp [State.readS]

@[simp] theorem State.cur_reading (s : State) (rs : List SReg) : (s.reading rs).cur = s.cur := rfl

/-- Reading registers leaves the pure task of a hart. -/
@[simp] theorem checkedBy_clearRead (h : Hart) (rs : List SReg) : (h.clearRead rs).checkedBy = h.checkedBy := rfl

/-- An instruction of the task's own code, or of no pure task, does what it does. -/
theorem codeGuard_inside (outside : Bool) (addr : Word) (k : State → Res) (s : State)
    (h : outside = false ∨ s.me.checkedBy = none) : codeGuard outside addr k s = k s := by
  unfold codeGuard
  rcases h with h | h
  · rw [h]; rfl
  · rw [h]; split <;> rfl

/-- The frame of an instruction whose registers are ready: what the instruction does. -/
theorem framed_ready (reads writes : List SReg) (k : State → Res) (s : State)
    (h1 : (reads ++ writes).all s.me.free = true) (h2 : (s.me.clearRead reads).overwrites writes = none) :
    framed reads writes k s = ((k (s.reading reads)).settle s s.me.unread).outcome := by
  simp only [framed, h1, h2]
  rfl

/-- The frame of a scalar instruction whose registers are ready: what the instruction does. -/
theorem scalar_ready (reads writes : List SReg) (k : State → Res) (s : State) (h : s.Ready reads writes) :
    scalar reads writes k s = ((k (s.reading reads)).settle s s.me.unread).outcome := by
  rw [scalar, framed_ready _ _ _ _ h.1 h.2.1]
  rw [codeGuard_inside _ _ _ _ (by simpa [State.reading] using h.2.2)]

/-- A scalar instruction whose registers are ready and that completes. -/
theorem scalar_done (reads writes : List SReg) (k : State → Res) (s t : State) (h : s.Ready reads writes)
    (hk : k (s.reading reads) = .done t) : scalar reads writes k s = .next t := by
  rw [scalar_ready _ _ _ _ h, hk]
  rfl

/-- A scalar instruction one of whose registers waits. -/
theorem scalar_busy (reads writes : List SReg) (k : State → Res) (s : State)
    (h : (reads ++ writes).all s.me.free = false) : scalar reads writes k s = .next (s.waitHere false) := by
  simp only [scalar, framed, h]
  rfl

/-- A scalar instruction that would overwrite an unread error, and that is neither Illegal nor outside a pure task's
code. -/
theorem scalar_overwrites (reads writes : List SReg) (k : State → Res) (s : State) (r : Nat)
    (h1 : (reads ++ writes).all s.me.free = true) (h2 : (s.me.clearRead reads).overwrites writes = some r)
    (h3 : s.outside = false ∨ s.me.checkedBy = none) (h4 : (k (s.reading reads)).early = false) :
    scalar reads writes k s = .next (s.scalarTrap (engErr (s.me.clearRead reads) r)) := by
  have h5 := codeGuard_inside (s.reading reads).outside (s.reading reads).me.pc k (s.reading reads)
    (by simpa [State.reading] using h3)
  simp only [scalar, framed, h1, h2]
  rw [show s.withMe (s.me.clearRead reads) = s.reading reads from rfl, h5, h4]
  rfl

end Sys2Proof.Machine
end

