-- ==== Sys2Proof/Laws/Vector.lean ====
section
/-! SUPPORT. The issue of a vector, matrix or sorus instruction whose queue is empty: what its entry does. -/

namespace Sys2Proof.Machine

/-- The queue of the state in which an entry has been issued alone. -/
theorem State.viq_issued (s : State) (i : Instr) (n : Nat) (reads writes : List SReg) (h : s.Quiet) :
    (s.issued i n reads writes).myCtx.viq = [s.entryOf i reads] := by
  have h' : s.myCtx.viq = [] := h
  simp [State.issued, State.pushEntry, State.advance, State.reading, State.entryOf, h', Ctx.entry]

/-- The queue is no part of a hart. -/
theorem Ctx.hart_viq (c : Ctx) (q : List VEntry) (k : HartKind) : ({ c with viq := q } : Ctx).hart k = c.hart k := by
  cases k <;> rfl

/-- A push leaves the pure task of the moving hart. -/
theorem checkedBy_issued (s : State) (i : Instr) (n : Nat) (reads writes : List SReg) :
    (s.issued i n reads writes).me.checkedBy = s.me.checkedBy := by
  simp only [State.issued, State.advance, State.pushEntry, State.me_withMe, State.me_withMyCtx, Hart.checkedBy, Hart.markBusy]
  have h2 : (s.reading reads).myCtx.hart s.cur.kind = s.me.clearRead reads := State.me_reading s reads
  rw [State.cur_reading, Ctx.hart_viq, h2]
  rfl

/-- An entry alone in the queue that completes leaves the queue empty. -/
theorem drain_one (s u : State) (e : VEntry) (hq : s.myCtx.viq = [e]) (hj : e.job = none) (hb : s.copyBlocks e = false)
    (hs : s.myCtx.streams = []) (hg : e.outside = false ∨ s.me.checkedBy = none) (hu : effectOf e s = .done u)
    (hv : u.myCtx.viq.drop 1 = []) :
    drain s = completeHead e u := by
  have h1 : stepHead effectOf s = (completeHead e u, true) := by
    simp [stepHead, hq, hj, hb, runEntry, codeGuard_inside _ _ _ _ hg, runBound, hs, hu]
  have h2 : (completeHead e u).myCtx.viq = [] := by
    simpa [completeHead] using hv
  have h3 : stepHead effectOf (completeHead e u) = (completeHead e u, false) := by
    simp only [stepHead, h2]
  have h4 : drainFuel 64 (completeHead e u) = completeHead e u := by
    rw [show (64 : Nat) = 63 + 1 from rfl, drainFuel]
    simp [h3]
  have h5 : drainFuel (64 + 1) s = drainFuel 64 (completeHead e u) := by
    rw [drainFuel]
    simp [h1]
  exact h5.trans h4

/-- No copy of the context is queued: none holds its entries back. -/
theorem State.copyBlocks_none (s : State) (e : VEntry)
    (h : (s.copyQueue s.myCtx.core).all (fun x => decide (x.ref.cid ≠ s.cur.cid)) = true) : s.copyBlocks e = false := by
  simp only [State.copyBlocks, List.any_eq_false]
  intro x hx
  have := List.all_eq_true.1 h x hx
  simp only [decide_eq_true_eq] at this
  simp [this]

/-- An instruction of the compute hart. -/
theorem onlyOn_ch (k : State → Host.Outcome State Fault Refusal) (s : State) (h : s.cur.kind = .ch) :
    onlyOn [.ch] k s = k s := by
  simp [onlyOn, h]

/-- The issue of an instruction whose entry completes at once. -/
theorem issueV_done (i : Instr) (n : Nat) (reads writes : List SReg) (early late : State → Option Trap) (s u : State)
    (h : s.VReady reads writes) (he : early s = none) (hl : late (s.reading reads) = none)
    (hu : effectOf (s.entryOf i reads) (s.issued i n reads writes) = .done u) (hv : u.myCtx.viq.drop 1 = []) :
    issueV i n reads writes early late s = .next (completeHead (s.entryOf i reads) u) := by
  obtain ⟨hk, hq, hs, hr, hc⟩ := h
  have hq' : s.myCtx.viq = [] := hq
  have hlen : (s.reading reads).myCtx.viq.length < Config.viqCap := by
    simp [State.reading, hq', Config.viqCap]
  have hd : drain (s.issued i n reads writes) = completeHead (s.entryOf i reads) u := by
    refine drain_one _ _ _ (State.viq_issued s i n reads writes hq) rfl (State.copyBlocks_none _ _ ?_) ?_ ?_ hu hv
    · simpa [State.issued, State.pushEntry, State.advance, State.reading, State.copyQueue] using hc
    · simpa [State.issued, State.pushEntry, State.advance, State.reading] using hs
    · refine hr.2.2.imp (fun h => h) (fun h => ?_)
      rw [checkedBy_issued _ _ _ _ _]
      exact h
  have hread : (s.reading reads).readS = s.readS := by funext r; exact State.readS_reading s reads r
  unfold issueV
  rw [he]
  simp only
  rw [onlyOn_ch _ _ hk, ← hd]
  rw [framed_ready _ _ _ _ hr.1 hr.2.1]
  simp only [hl, hlen, if_true, State.issued, hread]
  rfl

/-- The instruction of an entry. -/
@[simp] theorem entryOf_instr (s : State) (i : Instr) (rs : List SReg) : (s.entryOf i rs).instr = i := rfl
/-- The first scalar operand of an entry. -/
@[simp] theorem entryOf_op0 (s : State) (i : Instr) (a : SReg) (r : List SReg) :
    (s.entryOf i (a :: r)).op 0 = s.readS a := rfl
/-- The second scalar operand of an entry. -/
@[simp] theorem entryOf_op1 (s : State) (i : Instr) (a b : SReg) (r : List SReg) :
    (s.entryOf i (a :: b :: r)).op 1 = s.readS b := rfl

/-- The second source of an entry, read at its push. -/
theorem src2_entryOf (s : State) (i : Instr) (xs : BitVec 1) (b : BitVec 5) :
    src2 (s.entryOf i (if xs = 1 then [b] else [])) xs b =
      if xs = 1 then Src2.scalar (s.readS b) else Src2.vec b := by
  simp only [src2]
  split
  · rename_i h; simp [State.entryOf, Ctx.entry, VEntry.op]
  · rfl

/-- The context in which an entry has been issued: all but its queue and the compute hart's registers stands. -/
theorem issued_myCtx (s : State) (i : Instr) (n : Nat) (reads writes : List SReg) (hk : s.cur.kind = .ch) :
    ∃ h, (s.issued i n reads writes).myCtx =
      { s.myCtx with viq := s.myCtx.viq ++ [s.entryOf i reads], ch := h } := by
  simp [State.issued, State.pushEntry, State.advance, State.reading, State.entryOf, Ctx.withHart, hk, Ctx.entry]

/-- A check that finds nothing. -/
theorem vChecked_none (t : Option Trap) (s : State) (k : Res) (h : t = none) : vChecked t s k = k := by
  subst h; rfl

/-- A fold keeps what each of its steps keeps. -/
theorem foldl_keeps {α β γ : Type} (g : β → γ) (f : β → α → β) (h : ∀ b a, g (f b a) = g b) (l : List α) (b : β) :
    g (l.foldl f b) = g b := by
  induction l generalizing b with
  | nil => rfl
  | cons a l ih => rw [List.foldl_cons, ih, h]

/-- Writing an element leaves the queue. -/
@[simp] theorem setElem_viq (c : Ctx) (r : VReg) (w i x : Nat) : (c.setElem r w i x).viq = c.viq := by
  unfold Ctx.setElem; simp only; split <;> rfl
/-- Writing elements leaves the queue. -/
@[simp] theorem setElems_viq (c : Ctx) (r : VReg) (w : Nat) (xs : List (Nat × Nat)) :
    (c.setElems r w xs).viq = c.viq := foldl_keeps Ctx.viq _ (fun _ _ => setElem_viq _ _ _ _ _) _ _
/-- Writing a tag leaves the queue. -/
@[simp] theorem setTag_viq (c : Ctx) (r : VReg) (t : BitVec 12) : (c.setTag r t).viq = c.viq := rfl
/-- Writing mask bits leaves the queue. -/
@[simp] theorem setMaskBits_viq (c : Ctx) (r : MReg) (xs : List (Nat × Bool)) : (c.setMaskBits r xs).viq = c.viq := by
  refine foldl_keeps Ctx.viq _ (fun b a => ?_) _ _
  unfold Ctx.setMaskBit; split <;> rfl
/-- Raising flags leaves the queue. -/
@[simp] theorem raise_viq (t : State) (m : BitVec 6) (f : FFlags) : (t.raise m f).myCtx.viq = t.myCtx.viq := by
  simp [State.raise]
/-- Writing results leaves the queue. -/
@[simp] theorem writeResults_viq (t : State) (d : VReg) (w : Nat) (maj : BitVec 6) (rs : List (Nat × Nat × FFlags)) :
    (t.writeResults d w maj rs).myCtx.viq = t.myCtx.viq := by
  simp [State.writeResults]

/-- What gives an instruction its completion: its issue, no trap at its push, and the effect of its entry. -/
theorem entryGives_of (s : State) (i : Instr) (n : Nat) (reads writes : List SReg) (early late : State → Option Trap)
    (f : State → State) (hex : exec i s = issueV i n reads writes early late s) (he : early s = none)
    (hl : late (s.reading reads) = none)
    (hu : s.VReady reads writes →
      effectOf (s.entryOf i reads) (s.issued i n reads writes) = .done (f (s.issued i n reads writes)))
    (hv : (f (s.issued i n reads writes)).myCtx.viq = (s.issued i n reads writes).myCtx.viq) :
    entryGives s i n reads writes f := by
  intro h
  rw [hex]
  refine issueV_done _ _ _ _ _ _ _ _ h he hl (hu h) ?_
  rw [hv, State.viq_issued _ _ _ _ _ h.2.1]
  rfl

end Sys2Proof.Machine
end

