-- ==== Sys2Proof/Laws/Frame.lean ====
section
/-! SUPPORT. What the operations on the moving hart and its context leave alone: the other contexts, and everything that
is no context. -/

namespace Sys2Proof

open Machine

/-- A change of one context leaves the others. -/
theorem ctx_withCtx_other (s : State) (i j : Nat) (c : Ctx) (h : j ≠ i) : (s.withCtx i c).ctx j = s.ctx j := by
  simp only [State.ctx, State.withCtx, tget_tput_other _ _ _ _ h]

/-- A change of the moving hart leaves the other contexts. -/
theorem ctx_withMe_other (s : State) (j : Nat) (x : Hart) (h : j ≠ s.cur.cid) : (s.withMe x).ctx j = s.ctx j :=
  ctx_withCtx_other _ _ _ _ h

/-- A change of the moving context leaves the other contexts. -/
theorem ctx_withMyCtx_other (s : State) (j : Nat) (c : Ctx) (h : j ≠ s.cur.cid) : (s.withMyCtx c).ctx j = s.ctx j :=
  ctx_withCtx_other _ _ _ _ h

/-- A change of the moving hart leaves all that is no context. -/
theorem withMe_rest (s : State) (x : Hart) (t : Table Ctx) :
    ({ s.withMe x with ctxs := t } : State) = { s with ctxs := t } := rfl

/-- A change of the moving context leaves all that is no context. -/
theorem withMyCtx_rest (s : State) (c : Ctx) (t : Table Ctx) :
    ({ s.withMyCtx c with ctxs := t } : State) = { s with ctxs := t } := rfl

/-- The write of results leaves the other contexts. -/
theorem writeResults_others (s : State) (d : VReg) (w : Nat) (maj : BitVec 6) (rs : List (Nat × Nat × FFlags)) (j : Nat)
    (h : j ≠ s.cur.cid) : (s.writeResults d w maj rs).ctx j = s.ctx j := by
  refine (ctx_withMe_other (s.withMyCtx _) j _ ?_).trans (ctx_withMyCtx_other s j _ h)
  exact h

/-- The write of results leaves all that is no context. -/
theorem writeResults_rest (s : State) (d : VReg) (w : Nat) (maj : BitVec 6) (rs : List (Nat × Nat × FFlags))
    (t : Table Ctx) : ({ s.writeResults d w maj rs with ctxs := t } : State) = { s with ctxs := t } :=
  (withMe_rest _ _ t).trans (withMyCtx_rest s _ t)

/-- The end of an entry leaves the other contexts. -/
theorem completeHead_others (s : State) (e : VEntry) (j : Nat) (h : j ≠ s.cur.cid) :
    (completeHead e s).ctx j = s.ctx j := by
  refine (ctx_withMe_other (s.withMyCtx _) j _ ?_).trans (ctx_withMyCtx_other s j _ h)
  exact h

/-- The end of an entry leaves all that is no context. -/
theorem completeHead_rest (s : State) (e : VEntry) (t : Table Ctx) :
    ({ completeHead e s with ctxs := t } : State) = { s with ctxs := t } :=
  (withMe_rest _ _ t).trans (withMyCtx_rest s _ t)

/-- A push leaves the other contexts. -/
theorem pushEntry_others (s : State) (i : Instr) (ops : List Word) (writes : List SReg) (j : Nat) (h : j ≠ s.cur.cid) :
    (s.pushEntry i ops writes).ctx j = s.ctx j := by
  refine (ctx_withMe_other (s.withMyCtx _) j _ ?_).trans (ctx_withMyCtx_other s j _ h)
  exact h

/-- A push leaves all that is no context. -/
theorem pushEntry_rest (s : State) (i : Instr) (ops : List Word) (writes : List SReg) (t : Table Ctx) :
    ({ s.pushEntry i ops writes with ctxs := t } : State) = { s with ctxs := t } := rfl

/-- The issue of an entry leaves the other contexts. -/
theorem issued_others (s : State) (i : Instr) (n : Nat) (reads writes : List SReg) (j : Nat) (h : j ≠ s.cur.cid) :
    (s.issued i n reads writes).ctx j = s.ctx j := by
  have h1 : (s.reading reads).ctx j = s.ctx j := ctx_withMe_other s j _ h
  have h2 := pushEntry_others (s.reading reads) i (reads.map s.readS) writes j h
  have h3 : (((s.reading reads).pushEntry i (reads.map s.readS) writes).advance n).ctx j
      = ((s.reading reads).pushEntry i (reads.map s.readS) writes).ctx j := ctx_withMe_other _ j _ h
  exact h3.trans (h2.trans h1)

/-- The issue of an entry leaves all that is no context. -/
theorem issued_rest (s : State) (i : Instr) (n : Nat) (reads writes : List SReg) (t : Table Ctx) :
    ({ s.issued i n reads writes with ctxs := t } : State) = { s with ctxs := t } := by
  have h2 := pushEntry_rest (s.reading reads) i (reads.map s.readS) writes t
  unfold State.issued
  generalize ((s.reading reads).pushEntry i (reads.map s.readS) writes) = u at *
  exact (withMe_rest u _ t).trans h2

end Sys2Proof
end

