-- ==== Sys2Proof/Laws/Routes.lean ====
section
/-! SUPPORT. What routes and walks depend on: routes on the links alone (18_link R421, R422), walks on memory with its
errors, the links and the tenants (09_page R195). -/

namespace Sys2Proof.Machine

set_option Elab.async false

section
variable {s t : State} (h : s.links = t.links)
include h

theorem link_of_links : s.link = t.link := by funext l; simp only [State.link, h]

theorem linkDown_of_links : s.linkDown = t.linkDown := by funext l; unfold State.linkDown; rw [link_of_links h]

theorem hops_of_links : s.hops = t.hops := by
  funext a b; simp only [State.hops, linkDown_of_links h]

theorem linkQueue_of_links : s.linkQueue = t.linkQueue := by
  funext a b; simp only [State.linkQueue, link_of_links h]

theorem gateways_of_links : s.gateways = t.gateways := by
  funext r q; simp only [State.gateways, linkQueue_of_links h]

theorem minimal_of_links : s.minimal = t.minimal := by
  funext r q; simp only [State.minimal, hops_of_links h, gateways_of_links h]

theorem diverted_of_links : s.diverted = t.diverted := by
  funext r q; simp only [State.diverted, hops_of_links h, gateways_of_links h, minimal_of_links h]

theorem dieRoute_of_links : s.dieRoute = t.dieRoute := by
  funext r q
  simp only [State.dieRoute, hops_of_links h, gateways_of_links h, linkQueue_of_links h, minimal_of_links h,
    diverted_of_links h]

theorem toHub_of_links : s.toHub = t.toHub := by
  funext r; simp only [State.toHub, State.hubLink, hops_of_links h, dieRoute_of_links h]

theorem fromHub_of_links : s.fromHub = t.fromHub := by
  funext r; simp only [State.fromHub, State.hubLink, hops_of_links h, dieRoute_of_links h]

theorem dieToDie_of_links : s.dieToDie = t.dieToDie := by
  funext a b; unfold State.dieToDie State.thirdDie; rw [linkDown_of_links h, link_of_links h]

/-- A route depends on the links alone. -/
theorem routeOf_of_links : s.routeOf = t.routeOf := by
  funext core kind pa
  unfold State.routeOf State.cxlDown
  rw [linkDown_of_links h, toHub_of_links h, fromHub_of_links h, dieToDie_of_links h, dieRoute_of_links h]

theorem noneDown_of_links : s.noneDown = t.noneDown := by simp only [State.noneDown, h]

theorem reaches_of_links : s.reaches = t.reaches := by
  funext core pa n; unfold State.reaches; rw [noneDown_of_links h, routeOf_of_links h]

/-- Whether a read is an uncorrectable error depends on the links and the error marks. -/
theorem imageBad_of_links (he : s.ecc = t.ecc) : s.imageBad = t.imageBad := by
  funext core pa n; unfold State.imageBad; rw [he, reaches_of_links h]

theorem badEntryFrom_of_links (hm : s.mem = t.mem) (he : s.ecc = t.ecc) (core va : Nat) (ls : List (Nat × Nat × Nat))
    (a : Nat) : s.badEntryFrom core va ls a = t.badEntryFrom core va ls a := by
  have hw : s.memWord = t.memWord := by funext pa; unfold State.memWord State.memBytes; rw [hm]
  induction ls generalizing a with
  | nil => rfl
  | cons l ls ih =>
    obtain ⟨lvl, sh, n⟩ := l
    rw [State.badEntryFrom, State.badEntryFrom, funext ih, imageBad_of_links h he, hw]

/-- What a walk cannot read depends on memory, its error marks, the links, and the root of the tenant. -/
theorem badEntry_of_links (hm : s.mem = t.mem) (he : s.ecc = t.ecc) (ht : s.tenants = t.tenants) :
    s.badEntry = t.badEntry := by
  funext core tn va
  unfold State.badEntry State.tenant
  rw [ht, noneDown_of_links h, he]
  simp only [badEntryFrom_of_links h hm he]

theorem badWalk_of_links (hm : s.mem = t.mem) (he : s.ecc = t.ecc) (ht : s.tenants = t.tenants) :
    s.badWalk = t.badWalk := by
  funext core tn va
  rw [State.badWalk, State.badWalk, badEntry_of_links h hm he ht]

end

/-- While no link is DOWN and no half-atom holds an uncorrectable error, every read can be made. -/
theorem imageBad_clear {s : State} (hl : s.noneDown = true) (he : s.ecc = []) (core pa n : Nat) :
    s.imageBad core pa n = false := by simp [State.imageBad, State.reaches, hl, he]

theorem badEntry_clear {s : State} (hl : s.noneDown = true) (he : s.ecc = []) (core tenant va : Nat) :
    s.badEntry core tenant va = none := by simp [State.badEntry, hl, he]

theorem badWalk_clear {s : State} (hl : s.noneDown = true) (he : s.ecc = []) (core tenant va : Nat) :
    s.badWalk core tenant va = false := by simp [State.badWalk, badEntry_clear hl he]

end Sys2Proof.Machine
end

