-- ==== Sys2Proof/Laws/Loads.lean ====
section
/-! SUPPORT. What a load depends on: of the context that makes it, only its windows and its mode; and what a write leaves
alone: the contexts, but for a window. -/

namespace Sys2Proof.Machine

set_option Elab.async false

/-- A walk reads memory alone. -/
theorem walkFrom_withCtx (s : State) (cid : Nat) (c : Ctx) (va : Nat) (ls : List (Nat × Nat × Nat)) (t : Nat) :
    (s.withCtx cid c).walkFrom va ls t = s.walkFrom va ls t := by
  induction ls generalizing t with
  | nil => rfl
  | cons l ls ih =>
    obtain ⟨lvl, sh, n⟩ := l
    simp only [State.walkFrom, ih]
    rfl

/-- A translation depends on no context. -/
theorem translate_withCtx (s : State) (cid : Nat) (c : Ctx) (core tenant : Nat) (need : Need) (va : Nat) :
    (s.withCtx cid c).translate core tenant need va = s.translate core tenant need va := by
  have hb : (s.withCtx cid c).badWalk = s.badWalk := badWalk_of_links rfl rfl rfl rfl
  simp only [State.translate, State.walk, walkFrom_withCtx, hb]
  rfl

/-- The fault of an access without a translation depends on no context. -/
theorem noPlace_withCtx (s : State) (cid : Nat) (c : Ctx) (w : Who) (acc a : Nat) :
    (s.withCtx cid c).noPlace w acc a = s.noPlace w acc a := by
  have hb : (s.withCtx cid c).badWalk = s.badWalk := badWalk_of_links rfl rfl rfl rfl
  simp only [State.noPlace, State.walkFails, hb]
  rfl

/-- The place of an access depends on its context only by the mode. -/
theorem locate_withCtx (s : State) (cid : Nat) (c : Ctx) (w : Who) (acc : Nat) (need : Need) (a n : Nat)
    (hw : w.ref.cid = cid) (hf : c.full = (s.ctx cid).full) :
    (s.withCtx cid c).locate w acc need a n = s.locate w acc need a n := by
  subst hw
  have h1 : c.isBytes = (s.ctx w.ref.cid).isBytes := by simp only [Ctx.isBytes, hf]
  have h2 : c.osBytes = (s.ctx w.ref.cid).osBytes := by simp only [Ctx.osBytes, hf]
  have h3 : c.windowOf = (s.ctx w.ref.cid).windowOf := by funext x; simp only [Ctx.windowOf, h1, h2]
  have h4 : windowMiss c = windowMiss (s.ctx w.ref.cid) := by funext x; simp only [windowMiss, h1, h2, h3]
  simp only [State.locate, translate_withCtx, noPlace_withCtx, State.ctx_withCtx, h1, h2, h3, h4]

/-- A load depends on its context only by the IS window and the mode. -/
theorem loadFor_withCtx (s : State) (cid : Nat) (c : Ctx) (w : Who) (acc : Nat) (need : Need)
    (kinds : PageKind → Bool) (align a n : Nat) (hw : w.ref.cid = cid) (hf : c.full = (s.ctx cid).full)
    (hi : c.isw = (s.ctx cid).isw) :
    (s.withCtx cid c).loadFor w acc need kinds align a n = s.loadFor w acc need kinds align a n := by
  subst hw
  have hr : (s.withCtx w.ref.cid c).routeOf = s.routeOf := routeOf_of_links rfl
  have hs : (s.withCtx w.ref.cid c).reaches = s.reaches := reaches_of_links rfl
  have hu : (s.withCtx w.ref.cid c).unreached = s.unreached := by
    funext core p
    unfold State.unreached
    rw [hr, hs]
    rfl
  have hm : (s.withCtx w.ref.cid c).marked = s.marked := rfl
  simp only [State.loadFor, locate_withCtx _ _ _ _ _ _ _ _ rfl hf, State.ctx_withCtx, Ctx.windowBytes, hi,
    State.eccCheck, hu, hm]
  rfl

/-- A write to a granule leaves the contexts and the moving hart. -/
theorem writePiece_ctxs (s : State) (kind : PageKind) (pa : Nat) (bs : List Byte) (w : Nat) (l : Level) (t : Nat) :
    (s.writePiece kind pa bs w l t).ctxs = s.ctxs ∧ (s.writePiece kind pa bs w l t).cur = s.cur := by
  have h : ∀ (l : List Nat) (s : State), (s.countDrops l).ctxs = s.ctxs ∧ (s.countDrops l).cur = s.cur := by
    intro l
    induction l with
    | nil => exact fun s => ⟨rfl, rfl⟩
    | cons t r ih => exact fun s => ih _
  simp only [State.writePiece, State.checkWatches, h]
  split <;> split <;> exact ⟨rfl, rfl⟩

/-- Logging an event leaves the contexts and the moving hart. -/
theorem logEvent_ctxs (s : State) (t : EventType) (tenant core : Nat) (level : Level) (addr detail : Word) :
    (s.logEvent t tenant core level addr detail).ctxs = s.ctxs ∧
      (s.logEvent t tenant core level addr detail).cur = s.cur := by
  have h : ∀ (s u : State) (base : Nat) (tail : Word) (ws : List Word), s.ringPut base tail ws = some u →
      u.ctxs = s.ctxs ∧ u.cur = s.cur := by
    intro s u base tail ws hu
    simp only [State.ringPut] at hu
    split at hu
    · cases hu
    · cases hu; exact ⟨rfl, rfl⟩
  unfold State.logEvent
  split
  · exact ⟨rfl, rfl⟩
  · simp only
    split
    · rename_i s1 h1; exact h _ _ _ _ _ h1
    · generalize hd : ({ s with dev := { s.dev with evTail := s.hostWord (s.dev.evring.toNat + 8) } } : State) = s0
      have h0 : s0.ctxs = s.ctxs ∧ s0.cur = s.cur := by subst hd; exact ⟨rfl, rfl⟩
      split
      · rename_i s1 h1; have h2 := h _ _ _ _ _ h1; exact ⟨h2.1.trans h0.1, h2.2.trans h0.2⟩
      · exact h0

/-- A fold leaves the contexts and the moving hart where its steps do. -/
theorem foldl_ctxs {β : Type} {f : State → β → State}
    (hf : ∀ s b, (f s b).ctxs = s.ctxs ∧ (f s b).cur = s.cur) (l : List β) (s : State) :
    (l.foldl f s).ctxs = s.ctxs ∧ (l.foldl f s).cur = s.cur := by
  induction l generalizing s with
  | nil => exact ⟨rfl, rfl⟩
  | cons b l ih => exact ⟨(ih _).1.trans (hf s b).1, (ih _).2.trans (hf s b).2⟩

/-- A write within a block leaves the contexts and the moving hart. -/
theorem writeBlock_ctxs (s : State) (kind : PageKind) (pa : Nat) (bs : List Byte) (w : Nat) (l : Level) (t : Nat) :
    (s.writeBlock kind pa bs w l t).ctxs = s.ctxs ∧ (s.writeBlock kind pa bs w l t).cur = s.cur := by
  simp only [State.writeBlock]
  split
  · exact logEvent_ctxs ..
  · exact foldl_ctxs (fun s q => writePiece_ctxs ..) _ s

/-- A write to a copy leaves the contexts and the moving hart. -/
theorem writeCopy_ctxs (s : State) (kind : PageKind) (pa : Nat) (bs : List Byte) (w : Nat) (l : Level) (t : Nat) :
    (s.writeCopy kind pa bs w l t).ctxs = s.ctxs ∧ (s.writeCopy kind pa bs w l t).cur = s.cur :=
  foldl_ctxs (f := fun s (q : Nat × Nat) => s.writeBlock kind q.1 ((bs.drop (q.1 - pa)).take q.2) w l t) (fun _ _ => writeBlock_ctxs ..) _ s

/-- A multicast leaves the contexts and the moving hart. -/
theorem multicast_ctxs (s : State) (pl : Place) (bs : List Byte) (part : Option (Nat × Nat)) (w : Who) (l : Level) :
    (s.multicast pl bs part w l).ctxs = s.ctxs ∧ (s.multicast pl bs part w l).cur = s.cur :=
  foldl_ctxs (f := fun s pa => s.sendPacket w l part bs pa) (fun _ _ => ⟨rfl, rfl⟩) _ s

/-- A write to a place leaves the contexts and the moving hart. -/
theorem writePlace_ctxs (s : State) (pl : Place) (bs : List Byte) (w : Who) (l : Level) (lo : Bool) :
    (s.writePlace pl bs w l lo).ctxs = s.ctxs ∧ (s.writePlace pl bs w l lo).cur = s.cur := by
  simp only [State.writePlace]
  split
  · split
    · have h1 := writeCopy_ctxs s pl.kind pl.pa bs w.core l w.tenant
      have h2 := multicast_ctxs (s.writeCopy pl.kind pl.pa bs w.core l w.tenant) pl bs none w l
      exact ⟨h2.1.trans h1.1, h2.2.trans h1.2⟩
    · exact foldl_ctxs (fun s q => writeCopy_ctxs ..) _ s
  · exact writeCopy_ctxs ..

/-- A write to a region of pages leaves the contexts and the moving hart; one to a window changes the window. -/
theorem writeRegion_viq (s : State) (w : Who) (l : Level) (lo : Bool) (a : Nat) (bs : List Byte) (r : Region) :
    (s.writeRegion w l lo a bs r).cur = s.cur ∧
      ∀ cid, ((s.writeRegion w l lo a bs r).ctx cid).viq = (s.ctx cid).viq := by
  match r with
  | .window true off =>
    refine ⟨rfl, fun cid => ?_⟩
    by_cases h : cid = w.ref.cid
    · subst h; simp [State.writeRegion]
    · simp [State.writeRegion, State.ctx_withCtx_other _ _ _ _ h]
  | .window false off =>
    refine ⟨rfl, fun cid => ?_⟩
    by_cases h : cid = w.ref.cid
    · subst h; simp [State.writeRegion]
    · simp [State.writeRegion, State.ctx_withCtx_other _ _ _ _ h]
  | .pages ps =>
    have h := foldl_ctxs (f := fun s p => s.writePlace p.1 ((bs.drop (p.2.1 - a)).take p.2.2) w l lo)
      (fun s b => writePlace_ctxs ..) ps s
    exact ⟨h.2, fun cid => by simp only [State.writeRegion, State.ctx, h.1]⟩

/-- A store leaves every queue and the moving hart. -/
theorem store_viq (s t : State) (w : Who) (a : Nat) (bs : List Byte) (h : s.store w a bs = .ok t) :
    t.cur = s.cur ∧ ∀ cid, (t.ctx cid).viq = (s.ctx cid).viq := by
  simp only [State.store, MemRes.bind] at h
  split at h
  · cases h; exact writeRegion_viq ..
  · cases h
  · cases h

end Sys2Proof.Machine
end

