-- ==== Sys2Proof/Laws/PerInstr.lean ====
section
/-! SUPPORT. Statements about every instruction, one lemma a constructor: the decoder reads what the encoder writes
(03_encoding R40–R50). -/

namespace Sys2Proof.Laws

set_option Elab.async false
set_option linter.unusedSimpArgs false

/-- A well-formed instruction that has an encoding is what the decoder reads from it. -/
def Roundtrip.Statement (i : Instr) : Prop := i.wf = true → i.isEvent = false → decode (encode i) = .ok i

/-- Parcels of major 0x01 are decoded by its table. -/
theorem decode_major01 (p0 : Parcel) (hm : field 2 6 p0 = 1#6) (hl : field 0 2 p0 = 0#2) :
    decode [p0] = decodeMajor01 p0 := by
  simp only [decode, majField, lenField, hm, hl, majorLen, decodeBody, parcelsOfLen, List.length, ne_eq, not_true_eq_false,
    if_false, List.getD_cons_zero, List.getD_cons_succ, Nat.lt_irrefl, BitVec.toNat_ofNat, Nat.reduceAdd, Nat.reduceMod, Nat.reducePow]
  try rfl

/-- Parcels of major 0x02 are decoded by its table. -/
theorem decode_major02 (p0 : Parcel) (hm : field 2 6 p0 = 2#6) (hl : field 0 2 p0 = 0#2) :
    decode [p0] = decodeMajor02 p0 := by
  simp only [decode, majField, lenField, hm, hl, majorLen, decodeBody, parcelsOfLen, List.length, ne_eq, not_true_eq_false,
    if_false, List.getD_cons_zero, List.getD_cons_succ, Nat.lt_irrefl, BitVec.toNat_ofNat, Nat.reduceAdd, Nat.reduceMod, Nat.reducePow]
  try rfl

/-- Parcels of major 0x03 are decoded by its table. -/
theorem decode_major03 (p0 : Parcel) (hm : field 2 6 p0 = 3#6) (hl : field 0 2 p0 = 0#2) :
    decode [p0] = decodeMajor03 p0 := by
  simp only [decode, majField, lenField, hm, hl, majorLen, decodeBody, parcelsOfLen, List.length, ne_eq, not_true_eq_false,
    if_false, List.getD_cons_zero, List.getD_cons_succ, Nat.lt_irrefl, BitVec.toNat_ofNat, Nat.reduceAdd, Nat.reduceMod, Nat.reducePow]
  try rfl

/-- Parcels of major 0x04 are decoded by its table. -/
theorem decode_major04 (p0 : Parcel) (hm : field 2 6 p0 = 4#6) (hl : field 0 2 p0 = 0#2) :
    decode [p0] = decodeMajor04 p0 := by
  simp only [decode, majField, lenField, hm, hl, majorLen, decodeBody, parcelsOfLen, List.length, ne_eq, not_true_eq_false,
    if_false, List.getD_cons_zero, List.getD_cons_succ, Nat.lt_irrefl, BitVec.toNat_ofNat, Nat.reduceAdd, Nat.reduceMod, Nat.reducePow]
  try rfl

/-- Parcels of major 0x05 are decoded by its table. -/
theorem decode_major05 (p0 : Parcel) (hm : field 2 6 p0 = 5#6) (hl : field 0 2 p0 = 0#2) :
    decode [p0] = decodeMajor05 p0 := by
  simp only [decode, majField, lenField, hm, hl, majorLen, decodeBody, parcelsOfLen, List.length, ne_eq, not_true_eq_false,
    if_false, List.getD_cons_zero, List.getD_cons_succ, Nat.lt_irrefl, BitVec.toNat_ofNat, Nat.reduceAdd, Nat.reduceMod, Nat.reducePow]
  try rfl

/-- Parcels of major 0x06 are decoded by its table. -/
theorem decode_major06 (p0 : Parcel) (hm : field 2 6 p0 = 6#6) (hl : field 0 2 p0 = 0#2) :
    decode [p0] = decodeMajor06 p0 := by
  simp only [decode, majField, lenField, hm, hl, majorLen, decodeBody, parcelsOfLen, List.length, ne_eq, not_true_eq_false,
    if_false, List.getD_cons_zero, List.getD_cons_succ, Nat.lt_irrefl, BitVec.toNat_ofNat, Nat.reduceAdd, Nat.reduceMod, Nat.reducePow]
  try rfl

/-- Parcels of major 0x07 are decoded by its table. -/
theorem decode_major07 (p0 : Parcel) (hm : field 2 6 p0 = 7#6) (hl : field 0 2 p0 = 0#2) :
    decode [p0] = decodeMajor07 p0 := by
  simp only [decode, majField, lenField, hm, hl, majorLen, decodeBody, parcelsOfLen, List.length, ne_eq, not_true_eq_false,
    if_false, List.getD_cons_zero, List.getD_cons_succ, Nat.lt_irrefl, BitVec.toNat_ofNat, Nat.reduceAdd, Nat.reduceMod, Nat.reducePow]
  try rfl

/-- Parcels of major 0x08 are decoded by its table. -/
theorem decode_major08 (p0 : Parcel) (hm : field 2 6 p0 = 8#6) (hl : field 0 2 p0 = 0#2) :
    decode [p0] = decodeMajor08 p0 := by
  simp only [decode, majField, lenField, hm, hl, majorLen, decodeBody, parcelsOfLen, List.length, ne_eq, not_true_eq_false,
    if_false, List.getD_cons_zero, List.getD_cons_succ, Nat.lt_irrefl, BitVec.toNat_ofNat, Nat.reduceAdd, Nat.reduceMod, Nat.reducePow]
  try rfl

/-- Parcels of major 0x09 are decoded by its table. -/
theorem decode_major09 (p0 : Parcel) (hm : field 2 6 p0 = 9#6) (hl : field 0 2 p0 = 0#2) :
    decode [p0] = decodeMajor09 p0 := by
  simp only [decode, majField, lenField, hm, hl, majorLen, decodeBody, parcelsOfLen, List.length, ne_eq, not_true_eq_false,
    if_false, List.getD_cons_zero, List.getD_cons_succ, Nat.lt_irrefl, BitVec.toNat_ofNat, Nat.reduceAdd, Nat.reduceMod, Nat.reducePow]
  try rfl

/-- Parcels of major 0x0a are decoded by its table. -/
theorem decode_major0A (p0 p1 : Parcel) (hm : field 2 6 p0 = 10#6) (hl : field 0 2 p0 = 1#2) :
    decode [p0, p1] = decodeMajor0A p0 p1 := by
  simp only [decode, majField, lenField, hm, hl, majorLen, decodeBody, parcelsOfLen, List.length, ne_eq, not_true_eq_false,
    if_false, List.getD_cons_zero, List.getD_cons_succ, Nat.lt_irrefl, BitVec.toNat_ofNat, Nat.reduceAdd, Nat.reduceMod, Nat.reducePow]
  try rfl

/-- Parcels of major 0x0b are decoded by its table. -/
theorem decode_major0B (p0 : Parcel) (hm : field 2 6 p0 = 11#6) (hl : field 0 2 p0 = 0#2) :
    decode [p0] = decodeMajor0B p0 := by
  simp only [decode, majField, lenField, hm, hl, majorLen, decodeBody, parcelsOfLen, List.length, ne_eq, not_true_eq_false,
    if_false, List.getD_cons_zero, List.getD_cons_succ, Nat.lt_irrefl, BitVec.toNat_ofNat, Nat.reduceAdd, Nat.reduceMod, Nat.reducePow]
  try rfl

/-- Parcels of major 0x0c are decoded by its table. -/
theorem decode_major0C (p0 p1 : Parcel) (hm : field 2 6 p0 = 12#6) (hl : field 0 2 p0 = 1#2) :
    decode [p0, p1] = decodeMajor0C p0 p1 := by
  simp only [decode, majField, lenField, hm, hl, majorLen, decodeBody, parcelsOfLen, List.length, ne_eq, not_true_eq_false,
    if_false, List.getD_cons_zero, List.getD_cons_succ, Nat.lt_irrefl, BitVec.toNat_ofNat, Nat.reduceAdd, Nat.reduceMod, Nat.reducePow]
  try rfl

/-- Parcels of major 0x0d are decoded by its table. -/
theorem decode_major0D (p0 p1 p2 : Parcel) (hm : field 2 6 p0 = 13#6) (hl : field 0 2 p0 = 2#2) :
    decode [p0, p1, p2] = decodeMajor0D p0 p1 p2 := by
  simp only [decode, majField, lenField, hm, hl, majorLen, decodeBody, parcelsOfLen, List.length, ne_eq, not_true_eq_false,
    if_false, List.getD_cons_zero, List.getD_cons_succ, Nat.lt_irrefl, BitVec.toNat_ofNat, Nat.reduceAdd, Nat.reduceMod, Nat.reducePow]
  try rfl

/-- Parcels of major 0x0e are decoded by its table. -/
theorem decode_major0E (p0 : Parcel) (hm : field 2 6 p0 = 14#6) (hl : field 0 2 p0 = 0#2) :
    decode [p0] = decodeMajor0E p0 := by
  simp only [decode, majField, lenField, hm, hl, majorLen, decodeBody, parcelsOfLen, List.length, ne_eq, not_true_eq_false,
    if_false, List.getD_cons_zero, List.getD_cons_succ, Nat.lt_irrefl, BitVec.toNat_ofNat, Nat.reduceAdd, Nat.reduceMod, Nat.reducePow]
  try rfl

/-- Parcels of major 0x10 are decoded by its table. -/
theorem decode_major10 (p0 : Parcel) (hm : field 2 6 p0 = 16#6) (hl : field 0 2 p0 = 0#2) :
    decode [p0] = decodeMajor10 p0 := by
  simp only [decode, majField, lenField, hm, hl, majorLen, decodeBody, parcelsOfLen, List.length, ne_eq, not_true_eq_false,
    if_false, List.getD_cons_zero, List.getD_cons_succ, Nat.lt_irrefl, BitVec.toNat_ofNat, Nat.reduceAdd, Nat.reduceMod, Nat.reducePow]
  try rfl

/-- Parcels of major 0x11 are decoded by its table. -/
theorem decode_major11 (p0 : Parcel) (hm : field 2 6 p0 = 17#6) (hl : field 0 2 p0 = 0#2) :
    decode [p0] = decodeMajor11 p0 := by
  simp only [decode, majField, lenField, hm, hl, majorLen, decodeBody, parcelsOfLen, List.length, ne_eq, not_true_eq_false,
    if_false, List.getD_cons_zero, List.getD_cons_succ, Nat.lt_irrefl, BitVec.toNat_ofNat, Nat.reduceAdd, Nat.reduceMod, Nat.reducePow]
  try rfl

/-- Parcels of major 0x12 are decoded by its table. -/
theorem decode_major12 (p0 : Parcel) (hm : field 2 6 p0 = 18#6) (hl : field 0 2 p0 = 0#2) :
    decode [p0] = decodeMajor12 p0 := by
  simp only [decode, majField, lenField, hm, hl, majorLen, decodeBody, parcelsOfLen, List.length, ne_eq, not_true_eq_false,
    if_false, List.getD_cons_zero, List.getD_cons_succ, Nat.lt_irrefl, BitVec.toNat_ofNat, Nat.reduceAdd, Nat.reduceMod, Nat.reducePow]
  try rfl

/-- Parcels of major 0x14 are decoded by its table. -/
theorem decode_major14 (p0 : Parcel) (hm : field 2 6 p0 = 20#6) (hl : field 0 2 p0 = 0#2) :
    decode [p0] = decodeMajor14 p0 := by
  simp only [decode, majField, lenField, hm, hl, majorLen, decodeBody, parcelsOfLen, List.length, ne_eq, not_true_eq_false,
    if_false, List.getD_cons_zero, List.getD_cons_succ, Nat.lt_irrefl, BitVec.toNat_ofNat, Nat.reduceAdd, Nat.reduceMod, Nat.reducePow]
  try rfl

/-- Parcels of major 0x15 are decoded by its table. -/
theorem decode_major15 (p0 : Parcel) (hm : field 2 6 p0 = 21#6) (hl : field 0 2 p0 = 0#2) :
    decode [p0] = decodeMajor15 p0 := by
  simp only [decode, majField, lenField, hm, hl, majorLen, decodeBody, parcelsOfLen, List.length, ne_eq, not_true_eq_false,
    if_false, List.getD_cons_zero, List.getD_cons_succ, Nat.lt_irrefl, BitVec.toNat_ofNat, Nat.reduceAdd, Nat.reduceMod, Nat.reducePow]
  try rfl

/-- Parcels of major 0x16 are decoded by its table. -/
theorem decode_major16 (p0 p1 : Parcel) (hm : field 2 6 p0 = 22#6) (hl : field 0 2 p0 = 1#2) :
    decode [p0, p1] = decodeMajor16 p0 p1 := by
  simp only [decode, majField, lenField, hm, hl, majorLen, decodeBody, parcelsOfLen, List.length, ne_eq, not_true_eq_false,
    if_false, List.getD_cons_zero, List.getD_cons_succ, Nat.lt_irrefl, BitVec.toNat_ofNat, Nat.reduceAdd, Nat.reduceMod, Nat.reducePow]
  try rfl

/-- Parcels of major 0x17 are decoded by its table. -/
theorem decode_major17 (p0 p1 : Parcel) (hm : field 2 6 p0 = 23#6) (hl : field 0 2 p0 = 1#2) :
    decode [p0, p1] = decodeMajor17 p0 p1 := by
  simp only [decode, majField, lenField, hm, hl, majorLen, decodeBody, parcelsOfLen, List.length, ne_eq, not_true_eq_false,
    if_false, List.getD_cons_zero, List.getD_cons_succ, Nat.lt_irrefl, BitVec.toNat_ofNat, Nat.reduceAdd, Nat.reduceMod, Nat.reducePow]
  try rfl

/-- Parcels of major 0x18 are decoded by its table. -/
theorem decode_major18 (p0 : Parcel) (hm : field 2 6 p0 = 24#6) (hl : field 0 2 p0 = 0#2) :
    decode [p0] = decodeMajor18 p0 := by
  simp only [decode, majField, lenField, hm, hl, majorLen, decodeBody, parcelsOfLen, List.length, ne_eq, not_true_eq_false,
    if_false, List.getD_cons_zero, List.getD_cons_succ, Nat.lt_irrefl, BitVec.toNat_ofNat, Nat.reduceAdd, Nat.reduceMod, Nat.reducePow]
  try rfl

/-- Parcels of major 0x1a are decoded by its table. -/
theorem decode_major1A (p0 : Parcel) (hm : field 2 6 p0 = 26#6) (hl : field 0 2 p0 = 0#2) :
    decode [p0] = decodeMajor1A p0 := by
  simp only [decode, majField, lenField, hm, hl, majorLen, decodeBody, parcelsOfLen, List.length, ne_eq, not_true_eq_false,
    if_false, List.getD_cons_zero, List.getD_cons_succ, Nat.lt_irrefl, BitVec.toNat_ofNat, Nat.reduceAdd, Nat.reduceMod, Nat.reducePow]
  try rfl

/-- Parcels of major 0x1b are decoded by its table. -/
theorem decode_major1B (p0 : Parcel) (hm : field 2 6 p0 = 27#6) (hl : field 0 2 p0 = 0#2) :
    decode [p0] = decodeMajor1B p0 := by
  simp only [decode, majField, lenField, hm, hl, majorLen, decodeBody, parcelsOfLen, List.length, ne_eq, not_true_eq_false,
    if_false, List.getD_cons_zero, List.getD_cons_succ, Nat.lt_irrefl, BitVec.toNat_ofNat, Nat.reduceAdd, Nat.reduceMod, Nat.reducePow]
  try rfl

/-- Parcels of major 0x1c are decoded by its table. -/
theorem decode_major1C (p0 : Parcel) (hm : field 2 6 p0 = 28#6) (hl : field 0 2 p0 = 0#2) :
    decode [p0] = decodeMajor1C p0 := by
  simp only [decode, majField, lenField, hm, hl, majorLen, decodeBody, parcelsOfLen, List.length, ne_eq, not_true_eq_false,
    if_false, List.getD_cons_zero, List.getD_cons_succ, Nat.lt_irrefl, BitVec.toNat_ofNat, Nat.reduceAdd, Nat.reduceMod, Nat.reducePow]
  try rfl

/-- Parcels of major 0x1d are decoded by its table. -/
theorem decode_major1D (p0 p1 : Parcel) (hm : field 2 6 p0 = 29#6) (hl : field 0 2 p0 = 1#2) :
    decode [p0, p1] = decodeMajor1D p0 p1 := by
  simp only [decode, majField, lenField, hm, hl, majorLen, decodeBody, parcelsOfLen, List.length, ne_eq, not_true_eq_false,
    if_false, List.getD_cons_zero, List.getD_cons_succ, Nat.lt_irrefl, BitVec.toNat_ofNat, Nat.reduceAdd, Nat.reduceMod, Nat.reducePow]
  try rfl

/-- Parcels of major 0x20 are decoded by its table. -/
theorem decode_major20 (p0 p1 p2 : Parcel) (hm : field 2 6 p0 = 32#6) (hl : field 0 2 p0 = 2#2) :
    decode [p0, p1, p2] = decodeMajor20 p0 p1 p2 := by
  simp only [decode, majField, lenField, hm, hl, majorLen, decodeBody, parcelsOfLen, List.length, ne_eq, not_true_eq_false,
    if_false, List.getD_cons_zero, List.getD_cons_succ, Nat.lt_irrefl, BitVec.toNat_ofNat, Nat.reduceAdd, Nat.reduceMod, Nat.reducePow]
  try rfl

/-- Parcels of major 0x21 are decoded by its table. -/
theorem decode_major21 (p0 p1 p2 p3 p4 : Parcel) (hm : field 2 6 p0 = 33#6) (hl : field 0 2 p0 = 3#2) :
    decode [p0, p1, p2, p3, p4] = decodeMajor21 p0 p1 p2 p3 p4 := by
  simp only [decode, majField, lenField, hm, hl, majorLen, decodeBody, parcelsOfLen, List.length, ne_eq, not_true_eq_false,
    if_false, List.getD_cons_zero, List.getD_cons_succ, Nat.lt_irrefl, BitVec.toNat_ofNat, Nat.reduceAdd, Nat.reduceMod, Nat.reducePow]
  try rfl

/-- Parcels of major 0x22 are decoded by its table. -/
theorem decode_major22 (p0 : Parcel) (hm : field 2 6 p0 = 34#6) (hl : field 0 2 p0 = 0#2) :
    decode [p0] = decodeMajor22 p0 := by
  simp only [decode, majField, lenField, hm, hl, majorLen, decodeBody, parcelsOfLen, List.length, ne_eq, not_true_eq_false,
    if_false, List.getD_cons_zero, List.getD_cons_succ, Nat.lt_irrefl, BitVec.toNat_ofNat, Nat.reduceAdd, Nat.reduceMod, Nat.reducePow]
  try rfl

/-- Parcels of major 0x24 are decoded by its table. -/
theorem decode_major24 (p0 : Parcel) (hm : field 2 6 p0 = 36#6) (hl : field 0 2 p0 = 0#2) :
    decode [p0] = decodeMajor24 p0 := by
  simp only [decode, majField, lenField, hm, hl, majorLen, decodeBody, parcelsOfLen, List.length, ne_eq, not_true_eq_false,
    if_false, List.getD_cons_zero, List.getD_cons_succ, Nat.lt_irrefl, BitVec.toNat_ofNat, Nat.reduceAdd, Nat.reduceMod, Nat.reducePow]
  try rfl

/-- Parcels of major 0x25 are decoded by its table. -/
theorem decode_major25 (p0 p1 : Parcel) (hm : field 2 6 p0 = 37#6) (hl : field 0 2 p0 = 1#2) :
    decode [p0, p1] = decodeMajor25 p0 p1 := by
  simp only [decode, majField, lenField, hm, hl, majorLen, decodeBody, parcelsOfLen, List.length, ne_eq, not_true_eq_false,
    if_false, List.getD_cons_zero, List.getD_cons_succ, Nat.lt_irrefl, BitVec.toNat_ofNat, Nat.reduceAdd, Nat.reduceMod, Nat.reducePow]
  try rfl

/-- Parcels of major 0x26 are decoded by its table. -/
theorem decode_major26 (p0 : Parcel) (hm : field 2 6 p0 = 38#6) (hl : field 0 2 p0 = 0#2) :
    decode [p0] = decodeMajor26 p0 := by
  simp only [decode, majField, lenField, hm, hl, majorLen, decodeBody, parcelsOfLen, List.length, ne_eq, not_true_eq_false,
    if_false, List.getD_cons_zero, List.getD_cons_succ, Nat.lt_irrefl, BitVec.toNat_ofNat, Nat.reduceAdd, Nat.reduceMod, Nat.reducePow]
  try rfl

/-- Parcels of major 0x27 are decoded by its table. -/
theorem decode_major27 (p0 : Parcel) (hm : field 2 6 p0 = 39#6) (hl : field 0 2 p0 = 0#2) :
    decode [p0] = decodeMajor27 p0 := by
  simp only [decode, majField, lenField, hm, hl, majorLen, decodeBody, parcelsOfLen, List.length, ne_eq, not_true_eq_false,
    if_false, List.getD_cons_zero, List.getD_cons_succ, Nat.lt_irrefl, BitVec.toNat_ofNat, Nat.reduceAdd, Nat.reduceMod, Nat.reducePow]
  try rfl

/-- Parcels of major 0x28 are decoded by its table. -/
theorem decode_major28 (p0 : Parcel) (hm : field 2 6 p0 = 40#6) (hl : field 0 2 p0 = 0#2) :
    decode [p0] = decodeMajor28 p0 := by
  simp only [decode, majField, lenField, hm, hl, majorLen, decodeBody, parcelsOfLen, List.length, ne_eq, not_true_eq_false,
    if_false, List.getD_cons_zero, List.getD_cons_succ, Nat.lt_irrefl, BitVec.toNat_ofNat, Nat.reduceAdd, Nat.reduceMod, Nat.reducePow]
  try rfl

/-- Parcels of major 0x29 are decoded by its table. -/
theorem decode_major29 (p0 : Parcel) (hm : field 2 6 p0 = 41#6) (hl : field 0 2 p0 = 0#2) :
    decode [p0] = decodeMajor29 p0 := by
  simp only [decode, majField, lenField, hm, hl, majorLen, decodeBody, parcelsOfLen, List.length, ne_eq, not_true_eq_false,
    if_false, List.getD_cons_zero, List.getD_cons_succ, Nat.lt_irrefl, BitVec.toNat_ofNat, Nat.reduceAdd, Nat.reduceMod, Nat.reducePow]
  try rfl

/-- Parcels of major 0x30 are decoded by its table. -/
theorem decode_major30 (p0 : Parcel) (hm : field 2 6 p0 = 48#6) (hl : field 0 2 p0 = 0#2) :
    decode [p0] = decodeMajor30 p0 := by
  simp only [decode, majField, lenField, hm, hl, majorLen, decodeBody, parcelsOfLen, List.length, ne_eq, not_true_eq_false,
    if_false, List.getD_cons_zero, List.getD_cons_succ, Nat.lt_irrefl, BitVec.toNat_ofNat, Nat.reduceAdd, Nat.reduceMod, Nat.reducePow]
  try rfl

/-- Parcels of major 0x31 are decoded by its table. -/
theorem decode_major31 (p0 : Parcel) (hm : field 2 6 p0 = 49#6) (hl : field 0 2 p0 = 0#2) :
    decode [p0] = decodeMajor31 p0 := by
  simp only [decode, majField, lenField, hm, hl, majorLen, decodeBody, parcelsOfLen, List.length, ne_eq, not_true_eq_false,
    if_false, List.getD_cons_zero, List.getD_cons_succ, Nat.lt_irrefl, BitVec.toNat_ofNat, Nat.reduceAdd, Nat.reduceMod, Nat.reducePow]
  try rfl

/-- Parcels of major 0x32 are decoded by its table. -/
theorem decode_major32 (p0 : Parcel) (hm : field 2 6 p0 = 50#6) (hl : field 0 2 p0 = 0#2) :
    decode [p0] = decodeMajor32 p0 := by
  simp only [decode, majField, lenField, hm, hl, majorLen, decodeBody, parcelsOfLen, List.length, ne_eq, not_true_eq_false,
    if_false, List.getD_cons_zero, List.getD_cons_succ, Nat.lt_irrefl, BitVec.toNat_ofNat, Nat.reduceAdd, Nat.reduceMod, Nat.reducePow]
  try rfl

/-- Parcels of major 0x33 are decoded by its table. -/
theorem decode_major33 (p0 : Parcel) (hm : field 2 6 p0 = 51#6) (hl : field 0 2 p0 = 0#2) :
    decode [p0] = decodeMajor33 p0 := by
  simp only [decode, majField, lenField, hm, hl, majorLen, decodeBody, parcelsOfLen, List.length, ne_eq, not_true_eq_false,
    if_false, List.getD_cons_zero, List.getD_cons_succ, Nat.lt_irrefl, BitVec.toNat_ofNat, Nat.reduceAdd, Nat.reduceMod, Nat.reducePow]
  try rfl

/-- Parcels of major 0x34 are decoded by its table. -/
theorem decode_major34 (p0 : Parcel) (hm : field 2 6 p0 = 52#6) (hl : field 0 2 p0 = 0#2) :
    decode [p0] = decodeMajor34 p0 := by
  simp only [decode, majField, lenField, hm, hl, majorLen, decodeBody, parcelsOfLen, List.length, ne_eq, not_true_eq_false,
    if_false, List.getD_cons_zero, List.getD_cons_succ, Nat.lt_irrefl, BitVec.toNat_ofNat, Nat.reduceAdd, Nat.reduceMod, Nat.reducePow]
  try rfl

/-- Parcels of major 0x35 are decoded by its table. -/
theorem decode_major35 (p0 : Parcel) (hm : field 2 6 p0 = 53#6) (hl : field 0 2 p0 = 0#2) :
    decode [p0] = decodeMajor35 p0 := by
  simp only [decode, majField, lenField, hm, hl, majorLen, decodeBody, parcelsOfLen, List.length, ne_eq, not_true_eq_false,
    if_false, List.getD_cons_zero, List.getD_cons_succ, Nat.lt_irrefl, BitVec.toNat_ofNat, Nat.reduceAdd, Nat.reduceMod, Nat.reducePow]
  try rfl

/-- Parcels of major 0x36 are decoded by its table. -/
theorem decode_major36 (p0 : Parcel) (hm : field 2 6 p0 = 54#6) (hl : field 0 2 p0 = 0#2) :
    decode [p0] = decodeMajor36 p0 := by
  simp only [decode, majField, lenField, hm, hl, majorLen, decodeBody, parcelsOfLen, List.length, ne_eq, not_true_eq_false,
    if_false, List.getD_cons_zero, List.getD_cons_succ, Nat.lt_irrefl, BitVec.toNat_ofNat, Nat.reduceAdd, Nat.reduceMod, Nat.reducePow]
  try rfl

/-- Parcels of major 0x37 are decoded by its table. -/
theorem decode_major37 (p0 : Parcel) (hm : field 2 6 p0 = 55#6) (hl : field 0 2 p0 = 0#2) :
    decode [p0] = decodeMajor37 p0 := by
  simp only [decode, majField, lenField, hm, hl, majorLen, decodeBody, parcelsOfLen, List.length, ne_eq, not_true_eq_false,
    if_false, List.getD_cons_zero, List.getD_cons_succ, Nat.lt_irrefl, BitVec.toNat_ofNat, Nat.reduceAdd, Nat.reduceMod, Nat.reducePow]
  try rfl

/-- Parcels of major 0x38 are decoded by its table. -/
theorem decode_major38 (p0 : Parcel) (hm : field 2 6 p0 = 56#6) (hl : field 0 2 p0 = 0#2) :
    decode [p0] = decodeMajor38 p0 := by
  simp only [decode, majField, lenField, hm, hl, majorLen, decodeBody, parcelsOfLen, List.length, ne_eq, not_true_eq_false,
    if_false, List.getD_cons_zero, List.getD_cons_succ, Nat.lt_irrefl, BitVec.toNat_ofNat, Nat.reduceAdd, Nat.reduceMod, Nat.reducePow]
  try rfl

/-- Parcels of major 0x39 are decoded by its table. -/
theorem decode_major39 (p0 p1 : Parcel) (hm : field 2 6 p0 = 57#6) (hl : field 0 2 p0 = 1#2) :
    decode [p0, p1] = decodeMajor39 p0 p1 := by
  simp only [decode, majField, lenField, hm, hl, majorLen, decodeBody, parcelsOfLen, List.length, ne_eq, not_true_eq_false,
    if_false, List.getD_cons_zero, List.getD_cons_succ, Nat.lt_irrefl, BitVec.toNat_ofNat, Nat.reduceAdd, Nat.reduceMod, Nat.reducePow]
  try rfl

/-- Parcels of major 0x3a are decoded by its table. -/
theorem decode_major3A (p0 p1 : Parcel) (hm : field 2 6 p0 = 58#6) (hl : field 0 2 p0 = 1#2) :
    decode [p0, p1] = decodeMajor3A p0 p1 := by
  simp only [decode, majField, lenField, hm, hl, majorLen, decodeBody, parcelsOfLen, List.length, ne_eq, not_true_eq_false,
    if_false, List.getD_cons_zero, List.getD_cons_succ, Nat.lt_irrefl, BitVec.toNat_ofNat, Nat.reduceAdd, Nat.reduceMod, Nat.reducePow]
  try rfl

/-- Parcels of major 0x3b are decoded by its table. -/
theorem decode_major3B (p0 : Parcel) (hm : field 2 6 p0 = 59#6) (hl : field 0 2 p0 = 0#2) :
    decode [p0] = decodeMajor3B p0 := by
  simp only [decode, majField, lenField, hm, hl, majorLen, decodeBody, parcelsOfLen, List.length, ne_eq, not_true_eq_false,
    if_false, List.getD_cons_zero, List.getD_cons_succ, Nat.lt_irrefl, BitVec.toNat_ofNat, Nat.reduceAdd, Nat.reduceMod, Nat.reducePow]
  try rfl

/-- Parcels of major 0x3c are decoded by its table. -/
theorem decode_major3C (p0 : Parcel) (hm : field 2 6 p0 = 60#6) (hl : field 0 2 p0 = 0#2) :
    decode [p0] = decodeMajor3C p0 := by
  simp only [decode, majField, lenField, hm, hl, majorLen, decodeBody, parcelsOfLen, List.length, ne_eq, not_true_eq_false,
    if_false, List.getD_cons_zero, List.getD_cons_succ, Nat.lt_irrefl, BitVec.toNat_ofNat, Nat.reduceAdd, Nat.reduceMod, Nat.reducePow]
  try rfl

/-- Parcel 1 of a scan gives its carries back. -/
theorem carries_read (ci : CarryIn) (co : CarryOut) (k : CarryIn → CarryOut → Instr) :
    decodeCarries (carryParcel ci co) k = .ok (k ci co) := by
  have u := fields_10_5_5_4_4_2_2 0#10 ci.fields.2.1 co.fields.2.1 co.fields.2.2 ci.fields.2.2 co.fields.1 ci.fields.1
  simp only [carryParcel]
  generalize (0#10 ++ ci.fields.2.1 ++ co.fields.2.1 ++ co.fields.2.2 ++ ci.fields.2.2 ++ co.fields.1 ++ ci.fields.1 : BitVec 32)
    = p1 at u ⊢
  obtain ⟨h0, h1, h2, h3, h4, h5, h6⟩ := u
  simp only [decodeCarries, decodeCarryIn, decodeCarryOut, reserved, h0, h1, h2, h3, h4, h5, h6, BitVec.ofNat_eq_ofNat, if_true]
  cases ci <;> cases co <;> simp [CarryIn.fields, CarryOut.fields]

/-- ADD. -/
theorem Roundtrip.add (d : SReg) (a : SReg) (b : SReg) : Roundtrip.Statement (.add d a b) := by
  intro hw _
  have u0 := fields_4_5_5_5_5_6_2 0#4 0#5 b a d 1#6 0#2
  simp only [encode]
  generalize (0#4 ++ 0#5 ++ b ++ a ++ d ++ 1#6 ++ 0#2 : BitVec 32) = p0 at u0 ⊢
  obtain ⟨h0a, h0b, h0c, h0d, h0e, h0f, h0g⟩ := u0
  rw [decode_major01 p0 h0f h0g]
  simp only [decodeMajor01, minField, h0a, h0b, h0c, h0d, h0e, reserved, limit, reservedUnless, field_whole, BitVec.toNat_ofNat, Nat.reduceMod,
    Nat.reducePow, if_true, BitVec.ofNat_eq_ofNat]
  try rfl

/-- SUB. -/
theorem Roundtrip.sub (d : SReg) (a : SReg) (b : SReg) : Roundtrip.Statement (.sub d a b) := by
  intro hw _
  have u0 := fields_4_5_5_5_5_6_2 0#4 1#5 b a d 1#6 0#2
  simp only [encode]
  generalize (0#4 ++ 1#5 ++ b ++ a ++ d ++ 1#6 ++ 0#2 : BitVec 32) = p0 at u0 ⊢
  obtain ⟨h0a, h0b, h0c, h0d, h0e, h0f, h0g⟩ := u0
  rw [decode_major01 p0 h0f h0g]
  simp only [decodeMajor01, minField, h0a, h0b, h0c, h0d, h0e, reserved, limit, reservedUnless, field_whole, BitVec.toNat_ofNat, Nat.reduceMod,
    Nat.reducePow, if_true, BitVec.ofNat_eq_ofNat]
  try rfl

/-- AND. -/
theorem Roundtrip.and (d : SReg) (a : SReg) (b : SReg) : Roundtrip.Statement (.and d a b) := by
  intro hw _
  have u0 := fields_4_5_5_5_5_6_2 0#4 2#5 b a d 1#6 0#2
  simp only [encode]
  generalize (0#4 ++ 2#5 ++ b ++ a ++ d ++ 1#6 ++ 0#2 : BitVec 32) = p0 at u0 ⊢
  obtain ⟨h0a, h0b, h0c, h0d, h0e, h0f, h0g⟩ := u0
  rw [decode_major01 p0 h0f h0g]
  simp only [decodeMajor01, minField, h0a, h0b, h0c, h0d, h0e, reserved, limit, reservedUnless, field_whole, BitVec.toNat_ofNat, Nat.reduceMod,
    Nat.reducePow, if_true, BitVec.ofNat_eq_ofNat]
  try rfl

/-- OR. -/
theorem Roundtrip.or (d : SReg) (a : SReg) (b : SReg) : Roundtrip.Statement (.or d a b) := by
  intro hw _
  have u0 := fields_4_5_5_5_5_6_2 0#4 3#5 b a d 1#6 0#2
  simp only [encode]
  generalize (0#4 ++ 3#5 ++ b ++ a ++ d ++ 1#6 ++ 0#2 : BitVec 32) = p0 at u0 ⊢
  obtain ⟨h0a, h0b, h0c, h0d, h0e, h0f, h0g⟩ := u0
  rw [decode_major01 p0 h0f h0g]
  simp only [decodeMajor01, minField, h0a, h0b, h0c, h0d, h0e, reserved, limit, reservedUnless, field_whole, BitVec.toNat_ofNat, Nat.reduceMod,
    Nat.reducePow, if_true, BitVec.ofNat_eq_ofNat]
  try rfl

/-- XOR. -/
theorem Roundtrip.xor (d : SReg) (a : SReg) (b : SReg) : Roundtrip.Statement (.xor d a b) := by
  intro hw _
  have u0 := fields_4_5_5_5_5_6_2 0#4 4#5 b a d 1#6 0#2
  simp only [encode]
  generalize (0#4 ++ 4#5 ++ b ++ a ++ d ++ 1#6 ++ 0#2 : BitVec 32) = p0 at u0 ⊢
  obtain ⟨h0a, h0b, h0c, h0d, h0e, h0f, h0g⟩ := u0
  rw [decode_major01 p0 h0f h0g]
  simp only [decodeMajor01, minField, h0a, h0b, h0c, h0d, h0e, reserved, limit, reservedUnless, field_whole, BitVec.toNat_ofNat, Nat.reduceMod,
    Nat.reducePow, if_true, BitVec.ofNat_eq_ofNat]
  try rfl

/-- SLL. -/
theorem Roundtrip.sll (d : SReg) (a : SReg) (b : SReg) : Roundtrip.Statement (.sll d a b) := by
  intro hw _
  have u0 := fields_4_5_5_5_5_6_2 0#4 5#5 b a d 1#6 0#2
  simp only [encode]
  generalize (0#4 ++ 5#5 ++ b ++ a ++ d ++ 1#6 ++ 0#2 : BitVec 32) = p0 at u0 ⊢
  obtain ⟨h0a, h0b, h0c, h0d, h0e, h0f, h0g⟩ := u0
  rw [decode_major01 p0 h0f h0g]
  simp only [decodeMajor01, minField, h0a, h0b, h0c, h0d, h0e, reserved, limit, reservedUnless, field_whole, BitVec.toNat_ofNat, Nat.reduceMod,
    Nat.reducePow, if_true, BitVec.ofNat_eq_ofNat]
  try rfl

/-- SRL. -/
theorem Roundtrip.srl (d : SReg) (a : SReg) (b : SReg) : Roundtrip.Statement (.srl d a b) := by
  intro hw _
  have u0 := fields_4_5_5_5_5_6_2 0#4 6#5 b a d 1#6 0#2
  simp only [encode]
  generalize (0#4 ++ 6#5 ++ b ++ a ++ d ++ 1#6 ++ 0#2 : BitVec 32) = p0 at u0 ⊢
  obtain ⟨h0a, h0b, h0c, h0d, h0e, h0f, h0g⟩ := u0
  rw [decode_major01 p0 h0f h0g]
  simp only [decodeMajor01, minField, h0a, h0b, h0c, h0d, h0e, reserved, limit, reservedUnless, field_whole, BitVec.toNat_ofNat, Nat.reduceMod,
    Nat.reducePow, if_true, BitVec.ofNat_eq_ofNat]
  try rfl

/-- SRA. -/
theorem Roundtrip.sra (d : SReg) (a : SReg) (b : SReg) : Roundtrip.Statement (.sra d a b) := by
  intro hw _
  have u0 := fields_4_5_5_5_5_6_2 0#4 7#5 b a d 1#6 0#2
  simp only [encode]
  generalize (0#4 ++ 7#5 ++ b ++ a ++ d ++ 1#6 ++ 0#2 : BitVec 32) = p0 at u0 ⊢
  obtain ⟨h0a, h0b, h0c, h0d, h0e, h0f, h0g⟩ := u0
  rw [decode_major01 p0 h0f h0g]
  simp only [decodeMajor01, minField, h0a, h0b, h0c, h0d, h0e, reserved, limit, reservedUnless, field_whole, BitVec.toNat_ofNat, Nat.reduceMod,
    Nat.reducePow, if_true, BitVec.ofNat_eq_ofNat]
  try rfl

/-- SETLT. -/
theorem Roundtrip.setlt (d : SReg) (a : SReg) (b : SReg) : Roundtrip.Statement (.setlt d a b) := by
  intro hw _
  have u0 := fields_4_5_5_5_5_6_2 0#4 8#5 b a d 1#6 0#2
  simp only [encode]
  generalize (0#4 ++ 8#5 ++ b ++ a ++ d ++ 1#6 ++ 0#2 : BitVec 32) = p0 at u0 ⊢
  obtain ⟨h0a, h0b, h0c, h0d, h0e, h0f, h0g⟩ := u0
  rw [decode_major01 p0 h0f h0g]
  simp only [decodeMajor01, minField, h0a, h0b, h0c, h0d, h0e, reserved, limit, reservedUnless, field_whole, BitVec.toNat_ofNat, Nat.reduceMod,
    Nat.reducePow, if_true, BitVec.ofNat_eq_ofNat]
  try rfl

/-- SETLTU. -/
theorem Roundtrip.setltu (d : SReg) (a : SReg) (b : SReg) : Roundtrip.Statement (.setltu d a b) := by
  intro hw _
  have u0 := fields_4_5_5_5_5_6_2 0#4 9#5 b a d 1#6 0#2
  simp only [encode]
  generalize (0#4 ++ 9#5 ++ b ++ a ++ d ++ 1#6 ++ 0#2 : BitVec 32) = p0 at u0 ⊢
  obtain ⟨h0a, h0b, h0c, h0d, h0e, h0f, h0g⟩ := u0
  rw [decode_major01 p0 h0f h0g]
  simp only [decodeMajor01, minField, h0a, h0b, h0c, h0d, h0e, reserved, limit, reservedUnless, field_whole, BitVec.toNat_ofNat, Nat.reduceMod,
    Nat.reducePow, if_true, BitVec.ofNat_eq_ofNat]
  try rfl

/-- MIN. -/
theorem Roundtrip.min (d : SReg) (a : SReg) (b : SReg) : Roundtrip.Statement (.min d a b) := by
  intro hw _
  have u0 := fields_4_5_5_5_5_6_2 0#4 10#5 b a d 1#6 0#2
  simp only [encode]
  generalize (0#4 ++ 10#5 ++ b ++ a ++ d ++ 1#6 ++ 0#2 : BitVec 32) = p0 at u0 ⊢
  obtain ⟨h0a, h0b, h0c, h0d, h0e, h0f, h0g⟩ := u0
  rw [decode_major01 p0 h0f h0g]
  simp only [decodeMajor01, minField, h0a, h0b, h0c, h0d, h0e, reserved, limit, reservedUnless, field_whole, BitVec.toNat_ofNat, Nat.reduceMod,
    Nat.reducePow, if_true, BitVec.ofNat_eq_ofNat]
  try rfl

/-- MAX. -/
theorem Roundtrip.max (d : SReg) (a : SReg) (b : SReg) : Roundtrip.Statement (.max d a b) := by
  intro hw _
  have u0 := fields_4_5_5_5_5_6_2 0#4 11#5 b a d 1#6 0#2
  simp only [encode]
  generalize (0#4 ++ 11#5 ++ b ++ a ++ d ++ 1#6 ++ 0#2 : BitVec 32) = p0 at u0 ⊢
  obtain ⟨h0a, h0b, h0c, h0d, h0e, h0f, h0g⟩ := u0
  rw [decode_major01 p0 h0f h0g]
  simp only [decodeMajor01, minField, h0a, h0b, h0c, h0d, h0e, reserved, limit, reservedUnless, field_whole, BitVec.toNat_ofNat, Nat.reduceMod,
    Nat.reducePow, if_true, BitVec.ofNat_eq_ofNat]
  try rfl

/-- MINU. -/
theorem Roundtrip.minu (d : SReg) (a : SReg) (b : SReg) : Roundtrip.Statement (.minu d a b) := by
  intro hw _
  have u0 := fields_4_5_5_5_5_6_2 0#4 12#5 b a d 1#6 0#2
  simp only [encode]
  generalize (0#4 ++ 12#5 ++ b ++ a ++ d ++ 1#6 ++ 0#2 : BitVec 32) = p0 at u0 ⊢
  obtain ⟨h0a, h0b, h0c, h0d, h0e, h0f, h0g⟩ := u0
  rw [decode_major01 p0 h0f h0g]
  simp only [decodeMajor01, minField, h0a, h0b, h0c, h0d, h0e, reserved, limit, reservedUnless, field_whole, BitVec.toNat_ofNat, Nat.reduceMod,
    Nat.reducePow, if_true, BitVec.ofNat_eq_ofNat]
  try rfl

/-- MAXU. -/
theorem Roundtrip.maxu (d : SReg) (a : SReg) (b : SReg) : Roundtrip.Statement (.maxu d a b) := by
  intro hw _
  have u0 := fields_4_5_5_5_5_6_2 0#4 13#5 b a d 1#6 0#2
  simp only [encode]
  generalize (0#4 ++ 13#5 ++ b ++ a ++ d ++ 1#6 ++ 0#2 : BitVec 32) = p0 at u0 ⊢
  obtain ⟨h0a, h0b, h0c, h0d, h0e, h0f, h0g⟩ := u0
  rw [decode_major01 p0 h0f h0g]
  simp only [decodeMajor01, minField, h0a, h0b, h0c, h0d, h0e, reserved, limit, reservedUnless, field_whole, BitVec.toNat_ofNat, Nat.reduceMod,
    Nat.reducePow, if_true, BitVec.ofNat_eq_ofNat]
  try rfl

/-- ANDN. -/
theorem Roundtrip.andn (d : SReg) (a : SReg) (b : SReg) : Roundtrip.Statement (.andn d a b) := by
  intro hw _
  have u0 := fields_4_5_5_5_5_6_2 0#4 14#5 b a d 1#6 0#2
  simp only [encode]
  generalize (0#4 ++ 14#5 ++ b ++ a ++ d ++ 1#6 ++ 0#2 : BitVec 32) = p0 at u0 ⊢
  obtain ⟨h0a, h0b, h0c, h0d, h0e, h0f, h0g⟩ := u0
  rw [decode_major01 p0 h0f h0g]
  simp only [decodeMajor01, minField, h0a, h0b, h0c, h0d, h0e, reserved, limit, reservedUnless, field_whole, BitVec.toNat_ofNat, Nat.reduceMod,
    Nat.reducePow, if_true, BitVec.ofNat_eq_ofNat]
  try rfl

/-- ORN. -/
theorem Roundtrip.orn (d : SReg) (a : SReg) (b : SReg) : Roundtrip.Statement (.orn d a b) := by
  intro hw _
  have u0 := fields_4_5_5_5_5_6_2 0#4 15#5 b a d 1#6 0#2
  simp only [encode]
  generalize (0#4 ++ 15#5 ++ b ++ a ++ d ++ 1#6 ++ 0#2 : BitVec 32) = p0 at u0 ⊢
  obtain ⟨h0a, h0b, h0c, h0d, h0e, h0f, h0g⟩ := u0
  rw [decode_major01 p0 h0f h0g]
  simp only [decodeMajor01, minField, h0a, h0b, h0c, h0d, h0e, reserved, limit, reservedUnless, field_whole, BitVec.toNat_ofNat, Nat.reduceMod,
    Nat.reducePow, if_true, BitVec.ofNat_eq_ofNat]
  try rfl

/-- ROL. -/
theorem Roundtrip.rol (d : SReg) (a : SReg) (b : SReg) : Roundtrip.Statement (.rol d a b) := by
  intro hw _
  have u0 := fields_4_5_5_5_5_6_2 0#4 16#5 b a d 1#6 0#2
  simp only [encode]
  generalize (0#4 ++ 16#5 ++ b ++ a ++ d ++ 1#6 ++ 0#2 : BitVec 32) = p0 at u0 ⊢
  obtain ⟨h0a, h0b, h0c, h0d, h0e, h0f, h0g⟩ := u0
  rw [decode_major01 p0 h0f h0g]
  simp only [decodeMajor01, minField, h0a, h0b, h0c, h0d, h0e, reserved, limit, reservedUnless, field_whole, BitVec.toNat_ofNat, Nat.reduceMod,
    Nat.reducePow, if_true, BitVec.ofNat_eq_ofNat]
  try rfl

/-- ROR. -/
theorem Roundtrip.ror (d : SReg) (a : SReg) (b : SReg) : Roundtrip.Statement (.ror d a b) := by
  intro hw _
  have u0 := fields_4_5_5_5_5_6_2 0#4 17#5 b a d 1#6 0#2
  simp only [encode]
  generalize (0#4 ++ 17#5 ++ b ++ a ++ d ++ 1#6 ++ 0#2 : BitVec 32) = p0 at u0 ⊢
  obtain ⟨h0a, h0b, h0c, h0d, h0e, h0f, h0g⟩ := u0
  rw [decode_major01 p0 h0f h0g]
  simp only [decodeMajor01, minField, h0a, h0b, h0c, h0d, h0e, reserved, limit, reservedUnless, field_whole, BitVec.toNat_ofNat, Nat.reduceMod,
    Nat.reducePow, if_true, BitVec.ofNat_eq_ofNat]
  try rfl

/-- MUL. -/
theorem Roundtrip.mul (d : SReg) (a : SReg) (b : SReg) : Roundtrip.Statement (.mul d a b) := by
  intro hw _
  have u0 := fields_4_5_5_5_5_6_2 0#4 0#5 b a d 2#6 0#2
  simp only [encode]
  generalize (0#4 ++ 0#5 ++ b ++ a ++ d ++ 2#6 ++ 0#2 : BitVec 32) = p0 at u0 ⊢
  obtain ⟨h0a, h0b, h0c, h0d, h0e, h0f, h0g⟩ := u0
  rw [decode_major02 p0 h0f h0g]
  simp only [decodeMajor02, minField, h0a, h0b, h0c, h0d, h0e, reserved, limit, reservedUnless, field_whole, BitVec.toNat_ofNat, Nat.reduceMod,
    Nat.reducePow, if_true, BitVec.ofNat_eq_ofNat]
  try rfl

/-- MULHI_SS. -/
theorem Roundtrip.mulhiSs (d : SReg) (a : SReg) (b : SReg) : Roundtrip.Statement (.mulhiSs d a b) := by
  intro hw _
  have u0 := fields_4_5_5_5_5_6_2 0#4 1#5 b a d 2#6 0#2
  simp only [encode]
  generalize (0#4 ++ 1#5 ++ b ++ a ++ d ++ 2#6 ++ 0#2 : BitVec 32) = p0 at u0 ⊢
  obtain ⟨h0a, h0b, h0c, h0d, h0e, h0f, h0g⟩ := u0
  rw [decode_major02 p0 h0f h0g]
  simp only [decodeMajor02, minField, h0a, h0b, h0c, h0d, h0e, reserved, limit, reservedUnless, field_whole, BitVec.toNat_ofNat, Nat.reduceMod,
    Nat.reducePow, if_true, BitVec.ofNat_eq_ofNat]
  try rfl

/-- MULHI_UU. -/
theorem Roundtrip.mulhiUu (d : SReg) (a : SReg) (b : SReg) : Roundtrip.Statement (.mulhiUu d a b) := by
  intro hw _
  have u0 := fields_4_5_5_5_5_6_2 0#4 2#5 b a d 2#6 0#2
  simp only [encode]
  generalize (0#4 ++ 2#5 ++ b ++ a ++ d ++ 2#6 ++ 0#2 : BitVec 32) = p0 at u0 ⊢
  obtain ⟨h0a, h0b, h0c, h0d, h0e, h0f, h0g⟩ := u0
  rw [decode_major02 p0 h0f h0g]
  simp only [decodeMajor02, minField, h0a, h0b, h0c, h0d, h0e, reserved, limit, reservedUnless, field_whole, BitVec.toNat_ofNat, Nat.reduceMod,
    Nat.reducePow, if_true, BitVec.ofNat_eq_ofNat]
  try rfl

/-- MULHI_SU. -/
theorem Roundtrip.mulhiSu (d : SReg) (a : SReg) (b : SReg) : Roundtrip.Statement (.mulhiSu d a b) := by
  intro hw _
  have u0 := fields_4_5_5_5_5_6_2 0#4 3#5 b a d 2#6 0#2
  simp only [encode]
  generalize (0#4 ++ 3#5 ++ b ++ a ++ d ++ 2#6 ++ 0#2 : BitVec 32) = p0 at u0 ⊢
  obtain ⟨h0a, h0b, h0c, h0d, h0e, h0f, h0g⟩ := u0
  rw [decode_major02 p0 h0f h0g]
  simp only [decodeMajor02, minField, h0a, h0b, h0c, h0d, h0e, reserved, limit, reservedUnless, field_whole, BitVec.toNat_ofNat, Nat.reduceMod,
    Nat.reducePow, if_true, BitVec.ofNat_eq_ofNat]
  try rfl

/-- DIV. -/
theorem Roundtrip.div (d : SReg) (a : SReg) (b : SReg) : Roundtrip.Statement (.div d a b) := by
  intro hw _
  have u0 := fields_4_5_5_5_5_6_2 0#4 4#5 b a d 2#6 0#2
  simp only [encode]
  generalize (0#4 ++ 4#5 ++ b ++ a ++ d ++ 2#6 ++ 0#2 : BitVec 32) = p0 at u0 ⊢
  obtain ⟨h0a, h0b, h0c, h0d, h0e, h0f, h0g⟩ := u0
  rw [decode_major02 p0 h0f h0g]
  simp only [decodeMajor02, minField, h0a, h0b, h0c, h0d, h0e, reserved, limit, reservedUnless, field_whole, BitVec.toNat_ofNat, Nat.reduceMod,
    Nat.reducePow, if_true, BitVec.ofNat_eq_ofNat]
  try rfl

/-- DIVU. -/
theorem Roundtrip.divu (d : SReg) (a : SReg) (b : SReg) : Roundtrip.Statement (.divu d a b) := by
  intro hw _
  have u0 := fields_4_5_5_5_5_6_2 0#4 5#5 b a d 2#6 0#2
  simp only [encode]
  generalize (0#4 ++ 5#5 ++ b ++ a ++ d ++ 2#6 ++ 0#2 : BitVec 32) = p0 at u0 ⊢
  obtain ⟨h0a, h0b, h0c, h0d, h0e, h0f, h0g⟩ := u0
  rw [decode_major02 p0 h0f h0g]
  simp only [decodeMajor02, minField, h0a, h0b, h0c, h0d, h0e, reserved, limit, reservedUnless, field_whole, BitVec.toNat_ofNat, Nat.reduceMod,
    Nat.reducePow, if_true, BitVec.ofNat_eq_ofNat]
  try rfl

/-- REM. -/
theorem Roundtrip.rem (d : SReg) (a : SReg) (b : SReg) : Roundtrip.Statement (.rem d a b) := by
  intro hw _
  have u0 := fields_4_5_5_5_5_6_2 0#4 6#5 b a d 2#6 0#2
  simp only [encode]
  generalize (0#4 ++ 6#5 ++ b ++ a ++ d ++ 2#6 ++ 0#2 : BitVec 32) = p0 at u0 ⊢
  obtain ⟨h0a, h0b, h0c, h0d, h0e, h0f, h0g⟩ := u0
  rw [decode_major02 p0 h0f h0g]
  simp only [decodeMajor02, minField, h0a, h0b, h0c, h0d, h0e, reserved, limit, reservedUnless, field_whole, BitVec.toNat_ofNat, Nat.reduceMod,
    Nat.reducePow, if_true, BitVec.ofNat_eq_ofNat]
  try rfl

/-- REMU. -/
theorem Roundtrip.remu (d : SReg) (a : SReg) (b : SReg) : Roundtrip.Statement (.remu d a b) := by
  intro hw _
  have u0 := fields_4_5_5_5_5_6_2 0#4 7#5 b a d 2#6 0#2
  simp only [encode]
  generalize (0#4 ++ 7#5 ++ b ++ a ++ d ++ 2#6 ++ 0#2 : BitVec 32) = p0 at u0 ⊢
  obtain ⟨h0a, h0b, h0c, h0d, h0e, h0f, h0g⟩ := u0
  rw [decode_major02 p0 h0f h0g]
  simp only [decodeMajor02, minField, h0a, h0b, h0c, h0d, h0e, reserved, limit, reservedUnless, field_whole, BitVec.toNat_ofNat, Nat.reduceMod,
    Nat.reducePow, if_true, BitVec.ofNat_eq_ofNat]
  try rfl

/-- PMUL. -/
theorem Roundtrip.pmul (d : SReg) (a : SReg) (b : SReg) : Roundtrip.Statement (.pmul d a b) := by
  intro hw _
  have u0 := fields_4_5_5_5_5_6_2 0#4 8#5 b a d 2#6 0#2
  simp only [encode]
  generalize (0#4 ++ 8#5 ++ b ++ a ++ d ++ 2#6 ++ 0#2 : BitVec 32) = p0 at u0 ⊢
  obtain ⟨h0a, h0b, h0c, h0d, h0e, h0f, h0g⟩ := u0
  rw [decode_major02 p0 h0f h0g]
  simp only [decodeMajor02, minField, h0a, h0b, h0c, h0d, h0e, reserved, limit, reservedUnless, field_whole, BitVec.toNat_ofNat, Nat.reduceMod,
    Nat.reducePow, if_true, BitVec.ofNat_eq_ofNat]
  try rfl

/-- PMULHI. -/
theorem Roundtrip.pmulhi (d : SReg) (a : SReg) (b : SReg) : Roundtrip.Statement (.pmulhi d a b) := by
  intro hw _
  have u0 := fields_4_5_5_5_5_6_2 0#4 9#5 b a d 2#6 0#2
  simp only [encode]
  generalize (0#4 ++ 9#5 ++ b ++ a ++ d ++ 2#6 ++ 0#2 : BitVec 32) = p0 at u0 ⊢
  obtain ⟨h0a, h0b, h0c, h0d, h0e, h0f, h0g⟩ := u0
  rw [decode_major02 p0 h0f h0g]
  simp only [decodeMajor02, minField, h0a, h0b, h0c, h0d, h0e, reserved, limit, reservedUnless, field_whole, BitVec.toNat_ofNat, Nat.reduceMod,
    Nat.reducePow, if_true, BitVec.ofNat_eq_ofNat]
  try rfl

/-- POPC. -/
theorem Roundtrip.popc (d : SReg) (a : SReg) : Roundtrip.Statement (.popc d a) := by
  intro hw _
  have u0 := fields_4_5_5_5_5_6_2 0#4 10#5 0#5 a d 2#6 0#2
  simp only [encode]
  generalize (0#4 ++ 10#5 ++ 0#5 ++ a ++ d ++ 2#6 ++ 0#2 : BitVec 32) = p0 at u0 ⊢
  obtain ⟨h0a, h0b, h0c, h0d, h0e, h0f, h0g⟩ := u0
  rw [decode_major02 p0 h0f h0g]
  simp only [decodeMajor02, minField, h0a, h0b, h0c, h0d, h0e, reserved, limit, reservedUnless, field_whole, BitVec.toNat_ofNat, Nat.reduceMod,
    Nat.reducePow, if_true, BitVec.ofNat_eq_ofNat]
  try rfl

/-- CLZ. -/
theorem Roundtrip.clz (d : SReg) (a : SReg) : Roundtrip.Statement (.clz d a) := by
  intro hw _
  have u0 := fields_4_5_5_5_5_6_2 0#4 11#5 0#5 a d 2#6 0#2
  simp only [encode]
  generalize (0#4 ++ 11#5 ++ 0#5 ++ a ++ d ++ 2#6 ++ 0#2 : BitVec 32) = p0 at u0 ⊢
  obtain ⟨h0a, h0b, h0c, h0d, h0e, h0f, h0g⟩ := u0
  rw [decode_major02 p0 h0f h0g]
  simp only [decodeMajor02, minField, h0a, h0b, h0c, h0d, h0e, reserved, limit, reservedUnless, field_whole, BitVec.toNat_ofNat, Nat.reduceMod,
    Nat.reducePow, if_true, BitVec.ofNat_eq_ofNat]
  try rfl

/-- CTZ. -/
theorem Roundtrip.ctz (d : SReg) (a : SReg) : Roundtrip.Statement (.ctz d a) := by
  intro hw _
  have u0 := fields_4_5_5_5_5_6_2 0#4 12#5 0#5 a d 2#6 0#2
  simp only [encode]
  generalize (0#4 ++ 12#5 ++ 0#5 ++ a ++ d ++ 2#6 ++ 0#2 : BitVec 32) = p0 at u0 ⊢
  obtain ⟨h0a, h0b, h0c, h0d, h0e, h0f, h0g⟩ := u0
  rw [decode_major02 p0 h0f h0g]
  simp only [decodeMajor02, minField, h0a, h0b, h0c, h0d, h0e, reserved, limit, reservedUnless, field_whole, BitVec.toNat_ofNat, Nat.reduceMod,
    Nat.reducePow, if_true, BitVec.ofNat_eq_ofNat]
  try rfl

/-- BREV. -/
theorem Roundtrip.brev (d : SReg) (a : SReg) : Roundtrip.Statement (.brev d a) := by
  intro hw _
  have u0 := fields_4_5_5_5_5_6_2 0#4 13#5 0#5 a d 2#6 0#2
  simp only [encode]
  generalize (0#4 ++ 13#5 ++ 0#5 ++ a ++ d ++ 2#6 ++ 0#2 : BitVec 32) = p0 at u0 ⊢
  obtain ⟨h0a, h0b, h0c, h0d, h0e, h0f, h0g⟩ := u0
  rw [decode_major02 p0 h0f h0g]
  simp only [decodeMajor02, minField, h0a, h0b, h0c, h0d, h0e, reserved, limit, reservedUnless, field_whole, BitVec.toNat_ofNat, Nat.reduceMod,
    Nat.reducePow, if_true, BitVec.ofNat_eq_ofNat]
  try rfl

/-- BSWAP. -/
theorem Roundtrip.bswap (d : SReg) (a : SReg) : Roundtrip.Statement (.bswap d a) := by
  intro hw _
  have u0 := fields_4_5_5_5_5_6_2 0#4 14#5 0#5 a d 2#6 0#2
  simp only [encode]
  generalize (0#4 ++ 14#5 ++ 0#5 ++ a ++ d ++ 2#6 ++ 0#2 : BitVec 32) = p0 at u0 ⊢
  obtain ⟨h0a, h0b, h0c, h0d, h0e, h0f, h0g⟩ := u0
  rw [decode_major02 p0 h0f h0g]
  simp only [decodeMajor02, minField, h0a, h0b, h0c, h0d, h0e, reserved, limit, reservedUnless, field_whole, BitVec.toNat_ofNat, Nat.reduceMod,
    Nat.reducePow, if_true, BitVec.ofNat_eq_ofNat]
  try rfl

/-- ADDI. -/
theorem Roundtrip.addi (d : SReg) (a : SReg) (imm : BitVec 14) : Roundtrip.Statement (.addi d a imm) := by
  intro hw _
  have u0 := fields_14_5_5_6_2 imm a d 3#6 0#2
  simp only [encode]
  generalize (imm ++ a ++ d ++ 3#6 ++ 0#2 : BitVec 32) = p0 at u0 ⊢
  obtain ⟨h0a, h0b, h0c, h0d, h0e⟩ := u0
  rw [decode_major03 p0 h0d h0e]
  simp only [decodeMajor03, minField, h0a, h0b, h0c, reserved, limit, reservedUnless, field_whole, BitVec.toNat_ofNat, Nat.reduceMod,
    Nat.reducePow, if_true, BitVec.ofNat_eq_ofNat]
  try rfl

/-- ANDI. -/
theorem Roundtrip.andi (d : SReg) (a : SReg) (imm : BitVec 14) : Roundtrip.Statement (.andi d a imm) := by
  intro hw _
  have u0 := fields_14_5_5_6_2 imm a d 4#6 0#2
  simp only [encode]
  generalize (imm ++ a ++ d ++ 4#6 ++ 0#2 : BitVec 32) = p0 at u0 ⊢
  obtain ⟨h0a, h0b, h0c, h0d, h0e⟩ := u0
  rw [decode_major04 p0 h0d h0e]
  simp only [decodeMajor04, minField, h0a, h0b, h0c, reserved, limit, reservedUnless, field_whole, BitVec.toNat_ofNat, Nat.reduceMod,
    Nat.reducePow, if_true, BitVec.ofNat_eq_ofNat]
  try rfl

/-- ORI. -/
theorem Roundtrip.ori (d : SReg) (a : SReg) (imm : BitVec 14) : Roundtrip.Statement (.ori d a imm) := by
  intro hw _
  have u0 := fields_14_5_5_6_2 imm a d 5#6 0#2
  simp only [encode]
  generalize (imm ++ a ++ d ++ 5#6 ++ 0#2 : BitVec 32) = p0 at u0 ⊢
  obtain ⟨h0a, h0b, h0c, h0d, h0e⟩ := u0
  rw [decode_major05 p0 h0d h0e]
  simp only [decodeMajor05, minField, h0a, h0b, h0c, reserved, limit, reservedUnless, field_whole, BitVec.toNat_ofNat, Nat.reduceMod,
    Nat.reducePow, if_true, BitVec.ofNat_eq_ofNat]
  try rfl

/-- XORI. -/
theorem Roundtrip.xori (d : SReg) (a : SReg) (imm : BitVec 14) : Roundtrip.Statement (.xori d a imm) := by
  intro hw _
  have u0 := fields_14_5_5_6_2 imm a d 6#6 0#2
  simp only [encode]
  generalize (imm ++ a ++ d ++ 6#6 ++ 0#2 : BitVec 32) = p0 at u0 ⊢
  obtain ⟨h0a, h0b, h0c, h0d, h0e⟩ := u0
  rw [decode_major06 p0 h0d h0e]
  simp only [decodeMajor06, minField, h0a, h0b, h0c, reserved, limit, reservedUnless, field_whole, BitVec.toNat_ofNat, Nat.reduceMod,
    Nat.reducePow, if_true, BitVec.ofNat_eq_ofNat]
  try rfl

/-- SETLTI. -/
theorem Roundtrip.setlti (d : SReg) (a : SReg) (imm : BitVec 14) : Roundtrip.Statement (.setlti d a imm) := by
  intro hw _
  have u0 := fields_14_5_5_6_2 imm a d 7#6 0#2
  simp only [encode]
  generalize (imm ++ a ++ d ++ 7#6 ++ 0#2 : BitVec 32) = p0 at u0 ⊢
  obtain ⟨h0a, h0b, h0c, h0d, h0e⟩ := u0
  rw [decode_major07 p0 h0d h0e]
  simp only [decodeMajor07, minField, h0a, h0b, h0c, reserved, limit, reservedUnless, field_whole, BitVec.toNat_ofNat, Nat.reduceMod,
    Nat.reducePow, if_true, BitVec.ofNat_eq_ofNat]
  try rfl

/-- SETLTIU. -/
theorem Roundtrip.setltiu (d : SReg) (a : SReg) (imm : BitVec 14) : Roundtrip.Statement (.setltiu d a imm) := by
  intro hw _
  have u0 := fields_14_5_5_6_2 imm a d 8#6 0#2
  simp only [encode]
  generalize (imm ++ a ++ d ++ 8#6 ++ 0#2 : BitVec 32) = p0 at u0 ⊢
  obtain ⟨h0a, h0b, h0c, h0d, h0e⟩ := u0
  rw [decode_major08 p0 h0d h0e]
  simp only [decodeMajor08, minField, h0a, h0b, h0c, reserved, limit, reservedUnless, field_whole, BitVec.toNat_ofNat, Nat.reduceMod,
    Nat.reducePow, if_true, BitVec.ofNat_eq_ofNat]
  try rfl

/-- SLLI. -/
theorem Roundtrip.slli (d : SReg) (a : SReg) (sh : BitVec 6) : Roundtrip.Statement (.slli d a sh) := by
  intro hw _
  have u0 := fields_6_2_6_5_5_6_2 0#6 0#2 sh a d 9#6 0#2
  simp only [encode]
  generalize (0#6 ++ 0#2 ++ sh ++ a ++ d ++ 9#6 ++ 0#2 : BitVec 32) = p0 at u0 ⊢
  obtain ⟨h0a, h0b, h0c, h0d, h0e, h0f, h0g⟩ := u0
  rw [decode_major09 p0 h0f h0g]
  simp only [decodeMajor09, minField, h0a, h0b, h0c, h0d, h0e, reserved, limit, reservedUnless, field_whole, BitVec.toNat_ofNat, Nat.reduceMod,
    Nat.reducePow, if_true, BitVec.ofNat_eq_ofNat]
  try rfl

/-- SRLI. -/
theorem Roundtrip.srli (d : SReg) (a : SReg) (sh : BitVec 6) : Roundtrip.Statement (.srli d a sh) := by
  intro hw _
  have u0 := fields_6_2_6_5_5_6_2 0#6 1#2 sh a d 9#6 0#2
  simp only [encode]
  generalize (0#6 ++ 1#2 ++ sh ++ a ++ d ++ 9#6 ++ 0#2 : BitVec 32) = p0 at u0 ⊢
  obtain ⟨h0a, h0b, h0c, h0d, h0e, h0f, h0g⟩ := u0
  rw [decode_major09 p0 h0f h0g]
  simp only [decodeMajor09, minField, h0a, h0b, h0c, h0d, h0e, reserved, limit, reservedUnless, field_whole, BitVec.toNat_ofNat, Nat.reduceMod,
    Nat.reducePow, if_true, BitVec.ofNat_eq_ofNat]
  try rfl

/-- SRAI. -/
theorem Roundtrip.srai (d : SReg) (a : SReg) (sh : BitVec 6) : Roundtrip.Statement (.srai d a sh) := by
  intro hw _
  have u0 := fields_6_2_6_5_5_6_2 0#6 2#2 sh a d 9#6 0#2
  simp only [encode]
  generalize (0#6 ++ 2#2 ++ sh ++ a ++ d ++ 9#6 ++ 0#2 : BitVec 32) = p0 at u0 ⊢
  obtain ⟨h0a, h0b, h0c, h0d, h0e, h0f, h0g⟩ := u0
  rw [decode_major09 p0 h0f h0g]
  simp only [decodeMajor09, minField, h0a, h0b, h0c, h0d, h0e, reserved, limit, reservedUnless, field_whole, BitVec.toNat_ofNat, Nat.reduceMod,
    Nat.reducePow, if_true, BitVec.ofNat_eq_ofNat]
  try rfl

/-- RORI. -/
theorem Roundtrip.rori (d : SReg) (a : SReg) (sh : BitVec 6) : Roundtrip.Statement (.rori d a sh) := by
  intro hw _
  have u0 := fields_6_2_6_5_5_6_2 0#6 3#2 sh a d 9#6 0#2
  simp only [encode]
  generalize (0#6 ++ 3#2 ++ sh ++ a ++ d ++ 9#6 ++ 0#2 : BitVec 32) = p0 at u0 ⊢
  obtain ⟨h0a, h0b, h0c, h0d, h0e, h0f, h0g⟩ := u0
  rw [decode_major09 p0 h0f h0g]
  simp only [decodeMajor09, minField, h0a, h0b, h0c, h0d, h0e, reserved, limit, reservedUnless, field_whole, BitVec.toNat_ofNat, Nat.reduceMod,
    Nat.reducePow, if_true, BitVec.ofNat_eq_ofNat]
  try rfl

/-- BEXT. -/
theorem Roundtrip.bext (d : SReg) (a : SReg) (offset : BitVec 6) (width : BitVec 7) : Roundtrip.Statement (.bext d a offset width) := by
  intro hw _
  have u0 := fields_4_5_5_5_5_6_2 0#4 0#5 0#5 a d 10#6 1#2
  have u1 := fields_19_7_6 0#19 width offset
  simp only [encode]
  generalize (0#4 ++ 0#5 ++ 0#5 ++ a ++ d ++ 10#6 ++ 1#2 : BitVec 32) = p0 at u0 ⊢
  generalize (0#19 ++ width ++ offset : BitVec 32) = p1 at u1 ⊢
  obtain ⟨h0a, h0b, h0c, h0d, h0e, h0f, h0g⟩ := u0
  obtain ⟨h1a, h1b, h1c⟩ := u1
  rw [decode_major0A p0 p1 h0f h0g]
  simp only [Instr.wf, Bool.and_eq_true, BitVec.ofNat_eq_ofNat] at hw
  simp only [decodeMajor0A, minField, h0a, h0b, h0c, h0d, h0e, h1a, h1b, h1c, hw, reserved, limit, reservedUnless, field_whole, BitVec.toNat_ofNat, Nat.reduceMod,
    Nat.reducePow, if_true, BitVec.ofNat_eq_ofNat]
  try rfl

/-- BEXTS. -/
theorem Roundtrip.bexts (d : SReg) (a : SReg) (offset : BitVec 6) (width : BitVec 7) : Roundtrip.Statement (.bexts d a offset width) := by
  intro hw _
  have u0 := fields_4_5_5_5_5_6_2 0#4 1#5 0#5 a d 10#6 1#2
  have u1 := fields_19_7_6 0#19 width offset
  simp only [encode]
  generalize (0#4 ++ 1#5 ++ 0#5 ++ a ++ d ++ 10#6 ++ 1#2 : BitVec 32) = p0 at u0 ⊢
  generalize (0#19 ++ width ++ offset : BitVec 32) = p1 at u1 ⊢
  obtain ⟨h0a, h0b, h0c, h0d, h0e, h0f, h0g⟩ := u0
  obtain ⟨h1a, h1b, h1c⟩ := u1
  rw [decode_major0A p0 p1 h0f h0g]
  simp only [Instr.wf, Bool.and_eq_true, BitVec.ofNat_eq_ofNat] at hw
  simp only [decodeMajor0A, minField, h0a, h0b, h0c, h0d, h0e, h1a, h1b, h1c, hw, reserved, limit, reservedUnless, field_whole, BitVec.toNat_ofNat, Nat.reduceMod,
    Nat.reducePow, if_true, BitVec.ofNat_eq_ofNat]
  try rfl

/-- BINS. -/
theorem Roundtrip.bins (d : SReg) (a : SReg) (offset : BitVec 6) (width : BitVec 7) : Roundtrip.Statement (.bins d a offset width) := by
  intro hw _
  have u0 := fields_4_5_5_5_5_6_2 0#4 2#5 0#5 a d 10#6 1#2
  have u1 := fields_19_7_6 0#19 width offset
  simp only [encode]
  generalize (0#4 ++ 2#5 ++ 0#5 ++ a ++ d ++ 10#6 ++ 1#2 : BitVec 32) = p0 at u0 ⊢
  generalize (0#19 ++ width ++ offset : BitVec 32) = p1 at u1 ⊢
  obtain ⟨h0a, h0b, h0c, h0d, h0e, h0f, h0g⟩ := u0
  obtain ⟨h1a, h1b, h1c⟩ := u1
  rw [decode_major0A p0 p1 h0f h0g]
  simp only [Instr.wf, Bool.and_eq_true, BitVec.ofNat_eq_ofNat] at hw
  simp only [decodeMajor0A, minField, h0a, h0b, h0c, h0d, h0e, h1a, h1b, h1c, hw, reserved, limit, reservedUnless, field_whole, BitVec.toNat_ofNat, Nat.reduceMod,
    Nat.reducePow, if_true, BitVec.ofNat_eq_ofNat]
  try rfl

/-- LI. -/
theorem Roundtrip.li (d : SReg) (imm : BitVec 19) : Roundtrip.Statement (.li d imm) := by
  intro hw _
  have u0 := fields_19_5_6_2 imm d 11#6 0#2
  simp only [encode]
  generalize (imm ++ d ++ 11#6 ++ 0#2 : BitVec 32) = p0 at u0 ⊢
  obtain ⟨h0a, h0b, h0c, h0d⟩ := u0
  rw [decode_major0B p0 h0c h0d]
  simp only [decodeMajor0B, minField, h0a, h0b, reserved, limit, reservedUnless, field_whole, BitVec.toNat_ofNat, Nat.reduceMod,
    Nat.reducePow, if_true, BitVec.ofNat_eq_ofNat]
  try rfl

/-- LI_64. -/
theorem Roundtrip.li64 (d : SReg) (imm : BitVec 32) : Roundtrip.Statement (.li64 d imm) := by
  intro hw _
  have u0 := fields_19_5_6_2 0#19 d 12#6 1#2
  simp only [encode]
  generalize (0#19 ++ d ++ 12#6 ++ 1#2 : BitVec 32) = p0 at u0 ⊢
  obtain ⟨h0a, h0b, h0c, h0d⟩ := u0
  rw [decode_major0C p0 imm h0c h0d]
  simp only [decodeMajor0C, minField, h0a, h0b, reserved, limit, reservedUnless, field_whole, BitVec.toNat_ofNat, Nat.reduceMod,
    Nat.reducePow, if_true, BitVec.ofNat_eq_ofNat]
  try rfl

/-- LI_96. -/
theorem Roundtrip.li96 (d : SReg) (lo : BitVec 32) (hi : BitVec 32) : Roundtrip.Statement (.li96 d lo hi) := by
  intro hw _
  have u0 := fields_19_5_6_2 0#19 d 13#6 2#2
  simp only [encode]
  generalize (0#19 ++ d ++ 13#6 ++ 2#2 : BitVec 32) = p0 at u0 ⊢
  obtain ⟨h0a, h0b, h0c, h0d⟩ := u0
  rw [decode_major0D p0 lo hi h0c h0d]
  simp only [decodeMajor0D, minField, h0a, h0b, reserved, limit, reservedUnless, field_whole, BitVec.toNat_ofNat, Nat.reduceMod,
    Nat.reducePow, if_true, BitVec.ofNat_eq_ofNat]
  try rfl

/-- LA. -/
theorem Roundtrip.la (d : SReg) (imm : BitVec 19) : Roundtrip.Statement (.la d imm) := by
  intro hw _
  have u0 := fields_19_5_6_2 imm d 14#6 0#2
  simp only [encode]
  generalize (imm ++ d ++ 14#6 ++ 0#2 : BitVec 32) = p0 at u0 ⊢
  obtain ⟨h0a, h0b, h0c, h0d⟩ := u0
  rw [decode_major0E p0 h0c h0d]
  simp only [decodeMajor0E, minField, h0a, h0b, reserved, limit, reservedUnless, field_whole, BitVec.toNat_ofNat, Nat.reduceMod,
    Nat.reducePow, if_true, BitVec.ofNat_eq_ofNat]
  try rfl

/-- BEQ. -/
theorem Roundtrip.beq (a : SReg) (b : SReg) (off : BitVec 11) : Roundtrip.Statement (.beq a b off) := by
  intro hw _
  have u0 := fields_11_3_5_5_6_2 off 0#3 b a 16#6 0#2
  simp only [encode]
  generalize (off ++ 0#3 ++ b ++ a ++ 16#6 ++ 0#2 : BitVec 32) = p0 at u0 ⊢
  obtain ⟨h0a, h0b, h0c, h0d, h0e, h0f⟩ := u0
  rw [decode_major10 p0 h0e h0f]
  simp only [decodeMajor10, minField, h0a, h0b, h0c, h0d, reserved, limit, reservedUnless, field_whole, BitVec.toNat_ofNat, Nat.reduceMod,
    Nat.reducePow, if_true, BitVec.ofNat_eq_ofNat]
  try rfl

/-- BNE. -/
theorem Roundtrip.bne (a : SReg) (b : SReg) (off : BitVec 11) : Roundtrip.Statement (.bne a b off) := by
  intro hw _
  have u0 := fields_11_3_5_5_6_2 off 1#3 b a 16#6 0#2
  simp only [encode]
  generalize (off ++ 1#3 ++ b ++ a ++ 16#6 ++ 0#2 : BitVec 32) = p0 at u0 ⊢
  obtain ⟨h0a, h0b, h0c, h0d, h0e, h0f⟩ := u0
  rw [decode_major10 p0 h0e h0f]
  simp only [decodeMajor10, minField, h0a, h0b, h0c, h0d, reserved, limit, reservedUnless, field_whole, BitVec.toNat_ofNat, Nat.reduceMod,
    Nat.reducePow, if_true, BitVec.ofNat_eq_ofNat]
  try rfl

/-- BLT. -/
theorem Roundtrip.blt (a : SReg) (b : SReg) (off : BitVec 11) : Roundtrip.Statement (.blt a b off) := by
  intro hw _
  have u0 := fields_11_3_5_5_6_2 off 2#3 b a 16#6 0#2
  simp only [encode]
  generalize (off ++ 2#3 ++ b ++ a ++ 16#6 ++ 0#2 : BitVec 32) = p0 at u0 ⊢
  obtain ⟨h0a, h0b, h0c, h0d, h0e, h0f⟩ := u0
  rw [decode_major10 p0 h0e h0f]
  simp only [decodeMajor10, minField, h0a, h0b, h0c, h0d, reserved, limit, reservedUnless, field_whole, BitVec.toNat_ofNat, Nat.reduceMod,
    Nat.reducePow, if_true, BitVec.ofNat_eq_ofNat]
  try rfl

/-- BGE. -/
theorem Roundtrip.bge (a : SReg) (b : SReg) (off : BitVec 11) : Roundtrip.Statement (.bge a b off) := by
  intro hw _
  have u0 := fields_11_3_5_5_6_2 off 3#3 b a 16#6 0#2
  simp only [encode]
  generalize (off ++ 3#3 ++ b ++ a ++ 16#6 ++ 0#2 : BitVec 32) = p0 at u0 ⊢
  obtain ⟨h0a, h0b, h0c, h0d, h0e, h0f⟩ := u0
  rw [decode_major10 p0 h0e h0f]
  simp only [decodeMajor10, minField, h0a, h0b, h0c, h0d, reserved, limit, reservedUnless, field_whole, BitVec.toNat_ofNat, Nat.reduceMod,
    Nat.reducePow, if_true, BitVec.ofNat_eq_ofNat]
  try rfl

/-- BLTU. -/
theorem Roundtrip.bltu (a : SReg) (b : SReg) (off : BitVec 11) : Roundtrip.Statement (.bltu a b off) := by
  intro hw _
  have u0 := fields_11_3_5_5_6_2 off 4#3 b a 16#6 0#2
  simp only [encode]
  generalize (off ++ 4#3 ++ b ++ a ++ 16#6 ++ 0#2 : BitVec 32) = p0 at u0 ⊢
  obtain ⟨h0a, h0b, h0c, h0d, h0e, h0f⟩ := u0
  rw [decode_major10 p0 h0e h0f]
  simp only [decodeMajor10, minField, h0a, h0b, h0c, h0d, reserved, limit, reservedUnless, field_whole, BitVec.toNat_ofNat, Nat.reduceMod,
    Nat.reducePow, if_true, BitVec.ofNat_eq_ofNat]
  try rfl

/-- BGEU. -/
theorem Roundtrip.bgeu (a : SReg) (b : SReg) (off : BitVec 11) : Roundtrip.Statement (.bgeu a b off) := by
  intro hw _
  have u0 := fields_11_3_5_5_6_2 off 5#3 b a 16#6 0#2
  simp only [encode]
  generalize (off ++ 5#3 ++ b ++ a ++ 16#6 ++ 0#2 : BitVec 32) = p0 at u0 ⊢
  obtain ⟨h0a, h0b, h0c, h0d, h0e, h0f⟩ := u0
  rw [decode_major10 p0 h0e h0f]
  simp only [decodeMajor10, minField, h0a, h0b, h0c, h0d, reserved, limit, reservedUnless, field_whole, BitVec.toNat_ofNat, Nat.reduceMod,
    Nat.reducePow, if_true, BitVec.ofNat_eq_ofNat]
  try rfl

/-- JAL. -/
theorem Roundtrip.jal (d : SReg) (imm : BitVec 19) : Roundtrip.Statement (.jal d imm) := by
  intro hw _
  have u0 := fields_19_5_6_2 imm d 17#6 0#2
  simp only [encode]
  generalize (imm ++ d ++ 17#6 ++ 0#2 : BitVec 32) = p0 at u0 ⊢
  obtain ⟨h0a, h0b, h0c, h0d⟩ := u0
  rw [decode_major11 p0 h0c h0d]
  simp only [decodeMajor11, minField, h0a, h0b, reserved, limit, reservedUnless, field_whole, BitVec.toNat_ofNat, Nat.reduceMod,
    Nat.reducePow, if_true, BitVec.ofNat_eq_ofNat]
  try rfl

/-- JALR. -/
theorem Roundtrip.jalr (d : SReg) (a : SReg) (imm : BitVec 14) : Roundtrip.Statement (.jalr d a imm) := by
  intro hw _
  have u0 := fields_14_5_5_6_2 imm a d 18#6 0#2
  simp only [encode]
  generalize (imm ++ a ++ d ++ 18#6 ++ 0#2 : BitVec 32) = p0 at u0 ⊢
  obtain ⟨h0a, h0b, h0c, h0d, h0e⟩ := u0
  rw [decode_major12 p0 h0d h0e]
  simp only [decodeMajor12, minField, h0a, h0b, h0c, reserved, limit, reservedUnless, field_whole, BitVec.toNat_ofNat, Nat.reduceMod,
    Nat.reducePow, if_true, BitVec.ofNat_eq_ofNat]
  try rfl

/-- LB. -/
theorem Roundtrip.lb (d : SReg) (a : SReg) (off : BitVec 11) : Roundtrip.Statement (.lb d a off) := by
  intro hw _
  have u0 := fields_11_3_5_5_6_2 off 0#3 a d 20#6 0#2
  simp only [encode]
  generalize (off ++ 0#3 ++ a ++ d ++ 20#6 ++ 0#2 : BitVec 32) = p0 at u0 ⊢
  obtain ⟨h0a, h0b, h0c, h0d, h0e, h0f⟩ := u0
  rw [decode_major14 p0 h0e h0f]
  simp only [decodeMajor14, minField, h0a, h0b, h0c, h0d, reserved, limit, reservedUnless, field_whole, BitVec.toNat_ofNat, Nat.reduceMod,
    Nat.reducePow, if_true, BitVec.ofNat_eq_ofNat]
  try rfl

/-- LH. -/
theorem Roundtrip.lh (d : SReg) (a : SReg) (off : BitVec 11) : Roundtrip.Statement (.lh d a off) := by
  intro hw _
  have u0 := fields_11_3_5_5_6_2 off 1#3 a d 20#6 0#2
  simp only [encode]
  generalize (off ++ 1#3 ++ a ++ d ++ 20#6 ++ 0#2 : BitVec 32) = p0 at u0 ⊢
  obtain ⟨h0a, h0b, h0c, h0d, h0e, h0f⟩ := u0
  rw [decode_major14 p0 h0e h0f]
  simp only [decodeMajor14, minField, h0a, h0b, h0c, h0d, reserved, limit, reservedUnless, field_whole, BitVec.toNat_ofNat, Nat.reduceMod,
    Nat.reducePow, if_true, BitVec.ofNat_eq_ofNat]
  try rfl

/-- LW. -/
theorem Roundtrip.lw (d : SReg) (a : SReg) (off : BitVec 11) : Roundtrip.Statement (.lw d a off) := by
  intro hw _
  have u0 := fields_11_3_5_5_6_2 off 2#3 a d 20#6 0#2
  simp only [encode]
  generalize (off ++ 2#3 ++ a ++ d ++ 20#6 ++ 0#2 : BitVec 32) = p0 at u0 ⊢
  obtain ⟨h0a, h0b, h0c, h0d, h0e, h0f⟩ := u0
  rw [decode_major14 p0 h0e h0f]
  simp only [decodeMajor14, minField, h0a, h0b, h0c, h0d, reserved, limit, reservedUnless, field_whole, BitVec.toNat_ofNat, Nat.reduceMod,
    Nat.reducePow, if_true, BitVec.ofNat_eq_ofNat]
  try rfl

/-- LD. -/
theorem Roundtrip.ld (d : SReg) (a : SReg) (off : BitVec 11) : Roundtrip.Statement (.ld d a off) := by
  intro hw _
  have u0 := fields_11_3_5_5_6_2 off 3#3 a d 20#6 0#2
  simp only [encode]
  generalize (off ++ 3#3 ++ a ++ d ++ 20#6 ++ 0#2 : BitVec 32) = p0 at u0 ⊢
  obtain ⟨h0a, h0b, h0c, h0d, h0e, h0f⟩ := u0
  rw [decode_major14 p0 h0e h0f]
  simp only [decodeMajor14, minField, h0a, h0b, h0c, h0d, reserved, limit, reservedUnless, field_whole, BitVec.toNat_ofNat, Nat.reduceMod,
    Nat.reducePow, if_true, BitVec.ofNat_eq_ofNat]
  try rfl

/-- LBU. -/
theorem Roundtrip.lbu (d : SReg) (a : SReg) (off : BitVec 11) : Roundtrip.Statement (.lbu d a off) := by
  intro hw _
  have u0 := fields_11_3_5_5_6_2 off 4#3 a d 20#6 0#2
  simp only [encode]
  generalize (off ++ 4#3 ++ a ++ d ++ 20#6 ++ 0#2 : BitVec 32) = p0 at u0 ⊢
  obtain ⟨h0a, h0b, h0c, h0d, h0e, h0f⟩ := u0
  rw [decode_major14 p0 h0e h0f]
  simp only [decodeMajor14, minField, h0a, h0b, h0c, h0d, reserved, limit, reservedUnless, field_whole, BitVec.toNat_ofNat, Nat.reduceMod,
    Nat.reducePow, if_true, BitVec.ofNat_eq_ofNat]
  try rfl

/-- LHU. -/
theorem Roundtrip.lhu (d : SReg) (a : SReg) (off : BitVec 11) : Roundtrip.Statement (.lhu d a off) := by
  intro hw _
  have u0 := fields_11_3_5_5_6_2 off 5#3 a d 20#6 0#2
  simp only [encode]
  generalize (off ++ 5#3 ++ a ++ d ++ 20#6 ++ 0#2 : BitVec 32) = p0 at u0 ⊢
  obtain ⟨h0a, h0b, h0c, h0d, h0e, h0f⟩ := u0
  rw [decode_major14 p0 h0e h0f]
  simp only [decodeMajor14, minField, h0a, h0b, h0c, h0d, reserved, limit, reservedUnless, field_whole, BitVec.toNat_ofNat, Nat.reduceMod,
    Nat.reducePow, if_true, BitVec.ofNat_eq_ofNat]
  try rfl

/-- LWU. -/
theorem Roundtrip.lwu (d : SReg) (a : SReg) (off : BitVec 11) : Roundtrip.Statement (.lwu d a off) := by
  intro hw _
  have u0 := fields_11_3_5_5_6_2 off 6#3 a d 20#6 0#2
  simp only [encode]
  generalize (off ++ 6#3 ++ a ++ d ++ 20#6 ++ 0#2 : BitVec 32) = p0 at u0 ⊢
  obtain ⟨h0a, h0b, h0c, h0d, h0e, h0f⟩ := u0
  rw [decode_major14 p0 h0e h0f]
  simp only [decodeMajor14, minField, h0a, h0b, h0c, h0d, reserved, limit, reservedUnless, field_whole, BitVec.toNat_ofNat, Nat.reduceMod,
    Nat.reducePow, if_true, BitVec.ofNat_eq_ofNat]
  try rfl

/-- SB. -/
theorem Roundtrip.sb (d : SReg) (a : SReg) (off : BitVec 11) : Roundtrip.Statement (.sb d a off) := by
  intro hw _
  have u0 := fields_11_3_5_5_6_2 off 0#3 a d 21#6 0#2
  simp only [encode]
  generalize (off ++ 0#3 ++ a ++ d ++ 21#6 ++ 0#2 : BitVec 32) = p0 at u0 ⊢
  obtain ⟨h0a, h0b, h0c, h0d, h0e, h0f⟩ := u0
  rw [decode_major15 p0 h0e h0f]
  simp only [decodeMajor15, minField, h0a, h0b, h0c, h0d, reserved, limit, reservedUnless, field_whole, BitVec.toNat_ofNat, Nat.reduceMod,
    Nat.reducePow, if_true, BitVec.ofNat_eq_ofNat]
  try rfl

/-- SH. -/
theorem Roundtrip.sh (d : SReg) (a : SReg) (off : BitVec 11) : Roundtrip.Statement (.sh d a off) := by
  intro hw _
  have u0 := fields_11_3_5_5_6_2 off 1#3 a d 21#6 0#2
  simp only [encode]
  generalize (off ++ 1#3 ++ a ++ d ++ 21#6 ++ 0#2 : BitVec 32) = p0 at u0 ⊢
  obtain ⟨h0a, h0b, h0c, h0d, h0e, h0f⟩ := u0
  rw [decode_major15 p0 h0e h0f]
  simp only [decodeMajor15, minField, h0a, h0b, h0c, h0d, reserved, limit, reservedUnless, field_whole, BitVec.toNat_ofNat, Nat.reduceMod,
    Nat.reducePow, if_true, BitVec.ofNat_eq_ofNat]
  try rfl

/-- SW. -/
theorem Roundtrip.sw (d : SReg) (a : SReg) (off : BitVec 11) : Roundtrip.Statement (.sw d a off) := by
  intro hw _
  have u0 := fields_11_3_5_5_6_2 off 2#3 a d 21#6 0#2
  simp only [encode]
  generalize (off ++ 2#3 ++ a ++ d ++ 21#6 ++ 0#2 : BitVec 32) = p0 at u0 ⊢
  obtain ⟨h0a, h0b, h0c, h0d, h0e, h0f⟩ := u0
  rw [decode_major15 p0 h0e h0f]
  simp only [decodeMajor15, minField, h0a, h0b, h0c, h0d, reserved, limit, reservedUnless, field_whole, BitVec.toNat_ofNat, Nat.reduceMod,
    Nat.reducePow, if_true, BitVec.ofNat_eq_ofNat]
  try rfl

/-- ST. -/
theorem Roundtrip.st (d : SReg) (a : SReg) (off : BitVec 11) : Roundtrip.Statement (.st d a off) := by
  intro hw _
  have u0 := fields_11_3_5_5_6_2 off 3#3 a d 21#6 0#2
  simp only [encode]
  generalize (off ++ 3#3 ++ a ++ d ++ 21#6 ++ 0#2 : BitVec 32) = p0 at u0 ⊢
  obtain ⟨h0a, h0b, h0c, h0d, h0e, h0f⟩ := u0
  rw [decode_major15 p0 h0e h0f]
  simp only [decodeMajor15, minField, h0a, h0b, h0c, h0d, reserved, limit, reservedUnless, field_whole, BitVec.toNat_ofNat, Nat.reduceMod,
    Nat.reducePow, if_true, BitVec.ofNat_eq_ofNat]
  try rfl

/-- ST_LOCAL. -/
theorem Roundtrip.stLocal (d : SReg) (a : SReg) (off : BitVec 11) : Roundtrip.Statement (.stLocal d a off) := by
  intro hw _
  have u0 := fields_11_3_5_5_6_2 off 4#3 a d 21#6 0#2
  simp only [encode]
  generalize (off ++ 4#3 ++ a ++ d ++ 21#6 ++ 0#2 : BitVec 32) = p0 at u0 ⊢
  obtain ⟨h0a, h0b, h0c, h0d, h0e, h0f⟩ := u0
  rw [decode_major15 p0 h0e h0f]
  simp only [decodeMajor15, minField, h0a, h0b, h0c, h0d, reserved, limit, reservedUnless, field_whole, BitVec.toNat_ofNat, Nat.reduceMod,
    Nat.reducePow, if_true, BitVec.ofNat_eq_ofNat]
  try rfl

/-- LB_L. -/
theorem Roundtrip.lbL (d : SReg) (a : SReg) (off : BitVec 32) : Roundtrip.Statement (.lbL d a off) := by
  intro hw _
  have u0 := fields_11_3_5_5_6_2 0#11 0#3 a d 22#6 1#2
  simp only [encode]
  generalize (0#11 ++ 0#3 ++ a ++ d ++ 22#6 ++ 1#2 : BitVec 32) = p0 at u0 ⊢
  obtain ⟨h0a, h0b, h0c, h0d, h0e, h0f⟩ := u0
  rw [decode_major16 p0 off h0e h0f]
  simp only [decodeMajor16, minField, h0a, h0b, h0c, h0d, reserved, limit, reservedUnless, field_whole, BitVec.toNat_ofNat, Nat.reduceMod,
    Nat.reducePow, if_true, BitVec.ofNat_eq_ofNat]
  try rfl

/-- LH_L. -/
theorem Roundtrip.lhL (d : SReg) (a : SReg) (off : BitVec 32) : Roundtrip.Statement (.lhL d a off) := by
  intro hw _
  have u0 := fields_11_3_5_5_6_2 0#11 1#3 a d 22#6 1#2
  simp only [encode]
  generalize (0#11 ++ 1#3 ++ a ++ d ++ 22#6 ++ 1#2 : BitVec 32) = p0 at u0 ⊢
  obtain ⟨h0a, h0b, h0c, h0d, h0e, h0f⟩ := u0
  rw [decode_major16 p0 off h0e h0f]
  simp only [decodeMajor16, minField, h0a, h0b, h0c, h0d, reserved, limit, reservedUnless, field_whole, BitVec.toNat_ofNat, Nat.reduceMod,
    Nat.reducePow, if_true, BitVec.ofNat_eq_ofNat]
  try rfl

/-- LW_L. -/
theorem Roundtrip.lwL (d : SReg) (a : SReg) (off : BitVec 32) : Roundtrip.Statement (.lwL d a off) := by
  intro hw _
  have u0 := fields_11_3_5_5_6_2 0#11 2#3 a d 22#6 1#2
  simp only [encode]
  generalize (0#11 ++ 2#3 ++ a ++ d ++ 22#6 ++ 1#2 : BitVec 32) = p0 at u0 ⊢
  obtain ⟨h0a, h0b, h0c, h0d, h0e, h0f⟩ := u0
  rw [decode_major16 p0 off h0e h0f]
  simp only [decodeMajor16, minField, h0a, h0b, h0c, h0d, reserved, limit, reservedUnless, field_whole, BitVec.toNat_ofNat, Nat.reduceMod,
    Nat.reducePow, if_true, BitVec.ofNat_eq_ofNat]
  try rfl

/-- LD_L. -/
theorem Roundtrip.ldL (d : SReg) (a : SReg) (off : BitVec 32) : Roundtrip.Statement (.ldL d a off) := by
  intro hw _
  have u0 := fields_11_3_5_5_6_2 0#11 3#3 a d 22#6 1#2
  simp only [encode]
  generalize (0#11 ++ 3#3 ++ a ++ d ++ 22#6 ++ 1#2 : BitVec 32) = p0 at u0 ⊢
  obtain ⟨h0a, h0b, h0c, h0d, h0e, h0f⟩ := u0
  rw [decode_major16 p0 off h0e h0f]
  simp only [decodeMajor16, minField, h0a, h0b, h0c, h0d, reserved, limit, reservedUnless, field_whole, BitVec.toNat_ofNat, Nat.reduceMod,
    Nat.reducePow, if_true, BitVec.ofNat_eq_ofNat]
  try rfl

/-- LBU_L. -/
theorem Roundtrip.lbuL (d : SReg) (a : SReg) (off : BitVec 32) : Roundtrip.Statement (.lbuL d a off) := by
  intro hw _
  have u0 := fields_11_3_5_5_6_2 0#11 4#3 a d 22#6 1#2
  simp only [encode]
  generalize (0#11 ++ 4#3 ++ a ++ d ++ 22#6 ++ 1#2 : BitVec 32) = p0 at u0 ⊢
  obtain ⟨h0a, h0b, h0c, h0d, h0e, h0f⟩ := u0
  rw [decode_major16 p0 off h0e h0f]
  simp only [decodeMajor16, minField, h0a, h0b, h0c, h0d, reserved, limit, reservedUnless, field_whole, BitVec.toNat_ofNat, Nat.reduceMod,
    Nat.reducePow, if_true, BitVec.ofNat_eq_ofNat]
  try rfl

/-- LHU_L. -/
theorem Roundtrip.lhuL (d : SReg) (a : SReg) (off : BitVec 32) : Roundtrip.Statement (.lhuL d a off) := by
  intro hw _
  have u0 := fields_11_3_5_5_6_2 0#11 5#3 a d 22#6 1#2
  simp only [encode]
  generalize (0#11 ++ 5#3 ++ a ++ d ++ 22#6 ++ 1#2 : BitVec 32) = p0 at u0 ⊢
  obtain ⟨h0a, h0b, h0c, h0d, h0e, h0f⟩ := u0
  rw [decode_major16 p0 off h0e h0f]
  simp only [decodeMajor16, minField, h0a, h0b, h0c, h0d, reserved, limit, reservedUnless, field_whole, BitVec.toNat_ofNat, Nat.reduceMod,
    Nat.reducePow, if_true, BitVec.ofNat_eq_ofNat]
  try rfl

/-- LWU_L. -/
theorem Roundtrip.lwuL (d : SReg) (a : SReg) (off : BitVec 32) : Roundtrip.Statement (.lwuL d a off) := by
  intro hw _
  have u0 := fields_11_3_5_5_6_2 0#11 6#3 a d 22#6 1#2
  simp only [encode]
  generalize (0#11 ++ 6#3 ++ a ++ d ++ 22#6 ++ 1#2 : BitVec 32) = p0 at u0 ⊢
  obtain ⟨h0a, h0b, h0c, h0d, h0e, h0f⟩ := u0
  rw [decode_major16 p0 off h0e h0f]
  simp only [decodeMajor16, minField, h0a, h0b, h0c, h0d, reserved, limit, reservedUnless, field_whole, BitVec.toNat_ofNat, Nat.reduceMod,
    Nat.reducePow, if_true, BitVec.ofNat_eq_ofNat]
  try rfl

/-- SB_L. -/
theorem Roundtrip.sbL (d : SReg) (a : SReg) (off : BitVec 32) : Roundtrip.Statement (.sbL d a off) := by
  intro hw _
  have u0 := fields_11_3_5_5_6_2 0#11 0#3 a d 23#6 1#2
  simp only [encode]
  generalize (0#11 ++ 0#3 ++ a ++ d ++ 23#6 ++ 1#2 : BitVec 32) = p0 at u0 ⊢
  obtain ⟨h0a, h0b, h0c, h0d, h0e, h0f⟩ := u0
  rw [decode_major17 p0 off h0e h0f]
  simp only [decodeMajor17, minField, h0a, h0b, h0c, h0d, reserved, limit, reservedUnless, field_whole, BitVec.toNat_ofNat, Nat.reduceMod,
    Nat.reducePow, if_true, BitVec.ofNat_eq_ofNat]
  try rfl

/-- SH_L. -/
theorem Roundtrip.shL (d : SReg) (a : SReg) (off : BitVec 32) : Roundtrip.Statement (.shL d a off) := by
  intro hw _
  have u0 := fields_11_3_5_5_6_2 0#11 1#3 a d 23#6 1#2
  simp only [encode]
  generalize (0#11 ++ 1#3 ++ a ++ d ++ 23#6 ++ 1#2 : BitVec 32) = p0 at u0 ⊢
  obtain ⟨h0a, h0b, h0c, h0d, h0e, h0f⟩ := u0
  rw [decode_major17 p0 off h0e h0f]
  simp only [decodeMajor17, minField, h0a, h0b, h0c, h0d, reserved, limit, reservedUnless, field_whole, BitVec.toNat_ofNat, Nat.reduceMod,
    Nat.reducePow, if_true, BitVec.ofNat_eq_ofNat]
  try rfl

/-- SW_L. -/
theorem Roundtrip.swL (d : SReg) (a : SReg) (off : BitVec 32) : Roundtrip.Statement (.swL d a off) := by
  intro hw _
  have u0 := fields_11_3_5_5_6_2 0#11 2#3 a d 23#6 1#2
  simp only [encode]
  generalize (0#11 ++ 2#3 ++ a ++ d ++ 23#6 ++ 1#2 : BitVec 32) = p0 at u0 ⊢
  obtain ⟨h0a, h0b, h0c, h0d, h0e, h0f⟩ := u0
  rw [decode_major17 p0 off h0e h0f]
  simp only [decodeMajor17, minField, h0a, h0b, h0c, h0d, reserved, limit, reservedUnless, field_whole, BitVec.toNat_ofNat, Nat.reduceMod,
    Nat.reducePow, if_true, BitVec.ofNat_eq_ofNat]
  try rfl

/-- ST_L. -/
theorem Roundtrip.stL (d : SReg) (a : SReg) (off : BitVec 32) : Roundtrip.Statement (.stL d a off) := by
  intro hw _
  have u0 := fields_11_3_5_5_6_2 0#11 3#3 a d 23#6 1#2
  simp only [encode]
  generalize (0#11 ++ 3#3 ++ a ++ d ++ 23#6 ++ 1#2 : BitVec 32) = p0 at u0 ⊢
  obtain ⟨h0a, h0b, h0c, h0d, h0e, h0f⟩ := u0
  rw [decode_major17 p0 off h0e h0f]
  simp only [decodeMajor17, minField, h0a, h0b, h0c, h0d, reserved, limit, reservedUnless, field_whole, BitVec.toNat_ofNat, Nat.reduceMod,
    Nat.reducePow, if_true, BitVec.ofNat_eq_ofNat]
  try rfl

/-- ST_LOCAL_L. -/
theorem Roundtrip.stLocalL (d : SReg) (a : SReg) (off : BitVec 32) : Roundtrip.Statement (.stLocalL d a off) := by
  intro hw _
  have u0 := fields_11_3_5_5_6_2 0#11 4#3 a d 23#6 1#2
  simp only [encode]
  generalize (0#11 ++ 4#3 ++ a ++ d ++ 23#6 ++ 1#2 : BitVec 32) = p0 at u0 ⊢
  obtain ⟨h0a, h0b, h0c, h0d, h0e, h0f⟩ := u0
  rw [decode_major17 p0 off h0e h0f]
  simp only [decodeMajor17, minField, h0a, h0b, h0c, h0d, reserved, limit, reservedUnless, field_whole, BitVec.toNat_ofNat, Nat.reduceMod,
    Nat.reducePow, if_true, BitVec.ofNat_eq_ofNat]
  try rfl

/-- ATOM_SWAP. -/
theorem Roundtrip.atomSwap (ord : BitVec 2) (d : SReg) (a : SReg) (b : SReg) : Roundtrip.Statement (.atomSwap ord d a b) := by
  intro hw _
  have u0 := fields_2_2_5_5_5_5_6_2 0#2 ord 0#5 b a d 24#6 0#2
  simp only [encode]
  generalize (0#2 ++ ord ++ 0#5 ++ b ++ a ++ d ++ 24#6 ++ 0#2 : BitVec 32) = p0 at u0 ⊢
  obtain ⟨h0a, h0b, h0c, h0d, h0e, h0f, h0g, h0h⟩ := u0
  rw [decode_major18 p0 h0g h0h]
  simp only [decodeMajor18, minField, h0a, h0b, h0c, h0d, h0e, h0f, reserved, limit, reservedUnless, field_whole, BitVec.toNat_ofNat, Nat.reduceMod,
    Nat.reducePow, if_true, BitVec.ofNat_eq_ofNat]
  try rfl

/-- ATOM_ADD. -/
theorem Roundtrip.atomAdd (ord : BitVec 2) (d : SReg) (a : SReg) (b : SReg) : Roundtrip.Statement (.atomAdd ord d a b) := by
  intro hw _
  have u0 := fields_2_2_5_5_5_5_6_2 0#2 ord 1#5 b a d 24#6 0#2
  simp only [encode]
  generalize (0#2 ++ ord ++ 1#5 ++ b ++ a ++ d ++ 24#6 ++ 0#2 : BitVec 32) = p0 at u0 ⊢
  obtain ⟨h0a, h0b, h0c, h0d, h0e, h0f, h0g, h0h⟩ := u0
  rw [decode_major18 p0 h0g h0h]
  simp only [decodeMajor18, minField, h0a, h0b, h0c, h0d, h0e, h0f, reserved, limit, reservedUnless, field_whole, BitVec.toNat_ofNat, Nat.reduceMod,
    Nat.reducePow, if_true, BitVec.ofNat_eq_ofNat]
  try rfl

/-- ATOM_AND. -/
theorem Roundtrip.atomAnd (ord : BitVec 2) (d : SReg) (a : SReg) (b : SReg) : Roundtrip.Statement (.atomAnd ord d a b) := by
  intro hw _
  have u0 := fields_2_2_5_5_5_5_6_2 0#2 ord 2#5 b a d 24#6 0#2
  simp only [encode]
  generalize (0#2 ++ ord ++ 2#5 ++ b ++ a ++ d ++ 24#6 ++ 0#2 : BitVec 32) = p0 at u0 ⊢
  obtain ⟨h0a, h0b, h0c, h0d, h0e, h0f, h0g, h0h⟩ := u0
  rw [decode_major18 p0 h0g h0h]
  simp only [decodeMajor18, minField, h0a, h0b, h0c, h0d, h0e, h0f, reserved, limit, reservedUnless, field_whole, BitVec.toNat_ofNat, Nat.reduceMod,
    Nat.reducePow, if_true, BitVec.ofNat_eq_ofNat]
  try rfl

/-- ATOM_OR. -/
theorem Roundtrip.atomOr (ord : BitVec 2) (d : SReg) (a : SReg) (b : SReg) : Roundtrip.Statement (.atomOr ord d a b) := by
  intro hw _
  have u0 := fields_2_2_5_5_5_5_6_2 0#2 ord 3#5 b a d 24#6 0#2
  simp only [encode]
  generalize (0#2 ++ ord ++ 3#5 ++ b ++ a ++ d ++ 24#6 ++ 0#2 : BitVec 32) = p0 at u0 ⊢
  obtain ⟨h0a, h0b, h0c, h0d, h0e, h0f, h0g, h0h⟩ := u0
  rw [decode_major18 p0 h0g h0h]
  simp only [decodeMajor18, minField, h0a, h0b, h0c, h0d, h0e, h0f, reserved, limit, reservedUnless, field_whole, BitVec.toNat_ofNat, Nat.reduceMod,
    Nat.reducePow, if_true, BitVec.ofNat_eq_ofNat]
  try rfl

/-- ATOM_XOR. -/
theorem Roundtrip.atomXor (ord : BitVec 2) (d : SReg) (a : SReg) (b : SReg) : Roundtrip.Statement (.atomXor ord d a b) := by
  intro hw _
  have u0 := fields_2_2_5_5_5_5_6_2 0#2 ord 4#5 b a d 24#6 0#2
  simp only [encode]
  generalize (0#2 ++ ord ++ 4#5 ++ b ++ a ++ d ++ 24#6 ++ 0#2 : BitVec 32) = p0 at u0 ⊢
  obtain ⟨h0a, h0b, h0c, h0d, h0e, h0f, h0g, h0h⟩ := u0
  rw [decode_major18 p0 h0g h0h]
  simp only [decodeMajor18, minField, h0a, h0b, h0c, h0d, h0e, h0f, reserved, limit, reservedUnless, field_whole, BitVec.toNat_ofNat, Nat.reduceMod,
    Nat.reducePow, if_true, BitVec.ofNat_eq_ofNat]
  try rfl

/-- ATOM_MIN. -/
theorem Roundtrip.atomMin (ord : BitVec 2) (d : SReg) (a : SReg) (b : SReg) : Roundtrip.Statement (.atomMin ord d a b) := by
  intro hw _
  have u0 := fields_2_2_5_5_5_5_6_2 0#2 ord 5#5 b a d 24#6 0#2
  simp only [encode]
  generalize (0#2 ++ ord ++ 5#5 ++ b ++ a ++ d ++ 24#6 ++ 0#2 : BitVec 32) = p0 at u0 ⊢
  obtain ⟨h0a, h0b, h0c, h0d, h0e, h0f, h0g, h0h⟩ := u0
  rw [decode_major18 p0 h0g h0h]
  simp only [decodeMajor18, minField, h0a, h0b, h0c, h0d, h0e, h0f, reserved, limit, reservedUnless, field_whole, BitVec.toNat_ofNat, Nat.reduceMod,
    Nat.reducePow, if_true, BitVec.ofNat_eq_ofNat]
  try rfl

/-- ATOM_MAX. -/
theorem Roundtrip.atomMax (ord : BitVec 2) (d : SReg) (a : SReg) (b : SReg) : Roundtrip.Statement (.atomMax ord d a b) := by
  intro hw _
  have u0 := fields_2_2_5_5_5_5_6_2 0#2 ord 6#5 b a d 24#6 0#2
  simp only [encode]
  generalize (0#2 ++ ord ++ 6#5 ++ b ++ a ++ d ++ 24#6 ++ 0#2 : BitVec 32) = p0 at u0 ⊢
  obtain ⟨h0a, h0b, h0c, h0d, h0e, h0f, h0g, h0h⟩ := u0
  rw [decode_major18 p0 h0g h0h]
  simp only [decodeMajor18, minField, h0a, h0b, h0c, h0d, h0e, h0f, reserved, limit, reservedUnless, field_whole, BitVec.toNat_ofNat, Nat.reduceMod,
    Nat.reducePow, if_true, BitVec.ofNat_eq_ofNat]
  try rfl

/-- ATOM_MINU. -/
theorem Roundtrip.atomMinu (ord : BitVec 2) (d : SReg) (a : SReg) (b : SReg) : Roundtrip.Statement (.atomMinu ord d a b) := by
  intro hw _
  have u0 := fields_2_2_5_5_5_5_6_2 0#2 ord 7#5 b a d 24#6 0#2
  simp only [encode]
  generalize (0#2 ++ ord ++ 7#5 ++ b ++ a ++ d ++ 24#6 ++ 0#2 : BitVec 32) = p0 at u0 ⊢
  obtain ⟨h0a, h0b, h0c, h0d, h0e, h0f, h0g, h0h⟩ := u0
  rw [decode_major18 p0 h0g h0h]
  simp only [decodeMajor18, minField, h0a, h0b, h0c, h0d, h0e, h0f, reserved, limit, reservedUnless, field_whole, BitVec.toNat_ofNat, Nat.reduceMod,
    Nat.reducePow, if_true, BitVec.ofNat_eq_ofNat]
  try rfl

/-- ATOM_MAXU. -/
theorem Roundtrip.atomMaxu (ord : BitVec 2) (d : SReg) (a : SReg) (b : SReg) : Roundtrip.Statement (.atomMaxu ord d a b) := by
  intro hw _
  have u0 := fields_2_2_5_5_5_5_6_2 0#2 ord 8#5 b a d 24#6 0#2
  simp only [encode]
  generalize (0#2 ++ ord ++ 8#5 ++ b ++ a ++ d ++ 24#6 ++ 0#2 : BitVec 32) = p0 at u0 ⊢
  obtain ⟨h0a, h0b, h0c, h0d, h0e, h0f, h0g, h0h⟩ := u0
  rw [decode_major18 p0 h0g h0h]
  simp only [decodeMajor18, minField, h0a, h0b, h0c, h0d, h0e, h0f, reserved, limit, reservedUnless, field_whole, BitVec.toNat_ofNat, Nat.reduceMod,
    Nat.reducePow, if_true, BitVec.ofNat_eq_ofNat]
  try rfl

/-- ATOM_CAS. -/
theorem Roundtrip.atomCas (ord : BitVec 2) (d : SReg) (a : SReg) (b : SReg) : Roundtrip.Statement (.atomCas ord d a b) := by
  intro hw _
  have u0 := fields_2_2_5_5_5_5_6_2 0#2 ord 9#5 b a d 24#6 0#2
  simp only [encode]
  generalize (0#2 ++ ord ++ 9#5 ++ b ++ a ++ d ++ 24#6 ++ 0#2 : BitVec 32) = p0 at u0 ⊢
  obtain ⟨h0a, h0b, h0c, h0d, h0e, h0f, h0g, h0h⟩ := u0
  rw [decode_major18 p0 h0g h0h]
  simp only [decodeMajor18, minField, h0a, h0b, h0c, h0d, h0e, h0f, reserved, limit, reservedUnless, field_whole, BitVec.toNat_ofNat, Nat.reduceMod,
    Nat.reducePow, if_true, BitVec.ofNat_eq_ofNat]
  try rfl

/-- LD_ACQ. -/
theorem Roundtrip.ldAcq (d : SReg) (a : SReg) : Roundtrip.Statement (.ldAcq d a) := by
  intro hw _
  have u0 := fields_4_5_5_5_5_6_2 0#4 10#5 0#5 a d 24#6 0#2
  simp only [encode]
  generalize (0#4 ++ 10#5 ++ 0#5 ++ a ++ d ++ 24#6 ++ 0#2 : BitVec 32) = p0 at u0 ⊢
  obtain ⟨h0a, h0b, h0c, h0d, h0e, h0f, h0g⟩ := u0
  rw [decode_major18 p0 h0f h0g]
  simp only [decodeMajor18, minField, h0a, h0b, h0c, h0d, h0e, reserved, limit, reservedUnless, field_whole, BitVec.toNat_ofNat, Nat.reduceMod,
    Nat.reducePow, if_true, BitVec.ofNat_eq_ofNat]
  try rfl

/-- ST_REL. -/
theorem Roundtrip.stRel (a : SReg) (b : SReg) : Roundtrip.Statement (.stRel a b) := by
  intro hw _
  have u0 := fields_4_5_5_5_5_6_2 0#4 11#5 b a 0#5 24#6 0#2
  simp only [encode]
  generalize (0#4 ++ 11#5 ++ b ++ a ++ 0#5 ++ 24#6 ++ 0#2 : BitVec 32) = p0 at u0 ⊢
  obtain ⟨h0a, h0b, h0c, h0d, h0e, h0f, h0g⟩ := u0
  rw [decode_major18 p0 h0f h0g]
  simp only [decodeMajor18, minField, h0a, h0b, h0c, h0d, h0e, reserved, limit, reservedUnless, field_whole, BitVec.toNat_ofNat, Nat.reduceMod,
    Nat.reducePow, if_true, BitVec.ofNat_eq_ofNat]
  try rfl

/-- WAITV. -/
theorem Roundtrip.waitv (d : SReg) (a : SReg) (b : SReg) : Roundtrip.Statement (.waitv d a b) := by
  intro hw _
  have u0 := fields_4_5_5_5_5_6_2 0#4 12#5 b a d 24#6 0#2
  simp only [encode]
  generalize (0#4 ++ 12#5 ++ b ++ a ++ d ++ 24#6 ++ 0#2 : BitVec 32) = p0 at u0 ⊢
  obtain ⟨h0a, h0b, h0c, h0d, h0e, h0f, h0g⟩ := u0
  rw [decode_major18 p0 h0f h0g]
  simp only [decodeMajor18, minField, h0a, h0b, h0c, h0d, h0e, reserved, limit, reservedUnless, field_whole, BitVec.toNat_ofNat, Nat.reduceMod,
    Nat.reducePow, if_true, BitVec.ofNat_eq_ofNat]
  try rfl

/-- PSEND. -/
theorem Roundtrip.psend (a : SReg) : Roundtrip.Statement (.psend a) := by
  intro hw _
  have u0 := fields_4_5_5_5_5_6_2 0#4 0#5 0#5 a 0#5 26#6 0#2
  simp only [encode]
  generalize (0#4 ++ 0#5 ++ 0#5 ++ a ++ 0#5 ++ 26#6 ++ 0#2 : BitVec 32) = p0 at u0 ⊢
  obtain ⟨h0a, h0b, h0c, h0d, h0e, h0f, h0g⟩ := u0
  rw [decode_major1A p0 h0f h0g]
  simp only [decodeMajor1A, minField, h0a, h0b, h0c, h0d, h0e, reserved, limit, reservedUnless, field_whole, BitVec.toNat_ofNat, Nat.reduceMod,
    Nat.reducePow, if_true, BitVec.ofNat_eq_ofNat]
  try rfl

/-- PRECV. -/
theorem Roundtrip.precv (d : SReg) : Roundtrip.Statement (.precv d) := by
  intro hw _
  have u0 := fields_4_5_10_5_6_2 0#4 1#5 0#10 d 26#6 0#2
  simp only [encode]
  generalize (0#4 ++ 1#5 ++ 0#10 ++ d ++ 26#6 ++ 0#2 : BitVec 32) = p0 at u0 ⊢
  obtain ⟨h0a, h0b, h0c, h0d, h0e, h0f⟩ := u0
  rw [decode_major1A p0 h0e h0f]
  simp only [decodeMajor1A, minField, h0a, h0b, h0c, h0d, reserved, limit, reservedUnless, field_whole, BitVec.toNat_ofNat, Nat.reduceMod,
    Nat.reducePow, if_true, BitVec.ofNat_eq_ofNat]
  try rfl

/-- HBREAD. -/
theorem Roundtrip.hbread (d : SReg) : Roundtrip.Statement (.hbread d) := by
  intro hw _
  have u0 := fields_4_5_10_5_6_2 0#4 9#5 0#10 d 26#6 0#2
  simp only [encode]
  generalize (0#4 ++ 9#5 ++ 0#10 ++ d ++ 26#6 ++ 0#2 : BitVec 32) = p0 at u0 ⊢
  obtain ⟨h0a, h0b, h0c, h0d, h0e, h0f⟩ := u0
  rw [decode_major1A p0 h0e h0f]
  simp only [decodeMajor1A, minField, h0a, h0b, h0c, h0d, reserved, limit, reservedUnless, field_whole, BitVec.toNat_ofNat, Nat.reduceMod,
    Nat.reducePow, if_true, BitVec.ofNat_eq_ofNat]
  try rfl

/-- HBWAIT. -/
theorem Roundtrip.hbwait (a : SReg) : Roundtrip.Statement (.hbwait a) := by
  intro hw _
  have u0 := fields_4_5_5_5_5_6_2 0#4 10#5 0#5 a 0#5 26#6 0#2
  simp only [encode]
  generalize (0#4 ++ 10#5 ++ 0#5 ++ a ++ 0#5 ++ 26#6 ++ 0#2 : BitVec 32) = p0 at u0 ⊢
  obtain ⟨h0a, h0b, h0c, h0d, h0e, h0f, h0g⟩ := u0
  rw [decode_major1A p0 h0f h0g]
  simp only [decodeMajor1A, minField, h0a, h0b, h0c, h0d, h0e, reserved, limit, reservedUnless, field_whole, BitVec.toNat_ofNat, Nat.reduceMod,
    Nat.reducePow, if_true, BitVec.ofNat_eq_ofNat]
  try rfl

/-- CSRR. -/
theorem Roundtrip.csrr (d : SReg) (csr : Csr) : Roundtrip.Statement (.csrr d csr) := by
  intro _ _
  have u := fields_12_2_5_5_6_2 csr.selector 0#2 0#5 d 27#6 0#2
  have hs : csrOfSelector csr.selector = some csr := by cases csr <;> rfl
  simp only [encode, csrParcel]
  generalize (csr.selector ++ 0#2 ++ 0#5 ++ d ++ 27#6 ++ 0#2 : BitVec 32) = p0 at u ⊢
  obtain ⟨h0, h1, h2, h3, h4, h5⟩ := u
  rw [decode_major1B p0 h4 h5]
  simp only [decodeMajor1B, h0, h1, h2, h3, hs, reserved, BitVec.toNat_ofNat, Nat.reduceMod, Nat.reducePow, if_true, BitVec.ofNat_eq_ofNat]

/-- CSRW. -/
theorem Roundtrip.csrw (csr : Csr) (a : SReg) : Roundtrip.Statement (.csrw csr a) := by
  intro _ _
  have u := fields_12_2_5_5_6_2 csr.selector 1#2 a 0#5 27#6 0#2
  have hs : csrOfSelector csr.selector = some csr := by cases csr <;> rfl
  simp only [encode, csrParcel]
  generalize (csr.selector ++ 1#2 ++ a ++ 0#5 ++ 27#6 ++ 0#2 : BitVec 32) = p0 at u ⊢
  obtain ⟨h0, h1, h2, h3, h4, h5⟩ := u
  rw [decode_major1B p0 h4 h5]
  simp only [decodeMajor1B, h0, h1, h2, h3, hs, reserved, BitVec.toNat_ofNat, Nat.reduceMod, Nat.reducePow, if_true, BitVec.ofNat_eq_ofNat]

/-- CSRS. -/
theorem Roundtrip.csrs (csr : Csr) (a : SReg) : Roundtrip.Statement (.csrs csr a) := by
  intro _ _
  have u := fields_12_2_5_5_6_2 csr.selector 2#2 a 0#5 27#6 0#2
  have hs : csrOfSelector csr.selector = some csr := by cases csr <;> rfl
  simp only [encode, csrParcel]
  generalize (csr.selector ++ 2#2 ++ a ++ 0#5 ++ 27#6 ++ 0#2 : BitVec 32) = p0 at u ⊢
  obtain ⟨h0, h1, h2, h3, h4, h5⟩ := u
  rw [decode_major1B p0 h4 h5]
  simp only [decodeMajor1B, h0, h1, h2, h3, hs, reserved, BitVec.toNat_ofNat, Nat.reduceMod, Nat.reducePow, if_true, BitVec.ofNat_eq_ofNat]

/-- CSRC. -/
theorem Roundtrip.csrc (csr : Csr) (a : SReg) : Roundtrip.Statement (.csrc csr a) := by
  intro _ _
  have u := fields_12_2_5_5_6_2 csr.selector 3#2 a 0#5 27#6 0#2
  have hs : csrOfSelector csr.selector = some csr := by cases csr <;> rfl
  simp only [encode, csrParcel]
  generalize (csr.selector ++ 3#2 ++ a ++ 0#5 ++ 27#6 ++ 0#2 : BitVec 32) = p0 at u ⊢
  obtain ⟨h0, h1, h2, h3, h4, h5⟩ := u
  rw [decode_major1B p0 h4 h5]
  simp only [decodeMajor1B, h0, h1, h2, h3, hs, reserved, BitVec.toNat_ofNat, Nat.reduceMod, Nat.reducePow, if_true, BitVec.ofNat_eq_ofNat]

/-- TURN. -/
theorem Roundtrip.turn (lvl : BitVec 3) (d : SReg) (a : SReg) (b : SReg) : Roundtrip.Statement (.turn lvl d a b) := by
  intro hw _
  have u0 := fields_1_3_5_5_5_5_6_2 0#1 lvl 0#5 b a d 28#6 0#2
  simp only [encode]
  generalize (0#1 ++ lvl ++ 0#5 ++ b ++ a ++ d ++ 28#6 ++ 0#2 : BitVec 32) = p0 at u0 ⊢
  obtain ⟨h0a, h0b, h0c, h0d, h0e, h0f, h0g, h0h⟩ := u0
  rw [decode_major1C p0 h0g h0h]
  simp only [Instr.wf, Bool.and_eq_true, BitVec.ofNat_eq_ofNat] at hw
  simp only [decodeMajor1C, minField, h0a, h0b, h0c, h0d, h0e, h0f, hw, reserved, limit, reservedUnless, field_whole, BitVec.toNat_ofNat, Nat.reduceMod,
    Nat.reducePow, if_true, BitVec.ofNat_eq_ofNat]
  try rfl

/-- TWAIT. -/
theorem Roundtrip.twait (d : SReg) (a : SReg) (b : SReg) (timeout : BitVec 32) : Roundtrip.Statement (.twait d a b timeout) := by
  intro hw _
  have u0 := fields_9_5_5_5_6_2 0#9 b a d 29#6 1#2
  simp only [encode]
  generalize (0#9 ++ b ++ a ++ d ++ 29#6 ++ 1#2 : BitVec 32) = p0 at u0 ⊢
  obtain ⟨h0a, h0b, h0c, h0d, h0e, h0f⟩ := u0
  rw [decode_major1D p0 timeout h0e h0f]
  simp only [decodeMajor1D, minField, h0a, h0b, h0c, h0d, reserved, limit, reservedUnless, field_whole, BitVec.toNat_ofNat, Nat.reduceMod,
    Nat.reducePow, if_true, BitVec.ofNat_eq_ofNat]
  try rfl

/-- CPYIN. -/
theorem Roundtrip.cpyin (d : SReg) (a : BitVec 5) (b : SReg) (sz : SReg) (bar : SReg) (vdst : BitVec 1) (vg : BitVec 2) (comp : BitVec 1) (toa : BitVec 3) (aoff : BitVec 16) (boff : BitVec 16) : Roundtrip.Statement (.cpyin d a b sz bar vdst vg comp toa aoff boff) := by
  intro hw _
  have u0 := fields_4_5_5_5_5_6_2 0#4 0#5 b a d 32#6 2#2
  have u1 := fields_12_2_1_3_1_3_5_5 0#12 vg vdst 0#3 comp toa bar sz
  have u2 := fields_16_16 boff aoff
  simp only [encode]
  generalize (0#4 ++ 0#5 ++ b ++ a ++ d ++ 32#6 ++ 2#2 : BitVec 32) = p0 at u0 ⊢
  generalize (0#12 ++ vg ++ vdst ++ 0#3 ++ comp ++ toa ++ bar ++ sz : BitVec 32) = p1 at u1 ⊢
  generalize (boff ++ aoff : BitVec 32) = p2 at u2 ⊢
  obtain ⟨h0a, h0b, h0c, h0d, h0e, h0f, h0g⟩ := u0
  obtain ⟨h1a, h1b, h1c, h1d, h1e, h1f, h1g, h1h⟩ := u1
  obtain ⟨h2a, h2b⟩ := u2
  rw [decode_major20 p0 p1 p2 h0f h0g]
  simp only [Instr.wf, Bool.and_eq_true, BitVec.ofNat_eq_ofNat] at hw
  simp only [decodeMajor20, minField, h0a, h0b, h0c, h0d, h0e, h1a, h1b, h1c, h1d, h1e, h1f, h1g, h1h, h2a, h2b, hw, reserved, limit, reservedUnless, field_whole, BitVec.toNat_ofNat, Nat.reduceMod,
    Nat.reducePow, if_true, BitVec.ofNat_eq_ofNat]
  try rfl

/-- CPYOUT. -/
theorem Roundtrip.cpyout (d : SReg) (a : SReg) (b : SReg) (sz : SReg) (bar : SReg) (comp : BitVec 1) (toa : BitVec 3) (aoff : BitVec 16) (boff : BitVec 16) : Roundtrip.Statement (.cpyout d a b sz bar comp toa aoff boff) := by
  intro hw _
  have u0 := fields_4_5_5_5_5_6_2 0#4 1#5 b a d 32#6 2#2
  have u1 := fields_18_1_3_5_5 0#18 comp toa bar sz
  have u2 := fields_16_16 boff aoff
  simp only [encode]
  generalize (0#4 ++ 1#5 ++ b ++ a ++ d ++ 32#6 ++ 2#2 : BitVec 32) = p0 at u0 ⊢
  generalize (0#18 ++ comp ++ toa ++ bar ++ sz : BitVec 32) = p1 at u1 ⊢
  generalize (boff ++ aoff : BitVec 32) = p2 at u2 ⊢
  obtain ⟨h0a, h0b, h0c, h0d, h0e, h0f, h0g⟩ := u0
  obtain ⟨h1a, h1b, h1c, h1d, h1e⟩ := u1
  obtain ⟨h2a, h2b⟩ := u2
  rw [decode_major20 p0 p1 p2 h0f h0g]
  simp only [Instr.wf, Bool.and_eq_true, BitVec.ofNat_eq_ofNat] at hw
  simp only [decodeMajor20, minField, h0a, h0b, h0c, h0d, h0e, h1a, h1b, h1c, h1d, h1e, h2a, h2b, hw, reserved, limit, reservedUnless, field_whole, BitVec.toNat_ofNat, Nat.reduceMod,
    Nat.reducePow, if_true, BitVec.ofNat_eq_ofNat]
  try rfl

/-- CPYREG. -/
theorem Roundtrip.cpyreg (d : SReg) (a : VReg) (b : VReg) (sz : SReg) (bar : SReg) (aux : SReg) (vg : BitVec 2) (comp : BitVec 1) (toa : BitVec 3) : Roundtrip.Statement (.cpyreg d a b sz bar aux vg comp toa) := by
  intro hw _
  have u0 := fields_4_5_5_5_5_6_2 0#4 2#5 b a d 32#6 2#2
  have u1 := fields_7_5_2_4_1_3_5_5 0#7 aux vg 0#4 comp toa bar sz
  simp only [encode]
  generalize (0#4 ++ 2#5 ++ b ++ a ++ d ++ 32#6 ++ 2#2 : BitVec 32) = p0 at u0 ⊢
  generalize (0#7 ++ aux ++ vg ++ 0#4 ++ comp ++ toa ++ bar ++ sz : BitVec 32) = p1 at u1 ⊢
  obtain ⟨h0a, h0b, h0c, h0d, h0e, h0f, h0g⟩ := u0
  obtain ⟨h1a, h1b, h1c, h1d, h1e, h1f, h1g, h1h⟩ := u1
  rw [decode_major20 p0 p1 0#32 h0f h0g]
  simp only [Instr.wf, Bool.and_eq_true, BitVec.ofNat_eq_ofNat] at hw
  simp only [decodeMajor20, minField, h0a, h0b, h0c, h0d, h0e, h1a, h1b, h1c, h1d, h1e, h1f, h1g, h1h, hw, reserved, limit, reservedUnless, field_whole, BitVec.toNat_ofNat, Nat.reduceMod,
    Nat.reducePow, if_true, BitVec.ofNat_eq_ofNat]
  try rfl

/-- CPYFOLD. -/
theorem Roundtrip.cpyfold (d : SReg) (a : SReg) (b : SReg) (sz : SReg) (bar : SReg) (fold : BitVec 2) (ordered : BitVec 1) (comp : BitVec 1) (toa : BitVec 3) (aoff : BitVec 16) (boff : BitVec 16) : Roundtrip.Statement (.cpyfold d a b sz bar fold ordered comp toa aoff boff) := by
  intro hw _
  have u0 := fields_4_5_5_5_5_6_2 0#4 3#5 b a d 32#6 2#2
  have u1 := fields_15_1_2_1_3_5_5 0#15 ordered fold comp toa bar sz
  have u2 := fields_16_16 boff aoff
  simp only [encode]
  generalize (0#4 ++ 3#5 ++ b ++ a ++ d ++ 32#6 ++ 2#2 : BitVec 32) = p0 at u0 ⊢
  generalize (0#15 ++ ordered ++ fold ++ comp ++ toa ++ bar ++ sz : BitVec 32) = p1 at u1 ⊢
  generalize (boff ++ aoff : BitVec 32) = p2 at u2 ⊢
  obtain ⟨h0a, h0b, h0c, h0d, h0e, h0f, h0g⟩ := u0
  obtain ⟨h1a, h1b, h1c, h1d, h1e, h1f, h1g⟩ := u1
  obtain ⟨h2a, h2b⟩ := u2
  rw [decode_major20 p0 p1 p2 h0f h0g]
  simp only [Instr.wf, Bool.and_eq_true, BitVec.ofNat_eq_ofNat] at hw
  simp only [decodeMajor20, minField, h0a, h0b, h0c, h0d, h0e, h1a, h1b, h1c, h1d, h1e, h1f, h1g, h2a, h2b, hw, reserved, limit, reservedUnless, field_whole, BitVec.toNat_ofNat, Nat.reduceMod,
    Nat.reducePow, if_true, BitVec.ofNat_eq_ofNat]
  try rfl

/-- SCPY. -/
theorem Roundtrip.scpy (d : SReg) (a : SReg) (b : SReg) (sz : SReg) (bar : SReg) (comp : BitVec 1) (toa : BitVec 3) (aoff : BitVec 16) (boff : BitVec 16) : Roundtrip.Statement (.scpy d a b sz bar comp toa aoff boff) := by
  intro hw _
  have u0 := fields_4_5_5_5_5_6_2 0#4 4#5 b a d 32#6 2#2
  have u1 := fields_18_1_3_5_5 0#18 comp toa bar sz
  have u2 := fields_16_16 boff aoff
  simp only [encode]
  generalize (0#4 ++ 4#5 ++ b ++ a ++ d ++ 32#6 ++ 2#2 : BitVec 32) = p0 at u0 ⊢
  generalize (0#18 ++ comp ++ toa ++ bar ++ sz : BitVec 32) = p1 at u1 ⊢
  generalize (boff ++ aoff : BitVec 32) = p2 at u2 ⊢
  obtain ⟨h0a, h0b, h0c, h0d, h0e, h0f, h0g⟩ := u0
  obtain ⟨h1a, h1b, h1c, h1d, h1e⟩ := u1
  obtain ⟨h2a, h2b⟩ := u2
  rw [decode_major20 p0 p1 p2 h0f h0g]
  simp only [Instr.wf, Bool.and_eq_true, BitVec.ofNat_eq_ofNat] at hw
  simp only [decodeMajor20, minField, h0a, h0b, h0c, h0d, h0e, h1a, h1b, h1c, h1d, h1e, h2a, h2b, hw, reserved, limit, reservedUnless, field_whole, BitVec.toNat_ofNat, Nat.reduceMod,
    Nat.reducePow, if_true, BitVec.ofNat_eq_ofNat]
  try rfl

/-- EXPORT. -/
theorem Roundtrip.exportPage (d : SReg) (b : SReg) : Roundtrip.Statement (.exportPage d b) := by
  intro hw _
  have u0 := fields_4_5_5_5_5_6_2 0#4 5#5 b 0#5 d 32#6 2#2
  simp only [encode]
  generalize (0#4 ++ 5#5 ++ b ++ 0#5 ++ d ++ 32#6 ++ 2#2 : BitVec 32) = p0 at u0 ⊢
  obtain ⟨h0a, h0b, h0c, h0d, h0e, h0f, h0g⟩ := u0
  rw [decode_major20 p0 0#32 0#32 h0f h0g]
  simp only [decodeMajor20, minField, h0a, h0b, h0c, h0d, h0e, reserved, limit, reservedUnless, field_whole, BitVec.toNat_ofNat, Nat.reduceMod,
    Nat.reducePow, if_true, BitVec.ofNat_eq_ofNat]
  try rfl

/-- TCPY_IN. -/
theorem Roundtrip.tcpyIn (d : SReg) (a : SReg) (b : SReg) (bar : SReg) (comp : BitVec 1) (toa : BitVec 3) (t0 : BitVec 16) (t1 : BitVec 16) (t2 : BitVec 16) (t3 : BitVec 16) (aoff : BitVec 16) : Roundtrip.Statement (.tcpyIn d a b bar comp toa t0 t1 t2 t3 aoff) := by
  intro hw _
  have u0 := fields_4_5_5_5_5_6_2 0#4 0#5 b a d 33#6 3#2
  have u1 := fields_18_1_3_5_5 0#18 comp toa bar 0#5
  have u2 := fields_16_16 t1 t0
  have u3 := fields_16_16 t3 t2
  have u4 := fields_16_16 0#16 aoff
  simp only [encode]
  generalize (0#4 ++ 0#5 ++ b ++ a ++ d ++ 33#6 ++ 3#2 : BitVec 32) = p0 at u0 ⊢
  generalize (0#18 ++ comp ++ toa ++ bar ++ 0#5 : BitVec 32) = p1 at u1 ⊢
  generalize (t1 ++ t0 : BitVec 32) = p2 at u2 ⊢
  generalize (t3 ++ t2 : BitVec 32) = p3 at u3 ⊢
  generalize (0#16 ++ aoff : BitVec 32) = p4 at u4 ⊢
  obtain ⟨h0a, h0b, h0c, h0d, h0e, h0f, h0g⟩ := u0
  obtain ⟨h1a, h1b, h1c, h1d, h1e⟩ := u1
  obtain ⟨h2a, h2b⟩ := u2
  obtain ⟨h3a, h3b⟩ := u3
  obtain ⟨h4a, h4b⟩ := u4
  rw [decode_major21 p0 p1 p2 p3 p4 h0f h0g]
  simp only [Instr.wf, Bool.and_eq_true, BitVec.ofNat_eq_ofNat] at hw
  simp only [decodeMajor21, minField, h0a, h0b, h0c, h0d, h0e, h1a, h1b, h1c, h1d, h1e, h2a, h2b, h3a, h3b, h4a, h4b, hw, reserved, limit, reservedUnless, field_whole, BitVec.toNat_ofNat, Nat.reduceMod,
    Nat.reducePow, if_true, BitVec.ofNat_eq_ofNat]
  try rfl

/-- TCPY_OUT. -/
theorem Roundtrip.tcpyOut (d : SReg) (a : SReg) (b : SReg) (bar : SReg) (comp : BitVec 1) (toa : BitVec 3) (t0 : BitVec 16) (t1 : BitVec 16) (t2 : BitVec 16) (t3 : BitVec 16) (aoff : BitVec 16) : Roundtrip.Statement (.tcpyOut d a b bar comp toa t0 t1 t2 t3 aoff) := by
  intro hw _
  have u0 := fields_4_5_5_5_5_6_2 0#4 1#5 b a d 33#6 3#2
  have u1 := fields_18_1_3_5_5 0#18 comp toa bar 0#5
  have u2 := fields_16_16 t1 t0
  have u3 := fields_16_16 t3 t2
  have u4 := fields_16_16 0#16 aoff
  simp only [encode]
  generalize (0#4 ++ 1#5 ++ b ++ a ++ d ++ 33#6 ++ 3#2 : BitVec 32) = p0 at u0 ⊢
  generalize (0#18 ++ comp ++ toa ++ bar ++ 0#5 : BitVec 32) = p1 at u1 ⊢
  generalize (t1 ++ t0 : BitVec 32) = p2 at u2 ⊢
  generalize (t3 ++ t2 : BitVec 32) = p3 at u3 ⊢
  generalize (0#16 ++ aoff : BitVec 32) = p4 at u4 ⊢
  obtain ⟨h0a, h0b, h0c, h0d, h0e, h0f, h0g⟩ := u0
  obtain ⟨h1a, h1b, h1c, h1d, h1e⟩ := u1
  obtain ⟨h2a, h2b⟩ := u2
  obtain ⟨h3a, h3b⟩ := u3
  obtain ⟨h4a, h4b⟩ := u4
  rw [decode_major21 p0 p1 p2 p3 p4 h0f h0g]
  simp only [Instr.wf, Bool.and_eq_true, BitVec.ofNat_eq_ofNat] at hw
  simp only [decodeMajor21, minField, h0a, h0b, h0c, h0d, h0e, h1a, h1b, h1c, h1d, h1e, h2a, h2b, h3a, h3b, h4a, h4b, hw, reserved, limit, reservedUnless, field_whole, BitVec.toNat_ofNat, Nat.reduceMod,
    Nat.reducePow, if_true, BitVec.ofNat_eq_ofNat]
  try rfl

/-- SBIND. -/
theorem Roundtrip.sbind (d : VReg) (a : SReg) : Roundtrip.Statement (.sbind d a) := by
  intro hw _
  have u0 := fields_4_5_5_5_5_6_2 0#4 0#5 0#5 a d 34#6 0#2
  simp only [encode]
  generalize (0#4 ++ 0#5 ++ 0#5 ++ a ++ d ++ 34#6 ++ 0#2 : BitVec 32) = p0 at u0 ⊢
  obtain ⟨h0a, h0b, h0c, h0d, h0e, h0f, h0g⟩ := u0
  rw [decode_major22 p0 h0f h0g]
  simp only [decodeMajor22, minField, h0a, h0b, h0c, h0d, h0e, reserved, limit, reservedUnless, field_whole, BitVec.toNat_ofNat, Nat.reduceMod,
    Nat.reducePow, if_true, BitVec.ofNat_eq_ofNat]
  try rfl

/-- SFREE. -/
theorem Roundtrip.sfree (d : VReg) : Roundtrip.Statement (.sfree d) := by
  intro hw _
  have u0 := fields_4_5_10_5_6_2 0#4 1#5 0#10 d 34#6 0#2
  simp only [encode]
  generalize (0#4 ++ 1#5 ++ 0#10 ++ d ++ 34#6 ++ 0#2 : BitVec 32) = p0 at u0 ⊢
  obtain ⟨h0a, h0b, h0c, h0d, h0e, h0f⟩ := u0
  rw [decode_major22 p0 h0e h0f]
  simp only [decodeMajor22, minField, h0a, h0b, h0c, h0d, reserved, limit, reservedUnless, field_whole, BitVec.toNat_ofNat, Nat.reduceMod,
    Nat.reducePow, if_true, BitVec.ofNat_eq_ofNat]
  try rfl

/-- TSPAWN. -/
theorem Roundtrip.tspawn (a : SReg) : Roundtrip.Statement (.tspawn a) := by
  intro hw _
  have u0 := fields_4_5_5_5_5_6_2 0#4 0#5 0#5 a 0#5 36#6 0#2
  simp only [encode]
  generalize (0#4 ++ 0#5 ++ 0#5 ++ a ++ 0#5 ++ 36#6 ++ 0#2 : BitVec 32) = p0 at u0 ⊢
  obtain ⟨h0a, h0b, h0c, h0d, h0e, h0f, h0g⟩ := u0
  rw [decode_major24 p0 h0f h0g]
  simp only [Instr.wf, Bool.and_eq_true, BitVec.ofNat_eq_ofNat] at hw
  simp only [decodeMajor24, minField, h0a, h0b, h0c, h0d, h0e, hw, reserved, limit, reservedUnless, field_whole, BitVec.toNat_ofNat, Nat.reduceMod,
    Nat.reducePow, if_true, BitVec.ofNat_eq_ofNat]
  try rfl

/-- TDEP. -/
theorem Roundtrip.tdep (a : SReg) (b : SReg) (d : SReg) : Roundtrip.Statement (.tdep a b d) := by
  intro hw _
  have u0 := fields_4_5_5_5_5_6_2 0#4 2#5 b a d 36#6 0#2
  simp only [encode]
  generalize (0#4 ++ 2#5 ++ b ++ a ++ d ++ 36#6 ++ 0#2 : BitVec 32) = p0 at u0 ⊢
  obtain ⟨h0a, h0b, h0c, h0d, h0e, h0f, h0g⟩ := u0
  rw [decode_major24 p0 h0f h0g]
  simp only [Instr.wf, Bool.and_eq_true, BitVec.ofNat_eq_ofNat] at hw
  simp only [decodeMajor24, minField, h0a, h0b, h0c, h0d, h0e, hw, reserved, limit, reservedUnless, field_whole, BitVec.toNat_ofNat, Nat.reduceMod,
    Nat.reducePow, if_true, BitVec.ofNat_eq_ofNat]
  try rfl

/-- TDEC. -/
theorem Roundtrip.tdec (a : SReg) : Roundtrip.Statement (.tdec a) := by
  intro hw _
  have u0 := fields_4_5_5_5_5_6_2 0#4 3#5 0#5 a 0#5 36#6 0#2
  simp only [encode]
  generalize (0#4 ++ 3#5 ++ 0#5 ++ a ++ 0#5 ++ 36#6 ++ 0#2 : BitVec 32) = p0 at u0 ⊢
  obtain ⟨h0a, h0b, h0c, h0d, h0e, h0f, h0g⟩ := u0
  rw [decode_major24 p0 h0f h0g]
  simp only [decodeMajor24, minField, h0a, h0b, h0c, h0d, h0e, reserved, limit, reservedUnless, field_whole, BitVec.toNat_ofNat, Nat.reduceMod,
    Nat.reducePow, if_true, BitVec.ofNat_eq_ofNat]
  try rfl

/-- SFARM. -/
theorem Roundtrip.sfarm (a : SReg) : Roundtrip.Statement (.sfarm a) := by
  intro hw _
  have u0 := fields_4_5_5_5_5_6_2 0#4 4#5 0#5 a 0#5 36#6 0#2
  simp only [encode]
  generalize (0#4 ++ 4#5 ++ 0#5 ++ a ++ 0#5 ++ 36#6 ++ 0#2 : BitVec 32) = p0 at u0 ⊢
  obtain ⟨h0a, h0b, h0c, h0d, h0e, h0f, h0g⟩ := u0
  rw [decode_major24 p0 h0f h0g]
  simp only [decodeMajor24, minField, h0a, h0b, h0c, h0d, h0e, reserved, limit, reservedUnless, field_whole, BitVec.toNat_ofNat, Nat.reduceMod,
    Nat.reducePow, if_true, BitVec.ofNat_eq_ofNat]
  try rfl

/-- SNEXT. -/
theorem Roundtrip.snext (d : SReg) : Roundtrip.Statement (.snext d) := by
  intro hw _
  have u0 := fields_4_5_10_5_6_2 0#4 5#5 0#10 d 36#6 0#2
  simp only [encode]
  generalize (0#4 ++ 5#5 ++ 0#10 ++ d ++ 36#6 ++ 0#2 : BitVec 32) = p0 at u0 ⊢
  obtain ⟨h0a, h0b, h0c, h0d, h0e, h0f⟩ := u0
  rw [decode_major24 p0 h0e h0f]
  simp only [decodeMajor24, minField, h0a, h0b, h0c, h0d, reserved, limit, reservedUnless, field_whole, BitVec.toNat_ofNat, Nat.reduceMod,
    Nat.reducePow, if_true, BitVec.ofNat_eq_ofNat]
  try rfl

/-- LAUNCH. -/
theorem Roundtrip.launch (d : SReg) (a : SReg) : Roundtrip.Statement (.launch d a) := by
  intro hw _
  have u0 := fields_4_5_5_5_5_6_2 0#4 6#5 0#5 a d 36#6 0#2
  simp only [encode]
  generalize (0#4 ++ 6#5 ++ 0#5 ++ a ++ d ++ 36#6 ++ 0#2 : BitVec 32) = p0 at u0 ⊢
  obtain ⟨h0a, h0b, h0c, h0d, h0e, h0f, h0g⟩ := u0
  rw [decode_major24 p0 h0f h0g]
  simp only [decodeMajor24, minField, h0a, h0b, h0c, h0d, h0e, reserved, limit, reservedUnless, field_whole, BitVec.toNat_ofNat, Nat.reduceMod,
    Nat.reducePow, if_true, BitVec.ofNat_eq_ofNat]
  try rfl

/-- TSUSP. -/
theorem Roundtrip.tsusp (a : SReg) (mask : BitVec 32) : Roundtrip.Statement (.tsusp a mask) := by
  intro hw _
  have u0 := fields_14_5_5_6_2 0#14 a 0#5 37#6 1#2
  simp only [encode]
  generalize (0#14 ++ a ++ 0#5 ++ 37#6 ++ 1#2 : BitVec 32) = p0 at u0 ⊢
  obtain ⟨h0a, h0b, h0c, h0d, h0e⟩ := u0
  rw [decode_major25 p0 mask h0d h0e]
  simp only [Instr.wf, Bool.and_eq_true, BitVec.ofNat_eq_ofNat] at hw
  simp only [decodeMajor25, minField, h0a, h0b, h0c, hw, reserved, limit, reservedUnless, field_whole, BitVec.toNat_ofNat, Nat.reduceMod,
    Nat.reducePow, if_true, BitVec.ofNat_eq_ofNat]
  try rfl

/-- QCREATE. -/
theorem Roundtrip.qcreate (d : SReg) (a : SReg) : Roundtrip.Statement (.qcreate d a) := by
  intro hw _
  have u0 := fields_4_5_5_5_5_6_2 0#4 0#5 0#5 a d 38#6 0#2
  simp only [encode]
  generalize (0#4 ++ 0#5 ++ 0#5 ++ a ++ d ++ 38#6 ++ 0#2 : BitVec 32) = p0 at u0 ⊢
  obtain ⟨h0a, h0b, h0c, h0d, h0e, h0f, h0g⟩ := u0
  rw [decode_major26 p0 h0f h0g]
  simp only [decodeMajor26, minField, h0a, h0b, h0c, h0d, h0e, reserved, limit, reservedUnless, field_whole, BitVec.toNat_ofNat, Nat.reduceMod,
    Nat.reducePow, if_true, BitVec.ofNat_eq_ofNat]
  try rfl

/-- QPUSH. -/
theorem Roundtrip.qpush (d : SReg) (a : SReg) (b : SReg) : Roundtrip.Statement (.qpush d a b) := by
  intro hw _
  have u0 := fields_4_5_5_5_5_6_2 0#4 1#5 b a d 38#6 0#2
  simp only [encode]
  generalize (0#4 ++ 1#5 ++ b ++ a ++ d ++ 38#6 ++ 0#2 : BitVec 32) = p0 at u0 ⊢
  obtain ⟨h0a, h0b, h0c, h0d, h0e, h0f, h0g⟩ := u0
  rw [decode_major26 p0 h0f h0g]
  simp only [decodeMajor26, minField, h0a, h0b, h0c, h0d, h0e, reserved, limit, reservedUnless, field_whole, BitVec.toNat_ofNat, Nat.reduceMod,
    Nat.reducePow, if_true, BitVec.ofNat_eq_ofNat]
  try rfl

/-- QPOP. -/
theorem Roundtrip.qpop (d : SReg) (a : SReg) (b : SReg) : Roundtrip.Statement (.qpop d a b) := by
  intro hw _
  have u0 := fields_4_5_5_5_5_6_2 0#4 2#5 b a d 38#6 0#2
  simp only [encode]
  generalize (0#4 ++ 2#5 ++ b ++ a ++ d ++ 38#6 ++ 0#2 : BitVec 32) = p0 at u0 ⊢
  obtain ⟨h0a, h0b, h0c, h0d, h0e, h0f, h0g⟩ := u0
  rw [decode_major26 p0 h0f h0g]
  simp only [decodeMajor26, minField, h0a, h0b, h0c, h0d, h0e, reserved, limit, reservedUnless, field_whole, BitVec.toNat_ofNat, Nat.reduceMod,
    Nat.reducePow, if_true, BitVec.ofNat_eq_ofNat]
  try rfl

/-- QINFO. -/
theorem Roundtrip.qinfo (d : SReg) (a : SReg) : Roundtrip.Statement (.qinfo d a) := by
  intro hw _
  have u0 := fields_4_5_5_5_5_6_2 0#4 3#5 0#5 a d 38#6 0#2
  simp only [encode]
  generalize (0#4 ++ 3#5 ++ 0#5 ++ a ++ d ++ 38#6 ++ 0#2 : BitVec 32) = p0 at u0 ⊢
  obtain ⟨h0a, h0b, h0c, h0d, h0e, h0f, h0g⟩ := u0
  rw [decode_major26 p0 h0f h0g]
  simp only [decodeMajor26, minField, h0a, h0b, h0c, h0d, h0e, reserved, limit, reservedUnless, field_whole, BitVec.toNat_ofNat, Nat.reduceMod,
    Nat.reducePow, if_true, BitVec.ofNat_eq_ofNat]
  try rfl

/-- QCLOSE. -/
theorem Roundtrip.qclose (a : SReg) : Roundtrip.Statement (.qclose a) := by
  intro hw _
  have u0 := fields_4_5_5_5_5_6_2 0#4 4#5 0#5 a 0#5 38#6 0#2
  simp only [encode]
  generalize (0#4 ++ 4#5 ++ 0#5 ++ a ++ 0#5 ++ 38#6 ++ 0#2 : BitVec 32) = p0 at u0 ⊢
  obtain ⟨h0a, h0b, h0c, h0d, h0e, h0f, h0g⟩ := u0
  rw [decode_major26 p0 h0f h0g]
  simp only [decodeMajor26, minField, h0a, h0b, h0c, h0d, h0e, reserved, limit, reservedUnless, field_whole, BitVec.toNat_ofNat, Nat.reduceMod,
    Nat.reducePow, if_true, BitVec.ofNat_eq_ofNat]
  try rfl

/-- BARINIT. -/
theorem Roundtrip.barinit (a : SReg) (b : SReg) (d : SReg) : Roundtrip.Statement (.barinit a b d) := by
  intro hw _
  have u0 := fields_4_5_5_5_5_6_2 0#4 0#5 b a d 39#6 0#2
  simp only [encode]
  generalize (0#4 ++ 0#5 ++ b ++ a ++ d ++ 39#6 ++ 0#2 : BitVec 32) = p0 at u0 ⊢
  obtain ⟨h0a, h0b, h0c, h0d, h0e, h0f, h0g⟩ := u0
  rw [decode_major27 p0 h0f h0g]
  simp only [decodeMajor27, minField, h0a, h0b, h0c, h0d, h0e, reserved, limit, reservedUnless, field_whole, BitVec.toNat_ofNat, Nat.reduceMod,
    Nat.reducePow, if_true, BitVec.ofNat_eq_ofNat]
  try rfl

/-- BARARR. -/
theorem Roundtrip.bararr (a : SReg) : Roundtrip.Statement (.bararr a) := by
  intro hw _
  have u0 := fields_4_5_5_5_5_6_2 0#4 1#5 0#5 a 0#5 39#6 0#2
  simp only [encode]
  generalize (0#4 ++ 1#5 ++ 0#5 ++ a ++ 0#5 ++ 39#6 ++ 0#2 : BitVec 32) = p0 at u0 ⊢
  obtain ⟨h0a, h0b, h0c, h0d, h0e, h0f, h0g⟩ := u0
  rw [decode_major27 p0 h0f h0g]
  simp only [decodeMajor27, minField, h0a, h0b, h0c, h0d, h0e, reserved, limit, reservedUnless, field_whole, BitVec.toNat_ofNat, Nat.reduceMod,
    Nat.reducePow, if_true, BitVec.ofNat_eq_ofNat]
  try rfl

/-- BARTX. -/
theorem Roundtrip.bartx (a : SReg) (b : SReg) : Roundtrip.Statement (.bartx a b) := by
  intro hw _
  have u0 := fields_4_5_5_5_5_6_2 0#4 2#5 b a 0#5 39#6 0#2
  simp only [encode]
  generalize (0#4 ++ 2#5 ++ b ++ a ++ 0#5 ++ 39#6 ++ 0#2 : BitVec 32) = p0 at u0 ⊢
  obtain ⟨h0a, h0b, h0c, h0d, h0e, h0f, h0g⟩ := u0
  rw [decode_major27 p0 h0f h0g]
  simp only [decodeMajor27, minField, h0a, h0b, h0c, h0d, h0e, reserved, limit, reservedUnless, field_whole, BitVec.toNat_ofNat, Nat.reduceMod,
    Nat.reducePow, if_true, BitVec.ofNat_eq_ofNat]
  try rfl

/-- BARWAIT. -/
theorem Roundtrip.barwait (a : SReg) : Roundtrip.Statement (.barwait a) := by
  intro hw _
  have u0 := fields_4_5_5_5_5_6_2 0#4 3#5 0#5 a 0#5 39#6 0#2
  simp only [encode]
  generalize (0#4 ++ 3#5 ++ 0#5 ++ a ++ 0#5 ++ 39#6 ++ 0#2 : BitVec 32) = p0 at u0 ⊢
  obtain ⟨h0a, h0b, h0c, h0d, h0e, h0f, h0g⟩ := u0
  rw [decode_major27 p0 h0f h0g]
  simp only [decodeMajor27, minField, h0a, h0b, h0c, h0d, h0e, reserved, limit, reservedUnless, field_whole, BitVec.toNat_ofNat, Nat.reduceMod,
    Nat.reducePow, if_true, BitVec.ofNat_eq_ofNat]
  try rfl

/-- BARTEST. -/
theorem Roundtrip.bartest (d : SReg) (a : SReg) : Roundtrip.Statement (.bartest d a) := by
  intro hw _
  have u0 := fields_4_5_5_5_5_6_2 0#4 4#5 0#5 a d 39#6 0#2
  simp only [encode]
  generalize (0#4 ++ 4#5 ++ 0#5 ++ a ++ d ++ 39#6 ++ 0#2 : BitVec 32) = p0 at u0 ⊢
  obtain ⟨h0a, h0b, h0c, h0d, h0e, h0f, h0g⟩ := u0
  rw [decode_major27 p0 h0f h0g]
  simp only [decodeMajor27, minField, h0a, h0b, h0c, h0d, h0e, reserved, limit, reservedUnless, field_whole, BitVec.toNat_ofNat, Nat.reduceMod,
    Nat.reducePow, if_true, BitVec.ofNat_eq_ofNat]
  try rfl

/-- COLL. -/
theorem Roundtrip.coll (d : SReg) (a : SReg) (b : SReg) : Roundtrip.Statement (.coll d a b) := by
  intro hw _
  have u0 := fields_4_5_5_5_5_6_2 0#4 5#5 b a d 39#6 0#2
  simp only [encode]
  generalize (0#4 ++ 5#5 ++ b ++ a ++ d ++ 39#6 ++ 0#2 : BitVec 32) = p0 at u0 ⊢
  obtain ⟨h0a, h0b, h0c, h0d, h0e, h0f, h0g⟩ := u0
  rw [decode_major27 p0 h0f h0g]
  simp only [decodeMajor27, minField, h0a, h0b, h0c, h0d, h0e, reserved, limit, reservedUnless, field_whole, BitVec.toNat_ofNat, Nat.reduceMod,
    Nat.reducePow, if_true, BitVec.ofNat_eq_ofNat]
  try rfl

/-- CDREG. -/
theorem Roundtrip.cdreg (d : SReg) (a : SReg) (b : SReg) : Roundtrip.Statement (.cdreg d a b) := by
  intro hw _
  have u0 := fields_4_5_5_5_5_6_2 0#4 0#5 b a d 40#6 0#2
  simp only [encode]
  generalize (0#4 ++ 0#5 ++ b ++ a ++ d ++ 40#6 ++ 0#2 : BitVec 32) = p0 at u0 ⊢
  obtain ⟨h0a, h0b, h0c, h0d, h0e, h0f, h0g⟩ := u0
  rw [decode_major28 p0 h0f h0g]
  simp only [decodeMajor28, minField, h0a, h0b, h0c, h0d, h0e, reserved, limit, reservedUnless, field_whole, BitVec.toNat_ofNat, Nat.reduceMod,
    Nat.reducePow, if_true, BitVec.ofNat_eq_ofNat]
  try rfl

/-- RUQUERY. -/
theorem Roundtrip.ruquery (d : SReg) (a : SReg) : Roundtrip.Statement (.ruquery d a) := by
  intro hw _
  have u0 := fields_4_5_5_5_5_6_2 0#4 1#5 0#5 a d 40#6 0#2
  simp only [encode]
  generalize (0#4 ++ 1#5 ++ 0#5 ++ a ++ d ++ 40#6 ++ 0#2 : BitVec 32) = p0 at u0 ⊢
  obtain ⟨h0a, h0b, h0c, h0d, h0e, h0f, h0g⟩ := u0
  rw [decode_major28 p0 h0f h0g]
  simp only [decodeMajor28, minField, h0a, h0b, h0c, h0d, h0e, reserved, limit, reservedUnless, field_whole, BitVec.toNat_ofNat, Nat.reduceMod,
    Nat.reducePow, if_true, BitVec.ofNat_eq_ofNat]
  try rfl

/-- RUINVAL. -/
theorem Roundtrip.ruinval (a : SReg) : Roundtrip.Statement (.ruinval a) := by
  intro hw _
  have u0 := fields_4_5_5_5_5_6_2 0#4 2#5 0#5 a 0#5 40#6 0#2
  simp only [encode]
  generalize (0#4 ++ 2#5 ++ 0#5 ++ a ++ 0#5 ++ 40#6 ++ 0#2 : BitVec 32) = p0 at u0 ⊢
  obtain ⟨h0a, h0b, h0c, h0d, h0e, h0f, h0g⟩ := u0
  rw [decode_major28 p0 h0f h0g]
  simp only [decodeMajor28, minField, h0a, h0b, h0c, h0d, h0e, reserved, limit, reservedUnless, field_whole, BitVec.toNat_ofNat, Nat.reduceMod,
    Nat.reducePow, if_true, BitVec.ofNat_eq_ofNat]
  try rfl

/-- RUSTAT. -/
theorem Roundtrip.rustat (d : SReg) (a : SReg) : Roundtrip.Statement (.rustat d a) := by
  intro hw _
  have u0 := fields_4_5_5_5_5_6_2 0#4 3#5 0#5 a d 40#6 0#2
  simp only [encode]
  generalize (0#4 ++ 3#5 ++ 0#5 ++ a ++ d ++ 40#6 ++ 0#2 : BitVec 32) = p0 at u0 ⊢
  obtain ⟨h0a, h0b, h0c, h0d, h0e, h0f, h0g⟩ := u0
  rw [decode_major28 p0 h0f h0g]
  simp only [decodeMajor28, minField, h0a, h0b, h0c, h0d, h0e, reserved, limit, reservedUnless, field_whole, BitVec.toNat_ofNat, Nat.reduceMod,
    Nat.reducePow, if_true, BitVec.ofNat_eq_ofNat]
  try rfl

/-- RUFLUSH. -/
theorem Roundtrip.ruflush (a : SReg) : Roundtrip.Statement (.ruflush a) := by
  intro hw _
  have u0 := fields_4_5_5_5_5_6_2 0#4 4#5 0#5 a 0#5 40#6 0#2
  simp only [encode]
  generalize (0#4 ++ 4#5 ++ 0#5 ++ a ++ 0#5 ++ 40#6 ++ 0#2 : BitVec 32) = p0 at u0 ⊢
  obtain ⟨h0a, h0b, h0c, h0d, h0e, h0f, h0g⟩ := u0
  rw [decode_major28 p0 h0f h0g]
  simp only [decodeMajor28, minField, h0a, h0b, h0c, h0d, h0e, reserved, limit, reservedUnless, field_whole, BitVec.toNat_ofNat, Nat.reduceMod,
    Nat.reducePow, if_true, BitVec.ofNat_eq_ofNat]
  try rfl

/-- CHSEND. -/
theorem Roundtrip.chsend (c : BitVec 5) (a : VReg) : Roundtrip.Statement (.chsend c a) := by
  intro hw _
  have u0 := fields_4_5_5_5_5_6_2 0#4 0#5 c a 0#5 41#6 0#2
  simp only [encode]
  generalize (0#4 ++ 0#5 ++ c ++ a ++ 0#5 ++ 41#6 ++ 0#2 : BitVec 32) = p0 at u0 ⊢
  obtain ⟨h0a, h0b, h0c, h0d, h0e, h0f, h0g⟩ := u0
  rw [decode_major29 p0 h0f h0g]
  simp only [Instr.wf, Bool.and_eq_true, BitVec.ofNat_eq_ofNat] at hw
  simp only [decodeMajor29, minField, h0a, h0b, h0c, h0d, h0e, hw, reserved, limit, reservedUnless, field_whole, BitVec.toNat_ofNat, Nat.reduceMod,
    Nat.reducePow, if_true, BitVec.ofNat_eq_ofNat]
  try rfl

/-- CHSEND_S. -/
theorem Roundtrip.chsendS (c : BitVec 5) (a : SReg) : Roundtrip.Statement (.chsendS c a) := by
  intro hw _
  have u0 := fields_4_5_5_5_5_6_2 0#4 1#5 c a 0#5 41#6 0#2
  simp only [encode]
  generalize (0#4 ++ 1#5 ++ c ++ a ++ 0#5 ++ 41#6 ++ 0#2 : BitVec 32) = p0 at u0 ⊢
  obtain ⟨h0a, h0b, h0c, h0d, h0e, h0f, h0g⟩ := u0
  rw [decode_major29 p0 h0f h0g]
  simp only [Instr.wf, Bool.and_eq_true, BitVec.ofNat_eq_ofNat] at hw
  simp only [decodeMajor29, minField, h0a, h0b, h0c, h0d, h0e, hw, reserved, limit, reservedUnless, field_whole, BitVec.toNat_ofNat, Nat.reduceMod,
    Nat.reducePow, if_true, BitVec.ofNat_eq_ofNat]
  try rfl

/-- CHRECV. -/
theorem Roundtrip.chrecv (d : VReg) (c : BitVec 5) : Roundtrip.Statement (.chrecv d c) := by
  intro hw _
  have u0 := fields_4_5_5_5_5_6_2 0#4 2#5 c 0#5 d 41#6 0#2
  simp only [encode]
  generalize (0#4 ++ 2#5 ++ c ++ 0#5 ++ d ++ 41#6 ++ 0#2 : BitVec 32) = p0 at u0 ⊢
  obtain ⟨h0a, h0b, h0c, h0d, h0e, h0f, h0g⟩ := u0
  rw [decode_major29 p0 h0f h0g]
  simp only [Instr.wf, Bool.and_eq_true, BitVec.ofNat_eq_ofNat] at hw
  simp only [decodeMajor29, minField, h0a, h0b, h0c, h0d, h0e, hw, reserved, limit, reservedUnless, field_whole, BitVec.toNat_ofNat, Nat.reduceMod,
    Nat.reducePow, if_true, BitVec.ofNat_eq_ofNat]
  try rfl

/-- CHRECV_S. -/
theorem Roundtrip.chrecvS (d : SReg) (c : BitVec 5) : Roundtrip.Statement (.chrecvS d c) := by
  intro hw _
  have u0 := fields_4_5_5_5_5_6_2 0#4 3#5 c 0#5 d 41#6 0#2
  simp only [encode]
  generalize (0#4 ++ 3#5 ++ c ++ 0#5 ++ d ++ 41#6 ++ 0#2 : BitVec 32) = p0 at u0 ⊢
  obtain ⟨h0a, h0b, h0c, h0d, h0e, h0f, h0g⟩ := u0
  rw [decode_major29 p0 h0f h0g]
  simp only [Instr.wf, Bool.and_eq_true, BitVec.ofNat_eq_ofNat] at hw
  simp only [decodeMajor29, minField, h0a, h0b, h0c, h0d, h0e, hw, reserved, limit, reservedUnless, field_whole, BitVec.toNat_ofNat, Nat.reduceMod,
    Nat.reducePow, if_true, BitVec.ofNat_eq_ofNat]
  try rfl

/-- VADD. -/
theorem Roundtrip.vadd (xs : BitVec 1) (k : MReg) (d : VReg) (a : VReg) (b : BitVec 5) : Roundtrip.Statement (.vadd xs k d a b) := by
  intro hw _
  have u0 := fields_1_3_5_5_5_5_6_2 xs k 0#5 b a d 48#6 0#2
  simp only [encode]
  generalize (xs ++ k ++ 0#5 ++ b ++ a ++ d ++ 48#6 ++ 0#2 : BitVec 32) = p0 at u0 ⊢
  obtain ⟨h0a, h0b, h0c, h0d, h0e, h0f, h0g, h0h⟩ := u0
  rw [decode_major30 p0 h0g h0h]
  simp only [decodeMajor30, minField, h0a, h0b, h0c, h0d, h0e, h0f, reserved, limit, reservedUnless, field_whole, BitVec.toNat_ofNat, Nat.reduceMod,
    Nat.reducePow, if_true, BitVec.ofNat_eq_ofNat]
  try rfl

/-- VSUB. -/
theorem Roundtrip.vsub (xs : BitVec 1) (k : MReg) (d : VReg) (a : VReg) (b : BitVec 5) : Roundtrip.Statement (.vsub xs k d a b) := by
  intro hw _
  have u0 := fields_1_3_5_5_5_5_6_2 xs k 1#5 b a d 48#6 0#2
  simp only [encode]
  generalize (xs ++ k ++ 1#5 ++ b ++ a ++ d ++ 48#6 ++ 0#2 : BitVec 32) = p0 at u0 ⊢
  obtain ⟨h0a, h0b, h0c, h0d, h0e, h0f, h0g, h0h⟩ := u0
  rw [decode_major30 p0 h0g h0h]
  simp only [decodeMajor30, minField, h0a, h0b, h0c, h0d, h0e, h0f, reserved, limit, reservedUnless, field_whole, BitVec.toNat_ofNat, Nat.reduceMod,
    Nat.reducePow, if_true, BitVec.ofNat_eq_ofNat]
  try rfl

/-- VMUL. -/
theorem Roundtrip.vmul (xs : BitVec 1) (k : MReg) (d : VReg) (a : VReg) (b : BitVec 5) : Roundtrip.Statement (.vmul xs k d a b) := by
  intro hw _
  have u0 := fields_1_3_5_5_5_5_6_2 xs k 2#5 b a d 48#6 0#2
  simp only [encode]
  generalize (xs ++ k ++ 2#5 ++ b ++ a ++ d ++ 48#6 ++ 0#2 : BitVec 32) = p0 at u0 ⊢
  obtain ⟨h0a, h0b, h0c, h0d, h0e, h0f, h0g, h0h⟩ := u0
  rw [decode_major30 p0 h0g h0h]
  simp only [decodeMajor30, minField, h0a, h0b, h0c, h0d, h0e, h0f, reserved, limit, reservedUnless, field_whole, BitVec.toNat_ofNat, Nat.reduceMod,
    Nat.reducePow, if_true, BitVec.ofNat_eq_ofNat]
  try rfl

/-- VDIV. -/
theorem Roundtrip.vdiv (xs : BitVec 1) (k : MReg) (d : VReg) (a : VReg) (b : BitVec 5) : Roundtrip.Statement (.vdiv xs k d a b) := by
  intro hw _
  have u0 := fields_1_3_5_5_5_5_6_2 xs k 3#5 b a d 48#6 0#2
  simp only [encode]
  generalize (xs ++ k ++ 3#5 ++ b ++ a ++ d ++ 48#6 ++ 0#2 : BitVec 32) = p0 at u0 ⊢
  obtain ⟨h0a, h0b, h0c, h0d, h0e, h0f, h0g, h0h⟩ := u0
  rw [decode_major30 p0 h0g h0h]
  simp only [decodeMajor30, minField, h0a, h0b, h0c, h0d, h0e, h0f, reserved, limit, reservedUnless, field_whole, BitVec.toNat_ofNat, Nat.reduceMod,
    Nat.reducePow, if_true, BitVec.ofNat_eq_ofNat]
  try rfl

/-- VMIN. -/
theorem Roundtrip.vmin (xs : BitVec 1) (k : MReg) (d : VReg) (a : VReg) (b : BitVec 5) : Roundtrip.Statement (.vmin xs k d a b) := by
  intro hw _
  have u0 := fields_1_3_5_5_5_5_6_2 xs k 4#5 b a d 48#6 0#2
  simp only [encode]
  generalize (xs ++ k ++ 4#5 ++ b ++ a ++ d ++ 48#6 ++ 0#2 : BitVec 32) = p0 at u0 ⊢
  obtain ⟨h0a, h0b, h0c, h0d, h0e, h0f, h0g, h0h⟩ := u0
  rw [decode_major30 p0 h0g h0h]
  simp only [decodeMajor30, minField, h0a, h0b, h0c, h0d, h0e, h0f, reserved, limit, reservedUnless, field_whole, BitVec.toNat_ofNat, Nat.reduceMod,
    Nat.reducePow, if_true, BitVec.ofNat_eq_ofNat]
  try rfl

/-- VMAX. -/
theorem Roundtrip.vmax (xs : BitVec 1) (k : MReg) (d : VReg) (a : VReg) (b : BitVec 5) : Roundtrip.Statement (.vmax xs k d a b) := by
  intro hw _
  have u0 := fields_1_3_5_5_5_5_6_2 xs k 5#5 b a d 48#6 0#2
  simp only [encode]
  generalize (xs ++ k ++ 5#5 ++ b ++ a ++ d ++ 48#6 ++ 0#2 : BitVec 32) = p0 at u0 ⊢
  obtain ⟨h0a, h0b, h0c, h0d, h0e, h0f, h0g, h0h⟩ := u0
  rw [decode_major30 p0 h0g h0h]
  simp only [decodeMajor30, minField, h0a, h0b, h0c, h0d, h0e, h0f, reserved, limit, reservedUnless, field_whole, BitVec.toNat_ofNat, Nat.reduceMod,
    Nat.reducePow, if_true, BitVec.ofNat_eq_ofNat]
  try rfl

/-- VAND. -/
theorem Roundtrip.vand (xs : BitVec 1) (k : MReg) (d : VReg) (a : VReg) (b : BitVec 5) : Roundtrip.Statement (.vand xs k d a b) := by
  intro hw _
  have u0 := fields_1_3_5_5_5_5_6_2 xs k 6#5 b a d 48#6 0#2
  simp only [encode]
  generalize (xs ++ k ++ 6#5 ++ b ++ a ++ d ++ 48#6 ++ 0#2 : BitVec 32) = p0 at u0 ⊢
  obtain ⟨h0a, h0b, h0c, h0d, h0e, h0f, h0g, h0h⟩ := u0
  rw [decode_major30 p0 h0g h0h]
  simp only [decodeMajor30, minField, h0a, h0b, h0c, h0d, h0e, h0f, reserved, limit, reservedUnless, field_whole, BitVec.toNat_ofNat, Nat.reduceMod,
    Nat.reducePow, if_true, BitVec.ofNat_eq_ofNat]
  try rfl

/-- VOR. -/
theorem Roundtrip.vor (xs : BitVec 1) (k : MReg) (d : VReg) (a : VReg) (b : BitVec 5) : Roundtrip.Statement (.vor xs k d a b) := by
  intro hw _
  have u0 := fields_1_3_5_5_5_5_6_2 xs k 7#5 b a d 48#6 0#2
  simp only [encode]
  generalize (xs ++ k ++ 7#5 ++ b ++ a ++ d ++ 48#6 ++ 0#2 : BitVec 32) = p0 at u0 ⊢
  obtain ⟨h0a, h0b, h0c, h0d, h0e, h0f, h0g, h0h⟩ := u0
  rw [decode_major30 p0 h0g h0h]
  simp only [decodeMajor30, minField, h0a, h0b, h0c, h0d, h0e, h0f, reserved, limit, reservedUnless, field_whole, BitVec.toNat_ofNat, Nat.reduceMod,
    Nat.reducePow, if_true, BitVec.ofNat_eq_ofNat]
  try rfl

/-- VXOR. -/
theorem Roundtrip.vxor (xs : BitVec 1) (k : MReg) (d : VReg) (a : VReg) (b : BitVec 5) : Roundtrip.Statement (.vxor xs k d a b) := by
  intro hw _
  have u0 := fields_1_3_5_5_5_5_6_2 xs k 8#5 b a d 48#6 0#2
  simp only [encode]
  generalize (xs ++ k ++ 8#5 ++ b ++ a ++ d ++ 48#6 ++ 0#2 : BitVec 32) = p0 at u0 ⊢
  obtain ⟨h0a, h0b, h0c, h0d, h0e, h0f, h0g, h0h⟩ := u0
  rw [decode_major30 p0 h0g h0h]
  simp only [decodeMajor30, minField, h0a, h0b, h0c, h0d, h0e, h0f, reserved, limit, reservedUnless, field_whole, BitVec.toNat_ofNat, Nat.reduceMod,
    Nat.reducePow, if_true, BitVec.ofNat_eq_ofNat]
  try rfl

/-- VSLL. -/
theorem Roundtrip.vsll (xs : BitVec 1) (k : MReg) (d : VReg) (a : VReg) (b : BitVec 5) : Roundtrip.Statement (.vsll xs k d a b) := by
  intro hw _
  have u0 := fields_1_3_5_5_5_5_6_2 xs k 9#5 b a d 48#6 0#2
  simp only [encode]
  generalize (xs ++ k ++ 9#5 ++ b ++ a ++ d ++ 48#6 ++ 0#2 : BitVec 32) = p0 at u0 ⊢
  obtain ⟨h0a, h0b, h0c, h0d, h0e, h0f, h0g, h0h⟩ := u0
  rw [decode_major30 p0 h0g h0h]
  simp only [decodeMajor30, minField, h0a, h0b, h0c, h0d, h0e, h0f, reserved, limit, reservedUnless, field_whole, BitVec.toNat_ofNat, Nat.reduceMod,
    Nat.reducePow, if_true, BitVec.ofNat_eq_ofNat]
  try rfl

/-- VSRL. -/
theorem Roundtrip.vsrl (xs : BitVec 1) (k : MReg) (d : VReg) (a : VReg) (b : BitVec 5) : Roundtrip.Statement (.vsrl xs k d a b) := by
  intro hw _
  have u0 := fields_1_3_5_5_5_5_6_2 xs k 10#5 b a d 48#6 0#2
  simp only [encode]
  generalize (xs ++ k ++ 10#5 ++ b ++ a ++ d ++ 48#6 ++ 0#2 : BitVec 32) = p0 at u0 ⊢
  obtain ⟨h0a, h0b, h0c, h0d, h0e, h0f, h0g, h0h⟩ := u0
  rw [decode_major30 p0 h0g h0h]
  simp only [decodeMajor30, minField, h0a, h0b, h0c, h0d, h0e, h0f, reserved, limit, reservedUnless, field_whole, BitVec.toNat_ofNat, Nat.reduceMod,
    Nat.reducePow, if_true, BitVec.ofNat_eq_ofNat]
  try rfl

/-- VSRA. -/
theorem Roundtrip.vsra (xs : BitVec 1) (k : MReg) (d : VReg) (a : VReg) (b : BitVec 5) : Roundtrip.Statement (.vsra xs k d a b) := by
  intro hw _
  have u0 := fields_1_3_5_5_5_5_6_2 xs k 11#5 b a d 48#6 0#2
  simp only [encode]
  generalize (xs ++ k ++ 11#5 ++ b ++ a ++ d ++ 48#6 ++ 0#2 : BitVec 32) = p0 at u0 ⊢
  obtain ⟨h0a, h0b, h0c, h0d, h0e, h0f, h0g, h0h⟩ := u0
  rw [decode_major30 p0 h0g h0h]
  simp only [decodeMajor30, minField, h0a, h0b, h0c, h0d, h0e, h0f, reserved, limit, reservedUnless, field_whole, BitVec.toNat_ofNat, Nat.reduceMod,
    Nat.reducePow, if_true, BitVec.ofNat_eq_ofNat]
  try rfl

/-- VFMA. -/
theorem Roundtrip.vfma (xs : BitVec 1) (k : MReg) (d : VReg) (a : VReg) (b : BitVec 5) : Roundtrip.Statement (.vfma xs k d a b) := by
  intro hw _
  have u0 := fields_1_3_5_5_5_5_6_2 xs k 12#5 b a d 48#6 0#2
  simp only [encode]
  generalize (xs ++ k ++ 12#5 ++ b ++ a ++ d ++ 48#6 ++ 0#2 : BitVec 32) = p0 at u0 ⊢
  obtain ⟨h0a, h0b, h0c, h0d, h0e, h0f, h0g, h0h⟩ := u0
  rw [decode_major30 p0 h0g h0h]
  simp only [decodeMajor30, minField, h0a, h0b, h0c, h0d, h0e, h0f, reserved, limit, reservedUnless, field_whole, BitVec.toNat_ofNat, Nat.reduceMod,
    Nat.reducePow, if_true, BitVec.ofNat_eq_ofNat]
  try rfl

/-- VFMS. -/
theorem Roundtrip.vfms (xs : BitVec 1) (k : MReg) (d : VReg) (a : VReg) (b : BitVec 5) : Roundtrip.Statement (.vfms xs k d a b) := by
  intro hw _
  have u0 := fields_1_3_5_5_5_5_6_2 xs k 13#5 b a d 48#6 0#2
  simp only [encode]
  generalize (xs ++ k ++ 13#5 ++ b ++ a ++ d ++ 48#6 ++ 0#2 : BitVec 32) = p0 at u0 ⊢
  obtain ⟨h0a, h0b, h0c, h0d, h0e, h0f, h0g, h0h⟩ := u0
  rw [decode_major30 p0 h0g h0h]
  simp only [decodeMajor30, minField, h0a, h0b, h0c, h0d, h0e, h0f, reserved, limit, reservedUnless, field_whole, BitVec.toNat_ofNat, Nat.reduceMod,
    Nat.reducePow, if_true, BitVec.ofNat_eq_ofNat]
  try rfl

/-- VABS. -/
theorem Roundtrip.vabs (k : MReg) (d : VReg) (a : VReg) : Roundtrip.Statement (.vabs k d a) := by
  intro hw _
  have u0 := fields_1_3_5_5_5_5_6_2 0#1 k 14#5 0#5 a d 48#6 0#2
  simp only [encode]
  generalize (0#1 ++ k ++ 14#5 ++ 0#5 ++ a ++ d ++ 48#6 ++ 0#2 : BitVec 32) = p0 at u0 ⊢
  obtain ⟨h0a, h0b, h0c, h0d, h0e, h0f, h0g, h0h⟩ := u0
  rw [decode_major30 p0 h0g h0h]
  simp only [decodeMajor30, minField, h0a, h0b, h0c, h0d, h0e, h0f, reserved, limit, reservedUnless, field_whole, BitVec.toNat_ofNat, Nat.reduceMod,
    Nat.reducePow, if_true, BitVec.ofNat_eq_ofNat]
  try rfl

/-- VNEG. -/
theorem Roundtrip.vneg (k : MReg) (d : VReg) (a : VReg) : Roundtrip.Statement (.vneg k d a) := by
  intro hw _
  have u0 := fields_1_3_5_5_5_5_6_2 0#1 k 15#5 0#5 a d 48#6 0#2
  simp only [encode]
  generalize (0#1 ++ k ++ 15#5 ++ 0#5 ++ a ++ d ++ 48#6 ++ 0#2 : BitVec 32) = p0 at u0 ⊢
  obtain ⟨h0a, h0b, h0c, h0d, h0e, h0f, h0g, h0h⟩ := u0
  rw [decode_major30 p0 h0g h0h]
  simp only [decodeMajor30, minField, h0a, h0b, h0c, h0d, h0e, h0f, reserved, limit, reservedUnless, field_whole, BitVec.toNat_ofNat, Nat.reduceMod,
    Nat.reducePow, if_true, BitVec.ofNat_eq_ofNat]
  try rfl

/-- VSQRT. -/
theorem Roundtrip.vsqrt (k : MReg) (d : VReg) (a : VReg) : Roundtrip.Statement (.vsqrt k d a) := by
  intro hw _
  have u0 := fields_1_3_5_5_5_5_6_2 0#1 k 16#5 0#5 a d 48#6 0#2
  simp only [encode]
  generalize (0#1 ++ k ++ 16#5 ++ 0#5 ++ a ++ d ++ 48#6 ++ 0#2 : BitVec 32) = p0 at u0 ⊢
  obtain ⟨h0a, h0b, h0c, h0d, h0e, h0f, h0g, h0h⟩ := u0
  rw [decode_major30 p0 h0g h0h]
  simp only [decodeMajor30, minField, h0a, h0b, h0c, h0d, h0e, h0f, reserved, limit, reservedUnless, field_whole, BitVec.toNat_ofNat, Nat.reduceMod,
    Nat.reducePow, if_true, BitVec.ofNat_eq_ofNat]
  try rfl

/-- VRCP. -/
theorem Roundtrip.vrcp (k : MReg) (d : VReg) (a : VReg) : Roundtrip.Statement (.vrcp k d a) := by
  intro hw _
  have u0 := fields_1_3_5_5_5_5_6_2 0#1 k 17#5 0#5 a d 48#6 0#2
  simp only [encode]
  generalize (0#1 ++ k ++ 17#5 ++ 0#5 ++ a ++ d ++ 48#6 ++ 0#2 : BitVec 32) = p0 at u0 ⊢
  obtain ⟨h0a, h0b, h0c, h0d, h0e, h0f, h0g, h0h⟩ := u0
  rw [decode_major30 p0 h0g h0h]
  simp only [decodeMajor30, minField, h0a, h0b, h0c, h0d, h0e, h0f, reserved, limit, reservedUnless, field_whole, BitVec.toNat_ofNat, Nat.reduceMod,
    Nat.reducePow, if_true, BitVec.ofNat_eq_ofNat]
  try rfl

/-- VRSQ. -/
theorem Roundtrip.vrsq (k : MReg) (d : VReg) (a : VReg) : Roundtrip.Statement (.vrsq k d a) := by
  intro hw _
  have u0 := fields_1_3_5_5_5_5_6_2 0#1 k 18#5 0#5 a d 48#6 0#2
  simp only [encode]
  generalize (0#1 ++ k ++ 18#5 ++ 0#5 ++ a ++ d ++ 48#6 ++ 0#2 : BitVec 32) = p0 at u0 ⊢
  obtain ⟨h0a, h0b, h0c, h0d, h0e, h0f, h0g, h0h⟩ := u0
  rw [decode_major30 p0 h0g h0h]
  simp only [decodeMajor30, minField, h0a, h0b, h0c, h0d, h0e, h0f, reserved, limit, reservedUnless, field_whole, BitVec.toNat_ofNat, Nat.reduceMod,
    Nat.reducePow, if_true, BitVec.ofNat_eq_ofNat]
  try rfl

/-- VEXP2. -/
theorem Roundtrip.vexp2 (k : MReg) (d : VReg) (a : VReg) : Roundtrip.Statement (.vexp2 k d a) := by
  intro hw _
  have u0 := fields_1_3_5_5_5_5_6_2 0#1 k 19#5 0#5 a d 48#6 0#2
  simp only [encode]
  generalize (0#1 ++ k ++ 19#5 ++ 0#5 ++ a ++ d ++ 48#6 ++ 0#2 : BitVec 32) = p0 at u0 ⊢
  obtain ⟨h0a, h0b, h0c, h0d, h0e, h0f, h0g, h0h⟩ := u0
  rw [decode_major30 p0 h0g h0h]
  simp only [decodeMajor30, minField, h0a, h0b, h0c, h0d, h0e, h0f, reserved, limit, reservedUnless, field_whole, BitVec.toNat_ofNat, Nat.reduceMod,
    Nat.reducePow, if_true, BitVec.ofNat_eq_ofNat]
  try rfl

/-- VLOG2. -/
theorem Roundtrip.vlog2 (k : MReg) (d : VReg) (a : VReg) : Roundtrip.Statement (.vlog2 k d a) := by
  intro hw _
  have u0 := fields_1_3_5_5_5_5_6_2 0#1 k 20#5 0#5 a d 48#6 0#2
  simp only [encode]
  generalize (0#1 ++ k ++ 20#5 ++ 0#5 ++ a ++ d ++ 48#6 ++ 0#2 : BitVec 32) = p0 at u0 ⊢
  obtain ⟨h0a, h0b, h0c, h0d, h0e, h0f, h0g, h0h⟩ := u0
  rw [decode_major30 p0 h0g h0h]
  simp only [decodeMajor30, minField, h0a, h0b, h0c, h0d, h0e, h0f, reserved, limit, reservedUnless, field_whole, BitVec.toNat_ofNat, Nat.reduceMod,
    Nat.reducePow, if_true, BitVec.ofNat_eq_ofNat]
  try rfl

/-- VTANH. -/
theorem Roundtrip.vtanh (k : MReg) (d : VReg) (a : VReg) : Roundtrip.Statement (.vtanh k d a) := by
  intro hw _
  have u0 := fields_1_3_5_5_5_5_6_2 0#1 k 21#5 0#5 a d 48#6 0#2
  simp only [encode]
  generalize (0#1 ++ k ++ 21#5 ++ 0#5 ++ a ++ d ++ 48#6 ++ 0#2 : BitVec 32) = p0 at u0 ⊢
  obtain ⟨h0a, h0b, h0c, h0d, h0e, h0f, h0g, h0h⟩ := u0
  rw [decode_major30 p0 h0g h0h]
  simp only [decodeMajor30, minField, h0a, h0b, h0c, h0d, h0e, h0f, reserved, limit, reservedUnless, field_whole, BitVec.toNat_ofNat, Nat.reduceMod,
    Nat.reducePow, if_true, BitVec.ofNat_eq_ofNat]
  try rfl

/-- VSIGM. -/
theorem Roundtrip.vsigm (k : MReg) (d : VReg) (a : VReg) : Roundtrip.Statement (.vsigm k d a) := by
  intro hw _
  have u0 := fields_1_3_5_5_5_5_6_2 0#1 k 22#5 0#5 a d 48#6 0#2
  simp only [encode]
  generalize (0#1 ++ k ++ 22#5 ++ 0#5 ++ a ++ d ++ 48#6 ++ 0#2 : BitVec 32) = p0 at u0 ⊢
  obtain ⟨h0a, h0b, h0c, h0d, h0e, h0f, h0g, h0h⟩ := u0
  rw [decode_major30 p0 h0g h0h]
  simp only [decodeMajor30, minField, h0a, h0b, h0c, h0d, h0e, h0f, reserved, limit, reservedUnless, field_whole, BitVec.toNat_ofNat, Nat.reduceMod,
    Nat.reducePow, if_true, BitVec.ofNat_eq_ofNat]
  try rfl

/-- VMOV. -/
theorem Roundtrip.vmov (k : MReg) (d : VReg) (a : VReg) : Roundtrip.Statement (.vmov k d a) := by
  intro hw _
  have u0 := fields_1_3_5_5_5_5_6_2 0#1 k 23#5 0#5 a d 48#6 0#2
  simp only [encode]
  generalize (0#1 ++ k ++ 23#5 ++ 0#5 ++ a ++ d ++ 48#6 ++ 0#2 : BitVec 32) = p0 at u0 ⊢
  obtain ⟨h0a, h0b, h0c, h0d, h0e, h0f, h0g, h0h⟩ := u0
  rw [decode_major30 p0 h0g h0h]
  simp only [decodeMajor30, minField, h0a, h0b, h0c, h0d, h0e, h0f, reserved, limit, reservedUnless, field_whole, BitVec.toNat_ofNat, Nat.reduceMod,
    Nat.reducePow, if_true, BitVec.ofNat_eq_ofNat]
  try rfl

/-- VCEQ. -/
theorem Roundtrip.vceq (xs : BitVec 1) (k : MReg) (d : MReg) (a : VReg) (b : BitVec 5) : Roundtrip.Statement (.vceq xs k d a b) := by
  intro hw _
  have u0 := fields_1_3_5_5_5_2_3_6_2 xs k 0#5 b a 0#2 d 49#6 0#2
  simp only [encode]
  generalize (xs ++ k ++ 0#5 ++ b ++ a ++ 0#2 ++ d ++ 49#6 ++ 0#2 : BitVec 32) = p0 at u0 ⊢
  obtain ⟨h0a, h0b, h0c, h0d, h0e, h0f, h0g, h0h, h0i⟩ := u0
  rw [decode_major31 p0 h0h h0i]
  simp only [decodeMajor31, minField, h0a, h0b, h0c, h0d, h0e, h0f, h0g, reserved, limit, reservedUnless, field_whole, BitVec.toNat_ofNat, Nat.reduceMod,
    Nat.reducePow, if_true, BitVec.ofNat_eq_ofNat]
  try rfl

/-- VCNE. -/
theorem Roundtrip.vcne (xs : BitVec 1) (k : MReg) (d : MReg) (a : VReg) (b : BitVec 5) : Roundtrip.Statement (.vcne xs k d a b) := by
  intro hw _
  have u0 := fields_1_3_5_5_5_2_3_6_2 xs k 1#5 b a 0#2 d 49#6 0#2
  simp only [encode]
  generalize (xs ++ k ++ 1#5 ++ b ++ a ++ 0#2 ++ d ++ 49#6 ++ 0#2 : BitVec 32) = p0 at u0 ⊢
  obtain ⟨h0a, h0b, h0c, h0d, h0e, h0f, h0g, h0h, h0i⟩ := u0
  rw [decode_major31 p0 h0h h0i]
  simp only [decodeMajor31, minField, h0a, h0b, h0c, h0d, h0e, h0f, h0g, reserved, limit, reservedUnless, field_whole, BitVec.toNat_ofNat, Nat.reduceMod,
    Nat.reducePow, if_true, BitVec.ofNat_eq_ofNat]
  try rfl

/-- VCLT. -/
theorem Roundtrip.vclt (xs : BitVec 1) (k : MReg) (d : MReg) (a : VReg) (b : BitVec 5) : Roundtrip.Statement (.vclt xs k d a b) := by
  intro hw _
  have u0 := fields_1_3_5_5_5_2_3_6_2 xs k 2#5 b a 0#2 d 49#6 0#2
  simp only [encode]
  generalize (xs ++ k ++ 2#5 ++ b ++ a ++ 0#2 ++ d ++ 49#6 ++ 0#2 : BitVec 32) = p0 at u0 ⊢
  obtain ⟨h0a, h0b, h0c, h0d, h0e, h0f, h0g, h0h, h0i⟩ := u0
  rw [decode_major31 p0 h0h h0i]
  simp only [decodeMajor31, minField, h0a, h0b, h0c, h0d, h0e, h0f, h0g, reserved, limit, reservedUnless, field_whole, BitVec.toNat_ofNat, Nat.reduceMod,
    Nat.reducePow, if_true, BitVec.ofNat_eq_ofNat]
  try rfl

/-- VCLE. -/
theorem Roundtrip.vcle (xs : BitVec 1) (k : MReg) (d : MReg) (a : VReg) (b : BitVec 5) : Roundtrip.Statement (.vcle xs k d a b) := by
  intro hw _
  have u0 := fields_1_3_5_5_5_2_3_6_2 xs k 3#5 b a 0#2 d 49#6 0#2
  simp only [encode]
  generalize (xs ++ k ++ 3#5 ++ b ++ a ++ 0#2 ++ d ++ 49#6 ++ 0#2 : BitVec 32) = p0 at u0 ⊢
  obtain ⟨h0a, h0b, h0c, h0d, h0e, h0f, h0g, h0h, h0i⟩ := u0
  rw [decode_major31 p0 h0h h0i]
  simp only [decodeMajor31, minField, h0a, h0b, h0c, h0d, h0e, h0f, h0g, reserved, limit, reservedUnless, field_whole, BitVec.toNat_ofNat, Nat.reduceMod,
    Nat.reducePow, if_true, BitVec.ofNat_eq_ofNat]
  try rfl

/-- VCGT. -/
theorem Roundtrip.vcgt (xs : BitVec 1) (k : MReg) (d : MReg) (a : VReg) (b : BitVec 5) : Roundtrip.Statement (.vcgt xs k d a b) := by
  intro hw _
  have u0 := fields_1_3_5_5_5_2_3_6_2 xs k 4#5 b a 0#2 d 49#6 0#2
  simp only [encode]
  generalize (xs ++ k ++ 4#5 ++ b ++ a ++ 0#2 ++ d ++ 49#6 ++ 0#2 : BitVec 32) = p0 at u0 ⊢
  obtain ⟨h0a, h0b, h0c, h0d, h0e, h0f, h0g, h0h, h0i⟩ := u0
  rw [decode_major31 p0 h0h h0i]
  simp only [decodeMajor31, minField, h0a, h0b, h0c, h0d, h0e, h0f, h0g, reserved, limit, reservedUnless, field_whole, BitVec.toNat_ofNat, Nat.reduceMod,
    Nat.reducePow, if_true, BitVec.ofNat_eq_ofNat]
  try rfl

/-- VCGE. -/
theorem Roundtrip.vcge (xs : BitVec 1) (k : MReg) (d : MReg) (a : VReg) (b : BitVec 5) : Roundtrip.Statement (.vcge xs k d a b) := by
  intro hw _
  have u0 := fields_1_3_5_5_5_2_3_6_2 xs k 5#5 b a 0#2 d 49#6 0#2
  simp only [encode]
  generalize (xs ++ k ++ 5#5 ++ b ++ a ++ 0#2 ++ d ++ 49#6 ++ 0#2 : BitVec 32) = p0 at u0 ⊢
  obtain ⟨h0a, h0b, h0c, h0d, h0e, h0f, h0g, h0h, h0i⟩ := u0
  rw [decode_major31 p0 h0h h0i]
  simp only [decodeMajor31, minField, h0a, h0b, h0c, h0d, h0e, h0f, h0g, reserved, limit, reservedUnless, field_whole, BitVec.toNat_ofNat, Nat.reduceMod,
    Nat.reducePow, if_true, BitVec.ofNat_eq_ofNat]
  try rfl

/-- MAND. -/
theorem Roundtrip.mand (d : MReg) (a : MReg) (b : MReg) : Roundtrip.Statement (.mand d a b) := by
  intro hw _
  have u0 := fields_4_5_2_3_2_3_2_3_6_2 0#4 6#5 0#2 b 0#2 a 0#2 d 49#6 0#2
  simp only [encode]
  generalize (0#4 ++ 6#5 ++ 0#2 ++ b ++ 0#2 ++ a ++ 0#2 ++ d ++ 49#6 ++ 0#2 : BitVec 32) = p0 at u0 ⊢
  obtain ⟨h0a, h0b, h0c, h0d, h0e, h0f, h0g, h0h, h0i, h0j⟩ := u0
  rw [decode_major31 p0 h0i h0j]
  simp only [decodeMajor31, minField, h0a, h0b, h0c, h0d, h0e, h0f, h0g, h0h, reserved, limit, reservedUnless, field_whole, BitVec.toNat_ofNat, Nat.reduceMod,
    Nat.reducePow, if_true, BitVec.ofNat_eq_ofNat]
  try rfl

/-- MOR. -/
theorem Roundtrip.mor (d : MReg) (a : MReg) (b : MReg) : Roundtrip.Statement (.mor d a b) := by
  intro hw _
  have u0 := fields_4_5_2_3_2_3_2_3_6_2 0#4 7#5 0#2 b 0#2 a 0#2 d 49#6 0#2
  simp only [encode]
  generalize (0#4 ++ 7#5 ++ 0#2 ++ b ++ 0#2 ++ a ++ 0#2 ++ d ++ 49#6 ++ 0#2 : BitVec 32) = p0 at u0 ⊢
  obtain ⟨h0a, h0b, h0c, h0d, h0e, h0f, h0g, h0h, h0i, h0j⟩ := u0
  rw [decode_major31 p0 h0i h0j]
  simp only [decodeMajor31, minField, h0a, h0b, h0c, h0d, h0e, h0f, h0g, h0h, reserved, limit, reservedUnless, field_whole, BitVec.toNat_ofNat, Nat.reduceMod,
    Nat.reducePow, if_true, BitVec.ofNat_eq_ofNat]
  try rfl

/-- MXOR. -/
theorem Roundtrip.mxor (d : MReg) (a : MReg) (b : MReg) : Roundtrip.Statement (.mxor d a b) := by
  intro hw _
  have u0 := fields_4_5_2_3_2_3_2_3_6_2 0#4 8#5 0#2 b 0#2 a 0#2 d 49#6 0#2
  simp only [encode]
  generalize (0#4 ++ 8#5 ++ 0#2 ++ b ++ 0#2 ++ a ++ 0#2 ++ d ++ 49#6 ++ 0#2 : BitVec 32) = p0 at u0 ⊢
  obtain ⟨h0a, h0b, h0c, h0d, h0e, h0f, h0g, h0h, h0i, h0j⟩ := u0
  rw [decode_major31 p0 h0i h0j]
  simp only [decodeMajor31, minField, h0a, h0b, h0c, h0d, h0e, h0f, h0g, h0h, reserved, limit, reservedUnless, field_whole, BitVec.toNat_ofNat, Nat.reduceMod,
    Nat.reducePow, if_true, BitVec.ofNat_eq_ofNat]
  try rfl

/-- MNOT. -/
theorem Roundtrip.mnot (d : MReg) (a : MReg) : Roundtrip.Statement (.mnot d a) := by
  intro hw _
  have u0 := fields_4_5_7_3_2_3_6_2 0#4 9#5 0#7 a 0#2 d 49#6 0#2
  simp only [encode]
  generalize (0#4 ++ 9#5 ++ 0#7 ++ a ++ 0#2 ++ d ++ 49#6 ++ 0#2 : BitVec 32) = p0 at u0 ⊢
  obtain ⟨h0a, h0b, h0c, h0d, h0e, h0f, h0g, h0h⟩ := u0
  rw [decode_major31 p0 h0g h0h]
  simp only [decodeMajor31, minField, h0a, h0b, h0c, h0d, h0e, h0f, reserved, limit, reservedUnless, field_whole, BitVec.toNat_ofNat, Nat.reduceMod,
    Nat.reducePow, if_true, BitVec.ofNat_eq_ofNat]
  try rfl

/-- VMERGE. -/
theorem Roundtrip.vmerge (xs : BitVec 1) (k : MReg) (d : VReg) (a : VReg) (b : BitVec 5) : Roundtrip.Statement (.vmerge xs k d a b) := by
  intro hw _
  have u0 := fields_1_3_5_5_5_5_6_2 xs k 10#5 b a d 49#6 0#2
  simp only [encode]
  generalize (xs ++ k ++ 10#5 ++ b ++ a ++ d ++ 49#6 ++ 0#2 : BitVec 32) = p0 at u0 ⊢
  obtain ⟨h0a, h0b, h0c, h0d, h0e, h0f, h0g, h0h⟩ := u0
  rw [decode_major31 p0 h0g h0h]
  simp only [decodeMajor31, minField, h0a, h0b, h0c, h0d, h0e, h0f, reserved, limit, reservedUnless, field_whole, BitVec.toNat_ofNat, Nat.reduceMod,
    Nat.reducePow, if_true, BitVec.ofNat_eq_ofNat]
  try rfl

/-- VCVT. -/
theorem Roundtrip.vcvt (k : MReg) (d : VReg) (a : VReg) : Roundtrip.Statement (.vcvt k d a) := by
  intro hw _
  have u0 := fields_1_3_5_5_5_5_6_2 0#1 k 0#5 0#5 a d 50#6 0#2
  simp only [encode]
  generalize (0#1 ++ k ++ 0#5 ++ 0#5 ++ a ++ d ++ 50#6 ++ 0#2 : BitVec 32) = p0 at u0 ⊢
  obtain ⟨h0a, h0b, h0c, h0d, h0e, h0f, h0g, h0h⟩ := u0
  rw [decode_major32 p0 h0g h0h]
  simp only [decodeMajor32, minField, h0a, h0b, h0c, h0d, h0e, h0f, reserved, limit, reservedUnless, field_whole, BitVec.toNat_ofNat, Nat.reduceMod,
    Nat.reducePow, if_true, BitVec.ofNat_eq_ofNat]
  try rfl

/-- VQNT. -/
theorem Roundtrip.vqnt (k : MReg) (d : VReg) (a : VReg) : Roundtrip.Statement (.vqnt k d a) := by
  intro hw _
  have u0 := fields_1_3_5_5_5_5_6_2 0#1 k 1#5 0#5 a d 50#6 0#2
  simp only [encode]
  generalize (0#1 ++ k ++ 1#5 ++ 0#5 ++ a ++ d ++ 50#6 ++ 0#2 : BitVec 32) = p0 at u0 ⊢
  obtain ⟨h0a, h0b, h0c, h0d, h0e, h0f, h0g, h0h⟩ := u0
  rw [decode_major32 p0 h0g h0h]
  simp only [decodeMajor32, minField, h0a, h0b, h0c, h0d, h0e, h0f, reserved, limit, reservedUnless, field_whole, BitVec.toNat_ofNat, Nat.reduceMod,
    Nat.reducePow, if_true, BitVec.ofNat_eq_ofNat]
  try rfl

/-- VHAD. -/
theorem Roundtrip.vhad (d : VReg) (a : VReg) (b : BitVec 5) : Roundtrip.Statement (.vhad d a b) := by
  intro hw _
  have u0 := fields_4_5_5_5_5_6_2 0#4 2#5 b a d 50#6 0#2
  simp only [encode]
  generalize (0#4 ++ 2#5 ++ b ++ a ++ d ++ 50#6 ++ 0#2 : BitVec 32) = p0 at u0 ⊢
  obtain ⟨h0a, h0b, h0c, h0d, h0e, h0f, h0g⟩ := u0
  rw [decode_major32 p0 h0f h0g]
  simp only [Instr.wf, Bool.and_eq_true, BitVec.ofNat_eq_ofNat] at hw
  simp only [decodeMajor32, minField, h0a, h0b, h0c, h0d, h0e, hw, reserved, limit, reservedUnless, field_whole, BitVec.toNat_ofNat, Nat.reduceMod,
    Nat.reducePow, if_true, BitVec.ofNat_eq_ofNat]
  try rfl

/-- VTAG. -/
theorem Roundtrip.vtag (sc : BitVec 1) (blk : BitVec 3) (bank : BitVec 2) (type : BitVec 6) (d : VReg) : Roundtrip.Statement (.vtag sc blk bank type d) := by
  intro hw _
  have u0 := fields_7_1_3_2_6_5_6_2 0#7 sc blk bank type d 51#6 0#2
  simp only [encode]
  generalize (0#7 ++ sc ++ blk ++ bank ++ type ++ d ++ 51#6 ++ 0#2 : BitVec 32) = p0 at u0 ⊢
  obtain ⟨h0a, h0b, h0c, h0d, h0e, h0f, h0g, h0h⟩ := u0
  rw [decode_major33 p0 h0g h0h]
  simp only [decodeMajor33, minField, h0a, h0b, h0c, h0d, h0e, h0f, reserved, limit, reservedUnless, field_whole, BitVec.toNat_ofNat, Nat.reduceMod,
    Nat.reducePow, if_true, BitVec.ofNat_eq_ofNat]
  try rfl

/-- VCONF. -/
theorem Roundtrip.vconf (wid : BitVec 3) (sat : BitVec 2) (rm : BitVec 2) (grp : BitVec 3) (d : SReg) (a : SReg) : Roundtrip.Statement (.vconf wid sat rm grp d a) := by
  intro hw _
  have u0 := fields_4_3_2_2_3_5_5_6_2 0#4 wid sat rm grp a d 52#6 0#2
  simp only [encode]
  generalize (0#4 ++ wid ++ sat ++ rm ++ grp ++ a ++ d ++ 52#6 ++ 0#2 : BitVec 32) = p0 at u0 ⊢
  obtain ⟨h0a, h0b, h0c, h0d, h0e, h0f, h0g, h0h, h0i⟩ := u0
  rw [decode_major34 p0 h0h h0i]
  simp only [decodeMajor34, minField, h0a, h0b, h0c, h0d, h0e, h0f, h0g, reserved, limit, reservedUnless, field_whole, BitVec.toNat_ofNat, Nat.reduceMod,
    Nat.reducePow, if_true, BitVec.ofNat_eq_ofNat]
  try rfl

/-- VCONF_R. -/
theorem Roundtrip.vconfR (d : SReg) (a : SReg) (b : SReg) : Roundtrip.Statement (.vconfR d a b) := by
  intro hw _
  have u0 := fields_9_5_5_5_6_2 0#9 b a d 53#6 0#2
  simp only [encode]
  generalize (0#9 ++ b ++ a ++ d ++ 53#6 ++ 0#2 : BitVec 32) = p0 at u0 ⊢
  obtain ⟨h0a, h0b, h0c, h0d, h0e, h0f⟩ := u0
  rw [decode_major35 p0 h0e h0f]
  simp only [decodeMajor35, minField, h0a, h0b, h0c, h0d, reserved, limit, reservedUnless, field_whole, BitVec.toNat_ofNat, Nat.reduceMod,
    Nat.reducePow, if_true, BitVec.ofNat_eq_ofNat]
  try rfl

/-- VLD. -/
theorem Roundtrip.vld (k : MReg) (d : VReg) (a : SReg) : Roundtrip.Statement (.vld k d a) := by
  intro hw _
  have u0 := fields_1_3_5_5_5_5_6_2 0#1 k 0#5 0#5 a d 54#6 0#2
  simp only [encode]
  generalize (0#1 ++ k ++ 0#5 ++ 0#5 ++ a ++ d ++ 54#6 ++ 0#2 : BitVec 32) = p0 at u0 ⊢
  obtain ⟨h0a, h0b, h0c, h0d, h0e, h0f, h0g, h0h⟩ := u0
  rw [decode_major36 p0 h0g h0h]
  simp only [decodeMajor36, minField, h0a, h0b, h0c, h0d, h0e, h0f, reserved, limit, reservedUnless, field_whole, BitVec.toNat_ofNat, Nat.reduceMod,
    Nat.reducePow, if_true, BitVec.ofNat_eq_ofNat]
  try rfl

/-- VST. -/
theorem Roundtrip.vst (k : MReg) (d : VReg) (a : SReg) : Roundtrip.Statement (.vst k d a) := by
  intro hw _
  have u0 := fields_1_3_5_5_5_5_6_2 0#1 k 1#5 0#5 a d 54#6 0#2
  simp only [encode]
  generalize (0#1 ++ k ++ 1#5 ++ 0#5 ++ a ++ d ++ 54#6 ++ 0#2 : BitVec 32) = p0 at u0 ⊢
  obtain ⟨h0a, h0b, h0c, h0d, h0e, h0f, h0g, h0h⟩ := u0
  rw [decode_major36 p0 h0g h0h]
  simp only [decodeMajor36, minField, h0a, h0b, h0c, h0d, h0e, h0f, reserved, limit, reservedUnless, field_whole, BitVec.toNat_ofNat, Nat.reduceMod,
    Nat.reducePow, if_true, BitVec.ofNat_eq_ofNat]
  try rfl

/-- VLDS. -/
theorem Roundtrip.vlds (k : MReg) (d : VReg) (a : SReg) (b : SReg) : Roundtrip.Statement (.vlds k d a b) := by
  intro hw _
  have u0 := fields_1_3_5_5_5_5_6_2 0#1 k 2#5 b a d 54#6 0#2
  simp only [encode]
  generalize (0#1 ++ k ++ 2#5 ++ b ++ a ++ d ++ 54#6 ++ 0#2 : BitVec 32) = p0 at u0 ⊢
  obtain ⟨h0a, h0b, h0c, h0d, h0e, h0f, h0g, h0h⟩ := u0
  rw [decode_major36 p0 h0g h0h]
  simp only [decodeMajor36, minField, h0a, h0b, h0c, h0d, h0e, h0f, reserved, limit, reservedUnless, field_whole, BitVec.toNat_ofNat, Nat.reduceMod,
    Nat.reducePow, if_true, BitVec.ofNat_eq_ofNat]
  try rfl

/-- VSTS. -/
theorem Roundtrip.vsts (k : MReg) (d : VReg) (a : SReg) (b : SReg) : Roundtrip.Statement (.vsts k d a b) := by
  intro hw _
  have u0 := fields_1_3_5_5_5_5_6_2 0#1 k 3#5 b a d 54#6 0#2
  simp only [encode]
  generalize (0#1 ++ k ++ 3#5 ++ b ++ a ++ d ++ 54#6 ++ 0#2 : BitVec 32) = p0 at u0 ⊢
  obtain ⟨h0a, h0b, h0c, h0d, h0e, h0f, h0g, h0h⟩ := u0
  rw [decode_major36 p0 h0g h0h]
  simp only [decodeMajor36, minField, h0a, h0b, h0c, h0d, h0e, h0f, reserved, limit, reservedUnless, field_whole, BitVec.toNat_ofNat, Nat.reduceMod,
    Nat.reducePow, if_true, BitVec.ofNat_eq_ofNat]
  try rfl

/-- VLDX. -/
theorem Roundtrip.vldx (k : MReg) (d : VReg) (a : SReg) (b : VReg) : Roundtrip.Statement (.vldx k d a b) := by
  intro hw _
  have u0 := fields_1_3_5_5_5_5_6_2 0#1 k 4#5 b a d 54#6 0#2
  simp only [encode]
  generalize (0#1 ++ k ++ 4#5 ++ b ++ a ++ d ++ 54#6 ++ 0#2 : BitVec 32) = p0 at u0 ⊢
  obtain ⟨h0a, h0b, h0c, h0d, h0e, h0f, h0g, h0h⟩ := u0
  rw [decode_major36 p0 h0g h0h]
  simp only [decodeMajor36, minField, h0a, h0b, h0c, h0d, h0e, h0f, reserved, limit, reservedUnless, field_whole, BitVec.toNat_ofNat, Nat.reduceMod,
    Nat.reducePow, if_true, BitVec.ofNat_eq_ofNat]
  try rfl

/-- VLDFF. -/
theorem Roundtrip.vldff (k : MReg) (d : VReg) (a : SReg) : Roundtrip.Statement (.vldff k d a) := by
  intro hw _
  have u0 := fields_1_3_5_5_5_5_6_2 0#1 k 5#5 0#5 a d 54#6 0#2
  simp only [encode]
  generalize (0#1 ++ k ++ 5#5 ++ 0#5 ++ a ++ d ++ 54#6 ++ 0#2 : BitVec 32) = p0 at u0 ⊢
  obtain ⟨h0a, h0b, h0c, h0d, h0e, h0f, h0g, h0h⟩ := u0
  rw [decode_major36 p0 h0g h0h]
  simp only [decodeMajor36, minField, h0a, h0b, h0c, h0d, h0e, h0f, reserved, limit, reservedUnless, field_whole, BitVec.toNat_ofNat, Nat.reduceMod,
    Nat.reducePow, if_true, BitVec.ofNat_eq_ofNat]
  try rfl

/-- VSCADD. -/
theorem Roundtrip.vscadd (k : MReg) (d : VReg) (a : SReg) (b : VReg) : Roundtrip.Statement (.vscadd k d a b) := by
  intro hw _
  have u0 := fields_1_3_5_5_5_5_6_2 0#1 k 6#5 b a d 54#6 0#2
  simp only [encode]
  generalize (0#1 ++ k ++ 6#5 ++ b ++ a ++ d ++ 54#6 ++ 0#2 : BitVec 32) = p0 at u0 ⊢
  obtain ⟨h0a, h0b, h0c, h0d, h0e, h0f, h0g, h0h⟩ := u0
  rw [decode_major36 p0 h0g h0h]
  simp only [decodeMajor36, minField, h0a, h0b, h0c, h0d, h0e, h0f, reserved, limit, reservedUnless, field_whole, BitVec.toNat_ofNat, Nat.reduceMod,
    Nat.reducePow, if_true, BitVec.ofNat_eq_ofNat]
  try rfl

/-- VSPILL. -/
theorem Roundtrip.vspill (d : VReg) (a : SReg) : Roundtrip.Statement (.vspill d a) := by
  intro hw _
  have u0 := fields_4_5_5_5_5_6_2 0#4 7#5 0#5 a d 54#6 0#2
  simp only [encode]
  generalize (0#4 ++ 7#5 ++ 0#5 ++ a ++ d ++ 54#6 ++ 0#2 : BitVec 32) = p0 at u0 ⊢
  obtain ⟨h0a, h0b, h0c, h0d, h0e, h0f, h0g⟩ := u0
  rw [decode_major36 p0 h0f h0g]
  simp only [decodeMajor36, minField, h0a, h0b, h0c, h0d, h0e, reserved, limit, reservedUnless, field_whole, BitVec.toNat_ofNat, Nat.reduceMod,
    Nat.reducePow, if_true, BitVec.ofNat_eq_ofNat]
  try rfl

/-- VRELOAD. -/
theorem Roundtrip.vreload (d : VReg) (a : SReg) : Roundtrip.Statement (.vreload d a) := by
  intro hw _
  have u0 := fields_4_5_5_5_5_6_2 0#4 8#5 0#5 a d 54#6 0#2
  simp only [encode]
  generalize (0#4 ++ 8#5 ++ 0#5 ++ a ++ d ++ 54#6 ++ 0#2 : BitVec 32) = p0 at u0 ⊢
  obtain ⟨h0a, h0b, h0c, h0d, h0e, h0f, h0g⟩ := u0
  rw [decode_major36 p0 h0f h0g]
  simp only [decodeMajor36, minField, h0a, h0b, h0c, h0d, h0e, reserved, limit, reservedUnless, field_whole, BitVec.toNat_ofNat, Nat.reduceMod,
    Nat.reducePow, if_true, BitVec.ofNat_eq_ofNat]
  try rfl

/-- VLENQ. -/
theorem Roundtrip.vlenq (d : SReg) : Roundtrip.Statement (.vlenq d) := by
  intro hw _
  have u0 := fields_4_5_10_5_6_2 0#4 9#5 0#10 d 54#6 0#2
  simp only [encode]
  generalize (0#4 ++ 9#5 ++ 0#10 ++ d ++ 54#6 ++ 0#2 : BitVec 32) = p0 at u0 ⊢
  obtain ⟨h0a, h0b, h0c, h0d, h0e, h0f⟩ := u0
  rw [decode_major36 p0 h0e h0f]
  simp only [decodeMajor36, minField, h0a, h0b, h0c, h0d, reserved, limit, reservedUnless, field_whole, BitVec.toNat_ofNat, Nat.reduceMod,
    Nat.reducePow, if_true, BitVec.ofNat_eq_ofNat]
  try rfl

/-- SCLD. -/
theorem Roundtrip.scld (d : KReg) (a : SReg) (b : SReg) : Roundtrip.Statement (.scld d a b) := by
  intro hw _
  have u0 := fields_4_5_5_5_3_2_6_2 0#4 10#5 b a 0#3 d 54#6 0#2
  simp only [encode]
  generalize (0#4 ++ 10#5 ++ b ++ a ++ 0#3 ++ d ++ 54#6 ++ 0#2 : BitVec 32) = p0 at u0 ⊢
  obtain ⟨h0a, h0b, h0c, h0d, h0e, h0f, h0g, h0h⟩ := u0
  rw [decode_major36 p0 h0g h0h]
  simp only [decodeMajor36, minField, h0a, h0b, h0c, h0d, h0e, h0f, reserved, limit, reservedUnless, field_whole, BitVec.toNat_ofNat, Nat.reduceMod,
    Nat.reducePow, if_true, BitVec.ofNat_eq_ofNat]
  try rfl

/-- VSLIDEUP. -/
theorem Roundtrip.vslideup (k : MReg) (d : VReg) (a : VReg) (b : SReg) : Roundtrip.Statement (.vslideup k d a b) := by
  intro hw _
  have u0 := fields_1_3_5_5_5_5_6_2 0#1 k 0#5 b a d 55#6 0#2
  simp only [encode]
  generalize (0#1 ++ k ++ 0#5 ++ b ++ a ++ d ++ 55#6 ++ 0#2 : BitVec 32) = p0 at u0 ⊢
  obtain ⟨h0a, h0b, h0c, h0d, h0e, h0f, h0g, h0h⟩ := u0
  rw [decode_major37 p0 h0g h0h]
  simp only [decodeMajor37, minField, h0a, h0b, h0c, h0d, h0e, h0f, reserved, limit, reservedUnless, field_whole, BitVec.toNat_ofNat, Nat.reduceMod,
    Nat.reducePow, if_true, BitVec.ofNat_eq_ofNat]
  try rfl

/-- VSLIDEDN. -/
theorem Roundtrip.vslidedn (k : MReg) (d : VReg) (a : VReg) (b : SReg) : Roundtrip.Statement (.vslidedn k d a b) := by
  intro hw _
  have u0 := fields_1_3_5_5_5_5_6_2 0#1 k 1#5 b a d 55#6 0#2
  simp only [encode]
  generalize (0#1 ++ k ++ 1#5 ++ b ++ a ++ d ++ 55#6 ++ 0#2 : BitVec 32) = p0 at u0 ⊢
  obtain ⟨h0a, h0b, h0c, h0d, h0e, h0f, h0g, h0h⟩ := u0
  rw [decode_major37 p0 h0g h0h]
  simp only [decodeMajor37, minField, h0a, h0b, h0c, h0d, h0e, h0f, reserved, limit, reservedUnless, field_whole, BitVec.toNat_ofNat, Nat.reduceMod,
    Nat.reducePow, if_true, BitVec.ofNat_eq_ofNat]
  try rfl

/-- VSHUF. -/
theorem Roundtrip.vshuf (xs : BitVec 1) (k : MReg) (d : VReg) (a : VReg) (b : BitVec 5) : Roundtrip.Statement (.vshuf xs k d a b) := by
  intro hw _
  have u0 := fields_1_3_5_5_5_5_6_2 xs k 2#5 b a d 55#6 0#2
  simp only [encode]
  generalize (xs ++ k ++ 2#5 ++ b ++ a ++ d ++ 55#6 ++ 0#2 : BitVec 32) = p0 at u0 ⊢
  obtain ⟨h0a, h0b, h0c, h0d, h0e, h0f, h0g, h0h⟩ := u0
  rw [decode_major37 p0 h0g h0h]
  simp only [decodeMajor37, minField, h0a, h0b, h0c, h0d, h0e, h0f, reserved, limit, reservedUnless, field_whole, BitVec.toNat_ofNat, Nat.reduceMod,
    Nat.reducePow, if_true, BitVec.ofNat_eq_ofNat]
  try rfl

/-- VCOMPRESS. -/
theorem Roundtrip.vcompress (k : MReg) (d : VReg) (a : VReg) : Roundtrip.Statement (.vcompress k d a) := by
  intro hw _
  have u0 := fields_1_3_5_5_5_5_6_2 0#1 k 3#5 0#5 a d 55#6 0#2
  simp only [encode]
  generalize (0#1 ++ k ++ 3#5 ++ 0#5 ++ a ++ d ++ 55#6 ++ 0#2 : BitVec 32) = p0 at u0 ⊢
  obtain ⟨h0a, h0b, h0c, h0d, h0e, h0f, h0g, h0h⟩ := u0
  rw [decode_major37 p0 h0g h0h]
  simp only [decodeMajor37, minField, h0a, h0b, h0c, h0d, h0e, h0f, reserved, limit, reservedUnless, field_whole, BitVec.toNat_ofNat, Nat.reduceMod,
    Nat.reducePow, if_true, BitVec.ofNat_eq_ofNat]
  try rfl

/-- VSPLAT. -/
theorem Roundtrip.vsplat (k : MReg) (d : VReg) (a : SReg) : Roundtrip.Statement (.vsplat k d a) := by
  intro hw _
  have u0 := fields_1_3_5_5_5_5_6_2 0#1 k 4#5 0#5 a d 55#6 0#2
  simp only [encode]
  generalize (0#1 ++ k ++ 4#5 ++ 0#5 ++ a ++ d ++ 55#6 ++ 0#2 : BitVec 32) = p0 at u0 ⊢
  obtain ⟨h0a, h0b, h0c, h0d, h0e, h0f, h0g, h0h⟩ := u0
  rw [decode_major37 p0 h0g h0h]
  simp only [decodeMajor37, minField, h0a, h0b, h0c, h0d, h0e, h0f, reserved, limit, reservedUnless, field_whole, BitVec.toNat_ofNat, Nat.reduceMod,
    Nat.reducePow, if_true, BitVec.ofNat_eq_ofNat]
  try rfl

/-- VINS. -/
theorem Roundtrip.vins (d : VReg) (a : SReg) (b : SReg) : Roundtrip.Statement (.vins d a b) := by
  intro hw _
  have u0 := fields_4_5_5_5_5_6_2 0#4 5#5 b a d 55#6 0#2
  simp only [encode]
  generalize (0#4 ++ 5#5 ++ b ++ a ++ d ++ 55#6 ++ 0#2 : BitVec 32) = p0 at u0 ⊢
  obtain ⟨h0a, h0b, h0c, h0d, h0e, h0f, h0g⟩ := u0
  rw [decode_major37 p0 h0f h0g]
  simp only [decodeMajor37, minField, h0a, h0b, h0c, h0d, h0e, reserved, limit, reservedUnless, field_whole, BitVec.toNat_ofNat, Nat.reduceMod,
    Nat.reducePow, if_true, BitVec.ofNat_eq_ofNat]
  try rfl

/-- VEXT. -/
theorem Roundtrip.vext (d : SReg) (a : VReg) (b : SReg) : Roundtrip.Statement (.vext d a b) := by
  intro hw _
  have u0 := fields_4_5_5_5_5_6_2 0#4 6#5 b a d 55#6 0#2
  simp only [encode]
  generalize (0#4 ++ 6#5 ++ b ++ a ++ d ++ 55#6 ++ 0#2 : BitVec 32) = p0 at u0 ⊢
  obtain ⟨h0a, h0b, h0c, h0d, h0e, h0f, h0g⟩ := u0
  rw [decode_major37 p0 h0f h0g]
  simp only [decodeMajor37, minField, h0a, h0b, h0c, h0d, h0e, reserved, limit, reservedUnless, field_whole, BitVec.toNat_ofNat, Nat.reduceMod,
    Nat.reducePow, if_true, BitVec.ofNat_eq_ofNat]
  try rfl

/-- VRED_SUM. -/
theorem Roundtrip.vredSum (k : MReg) (d : VReg) (a : VReg) : Roundtrip.Statement (.vredSum k d a) := by
  intro hw _
  have u0 := fields_1_3_5_5_5_5_6_2 0#1 k 0#5 0#5 a d 56#6 0#2
  simp only [encode]
  generalize (0#1 ++ k ++ 0#5 ++ 0#5 ++ a ++ d ++ 56#6 ++ 0#2 : BitVec 32) = p0 at u0 ⊢
  obtain ⟨h0a, h0b, h0c, h0d, h0e, h0f, h0g, h0h⟩ := u0
  rw [decode_major38 p0 h0g h0h]
  simp only [decodeMajor38, minField, h0a, h0b, h0c, h0d, h0e, h0f, reserved, limit, reservedUnless, field_whole, BitVec.toNat_ofNat, Nat.reduceMod,
    Nat.reducePow, if_true, BitVec.ofNat_eq_ofNat]
  try rfl

/-- VRED_MIN. -/
theorem Roundtrip.vredMin (k : MReg) (d : VReg) (a : VReg) : Roundtrip.Statement (.vredMin k d a) := by
  intro hw _
  have u0 := fields_1_3_5_5_5_5_6_2 0#1 k 1#5 0#5 a d 56#6 0#2
  simp only [encode]
  generalize (0#1 ++ k ++ 1#5 ++ 0#5 ++ a ++ d ++ 56#6 ++ 0#2 : BitVec 32) = p0 at u0 ⊢
  obtain ⟨h0a, h0b, h0c, h0d, h0e, h0f, h0g, h0h⟩ := u0
  rw [decode_major38 p0 h0g h0h]
  simp only [decodeMajor38, minField, h0a, h0b, h0c, h0d, h0e, h0f, reserved, limit, reservedUnless, field_whole, BitVec.toNat_ofNat, Nat.reduceMod,
    Nat.reducePow, if_true, BitVec.ofNat_eq_ofNat]
  try rfl

/-- VRED_MAX. -/
theorem Roundtrip.vredMax (k : MReg) (d : VReg) (a : VReg) : Roundtrip.Statement (.vredMax k d a) := by
  intro hw _
  have u0 := fields_1_3_5_5_5_5_6_2 0#1 k 2#5 0#5 a d 56#6 0#2
  simp only [encode]
  generalize (0#1 ++ k ++ 2#5 ++ 0#5 ++ a ++ d ++ 56#6 ++ 0#2 : BitVec 32) = p0 at u0 ⊢
  obtain ⟨h0a, h0b, h0c, h0d, h0e, h0f, h0g, h0h⟩ := u0
  rw [decode_major38 p0 h0g h0h]
  simp only [decodeMajor38, minField, h0a, h0b, h0c, h0d, h0e, h0f, reserved, limit, reservedUnless, field_whole, BitVec.toNat_ofNat, Nat.reduceMod,
    Nat.reducePow, if_true, BitVec.ofNat_eq_ofNat]
  try rfl

/-- VRED_AND. -/
theorem Roundtrip.vredAnd (k : MReg) (d : VReg) (a : VReg) : Roundtrip.Statement (.vredAnd k d a) := by
  intro hw _
  have u0 := fields_1_3_5_5_5_5_6_2 0#1 k 3#5 0#5 a d 56#6 0#2
  simp only [encode]
  generalize (0#1 ++ k ++ 3#5 ++ 0#5 ++ a ++ d ++ 56#6 ++ 0#2 : BitVec 32) = p0 at u0 ⊢
  obtain ⟨h0a, h0b, h0c, h0d, h0e, h0f, h0g, h0h⟩ := u0
  rw [decode_major38 p0 h0g h0h]
  simp only [decodeMajor38, minField, h0a, h0b, h0c, h0d, h0e, h0f, reserved, limit, reservedUnless, field_whole, BitVec.toNat_ofNat, Nat.reduceMod,
    Nat.reducePow, if_true, BitVec.ofNat_eq_ofNat]
  try rfl

/-- VRED_OR. -/
theorem Roundtrip.vredOr (k : MReg) (d : VReg) (a : VReg) : Roundtrip.Statement (.vredOr k d a) := by
  intro hw _
  have u0 := fields_1_3_5_5_5_5_6_2 0#1 k 4#5 0#5 a d 56#6 0#2
  simp only [encode]
  generalize (0#1 ++ k ++ 4#5 ++ 0#5 ++ a ++ d ++ 56#6 ++ 0#2 : BitVec 32) = p0 at u0 ⊢
  obtain ⟨h0a, h0b, h0c, h0d, h0e, h0f, h0g, h0h⟩ := u0
  rw [decode_major38 p0 h0g h0h]
  simp only [decodeMajor38, minField, h0a, h0b, h0c, h0d, h0e, h0f, reserved, limit, reservedUnless, field_whole, BitVec.toNat_ofNat, Nat.reduceMod,
    Nat.reducePow, if_true, BitVec.ofNat_eq_ofNat]
  try rfl

/-- VRED_XOR. -/
theorem Roundtrip.vredXor (k : MReg) (d : VReg) (a : VReg) : Roundtrip.Statement (.vredXor k d a) := by
  intro hw _
  have u0 := fields_1_3_5_5_5_5_6_2 0#1 k 5#5 0#5 a d 56#6 0#2
  simp only [encode]
  generalize (0#1 ++ k ++ 5#5 ++ 0#5 ++ a ++ d ++ 56#6 ++ 0#2 : BitVec 32) = p0 at u0 ⊢
  obtain ⟨h0a, h0b, h0c, h0d, h0e, h0f, h0g, h0h⟩ := u0
  rw [decode_major38 p0 h0g h0h]
  simp only [decodeMajor38, minField, h0a, h0b, h0c, h0d, h0e, h0f, reserved, limit, reservedUnless, field_whole, BitVec.toNat_ofNat, Nat.reduceMod,
    Nat.reducePow, if_true, BitVec.ofNat_eq_ofNat]
  try rfl

/-- VRED_MINI. -/
theorem Roundtrip.vredMini (k : MReg) (d : VReg) (a : VReg) : Roundtrip.Statement (.vredMini k d a) := by
  intro hw _
  have u0 := fields_1_3_5_5_5_5_6_2 0#1 k 6#5 0#5 a d 56#6 0#2
  simp only [encode]
  generalize (0#1 ++ k ++ 6#5 ++ 0#5 ++ a ++ d ++ 56#6 ++ 0#2 : BitVec 32) = p0 at u0 ⊢
  obtain ⟨h0a, h0b, h0c, h0d, h0e, h0f, h0g, h0h⟩ := u0
  rw [decode_major38 p0 h0g h0h]
  simp only [decodeMajor38, minField, h0a, h0b, h0c, h0d, h0e, h0f, reserved, limit, reservedUnless, field_whole, BitVec.toNat_ofNat, Nat.reduceMod,
    Nat.reducePow, if_true, BitVec.ofNat_eq_ofNat]
  try rfl

/-- VRED_MAXI. -/
theorem Roundtrip.vredMaxi (k : MReg) (d : VReg) (a : VReg) : Roundtrip.Statement (.vredMaxi k d a) := by
  intro hw _
  have u0 := fields_1_3_5_5_5_5_6_2 0#1 k 7#5 0#5 a d 56#6 0#2
  simp only [encode]
  generalize (0#1 ++ k ++ 7#5 ++ 0#5 ++ a ++ d ++ 56#6 ++ 0#2 : BitVec 32) = p0 at u0 ⊢
  obtain ⟨h0a, h0b, h0c, h0d, h0e, h0f, h0g, h0h⟩ := u0
  rw [decode_major38 p0 h0g h0h]
  simp only [decodeMajor38, minField, h0a, h0b, h0c, h0d, h0e, h0f, reserved, limit, reservedUnless, field_whole, BitVec.toNat_ofNat, Nat.reduceMod,
    Nat.reducePow, if_true, BitVec.ofNat_eq_ofNat]
  try rfl

/-- VSCAN_ADD. -/
theorem Roundtrip.vscanAdd (k : MReg) (d : VReg) (a : VReg) (cin : CarryIn) (cout : CarryOut) : Roundtrip.Statement (.vscanAdd k d a cin cout) := by
  intro _ _
  have u := fields_1_3_5_5_5_5_6_2 0#1 k 0#5 0#5 a d 57#6 1#2
  simp only [encode]
  generalize (0#1 ++ k ++ 0#5 ++ 0#5 ++ a ++ d ++ 57#6 ++ 1#2 : BitVec 32) = p0 at u ⊢
  obtain ⟨h0, h1, h2, h3, h4, h5, h6, h7⟩ := u
  rw [decode_major39 p0 _ h6 h7]
  simp only [decodeMajor39, minField, h0, h1, h2, h3, h4, h5, reserved, BitVec.toNat_ofNat, Nat.reduceMod, Nat.reducePow, if_true, carries_read, BitVec.ofNat_eq_ofNat]

/-- VSCAN_MAX. -/
theorem Roundtrip.vscanMax (k : MReg) (d : VReg) (a : VReg) (cin : CarryIn) (cout : CarryOut) : Roundtrip.Statement (.vscanMax k d a cin cout) := by
  intro _ _
  have u := fields_1_3_5_5_5_5_6_2 0#1 k 1#5 0#5 a d 57#6 1#2
  simp only [encode]
  generalize (0#1 ++ k ++ 1#5 ++ 0#5 ++ a ++ d ++ 57#6 ++ 1#2 : BitVec 32) = p0 at u ⊢
  obtain ⟨h0, h1, h2, h3, h4, h5, h6, h7⟩ := u
  rw [decode_major39 p0 _ h6 h7]
  simp only [decodeMajor39, minField, h0, h1, h2, h3, h4, h5, reserved, BitVec.toNat_ofNat, Nat.reduceMod, Nat.reducePow, if_true, carries_read, BitVec.ofNat_eq_ofNat]

/-- VSCAN_MIN. -/
theorem Roundtrip.vscanMin (k : MReg) (d : VReg) (a : VReg) (cin : CarryIn) (cout : CarryOut) : Roundtrip.Statement (.vscanMin k d a cin cout) := by
  intro _ _
  have u := fields_1_3_5_5_5_5_6_2 0#1 k 2#5 0#5 a d 57#6 1#2
  simp only [encode]
  generalize (0#1 ++ k ++ 2#5 ++ 0#5 ++ a ++ d ++ 57#6 ++ 1#2 : BitVec 32) = p0 at u ⊢
  obtain ⟨h0, h1, h2, h3, h4, h5, h6, h7⟩ := u
  rw [decode_major39 p0 _ h6 h7]
  simp only [decodeMajor39, minField, h0, h1, h2, h3, h4, h5, reserved, BitVec.toNat_ofNat, Nat.reduceMod, Nat.reducePow, if_true, carries_read, BitVec.ofNat_eq_ofNat]

/-- VSCAN_LIN. -/
theorem Roundtrip.vscanLin (k : MReg) (d : VReg) (a : VReg) (b : VReg) (cin : CarryIn) (cout : CarryOut) : Roundtrip.Statement (.vscanLin k d a b cin cout) := by
  intro _ _
  have u := fields_1_3_5_5_5_5_6_2 0#1 k 3#5 b a d 57#6 1#2
  simp only [encode]
  generalize (0#1 ++ k ++ 3#5 ++ b ++ a ++ d ++ 57#6 ++ 1#2 : BitVec 32) = p0 at u ⊢
  obtain ⟨h0, h1, h2, h3, h4, h5, h6, h7⟩ := u
  rw [decode_major39 p0 _ h6 h7]
  simp only [decodeMajor39, minField, h0, h1, h2, h3, h4, h5, reserved, BitVec.toNat_ofNat, Nat.reduceMod, Nat.reducePow, if_true, carries_read, BitVec.ofNat_eq_ofNat]

/-- MOP. -/
theorem Roundtrip.mop (k : MReg) (d : AReg) (a : VReg) (b : VReg) (cmask : MReg) : Roundtrip.Statement (.mop k d a b cmask) := by
  intro hw _
  have u0 := fields_1_3_5_5_5_2_3_6_2 0#1 k 0#5 b a 0#2 d 58#6 1#2
  have u1 := fields_29_3 0#29 cmask
  simp only [encode]
  generalize (0#1 ++ k ++ 0#5 ++ b ++ a ++ 0#2 ++ d ++ 58#6 ++ 1#2 : BitVec 32) = p0 at u0 ⊢
  generalize (0#29 ++ cmask : BitVec 32) = p1 at u1 ⊢
  obtain ⟨h0a, h0b, h0c, h0d, h0e, h0f, h0g, h0h, h0i⟩ := u0
  obtain ⟨h1a, h1b⟩ := u1
  rw [decode_major3A p0 p1 h0h h0i]
  simp only [decodeMajor3A, minField, h0a, h0b, h0c, h0d, h0e, h0f, h0g, h1a, h1b, reserved, limit, reservedUnless, field_whole, BitVec.toNat_ofNat, Nat.reduceMod,
    Nat.reducePow, if_true, BitVec.ofNat_eq_ofNat]
  try rfl

/-- MZERO. -/
theorem Roundtrip.mzero (d : AReg) : Roundtrip.Statement (.mzero d) := by
  intro hw _
  have u0 := fields_4_5_12_3_6_2 0#4 1#5 0#12 d 58#6 1#2
  simp only [encode]
  generalize (0#4 ++ 1#5 ++ 0#12 ++ d ++ 58#6 ++ 1#2 : BitVec 32) = p0 at u0 ⊢
  obtain ⟨h0a, h0b, h0c, h0d, h0e, h0f⟩ := u0
  rw [decode_major3A p0 0#32 h0e h0f]
  simp only [decodeMajor3A, minField, h0a, h0b, h0c, h0d, reserved, limit, reservedUnless, field_whole, BitVec.toNat_ofNat, Nat.reduceMod,
    Nat.reducePow, if_true, BitVec.ofNat_eq_ofNat]
  try rfl

/-- MROW. -/
theorem Roundtrip.mrow (k : MReg) (d : VReg) (a : AReg) (row : BitVec 7) : Roundtrip.Statement (.mrow k d a row) := by
  intro hw _
  have u0 := fields_1_3_5_7_3_5_6_2 0#1 k 2#5 0#7 a d 58#6 1#2
  have u1 := fields_22_7_3 0#22 row 0#3
  simp only [encode]
  generalize (0#1 ++ k ++ 2#5 ++ 0#7 ++ a ++ d ++ 58#6 ++ 1#2 : BitVec 32) = p0 at u0 ⊢
  generalize (0#22 ++ row ++ 0#3 : BitVec 32) = p1 at u1 ⊢
  obtain ⟨h0a, h0b, h0c, h0d, h0e, h0f, h0g, h0h⟩ := u0
  obtain ⟨h1a, h1b, h1c⟩ := u1
  rw [decode_major3A p0 p1 h0g h0h]
  simp only [decodeMajor3A, minField, h0a, h0b, h0c, h0d, h0e, h0f, h1a, h1b, h1c, reserved, limit, reservedUnless, field_whole, BitVec.toNat_ofNat, Nat.reduceMod,
    Nat.reducePow, if_true, BitVec.ofNat_eq_ofNat]
  try rfl

/-- MCOL. -/
theorem Roundtrip.mcol (k : MReg) (d : VReg) (a : AReg) (row : BitVec 7) : Roundtrip.Statement (.mcol k d a row) := by
  intro hw _
  have u0 := fields_1_3_5_7_3_5_6_2 0#1 k 3#5 0#7 a d 58#6 1#2
  have u1 := fields_22_7_3 0#22 row 0#3
  simp only [encode]
  generalize (0#1 ++ k ++ 3#5 ++ 0#7 ++ a ++ d ++ 58#6 ++ 1#2 : BitVec 32) = p0 at u0 ⊢
  generalize (0#22 ++ row ++ 0#3 : BitVec 32) = p1 at u1 ⊢
  obtain ⟨h0a, h0b, h0c, h0d, h0e, h0f, h0g, h0h⟩ := u0
  obtain ⟨h1a, h1b, h1c⟩ := u1
  rw [decode_major3A p0 p1 h0g h0h]
  simp only [decodeMajor3A, minField, h0a, h0b, h0c, h0d, h0e, h0f, h1a, h1b, h1c, reserved, limit, reservedUnless, field_whole, BitVec.toNat_ofNat, Nat.reduceMod,
    Nat.reducePow, if_true, BitVec.ofNat_eq_ofNat]
  try rfl

/-- MWROW. -/
theorem Roundtrip.mwrow (d : AReg) (a : VReg) (row : BitVec 7) : Roundtrip.Statement (.mwrow d a row) := by
  intro hw _
  have u0 := fields_4_5_5_5_2_3_6_2 0#4 4#5 0#5 a 0#2 d 58#6 1#2
  have u1 := fields_22_7_3 0#22 row 0#3
  simp only [encode]
  generalize (0#4 ++ 4#5 ++ 0#5 ++ a ++ 0#2 ++ d ++ 58#6 ++ 1#2 : BitVec 32) = p0 at u0 ⊢
  generalize (0#22 ++ row ++ 0#3 : BitVec 32) = p1 at u1 ⊢
  obtain ⟨h0a, h0b, h0c, h0d, h0e, h0f, h0g, h0h⟩ := u0
  obtain ⟨h1a, h1b, h1c⟩ := u1
  rw [decode_major3A p0 p1 h0g h0h]
  simp only [decodeMajor3A, minField, h0a, h0b, h0c, h0d, h0e, h0f, h1a, h1b, h1c, reserved, limit, reservedUnless, field_whole, BitVec.toNat_ofNat, Nat.reduceMod,
    Nat.reducePow, if_true, BitVec.ofNat_eq_ofNat]
  try rfl

/-- DADD. -/
theorem Roundtrip.dadd (d : DReg) (a : DReg) (b : DReg) : Roundtrip.Statement (.dadd d a b) := by
  intro hw _
  have u0 := fields_4_5_2_3_2_3_2_3_6_2 0#4 0#5 0#2 b 0#2 a 0#2 d 59#6 0#2
  simp only [encode]
  generalize (0#4 ++ 0#5 ++ 0#2 ++ b ++ 0#2 ++ a ++ 0#2 ++ d ++ 59#6 ++ 0#2 : BitVec 32) = p0 at u0 ⊢
  obtain ⟨h0a, h0b, h0c, h0d, h0e, h0f, h0g, h0h, h0i, h0j⟩ := u0
  rw [decode_major3B p0 h0i h0j]
  simp only [decodeMajor3B, minField, h0a, h0b, h0c, h0d, h0e, h0f, h0g, h0h, reserved, limit, reservedUnless, field_whole, BitVec.toNat_ofNat, Nat.reduceMod,
    Nat.reducePow, if_true, BitVec.ofNat_eq_ofNat]
  try rfl

/-- DSUB. -/
theorem Roundtrip.dsub (d : DReg) (a : DReg) (b : DReg) : Roundtrip.Statement (.dsub d a b) := by
  intro hw _
  have u0 := fields_4_5_2_3_2_3_2_3_6_2 0#4 1#5 0#2 b 0#2 a 0#2 d 59#6 0#2
  simp only [encode]
  generalize (0#4 ++ 1#5 ++ 0#2 ++ b ++ 0#2 ++ a ++ 0#2 ++ d ++ 59#6 ++ 0#2 : BitVec 32) = p0 at u0 ⊢
  obtain ⟨h0a, h0b, h0c, h0d, h0e, h0f, h0g, h0h, h0i, h0j⟩ := u0
  rw [decode_major3B p0 h0i h0j]
  simp only [decodeMajor3B, minField, h0a, h0b, h0c, h0d, h0e, h0f, h0g, h0h, reserved, limit, reservedUnless, field_whole, BitVec.toNat_ofNat, Nat.reduceMod,
    Nat.reducePow, if_true, BitVec.ofNat_eq_ofNat]
  try rfl

/-- DMUL. -/
theorem Roundtrip.dmul (d : DReg) (a : DReg) (b : DReg) : Roundtrip.Statement (.dmul d a b) := by
  intro hw _
  have u0 := fields_4_5_2_3_2_3_2_3_6_2 0#4 2#5 0#2 b 0#2 a 0#2 d 59#6 0#2
  simp only [encode]
  generalize (0#4 ++ 2#5 ++ 0#2 ++ b ++ 0#2 ++ a ++ 0#2 ++ d ++ 59#6 ++ 0#2 : BitVec 32) = p0 at u0 ⊢
  obtain ⟨h0a, h0b, h0c, h0d, h0e, h0f, h0g, h0h, h0i, h0j⟩ := u0
  rw [decode_major3B p0 h0i h0j]
  simp only [decodeMajor3B, minField, h0a, h0b, h0c, h0d, h0e, h0f, h0g, h0h, reserved, limit, reservedUnless, field_whole, BitVec.toNat_ofNat, Nat.reduceMod,
    Nat.reducePow, if_true, BitVec.ofNat_eq_ofNat]
  try rfl

/-- DMIN. -/
theorem Roundtrip.dmin (d : DReg) (a : DReg) (b : DReg) : Roundtrip.Statement (.dmin d a b) := by
  intro hw _
  have u0 := fields_4_5_2_3_2_3_2_3_6_2 0#4 3#5 0#2 b 0#2 a 0#2 d 59#6 0#2
  simp only [encode]
  generalize (0#4 ++ 3#5 ++ 0#2 ++ b ++ 0#2 ++ a ++ 0#2 ++ d ++ 59#6 ++ 0#2 : BitVec 32) = p0 at u0 ⊢
  obtain ⟨h0a, h0b, h0c, h0d, h0e, h0f, h0g, h0h, h0i, h0j⟩ := u0
  rw [decode_major3B p0 h0i h0j]
  simp only [decodeMajor3B, minField, h0a, h0b, h0c, h0d, h0e, h0f, h0g, h0h, reserved, limit, reservedUnless, field_whole, BitVec.toNat_ofNat, Nat.reduceMod,
    Nat.reducePow, if_true, BitVec.ofNat_eq_ofNat]
  try rfl

/-- DMAX. -/
theorem Roundtrip.dmax (d : DReg) (a : DReg) (b : DReg) : Roundtrip.Statement (.dmax d a b) := by
  intro hw _
  have u0 := fields_4_5_2_3_2_3_2_3_6_2 0#4 4#5 0#2 b 0#2 a 0#2 d 59#6 0#2
  simp only [encode]
  generalize (0#4 ++ 4#5 ++ 0#2 ++ b ++ 0#2 ++ a ++ 0#2 ++ d ++ 59#6 ++ 0#2 : BitVec 32) = p0 at u0 ⊢
  obtain ⟨h0a, h0b, h0c, h0d, h0e, h0f, h0g, h0h, h0i, h0j⟩ := u0
  rw [decode_major3B p0 h0i h0j]
  simp only [decodeMajor3B, minField, h0a, h0b, h0c, h0d, h0e, h0f, h0g, h0h, reserved, limit, reservedUnless, field_whole, BitVec.toNat_ofNat, Nat.reduceMod,
    Nat.reducePow, if_true, BitVec.ofNat_eq_ofNat]
  try rfl

/-- DFMA. -/
theorem Roundtrip.dfma (d : DReg) (a : DReg) (b : DReg) : Roundtrip.Statement (.dfma d a b) := by
  intro hw _
  have u0 := fields_4_5_2_3_2_3_2_3_6_2 0#4 5#5 0#2 b 0#2 a 0#2 d 59#6 0#2
  simp only [encode]
  generalize (0#4 ++ 5#5 ++ 0#2 ++ b ++ 0#2 ++ a ++ 0#2 ++ d ++ 59#6 ++ 0#2 : BitVec 32) = p0 at u0 ⊢
  obtain ⟨h0a, h0b, h0c, h0d, h0e, h0f, h0g, h0h, h0i, h0j⟩ := u0
  rw [decode_major3B p0 h0i h0j]
  simp only [decodeMajor3B, minField, h0a, h0b, h0c, h0d, h0e, h0f, h0g, h0h, reserved, limit, reservedUnless, field_whole, BitVec.toNat_ofNat, Nat.reduceMod,
    Nat.reducePow, if_true, BitVec.ofNat_eq_ofNat]
  try rfl

/-- DAFF. -/
theorem Roundtrip.daff (xs : BitVec 1) (d : DReg) (a : DReg) (b : BitVec 5) : Roundtrip.Statement (.daff xs d a b) := by
  intro hw _
  have u0 := fields_1_3_5_5_2_3_2_3_6_2 xs 0#3 6#5 b 0#2 a 0#2 d 59#6 0#2
  simp only [encode]
  generalize (xs ++ 0#3 ++ 6#5 ++ b ++ 0#2 ++ a ++ 0#2 ++ d ++ 59#6 ++ 0#2 : BitVec 32) = p0 at u0 ⊢
  obtain ⟨h0a, h0b, h0c, h0d, h0e, h0f, h0g, h0h, h0i, h0j⟩ := u0
  rw [decode_major3B p0 h0i h0j]
  simp only [Instr.wf, Bool.and_eq_true, BitVec.ofNat_eq_ofNat] at hw
  simp only [decodeMajor3B, minField, h0a, h0b, h0c, h0d, h0e, h0f, h0g, h0h, hw, reserved, limit, reservedUnless, field_whole, BitVec.toNat_ofNat, Nat.reduceMod,
    Nat.reducePow, if_true, BitVec.ofNat_eq_ofNat]
  try rfl

/-- DPT. -/
theorem Roundtrip.dpt (d : DReg) (a : VReg) : Roundtrip.Statement (.dpt d a) := by
  intro hw _
  have u0 := fields_4_5_5_5_2_3_6_2 0#4 7#5 0#5 a 0#2 d 59#6 0#2
  simp only [encode]
  generalize (0#4 ++ 7#5 ++ 0#5 ++ a ++ 0#2 ++ d ++ 59#6 ++ 0#2 : BitVec 32) = p0 at u0 ⊢
  obtain ⟨h0a, h0b, h0c, h0d, h0e, h0f, h0g, h0h⟩ := u0
  rw [decode_major3B p0 h0g h0h]
  simp only [decodeMajor3B, minField, h0a, h0b, h0c, h0d, h0e, h0f, reserved, limit, reservedUnless, field_whole, BitVec.toNat_ofNat, Nat.reduceMod,
    Nat.reducePow, if_true, BitVec.ofNat_eq_ofNat]
  try rfl

/-- DSET. -/
theorem Roundtrip.dset (d : DReg) (a : VReg) (b : BitVec 5) : Roundtrip.Statement (.dset d a b) := by
  intro hw _
  have u0 := fields_4_5_5_5_2_3_6_2 0#4 8#5 b a 0#2 d 59#6 0#2
  simp only [encode]
  generalize (0#4 ++ 8#5 ++ b ++ a ++ 0#2 ++ d ++ 59#6 ++ 0#2 : BitVec 32) = p0 at u0 ⊢
  obtain ⟨h0a, h0b, h0c, h0d, h0e, h0f, h0g, h0h⟩ := u0
  rw [decode_major3B p0 h0g h0h]
  simp only [Instr.wf, Bool.and_eq_true, BitVec.ofNat_eq_ofNat] at hw
  simp only [decodeMajor3B, minField, h0a, h0b, h0c, h0d, h0e, h0f, hw, reserved, limit, reservedUnless, field_whole, BitVec.toNat_ofNat, Nat.reduceMod,
    Nat.reducePow, if_true, BitVec.ofNat_eq_ofNat]
  try rfl

/-- DGET. -/
theorem Roundtrip.dget (d : VReg) (a : DReg) (b : BitVec 5) : Roundtrip.Statement (.dget d a b) := by
  intro hw _
  have u0 := fields_4_5_5_2_3_5_6_2 0#4 9#5 b 0#2 a d 59#6 0#2
  simp only [encode]
  generalize (0#4 ++ 9#5 ++ b ++ 0#2 ++ a ++ d ++ 59#6 ++ 0#2 : BitVec 32) = p0 at u0 ⊢
  obtain ⟨h0a, h0b, h0c, h0d, h0e, h0f, h0g, h0h⟩ := u0
  rw [decode_major3B p0 h0g h0h]
  simp only [Instr.wf, Bool.and_eq_true, BitVec.ofNat_eq_ofNat] at hw
  simp only [decodeMajor3B, minField, h0a, h0b, h0c, h0d, h0e, h0f, hw, reserved, limit, reservedUnless, field_whole, BitVec.toNat_ofNat, Nat.reduceMod,
    Nat.reducePow, if_true, BitVec.ofNat_eq_ofNat]
  try rfl

/-- DTAG. -/
theorem Roundtrip.dtag (d : DReg) (a : SReg) : Roundtrip.Statement (.dtag d a) := by
  intro hw _
  have u0 := fields_4_5_5_5_2_3_6_2 0#4 10#5 0#5 a 0#2 d 59#6 0#2
  simp only [encode]
  generalize (0#4 ++ 10#5 ++ 0#5 ++ a ++ 0#2 ++ d ++ 59#6 ++ 0#2 : BitVec 32) = p0 at u0 ⊢
  obtain ⟨h0a, h0b, h0c, h0d, h0e, h0f, h0g, h0h⟩ := u0
  rw [decode_major3B p0 h0g h0h]
  simp only [decodeMajor3B, minField, h0a, h0b, h0c, h0d, h0e, h0f, reserved, limit, reservedUnless, field_whole, BitVec.toNat_ofNat, Nat.reduceMod,
    Nat.reducePow, if_true, BitVec.ofNat_eq_ofNat]
  try rfl

/-- DMOM. -/
theorem Roundtrip.dmom (d : VReg) (a : DReg) (b : BitVec 5) : Roundtrip.Statement (.dmom d a b) := by
  intro hw _
  have u0 := fields_4_5_5_2_3_5_6_2 0#4 11#5 b 0#2 a d 59#6 0#2
  simp only [encode]
  generalize (0#4 ++ 11#5 ++ b ++ 0#2 ++ a ++ d ++ 59#6 ++ 0#2 : BitVec 32) = p0 at u0 ⊢
  obtain ⟨h0a, h0b, h0c, h0d, h0e, h0f, h0g, h0h⟩ := u0
  rw [decode_major3B p0 h0g h0h]
  simp only [Instr.wf, Bool.and_eq_true, BitVec.ofNat_eq_ofNat] at hw
  simp only [decodeMajor3B, minField, h0a, h0b, h0c, h0d, h0e, h0f, hw, reserved, limit, reservedUnless, field_whole, BitVec.toNat_ofNat, Nat.reduceMod,
    Nat.reducePow, if_true, BitVec.ofNat_eq_ofNat]
  try rfl

/-- DQNT. -/
theorem Roundtrip.dqnt (d : VReg) (a : DReg) (b : VReg) : Roundtrip.Statement (.dqnt d a b) := by
  intro hw _
  have u0 := fields_4_5_5_2_3_5_6_2 0#4 12#5 b 0#2 a d 59#6 0#2
  simp only [encode]
  generalize (0#4 ++ 12#5 ++ b ++ 0#2 ++ a ++ d ++ 59#6 ++ 0#2 : BitVec 32) = p0 at u0 ⊢
  obtain ⟨h0a, h0b, h0c, h0d, h0e, h0f, h0g, h0h⟩ := u0
  rw [decode_major3B p0 h0g h0h]
  simp only [decodeMajor3B, minField, h0a, h0b, h0c, h0d, h0e, h0f, reserved, limit, reservedUnless, field_whole, BitVec.toNat_ofNat, Nat.reduceMod,
    Nat.reducePow, if_true, BitVec.ofNat_eq_ofNat]
  try rfl

/-- DCDF. -/
theorem Roundtrip.dcdf (d : VReg) (a : DReg) (b : VReg) : Roundtrip.Statement (.dcdf d a b) := by
  intro hw _
  have u0 := fields_4_5_5_2_3_5_6_2 0#4 13#5 b 0#2 a d 59#6 0#2
  simp only [encode]
  generalize (0#4 ++ 13#5 ++ b ++ 0#2 ++ a ++ d ++ 59#6 ++ 0#2 : BitVec 32) = p0 at u0 ⊢
  obtain ⟨h0a, h0b, h0c, h0d, h0e, h0f, h0g, h0h⟩ := u0
  rw [decode_major3B p0 h0g h0h]
  simp only [decodeMajor3B, minField, h0a, h0b, h0c, h0d, h0e, h0f, reserved, limit, reservedUnless, field_whole, BitVec.toNat_ofNat, Nat.reduceMod,
    Nat.reducePow, if_true, BitVec.ofNat_eq_ofNat]
  try rfl

/-- DLD. -/
theorem Roundtrip.dld (d : DReg) (a : SReg) : Roundtrip.Statement (.dld d a) := by
  intro hw _
  have u0 := fields_4_5_5_5_2_3_6_2 0#4 14#5 0#5 a 0#2 d 59#6 0#2
  simp only [encode]
  generalize (0#4 ++ 14#5 ++ 0#5 ++ a ++ 0#2 ++ d ++ 59#6 ++ 0#2 : BitVec 32) = p0 at u0 ⊢
  obtain ⟨h0a, h0b, h0c, h0d, h0e, h0f, h0g, h0h⟩ := u0
  rw [decode_major3B p0 h0g h0h]
  simp only [decodeMajor3B, minField, h0a, h0b, h0c, h0d, h0e, h0f, reserved, limit, reservedUnless, field_whole, BitVec.toNat_ofNat, Nat.reduceMod,
    Nat.reducePow, if_true, BitVec.ofNat_eq_ofNat]
  try rfl

/-- DST. -/
theorem Roundtrip.dst (d : DReg) (a : SReg) : Roundtrip.Statement (.dst d a) := by
  intro hw _
  have u0 := fields_4_5_5_5_2_3_6_2 0#4 15#5 0#5 a 0#2 d 59#6 0#2
  simp only [encode]
  generalize (0#4 ++ 15#5 ++ 0#5 ++ a ++ 0#2 ++ d ++ 59#6 ++ 0#2 : BitVec 32) = p0 at u0 ⊢
  obtain ⟨h0a, h0b, h0c, h0d, h0e, h0f, h0g, h0h⟩ := u0
  rw [decode_major3B p0 h0g h0h]
  simp only [decodeMajor3B, minField, h0a, h0b, h0c, h0d, h0e, h0f, reserved, limit, reservedUnless, field_whole, BitVec.toNat_ofNat, Nat.reduceMod,
    Nat.reducePow, if_true, BitVec.ofNat_eq_ofNat]
  try rfl

/-- FMTSET. -/
theorem Roundtrip.fmtset (nf : BitVec 3) (a : SReg) : Roundtrip.Statement (.fmtset nf a) := by
  intro hw _
  have u0 := fields_14_5_2_3_6_2 0#14 a 0#2 nf 60#6 0#2
  simp only [encode]
  generalize (0#14 ++ a ++ 0#2 ++ nf ++ 60#6 ++ 0#2 : BitVec 32) = p0 at u0 ⊢
  obtain ⟨h0a, h0b, h0c, h0d, h0e, h0f⟩ := u0
  rw [decode_major3C p0 h0e h0f]
  simp only [decodeMajor3C, minField, h0a, h0b, h0c, h0d, reserved, limit, reservedUnless, field_whole, BitVec.toNat_ofNat, Nat.reduceMod,
    Nat.reducePow, if_true, BitVec.ofNat_eq_ofNat]
  try rfl

/-- HINT. -/
theorem Roundtrip.hint (h : BitVec 24) : Roundtrip.Statement (.hint h) := by
  intro hw _
  have u0 := fields_24_6_2 h 63#6 0#2
  simp only [encode]
  generalize (h ++ 63#6 ++ 0#2 : BitVec 32) = p0 at u0 ⊢
  obtain ⟨h0a, h0b, h0c⟩ := u0
  simp only [decode, majField, lenField, h0a, h0b, h0c, majorLen, decodeBody, parcelsOfLen, List.length, ne_eq, not_true_eq_false,
    if_false, List.getD_cons_zero, List.getD_cons_succ, Nat.lt_irrefl, BitVec.toNat_ofNat, Nat.reduceAdd, Nat.reduceMod, Nat.reducePow]
  try rfl

/-- HINT_64. -/
theorem Roundtrip.hint64 (h : BitVec 24) (p1 : BitVec 32) : Roundtrip.Statement (.hint64 h p1) := by
  intro hw _
  have u0 := fields_24_6_2 h 63#6 1#2
  simp only [encode]
  generalize (h ++ 63#6 ++ 1#2 : BitVec 32) = p0 at u0 ⊢
  obtain ⟨h0a, h0b, h0c⟩ := u0
  simp only [decode, majField, lenField, h0a, h0b, h0c, majorLen, decodeBody, parcelsOfLen, List.length, ne_eq, not_true_eq_false,
    if_false, List.getD_cons_zero, List.getD_cons_succ, Nat.lt_irrefl, BitVec.toNat_ofNat, Nat.reduceAdd, Nat.reduceMod, Nat.reducePow]
  try rfl

/-- HINT_96. -/
theorem Roundtrip.hint96 (h : BitVec 24) (p1 : BitVec 32) (p2 : BitVec 32) : Roundtrip.Statement (.hint96 h p1 p2) := by
  intro hw _
  have u0 := fields_24_6_2 h 63#6 2#2
  simp only [encode]
  generalize (h ++ 63#6 ++ 2#2 : BitVec 32) = p0 at u0 ⊢
  obtain ⟨h0a, h0b, h0c⟩ := u0
  simp only [decode, majField, lenField, h0a, h0b, h0c, majorLen, decodeBody, parcelsOfLen, List.length, ne_eq, not_true_eq_false,
    if_false, List.getD_cons_zero, List.getD_cons_succ, Nat.lt_irrefl, BitVec.toNat_ofNat, Nat.reduceAdd, Nat.reduceMod, Nat.reducePow]
  try rfl

/-- HINT_160. -/
theorem Roundtrip.hint160 (h : BitVec 24) (p1 : BitVec 32) (p2 : BitVec 32) (p3 : BitVec 32) (p4 : BitVec 32) : Roundtrip.Statement (.hint160 h p1 p2 p3 p4) := by
  intro hw _
  have u0 := fields_24_6_2 h 63#6 3#2
  simp only [encode]
  generalize (h ++ 63#6 ++ 3#2 : BitVec 32) = p0 at u0 ⊢
  obtain ⟨h0a, h0b, h0c⟩ := u0
  simp only [decode, majField, lenField, h0a, h0b, h0c, majorLen, decodeBody, parcelsOfLen, List.length, ne_eq, not_true_eq_false,
    if_false, List.getD_cons_zero, List.getD_cons_succ, Nat.lt_irrefl, BitVec.toNat_ofNat, Nat.reduceAdd, Nat.reduceMod, Nat.reducePow]
  try rfl

/-- FENCE_CORE. -/
theorem Roundtrip.fenceCore : Roundtrip.Statement .fenceCore := by
  intro hw _
  have u0 := fields_4_5_15_6_2 0#4 2#5 0#15 26#6 0#2
  simp only [encode]
  generalize (0#4 ++ 2#5 ++ 0#15 ++ 26#6 ++ 0#2 : BitVec 32) = p0 at u0 ⊢
  obtain ⟨h0a, h0b, h0c, h0d, h0e⟩ := u0
  rw [decode_major1A p0 h0d h0e]
  simp only [decodeMajor1A, minField, h0a, h0b, h0c, reserved, limit, reservedUnless, field_whole, BitVec.toNat_ofNat, Nat.reduceMod,
    Nat.reducePow, if_true, BitVec.ofNat_eq_ofNat]
  try rfl

/-- FENCE_QUAD. -/
theorem Roundtrip.fenceQuad : Roundtrip.Statement .fenceQuad := by
  intro hw _
  have u0 := fields_4_5_15_6_2 0#4 3#5 0#15 26#6 0#2
  simp only [encode]
  generalize (0#4 ++ 3#5 ++ 0#15 ++ 26#6 ++ 0#2 : BitVec 32) = p0 at u0 ⊢
  obtain ⟨h0a, h0b, h0c, h0d, h0e⟩ := u0
  rw [decode_major1A p0 h0d h0e]
  simp only [decodeMajor1A, minField, h0a, h0b, h0c, reserved, limit, reservedUnless, field_whole, BitVec.toNat_ofNat, Nat.reduceMod,
    Nat.reducePow, if_true, BitVec.ofNat_eq_ofNat]
  try rfl

/-- FENCE_DIE. -/
theorem Roundtrip.fenceDie : Roundtrip.Statement .fenceDie := by
  intro hw _
  have u0 := fields_4_5_15_6_2 0#4 4#5 0#15 26#6 0#2
  simp only [encode]
  generalize (0#4 ++ 4#5 ++ 0#15 ++ 26#6 ++ 0#2 : BitVec 32) = p0 at u0 ⊢
  obtain ⟨h0a, h0b, h0c, h0d, h0e⟩ := u0
  rw [decode_major1A p0 h0d h0e]
  simp only [decodeMajor1A, minField, h0a, h0b, h0c, reserved, limit, reservedUnless, field_whole, BitVec.toNat_ofNat, Nat.reduceMod,
    Nat.reducePow, if_true, BitVec.ofNat_eq_ofNat]
  try rfl

/-- FENCE_DEV. -/
theorem Roundtrip.fenceDev : Roundtrip.Statement .fenceDev := by
  intro hw _
  have u0 := fields_4_5_15_6_2 0#4 5#5 0#15 26#6 0#2
  simp only [encode]
  generalize (0#4 ++ 5#5 ++ 0#15 ++ 26#6 ++ 0#2 : BitVec 32) = p0 at u0 ⊢
  obtain ⟨h0a, h0b, h0c, h0d, h0e⟩ := u0
  rw [decode_major1A p0 h0d h0e]
  simp only [decodeMajor1A, minField, h0a, h0b, h0c, reserved, limit, reservedUnless, field_whole, BitVec.toNat_ofNat, Nat.reduceMod,
    Nat.reducePow, if_true, BitVec.ofNat_eq_ofNat]
  try rfl

/-- FENCE_FAB. -/
theorem Roundtrip.fenceFab : Roundtrip.Statement .fenceFab := by
  intro hw _
  have u0 := fields_4_5_15_6_2 0#4 6#5 0#15 26#6 0#2
  simp only [encode]
  generalize (0#4 ++ 6#5 ++ 0#15 ++ 26#6 ++ 0#2 : BitVec 32) = p0 at u0 ⊢
  obtain ⟨h0a, h0b, h0c, h0d, h0e⟩ := u0
  rw [decode_major1A p0 h0d h0e]
  simp only [decodeMajor1A, minField, h0a, h0b, h0c, reserved, limit, reservedUnless, field_whole, BitVec.toNat_ofNat, Nat.reduceMod,
    Nat.reducePow, if_true, BitVec.ofNat_eq_ofNat]
  try rfl

/-- FENCE_ENG. -/
theorem Roundtrip.fenceEng : Roundtrip.Statement .fenceEng := by
  intro hw _
  have u0 := fields_4_5_15_6_2 0#4 7#5 0#15 26#6 0#2
  simp only [encode]
  generalize (0#4 ++ 7#5 ++ 0#15 ++ 26#6 ++ 0#2 : BitVec 32) = p0 at u0 ⊢
  obtain ⟨h0a, h0b, h0c, h0d, h0e⟩ := u0
  rw [decode_major1A p0 h0d h0e]
  simp only [decodeMajor1A, minField, h0a, h0b, h0c, reserved, limit, reservedUnless, field_whole, BitVec.toNat_ofNat, Nat.reduceMod,
    Nat.reducePow, if_true, BitVec.ofNat_eq_ofNat]
  try rfl

/-- FENCE_SC. -/
theorem Roundtrip.fenceSc : Roundtrip.Statement .fenceSc := by
  intro hw _
  have u0 := fields_4_5_15_6_2 0#4 8#5 0#15 26#6 0#2
  simp only [encode]
  generalize (0#4 ++ 8#5 ++ 0#15 ++ 26#6 ++ 0#2 : BitVec 32) = p0 at u0 ⊢
  obtain ⟨h0a, h0b, h0c, h0d, h0e⟩ := u0
  rw [decode_major1A p0 h0d h0e]
  simp only [decodeMajor1A, minField, h0a, h0b, h0c, reserved, limit, reservedUnless, field_whole, BitVec.toNat_ofNat, Nat.reduceMod,
    Nat.reducePow, if_true, BitVec.ofNat_eq_ofNat]
  try rfl

/-- ECALL. -/
theorem Roundtrip.ecall : Roundtrip.Statement .ecall := by
  intro hw _
  have u0 := fields_4_5_15_6_2 0#4 11#5 0#15 26#6 0#2
  simp only [encode]
  generalize (0#4 ++ 11#5 ++ 0#15 ++ 26#6 ++ 0#2 : BitVec 32) = p0 at u0 ⊢
  obtain ⟨h0a, h0b, h0c, h0d, h0e⟩ := u0
  rw [decode_major1A p0 h0d h0e]
  simp only [decodeMajor1A, minField, h0a, h0b, h0c, reserved, limit, reservedUnless, field_whole, BitVec.toNat_ofNat, Nat.reduceMod,
    Nat.reducePow, if_true, BitVec.ofNat_eq_ofNat]
  try rfl

/-- EBREAK. -/
theorem Roundtrip.ebreak : Roundtrip.Statement .ebreak := by
  intro hw _
  have u0 := fields_4_5_15_6_2 0#4 12#5 0#15 26#6 0#2
  simp only [encode]
  generalize (0#4 ++ 12#5 ++ 0#15 ++ 26#6 ++ 0#2 : BitVec 32) = p0 at u0 ⊢
  obtain ⟨h0a, h0b, h0c, h0d, h0e⟩ := u0
  rw [decode_major1A p0 h0d h0e]
  simp only [decodeMajor1A, minField, h0a, h0b, h0c, reserved, limit, reservedUnless, field_whole, BitVec.toNat_ofNat, Nat.reduceMod,
    Nat.reducePow, if_true, BitVec.ofNat_eq_ofNat]
  try rfl

/-- ERET. -/
theorem Roundtrip.eret : Roundtrip.Statement .eret := by
  intro hw _
  have u0 := fields_4_5_15_6_2 0#4 13#5 0#15 26#6 0#2
  simp only [encode]
  generalize (0#4 ++ 13#5 ++ 0#15 ++ 26#6 ++ 0#2 : BitVec 32) = p0 at u0 ⊢
  obtain ⟨h0a, h0b, h0c, h0d, h0e⟩ := u0
  rw [decode_major1A p0 h0d h0e]
  simp only [decodeMajor1A, minField, h0a, h0b, h0c, reserved, limit, reservedUnless, field_whole, BitVec.toNat_ofNat, Nat.reduceMod,
    Nat.reducePow, if_true, BitVec.ofNat_eq_ofNat]
  try rfl

/-- TDONE. -/
theorem Roundtrip.tdone : Roundtrip.Statement .tdone := by
  intro hw _
  have u0 := fields_4_5_15_6_2 0#4 1#5 0#15 36#6 0#2
  simp only [encode]
  generalize (0#4 ++ 1#5 ++ 0#15 ++ 36#6 ++ 0#2 : BitVec 32) = p0 at u0 ⊢
  obtain ⟨h0a, h0b, h0c, h0d, h0e⟩ := u0
  rw [decode_major24 p0 h0d h0e]
  simp only [decodeMajor24, minField, h0a, h0b, h0c, reserved, limit, reservedUnless, field_whole, BitVec.toNat_ofNat, Nat.reduceMod,
    Nat.reducePow, if_true, BitVec.ofNat_eq_ofNat]
  try rfl

/-- MAXLEN_WRITE. -/
theorem Roundtrip.maxlenWrite : Roundtrip.Statement .maxlenWrite := by
  intro _ h; exact absurd h (by decide)

/-- COPY_START. -/
theorem Roundtrip.copyStart : Roundtrip.Statement .copyStart := by
  intro _ h; exact absurd h (by decide)

/-- COPY_ATOM. -/
theorem Roundtrip.copyAtom : Roundtrip.Statement .copyAtom := by
  intro _ h; exact absurd h (by decide)

/-- SCPY_STAMP. -/
theorem Roundtrip.scpyStamp : Roundtrip.Statement .scpyStamp := by
  intro _ h; exact absurd h (by decide)

/-- TOKEN_WRITE. -/
theorem Roundtrip.tokenWrite : Roundtrip.Statement .tokenWrite := by
  intro _ h; exact absurd h (by decide)

/-- STREAM_REFILL. -/
theorem Roundtrip.streamRefill : Roundtrip.Statement .streamRefill := by
  intro _ h; exact absurd h (by decide)

/-- GATHER_SERVE. -/
theorem Roundtrip.gatherServe : Roundtrip.Statement .gatherServe := by
  intro _ h; exact absurd h (by decide)

/-- SCATTER_UPDATE. -/
theorem Roundtrip.scatterUpdate : Roundtrip.Statement .scatterUpdate := by
  intro _ h; exact absurd h (by decide)

/-- DISPATCH. -/
theorem Roundtrip.dispatch : Roundtrip.Statement .dispatch := by
  intro _ h; exact absurd h (by decide)

/-- QUEUE_REFILL. -/
theorem Roundtrip.queueRefill : Roundtrip.Statement .queueRefill := by
  intro _ h; exact absurd h (by decide)

/-- COLLECTIVE_RUN. -/
theorem Roundtrip.collectiveRun : Roundtrip.Statement .collectiveRun := by
  intro _ h; exact absurd h (by decide)

/-- HIT_COPY_DONE. -/
theorem Roundtrip.hitCopyDone : Roundtrip.Statement .hitCopyDone := by
  intro _ h; exact absurd h (by decide)

/-- INSERTION_DONE. -/
theorem Roundtrip.insertionDone : Roundtrip.Statement .insertionDone := by
  intro _ h; exact absurd h (by decide)

/-- MESSAGE_ARRIVAL. -/
theorem Roundtrip.messageArrival : Roundtrip.Statement .messageArrival := by
  intro _ h; exact absurd h (by decide)

/-- TRAP_RECORD_WRITE. -/
theorem Roundtrip.trapRecordWrite : Roundtrip.Statement .trapRecordWrite := by
  intro _ h; exact absurd h (by decide)

/-- ENGERR_ASYNC. -/
theorem Roundtrip.engerrAsync : Roundtrip.Statement .engerrAsync := by
  intro _ h; exact absurd h (by decide)

/-- REPLY_RESUME. -/
theorem Roundtrip.replyResume : Roundtrip.Statement .replyResume := by
  intro _ h; exact absurd h (by decide)

/-- REPLY_RESUME_AT. -/
theorem Roundtrip.replyResumeAt : Roundtrip.Statement .replyResumeAt := by
  intro _ h; exact absurd h (by decide)

/-- REPLY_RETURN. -/
theorem Roundtrip.replyReturn : Roundtrip.Statement .replyReturn := by
  intro _ h; exact absurd h (by decide)

/-- REPLY_DELIVER. -/
theorem Roundtrip.replyDeliver : Roundtrip.Statement .replyDeliver := by
  intro _ h; exact absurd h (by decide)

/-- REPLY_KILL. -/
theorem Roundtrip.replyKill : Roundtrip.Statement .replyKill := by
  intro _ h; exact absurd h (by decide)

/-- REPLY_SKIP. -/
theorem Roundtrip.replySkip : Roundtrip.Statement .replySkip := by
  intro _ h; exact absurd h (by decide)

/-- SLOT_SWAP. -/
theorem Roundtrip.slotSwap : Roundtrip.Statement .slotSwap := by
  intro _ h; exact absurd h (by decide)

/-- FAIR_SHARE_EXPIRY. -/
theorem Roundtrip.fairShareExpiry : Roundtrip.Statement .fairShareExpiry := by
  intro _ h; exact absurd h (by decide)

/-- CONTEXT_SAVE. -/
theorem Roundtrip.contextSave : Roundtrip.Statement .contextSave := by
  intro _ h; exact absurd h (by decide)

/-- SAVE_DONE. -/
theorem Roundtrip.saveDone : Roundtrip.Statement .saveDone := by
  intro _ h; exact absurd h (by decide)

/-- CONTEXT_RESTORE. -/
theorem Roundtrip.contextRestore : Roundtrip.Statement .contextRestore := by
  intro _ h; exact absurd h (by decide)

/-- RESTORE_DONE. -/
theorem Roundtrip.restoreDone : Roundtrip.Statement .restoreDone := by
  intro _ h; exact absurd h (by decide)

/-- PREEMPTION. -/
theorem Roundtrip.preemption : Roundtrip.Statement .preemption := by
  intro _ h; exact absurd h (by decide)

/-- DOORBELL. -/
theorem Roundtrip.doorbell : Roundtrip.Statement .doorbell := by
  intro _ h; exact absurd h (by decide)

/-- KQ_ENTRY_TAKE. -/
theorem Roundtrip.kqEntryTake : Roundtrip.Statement .kqEntryTake := by
  intro _ h; exact absurd h (by decide)

/-- PLACEMENT. -/
theorem Roundtrip.placement : Roundtrip.Statement .placement := by
  intro _ h; exact absurd h (by decide)

/-- AGING_STEP. -/
theorem Roundtrip.agingStep : Roundtrip.Statement .agingStep := by
  intro _ h; exact absurd h (by decide)

/-- LAUNCH_TICK. -/
theorem Roundtrip.launchTick : Roundtrip.Statement .launchTick := by
  intro _ h; exact absurd h (by decide)

/-- TIMED_START_SWAP. -/
theorem Roundtrip.timedStartSwap : Roundtrip.Statement .timedStartSwap := by
  intro _ h; exact absurd h (by decide)

/-- KERNEL_RETIRE. -/
theorem Roundtrip.kernelRetire : Roundtrip.Statement .kernelRetire := by
  intro _ h; exact absurd h (by decide)

/-- WATCHDOG. -/
theorem Roundtrip.watchdog : Roundtrip.Statement .watchdog := by
  intro _ h; exact absurd h (by decide)

/-- HEARTBEAT_TICK. -/
theorem Roundtrip.heartbeatTick : Roundtrip.Statement .heartbeatTick := by
  intro _ h; exact absurd h (by decide)

/-- PAGE_WALK_DONE. -/
theorem Roundtrip.pageWalkDone : Roundtrip.Statement .pageWalkDone := by
  intro _ h; exact absurd h (by decide)

/-- XINV_PAGE. -/
theorem Roundtrip.xinvPage : Roundtrip.Statement .xinvPage := by
  intro _ h; exact absurd h (by decide)

/-- XINV_TENANT. -/
theorem Roundtrip.xinvTenant : Roundtrip.Statement .xinvTenant := by
  intro _ h; exact absurd h (by decide)

/-- XINV_ALL. -/
theorem Roundtrip.xinvAll : Roundtrip.Statement .xinvAll := by
  intro _ h; exact absurd h (by decide)

/-- MIGCMD_GO. -/
theorem Roundtrip.migcmdGo : Roundtrip.Statement .migcmdGo := by
  intro _ h; exact absurd h (by decide)

/-- HOT_WINDOW_END. -/
theorem Roundtrip.hotWindowEnd : Roundtrip.Statement .hotWindowEnd := by
  intro _ h; exact absurd h (by decide)

/-- MIGRATION_SWITCH. -/
theorem Roundtrip.migrationSwitch : Roundtrip.Statement .migrationSwitch := by
  intro _ h; exact absurd h (by decide)

/-- RUQUOTA_WRITE. -/
theorem Roundtrip.ruquotaWrite : Roundtrip.Statement .ruquotaWrite := by
  intro _ h; exact absurd h (by decide)

/-- RUPOOL_WRITE. -/
theorem Roundtrip.rupoolWrite : Roundtrip.Statement .rupoolWrite := by
  intro _ h; exact absurd h (by decide)

/-- HOST_MEM_READ. -/
theorem Roundtrip.hostMemRead : Roundtrip.Statement .hostMemRead := by
  intro _ h; exact absurd h (by decide)

/-- HOST_MEM_WRITE. -/
theorem Roundtrip.hostMemWrite : Roundtrip.Statement .hostMemWrite := by
  intro _ h; exact absurd h (by decide)

/-- HOST_REG_WRITE. -/
theorem Roundtrip.hostRegWrite : Roundtrip.Statement .hostRegWrite := by
  intro _ h; exact absurd h (by decide)

/-- ALARMPOL_WRITE. -/
theorem Roundtrip.alarmpolWrite : Roundtrip.Statement .alarmpolWrite := by
  intro _ h; exact absurd h (by decide)

/-- FW_GO. -/
theorem Roundtrip.fwGo : Roundtrip.Statement .fwGo := by
  intro _ h; exact absurd h (by decide)

/-- FW_VERIFY_DONE. -/
theorem Roundtrip.fwVerifyDone : Roundtrip.Statement .fwVerifyDone := by
  intro _ h; exact absurd h (by decide)

/-- TKEY_WRITE. -/
theorem Roundtrip.tkeyWrite : Roundtrip.Statement .tkeyWrite := by
  intro _ h; exact absurd h (by decide)

/-- TKCTL_LOAD. -/
theorem Roundtrip.tkctlLoad : Roundtrip.Statement .tkctlLoad := by
  intro _ h; exact absurd h (by decide)

/-- TKCTL_ERASE. -/
theorem Roundtrip.tkctlErase : Roundtrip.Statement .tkctlErase := by
  intro _ h; exact absurd h (by decide)

/-- TRESET_GO. -/
theorem Roundtrip.tresetGo : Roundtrip.Statement .tresetGo := by
  intro _ h; exact absurd h (by decide)

/-- FUNCTION_LEVEL_RESET. -/
theorem Roundtrip.functionLevelReset : Roundtrip.Statement .functionLevelReset := by
  intro _ h; exact absurd h (by decide)

/-- SECURITY_ALARM. -/
theorem Roundtrip.securityAlarm : Roundtrip.Statement .securityAlarm := by
  intro _ h; exact absurd h (by decide)

/-- COLD_RESET. -/
theorem Roundtrip.coldReset : Roundtrip.Statement .coldReset := by
  intro _ h; exact absurd h (by decide)

/-- WARM_RESET. -/
theorem Roundtrip.warmReset : Roundtrip.Statement .warmReset := by
  intro _ h; exact absurd h (by decide)

/-- HBM_READY. -/
theorem Roundtrip.hbmReady : Roundtrip.Statement .hbmReady := by
  intro _ h; exact absurd h (by decide)

/-- FREEZE. -/
theorem Roundtrip.freeze : Roundtrip.Statement .freeze := by
  intro _ h; exact absurd h (by decide)

/-- IDCODE. -/
theorem Roundtrip.idcode : Roundtrip.Statement .idcode := by
  intro _ h; exact absurd h (by decide)

/-- BYPASS. -/
theorem Roundtrip.bypass : Roundtrip.Statement .bypass := by
  intro _ h; exact absurd h (by decide)

/-- UNLOCK. -/
theorem Roundtrip.unlock : Roundtrip.Statement .unlock := by
  intro _ h; exact absurd h (by decide)

/-- READOUT. -/
theorem Roundtrip.readout : Roundtrip.Statement .readout := by
  intro _ h; exact absurd h (by decide)

/-- PATROL_SCRUB. -/
theorem Roundtrip.patrolScrub : Roundtrip.Statement .patrolScrub := by
  intro _ h; exact absurd h (by decide)

/-- HALF_WIDTH. -/
theorem Roundtrip.halfWidth : Roundtrip.Statement .halfWidth := by
  intro _ h; exact absurd h (by decide)

/-- FULL_WIDTH. -/
theorem Roundtrip.fullWidth : Roundtrip.Statement .fullWidth := by
  intro _ h; exact absurd h (by decide)

/-- POWER_GATE. -/
theorem Roundtrip.powerGate : Roundtrip.Statement .powerGate := by
  intro _ h; exact absurd h (by decide)

/-- TRAINING_DONE. -/
theorem Roundtrip.trainingDone : Roundtrip.Statement .trainingDone := by
  intro _ h; exact absurd h (by decide)

/-- TRAINING_FAIL. -/
theorem Roundtrip.trainingFail : Roundtrip.Statement .trainingFail := by
  intro _ h; exact absurd h (by decide)

/-- FLIT_RECEIVE. -/
theorem Roundtrip.flitReceive : Roundtrip.Statement .flitReceive := by
  intro _ h; exact absurd h (by decide)

/-- NAK_RECEIVE. -/
theorem Roundtrip.nakReceive : Roundtrip.Statement .nakReceive := by
  intro _ h; exact absurd h (by decide)

/-- ACK_RECEIVE. -/
theorem Roundtrip.ackReceive : Roundtrip.Statement .ackReceive := by
  intro _ h; exact absurd h (by decide)

/-- NAK_REPEAT. -/
theorem Roundtrip.nakRepeat : Roundtrip.Statement .nakRepeat := by
  intro _ h; exact absurd h (by decide)

/-- NAK_TIMEOUT. -/
theorem Roundtrip.nakTimeout : Roundtrip.Statement .nakTimeout := by
  intro _ h; exact absurd h (by decide)

/-- PACKET_DELIVER. -/
theorem Roundtrip.packetDeliver : Roundtrip.Statement .packetDeliver := by
  intro _ h; exact absurd h (by decide)

/-- ROUTER_SLEEP. -/
theorem Roundtrip.routerSleep : Roundtrip.Statement .routerSleep := by
  intro _ h; exact absurd h (by decide)

/-- WAKE. -/
theorem Roundtrip.wake : Roundtrip.Statement .wake := by
  intro _ h; exact absurd h (by decide)

/-- DEADLOCK_PROBE_SEND. -/
theorem Roundtrip.deadlockProbeSend : Roundtrip.Statement .deadlockProbeSend := by
  intro _ h; exact absurd h (by decide)

/-- PROBE_RECEIVE. -/
theorem Roundtrip.probeReceive : Roundtrip.Statement .probeReceive := by
  intro _ h; exact absurd h (by decide)

/-- DEADLOCK_STEP. -/
theorem Roundtrip.deadlockStep : Roundtrip.Statement .deadlockStep := by
  intro _ h; exact absurd h (by decide)

/-- PROBE_RETRY. -/
theorem Roundtrip.probeRetry : Roundtrip.Statement .probeRetry := by
  intro _ h; exact absurd h (by decide)

/-- TWAIT_TIMEOUT. -/
theorem Roundtrip.twaitTimeout : Roundtrip.Statement .twaitTimeout := by
  intro _ h; exact absurd h (by decide)

/-- CXL_CACHE_SNOOP. -/
theorem Roundtrip.cxlCacheSnoop : Roundtrip.Statement .cxlCacheSnoop := by
  intro _ h; exact absurd h (by decide)

end Sys2Proof.Laws
end

