-- ==== Sys2Proof/Laws/Stores.lean ====
section
/-! SUPPORT. What a store can do once its checks have passed (05_scalar R99, R100): all at once, or some of its bytes with the
others left. -/

namespace Sys2Proof.Machine

set_option Elab.async false

/-- A store within a naturally aligned block makes all its bytes. -/
theorem State.placesNow_aligned (s : State) (x : Split) (h : x.base % x.data.length = 0) : s.placesNow x = x.left := by
  rw [State.placesNow, if_pos h]

/-- Where the schedule names no bytes every one that is left is made. -/
theorem State.placesNow_none (s : State) (x : Split) (h : s.bytesNow = none) : s.placesNow x = x.left := by
  rw [State.placesNow, h]
  split <;> rfl

/-- Making every byte that is left leaves none. -/
theorem Split.after_left (x : Split) : (x.after x.left).left = [] := by
  simp only [Split.after, List.filter_eq_nil_iff]
  intro j hj
  simp [hj]

/-- A store that makes all its bytes at once is the writing of its region, and retires. -/
theorem State.beginStore_whole (s : State) (x : Split) (hl : x.left = List.range x.data.length)
    (hp : s.placesNow x = x.left) :
    s.beginStore x = .done ((s.writeRegion (s.who s.cur) .none x.localOnly x.base x.data x.region).advance x.len) := by
  have h1 : x.write (s.who s.cur) (List.range x.data.length) s
      = s.writeRegion (s.who s.cur) .none x.localOnly x.base x.data x.region := by rw [Split.write, if_pos rfl]
  have h2 := Split.after_left x
  rw [hl] at h2
  rw [State.beginStore, hp, hl]
  simp only [h1, if_pos h2]

/-- A store of which bytes are left waits with them. -/
theorem State.beginStore_part (s : State) (x : Split) (h : (x.after (s.placesNow x)).left ≠ []) :
    s.beginStore x = .wait false ((x.write (s.who s.cur) (s.placesNow x) s).withMe
      { (x.write (s.who s.cur) (s.placesNow x) s).me with split := some (x.after (s.placesNow x)) }) := by
  simp only [State.beginStore, if_neg h]

/-- A store under way whose last bytes are made now ends: PC is behind it, and it is under way no more. -/
theorem State.goOnStore_end (s : State) (x : Split) (h : (x.after (s.placesNow x)).left = []) :
    s.goOnStore x = (x.write (s.who s.cur) (s.placesNow x) s).withMe
      ((x.write (s.who s.cur) (s.placesNow x) s).me.endStore x (x.unread (x.write (s.who s.cur) (s.placesNow x) s).me)) := by
  simp only [State.goOnStore, if_pos h]

/-- The writing of a store's bytes keeps the canonical form of both memories. -/
theorem State.Inv.writeSplit {s : State} (h : s.Inv) (x : Split) (w : Who) (js : List Nat) : (x.write w js s).Inv := by
  unfold Split.write
  split
  · exact h.writeRegion ..
  · exact State.Inv.foldl (f := fun s j => s.writeRegion w .none x.localOnly (x.base + j) [x.data.getD j 0]
      (x.region.byteAt x.base j)) (fun _ _ hs => hs.writeRegion ..) js h

end Sys2Proof.Machine
end

