-- ==== Sys2Proof/Tests/Slice0.lean ====
section
/-! SUPPORT. Tests: ill-formed terms, words of the manual's encodings, single steps, and for each statement that has
hypotheses a state and operands that meet them. -/

namespace Sys2Proof.Tests

open Machine

-- The tests are elaborated one after another: each thread of its own would take a large stack.
set_option Elab.async false

-- Ill-formed terms, one for each check of WellFormed (03_encoding R45, R50).

theorem test_wf_bext : (Instr.bext 1 2 0 65).wf = false := by decide
theorem test_wf_bexts : (Instr.bexts 1 2 0 65).wf = false := by decide
theorem test_wf_bins : (Instr.bins 1 2 0 65).wf = false := by decide
theorem test_wf_turn_none : (Instr.turn 0 1 2 3).wf = false := by decide
theorem test_wf_turn_high : (Instr.turn 6 1 2 3).wf = false := by decide
theorem test_wf_cpyin_vg : (Instr.cpyin 1 2 3 4 5 0 1 0 0 0 0).wf = false := by decide
theorem test_wf_cpyin_aoff : (Instr.cpyin 1 2 3 4 5 1 0 0 0 8 0).wf = false := by decide
theorem test_wf_cpyin_toa : (Instr.cpyin 1 2 3 4 5 0 0 0 1 0 0).wf = false := by decide
theorem test_wf_cpyout_toa : (Instr.cpyout 1 2 3 4 5 0 6 0 0).wf = false := by decide
theorem test_wf_cpyout_comp : (Instr.cpyout 1 2 3 4 5 1 0 0 0).wf = false := by decide
theorem test_wf_cpyreg : (Instr.cpyreg 1 2 3 4 5 6 0 0 1).wf = false := by decide
theorem test_wf_cpyfold : (Instr.cpyfold 1 2 3 4 5 3 0 0 0 0 0).wf = false := by decide
theorem test_wf_scpy : (Instr.scpy 1 2 3 4 5 0 7 0 0).wf = false := by decide
theorem test_wf_tcpy_in : (Instr.tcpyIn 1 2 3 4 0 1 0 0 0 0 0).wf = false := by decide
theorem test_wf_tcpy_out : (Instr.tcpyOut 1 2 3 4 0 6 0 0 0 0 0).wf = false := by decide
theorem test_wf_tspawn : (Instr.tspawn 25).wf = false := by decide
theorem test_wf_tdep : (Instr.tdep 1 2 25).wf = false := by decide
theorem test_wf_tsusp_s0 : (Instr.tsusp 1 1).wf = false := by decide
theorem test_wf_tsusp_count : (Instr.tsusp 1 0x3FFFE).wf = false := by decide
theorem test_wf_chsend : (Instr.chsend 16 1).wf = false := by decide
theorem test_wf_chsend_s : (Instr.chsendS 16 1).wf = false := by decide
theorem test_wf_chrecv : (Instr.chrecv 1 16).wf = false := by decide
theorem test_wf_chrecv_s : (Instr.chrecvS 1 16).wf = false := by decide
theorem test_wf_vhad : (Instr.vhad 1 2 3).wf = false := by decide
theorem test_wf_daff : (Instr.daff 0 1 2 3).wf = false := by decide
theorem test_wf_dset : (Instr.dset 1 2 8).wf = false := by decide
theorem test_wf_dget : (Instr.dget 3 1 0).wf = false := by decide
theorem test_wf_dmom : (Instr.dmom 1 2 5).wf = false := by decide

-- Words written out bit by bit from the encodings of the manual: fields from bit 31 down to LEN.

theorem test_decode_add : decode [0b0000_00000_00010_00001_00001_000001_00#32] = .ok (.add 1 1 2) := by decide
theorem test_decode_vadd : decode [0b0_000_00000_00010_00001_00011_110000_00#32] = .ok (.vadd 0 0 3 1 2) := by decide

-- Words that the manual prints beside their assembly (03_encoding, 05_scalar, 07_matrix, 08_sorus, 09_page–17_reuse).

theorem test_decode_div : decode [0x02082308] = .ok (.div 3 1 2) := by decide
theorem test_decode_addi : decode [0x0004420C] = .ok (.addi 2 2 1) := by decide
theorem test_decode_bext : decode [0x00008529, 0x0000023C] = .ok (.bext 5 4 60 8) := by decide
theorem test_decode_li96 : decode [0x00000736, 0x89ABCDEF, 0x01234567] = .ok (.li96 7 0x89ABCDEF 0x01234567) := by decide
theorem test_decode_bge : decode [0xFFCC4340] = .ok (.bge 3 2 (BitVec.ofInt 11 (-2))) := by decide
theorem test_decode_jalr : decode [0x00002048] = .ok (.jalr 0 1 0) := by decide
theorem test_decode_ld : decode [0x020C8750] = .ok (.ld 7 4 16) := by decide
theorem test_decode_st : decode [0x000C8254] = .ok (.st 2 4 0) := by decide
theorem test_decode_ld_l : decode [0x000C7159, 0x00001FF8] = .ok (.ldL 17 3 0x1FF8) := by decide
theorem test_decode_atom_add : decode [0x3088C360] = .ok (.atomAdd 3 3 6 2) := by decide
theorem test_decode_waitv : decode [0x0600C860] = .ok (.waitv 8 6 0) := by decide
theorem test_decode_psend : decode [0x00012068] = .ok (.psend 9) := by decide
theorem test_decode_csrr : decode [0x0010056C] = .ok (.csrr 5 .fflags) := by decide
theorem test_decode_turn : decode [0x202D4C70] = .ok (.turn 2 12 10 11) := by decide
theorem test_decode_twait : decode [0x00107075, 0x000F4240] = .ok (.twait 16 3 4 1000000) := by decide
theorem test_decode_hbread : decode [0x04800568] = .ok (.hbread 5) := by decide
theorem test_decode_fence_core : decode [0x01000068] = .ok .fenceCore := by decide
theorem test_decode_eret : decode [0x06800068] = .ok .eret := by decide
theorem test_decode_hint : decode [0x000000FC] = .ok (.hint 0) := by decide
theorem test_decode_mop : decode [0x101882E9, 0x00000002] = .ok (.mop 1 2 4 6 2) := by decide
theorem test_decode_mcol : decode [0x418023E9, 0x00000048] = .ok (.mcol 4 3 1 9) := by decide
theorem test_decode_chsend : decode [0x000CA0A4] = .ok (.chsend 3 5) := by decide
theorem test_decode_daff : decode [0x832842EC] = .ok (.daff 1 2 2 10) := by decide
theorem test_decode_dget : decode [0x048C26EC] = .ok (.dget 6 1 3) := by decide
theorem test_decode_cpyin : decode [0x0014D582, 0x00000083, 0] = .ok (.cpyin 21 6 5 3 4 0 0 0 0 0 0) := by decide
theorem test_decode_cpyout : decode [0x0084D482, 0x00001008, 0x00000040] = .ok (.cpyout 20 6 1 8 0 0 4 64 0) := by decide
theorem test_decode_sbind : decode [0x00006588] = .ok (.sbind 5 3) := by decide
theorem test_decode_tdep : decode [0x01191090] = .ok (.tdep 8 6 16) := by decide
theorem test_decode_launch : decode [0x0300C590] = .ok (.launch 5 6) := by decide
theorem test_decode_qpush : decode [0x00A04598] = .ok (.qpush 5 2 8) := by decide
theorem test_decode_coll : decode [0x02B1659C] = .ok (.coll 5 11 12) := by decide

-- Words that are no instruction (03_encoding, after the worked encodings).

theorem test_reject_zero : decode [0] = .error .unassignedMajor := by decide
theorem test_reject_bit30 : decode [0x40082104] = .error (.reservedField 0) := by decide
theorem test_reject_turn_none : decode [0x00148670] = .error (.operandLimit 0) := by decide

-- A step fetches and runs the instruction that is placed (notes/assumptions/5): ADDI s2, s2, 1.

/-- Whether an outcome is a next state that satisfies a test. -/
def nextHas (o : Host.Outcome State Fault Refusal) (p : State → Bool) : Bool :=
  match o with
  | .next s => p s
  | _ => false

theorem test_step_addi :
    nextHas (step (State.reset.withFetchWord 32 0x0004420C)) (fun s => decide (s.readS 2 = 1)) = true := by
  decide +kernel

-- A small state for the witnesses: one context, that runs on core 0, with a STREAM page at `va` and a SYNC page behind it.

/-- The address of the STREAM page. -/
def va : Nat := loadPc

/-- A kernel of one member, with one barrier and one channel from its compute hart to itself. -/
def kern : Kernel :=
  { newKernel 0 0 (launchRecOf [] []) 0 with
    state := .running, size := 1, cores := [0], qbars := [0]
    chans := [{ decl := { smem := 0, shart := .ch, rmem := 0, rhart := .ch, slots := 8, status := 0 }, msgs := [],
                sent := 0, taken := 0 }] }

/-- The state of the witnesses. -/
def base : State :=
  let s := State.reset.withFetchWord 32 0x0004420C
  let s1 : State := { s with
    mem := ssetList 0 s.mem 0x14008 (bytesOfNat 8 (2 ^ 60 + 0x30001F))
    kernels := [(0, kern)]
    quadBars := [(0, { Barrier.reset with owner := some 0, expect := 1 })]
    dev := { s.dev with ready := true } }
  let c := s1.myCtx
  s1.withMyCtx { c with kernel := 0, vl := 4, vtype := 0x280 }

/-- A state with registers of the moving hart set. -/
def setRegs (s : State) (rs : List (SReg × Nat)) : State :=
  rs.foldl (fun s r => s.writeS r.1 (BitVec.ofNat 64 r.2)) s

/-- A state with an event's data. -/
def evt (s : State) (a : EventArg) : State := { s with evArg := a }

/-- Whether a check or an access answers a value. -/
def okay {α : Type} (m : MemRes α) : Bool :=
  match m with
  | .ok _ => true
  | _ => false

-- A witness for the hypotheses of each statement.

theorem witness_StepRunsDecoded :
    base.sched = [] ∧ base.frozen = false ∧ base.yieldNow = false ∧ base.canIssue base.cur = true ∧
    base.vectorMoves = false ∧ base.me.split = none ∧ base.fetchParcels base.cur base.me.pc.toNat 1 = .ok [0x0004420C] ∧
    parcelsOfLen (lenField 0x0004420C) = 1 ∧ decode [0x0004420C] = .ok (.addi 2 2 1) ∧ base.soft = [] := by
  decide +kernel

theorem witness_Decoding : majorLen (majField 0) (lenField 0) = none ∧
    majorLen (majField 0x00082105) (lenField 0x00082105) = some 0 ∧ (0 : BitVec 2) ≠ lenField 0x00082105 := by
  decide +kernel

theorem witness_RoundTrip : (Instr.bext 1 2 63 64).wf = true ∧ (Instr.bext 1 2 63 64).isEvent = false := by decide +kernel

theorem witness_StepKeepsMemories : base.Inv ∧ nextHas (step base) (fun _ => true) = true := by decide +kernel

theorem witness_WritesKeepMemories : base.Inv ∧ PageKind.hostmem ≠ .stream ∧
    (match base.storeCheck (base.who base.cur) .write storeKinds 8 .none false va 8 with
     | .ok (.pages ps) => ps.all (fun p => (storedCopies p.1 false).all (fun c => decide (c + p.2.2 ≤ 0x20008)))
     | _ => false) = true := by
  decide +kernel

theorem witness_ScalarRegisters : swf 0 base.me.regs = true := by decide +kernel

theorem witness_ScalarBinary : base.Ready [1, 2] [3] := by decide +kernel

theorem witness_DivisionNeverTraps :
    (let s := setRegs base [(1, 2 ^ 63), (2, 2 ^ 64 - 1)]
     s.Ready [1, 2] [1] ∧ s.readS 2 ≠ 0 ∧ (s.readS 1).toInt = -2 ^ 63 ∧ (s.readS 2).toInt = -1) ∧
    (let s := setRegs base [(1, 2 ^ 63 + 1), (2, 2 ^ 64 - 1)]
     s.Ready [1, 2] [3] ∧ s.readS 2 ≠ 0 ∧ ¬ ((s.readS 1).toInt = -2 ^ 63 ∧ (s.readS 2).toInt = -1)) ∧
    (base.Ready [1, 0] [3] ∧ base.readS 0 = 0) := by
  decide +kernel

theorem witness_ScalarUnary :
    (let s := setRegs base [(1, 1)]
     s.Ready [1] [2] ∧ s.readS 1 ≠ 0) ∧ base.Ready [0] [2] ∧ base.readS 0 = 0 ∧ base.Ready [] [0] := by
  decide +kernel

theorem witness_BitFields : base.Ready [4] [5] ∧ base.Ready [4, 5] [5] ∧ (64 : BitVec 7).toNat ≤ 64 ∧
    (0 : BitVec 7).toNat ≤ 64 ∧ 64 < (65 : BitVec 7).toNat := by
  decide +kernel

theorem witness_BranchesAndJumps : base.Ready [1, 2] [] ∧ base.Ready [] [1] ∧ base.Ready [1] [1] := by decide +kernel

theorem witness_BusyAndUnreadRegisters :
    (let s := base.withMe { base.me with busy := [3] }
     ([1, 2, 3].all s.me.free = false) ∧ [1, 3].all s.me.free = false ∧ [1, 2, 4, 5, 3].all s.me.free = false) ∧
    (let s := base.withMe { base.me with unread := [3] }
     [1, 2, 3].all s.me.free = true ∧ [1, 2, 4, 5, 3].all s.me.free = true ∧ s.outside = false ∧ s.Plain ∧ (3 : SReg) ≠ 0 ∧
      (3 : SReg) ∉ [1, 2, 4, 5] ∧ s.me.unread.contains (3 : SReg).toNat = true ∧
      [(3 : SReg)].find? (fun w => decide (w ≠ 0) && !([1, 2] : List SReg).contains w && s.me.unread.contains w.toNat) = some 3 ∧
      (Res.done (s.reading [1, 2])).early = false ∧
      (∀ r ∈ [(3 : SReg)], r ≠ 0 → r ∉ [(3 : SReg)] → s.me.unread.contains r.toNat = false)) := by
  decide +kernel

/-- The state with the addresses of its pages in s1 (STREAM), s2 (SYNC) and of its windows in s3 (IS) and s4 (OS). -/
def addrs : State := setRegs base [(1, va), (2, va + 0x10000), (3, windowLo), (4, osBase)]

/-- A multicast of the base hart that is under way. -/
def multicast : Packet :=
  { id := 0, seq := 0, ref := base.cur, copy := none, pa := 2 ^ 37, bytes := [1], part := none, writer := 0,
    level := .core, tenant := 0 }

/-- A state of which a multicast of the base hart is under way. -/
def sending (s : State) : State := { s with packets := [multicast] }

theorem witness_ScalarLoads :
    addrs.Ready [1] [5] ∧ addrs.Quiet ∧ addrs.Plain ∧
    (let t := addrs.reading [1]
     okay (t.load (t.who addrs.cur) (addrs.readS 1).toNat 1) = true ∧
     okay (t.load (t.who addrs.cur) (addrs.readS 1 + BitVec.signExtend 64 (1023#11)).toNat 8) = true ∧
     okay (t.load (t.who addrs.cur) (addrs.readS 3 + BitVec.signExtend 64 (1048568#32)).toNat 8) = true) ∧
    (let odd := fun (m : Option (List Nat)) => ({ addrs with bytesNow := m } : State)
     let all := fun (s : State) (f : Option Byte → Bool) =>
       match s.load (s.who s.cur) (va + 3) 8 with
       | .ok bs => (List.range 8).all (fun j => f (tget (s.partWith bs (s.bytesOf (va + 3) 8)) j))
       | _ => false
     (addrs.readS 1 + BitVec.signExtend 64 (3#11)).toNat = va + 3 ∧ (va + 3) % 8 ≠ 0 ∧
     (odd none).Ready [1] [5] ∧ (odd none).Quiet ∧ (odd none).Plain ∧ all (odd none) Option.isSome = true ∧
     all (odd (some [])) Option.isNone = true ∧ 5 ∈ (odd (some [5])).bytesOf (va + 3) 8) := by
  decide +kernel

theorem witness_ScalarStores :
    addrs.Ready [1, 5] [] ∧ addrs.Quiet ∧ addrs.Plain ∧
    (let t := addrs.reading [1, 5]
     okay (t.storeCheck (t.who addrs.cur) .write storeKinds 8 .none false (addrs.readS 1).toNat 8) = true ∧
     okay (t.storeCheck (t.who addrs.cur) .write storeKinds 8 .none true (addrs.readS 1).toNat 8) = true ∧
     okay (t.storeCheck (t.who addrs.cur) .write storeKinds 1 .none false (addrs.readS 4).toNat 1) = true) ∧
    (let odd := fun (m : Option (List Nat)) => ({ addrs with bytesNow := m } : State).reading [1, 5]
     let part := fun (t : State) (f : State → Split → Bool) =>
       match t.storeCheck (t.who t.cur) .write storeKinds 8 .none false (va + 3) 8 with
       | .ok r => f t { len := 4, reads := [1, 5], base := va + 3, data := bytesOfNat 8 5, localOnly := false, region := r,
                        left := List.range 8 }
       | _ => false
     part (odd none) (fun t x => (List.range 8).all (fun j => (t.placesNow x).contains j)) = true ∧
     part (odd (some [])) (fun t x => (List.range 8).all (fun j => !(t.placesNow x).contains j)) = true ∧
     [none, some []].all (fun m => part (odd m) (fun t x =>
       let u := t.withMe { t.me with split := some x }
       (u.me.split == some x) && !u.vectorMoves &&
         (if m = none then x.left.all (fun j => (u.placesNow x).contains j)
          else x.left.all (fun j => !(u.placesNow x).contains j)))) = true) ∧
    (let x : Split := { len := 4, reads := [], base := osBase + 1, data := bytesOfNat 2 5, localOnly := false,
                        region := .window false 1, left := [0, 1] }
     x.region = .window false 1 ∧ [0, 1].all (fun j => decide (j < x.data.length)) = true) ∧
    swf 0 addrs.myCtx.osw = true := by
  decide +kernel

theorem witness_StoreFrame :
    addrs.Ready [1, 5] [] ∧ addrs.Quiet ∧ addrs.Plain ∧
    okay ((addrs.reading [1, 5]).storeCheck ((addrs.reading [1, 5]).who addrs.cur) .write storeKinds 8 .none false
      (addrs.readS 1 + BitVec.signExtend 64 (0#11)).toNat 8) = true ∧
    nextHas (exec (.st 5 1 0) addrs) (fun _ => true) = true ∧ (va % 8 = 0) ∧
    nextHas (exec (.st 5 1 3) ({ addrs with bytesNow := some [0] } : State)) (fun u => decide (u.me.pc = addrs.me.pc)) = true := by
  decide +kernel

theorem witness_AddressChecks : 2 ^ 57 < (2 ^ 57 - 7) + 8 ∧
    1048568 + 8 ≤ (base.ctx base.cur.cid).isBytes ∧ 262136 + 8 ≤ (base.ctx base.cur.cid).osBytes := by
  decide +kernel

theorem witness_Atomics :
    addrs.Ready [2, 5] [6] ∧ addrs.Ready [2, 5, 6] [6] ∧ addrs.Ready [2] [6] ∧ addrs.Ready [2, 5] [] ∧ addrs.Quiet ∧
    addrs.Plain ∧ addrs.outstanding = false ∧
    (match (addrs.reading [2, 5]).atomicCheck (addrs.who addrs.cur) 2 .rmw 8 (addrs.readS 2).toNat 8 with
     | .ok pl => !addrs.migrating .sync pl.pa
     | _ => false) = true ∧
    okay ((addrs.reading [2]).atomicCheck (addrs.who addrs.cur) 1 .read 8 (addrs.readS 2).toNat 8) = true ∧
    (match addrs.locate (addrs.who addrs.cur) 2 .rmw ((addrs.readS 2).toNat + 4) 8 with
     | .ok (.pages ps) => ps.all (fun p => decide (p.1.kind = .sync))
     | _ => false) = true ∧
    ((sending addrs).outstanding = true ∧ ordReleases 0 = false ∧ ordReleases 2 = true ∧ (sending addrs).Plain ∧
     (sending addrs).Quiet ∧ (sending addrs).Ready [2, 5] [6] ∧ (sending addrs).Ready [2, 5, 6] [6] ∧ (sending addrs).Ready [2, 5] [] ∧
     okay (((sending addrs).reading [2, 5]).atomicCheck (addrs.who addrs.cur) 2 .rmw 8 (addrs.readS 2).toNat 8) = true) := by
  decide +kernel

theorem witness_PipesAndWaits :
    (base.Ready [1] [] ∧ base.Ready [] [1] ∧ base.Quiet ∧ base.Plain ∧ base.cur.kind = .ch ∧
     base.myCtx.pipeOut.length < 16 ∧ base.outstanding = false) ∧
    (let s := ({ base with cur := { cid := 0, kind := .fh } } : State)
     let f := s.withMyCtx { s.myCtx with pipeIn := List.replicate 16 0 }
     s.Ready [1] [] ∧ s.Quiet ∧ s.cur.kind = .fh ∧ s.myCtx.pipeIn.length < 16 ∧ 16 ≤ f.myCtx.pipeIn.length ∧
      f.Ready [1] [] ∧ f.Quiet ∧ f.Plain) ∧
    (let s := ({ base with cur := { cid := 0, kind := .dh } } : State)
     let f := s.withMyCtx { s.myCtx with pipeOut := [7] }
     f.Ready [] [1] ∧ f.Plain ∧ f.cur.kind = .dh ∧ f.myCtx.pipeOut = [7] ∧ s.Ready [] [1] ∧ s.Plain ∧ s.myCtx.pipeOut = []) ∧
    (addrs.watchOf addrs.cur = none ∧ addrs.Ready [2, 5] [6] ∧
     okay ((addrs.reading [2, 5]).atomicCheck (addrs.who addrs.cur) 1 .read 8 (addrs.readS 2).toNat 8) = true) ∧
    (let s : State := { addrs with watches := [{ ref := addrs.cur, pa := 0x300000, want := 1, hit := true }] }
     s.watchOf s.cur = some { ref := addrs.cur, pa := 0x300000, want := 1, hit := true } ∧ s.Ready [2, 5] [6]) := by
  decide +kernel

theorem witness_PipesAndWaits_waits :
    (let f := base.withMyCtx { base.myCtx with pipeOut := List.replicate 16 0, pipeIn := [7] }
     f.Ready [1] [] ∧ f.Plain ∧ f.cur.kind = .ch ∧ 16 ≤ f.myCtx.pipeOut.length ∧ f.Ready [] [1] ∧ f.myCtx.pipeIn = [7] ∧
      base.myCtx.pipeIn = []) ∧
    ((sending base).outstanding = true ∧ (sending base).Ready [1] [] ∧ (sending base).Plain ∧
     (sending { base with cur := { cid := 0, kind := .fh }, packets := [] }).outstanding = false) ∧
    (let s : State := { base with cur := { cid := 0, kind := .fh }
                                  packets := [{ multicast with ref := { cid := 0, kind := .fh } }] }
     s.outstanding = true ∧ s.Ready [1] [] ∧ s.Plain ∧ s.cur.kind = .fh ∧ s.myCtx.pipeIn.length < 16) := by
  decide +kernel

theorem witness_FencesAndHeartbeat :
    (base.Quiet ∧ base.copiesDone base.cur = true ∧ base.outstanding = false ∧
     base.me.fenceHb = none ∧ base.Plain ∧ base.Ready [] [1] ∧ base.Ready [0] [] ∧
     (base.readS 0).toNat ≤ base.hb.toNat) ∧
    ((sending base).Quiet ∧ (sending base).Ready [] [] ∧ (sending base).copiesDone base.cur = true ∧
     (sending base).outstanding = true) ∧
    (let s := { base.withMe { base.me with fenceHb := some 0 } with hb := 1 }
     s.Quiet ∧ s.copiesDone s.cur = true ∧ s.me.fenceHb = some 0 ∧ (0 : Word) ≠ s.hb) ∧
    (let s := setRegs base [(1, 1)]
     s.Ready [1] [] ∧ s.hb.toNat < (s.readS 1).toNat) := by
  decide +kernel

theorem witness_TrapEntry :
    (let s := base.withMyCtx { base.myCtx with trapvec := 0x8000000000100000 }
     s.Quiet ∧ s.me.split = none ∧ (∀ k ∈ [HartKind.ch, .fh, .dh], (s.myCtx.hart k).split = none) ∧
      s.myCtx.handler = none ∧ bit s.myCtx.trapvec 63 = true ∧
      ({ cause := .ebreak } : Trap).toSupervisor = false ∧ ({ cause := .misalign } : Trap).toSupervisor = false) ∧
    (let s := base.withMyCtx { base.myCtx with viq := [base.entryOf (.vabs 0 1 2) []] }
     s.cur.kind = .ch ∧ s.myCtx.viq ≠ []) := by
  decide +kernel

theorem witness_TrapToSupervisor :
    (base.Quiet ∧ base.me.split = none ∧ ({ cause := .ecall } : Trap).toSupervisor = true ∧ base.supervisor = none) ∧
    (let s : State := { base with ctxs := base.ctxs ++ [(1, { Ctx.reset with super := true, slotState := .resident })] }
     s.Quiet ∧ s.me.split = none ∧ s.supervisor = some 1 ∧ ({ cause := .pagefault, detail := 1 } : Trap).isXlat = true ∧
      ({ cause := .ecall } : Trap).isXlat = false ∧ bit s.myCtx.trapvec 63 = false) := by
  decide +kernel

theorem witness_CallsAndReturns :
    base.myCtx.handler ≠ some base.cur.kind ∧
    (let s := base.withMyCtx { base.myCtx with
       handler := some .ch, image := some { entries := [], vl := 3, vtype := 0x280, epoch := 0 } }
     s.Quiet ∧ s.myCtx.handler = some s.cur.kind ∧ s.cur.kind = .ch ∧
      s.myCtx.image = some { entries := [], vl := 3, vtype := 0x280, epoch := 0 }) := by
  decide +kernel

theorem witness_ControlRegisters : base.Quiet ∧ base.Plain ∧ base.Ready [] [1] ∧ base.Ready [1] [] ∧ base.cur.kind = .ch ∧
    base.me.pendCsr = none ∧ base.myCtx.super = false ∧ Csr.maxlen ≠ .fflags ∧ Csr.maxlen ≠ .vfill ∧
    (let s := setRegs (base.withMyCtx { base.myCtx with super := true }) [(1, 3), (2, 1)]
     s.Ready [1] [] ∧ s.Quiet ∧ s.Plain ∧ s.me.pendCsr = none ∧ s.myCtx.super = true ∧ bits (s.readS 1) 0 2 = 3 ∧
      bits (s.readS 2) 0 2 ≠ 3 ∧ bit (s.readS 2) 0 = true ∧ bits s.myCtx.migstat 0 2 ≠ 1 ∧ s.Ready [2] [] ∧
      bits (s.withMyCtx { s.myCtx with migstat := 1 }).myCtx.migstat 0 2 = 1 ∧ (s.kernel s.myCtx.kernel).isSome = true ∧
      (let f : State := { s with cur := { cid := 0, kind := .fh } }
       f.Ready [1] [] ∧ f.Quiet ∧ f.Plain ∧ f.me.pendCsr = none ∧ f.cur.kind ≠ .ch ∧ f.myCtx.super = true)) := by
  decide +kernel

theorem witness_Turn :
    (let s := setRegs base [(1, va), (2, 128)]
     s.Ready [1, 2] [3] ∧ s.Quiet ∧ s.outstanding = false ∧ 0 < (s.readS 2).toNat ∧
      (s.readS 2).toNat < 2 ^ 40 ∧ (s.readS 1).toNat + (s.readS 2).toNat ≤ 2 ^ 57 ∧ s.turnIntr = none ∧
      (s.reading [1, 2]).turnStalls (s.who s.cur) va 128 = false) ∧
    (let s := setRegs base [(1, 2 ^ 57 - 1), (2, 2)]
     s.Ready [1, 2] [3] ∧ s.Quiet ∧ 0 < (s.readS 2).toNat ∧ 2 ^ 57 < (s.readS 1).toNat + (s.readS 2).toNat) ∧
    (let s : State := { base with gran := [(5, { writer := 0, level := .core, tenant := 0, comp := none })] }
     tget s.gran 5 = some { writer := 0, level := .core, tenant := 0, comp := none } ∧ tget s.gran 4 = none) := by
  decide +kernel

theorem witness_TurnWait :
    (let s := setRegs base [(1, va), (2, 128)]
     let t := s.reading [1, 2]
     s.Ready [1, 2] [3] ∧ 0 < (s.readS 2).toNat ∧ s.me.twait = none ∧ t.twaitFault (t.who s.cur) va 128 = none ∧
      t.unready (t.who s.cur) va 128 = 0 ∧ t.unreadyBehind (t.who s.cur) va 128 = false ∧ s.Quiet ∧
      (let b : State := { s with packets := [{ multicast with pa := 0x20000 }] }
       b.Ready [1, 2] [3] ∧ b.Quiet ∧ b.me.twait = none ∧ (b.reading [1, 2]).twaitFault (b.who b.cur) va 128 = none ∧
        (b.reading [1, 2]).unreadyBehind (b.who b.cur) va 128 = true) ∧
      (let p : State := { s with gran := [(0x20000 / 64, { writer := 1, level := .none, tenant := 0, comp := none })] }
       p.Ready [1, 2] [3] ∧ (p.reading [1, 2]).unready (p.who p.cur) va 128 ≠ 0 ∧
        (p.reading [1, 2]).unreadyBehind (p.who p.cur) va 128 = false) ∧
      (let q := s.withMyCtx { s.myCtx with viq := [s.entryOf (.vst 0 5 1) [1]] }
       q.Ready [1, 2] [3] ∧ q.cur.kind = .ch ∧ q.myCtx.viq.any (entryMem q.myCtx) = true)) ∧
    (let w : TWait := { d := 3, start := va, len := 64, timeout := 64, since := 0 }
     let s := evt { base.withMe { base.me with twait := some w } with hb := 1 } (argHart base.cur)
     (s.hart s.cur).twait = some w ∧ s.unreadyBehind (s.who s.cur) va 64 = false ∧ w.timeout ≤ 64 * (s.hb - w.since).toNat + 63) := by
  decide +kernel

/-- The entry of an instruction on the base state passes its checks, and can be issued and executed at once. -/
abbrev canRun (s : State) (i : Instr) (reads writes : List SReg) (fmts masks : List Nat) (spans : List VReg) : Prop :=
  s.VReady reads writes ∧ vecCheck s.myCtx (s.entryOf i reads) (fmts.map (fun r => tagType (s.myCtx.tag (BitVec.ofNat 5 r))))
    (masks.map (BitVec.ofNat 3)) (spans.map s.myCtx.span) = none

theorem witness_VectorArithmetic : canRun base (.vadd 0 1 3 1 2) [] [] [3, 1, 2] [1] [3, 1, 2] ∧
    canRun base (.vfma 1 0 3 1 2) [2] [] [3, 1] [0] [3, 1] := by
  decide +kernel

theorem witness_VectorBits : canRun base (.vsra 0 1 3 1 2) [] [] [] [1] [3, 1, 2] ∧
    canRun base (.vand 1 0 3 1 2) [2] [] [] [0] [3, 1] ∧ swf 0 base.myCtx.v = true := by
  decide +kernel

theorem witness_VectorUnary : canRun base (.vabs 1 3 1) [] [] [3, 1] [1] [3, 1] ∧
    vecCheck base.myCtx (base.entryOf (.vmov 0 3 1) []) [] [0] [base.myCtx.spanAs 3 1, base.myCtx.span 1] = none := by
  decide +kernel

theorem witness_VectorComparesAndMasks : canRun base (.vclt 0 1 2 1 2) [] [] [1, 2] [1, 2] [1, 2] ∧
    canRun base (.vmerge 0 1 3 1 2) [] [] [] [1] [3, 1, 2] ∧ canRun base (.mand 1 2 3) [] [] [] [1, 2, 3] [] := by
  decide +kernel

theorem witness_VectorPermutes : canRun base (.vslideup 0 3 1 2) [2] [] [] [0] [3, 1] ∧
    vecCheck base.myCtx (base.entryOf (.vslideup 0 3 1 2) [2]) [] [0] [base.myCtx.spanAs 3 1, base.myCtx.span 1] = none ∧
    canRun base (.vsplat 0 3 1) [1] [] [] [0] [3] ∧ canRun base (.vins 3 1 2) [1, 2] [] [] [] [3] ∧
    canRun base (.vext 1 3 2) [2] [1] [] [] [3] := by
  decide +kernel

theorem witness_VectorReductions : canRun base (.vredSum 1 3 1) [] [] [3, 1] [1] [3, 1] ∧
    canRun base (.vredAnd 0 3 1) [] [] [] [0] [3, 1] := by
  decide +kernel

theorem witness_VectorHadamard : canRun base (.vhad 3 1 0) [] [] [1, 3] [] [3, 1] := by decide +kernel

/-- The base state with scalar messages, the first of them complete, in channel 0. -/
def withMsg (scalar complete : Bool) : State :=
  base.withKernel 0 { kern with chans := kern.chans.map (fun q => { q with
    msgs := [{ scalar := scalar, vals := [7], tag := 0x01A, len := 1, beats := 1, complete := complete }] }) }

theorem witness_VectorScans :
    (base.Plain ∧ carryChannels .none .none base = none ∧ canRun base (.vscanAdd 1 3 1 .none .none) [] [] [3, 1] [1] [3, 1] ∧
     canRun base (.vscanLin 0 3 1 2 .none .none) [] [] [3, 1, 2] [0] [3, 1, 2] ∧ base.myCtx.intReg 1 = false ∧
     base.myCtx.intReg 2 = false) ∧
    (let s := withMsg true true
     s.Plain ∧ carryChannels (.channel 0) (.channel 0) s = none ∧ ((carryMsg s 0).bind id).isSome = true ∧
      (s.chan 0).any (fun q => decide (q.free ≠ 0)) = true ∧
      s.outstanding = false) ∧
    (let s := base.withMyCtx { base.myCtx with vtag := [(1, 0x01B), (3, 0x01B)] }
     canRun s (.vscanMax 0 3 1 .none .none) [] [] [3, 1] [0] [3, 1] ∧ s.myCtx.intReg 1 = true) := by
  decide +kernel

theorem witness_VectorConfiguration :
    base.cur.kind = .ch ∧ base.Quiet ∧ base.Ready [1] [2] ∧ base.Ready [1, 3] [2] ∧ base.VReady [] [] ∧
    base.VReady [1] [] ∧ base.VReady [] [2] ∧ bit base.myCtx.vtype 10 = false ∧
    (let e := base.entryOf (.csrw .maxlen 1) [1]
     let s := evt (base.withMyCtx { base.myCtx with viq := [e] }) (argA 0)
     (s.ctx 0).viq = [e] ∧ e.job = none ∧ (s.ctx 0).streams = [] ∧ (s.ctx 0).vectorRuns = true ∧
      (e.outside = false ∨ ((s.ctx 0).hart .ch).checkedBy = none) ∧ (s.copyQueue (s.ctx 0).core).all (fun x => decide (x.ref.cid ≠ s.evArg.a)) = true) := by
  decide +kernel

theorem witness_VectorLoads :
    (addrs.Plain ∧ canRun addrs (.vld 0 5 1) [1] [] [] [0] [5] ∧ canRun addrs (.vlds 0 5 1 9) [1, 9] [] [] [0] [5] ∧
     canRun addrs (.vldx 0 5 3 6) [3] [] [] [0] [5, 6] ∧
     (addrs.myCtx.actives (addrs.entryOf (.vld 0 5 1) [1]) 0).all (fun j =>
       let t := addrs.issued (.vld 0 5 1) 4 [1] []
       okay (t.load (t.who t.cur) (addrs.readS 1 + BitVec.ofNat 64 (j * 32 / 8)).toNat 4)) = true ∧
     8 ≤ addrs.myCtx.regWidth 5 ∧ (addrs.myCtx.windowOf (addrs.readS 3).toNat).isSome = true ∧
     (addrs.myCtx.windowOf (addrs.readS 1).toNat).isSome = false) ∧
    (let s := setRegs base [(1, va + 0x1FFF8)]
     let t := s.issued (.vldff 0 5 1) 4 [1] []
     canRun s (.vldff 0 5 1) [1] [] [] [0] [5] ∧
     s.myCtx.actives (s.entryOf (.vldff 0 5 1) [1]) 0 = [0, 1] ++ 2 :: [3] ∧
     ([0, 1].all (fun j => okay (t.load (t.who t.cur) (va + 0x1FFF8 + 4 * j) 4))) = true ∧
     (match t.load (t.who t.cur) (va + 0x20000) 4 with
      | .trap x => decide (x.cause = .pagefault)
      | _ => false) = true) ∧
    (let e := addrs.entryOf (.vldx 0 5 1 6) [1]
     let s := evt (addrs.withMyCtx { addrs.myCtx with viq := [e] }) (argA 0)
     s.myCtx.viq = [e] ∧ e.job = none ∧ e.step = 0 ∧ e.index = [] ∧ s.myCtx.streams = [] ∧ s.myCtx.vectorRuns = true ∧ s.Plain ∧
      s.cur = { cid := s.evArg.a, kind := .ch } ∧
      (s.myCtx.actives e 0).all (fun j =>
        okay (s.load (s.who s.cur) (indexedAddr s.myCtx e 6 32 (e.op 0) j) 4)) = true) := by
  decide +kernel

theorem witness_VectorStores :
    addrs.Plain ∧ canRun addrs (.vst 0 5 1) [1] [] [] [0] [5] ∧ canRun addrs (.vsts 0 5 1 9) [1, 9] [] [] [0] [5] ∧
    8 ≤ addrs.myCtx.regWidth 5 ∧
    okay ((addrs.myCtx.actives (addrs.entryOf (.vst 0 5 1) [1]) 0).foldl (fun (r : MemRes State) j =>
      r.bind (storeElem addrs.myCtx 5 32 (fun j => va + 4 * j) (fun _ => 0) j))
      (MemRes.ok (addrs.issued (.vst 0 5 1) 4 [1] []))) = true := by
  decide +kernel

theorem witness_ScatterAdds :
    (let i : Instr := .vscadd 0 5 2 6
     let e := addrs.entryOf i [2]
     addrs.Plain ∧ canRun addrs i [2] [] [] [0] [5, 6] ∧ scaddType (addrs.myCtx.regType 5) = true ∧
     (match scaddTargets addrs.myCtx 0 5 6 e (addrs.issued i 4 [2] []) with
      | .ok x => decide (scaddLeft e x ≠ [])
      | _ => false) = true ∧ addrs.VReady [2] [] ∧
     (let b : State := { addrs with packets := [{ multicast with pa := 0x300000 }] }
      (match scaddTargets b.myCtx 0 5 6 (b.entryOf i [2]) (b.issued i 4 [2] []) with
       | .stall => true
       | _ => false) = true ∧ b.VReady [2] []) ∧
     (let z := addrs.withMyCtx { addrs.myCtx with vl := 0 }
      z.myCtx.actives (z.entryOf i [2]) 0 = [] ∧ canRun z i [2] [] [] [0] [5, 6]) ∧
     (let s := evt (addrs.withMyCtx { addrs.myCtx with viq := [e] }) (argA 0)
      s.myCtx.viq = [e] ∧ s.myCtx.vectorRuns = true ∧
      (match scaddTargets s.myCtx 0 5 6 e s with
       | .ok ts =>
         ts.fault.isNone && decide (scaddLeft e ts = [0]) && decide (({ e with scatter := some ts } : VEntry).scatter = some ts) &&
         (match ts.targets[0]? with
          | some t => (match s.atomicCheck (s.who s.cur) 2 .rmw 4 t.va 4 with
                       | .ok pl => !s.migrating .sync pl.pa && !s.behind s.myCtx.core .sync pl.pa 4
                       | _ => false)
          | none => false)
       | _ => false) = true)) := by
  decide +kernel

theorem witness_SpillsAndScales :
    addrs.Plain ∧ bit addrs.myCtx.vtype 10 = false ∧ addrs.VReady [1] [] ∧ addrs.VReady [1, 9] [] ∧
    (let e := addrs.entryOf (.vspill 5 1) [1]
     let t := addrs.issued (.vspill 5 1) 4 [1] []
     okay (t.storeCheck (t.who t.cur) .write storeKinds 8 .none false va e.frameLen) = true) ∧
    (let t := addrs.issued (.vreload 5 1) 4 [1] []
     okay (t.loadFor (t.who t.cur) 1 .read loadKinds 8 va 64) = true ∧
     okay (t.loadFor (t.who t.cur) 1 .read loadKinds 8 va (64 + 12288)) = true) ∧
    (let s := setRegs addrs [(9, 2 * 65536)]
     let t := s.issued (.scld 1 1 9) 4 [1, 9] []
     s.VReady [1, 9] [] ∧ okay (t.load (t.who t.cur) va 2) = true) := by
  decide +kernel

theorem witness_MatrixEngine :
    (canRun base (.mop 0 7 1 2 0) [] [] [1, 2] [0, 0] [1, 2] ∧ base.myCtx.full = true ∧
     mopPair (tagType (base.myCtx.tag 1)) (tagType (base.myCtx.tag 2)) (base.myCtx.regType 1) (base.myCtx.regType 2) = true) ∧
    (let s := base.withMyCtx { base.myCtx with vtag := [(1, 0x014), (2, 0x014)] }
     canRun s (.mop 0 7 1 2 0) [] [] [1, 2] [0, 0] [1, 2] ∧
     mopPair (tagType (s.myCtx.tag 1)) (tagType (s.myCtx.tag 2)) (s.myCtx.regType 1) (s.myCtx.regType 2) = true) ∧
    canRun base (.mrow 0 3 0 127) [] [] [3] [0] [3] ∧ canRun base (.mwrow 0 1 127) [] [] [1] [] [1] ∧
    (let s := base.withMyCtx { base.myCtx with full := false }
     s.cur.kind = .ch ∧ s.Quiet ∧ s.Ready [] [] ∧ 4 ≤ (4 : AReg).toNat ∧ s.myCtx.full = false) := by
  decide +kernel

theorem witness_SorusInstructions :
    bit addrs.myCtx.vtype 10 = false ∧ addrs.VReady [] [] ∧ addrs.VReady [1] [] ∧ addrs.VReady [2, 3] [] ∧ addrs.Plain ∧
    sorusCheck addrs.myCtx (addrs.entryOf (.dpt 0 1) []) [1] = none ∧
    sorusCheck addrs.myCtx (addrs.entryOf (.dget 2 0 7) []) [2, 3] = none ∧
    (let t := addrs.issued (.dld 5 1) 4 [1] []
     okay (t.loadImage va 8256) = true) ∧
    (let t := addrs.issued (.dst 5 1) 4 [1] []
     (match t.storeImage va (List.replicate 8256 0) with
      | .ok u => decide (u.myCtx.viq = t.myCtx.viq)
      | _ => false) = true) := by
  decide +kernel

theorem witness_Channels :
    (base.Plain ∧ (base.chan 0).isSome = true ∧ base.sends 0 = true ∧ base.receives 0 = true ∧
     canRun base (.chsend 0 1) [] [] [] [] [1] ∧ (base.chan 0).any (fun q => decide (1 ≤ q.free)) = true) ∧
    (let s := withMsg false true
     ((s.chan 0).bind Chan.ready).any (fun m => !m.scalar) = true ∧ s.VReady [] [] ∧ s.Ready [] [1]) ∧
    (let s := withMsg true true
     ((s.chan 0).bind Chan.ready).any (fun m => m.scalar) = true ∧ s.Ready [] [1] ∧ s.Ready [1] [] ∧ s.Quiet) ∧
    (base.cur.kind = .ch ∧ base.sends 1 = false ∧ base.receives 1 = false ∧ base.Quiet ∧ base.Ready [1] [] ∧
     base.Ready [] [1]) ∧
    (let s := evt (withMsg true false) (argAB 0 0)
     (s.kernel s.evArg.a).any (fun k => (k.chans[s.evArg.b]?).any (fun q => q.msgs.all (fun m => !m.complete))) = true) := by
  decide +kernel

theorem witness_VectorQueue :
    (let s : State := { base with cur := { cid := 0, kind := .fh } }
     s.cur.kind ≠ .ch) ∧
    (let e := { base.entryOf (.vabs 0 1 2) [] with job := some 1 }
     let full := base.withMyCtx { base.myCtx with viq := List.replicate 64 e }
     let one := base.withMyCtx { base.myCtx with viq := [e] }
     full.cur.kind = .ch ∧ full.Ready [] [] ∧ 64 ≤ full.myCtx.viq.length ∧ one.Ready [] [] ∧ one.myCtx.viq = e :: [] ∧
      e.job.isSome = true ∧ one.myCtx.viq.length < 64) ∧
    (let s := base.withMyCtx { base.myCtx with vtype := 0x400 }
     s.VReady [] [] ∧ bit s.myCtx.vtype 10 = true) := by
  decide +kernel

/-- Whether the copy engine's access answers a value. -/
def done {α : Type} (m : Eng α) : Bool :=
  match m with
  | .ok _ => true
  | _ => false

/-- A copy of 128 bytes from the OS window to the STREAM page, whose token is s1. -/
def cmd : CopyCmd :=
  { id := 1, ref := base.cur, core := 0, instr := .cpyout 1 2 3 4 5 0 0 0 0, dst := BitVec.ofNat 64 va,
    src := BitVec.ofNat 64 osBase, len := 128, bar := none, aux := 0, tok := .reg 1, started := false, desc := [],
    moved := [], upTo := 0, landing := [], retired := 0, posted := 0, fail := none, status := none, record := none,
    stamped := false }

/-- The base state with one copy in the queue of its core, and an event that names it. -/
def copying (x : CopyCmd) : State := { evt base (argA 1) with copies := [(0, [x])] }

/-- A copy from the OS window to the end of the STREAM page and to a tile of a COMP page behind it. -/
def tileCmd : CopyCmd := { cmd with started := true, dst := BitVec.ofNat 64 (va + 0xFFC0), len := 4160 }

/-- The state with that copy: the second page is COMP. -/
def tiling : State :=
  { copying tileCmd with mem := ssetList 0 base.mem 0x14008 (bytesOfNat 8 (3 * 2 ^ 60 + 0x30001F)) }

theorem witness_CopyIssue :
    (base.Plain ∧ base.Quiet ∧ (base.copyQueue base.myCtx.core).length < 16 ∧ base.Ready [2, 3, 4, 5] [1] ∧
     base.Ready [3] [1] ∧ base.cur.kind ≠ .dh ∧ base.cur.kind = .ch) ∧
    (let s : State := { base with copies := [(0, List.replicate 16 cmd)] }
     s.Plain ∧ s.Quiet ∧ s.Ready [2] [1] ∧ 16 ≤ (s.copyQueue s.myCtx.core).length) ∧ cmd.tok = .reg 1 ∧
    base.outstanding = false ∧ (copyGroup 4 1).all (fun r => (tget base.myCtx.streams r.toNat).isNone) = true ∧
    (let s := base.withMyCtx { base.myCtx with streams := [(5, { desc := [], pos := 0, strips := [] })] }
     s.Quiet ∧ s.Ready [3, 4, 5] [1] ∧ s.outstanding = false ∧ s.cur.kind = .ch ∧ bits (s.readS 5) 0 9 = s.myCtx.core ∧
      (copyGroup 4 1).any (fun r => (tget s.myCtx.streams r.toNat).isSome) = true) ∧
    ((sending base).outstanding = true ∧ (sending base).Plain ∧ (sending base).Quiet ∧ (sending base).Ready [2] [1]) := by
  decide +kernel

theorem witness_CopyEngine :
    (let s := copying cmd
     s.copy s.evArg.a = some cmd ∧ s.mayStart cmd = true ∧ cmd.tile = [] ∧ s.checkFirst cmd = none ∧ s.checkLast cmd = none) ∧
    (let x := { cmd with len := 0 }
     let s := copying x
     s.copy s.evArg.a = some x ∧ s.mayStart x = true ∧ s.checkFirst x = some 0) ∧
    (let x := { cmd with len := 2 ^ 63 }
     let s := copying x
     s.checkFirst x = none ∧ (s.checkLast x).isSome = true) ∧
    (let x := { cmd with started := true }
     let s := copying x
     s.copy s.evArg.a = some x ∧ s.postWaits x = false ∧ x.retired < x.total ∧ s.ascending x = false ∧
      x.atomOpen s.evArg.b = true ∧ done (s.copyRead x 0 64) = true ∧ done (s.copyWrite x 0 (List.replicate 64 5)) = true ∧
      (let y := { x with moved := [0] }
       y.moved.contains (y.retired / 64) = true ∧ s.atomDone y (y.retired / 64) = true ∧ s.postWaits y = false ∧
        y.retired < y.total ∧ x.moved.contains (x.retired / 64) = false ∧
        ({ s with packets := [{ multicast with copy := some (1, 0) }] } : State).atomDone y (y.retired / 64) = false)) ∧
    (tiling.copy tiling.evArg.a = some tileCmd ∧ tileCmd.started = true ∧ tiling.postWaits tileCmd = false ∧
     tileCmd.retired < tileCmd.total ∧ tileCmd.fail = none ∧ tiling.ascending tileCmd = true ∧
     max tileCmd.upTo tileCmd.retired < tileCmd.total ∧ done (tiling.ascendUnit tileCmd 0) = true) ∧
    (let x := { cmd with
       instr := .scpy 1 2 3 4 5 0 0 0 0, src := BitVec.ofNat 64 va, dst := BitVec.ofNat 64 (va + 0x1000),
       started := true, retired := 128 }
     let s := copying x
     s.copy s.evArg.a = some x ∧ x.stamps = true ∧ x.retired = x.total ∧ s.postWaits x = false ∧
      done (s.engRead x copySrcKinds (x.src.toNat + x.total) 8) = true ∧
      done (s.engWrite x (x.total / 64 + 1) (x.dst.toNat + x.total) (List.replicate 8 5)) = true ∧
      s.effectsDone x = true ∧
      (let y := { x with stamped := true }
       (copying y).copy 1 = some y ∧ y.stamped = true)) ∧
    (let x := { cmd with status := some 128 }
     let s := copying x
     let t : State := { s with packets := [{ multicast with copy := some (1, 1) }] }
     s.copy s.evArg.a = some x ∧ x.status = some 128 ∧ x.tok = .reg 1 ∧ (s.ctx x.ref.cid).slotState ≠ .free ∧
      s.effectsDone x = true ∧ t.copy t.evArg.a = some x ∧ t.effectsDone x = false ∧
      t.packets.any (fun p => decide (p.copy = some (x.id, 1))) = true) := by
  decide +kernel

/-- What the forms of a copy move: TCPY's start, a CPYIN of no bytes, a group of registers, and the reads and writes. -/
theorem witness_CopyEngine_forms :
    (let td := fun (w : Word) => bytesOfWords ([BitVec.ofNat 64 va, w, 64, 64] ++ List.replicate 4 0)
     let x := { cmd with instr := .tcpyIn 1 2 3 4 0 0 0 0 0 0 0, dst := BitVec.ofNat 64 windowLo, aux := BitVec.ofNat 64 (va + 0x1000) }
     let s := fun (w : Word) => { copying x with mem := ssetList 0 base.mem 0x21000 (td w) }
     let last := fun (w : Word) (f : Option Word → Bool) =>
       match (s w).loadFor ((s w).copyWho x) 1 .read loadKinds 1 x.aux.toNat 64 with
       | .ok bs => f ((s w).checkLast { x with desc := wordsOfBytes 8 bs })
       | _ => false
     (s 0).copy 1 = some x ∧ (s 0).mayStart x = true ∧ (s 0).checkFirst x = none ∧ last 0 Option.isNone = true ∧
      last 16 Option.isSome = true) ∧
    (let x := { cmd with instr := .cpyin 1 2 3 4 5 0 0 0 0 0 0, len := 0 }
     (copying x).copy 1 = some x ∧ (copying x).mayStart x = true ∧ (copying x).checkFirst x = some 0) ∧
    (let x := fun (l : List (Nat × List Byte)) => { cmd with
       instr := .cpyin 1 8 3 4 5 1 0 0 0 0 0, src := BitVec.ofNat 64 va, started := true, landing := l }
     [[], [(1, List.replicate 64 5)]].all (fun l => let s := copying (x l)
       (s.copy 1 == some (x l)) && (x l).vdst.isSome && !s.postWaits (x l) && !s.ascending (x l) && (x l).atomOpen 0 &&
         done (s.copyRead (x l) 0 64)) = true) ∧
    (let s := copying cmd
     let in_ := { cmd with instr := .cpyin 1 2 3 4 5 0 0 0 0 0 0, src := BitVec.ofNat 64 va }
     let reg := { cmd with instr := .cpyreg 1 8 9 4 5 6 0 0 0 }
     touchesWindows in_.src.toNat 64 = false ∧ (s.dstPlace cmd va).any (fun pl => decide (pl.kind ≠ .comp)) = true ∧
      (s.cpyregTarget reg).any (fun cid => (s.ctx cid).present && (s.coreRoute reg.core (s.ctx cid).core).isSome) = true ∧
      (let x := { cmd with instr := .tcpyIn 1 2 3 4 0 0 0 0 0 0 0, desc := [BitVec.ofNat 64 va, 0, 64, 64, 0, 0, 0, 0] }
       done (Eng.all ((List.range (8 / tdEsz x.desc)).map (fun i =>
         match tdAddr x.desc x.tile (0 / tdEsz x.desc + i) with
         | none => Eng.ok (List.replicate (tdEsz x.desc) 0)
         | some a => (s.globalOnly x a (tdEsz x.desc)).bind (fun _ => s.engRead x copySrcKinds a (tdEsz x.desc))))) = true)) := by
  decide +kernel

/-- The walk of an EXPORT over granules none of which has a copy. -/
theorem exportWalk_clean (core : Nat) (keys : List Nat) (s : State) (h : s.gran = []) :
    keys.foldl (turnCopy core .host) (s, 0) = (s, 0) := by
  induction keys with
  | nil => rfl
  | cons k r ih => simpa [turnCopy, h, tget] using ih

/-- A walk keeps count of the copies of other cores. -/
theorem exportWalk_counts (core : Nat) (keys : List Nat) (p : State × Nat) :
    p.2 ≤ (keys.foldl (turnCopy core .host) p).2 := by
  induction keys generalizing p with
  | nil => exact Nat.le_refl _
  | cons k r ih =>
    refine Nat.le_trans ?_ (ih _)
    unfold turnCopy
    split
    · exact Nat.le_refl _
    · split
      · exact Nat.le_succ _
      · split <;> exact Nat.le_refl _

/-- A CPYFOLD of two elements that may update its first target, and an EXPORT of a COMP page: with a copy of another core,
without one, and with a ring that has room or is full. -/
theorem witness_CopyEngine_units :
    (let x := { cmd with instr := .cpyfold 1 2 3 4 5 0 1 0 0 0 0, src := BitVec.ofNat 64 va,
                         dst := BitVec.ofNat 64 (va + 0x10000), len := 8, started := true }
     let s := copying x
     s.copy 1 = some x ∧ s.postWaits x = false ∧ x.retired < x.total ∧
      done (s.foldTerms { x with moved := x.moved ++ [x.moved.length] } x.moved.length) = true ∧
      (match s.locate (s.copyWho x) 2 .write (x.dst.toNat + 4 * x.moved.length) 4 with
       | .ok (.pages ((pl, va, _) :: _)) => decide (pl.kind = .sync) && !s.migrating .sync pl.pa &&
           !s.behind x.core .sync pl.pa 4 && (s.eccCheck x.core 2 [(pl, va, 4)]).isNone
       | _ => false) = true) := by
  decide +kernel

/-- An EXPORT of the COMP page. -/
def exportCmd : CopyCmd :=
  { cmd with instr := .exportPage 1 2, src := BitVec.ofNat 64 (va + 0x10000), len := 65536, started := true }

/-- The state with that EXPORT. -/
def exporting : State := { tiling with copies := [(0, [exportCmd])] }

/-- That state with an EXPORT ring of four records. -/
def armed (head : Nat) : State :=
  { exporting.withTenant 0 { exporting.tenant 0 with texport := 0x1000 } with
    hostMem := ssetList 0 base.hostMem 0x1000 (bytesOfWords [BitVec.ofNat 64 head, 0, 4]) }

/-- The state of the EXPORT with a copy of another core. -/
def exportForeign : State :=
  { exporting with gran := [(granKey .comp 0x300000, { writer := 5, level := .none, tenant := 0, comp := none })] }

/-- The granules of the COMP page. -/
def exportKeys : List Nat := (List.range 1024).map (fun g => granKey .comp (0x300000 + 64 * g))

theorem witness_CopyEngine_export :
    ((match exporting.locate (exporting.copyWho exportCmd) 1 .nothing (va + 0x10000) 65536 with
      | .ok (.pages ((pl, _, _) :: _)) => decide (pl.kind = .comp) && decide (pl.pa = 0x300000) && !exporting.migrating .comp pl.pa &&
          !exporting.behind exportCmd.core .comp pl.pa 65536
      | _ => false) = true ∧ exporting.copy 1 = some exportCmd ∧ exporting.postWaits exportCmd = false ∧
     exportCmd.retired < exportCmd.total ∧ (exporting.tenant 0).texport = 0 ∧
     (exporting.dropStrips (fun _ => true) exportKeys).badHalf exportCmd.core 0x300000 136 = none ∧ exporting.gran = [] ∧
     (let put := fun (t : State) => t.ringPut 0x1000 (t.hostWord 0x1008) [BitVec.ofNat 64 (va + 0x10000), 0x300000,
        BitVec.ofNat 64 (imageLength (t.frameImage 0x300000)), t.wgenOf (frameKey .comp 0x300000)]
      let armed := fun (n : Nat) => (armed n).dropStrips (fun _ => true) exportKeys
      ((armed 0).tenant 0).texport = 0x1000 ∧ (armed 0).routeTo exportCmd.core .hostmem 0x1000 = true ∧ (armed 0).gran = [] ∧
       (armed 0).badHalf exportCmd.core 0x300000 136 = none ∧ (put (armed 0)).isSome = true ∧ (put (armed 4)).isNone = true)) ∧
    (∀ s : State, s.gran = [] → exportKeys.foldl (turnCopy exportCmd.core .host) (s, 0) = (s, 0)) ∧
    0 < (exportKeys.foldl (turnCopy exportCmd.core .host) (exportForeign, 0)).2 := by
  refine ⟨by decide +kernel, exportWalk_clean _ _, ?_⟩
  have h : exportKeys = granKey .comp 0x300000 :: exportKeys.tail := by
    unfold exportKeys
    rw [show (1024 : Nat) = 1023 + 1 from rfl, List.range_succ_eq_map, List.map_cons, List.tail_cons]
  rw [h, List.foldl_cons]
  have n : turnCopy exportCmd.core .host (exportForeign, 0) (granKey .comp 0x300000) = (exportForeign, 1) := by
    simp [turnCopy, tget, exportForeign, exportCmd, cmd]
  rw [n]
  exact exportWalk_counts _ _ (_, 1)

/-- A stream descriptor of eight doublewords. -/
def strDesc : List Word := [BitVec.ofNat 64 va, 16, 4, 0, 0, 0, 0, 0]

/-- A state with bytes of memory set. -/
def poke (s : State) (pa : Nat) (bs : List Byte) : State := { s with mem := ssetList 0 s.mem pa bs }

theorem witness_Streams :
    (let s := setRegs (poke base 0x21000 (bytesOfWords strDesc)) [(1, va + 0x1000)]
     let f : State := setRegs (poke { base with cur := { cid := 0, kind := .fh } } 0x21000 (bytesOfWords strDesc)) [(1, va + 0x1000)]
     let g : State := { f with cur := { cid := 0, kind := .dh } }
     s.Plain ∧ strMalformed s.myCtx strDesc = false ∧ s.myCtx.streams.length < 4 ∧ s.VReady [1] [] ∧ s.VReady [] [] ∧
      (match (s.issued (.sbind 5 1) 4 [1] []).loadFor (s.who s.cur) 1 .read loadKinds 8 (s.readS 1).toNat 64 with
       | .ok bs => decide (wordsOfBytes 8 bs = strDesc)
       | _ => false) = true ∧
      f.cur.kind = .fh ∧ f.Ready [1] [] ∧ f.Ready [] [] ∧
      (match (f.reading [1]).loadFor (f.who f.cur) 1 .read loadKinds 8 (f.readS 1).toNat 64 with
       | .ok bs => decide (wordsOfBytes 8 bs = strDesc)
       | _ => false) = true ∧ g.cur.kind = .dh) ∧
    (let st : Stream := { desc := strDesc, pos := 0, strips := [] }
     let s := evt (base.withMyCtx { base.myCtx with streams := [(5, st)] }) (argAB 0 5)
     tget (s.ctx 0).streams 5 = some st ∧ (s.ctx 0).slotState ≠ .free ∧
      okay (MemRes.all ((List.range (min (s.ctx 0).vl (strLen st.desc))).map (fun i =>
        s.strElem (s.who { cid := 0, kind := .ch }) st.desc i))) = true ∧ min (s.ctx 0).vl (strLen st.desc) ≠ 0 ∧
      st.strips.length < 2 ∧ (s.ctx 0).slotState = .issuing) ∧
    (let st : Stream := { desc := strDesc, pos := 1, strips := [[{ word := 5, reads := [], keys := [] }]] }
     let s := base.withMyCtx { base.myCtx with vtag := [(5, 0x010)], streams := [(5, st)] }
     let i : Instr := .vadd 0 1 3 5 2
     let u := s.issued i 4 [] []
     s.cur.kind = .ch ∧ s.Quiet ∧ s.Plain ∧ s.Ready [] [] ∧
      (s.copyQueue s.myCtx.core).all (fun x => decide (x.ref.cid ≠ s.cur.cid)) = true ∧
      tget s.myCtx.streams 5 = some st ∧ tget s.myCtx.streams 3 = none ∧ boundSources s.myCtx i = [5] ∧
      streamsIllFormed s.myCtx [5] = false ∧
      vecCheck s.myCtx (s.entryOf i []) [tagType (s.myCtx.tag 3), tagType (s.myCtx.tag 5), tagType (s.myCtx.tag 2)] [1]
        [s.myCtx.span 3, s.myCtx.span 5, s.myCtx.span 2] = none ∧
      okay (u.strip (u.who u.cur) st 0 s.myCtx.vl) = true ∧ strLen st.desc ≤ st.pos + 3 ∧ st.pos + 1 < strLen st.desc) := by
  decide +kernel

theorem witness_Tasks :
    (let s := setRegs base [(1, va + 0x10000)]
     s.Plain ∧ s.Quiet ∧ s.outstanding = false ∧ s.Ready (regRange 16 8) [] ∧
      recMalformed (taskRecOf ((regRange 16 8).map s.readS)) = false ∧ s.myCtx.deque.length < 64 ∧
      s.Ready ([1, 2] ++ regRange 16 8) [] ∧
      (match (s.reading ([1, 2] ++ regRange 16 8)).atomicCheck (s.who s.cur) 2 .rmw 128 (s.readS 1).toNat 8 with
       | .ok pl => !s.migrating .sync pl.pa && decide (s.memWord pl.pa = 0) && !bit (s.memWord (pl.pa + 8)) 0
       | _ => false) = true ∧ s.readyFull s.myCtx.kernel = false ∧ s.Ready [1] [] ∧
      s.tokensOut s.cur 0 = false ∧ s.me.unread = [] ∧ s.me.dispatch = .root) ∧
    (let counter := fun (n f : Nat) => setRegs (poke base 0x300000 (bytesOfWords
       [BitVec.ofNat 64 n, BitVec.ofNat 64 f, 0, 0, 0, 0, 0, 0, 0, 0, 0, 0, 0, 0, 0, 0])) [(1, va + 0x10000)]
     let at_ := fun (s : State) (n : Word) (f : Bool) =>
       match (s.reading [1]).atomicCheck (s.who s.cur) 2 .rmw 128 (s.readS 1).toNat 8 with
       | .ok pl => decide (s.memWord pl.pa = n) && (bit (s.memWord (pl.pa + 8)) 0 == f) &&
           !recMalformed (taskRecOf (wordsOfBytes 8 (s.memBytes (pl.pa + 64) 64))) && !s.imageBad 0 (pl.pa + 64) 64
       | _ => false
     at_ (counter 2 0) 2 false = true ∧ at_ (counter 1 1) 1 true = true ∧ at_ (counter 0 0) 0 false = true ∧
     (let task := fun (s : State) (w1 w2 : Nat) => s.withMe { s.me with
        dispatch := .task, w1 := BitVec.ofNat 64 w1, w2 := BitVec.ofNat 64 w2 }
      let joins := fun (s : State) (n : Word) (f : Bool) =>
        match (s.reading []).atomicCheck (s.who s.cur) 2 .rmw (if bit s.me.w1 6 then 128 else 8) s.me.w2.toNat 8 with
        | .ok pl => decide (s.memWord pl.pa = n) && (bit (s.memWord (pl.pa + 8)) 0 == f) && !s.migrating .sync pl.pa &&
            !recMalformed (taskRecOf (wordsOfBytes 8 (s.memBytes (pl.pa + 64) 64))) && !s.imageBad 0 (pl.pa + 64) 64 &&
            decide (s.me.dispatch ≠ .root) && !s.me.ending && decide (s.me.w2 ≠ 0) && !s.readyFull s.myCtx.kernel
        | _ => false
      (task base 0 0).me.w2 = 0 ∧ (task base 0 0).me.dispatch ≠ .root ∧ (task base 0 0).me.ending = false ∧
       joins (task (counter 2 0) 0 (va + 0x10000)) 2 false = true ∧ joins (task (counter 0 0) 0 (va + 0x10000)) 0 false = true ∧
       joins (task (counter 1 1) 0x40 (va + 0x10000)) 1 true = true ∧ bit (0x40 : Word) 6 = true)) ∧
    (let t : TaskRec := { w0 := BitVec.ofNat 64 va, w1 := 0, w2 := 0, args := [1, 2, 3, 4, 5] }
     let s := evt (base.withMyCtx { base.myCtx with
       deque := [t], ch := { base.myCtx.ch with dispatch := .idle } }) (argHart base.cur)
     (s.ctx 0).runs .ch = true ∧ (s.ctx 0).handler = none ∧ (s.hart s.cur).stalled = none ∧ (s.hart s.cur).dispatch = .idle ∧
      (s.kernel 0).any (fun x => x.ready.isEmpty) = true ∧ (s.ctx 0).deque = [t] ∧ recEligible .ch t = true ∧
      bit t.w1 3 = false) := by
  decide +kernel

theorem witness_SuspensionAndFarm :
    (let s := base.withMe { base.me with dispatch := .task }
     s.Plain ∧ s.Quiet ∧ s.outstanding = false ∧ s.me.dispatch = .task ∧ s.me.ending = false ∧
      s.myCtx.conts.length < 16 ∧ s.tokensOut s.cur 1 = false ∧ s.me.busy = [] ∧ s.me.unread = [] ∧
      s.tokenCopy s.cur 1 = none) ∧
    (let x : Cont := { id := 4, pc := 8, saved := [(2, 9)], mask := 4, reg := 1, kind := .ch, w1 := 0, w2 := 0,
                       pure := none, token := some 5, ready := true }
     let s := base.withMyCtx { base.myCtx with conts := [x] }
     (s.ctx s.cur.cid).conts.find? (fun y => decide (y.id = 4)) = some x) ∧
    (let s := setRegs base [(1, 7)]
     s.Plain ∧ s.kernel s.myCtx.kernel = some kern ∧ s.Ready [1] [] ∧ (s.readS 1).toNat < 2 ^ 32 ∧
      kern.farm = s.me.farm ∧ kern.farmN ≤ kern.farmNext ∧ s.Ready [] [2]) ∧
    (let x := { kern with farm := 1, farmN := 7 }
     let s := (base.withKernel 0 x).withMe { base.me with farm := 1 }
     s.kernel s.myCtx.kernel = some x ∧ x.farm = s.me.farm ∧ x.farmNext < x.farmN) := by
  decide +kernel

theorem witness_Launches :
    (let s := setRegs base [(1, va + 0x1000), (2, va + 1)]
     let t := s.reading [1]
     s.Ready [1] [3] ∧ s.Plain ∧ s.Quiet ∧ s.outstanding = false ∧
      (match t.loadFor (t.who s.cur) 1 .read loadKinds 1 (s.readS 1).toNat 128 with
       | .ok hb => decide (shNchan ((wordsOfBytes 16 hb).getD 3 0) = 0)
       | _ => false) = true ∧
      (let f := poke s 0x21018 (bytesOfNat 8 (2 * 2 ^ 16))
       match f.loadFor (f.who s.cur) 1 .read loadKinds 1 (s.readS 1).toNat 128 with
       | .ok hb => okay (f.loadFor (f.who s.cur) 1 .read loadKinds 1 (va + 0x1080) (16 * shNchan ((wordsOfBytes 16 hb).getD 3 0)))
       | _ => false) = true ∧ (s.readS 1).toNat % 64 = 0 ∧ (s.readS 2).toNat % 64 ≠ 0 ∧ s.queuedOf s.myCtx.tenant < 256 ∧
      (let f : State := { s with kernels := (List.range 257).map (fun k => (k, { kern with
         state := if k = 0 then .running else .queued })) }
       256 ≤ f.queuedOf f.myCtx.tenant ∧ f.Ready [1] [3] ∧ f.Plain)) ∧
    (let q : KQueue := { KQueue.reset with base := BitVec.ofNat 64 (va + 0x2000), size := 8, tail := 1 }
     let s := evt (poke (base.withKqueue 0 1 q) 0x22000 (bytesOfWord 8 (BitVec.ofNat 64 (va + 0x1000)))) (argAB 0 1)
     (s.kqueue 0 1).entries = some 8 ∧ s.dev.ready = true ∧ (s.kqueue 0 1).head ≠ (s.kqueue 0 1).tail ∧
      (match s.funcRead 0 (va + 0x2000) 8 with
       | some bs => (s.readRecord 0 (wordOfBytes bs).toNat).isSome
       | none => false) = true ∧
      (evt s { argAB 0 1 with w := 3 }).evArg.w = 3 ∧ 8 < ((9 : BitVec 32) - (0 : BitVec 32)).toNat ∧
      s.evArg.b < 4 ∧ s.resetting 0 = false ∧ s.cxlDown = false ∧ State.reset.dev.ready = false ∧ KQueue.reset.entries = none ∧
      ((s.withKernel 0 { kern with state := .faulted, owed := true }).withTenant 0
        { s.tenant 0 with killed := [0] }).resetting 0 = true) ∧
    (let s := evt (base.withKqueue 0 1 { KQueue.reset with base := BitVec.ofNat 64 (va + 0x40000), size := 8, tail := 1 }) (argAB 0 1)
     (s.kqueue 0 1).entries = some 8 ∧ s.dev.ready = true ∧ (s.kqueue 0 1).head ≠ (s.kqueue 0 1).tail ∧
      ((s.funcRead 0 (va + 0x40000) 8).map (fun bs => (wordOfBytes bs).toNat)).bind (s.readRecord 0) = none) := by
  decide +kernel

/-- A window of a queue with records. -/
def win (n : Nat) : Window :=
  { Window.reset with state := .active, recs := List.replicate n (List.replicate 64 5) }

/-- A state with the handle of window 0 in s1, an aligned address in s2, and no handle in s3. -/
def queueing (w : Window) : State :=
  (setRegs base [(1, (queueHandle 0 0).toNat), (2, va + 0x1000)]).withWindow 0 w

theorem witness_Queues :
    (let s := queueing (win 1)
     s.Plain ∧ s.Quiet ∧ s.outstanding = false ∧ s.Ready [2] [5] ∧
      (match (s.reading [2]).load (s.who s.cur) (s.readS 2).toNat 64 with
       | .ok bs => !qdMalformed (wordsOfBytes 8 bs) && decide (qdRcap (wordsOfBytes 8 bs) = 0)
       | _ => false) = true ∧
      (List.range 16).find? (fun j => decide ((s.window (coreQuad (s.who s.cur).core * 16 + j)).state = .free)) = some 1 ∧
      s.Ready [1, 2] [5] ∧ handleWindow (s.readS 1) = some 0 ∧ (s.window 0).live (s.readS 1) = true ∧
      (s.window 0).tenant = s.myCtx.tenant ∧ (s.window 0).state = .active ∧ (s.window 0).rcount = 0 ∧
      (s.window 0).recs.length < 32 ∧ (s.window 0).recs = List.replicate 64 5 :: [] ∧ handleWindow (s.readS 3) = none ∧
      okay ((s.reading [1, 2]).storeCheck (s.who s.cur) .write storeKinds 64 .none false (s.readS 2).toNat 64) = true ∧
      (win 1).closedBy = none) ∧
    ((queueing (win 0)).window 0).recs = [] ∧ ((queueing (win 32)).window 0).count = 32 + (win 32).rcap ∧
    ((queueing { win 1 with state := .draining }).window 0).live (queueHandle 0 0) = true ∧
    ((queueing { win 0 with state := .closed }).window 0).live (queueHandle 0 0) = true ∧
    (let full := queueing { win 31 with state := .spilling, rcap := 32, rbase := va, frames := [0x20000], rcount := 32 }
     let part := queueing { win 31 with state := .spilling, rcap := 32, rbase := va, frames := [0x20000], rcount := 2 }
     let pa := (part.window 0).slot (2 % 32)
     (full.window 0).rcount = (full.window 0).rcap ∧ (full.window 0).live (queueHandle 0 0) = true ∧
      (part.window 0).count ≠ 64 ∧ part.migrating .sync pa.2 = false ∧ part.behind part.myCtx.core .sync pa.2 64 = false) ∧
    (let s := evt (queueing { win 1 with rcap := 32, rbase := va, frames := [0x20000], rcount := 2 }) (argA 0)
     let w := s.window s.evArg.a
     w.state ≠ .free ∧ 0 < w.rcount ∧ w.recs.length < 32 ∧ s.imageBad 0 (w.slot w.rhead).2 64 = false ∧
      s.behind 0 .sync (w.slot w.rhead).2 64 = false) ∧
    (let ws : List Word := [BitVec.ofNat 64 (va + 0x10000), 32, 0, 0, 0, 0, 0, 0]
     let s := queueing (win 1)
     let s : State := { s with mem := ssetList 0 s.mem 0x21000 (bytesOfWords ws) }
     qdMalformed ws = false ∧ qdRcap ws ≠ 0 ∧
      (match (s.reading [2]).load (s.who s.cur) (s.readS 2).toNat 64 with
       | .ok bs => decide (wordsOfBytes 8 bs = ws)
       | _ => false) = true ∧
      okay (s.ringFrames (s.who s.cur) (pagePieces (qdRbase ws) (64 * qdRcap ws))) = true) ∧
    (let full := queueing { win 32 with rcap := 32, rbase := va, frames := [0x300000] }
     let w := full.window 0
     w.state = .active ∧ w.rcount = 0 ∧ 32 ≤ w.recs.length ∧ w.count ≠ 32 + w.rcap ∧
      full.migrating .sync (w.slot ((w.rhead + w.rcount) % w.rcap)).2 = false ∧
      full.behind full.myCtx.core .sync (w.slot ((w.rhead + w.rcount) % w.rcap)).2 64 = false) ∧
    ((queueing (win 1)).window 0).recs = List.replicate 64 5 :: [] := by
  decide +kernel

/-- A queue made CLOSED in this cycle by another hart, or by this one (15_queue R347, R348). -/
theorem witness_Queues_closed :
    (let other : HartRef := { cid := 0, kind := .fh }
     let closed := fun (rs : List HartRef) => queueing { win 0 with state := .closed, closedBy := some (rs, 0) }
     let late := queueing { win 0 with state := .closed, closedBy := some ([other], 100000) }
     ((closed [other]).window 0).closedBy = some ([other], 0) ∧ ((closed [other]).window 0).closedBy.isSome = true ∧
      (closed [other]).sharesCycle ((closed [other]).window 0) .close = true ∧
      late.sharesCycle (late.window 0) .close = false ∧
      ((closed [other]).nowRunning.window 0).closedBy = some ([base.cur, other], 0) ∧
      ((closed [base.cur]).nowRunning.window 0).closedBy = none ∧
      ((closed [other]).window 0).live (queueHandle 0 0) = true ∧ ((closed [other]).window 0).recs = [] ∧
      ((closed [other]).window 0).rcount = 0 ∧ base.myCtx.core < 384 ∧ base.myCtx.slot < 2 ∧
      QKind.pop.rank < QKind.push.rank ∧ ((queueing { win 1 with state := .spilling }).window 0).live (queueHandle 0 0) = true) := by
  decide +kernel

theorem witness_Barriers :
    (let s := setRegs base [(1, 1), (2, 1), (3, va + 0x1000)]
     let x := s.barrier (.quad 0)
     s.Plain ∧ s.Quiet ∧ s.outstanding = false ∧
      s.barOf s.myCtx.kernel (s.readS 1) = some (.quad 0) ∧ s.Ready [1, 2, 3] [] ∧ s.Ready [1] [4] ∧ s.Ready [1, 3] [4] ∧
      1 ≤ (s.readS 2).toNat ∧ (s.readS 2).toNat ≤ 4095 ∧ x.arrived = 0 ∧ x.running = false ∧
      s.anyC s.myCtx.kernel (s.readS 1).toNat = false ∧ s.barOf s.myCtx.kernel (s.readS 3) = none ∧
      (s.me.arrival 1).c = false ∧ (s.readS 3).toNat % 64 = 0 ∧
      (match (s.reading [1, 3]).load (s.who s.cur) (s.readS 3).toNat 64 with
       | .ok bs => !colMalformed (wordsOfBytes 8 bs)
       | _ => false) = true) ∧
    (let s := (setRegs base [(1, 1)]).withBarrier (.quad 0)
       { Barrier.reset with owner := some 0, expect := 1, phase := 1 }
     let t := s.withMe (s.me.withArrival 1 { arrph := 0, a := true, c := true })
     t.barOf t.myCtx.kernel (t.readS 1) = some (.quad 0) ∧ (t.me.arrival 1).a = true ∧ (t.me.arrival 1).c = true ∧
      (t.barrier (.quad 0)).phase ≠ (t.me.arrival 1).arrph ∧ t.Ready [1] [] ∧ t.Ready [1, 2] [4] ∧ t.Plain) ∧
    (let x : Barrier := { Barrier.reset with owner := some 0, expect := 2 }
     x.open_.any (fun y => y.coll.isSome) = false ∧ x.arrived < 8191 ∧ x.arrived + 1 < x.expect ∧
      (Barrier.reset).expect ≤ (Barrier.reset).arrived + 1 ∧ (Barrier.reset).pend = 0) ∧
    (let run := fun (os : List BarArrival) => evt (base.withBarrier (.quad 0) { Barrier.reset with
       owner := some 0, expect := 1, running := true, open_ := os }) (argA 0)
     let zero : BarArrival := { ref := base.cur, coll := some (List.replicate 8 0) }
     (barRefOf 0 = .quad 0 ∧ ((run []).barrier (.quad 0)).running = true ∧ (run []).kernel 0 = some kern ∧
      (run []).colMismatch ((run []).barrier (.quad 0)) (kern.handleOf (.quad 0)) = true) ∧
     (run [zero]).colMismatch ((run [zero]).barrier (.quad 0)) (kern.handleOf (.quad 0)) = false ∧
     (run [zero]).colStalls ((run [zero]).barrier (.quad 0)) = false) := by
  decide +kernel

/-- A descriptor with one output of 64 bytes. -/
def pureDesc : List Word :=
  [16, 0x1000] ++ List.replicate 22 0 ++ [BitVec.ofNat 64 (va + 0x3000), 64] ++ List.replicate 14 0

/-- A state with a key and code registered for tenant 0, the record of a pure task at s1 and its descriptor behind it. -/
def keyed : State :=
  let s := poke (poke base 0x21000 (bytesOfWords [BitVec.ofNat 64 va, 0x28, 0, BitVec.ofNat 64 (va + 0x1400), 0, 0, 0, 0]))
    0x21400 (bytesOfWords pureDesc)
  let c : CodeSlot := { frames := [], used := true, gen := 0, start := va, len := 0x100, digest := List.replicate 32 0, wgens := [] }
  setRegs (s.withTenant 0 { s.tenant 0 with key := some (List.replicate 32 0x11), slots := [(0, c)] })
    [(1, va + 0x1000), (2, 64), (3, va + 0x4000)]

theorem witness_ReuseInstructions :
    (keyed.Plain ∧ keyed.Quiet ∧ keyed.Ready [1, 2] [5] ∧ keyed.Ready [1] [5] ∧ keyed.Ready [1] [] ∧
     0 < (keyed.readS 2).toNat ∧ (keyed.readS 2).toNat ≤ 65536 ∧ (keyed.readS 1).toNat % 4 = 0 ∧
     (keyed.readS 2).toNat % 4 = 0 ∧ keyed.myCtx.super = false) ∧
    okay ((base.reading [1]).loadFor (base.who base.cur) 3 .fetch fetchKinds 4 (va + 0x1000) 64) = true ∧
    (base.tenant 0).slots.all (fun e => !e.2.used) = true ∧
    (List.range 64).find? (fun i => !((tget (base.tenant 0).slots i).map (·.used)).getD false) = some 0 ∧
    (let key := fun (s : State) (f : KeyRes → Bool) =>
       let t := s.reading [1]
       match t.loadFor (t.who t.cur) 1 .read loadKinds 8 (va + 0x1000) 64, t.loadFor (t.who t.cur) 1 .read loadKinds 8 (va + 0x1400) 320 with
       | .ok bs, .ok ds =>
         bit (taskRecOf (wordsOfBytes 8 bs)).w1 3 && !descMalformed (wordsOfBytes 40 ds) &&
           decide ((pureOf (taskRecOf (wordsOfBytes 8 bs)) 0).desc = va + 0x1400) &&
           f (t.keyOf (t.who t.cur) ((pureOf (taskRecOf (wordsOfBytes 8 bs)) 0).withDesc (wordsOfBytes 40 ds)))
       | _, _ => false
     -- With no input, with one of no page, and, hashed, with one of a stack to which a multicast goes.
     let input := fun (a : Nat) => poke (poke keyed 0x21400 [17]) 0x21440 (bytesOfWords [BitVec.ofNat 64 a, 64])
     key keyed (fun r => match r with
       | .key _ => true
       | _ => false) = true ∧
     key (input (va + 0x40000)) (fun r => match r with
       | .skip _ => true
       | _ => false) = true ∧
     key { poke (input va) 0x21008 [8] with packets := [{ multicast with pa := 0x20000 }] } (fun r => match r with
       | .wait => true
       | _ => false) = true) ∧
    (let t := keyed.reading [3]
     keyed.Ready [3] [5] ∧ (match t.loadFor (t.who t.cur) 1 .read loadKinds 8 (va + 0x4000) 64 with
      | .ok bs => bit (taskRecOf (wordsOfBytes 8 bs)).w1 3
      | _ => true) = false) ∧
    (let s := base.withMyCtx { base.myCtx with super := true }
     s.myCtx.super = true ∧ s.Ready [1] [] ∧ s.Plain ∧ s.Quiet) := by
  decide +kernel

/-- A key. -/
def someKey : Keyed := { key := List.replicate 32 1, slot := 0, inputs := [], code := [], reads := [] }

/-- The state of a pure task whose output is 64 bytes of the STREAM page. -/
def pureOut (phase : PurePhase) : PureState :=
  { phase := phase, desc := va + 0x1400, inputs := [], outputs := [(va + 0x3000, 64)], code := 0x1000, byAddr := true,
    demote := false, fill := false, w0 := BitVec.ofNat 64 va, args := [], cores := [0], key := some someKey,
    claim := some 0 }

/-- A reuse entry with an image, or a place to come, in a pool page. -/
def entry (st : EState) : ReuseEntry :=
  { key16 := List.replicate 16 1, tenant := 0, slot := 0, byAddr := true, state := st, imgPa := 0x400000,
    imgVa := va + 0x20000, imgShift := 16, imgLen := if st = .valid then 64 else 0, pages := [], readers := 0, claimed := true }

/-- The base state with a pool page, a reuse entry, and a hart in a pure task. -/
def reusing (phase : PurePhase) (st : EState) : State :=
  let s : State := { poke base 0x14010 (bytesOfNat 8 (4 * 2 ^ 60 + 0x40001F)) with
    reuse := [(0, entry st)], evArg := argHart base.cur }
  let s1 := s.withTenant 0 { s.tenant 0 with rupool := BitVec.ofNat 64 (va + 0x20001) }
  s1.withMe { s1.me with pure := some (pureOut phase) }

/-- The base state with a write of a register that waits. -/
def pending (c : Csr) (x : Word) : State := evt (base.withMe { base.me with pendCsr := some (c, x) }) (argHart base.cur)

theorem witness_ReuseEvents :
    (let s := reusing (.hit 0) .valid
     let p := pureOut (.hit 0)
     (s.hart s.cur).pure = some p ∧ (s.hart s.cur).stalled = none ∧ (s.ctx 0).runs .ch = true ∧
      s.lateHit s.cur = none ∧ s.hitWaits (s.who s.cur) p.outputs 0 = false ∧
      (s.hitCopy (s.who s.cur) p.outputs 0).any (fun t =>
        okay (((t.endRead 0).setPure s.cur (some { p with phase := .retire })).endDecrement s.cur)) = true ∧
      (let f : State := { s with ecc := [0x20000] }
       (f.hart f.cur).pure = some p ∧ f.lateHit f.cur = none ∧ f.hitWaits (f.who f.cur) p.outputs 0 = false ∧
        (f.hitCopy (f.who f.cur) p.outputs 0).isNone = true) ∧
      (let b : State := { s with packets := [{ multicast with pa := 0x400000 }] }
       (b.hart b.cur).pure = some p ∧ b.lateHit b.cur = none ∧ b.hitWaits (b.who b.cur) p.outputs 0 = true) ∧
      (let h := s.withMe { s.me with stalled := some 1 }
       ((h.ctx 0).runs .ch && (h.hart h.cur).stalled.isNone) = false ∧ (h.hitCopy (h.who h.cur) p.outputs 0).isSome = true) ∧
      (let x : LateHit := { ref := s.cur, core := 0, tenant := 0, entry := 0, outputs := p.outputs }
       let l : State := { s with hits := [x] }
       l.hits.find? (fun h => decide (h.ref = s.cur)) = some x ∧
        l.hitWaits { ref := x.ref, core := x.core, tenant := x.tenant } x.outputs x.entry = false ∧
        ({ l with packets := [{ multicast with pa := 0x400000 }] } : State).hitWaits
          { ref := x.ref, core := x.core, tenant := x.tenant } x.outputs x.entry = true) ∧
      okay ((reusing .retire .valid).endDecrement s.cur) = true) ∧
    (let s := reusing .insert .filling
     let p := pureOut .insert
     let w := s.who s.cur
     let n := imageSize p.outputs
     (s.hart s.cur).pure = some p ∧ p.phase = .insert ∧ p.key = some someKey ∧ (s.ctx 0).runs .ch = true ∧
      s.insertClaim w.tenant p someKey = (some 0, s) ∧ s.lateHit s.cur = none ∧
      (s.poolSpaces w n).all (fun q => !s.insertWaits w q.2 p.outputs) = true ∧
      (s.poolSpaces w n).length = 16 ∧ s.outWatch.any (fun o => decide (o.ref = s.cur) && o.dirty) = false ∧
      (let f := (s.freeBelow 16).2
       (f.imageOf w p.outputs).any (fun image => (s.poolSpaces w n).all (fun q => !s.migrating .pool q.2 &&
         ((tget (f.writeCopy .pool q.2 image w.core .host w.tenant).reuse 0).any (fun x => decide (x.state ≠ .dead))))) = true) ∧
      (let d : State := { s with outWatch := [{ ref := s.cur, key := 0, dirty := true }] }
       d.outWatch.any (fun o => decide (o.ref = d.cur) && o.dirty) = true) ∧
      (let d := reusing .insert .dead
       d.insertClaim w.tenant p someKey = (some 0, d) ∧
       ((d.freeBelow 16).2.imageOf w p.outputs).any (fun image => (d.poolSpaces w n).all (fun q =>
         ((tget ((d.freeBelow 16).2.writeCopy .pool q.2 image w.core .host w.tenant).reuse 0).any
           (fun x => decide (x.state = .dead))))) = true) ∧
      (let o := s.withMyCtx { s.myCtx with slotState := .resident }
       (o.ctx 0).runs .ch = false ∧ (o.hart o.cur).pure = some p) ∧
      (s.ctx 0).handler = none ∧ ((s.withMyCtx { s.myCtx with handler := some .ch }).ctx 0).handler.isSome = true ∧
      (let v := reusing .insert .valid
       (v.matching w.tenant someKey.key).isSome = true ∧ ({ p with claim := none }).claim = none)) ∧
    (let s := pending .ruquota 5
     (s.hart s.cur).pendCsr = some (.ruquota, 5)) ∧
    (let s : State := { pending .rupool 5 with reuse := [(0, entry .valid)] }
     let t : State := { s with reuse := [(0, { entry .valid with readers := 1 })] }
     (s.hart s.cur).pendCsr = some (.rupool, 5) ∧
      (s.dropTenant 0).reuse.any (fun e => decide (e.2.tenant = 0) && decide (e.2.readers ≠ 0)) = false ∧
      (t.dropTenant 0).reuse.any (fun e => decide (e.2.tenant = 0) && decide (e.2.readers ≠ 0)) = true ∧
      (t.dropTenant 0).reuse ≠ []) := by
  decide +kernel

/-- A task that has ended but for its insertion (14_group R341). -/
theorem witness_Tasks_ending :
    (let s := (reusing .insert .filling).withMe { (reusing .insert .filling).me with dispatch := .task }
     s.Plain ∧ s.Quiet ∧ s.outstanding = false ∧ s.tokensOut s.cur 0 = false ∧ s.me.unread = [] ∧ s.me.dispatch ≠ .root ∧
      s.me.ending = true) := by
  decide +kernel

/-- A trap record of the base hart. -/
def record (job : Option Nat) (action : Nat) : TrapRec :=
  { id := 3, ref := base.cur, info := 0, addr := 0, spc := BitVec.ofNat 64 va, vcp := 0, hb := 0, s10 := 0, s11 := 0,
    xlat := false, job := job, idle := false, ringAt := none, reply := BitVec.ofNat 64 action }

/-- The base state, its context held by a record, and a supervisor whose ring stands at the start of the SYNC page. -/
def supervised (t : TrapRec) : State :=
  let k := newKernel 1 0 { launchRecOf [] [] with ring := BitVec.ofNat 64 (va + 0x10000) } 1
  let s : State := { poke base 0x300010 (bytesOfWord 8 4) with
    traps := [t]
    kernels := base.kernels ++ [(1, { k with state := .running, super := true, size := 1, cores := [1] })]
    ctxs := base.ctxs ++ [(384, { Ctx.reset with kernel := 1, core := 1, super := true, slotState := .resident })]
    evArg := argA 3 }
  s.withMyCtx { s.myCtx with slotState := .held }

theorem witness_Supervisor :
    (let t := record none 1
     let s := supervised t
     s.nextRecord = some t ∧ s.supervisor = some 384 ∧ t.id = s.evArg.a ∧
      ((s.kernel (s.ctx 384).kernel).map (fun x => x.rcd.ring.toNat)).getD 0 = va + 0x10000 ∧
      s.syncAddr 0 (va + 0x10000) = some 0x300000 ∧ s.syncAddr 0 (va + 0x10010) = some 0x300010 ∧
      ringFull (s.memWord 0x300000) (s.memWord 0x300008) (s.memWord 0x300010) = false ∧
      s.syncAddr 0 (va + 0x10040) = some 0x300040 ∧ s.migrating .sync 0x300040 = false ∧
      s.migrating .sync 0x300000 = false ∧ s.ringUnread 1 0x300000 0x300010 = none ∧
      s.behind 1 .sync 0x300040 128 = false ∧ s.behind 1 .sync 0x300000 8 = false ∧ (s.ctx 384).core = 1 ∧
      (({ s with ecc := [0x300000 / 32] } : State).ringUnread 1 0x300000 0x300010).isSome = true ∧
      (let f := poke s 0x300000 (bytesOfWord 8 4)
       ringFull (f.memWord 0x300000) (f.memWord 0x300008) (f.memWord 0x300010) = true)) ∧
    (let s := evt (base.withMe { base.me with engErr := [5] }) (argHart base.cur)
     (s.hart s.cur).engErr = [5] ∧ (s.ctx 0).present = true ∧ (s.ctx 0).slotState ≠ .held ∧ (s.ctx 0).handler = none ∧
      s.answered 0 = false ∧
      (s.hart s.cur).stalled = none ∧ (s.hart s.cur).dispatch ≠ .idle ∧ (s.ctx 0).viq = [] ∧
      (let o := s.withMyCtx { s.myCtx with handler := some .ch }
       (o.ctx 0).handler = some base.cur.kind ∧ (o.hart o.cur).engErr = [5])) ∧
    ([1, 2, 3, 4, 5, 6, 7].all (fun n => [some 9, none].all (fun job =>
       let s := supervised (record job n)
       (s.trapRec 3 == some (record job n)) && decide ((record job n).reply ≠ 0) && (s.ctx 0).present &&
         decide ((record job n).action = n) && (s.ctx 0).handler.isNone && (s.hart (record job n).ref).split.isNone)) = true) ∧
    (let s := { supervised (record none 2) with cur := base.cur }
     s.replyUnread (record none 2) = none ∧ ({ s with ecc := [2] } : State).replyUnread (record none 2) = some 2 ∧
      (let t := { record none 6 with info := trapInfo { cause := .misalign } false false }
       t.skipsWord = true ∧ (match s.wordAt t.ref with | .ok _ => true | _ => false) = true ∧
        (match ({ s with packets := [{ multicast with pa := 0x20000 }] } : State).wordAt t.ref with
         | .stall => true
         | _ => false) = true) ∧
      (record none 2).xlat = false ∧ (record none 2).idle = false ∧ ({ record none 2 with ref := { cid := 0, kind := .fh } }).ref.kind ≠ .ch ∧
      (s.ctx 0).present = true) := by
  decide +kernel

theorem witness_ContextsAndRights :
    (let two := fun (p q : Nat) =>
       let s : State := { base with
         kernels := [(0, { kern with prio := p, eff := p }), (1, { kern with number := 1, prio := q, eff := q })]
         ctxs := base.ctxs ++ [(384, { base.myCtx with kernel := 1, slot := 1, slotState := .resident })]
         fair := [(0, 1024)] }
       s
     (two 1 2).cidIn 0 ((two 1 2).issueSlot 0) = some 0 ∧ (two 1 2).otherCtx 0 = some 384 ∧ (two 1 2).ctxReady 384 = true ∧
      (two 1 2).starting 0 = false ∧ (two 1 1).starting 0 = false ∧ (two 1 1).answered 384 = false ∧ (two 1 2).answered 384 = false ∧ (two 1 2).ctxPrio 0 < (two 1 2).ctxPrio 384 ∧ (two 1 2).rightsTo 0 = some 384 ∧
      (two 2 1).ctxPrio 384 < (two 2 1).ctxPrio 0 ∧ ((two 2 1).ctx 0).slotState = .issuing ∧ (two 2 1).rightsTo 0 = none ∧
      (two 1 1).issuer 0 = some 0 ∧ (∀ k ∈ [HartKind.ch, .fh, .dh], (((two 1 1).ctx 0).hart k).split = none) ∧
      ((two 1 2).kernel ((two 1 2).ctx 0).kernel).map (·.startAt) = ((two 1 2).kernel ((two 1 2).ctx 384).kernel).map (·.startAt) ∧ (two 1 1).ctxPrio 384 = (two 1 1).ctxPrio 0 ∧
      1024 ≤ (tget (two 1 1).fair 0).getD 0 ∧
      (let u := (two 1 1).withCtx 0 { (two 1 1).ctx 0 with
         ch := { Hart.reset with dispatch := .idle }, fh := Hart.reset, dh := Hart.reset }
       u.ctxPrio 0 ≤ u.ctxPrio 384 ∧ u.ctxReady 0 = false ∧ u.cidIn 0 (u.issueSlot 0) = some 0 ∧ u.otherCtx 0 = some 384 ∧
        u.ctxReady 384 = true)) ∧
    (let s : State := { base with
       kernels := [(0, { kern with state := .placed, startAt := some 2 })]
       ctxs := base.ctxs.map (fun e => (e.1, { e.2 with slotState := .resident })) }
     s.cidIn 0 0 = some 0 ∧ (s.ctx 0).slotState = .resident ∧ s.startsSoon 0 = true ∧ s.issuer 0 = none ∧
      (let v : State := { s with ctxs := s.ctxs.map (fun e => (e.1, { e.2 with slot := 1 })) }
       v.cidIn 0 1 = some 0 ∧ v.cidIn 0 0 = none ∧ (v.ctx 0).slotState = .resident ∧ v.startsSoon 0 = true) ∧
      (let two : State := { s with kernels := s.kernels ++ [(1, { kern with number := 1, state := .placed, startAt := some 3 })]
                                   ctxs := s.ctxs ++ [(384, { base.myCtx with kernel := 1, slot := 1, slotState := .issuing })] }
       two.cidIn 0 0 = some 0 ∧ (two.ctx 0).slotState = .resident ∧ two.issuer 0 = some 384 ∧
        two.startsSoon 384 = true ∧ two.timedFirst 0 384 = true ∧
        ∀ k ∈ [HartKind.ch, .fh, .dh], two.firstDue { cid := 384, kind := k } = false)) ∧
    (let at_ := fun (st : SlotState) (im : Bool) => base.withMyCtx { base.myCtx with slotState := st, imaged := im }
     (at_ .saving false).allCopies.any (fun x => decide (x.ref.cid = 0)) = false ∧ ((at_ .saving false).ctx 0).slotState = .saving ∧
      ((at_ .saving false).ctx 0).imaged = false ∧ ((at_ .saving false).ctx 0).viq = [] ∧
      (at_ .saving false).saveStalls 0 = false ∧ (at_ .saving false).sending 0 = false ∧
      (at_ .restoring false).imageError 0 = none ∧ (at_ .restoring false).saveBehind 0 = false ∧
      ({ at_ .restoring false with packets := [{ multicast with pa := base.saveArea 0 }] } : State).saveBehind 0 = true ∧
      (let s := (withMsg true false).withMyCtx { (withMsg true false).myCtx with slotState := .saving }
       s.sending 0 = true ∧ s.saveStalls 0 = false ∧ (s.ctx 0).slotState = .saving) ∧
      ((at_ .saving true).ctx 0).imaged = true ∧ ((at_ .restoring false).ctx 0).slotState = .restoring ∧
      (let s := (at_ .saved false).withKernel 0 { kern with state := .preempted }
       (s.kernel (s.ctx 0).kernel).any (fun x => s.restorable 0 x) = true ∧ s.queued = [])) := by
  decide +kernel

theorem witness_KernelEvents :
    (let q : Kernel := { newKernel 1 0 (launchRecOf [] []) 1 with state := .queued, prio := 3, eff := 3, size := 1 }
     let q := { q with rcd := { q.rcd with shape := 0xC0 }, size := 96 }
     let free : State := { base with kernels := [(1, q)], ctxs := [] }
     free.queued = [(1, q)] ∧ q.eff < 7 ∧ free.reserve = [] ∧ free.updateReserve = free ∧ (free.fit 1 q).isSome = true ∧
      free.kernels.any (fun y => free.restorable y.1 y.2 && decide (q.eff ≤ y.2.eff)) = false) ∧
    (let s := fun (x : Kernel) => evt (base.withKernel 0 x) (argA 0)
     let up := fun (st : KState) (t : Option Word) => { kern with state := st, startAt := t }
     ((s (up .queued none)).kernel 0).any (fun x => decide (x.state = .queued)) = true ∧
      ((s (up .placed (some 0))).kernel 0).any (fun x => decide (x.state = .placed) && decide (x.startAt = some 0)) = true ∧
      (0 : Word).toNat ≤ base.hb.toNat ∧ base.hb.toNat < (1 : Word).toNat ∧
      ((s (up .draining none)).kernel 0).any (fun x => decide (x.state = .draining)) = true ∧
      (up .draining none).owed = false ∧ (up .draining none).expired = false ∧ (s (up .draining none)).writesLeft 0 = false ∧
      (s (up .draining none)).traps.any (fun t => t.ref.ofKernel 0) = false ∧
      (let o := { up .retired none with owed := true }
       ((s o).kernel 0).any (fun x => x.owed) = true ∧ (s o).writesLeft 0 = false ∧ (s o).complPlace o = none) ∧
      kern.state = .running ∧ kern.owed = false ∧ (s kern).kernel 0 = some kern ∧
      (let o := { up .draining none with rcd := { kern.rcd with watch := 5 }, ran := 5 }
       o.owed = false ∧ o.state ≠ .running ∧ o.expired = true) ∧
      base.startDue = false ∧ (s (up .placed (some 0))).startDue = true ∧
      ((s (up .draining none)).ctxsOf 0).any (fun cid => [HartKind.ch, .fh, .dh].any (fun h =>
        !(((s (up .draining none)).ctx cid).hart h).engErr.isEmpty)) = false ∧
      (let w := { kern with rcd := { kern.rcd with watch := 5 }, ran := 5 }
       ((s w).kernel 0).any (fun x => decide (x.rcd.watch ≠ 0) && decide (x.rcd.watch.toNat ≤ x.ran) &&
         decide (x.state = .running) && x.expired && !x.owed) = true) ∧ kern.rcd.watch = 0) := by
  decide +kernel

/-- A device each of whose slots holds a context of a kernel of low priority, and a kernel of higher priority that
waits. -/
def crowded : State :=
  { base with
    kernels := [(0, { kern with size := 384 }), (1, { newKernel 1 0 { launchRecOf [] [] with shape := 0xC0 } 1 with
      state := .queued, prio := 3, eff := 3, size := 96 })]
    ctxs := (List.range 384).map (fun m => (m, { Ctx.reset with core := m, member := m, slotState := .issuing })) }

theorem witness_KernelEvents_preemption :
    (match crowded.queued with
     | (k, x) :: _ => (crowded.fit k x).isNone && (crowded.chooseVictims k x (crowded.victims x.eff)).isSome
     | [] => false) = true ∧
    crowded.ctxs.any (fun e => decide (e.2.slotState = .saving)) = false ∧ crowded.nextSave = none ∧
    crowded.kernel (0 / 384) = some { kern with size := 384 } ∧
    (∀ k ∈ [HartKind.ch, .fh, .dh], ((crowded.ctx 0).hart k).split = none) := by
  decide +kernel

theorem witness_KernelEvents_nextSave :
    (let s := (base.withKernel 0 { kern with state := .preempted, size := 2 })
     ({ s with ctxs := s.ctxs ++ [(1, { s.myCtx with slotState := .saved, member := 1, core := 1 })] } : State).nextSave = some 0) := by
  decide +kernel

theorem witness_PagesAndMigration :
    (let s := evt base { argAB 0 0 with c := va }
     s.evArg.a < 384 ∧ s.evArg.b < 128 ∧ s.tlbFind 0 0 (va % 2 ^ 57) = none ∧ (s.walk 0 (va % 2 ^ 57)).isSome = true ∧
      s.badWalk 0 0 (va % 2 ^ 57) = false ∧ ({ s with ecc := [0x10000 / 32] } : State).badWalk 0 0 (va % 2 ^ 57) = true ∧
      (s.walk 0 (va + 0x40000)).isNone = true) ∧
    ([0, 1, 2].all (fun n => decide (((pending .xinv n).hart base.cur).pendCsr = some (.xinv, n)) &&
      decide (bits n 0 2 = n.toNat)) = true) ∧ base.reuse = [] := by
  decide +kernel

theorem witness_PagesAndMigration_migcmd :
    (let x : Word := 5
     let s := pending .migcmd x
     let go := ((s.withMyCtx { s.myCtx with migva := BitVec.ofNat 64 va })).withDie 1 { Die.reset with hotres := 0x0020000000100000 }
     let no := (s.withMyCtx { s.myCtx with migva := BitVec.ofNat 64 (va + 0x40000) })
     let busy := go.withMyCtx { go.myCtx with migstat := 1 }
     let split : Split := { len := 4, reads := [], base := va + 1, data := bytesOfNat 8 5, localOnly := false
                            region := (match base.locate (base.who base.cur) 2 .write (va + 1) 8 with
                              | .ok r => r
                              | _ => .window true 0), left := [7] }
     let mid := go.withMe { go.me with split := some split }
     (go.hart go.cur).pendCsr = some (.migcmd, x) ∧ bit x 0 = true ∧ go.badWalk 0 0 va = false ∧ go.myCtx.migBusy = false ∧
      (go.walk 0 va).any (fun l => !go.storing (entryAddr l.word) && mid.storing (entryAddr l.word)) = true ∧
      go.migRefusals (go.walk 0 va) 1 = [] ∧ mid.migRefusals (mid.walk 0 va) 1 = [] ∧ mid.myCtx.migBusy = false ∧
      (mid.hart mid.cur).pendCsr = some (.migcmd, x) ∧ busy.myCtx.migBusy = true ∧ (busy.hart busy.cur).pendCsr = some (.migcmd, x) ∧
      no.migRefusals (no.walk 0 (va + 0x40000)) 1 ≠ [] ∧ no.myCtx.migBusy = false) ∧
    (let s : State := { base.withDie 1 { Die.reset with hotctl := 1 } with hb := 65536 }
     bit (s.dieOf 1).hotctl 0 = true ∧ 65536 ≤ (s.hb - (s.dieOf 1).hotSince).toNat ∧ bit (s.dieOf 0).hotctl 0 = false ∧
      (base.hb - (s.dieOf 1).hotSince).toNat < 65536 ∧
      s.ctxs.all (fun c => [c.2.ch, c.2.fh, c.2.dh].all (fun h => h.split.isNone)) = true) := by
  decide +kernel

theorem witness_PagesAndMigration_switch :
    (let m : Migration := { id := 7, tenant := 0, va := va, src := 0x20000, dst := 0x50000, leafAddr := 0x14000,
                            leafWord := base.memWord 0x14000, starter := some 0, die := 1 }
     let s : State := { base with migs := [m], evArg := argA 7 }
     let far : State := { s with migs := [{ m with dst := 2 ^ 37 }] }
     let d := [300, 301, 302].foldl (fun (s : State) l => s.withLink l { Link.reset with state := .down }) far
     let bad : State := { s with ecc := [0x14000 / 32] }
     let behind : State := { s with packets := [{ multicast with pa := 0x14000 }] }
     s.reaches (96 * paDie m.src) m.dst 65536 = true ∧ s.imageBad (96 * paDie m.src) m.leafAddr 8 = false ∧
      s.migrating .sync m.leafAddr = false ∧ s.behind 0 .sync m.leafAddr 8 = false ∧
      s.migs.find? (fun y => decide (y.id = s.evArg.a)) = some m ∧ m.starter = some 0 ∧ s.memWord m.leafAddr = m.leafWord ∧
      (poke s 0x14000 [0]).memWord m.leafAddr ≠ m.leafWord ∧
      d.reaches (96 * paDie m.src) (2 ^ 37) 65536 = false ∧ bad.imageBad (96 * paDie m.src) m.leafAddr 8 = true ∧
      behind.behind 0 .sync m.leafAddr 8 = true ∧ behind.imageBad (96 * paDie m.src) m.leafAddr 8 = false ∧
      (let two : State := { s with migs := [m, { m with id := 8, src := 0x10000 }] }
       two.migs.find? (fun y => decide (y.id = two.evArg.a)) = some m ∧ two.imageBad (96 * paDie m.src) m.leafAddr 8 = false ∧
        ({ two with migs := two.migs.filter (fun y => decide (y.id ≠ m.id)) } : State).migrating .sync m.leafAddr = true) ∧
      s.Inv ∧ m.src % 65536 = 0 ∧ m.dst % 65536 = 0 ∧ m.src ≠ m.dst ∧ populated m.dst 65536 = true ∧ s.badHalves m.src = []) := by
  decide +kernel

/-- Where no store is under way, no candidate of a window is being stored to (09_page R206). -/
theorem witness_PagesAndMigration_hot (s : State) (pas : List Nat)
    (h : s.ctxs.all (fun c => [c.2.ch, c.2.fh, c.2.dh].all (fun x => x.split.isNone)) = true) :
    pas.any s.storing = false := by
  rw [List.any_eq_false]
  intro pa _
  rw [Bool.not_eq_true]
  unfold State.storing
  rw [List.any_eq_false]
  intro c hc
  have := List.all_eq_true.mp h c hc
  simp only [List.all_cons, List.all_nil, Bool.and_true, Bool.and_eq_true, Option.isNone_iff_eq_none] at this
  simp [this.1, this.2.1, this.2.2]

theorem witness_HostAccess :
    (let s := evt base (argAB 0x20000 8)
     let p : State := { s with gran := [(0x800, { writer := 0, level := .core, tenant := 0, comp := none })] }
     s.dev.ready = true ∧ s.cxlDown = false ∧ granPieces 0x20000 8 = [(0x20000, 8)] ∧ populated 0x20000 8 = true ∧
      s.evArg.f = false ∧ s.hostRoute 0x20000 = true ∧ populated (2 ^ 51) 8 = false ∧ granPieces (2 ^ 51) 8 = [(2 ^ 51, 8)] ∧
      (let far := evt base (argAB (2 ^ 37) 8)
       let d := [300, 301, 302].foldl (fun (s : State) l => s.withLink l { Link.reset with state := .down }) far
       d.dev.ready = true ∧ d.cxlDown = false ∧ d.evArg.f = false ∧ granPieces (2 ^ 37) 8 = [(2 ^ 37, 8)] ∧
       populated (2 ^ 37) 8 = true ∧ d.hostRoute (2 ^ 37) = false) ∧
      (let w := evt (base.warmReset 1) { argAB 0 8 with f := true }
       w.dev.ready = false ∧ w.evArg.f = true ∧ w.dev.lastRst ≠ 0 ∧ w.cxlDown = false) ∧ (evt s { argAB 0 8 with f := true }).evArg.f = true ∧
      (let g : Gran := { writer := 0, level := .core, tenant := 0, comp := none }
       tget ({ s with gran := [(0x800, g)] } : State).gran (0x20000 / 64) = some g ∧ s.compFrame 0x20000 = false) ∧
      s.hostTurn 0x20000 = none ∧ s.ecc = [] ∧ (p.hostTurn 0x20000).isSome = true ∧
      (granPieces s.evArg.a s.evArg.bytes.length).any (fun q => s.migrating .stream q.1) = false ∧
      State.reset.dev.ready = false ∧ s.Inv) ∧
    (evt base { argAB 128 0x3000 with w := 8 }).evArg.a = 128 ∧ bit (8 : Word) 3 = true ∧
    base.cxlDown = false ∧ (base.withLink cxlLink { Link.reset with state := .down }).cxlDown = true ∧
    base.dev.lock = false ∧ ({ base with dev := { base.dev with lock := true } } : State).dev.lock = true ∧
    Config.rollback.toNat ≤ (BitVec.ofNat 16 Config.rollback.toNat).toNat ∧
    (base.tenant 0).tkey.length ≠ 4 ∧
    ((base.withTenant 0 { base.tenant 0 with tkey := [1, 2, 3, 4] }).tenant 0).tkey.length = 4 ∧
    (let s := fun (n : Nat) (why : Nat) =>
       evt { base with dev := { base.dev with fwState := .verifying, fwRej := n } } (argA why)
     (s 0 0).dev.fwState = .verifying ∧ (s 0 0).evArg.a = 0 ∧ (s 7 3).evArg.a = 3 ∧ 7 ≤ (s 7 3).dev.fwRej ∧
      (s 7 4).evArg.a = 4) := by
  refine ⟨by decide +kernel, by decide +kernel, by decide +kernel, by decide +kernel, by decide +kernel, by decide +kernel,
    by decide +kernel, ?_,
    by decide +kernel, by decide +kernel, by decide +kernel⟩
  simp

/-- A flit that is received (18_link R419): one that the receiver expects, one after a gap of one, of two, and one that it has
had already. -/
theorem witness_LinksAndRouters_flits :
    (let x := fun (n e seq : Nat) =>
       let d := { Direction.reset with next := BitVec.ofNat 10 n, expect := BitVec.ofNat 10 e }
       (d.sends 64 (BitVec.ofNat 10 seq)).any (fun d1 => d1.held.isEmpty && d1.nak.isNone &&
         decide (d1.expect = BitVec.ofNat 10 e) && d1.buffer.any (fun y => decide (y.seq = BitVec.ofNat 10 seq)))
     x 0 0 0 = true ∧ x 1 0 1 = true ∧ x 2 0 2 = true ∧ x 2 3 2 = true) := by
  decide +kernel

theorem witness_ResetsAndPort :
    (base.evArg.f = false ∧ (evt base { argA 1 with f := true }).evArg.f = true) ∧ (base.evArg.a < 128 ∧ base.cxlDown = false ∧ 1 ≤ (evt base (argA 1)).evArg.a ∧ (evt base (argA 1)).evArg.a ≤ 2) ∧
    (let s : State := { base with frozen := true }
     s.frozen = true ∧ s.sched = []) ∧
    (let s : State := { base with dev := { base.dev with lock := true } }
     s.dev.lock = true) ∧
    (let s : State := { base with tap := { base.tap with unlocked := true }, frozen := true }
     s.tap.unlocked = true ∧ s.frozen = true ∧ base.tap.unlocked = false) ∧
    (let s : State := { base with half := [(1, 2, true)] }
     ((1, 2, true) : Nat × Nat × Bool) ∈ s.half ∧ s.half.any (fun h => decide (h.1 = 0 ∧ h.2.1 = 0)) = false) ∧
    (let hot := fun (n : Nat) => evt base { argAB 1 2 with f := true, w := BitVec.ofNat 64 n }
     let s : State := { base with half := [(1, 2, true)] }
     95 < (hot 96).evArg.w.toNat ∧ (hot 96).evArg.f = true ∧ (hot 95).evArg.w.toNat ≤ 95 ∧ (evt s (hot 84).evArg).evArg.w.toNat < 85 ∧
      85 ≤ (hot 85).evArg.w.toNat ∧ (hot 96).half = [] ∧ s.half.any (fun h => decide (h.1 = 1 ∧ h.2.1 = 2)) = true) ∧
    (let s : State := { base with soft := [5] }
     (evt s (argA 5)).soft.contains 5 = true ∧ s.soft.contains 6 = false) ∧
    (let s : State := { base with dev := { base.dev with causes := [4], unlRej := 7 } }
     4 ∈ s.dev.causes ∧ 3 ∉ s.dev.causes ∧ (3 : Nat) ≠ 1 ∧ (3 : Nat) ≠ 2 ∧ 7 ≤ s.dev.unlRej) ∧
    (1000 ≤ base.dev.limit.toNat ∧ 60 ≤ 105 ∧ base.dev.limit.toNat < 2300 ∧ base.dev.gate.toNat < 16) := by
  decide +kernel

/-- At a cold reset (20_system R448): an image of the fused version in the first slot, which verifies, in the second, or in
none. -/
theorem witness_ResetsAndPort_slots :
    (let s := fun (a : Nat) => evt { base with dev := { base.dev with fwSlots := (some Config.rollback, some Config.rollback) } } (argA a)
     let good := fun (s : State) (second : Bool) (v : BitVec 16) =>
       (if second then s.dev.fwSlots.2 else s.dev.fwSlots.1) = some v ∧ Config.rollback.toNat ≤ v.toNat ∧
         bit (BitVec.ofNat 64 s.evArg.a) (if second then 1 else 0) = true
     good (s 1) false Config.rollback ∧ (∀ x, ¬ good (s 1) true x) ∧ good (s 2) true Config.rollback ∧
      (∀ x, ¬ good (s 2) false x) ∧ (∀ b x, ¬ good (s 0) b x) ∧ ((s 1).dev.fwSecond != (s 1).dev.fwNew) = false) := by
  refine ⟨⟨rfl, Nat.le_refl _, by decide +kernel⟩, ?_, ⟨rfl, Nat.le_refl _, by decide +kernel⟩, ?_, ?_, by decide +kernel⟩
  · intro x h; exact absurd h.2.2 (by decide +kernel)
  · intro x h; exact absurd h.2.2 (by decide +kernel)
  · intro b x h; cases b <;> exact absurd h.2.2 (by decide +kernel)

/-- A flit of zeros. -/
def flit (n : Nat) : Flit := { seq := BitVec.ofNat 10 n, data := [], crc := 0 }

theorem witness_LinksAndRouters :
    (let f : Direction := { Direction.reset with buffer := [flit 0, flit 1], next := 2 }
     let at_ := fun (st : LState) (n : Nat) (d : Direction) (seq : Nat) (ok : Bool) =>
       evt (base.withLink 3 { state := st, attempts := n, fwd := d, bwd := Direction.reset })
         { argA 3 with w := BitVec.ofNat 64 seq, f := true, g := ok }
     (at_ .up 0 f 0 true).evArg.a ≤ 306 ∧ (at_ .up 0 f 0 true).endSleeps 3 = false ∧
      ((at_ .up 0 f 0 true).withRouter 1 { Router.reset with asleep := true }).endSleeps 0 = true ∧
      ((at_ .training 6 f 0 true).link 3).state = .training ∧
      ((at_ .training 7 f 0 true).link 3).attempts = 7 ∧ ((at_ .retrain 0 f 0 true).link 3).state = .retrain ∧
      f.seqs = [0, 1] ∧ (1 : BitVec 10) ∈ f.seqs ∧ f.again = [] ∧ f.next ∉ f.seqs ∧ f.buffer.length < 256 ∧
      ({ f with again := [0, 1] }).again = [0] ++ 1 :: [] ∧ ({ f with queue := [[1]] }).queue = [1] :: [] ∧
      asksOne 3 = true ∧
      (let g := { f with nak := some 0, naks := 2 }
       ((at_ .replay 0 g 0 true).link 3).state = .replay ∧ g.nak = some 0 ∧ (0 : BitVec 10) ∈ g.seqs ∧ 2 ≤ g.naks ∧
        ({ g with naks := 1 }).naks < 2) ∧
      (let g := { f with expect := 1 }
       (0 : BitVec 10) ∈ g.seqs ∧ (g.expect - 1 - 0).toNat < 256)) ∧
    (let p := { multicast with seq := 3 }
     let s := fun (n : BitVec 16) => ({ base with packets := [p], pairs := [(pairKey 0 0x20000, (9, n))] } : State)
     (s 3).packets.find? (fun q => decide (q.id = (s 3).evArg.a)) = some p ∧ p.seq = ((s 3).pair (pairKey 0 0x20000)).2 ∧
      p.seq = ((s 5).pair (pairKey 0 0x20000)).2 - BitVec.ofNat 16 2 ∧
      p.seq = ((s 2).pair (pairKey 0 0x20000)).2 + BitVec.ofNat 16 1 ∧ p.part = none) ∧
    (let s := fun (x : Router) => evt ({ base with routers := [(0, x)] } : State) (argAB 0 1)
     (s Router.reset).evArg.a < 96 ∧ ((s Router.reset).router 0).asleep = false ∧ (s Router.reset).routerIdle 0 = true ∧
      ((s { Router.reset with asleep := true }).router 0).asleep = true ∧
      ((s { Router.reset with probe := some 0 }).router 0).probe = some 0 ∧
      ((s { Router.reset with probe := some 5 }).router 0).probe = some 5 ∧
      (linkBetween 0 1).any (fun l =>
        decide (((s Router.reset).withLink l { Link.reset with state := .up }).hop 0 1 = .goes)) = true ∧
      ((s { Router.reset with cycle := true }).router 0).cycle = true ∧
      (let t := (s { Router.reset with cycle := true, blocked := some 1, buffer := [7] }).withRouter 1
         { Router.reset with blocked := some 0, buffer := [8] }
       (t.router 0).blocked = some 1 ∧ (t.router 1).blocked = some 0 ∧ (t.router 0).buffer = 7 :: [] ∧
        (t.router 1).buffer = 8 :: []) ∧
      ((s { Router.reset with stepped := true }).router 0).stepped = true) := by
  decide +kernel

end Sys2Proof.Tests
end

section

namespace Sys2Proof.Machine

/-! The kinds of answer that an operation of the model gives, and what it is for each to keep the invariant: every state
in it does. -/

/-- Every state that the result of an instruction holds keeps the invariant. -/
inductive Res.Inv : Res → Prop
  | done {s : State} (h : s.Inv) : Res.Inv (.done s)
  | trap {t : Trap} {s : State} (h : s.Inv) : Res.Inv (.trap t s)
  | wait {y : Bool} {s : State} (h : s.Inv) : Res.Inv (.wait y s)

/-- The next state, where an outcome has one, keeps the invariant. -/
inductive Outcome.Inv : Host.Outcome State Fault Refusal → Prop
  | next {s : State} (h : s.Inv) : Outcome.Inv (.next s)
  | fault {r : Fault} : Outcome.Inv (.fault r)
  | refused {r : Refusal} : Outcome.Inv (.refused r)

/-- The state of an option, where there is one, keeps the invariant. -/
inductive Opt.Inv : Option State → Prop
  | some {s : State} (h : s.Inv) : Opt.Inv (some s)
  | none : Opt.Inv none

/-- What an access of memory answers, where it answers, has a property. -/
inductive MemRes.Holds {α : Type} (P : α → Prop) : MemRes α → Prop
  | ok {a : α} (h : P a) : MemRes.Holds P (.ok a)
  | trap {t : Trap} : MemRes.Holds P (.trap t)
  | stall : MemRes.Holds P .stall

/-- What a unit of the copy engine answers, where it answers, has a property. -/
inductive Eng.Holds {α : Type} (P : α → Prop) : Eng α → Prop
  | ok {a : α} (h : P a) : Eng.Holds P (.ok a)
  | fail {c i a : Nat} : Eng.Holds P (.fail c i a)
  | fault {t : Trap} : Eng.Holds P (.fault t)
  | wait : Eng.Holds P .wait

section answers

variable {α β γ : Type} {s : State}

theorem Res.Inv.get_done {r : Res} (h : r.Inv) (e : r = .done s) : s.Inv := by
  subst e; cases h; assumption

theorem Res.Inv.get_trap {r : Res} {t : Trap} (h : r.Inv) (e : r = .trap t s) : s.Inv := by
  subst e; cases h; assumption

theorem Res.Inv.get_wait {r : Res} {y : Bool} (h : r.Inv) (e : r = .wait y s) : s.Inv := by
  subst e; cases h; assumption

theorem Outcome.Inv.get {o : Host.Outcome State Fault Refusal} (h : Outcome.Inv o) (e : o = .next s) : s.Inv := by
  subst e; cases h; assumption

theorem Opt.Inv.get {o : Option State} (h : Opt.Inv o) (e : o = .some s) : s.Inv := by
  subst e; cases h; assumption

theorem MemRes.Holds.get {P : α → Prop} {m : MemRes α} {a : α} (h : m.Holds P) (e : m = .ok a) : P a := by
  subst e; cases h; assumption

theorem Eng.Holds.get {P : α → Prop} {m : Eng α} {a : α} (h : m.Holds P) (e : m = .ok a) : P a := by
  subst e; cases h; assumption

/-- An answer that is no state has nothing to keep. -/
theorem MemRes.Holds.any (m : MemRes α) : m.Holds (fun _ => True) := by
  cases m with
  | ok a => exact .ok trivial
  | trap t => exact .trap
  | stall => exact .stall

/-- An answer of the engine that is no state has nothing to keep. -/
theorem Eng.Holds.any (m : Eng α) : m.Holds (fun _ => True) := by
  cases m with
  | ok a => exact .ok trivial
  | fail c i a => exact .fail
  | fault t => exact .fault
  | wait => exact .wait

theorem MemRes.Holds.bind {P : α → Prop} {Q : β → Prop} {m : MemRes α} {f : α → MemRes β}
    (hm : m.Holds P) (hf : ∀ a, P a → (f a).Holds Q) : (m.bind f).Holds Q := by
  cases hm with
  | ok h => exact hf _ h
  | trap => exact .trap
  | stall => exact .stall

theorem Eng.Holds.bind {P : α → Prop} {Q : β → Prop} {m : Eng α} {f : α → Eng β}
    (hm : m.Holds P) (hf : ∀ a, P a → (f a).Holds Q) : (m.bind f).Holds Q := by
  cases hm with
  | ok h => exact hf _ h
  | fail => exact .fail
  | fault => exact .fault
  | wait => exact .wait

/-- An access inside an instruction: its trap and its wait leave the state as it was. -/
theorem Res.Inv.elim {m : MemRes α} {k : α → Res} {P : α → Prop} (h : s.Inv) (hm : m.Holds P)
    (hk : ∀ a, P a → (k a).Inv) : (m.elim s k).Inv := by
  cases hm with
  | ok ha => exact hk _ ha
  | trap => exact .trap h
  | stall => exact .wait h

/-- A read inside an instruction: whatever it answers, what follows keeps the invariant. -/
theorem Res.Inv.read {m : MemRes α} {k : α → Res} (h : s.Inv) (hk : ∀ a, (k a).Inv) : (m.elim s k).Inv :=
  .elim h (.any m) fun a _ => hk a

theorem State.Inv.getD {o : Option State} (ho : Opt.Inv o) (h : s.Inv) : (o.getD s).Inv := by
  cases ho with
  | some ho => exact ho
  | none => exact h

theorem State.Inv.optElim {o : Option α} {f : α → State} (h : s.Inv) (hf : ∀ a, (f a).Inv) : (o.elim s f).Inv := by
  cases o with
  | none => exact h
  | some a => exact hf a

theorem Opt.Inv.map {f : α → State} {o : Option α} (hf : ∀ a, (f a).Inv) : Opt.Inv (o.map f) := by
  cases o with
  | some a => exact .some (hf a)
  | none => exact .none

/-- `State.Inv.foldl` with the list implicit. -/
theorem State.Inv.fold {f : State → β → State} {l : List β} (hf : ∀ s b, s.Inv → (f s b).Inv) (h : s.Inv) :
    (l.foldl f s).Inv := State.Inv.foldl hf l h

/-- A fold that counts as it changes the state. -/
theorem State.Inv.foldFst {f : State × α → β → State × α} {l : List β} {p : State × α}
    (hf : ∀ p b, p.1.Inv → (f p b).1.Inv) (h : p.1.Inv) : (l.foldl f p).1.Inv := by
  induction l generalizing p with
  | nil => exact h
  | cons b l ih => exact ih (hf p b h)

/-- A fold that gathers answers as it changes the state. -/
theorem State.Inv.foldSnd {f : α × State → β → α × State} {l : List β} {p : α × State}
    (hf : ∀ p b, p.2.Inv → (f p b).2.Inv) (h : p.2.Inv) : (l.foldl f p).2.Inv := by
  induction l generalizing p with
  | nil => exact h
  | cons b l ih => exact ih (hf p b h)

/-- A fold that ends at the first step without a state. -/
theorem Opt.Inv.fold {f : State → β → Option State} {l : List β} {o : Option State}
    (hf : ∀ s b, s.Inv → Opt.Inv (f s b)) (h : Opt.Inv o) :
    Opt.Inv (l.foldl (fun o b => o.bind fun s => f s b) o) := by
  induction l generalizing o with
  | nil => exact h
  | cons b l ih =>
    refine ih ?_
    cases h with
    | some h => exact hf _ b h
    | none => exact .none

/-- A fold of works of the engine, in order. -/
theorem Eng.Holds.fold {P : α → Prop} {f : β → α → Eng α} {l : List β} {m : Eng α}
    (hf : ∀ b a, P a → (f b a).Holds P) (h : m.Holds P) : (l.foldl (fun m b => m.bind (f b)) m).Holds P := by
  induction l generalizing m with
  | nil => exact h
  | cons b l ih => exact ih (.bind h (hf b))

end answers

section memories

variable {s : State} (h : s.Inv)
include h

/-! The rules of `Laws/Memory` with the data of the write implicit: a proof then names the operations alone. -/

theorem State.Inv.hostWrite' {pa : Nat} {bs : List Byte} : (s.hostWrite pa bs).Inv := h.hostWrite ..

theorem State.Inv.logEvent' {t : EventType} {tenant core : Nat} {l : Level} {addr detail : Word} :
    (s.logEvent t tenant core l addr detail).Inv := h.logEvent ..

theorem State.Inv.lostWrite' {tenant core pa n : Nat} : (s.lostWrite tenant core pa n).Inv := h.lostWrite ..

theorem State.Inv.writePiece' {kind : PageKind} {pa : Nat} {bs : List Byte} {w : Nat} {l : Level} {t : Nat} :
    (s.writePiece kind pa bs w l t).Inv := h.writePiece ..

theorem State.Inv.writeCopy' {kind : PageKind} {pa : Nat} {bs : List Byte} {w : Nat} {l : Level} {t : Nat} :
    (s.writeCopy kind pa bs w l t).Inv := h.writeCopy ..

theorem State.Inv.multicast' {pl : Place} {bs : List Byte} {part : Option (Nat × Nat)} {w : Who} {l : Level} :
    (s.multicast pl bs part w l).Inv := h.multicast ..

theorem State.Inv.writeRegion' {w : Who} {l : Level} {lo : Bool} {a : Nat} {bs : List Byte} {r : Region} :
    (s.writeRegion w l lo a bs r).Inv := h.writeRegion ..

theorem State.Inv.syncWrite' {w : Who} {pa : Nat} {bs : List Byte} : (s.syncWrite w pa bs).Inv := h.syncWrite ..

theorem State.Inv.cleanPiece' {pa : Nat} {bs : List Byte} : (s.cleanPiece pa bs).Inv := h.cleanPiece ..

theorem State.Inv.cleanWrite' {pa : Nat} {bs : List Byte} : (s.cleanWrite pa bs).Inv := h.cleanWrite ..

theorem State.Inv.devWrite' {core tenant pa : Nat} {bs : List Byte} : (s.devWrite core tenant pa bs).Inv :=
  h.devWrite ..

theorem State.Inv.movePage' {src dst : Nat} : (s.movePage src dst).Inv := h.movePage ..

theorem State.Inv.writeSplit' {x : Split} {w : Who} {js : List Nat} : (x.write w js s).Inv := h.writeSplit ..

/-- A record put into a ring, where there is room for it. -/
theorem Opt.Inv.ringPut {base : Nat} {tail : Word} {ws : List Word} : Opt.Inv (s.ringPut base tail ws) := by
  simp only [State.ringPut]
  split
  · exact .none
  · exact .some (.hostWrite' (.hostWrite' h))

/-- A change of the other fields of the state changes neither memory. -/
theorem State.Inv.update
    {gran wgen ecc reported soft hb tenants die tlb migs packets pairs watches outWatch hits reuse windows quadBars
      dieBars kernels kernelNo reserve ctxs copies issue fair starts sorusOff traps dev tap frozen links routers linkCnt
      half hostSeen serial sched cur yieldNow evArg freeCtr turnIntr bytesNow outside} :
    State.Inv
      { mem := s.mem, hostMem := s.hostMem, gran, wgen, ecc, reported, soft, hb, tenants, die, tlb, migs,
        packets, pairs, watches, outWatch, hits, reuse, windows, quadBars, dieBars, kernels, kernelNo, reserve, ctxs,
        copies, issue, fair, starts, sorusOff, traps, dev, tap, frozen, links, routers, linkCnt, half, hostSeen, serial,
        sched, cur, yieldNow, evArg, freeCtr, turnIntr, bytesNow, outside } := h

end memories

section steps

variable {s : State}

/-! One lemma for each function of the model, in the order of the model: where the state it is given keeps the invariant,
so does the state it answers. A function that leaves both memories alone has its lemma by definition; for another, the
proof follows the branches of the function and names what each of them does. -/

/-! Where the parts of the state are read and written. -/

theorem State.Inv.withCtx {cid : Nat} {c : Ctx} (h : s.Inv) : (s.withCtx cid c).Inv := h

theorem State.Inv.withHart {r : HartRef} {h : Hart} (hs : s.Inv) : (s.withHart r h).Inv := hs

theorem State.Inv.withMe {h : Hart} (hs : s.Inv) : (s.withMe h).Inv := hs

theorem State.Inv.withMyCtx {c : Ctx} (h : s.Inv) : (s.withMyCtx c).Inv := h

theorem State.Inv.writeS {r : SReg} {x : Word} (h : s.Inv) : (s.writeS r x).Inv := h

theorem State.Inv.advance {n : Nat} (h : s.Inv) : (s.advance n).Inv := h

theorem State.Inv.jump {pc : Word} (h : s.Inv) : (s.jump pc).Inv := h

theorem State.Inv.retire {n : Nat} {d : SReg} {x : Word} (h : s.Inv) : (s.retire n d x).Inv := h

theorem State.Inv.withTenant {t : Nat} {x : Tenant} (h : s.Inv) : (s.withTenant t x).Inv := h

theorem State.Inv.withDie {d : Nat} {x : Die} (h : s.Inv) : (s.withDie d x).Inv := h

theorem State.Inv.withCopyQueue {core : Nat} {q : List CopyCmd} (h : s.Inv) : (s.withCopyQueue core q).Inv := h

theorem State.Inv.withCopy {c : CopyCmd} (h : s.Inv) : (s.withCopy c).Inv := h

theorem State.Inv.withKernel {k : Nat} {x : Kernel} (h : s.Inv) : (s.withKernel k x).Inv := h

theorem State.Inv.modKernel {k : Nat} {f : Kernel → Kernel} (h : s.Inv) : (s.modKernel k f).Inv := by
  simp only [State.modKernel]
  split
  · exact .withKernel h
  · exact h

theorem State.Inv.withWindow {w : Nat} {x : Window} (h : s.Inv) : (s.withWindow w x).Inv := h

theorem State.Inv.fresh (h : s.Inv) : s.fresh.2.Inv := h

theorem State.Inv.freeByte (h : s.Inv) : s.freeByte.2.Inv := h

theorem State.Inv.freeWord (h : s.Inv) : s.freeWord.2.Inv := h

theorem State.Inv.freeBelow {n : Nat} (h : s.Inv) : (s.freeBelow n).2.Inv := h

/-! Rings in host memory and the event ring. -/

theorem State.Inv.logUncorr {tenant core pa : Nat} (h : s.Inv) : (s.logUncorr tenant core pa).Inv := by
  simp only [State.logUncorr]
  exact .logEvent' (.freeWord h)

theorem State.Inv.logBadEntry {core tenant va : Nat} (h : s.Inv) : (s.logBadEntry core tenant va).Inv :=
  .optElim h (fun _ => .logUncorr h)

theorem State.Inv.logOnce {tenant core half : Nat} (h : s.Inv) : (s.logOnce tenant core half).Inv := by
  simp only [State.logOnce]
  split
  · exact h
  · exact .logUncorr (.update h)

theorem State.Inv.entryOnce {core tenant va : Nat} (h : s.Inv) : (s.entryOnce core tenant va).Inv :=
  .optElim h (fun _ => .logOnce h)

theorem State.Inv.logCorrected {half : Nat} (h : s.Inv) : (s.logCorrected half).Inv := by
  simp only [State.logCorrected]
  exact .logEvent' (.freeWord h)

/-! Reading and writing memory and windows. -/

theorem State.Inv.dropStrips {core : Nat → Bool} {keys : List Nat} (h : s.Inv) : (s.dropStrips core keys).Inv := h

theorem State.Inv.wgenRead {frame : Nat} (h : s.Inv) : (s.wgenRead frame).Inv := h

theorem State.Inv.countDrops {l : List Nat} (h : s.Inv) : (s.countDrops l).Inv := by
  induction l generalizing s with
  | nil => exact h
  | cons t r ih => exact ih (.withTenant h)

theorem State.Inv.writeTurned {w : Who} {level : Level} {a : Nat} {bs : List Byte} {ps : List (Place × Nat × Nat)}
    (h : s.Inv) : (s.writeTurned w level a bs ps).Inv := by
  simp only [State.writeTurned]
  split
  · exact .writeRegion' h
  · exact .dropStrips (.writeRegion' h)

theorem MemRes.Holds.store {w : Who} {a : Nat} {bs : List Byte} (h : s.Inv) : (s.store w a bs).Holds State.Inv :=
  .bind (.any _) (fun _ _ => .ok (.writeRegion' h))

/-! Unaligned stores. -/

theorem State.Inv.finishStore {r : HartRef} (h : s.Inv) : (s.finishStore r).Inv := by
  simp only [State.finishStore]
  split
  · exact h
  · exact .withHart (.writeSplit' h)

/-! The image of a reuse entry and the copy of a hit. -/

theorem Opt.Inv.hitRange {w : Who} {image : Nat} {o : Nat × Nat × Nat} (h : s.Inv) :
    Opt.Inv (s.hitRange w image o) := by
  simp only [State.hitRange]
  split
  · split
    · exact .some (.writeTurned h)
    · exact .none
  · exact .none

theorem Opt.Inv.hitCopy {w : Who} {outs : List (Nat × Nat)} {e : Nat} (h : s.Inv) : Opt.Inv (s.hitCopy w outs e) := by
  simp only [State.hitCopy]
  split
  · exact .none
  · split
    · exact .none
    · exact .fold (fun s o h => .hitRange h) (.some h)

theorem State.Inv.logRanges {w : Who} {l : List (Nat × Nat)} (h : s.Inv) : (s.logRanges w l).Inv := by
  induction l with
  | nil => exact h
  | cons o r ih =>
    simp only [State.logRanges]
    split
    · split
      · exact ih
      · exact h
    · split
      · exact .logBadEntry h
      · exact h
    · exact h

theorem State.Inv.logImage {w : Who} {outs : List (Nat × Nat)} {e : Nat} (h : s.Inv) : (s.logImage w outs e).Inv := by
  simp only [State.logImage]
  split
  · exact h
  · split
    · exact .logUncorr h
    · exact .logRanges h

theorem State.Inv.endRead {e : Nat} (h : s.Inv) : (s.endRead e).Inv := by
  simp only [State.endRead]
  split
  · exact h
  · exact .update h

theorem State.Inv.endCopy {w : Who} {outs : List (Nat × Nat)} {e : Nat} (h : s.Inv) : (s.endCopy w outs e).Inv :=
  .endRead (.getD (.hitCopy h) (.logImage h))

theorem State.Inv.endHit {r : HartRef} (h : s.Inv) : (s.endHit r).Inv := by
  simp only [State.endHit]
  split
  · split
    · split
      · exact .update h
      · exact .endCopy h
    · exact h
  · exact h

theorem Opt.Inv.lateHit {r : HartRef} (h : s.Inv) : Opt.Inv (s.lateHit r) := by
  simp only [State.lateHit]
  refine .map fun x => ?_
  split
  · exact h
  · exact .endCopy (.update h)

/-! The end of a kernel. -/

theorem State.Inv.logEcc {w : Who} {a : Nat} (h : s.Inv) : (s.logEcc w a).Inv :=
  .logUncorr h

theorem State.Inv.writeCompletion {k : Kernel} (h : s.Inv) : (s.writeCompletion k).Inv := by
  simp only [State.writeCompletion]
  split
  · exact h
  · split
    · exact .logEvent' (.logBadEntry h)
    · exact .writeCopy' h

theorem State.Inv.payCompletion {k : Nat} (h : s.Inv) : (s.payCompletion k).Inv := by
  simp only [State.payCompletion]
  split
  · exact h
  · split
    · exact h
    · exact .writeCompletion (.withKernel h)

theorem State.Inv.sweepDead (h : s.Inv) : s.sweepDead.Inv := h

theorem State.Inv.releaseClaim {entry : Option Nat} (h : s.Inv) : (s.releaseClaim entry).Inv := by
  simp only [State.releaseClaim]
  split
  · exact h
  · split
    · split
      · exact .update h
      · exact .sweepDead (.update h)
    · exact h

theorem State.Inv.leaveSorus {c : Ctx} (h : s.Inv) : (s.leaveSorus c).Inv := by
  simp only [State.leaveSorus]
  split
  · exact h
  · split
    · exact .update (.update h)
    · exact .update h

theorem State.Inv.freeCtx {cid : Nat} (h : s.Inv) : (s.freeCtx cid).Inv :=
  .update (.leaveSorus (.fold (fun _ _ h => .releaseClaim h) (.releaseClaim (.releaseClaim (.releaseClaim (.fold
      (fun _ _ h => .endHit (.finishStore h)) h))))))

theorem State.Inv.freeBarriers {k : Nat} (h : s.Inv) : (s.freeBarriers k).Inv := h

theorem State.Inv.endKernel {k : Nat} {st : KState} {reason : Nat} (h : s.Inv) : (s.endKernel k st reason).Inv := by
  simp only [State.endKernel]
  split
  · exact h
  · exact .payCompletion (.withKernel (.freeBarriers (.fold (fun _ _ h => .freeCtx h) h)))

theorem State.Inv.killKernel {k reason : Nat} (h : s.Inv) : (s.killKernel k reason).Inv :=
  .endKernel h

theorem State.Inv.killCtx {cid : Nat} (h : s.Inv) : (s.killCtx cid).Inv := by
  simp only [State.killCtx]
  split
  · exact .freeCtx h
  · exact .killKernel h

/-! The shared operations. -/

theorem State.Inv.interrupt {s0 : State} {r : HartRef} (h0 : s0.Inv) : (s0.interrupt r).Inv :=
  .update (.withHart (.finishStore h0))

theorem State.Inv.abandon {r : HartRef} (h : s.Inv) : (s.abandon r).Inv :=
  .withHart (.interrupt h)

theorem State.Inv.trapRegs {r : HartRef} {t : Trap} {info spc vcp : Word} (h : s.Inv) :
    (s.trapRegs r t info spc vcp).Inv := h

theorem State.Inv.interruptOthers {r : HartRef} (h : s.Inv) : (s.interruptOthers r).Inv := by
  simp only [State.interruptOthers]
  refine .fold (fun _ _ h => ?_) h
  split
  · exact h
  · exact .interrupt h

theorem State.Inv.enterHandler {r : HartRef} {t : Trap} {info spc vcp : Word} (h : s.Inv) :
    (s.enterHandler r t info spc vcp).Inv :=
  .withHart (.withCtx (.trapRegs (.abandon (.interruptOthers h))))

theorem State.Inv.hold {cid : Nat} (h : s.Inv) : (s.hold cid).Inv := h

theorem State.Inv.restartViq {r : HartRef} (h : s.Inv) : (s.restartViq r).Inv := by
  simp only [State.restartViq]
  split
  · exact .withCtx h
  · exact h

theorem State.Inv.holdForSupervisor {r : HartRef} {t : Trap} {info spc vcp : Word} (h : s.Inv) :
    (s.holdForSupervisor r t info spc vcp).Inv :=
  .update (.restartViq (.hold (.trapRegs (.abandon (.interruptOthers h)))))

theorem State.Inv.stallForSupervisor {r : HartRef} {vq : Bool} {t : Trap} {info spc vcp : Word} (h : s.Inv) :
    (s.stallForSupervisor r vq t info spc vcp).Inv := by
  simp only [State.stallForSupervisor]
  refine .update ?_
  split
  · exact .withCtx h
  · exact .withHart h

theorem State.Inv.logTrap {r : HartRef} {t : Trap} (h : s.Inv) : (s.logTrap r t).Inv := by
  simp only [State.logTrap]
  split
  · exact .logEcc h
  · exact h

theorem State.Inv.takeTrap {s0 : State} {r : HartRef} {vq : Bool} {t : Trap} (h : s0.Inv) :
    (s0.takeTrap r vq t).Inv := by
  unfold State.takeTrap
  extract_lets s c hh inh info spc vcp
  have hs : s.Inv := by
    simp only [s]
    split
    · exact .logTrap h
    · exact .finishStore (.logTrap h)
  split
  · split
    · exact .killCtx hs
    · split
      · exact .stallForSupervisor hs
      · exact .holdForSupervisor hs
  · exact .enterHandler hs

theorem State.Inv.waitHere {yields : Bool} (h : s.Inv) : (s.waitHere yields).Inv := h

theorem State.Inv.scalarTrap {t : Trap} (h : s.Inv) : (s.scalarTrap t).Inv := by
  simp only [State.scalarTrap]
  split
  · exact .waitHere h
  · exact .takeTrap h

theorem Outcome.Inv.outcome {r : Res} (h : r.Inv) : Outcome.Inv r.outcome := by
  cases h with
  | done h => exact .next h
  | trap h => exact .next (.scalarTrap h)
  | wait h => exact .next (.waitHere h)

theorem Res.Inv.settle {r : Res} {s0 : State} {u : List Nat} (h : r.Inv) (h0 : s0.Inv) : (r.settle s0 u).Inv := by
  cases h with
  | done h => exact .done h
  | wait h => exact .wait (.withHart h)
  | trap h =>
    simp only [Res.settle]
    split
    · exact .wait h0
    · exact .trap (.withHart h)

theorem State.Inv.count {tenant i : Nat} (h : s.Inv) : (s.count tenant i).Inv := h

theorem State.Inv.dropPure {r : HartRef} (h : s.Inv) : (s.dropPure r).Inv :=
  .withHart (.count (.releaseClaim h))

theorem Res.Inv.violationAt {elem detail : Nat} {addr : Word} {p : PureState} {k : State → Res} (h : s.Inv)
    (hk : ∀ s, s.Inv → (k s).Inv) : (violationAt elem detail addr s p k).Inv := by
  simp only [Machine.violationAt]
  split
  · exact hk _ (.dropPure h)
  · exact .trap (.dropPure h)

theorem Res.Inv.violation {detail : Nat} {addr : Word} {p : PureState} {k : State → Res} (h : s.Inv)
    (hk : ∀ s, s.Inv → (k s).Inv) : (violation detail addr s p k).Inv :=
  .violationAt h hk

theorem Res.Inv.codeGuard {outside : Bool} {addr : Word} {k : State → Res} (hk : ∀ s, s.Inv → (k s).Inv) (h : s.Inv) :
    (codeGuard outside addr k s).Inv := by
  simp only [Machine.codeGuard]
  split
  · split
    · exact hk _ h
    · split
      · exact hk _ h
      · exact .violation h hk
  · exact hk _ h

theorem Outcome.Inv.framed {reads writes : List SReg} {k : State → Res} (hk : ∀ s, s.Inv → (k s).Inv) (h : s.Inv) :
    Outcome.Inv (framed reads writes k s) := by
  simp only [Machine.framed]
  split
  · exact .outcome (.wait h)
  · split
    · refine .outcome ?_
      split
      · exact .settle (hk _ (.withMe h)) h
      · exact .trap h
    · exact .outcome (.settle (hk _ (.withMe h)) h)

theorem Outcome.Inv.scalar {reads writes : List SReg} {k : State → Res} (hk : ∀ s, s.Inv → (k s).Inv) (h : s.Inv) :
    Outcome.Inv (scalar reads writes k s) :=
  .framed (fun _ h => .codeGuard hk h) h

theorem Outcome.Inv.onlyOn {kinds : List HartKind} {k : State → Host.Outcome State Fault Refusal}
    (hk : ∀ s, s.Inv → Outcome.Inv (k s)) (h : s.Inv) : Outcome.Inv (onlyOn kinds k s) := by
  simp only [Machine.onlyOn]
  split
  · exact hk _ h
  · exact .outcome (.trap h)

theorem State.Inv.leaveHandler (h : s.Inv) : s.leaveHandler.Inv := h

/-! What a pure task may do while it runs. -/

theorem Res.Inv.impureOnly {detail : Nat} {k : State → Res} (hk : ∀ s, s.Inv → (k s).Inv) (h : s.Inv) :
    (impureOnly detail k s).Inv := by
  simp only [Machine.impureOnly]
  split
  · exact hk _ h
  · exact .violation h hk

theorem Res.Inv.pureAccess {write : Bool} {a n : Nat} {k : State → Res} (hk : ∀ s, s.Inv → (k s).Inv) (h : s.Inv) :
    (pureAccess write a n k s).Inv := by
  simp only [Machine.pureAccess]
  split
  · exact hk _ h
  · split
    · exact hk _ h
    · exact .violation h hk

theorem Res.Inv.pureSync {a : Nat} {k : State → Res} (hk : ∀ s, s.Inv → (k s).Inv) (h : s.Inv) :
    (pureSync a k s).Inv := by
  simp only [Machine.pureSync]
  split
  · exact hk _ h
  · exact .violation h hk

/-! The vector instruction queue of a context. -/

theorem Res.Inv.afterEntries {p : Instr → Bool} {k : State → Res} (hk : ∀ s, s.Inv → (k s).Inv) (h : s.Inv) :
    (afterEntries p k s).Inv := by
  simp only [Machine.afterEntries]
  split
  · exact .wait h
  · exact hk _ h

theorem Res.Inv.afterViqEmpty {k : State → Res} (hk : ∀ s, s.Inv → (k s).Inv) (h : s.Inv) : (afterViqEmpty k s).Inv :=
  .afterEntries hk h

theorem Res.Inv.afterViq {k : State → Res} (hk : ∀ s, s.Inv → (k s).Inv) (h : s.Inv) : (afterViq k s).Inv := by
  simp only [Machine.afterViq]
  split
  · exact .wait h
  · exact hk _ h

theorem Res.Inv.afterWrites {k : State → Res} (hk : ∀ s, s.Inv → (k s).Inv) (h : s.Inv) : (afterWrites k s).Inv := by
  simp only [Machine.afterWrites]
  split
  · exact .wait h
  · exact hk _ h

/-! Scalar loads and stores. -/

theorem State.Inv.withPart {p : Table Byte} (h : s.Inv) : (s.withPart p).Inv := h

theorem Res.Inv.accessed {e n : Nat} {bs : List Byte} {k : List Byte → State → Res} (h : s.Inv)
    (hk : ∀ a s, s.Inv → (k a s).Inv) : (s.accessed e n bs k).Inv := by
  simp only [State.accessed]
  split
  · exact hk _ _ h
  · split
    · exact hk _ _ (.withPart h)
    · exact .wait (.withPart h)

theorem Outcome.Inv.loadOp {len n : Nat} {ext : Word → Word} {d a : SReg} {ea : Word → Word} (h : s.Inv) :
    Outcome.Inv (loadOp len n ext d a ea s) :=
  .scalar (fun _ h => .pureAccess (fun _ h => .afterViq (fun _ h => .read h (fun _ => .accessed h
      (fun _ _ h => .done (.retire h)))) h) h) h

theorem Res.Inv.beginStore {x : Split} (h : s.Inv) : (s.beginStore x).Inv := by
  simp only [State.beginStore]
  split
  · exact .done (.advance (.writeSplit' h))
  · exact .wait (.withMe (.writeSplit' h))

theorem State.Inv.goOnStore {x : Split} (h : s.Inv) : (s.goOnStore x).Inv := by
  simp only [State.goOnStore]
  split
  · exact .withMe (.writeSplit' h)
  · exact .waitHere (.withMe (.writeSplit' h))

theorem Outcome.Inv.storeOp {len n : Nat} {localOnly : Bool} {d a : SReg} {ea : Word → Word} (h : s.Inv) :
    Outcome.Inv (storeOp len n localOnly d a ea s) :=
  .scalar (fun _ h => .pureAccess (fun _ h => .afterViq (fun _ h => .read h (fun _ => .beginStore h)) h) h) h

/-! The scalar integer instructions, literals and hints. -/

theorem Outcome.Inv.aluRR {f : Word → Word → Word} {d a b : SReg} (h : s.Inv) : Outcome.Inv (aluRR f d a b s) :=
  .scalar (fun _ h => .done (.retire h)) h

theorem Outcome.Inv.aluR {f : Word → Word} {d a : SReg} (h : s.Inv) : Outcome.Inv (aluR f d a s) :=
  .scalar (fun _ h => .done (.retire h)) h

theorem Outcome.Inv.literal {n : Nat} {x : State → Word} {d : SReg} (h : s.Inv) : Outcome.Inv (literal n x d s) :=
  .scalar (fun _ h => .done (.retire h)) h

/-! Atomics, the acquire load, the release store and WAITV. -/

theorem Res.Inv.atomicAt {acc : Nat} {need : Need} {release : Bool} {a : SReg} {k : State → Place → Res} {s : State}
    (hk : ∀ s pl, s.Inv → (k s pl).Inv) (h : s.Inv) : (atomicAt acc need release a k s).Inv := by
  have hchecked : ∀ s : State, s.Inv → (Machine.afterViq (fun s =>
      (s.atomicCheck (s.who s.cur) acc need 8 (s.readS a).toNat 8).elim s (fun pl =>
        if need ≠ .read ∧ s.migrating .sync pl.pa then .wait false s else k s pl)) s).Inv := by
    refine fun s h => .afterViq (fun s h => .read h fun pl => ?_) h
    split
    · exact .wait h
    · exact hk s pl h
  unfold Machine.atomicAt
  refine .impureOnly (fun s h => ?_) h
  split
  · exact .afterWrites hchecked h
  · exact hchecked s h

theorem Outcome.Inv.amo {g : Word → Word → Word} {ord : BitVec 2} {d a b : SReg} (h : s.Inv) :
    Outcome.Inv (amo g ord d a b s) :=
  .scalar (fun _ h => .atomicAt (fun _ _ h => .done (.retire (.syncWrite' h))) h) h

theorem Outcome.Inv.execAtomCas {ord : BitVec 2} {d a b : SReg} (h : s.Inv) :
    Outcome.Inv (execAtomCas ord d a b s) := by
  simp only [Machine.execAtomCas]
  refine .scalar (fun _ h => .atomicAt (fun _ _ h => .done (.retire ?_)) h) h
  split
  · exact .syncWrite' h
  · exact h

theorem Outcome.Inv.execLdAcq {d a : SReg} (h : s.Inv) : Outcome.Inv (execLdAcq d a s) :=
  .scalar (fun _ h => .atomicAt (fun _ _ h => .done (.retire h)) h) h

theorem Outcome.Inv.execStRel {a b : SReg} (h : s.Inv) : Outcome.Inv (execStRel a b s) :=
  .scalar (fun _ h => .atomicAt (fun _ _ h => .done (.advance (.syncWrite' h))) h) h

theorem State.Inv.unwatch {r : HartRef} (h : s.Inv) : (s.unwatch r).Inv := h

theorem Outcome.Inv.execWaitv {d a b : SReg} (h : s.Inv) : Outcome.Inv (execWaitv d a b s) := by
  simp only [Machine.execWaitv]
  refine .scalar (fun _ h => ?_) h
  split
  · split
    · exact .done (.retire (.unwatch h))
    · exact .wait h
  · refine .atomicAt (fun _ _ h => ?_) h
    split
    · exact .done (.retire h)
    · exact .wait (.update h)

/-! What vector instructions share. -/

theorem Res.Inv.vChecked {t : Option Trap} {k : Res} (h : s.Inv) (hk : k.Inv) : (vChecked t s k).Inv := by
  simp only [Machine.vChecked]
  split
  · exact .trap h
  · exact hk

theorem State.Inv.raise {maj : BitVec 6} {f : FFlags} (h : s.Inv) : (s.raise maj f).Inv := h

theorem State.Inv.writeResults {d : VReg} {w : Nat} {maj : BitVec 6} {rs : List (Nat × Nat × FFlags)} (h : s.Inv) :
    (s.writeResults d w maj rs).Inv := h

theorem Res.Inv.vecMap {e : VEntry} {k : MReg} {d : VReg} {maj : BitVec 6} {f : Nat → Nat × FFlags} (h : s.Inv) :
    (vecMap e k d maj f s).Inv :=
  .done (.writeResults h)

/-! VARITH and VCONV. -/

theorem Res.Inv.vecBinary {f : Bool → RMode → Val → Val → Val × FFlags} {xs : BitVec 1} {k : MReg} {d a : VReg}
    {b : BitVec 5} {e : VEntry} (h : s.Inv) : (vecBinary f xs k d a b e s).Inv :=
  .vChecked h (.vecMap h)

theorem Res.Inv.vecFused {sub : Bool} {xs : BitVec 1} {k : MReg} {d a : VReg} {b : BitVec 5} {e : VEntry}
    (h : s.Inv) : (vecFused sub xs k d a b e s).Inv :=
  .vChecked h (.vecMap h)

theorem Res.Inv.vecBits {f : Nat → Nat → Nat → Nat} {xs : BitVec 1} {k : MReg} {d a : VReg} {b : BitVec 5}
    {e : VEntry} (h : s.Inv) : (vecBits f xs k d a b e s).Inv :=
  .vChecked h (.vecMap h)

theorem Res.Inv.vecShiftOp {f : Nat → Nat → Nat → Nat} {xs : BitVec 1} {k : MReg} {d a : VReg} {b : BitVec 5}
    {e : VEntry} (h : s.Inv) : (vecShiftOp f xs k d a b e s).Inv :=
  .vChecked h (.vecMap h)

theorem Res.Inv.vecUnary {maj : BitVec 6} {intKeeps : Bool} {g : Val → Val × FFlags} {k : MReg} {d a : VReg}
    {e : VEntry} (h : s.Inv) : (vecUnary maj intKeeps g k d a e s).Inv :=
  .vChecked h (.vecMap h)

/-! Streams. -/

theorem Res.Inv.pureStreams {rs : List VReg} {e : VEntry} {k : State → Res} (hk : ∀ s, s.Inv → (k s).Inv)
    (h : s.Inv) : (pureStreams rs e k s).Inv := by
  simp only [Machine.pureStreams]
  split
  · exact hk _ h
  · split
    · exact hk _ h
    · exact .violationAt h hk

theorem MemRes.Holds.popOne {r : VReg} {e : VEntry} (h : s.Inv) : (popOne r e s).Holds State.Inv := by
  simp only [Machine.popOne]
  split
  · exact .ok h
  · exact .bind (.any _) (fun _ _ => .ok (.withMyCtx h))

theorem MemRes.Holds.popAll {e : VEntry} {l : List VReg} {s : State} (h : s.Inv) :
    (popAll e l s).Holds State.Inv := by
  induction l generalizing s with
  | nil => exact .ok h
  | cons r rest ih => exact .bind (.popOne h) fun s h => ih h

theorem State.Inv.unpopAll {e : VEntry} {rs : List VReg} (h : s.Inv) : (unpopAll e rs s).Inv := h

theorem Res.Inv.bindStream {d : VReg} {a : Nat} {ill : Nat → Trap} {k : State → Res} (hk : ∀ s, s.Inv → (k s).Inv)
    (h : s.Inv) : (bindStream d a ill k s).Inv := by
  simp only [Machine.bindStream]
  refine .read h (fun _ => ?_)
  split
  · exact .trap h
  · split
    · exact .trap h
    · exact hk _ (.withMyCtx h)

theorem Res.Inv.effSbind {d : VReg} {e : VEntry} (h : s.Inv) : (effSbind d e s).Inv :=
  .impureOnly (fun _ h => .bindStream (fun _ h => .done h) h) h

theorem Res.Inv.effSfree {d : VReg} {e : VEntry} {s : State} (h : s.Inv) : (effSfree d e s).Inv :=
  .done (.withMyCtx h)

theorem Outcome.Inv.execStreamRefill (h : s.Inv) : Outcome.Inv (execStreamRefill s) := by
  simp only [Machine.execStreamRefill]
  split
  · exact .next h
  · split
    · exact .next h
    · split
      · split
        · exact .next h
        · exact .next (.withCtx h)
      · exact .next h

/-! TURN and TWAIT. -/

theorem State.Inv.turnCopy {core : Nat} {L : Level} {p : State × Nat} {key : Nat} (h : p.1.Inv) :
    (turnCopy core L p key).1.Inv := by
  simp only [Machine.turnCopy]
  split
  · exact h
  · split
    · exact h
    · split
      · exact .update h
      · exact h

theorem State.Inv.turnWalk {w : Who} {L : Level} {lo : Nat} {intr : Option Nat} {n g : Nat} {p : State × Nat}
    (h : p.1.Inv) : (turnWalk w L lo intr n g p).1.Inv := by
  induction n generalizing g p with
  | zero => exact h
  | succ k ih =>
    simp only [Machine.turnWalk]
    split
    · exact h
    · exact ih (.foldFst (fun p key h => .turnCopy h) h)

theorem Outcome.Inv.execTurn {lvl : BitVec 3} {d a b : SReg} {s : State} (h : s.Inv) :
    Outcome.Inv (execTurn lvl d a b s) := by
  refine .scalar (fun s h => ?_) h
  simp only
  split
  · exact .done (.retire h)
  · split
    · exact .trap h
    · refine .afterWrites (fun s h => .afterViq (fun s h => ?_) h) h
      split
      · exact .wait h
      · split
        · exact .done (.retire (.update (.dropStrips (.turnWalk h))))
        · exact .done (.retire (.dropStrips (.turnWalk h)))

theorem Outcome.Inv.execTwait {d a b : SReg} {timeout : BitVec 32} (h : s.Inv) :
    Outcome.Inv (execTwait d a b timeout s) := by
  simp only [Machine.execTwait]
  refine .scalar (fun _ h => ?_) h
  split
  · exact .done (.retire h)
  · split
    · exact .trap h
    · refine .afterViq (fun _ h => ?_) h
      split
      · exact .trap h
      · split
        · exact .wait h
        · split
          · exact .done (.retire (.withMe h))
          · exact .wait (.withMe h)

theorem Outcome.Inv.execTwaitTimeout (h : s.Inv) : Outcome.Inv (execTwaitTimeout s) := by
  simp only [Machine.execTwaitTimeout]
  split
  · exact .next h
  · split
    · exact .next h
    · exact .next (.withHart h)

/-! Barriers and collectives. -/

theorem State.Inv.withBarrier {r : BarRef} {b : Barrier} (h : s.Inv) : (s.withBarrier r b).Inv := by
  simp only [State.withBarrier]
  split
  · exact .update h
  · exact .update h

theorem Res.Inv.barOp {a : SReg} {k : BarRef → Barrier → State → Res} (hk : ∀ a b s, s.Inv → (k a b s).Inv)
    (h : s.Inv) : (barOp a k s).Inv := by
  simp only [Machine.barOp]
  split
  · exact .trap h
  · exact hk _ _ _ h

theorem Res.Inv.whenIdle {b : Barrier} {k : Res} (h : s.Inv) (hk : k.Inv) : (whenIdle b s k).Inv := by
  simp only [Machine.whenIdle]
  split
  · exact .wait h
  · exact hk

theorem Outcome.Inv.execBarinit {a b d : SReg} (h : s.Inv) : Outcome.Inv (execBarinit a b d s) := by
  simp only [Machine.execBarinit]
  refine .scalar (fun _ h => .impureOnly (fun _ h => .barOp (fun _ _ _ h => ?_) h) h) h
  split
  · exact .trap h
  · split
    · exact .trap h
    · exact .done (.advance (.withBarrier h))

theorem Outcome.Inv.execBararr {a : SReg} (h : s.Inv) : Outcome.Inv (execBararr a s) :=
  .scalar (fun _ h => .impureOnly (fun _ h => .afterViq (fun _ h => .afterWrites (fun _ h => .barOp
      (fun _ _ _ h => .whenIdle h (.done (.advance (.withBarrier (.withMe h))))) h) h) h) h) h

theorem Outcome.Inv.execBartx {a b : SReg} (h : s.Inv) : Outcome.Inv (execBartx a b s) :=
  .scalar (fun _ h => .impureOnly (fun _ h => .barOp (fun _ _ _ h => .whenIdle h (.done (.advance
      (.withBarrier h)))) h) h) h

theorem Outcome.Inv.execBarwait {a : SReg} {s : State} (h : s.Inv) : Outcome.Inv (execBarwait a s) := by
  refine .scalar (fun s h => .impureOnly (fun s h => .barOp (fun r x s h => ?_) h) h) h
  extract_lets me rec_ p
  split
  · exact .done (.advance (.withMe h))
  · exact .wait (.withMe h)

theorem Outcome.Inv.execBartest {d a : SReg} (h : s.Inv) : Outcome.Inv (execBartest d a s) :=
  .scalar (fun _ h => .impureOnly (fun _ h => .barOp (fun _ _ _ h => .done (.retire h)) h) h) h

theorem Outcome.Inv.execColl {d a b : SReg} (h : s.Inv) : Outcome.Inv (execColl d a b s) := by
  simp only [Machine.execColl]
  refine .scalar (fun _ h => .impureOnly (fun _ h => .afterViq (fun _ h => .afterWrites (fun _ h => .barOp
      (fun _ _ _ h => ?_) h) h) h) h) h
  split
  · split
    · exact .done (.retire (.withMe h))
    · exact .wait h
  · split
    · exact .trap h
    · refine .read h (fun _ => ?_)
      split
      · exact .trap h
      · exact .whenIdle h (.wait (.withBarrier (.withMe h)))

theorem State.Inv.raiseCopy {cores : List Nat} {L : Level} {key : Nat} (h : s.Inv) : (raiseCopy cores L s key).Inv := by
  simp only [Machine.raiseCopy]
  split
  · split
    · split
      · exact .update h
      · exact .update h
    · exact h
  · exact h

theorem State.Inv.raiseBuffer {s t : State} {cores : List Nat} {fab : Bool} {w : Who} {i a n : Nat} (h : s.Inv)
    (ht : s.raiseBuffer cores fab w i a n = .ok t) : t.Inv := by
  simp only [State.raiseBuffer] at ht
  split at ht
  · cases ht
  · cases ht
    exact .dropStrips (.fold (fun s key h => .raiseCopy h) h)

theorem State.Inv.raiseAll {cores : List Nat} {ps : List Participant} (h : s.Inv) :
    (s.raiseAll cores ps).1.Inv := by
  refine .foldFst (fun acc p h => .foldFst (fun acc i h => ?_) h) h
  split
  · exact h
  · split
    · exact h
    · split
      next s1 heq => exact .raiseBuffer h heq
      · exact h

theorem State.Inv.collective {b : Barrier} (h : s.Inv) : (s.collective b).1.Inv := by
  simp only [State.collective]
  split
  · exact .raiseAll h
  · exact .raiseAll h
  · split
    · exact .raiseAll h
    · split
      · exact .raiseAll h
      · exact .raiseAll h
      · exact .fold (fun _ _ h => .writeTurned h) (.raiseAll h)

theorem State.Inv.logCollective {b : Barrier} {f : Option ColFail} (h : s.Inv) : (s.logCollective b f).Inv := by
  simp only [State.logCollective]
  split
  · exact h
  · split
    · split
      · exact .logEcc h
      · exact h
    · exact h

theorem Outcome.Inv.execCollectiveRun (h : s.Inv) : Outcome.Inv (execCollectiveRun s) := by
  simp only [Machine.execCollectiveRun]
  split
  · exact .next h
  · split
    · exact .next h
    · split
      · exact .next (.withBarrier h)
      · split
        · exact .next h
        · exact .next (.withBarrier (.logCollective (.collective h)))

/-! Branches and jumps. -/

theorem Outcome.Inv.branch {cond : Word → Word → Bool} {a b : SReg} {off : BitVec 11} (h : s.Inv) :
    Outcome.Inv (branch cond a b off s) := by
  simp only [Machine.branch]
  refine .scalar (fun _ h => .done ?_) h
  split
  · exact .jump h
  · exact .advance h

theorem Outcome.Inv.execJal {d : SReg} {imm : BitVec 19} (h : s.Inv) : Outcome.Inv (execJal d imm s) :=
  .scalar (fun _ h => .done (.jump (.writeS h))) h

theorem Outcome.Inv.execJalr {d a : SReg} {imm : BitVec 14} (h : s.Inv) : Outcome.Inv (execJalr d a imm s) :=
  .scalar (fun _ h => .done (.jump (.writeS h))) h

/-! Neighbour channels. -/

theorem State.Inv.modChan {n : Nat} {f : Chan → Chan} (h : s.Inv) : (s.modChan n f).Inv :=
  .modKernel h

theorem Outcome.Inv.execChsendS {ch : BitVec 5} {a : SReg} (h : s.Inv) : Outcome.Inv (execChsendS ch a s) := by
  simp only [Machine.execChsendS]
  refine .scalar (fun _ h => ?_) h
  split
  · exact .trap h
  · refine .impureOnly (fun _ h => .afterEntries (fun _ h => .afterViq (fun _ h => .afterWrites
      (fun _ h => ?_) h) h) h) h
    split
    · split
      · exact .wait h
      · exact .done (.advance (.modChan h))
    · exact .wait h

theorem Outcome.Inv.execChrecvS {d : SReg} {ch : BitVec 5} (h : s.Inv) : Outcome.Inv (execChrecvS d ch s) := by
  simp only [Machine.execChrecvS]
  refine .scalar (fun _ h => ?_) h
  split
  · exact .trap h
  · refine .impureOnly (fun _ h => .afterEntries (fun _ h => ?_) h) h
    split
    · exact .wait h
    · split
      · exact .trap h
      · exact .done (.retire (.modChan h))

theorem Res.Inv.effChsend {ch : BitVec 5} {a : VReg} {e : VEntry} (h : s.Inv) : (effChsend ch a e s).Inv := by
  simp only [Machine.effChsend]
  refine .vChecked h (.impureOnly (fun _ h => ?_) h)
  split
  · exact .wait h
  · split
    · exact .trap h
    · split
      · exact .wait h
      · exact .done (.modChan h)

theorem Res.Inv.statusWrite {status n vl : Nat} {k : State → Res} (hk : ∀ s, s.Inv → (k s).Inv) (h : s.Inv) :
    (statusWrite status n vl k s).Inv := by
  simp only [Machine.statusWrite]
  split
  · exact hk _ h
  · refine .read h (fun _ => ?_)
    split
    · exact .wait h
    · exact hk _ (.syncWrite' h)

theorem Res.Inv.effChrecv {d : VReg} {ch : BitVec 5} {e : VEntry} (h : s.Inv) : (effChrecv d ch e s).Inv := by
  simp only [Machine.effChrecv]
  split
  · exact .trap h
  · refine .impureOnly (fun _ h => ?_) h
    split
    · exact .wait h
    · split
      · exact .wait h
      · split
        · exact .trap h
        · exact .vChecked h (.statusWrite (fun _ h => .done (.modChan (.withMyCtx h))) h)

/-! VMEM. -/

theorem Res.Inv.pureElem {write : Bool} {a n i : Nat} {k : State → Res} (hk : ∀ s, s.Inv → (k s).Inv) (h : s.Inv) :
    (pureElem write a n i k s).Inv := by
  simp only [Machine.pureElem]
  split
  · exact hk _ h
  · split
    · exact hk _ h
    · exact .violationAt h hk

theorem State.Inv.setStep {i : Nat} (h : s.Inv) : (s.setStep i).Inv := h

theorem Res.Inv.elemLoop {write : Bool} {n : Nat} {addr : Nat → Nat} {body : Nat → State → MemRes State} {l : List Nat}
    {s : State} (hbody : ∀ i s, s.Inv → (body i s).Holds State.Inv) (h : s.Inv) :
    (elemLoop write n addr body l s).Inv := by
  induction l generalizing s with
  | nil => exact .done h
  | cons i rest ih =>
    refine .pureElem (fun s h => ?_) h
    split
    next s' heq => exact ih ((hbody i s h).get heq)
    · exact .trap h
    · exact .wait (.setStep h)

theorem MemRes.Holds.loadElem {d : VReg} {w : Nat} {addr shift : Nat → Nat} {i : Nat} (h : s.Inv) :
    (loadElem d w addr shift i s).Holds State.Inv :=
  .bind (.any _) (fun _ _ => .ok (.withMyCtx h))

theorem MemRes.Holds.storeBits {w : Who} {a shift width x : Nat} (h : s.Inv) :
    (s.storeBits w a shift width x).Holds State.Inv := by
  simp only [State.storeBits]
  refine .bind (.any _) (fun _ _ => ?_)
  split
  · exact .ok (.writeRegion' h)
  · refine .ok (.fold (fun _ _ h => ?_) h)
    split
    · exact .writeCopy' h
    · split
      · exact .multicast' (.writeCopy' h)
      · exact .fold (fun _ _ h => .writeCopy' h) h

theorem MemRes.Holds.storeElem {c : Ctx} {d : VReg} {w : Nat} {addr shift : Nat → Nat} {i : Nat} (h : s.Inv) :
    (storeElem c d w addr shift i s).Holds State.Inv := by
  simp only [Machine.storeElem]
  split
  · exact .store h
  · exact .storeBits h

theorem Res.Inv.effVld {k : MReg} {d : VReg} {e : VEntry} (h : s.Inv) : (effVld k d e s).Inv :=
  .vChecked h (.elemLoop (fun _ _ h => .loadElem h) h)

theorem Res.Inv.effVst {k : MReg} {d : VReg} {e : VEntry} (h : s.Inv) : (effVst k d e s).Inv :=
  .vChecked h (.elemLoop (fun _ _ h => .storeElem h) h)

theorem Res.Inv.effVlds {k : MReg} {d : VReg} {e : VEntry} (h : s.Inv) : (effVlds k d e s).Inv :=
  .vChecked h (.elemLoop (fun _ _ h => .loadElem h) h)

theorem Res.Inv.effVsts {k : MReg} {d : VReg} {e : VEntry} (h : s.Inv) : (effVsts k d e s).Inv :=
  .vChecked h (.elemLoop (fun _ _ h => .storeElem h) h)

theorem Res.Inv.keepIndex {r : Res} {l : List Nat} (h : r.Inv) : (r.keepIndex l).Inv := by
  cases h with
  | done h => exact .done h
  | trap h => exact .trap (.withMyCtx h)
  | wait h => exact .wait (.withMyCtx h)

theorem Res.Inv.gather {k : MReg} {d b : VReg} {e : VEntry} (h : s.Inv) : (gather k d b e s).Inv :=
  .vChecked h (.keepIndex (.elemLoop (fun _ _ h => .loadElem h) h))

theorem Res.Inv.effVldx {k : MReg} {d b : VReg} {e : VEntry} (h : s.Inv) : (effVldx k d b e s).Inv := by
  simp only [Machine.effVldx]
  split
  · exact .gather h
  · exact .wait h

theorem Res.Inv.effVldff {k : MReg} {d : VReg} {e : VEntry} {s : State} (h : s.Inv) : (effVldff k d e s).Inv := by
  refine .vChecked h ?_
  extract_lets addr
  split
  next t s' heq =>
    have hs' : s'.Inv := (Res.Inv.elemLoop (fun _ _ h => .loadElem h) h).get_trap heq
    split
    · exact .done (.withMyCtx hs')
    · exact .trap hs'
  · exact .elemLoop (fun _ _ h => .loadElem h) h

theorem Res.Inv.scaddEnd {fault : Option Trap} (h : s.Inv) : (scaddEnd fault s).Inv := by
  simp only [Machine.scaddEnd]
  split
  · exact .trap h
  · exact .done (.raise h)

theorem Res.Inv.effVscadd {k : MReg} {d b : VReg} {e : VEntry} (h : s.Inv) : (effVscadd k d b e s).Inv := by
  simp only [Machine.effVscadd]
  refine .vChecked h ?_
  split
  · refine .read h (fun _ => ?_)
    split
    · exact .scaddEnd h
    · exact .wait h
  · split
    · refine .read h (fun _ => ?_)
      split
      · exact .scaddEnd h
      · exact .wait h
    · refine .violation h (fun _ h => .read h (fun _ => ?_))
      split
      · exact .scaddEnd h
      · exact .wait h

theorem Res.Inv.scaddUpdate {c : Ctx} {d : VReg} {e : VEntry} {t : Scatter} {i : Nat} {x : Target} {last : Bool}
    {pa : Nat} (h : s.Inv) : (scaddUpdate c d e t i x last pa s).Inv := by
  simp only [Machine.scaddUpdate]
  split
  · exact .wait h
  · split
    · exact .scaddEnd (.withMyCtx (.syncWrite' h))
    · exact .wait (.withMyCtx (.syncWrite' h))

theorem Res.Inv.scatterOne {choice : Nat} {k : MReg} {d b : VReg} {e : VEntry} (h : s.Inv) :
    (scatterOne choice k d b e s).Inv := by
  simp only [Machine.scatterOne]
  refine .read h (fun _ => ?_)
  split
  · exact .scaddEnd h
  · split
    · exact .scaddUpdate h
    · exact .scaddUpdate h
    · exact .wait h

theorem Res.Inv.pureFrame {write : Bool} {a n : Nat} {k : State → Res} (hk : ∀ s, s.Inv → (k s).Inv) (h : s.Inv) :
    (pureFrame write a n k s).Inv :=
  .pureElem hk h

theorem Res.Inv.effVspill {d : VReg} {e : VEntry} (h : s.Inv) : (effVspill d e s).Inv :=
  .vChecked h (.pureFrame (fun _ h => .read h (fun _ => .done (.writeRegion' h))) h)

theorem State.Inv.freeGroup {d : VReg} {n i : Nat} {s : State} (h : s.Inv) : (freeGroup d n i s).Inv := by
  induction n generalizing i s with
  | zero => exact h
  | succ n ih => exact ih (.withMyCtx (.freeByte h))

theorem Res.Inv.effVreload {d : VReg} {e : VEntry} (h : s.Inv) : (effVreload d e s).Inv :=
  .vChecked h (.pureFrame (fun _ h => .read h (fun _ => .pureFrame (fun _ h => .read h (fun _ => .done (.freeGroup
      (.withMyCtx h)))) h)) h)

theorem MemRes.Holds.scldEntry {d : KReg} {start : Nat} {byte : Bool} {addr : Nat → Nat} {j : Nat} (h : s.Inv) :
    (scldEntry d start byte addr j s).Holds State.Inv :=
  .bind (.any _) (fun _ _ => .ok (.withMyCtx h))

theorem Res.Inv.effScld {d : KReg} {e : VEntry} {s : State} (h : s.Inv) : (effScld d e s).Inv := by
  simp only [Machine.effScld]
  split
  · exact .trap h
  · split
    next s' heq =>
      exact .done (.withMyCtx ((Res.Inv.elemLoop (fun _ _ h => .scldEntry h) h).get_done heq))
    · exact .elemLoop (fun _ _ h => .scldEntry h) h

/-! VTYPE, VL, tags, narrow formats and the gating of lanes. -/

theorem Outcome.Inv.vconfOp {d : SReg} {reads : List SReg} {req : State → BitVec 10} {a : SReg} (h : s.Inv) :
    Outcome.Inv (vconfOp d reads req a s) :=
  .onlyOn (fun _ h => .scalar (fun _ h => .afterEntries (fun _ h => .done (.retire (.withMyCtx h))) h) h) h

/-! The control and status registers. -/

theorem Outcome.Inv.execCsrr {d : SReg} {r : Csr} {s : State} (h : s.Inv) : Outcome.Inv (execCsrr d r s) := by
  have hvalue : ∀ s : State, s.Inv → ((if csrReadWaits r then Machine.afterViqEmpty else id) (fun s =>
      .done (s.retire 4 d (s.csrValue r))) s).Inv := by
    intro s h
    split
    · exact .afterViqEmpty (fun s h => .done (.retire h)) h
    · exact .done (.retire h)
  refine .scalar (fun s h => ?_) h
  have hread : ∀ s : State, s.Inv → (if (r = .vl ∨ r = .vtype) ∧ s.vlPending then Res.wait false s else
      (if csrReadWaits r then Machine.afterViqEmpty else id) (fun s => .done (s.retire 4 d (s.csrValue r))) s).Inv := by
    intro s h
    split
    · exact .wait h
    · exact hvalue s h
  split
  · exact .impureOnly hread h
  · exact hread s h

theorem State.Inv.setCsr {r : Csr} {y : Word} (h : s.Inv) : (s.setCsr r y).Inv := by
  simp only [State.setCsr]
  split
  · exact .withMe h
  · exact .withMyCtx h
  · exact .withMyCtx h
  · exact .withMyCtx h
  · exact .withMe h
  · exact .withMe h
  · exact .withMyCtx h
  · exact .withMyCtx h
  · exact .withTenant h
  · exact .withDie h
  · exact .withDie h
  · exact .withDie h
  · exact .withDie h
  · exact .withMyCtx h
  · exact .withMyCtx h
  · exact h

theorem Res.Inv.pushMaxlen {i : Instr} {a x : Word} (h : s.Inv) : (pushMaxlen i a x s).Inv := by
  simp only [Machine.pushMaxlen]
  split
  · exact .done (.advance (.withMyCtx h))
  · split
    · exact .done (.advance (.withMyCtx h))
    · exact .wait h

theorem Outcome.Inv.csrWrite {i : Instr} {f : Word → Word → Word} {r : Csr} {a : SReg} (h : s.Inv) :
    Outcome.Inv (csrWrite i f r a s) := by
  simp only [Machine.csrWrite]
  refine .scalar (fun _ h => ?_) h
  split
  · exact .trap h
  · split
    · exact .trap h
    · split
      · exact .trap h
      · split
        · exact .pushMaxlen h
        · split
          · exact .wait h
          · split
            · exact .afterViqEmpty (fun _ h => .done (.advance (.setCsr h))) h
            · split
              · exact .wait (.withMe h)
              · exact .done (.advance (.setCsr h))

theorem State.Inv.csrDone {r : HartRef} (h : s.Inv) : (s.csrDone r).Inv := h

/-! Pure tasks and the reuse table. -/

theorem State.Inv.logSkip {w : Who} {t : Trap} (h : s.Inv) : (s.logSkip w t).Inv := by
  simp only [State.logSkip]
  split
  · exact .logEcc h
  · exact h

theorem State.Inv.keyReads {byAddr : Bool} {k : Keyed} (h : s.Inv) : (s.keyReads byAddr k).Inv := by
  simp only [State.keyReads]
  split
  · exact .fold (fun _ _ h => .wgenRead h) h
  · exact h

theorem State.Inv.dropEntries {p : Nat → ReuseEntry → Bool} (h : s.Inv) : (s.dropEntries p).Inv :=
  .sweepDead (.countDrops (.update h))

theorem State.Inv.evict {p : ReuseEntry → Bool} (h : s.Inv) : (s.evict p).Inv := by
  simp only [State.evict]
  split
  · exact h
  · exact .dropEntries (.freeBelow h)

theorem State.Inv.claim {tenant : Nat} {byAddr : Bool} {k : Keyed} (h : s.Inv) :
    (s.claim tenant byAddr k).2.Inv := by
  unfold State.claim
  extract_lets s1 die full s2 pages id
  have h1 : s1.Inv := by
    simp only [s1]
    split
    · exact .evict h
    · exact h
  have h2 : s2.Inv := by
    simp only [s2]
    split
    · exact .evict h1
    · exact h1
  split
  · exact h
  · split
    · exact h1
    · split
      · exact h2
      · exact .update h2

theorem State.Inv.setPure {r : HartRef} {p : Option PureState} (h : s.Inv) : (s.setPure r p).Inv := h

theorem State.Inv.beginTask {r : HartRef} {w0 : Word} {args : List Word} (h : s.Inv) : (s.beginTask r w0 args).Inv := h

theorem State.Inv.startPure {r : HartRef} {p : PureState} (h : s.Inv) : (s.startPure r p).Inv := h

theorem State.Inv.leaveLookup {r : HartRef} (h : s.Inv) : (s.leaveLookup r).Inv := by
  simp only [State.leaveLookup]
  split
  · exact h
  · split
    · exact .setPure (.beginTask h)
    · exact .setPure (.beginTask (.endRead h))
    · exact .setPure (.beginTask h)
    · exact h

theorem State.Inv.lookupTrap {r : HartRef} {t : Trap} (h : s.Inv) : (s.lookupTrap r t).Inv := by
  simp only [State.lookupTrap]
  split
  · exact .withHart (.takeTrap (.withHart h))
  · exact .takeTrap (.leaveLookup h)

theorem State.Inv.meetEntry {r : HartRef} {p : PureState} {k : Keyed} (h : s.Inv) : (s.meetEntry r p k).Inv := by
  simp only [State.meetEntry]
  split
  · split
    · exact .count (.setPure (.update h))
    · split
      · exact .setPure h
      · exact .count (.startPure h)
  · exact .count (.startPure (.claim h))

theorem State.Inv.lookup {r : HartRef} (h : s.Inv) : (s.lookup r).Inv := by
  simp only [State.lookup]
  split
  · exact h
  · split
    · exact h
    · split
      · exact .meetEntry h
      · split
        · exact .lookupTrap h
        · split
          · exact .lookupTrap h
          · exact h
          · split
            · exact .lookupTrap h
            · split
              · exact .count (.startPure h)
              · exact .count (.startPure (.logSkip h))
              · exact h
              · exact .meetEntry (.keyReads h)

theorem Outcome.Inv.execCdreg {d a b : SReg} (h : s.Inv) : Outcome.Inv (execCdreg d a b s) := by
  simp only [Machine.execCdreg]
  refine .scalar (fun _ h => .impureOnly (fun _ h => .afterViq (fun _ h => ?_) h) h) h
  split
  · split
    · exact .trap h
    · exact .done (.retire (.withTenant (.dropEntries h)))
  · split
    · exact .trap h
    · refine .read h (fun _ => ?_)
      split
      · exact .done (.retire (.fold (fun _ _ h => .wgenRead h) h))
      · split
        · exact .done (.retire (.fold (fun _ _ h => .wgenRead h) h))
        · exact .done (.retire (.withTenant (.fold (fun _ _ h => .wgenRead h) h)))

theorem Res.Inv.queryKey {a : SReg} {k : Except NoKey Keyed → PureState → State → Res} {s : State}
    (hk : ∀ q p s, s.Inv → (k q p s).Inv) (h : s.Inv) : (queryKey a k s).Inv := by
  simp only [Machine.queryKey]
  split
  · exact .trap h
  · refine .read h fun bs => ?_
    split
    · exact hk _ _ _ h
    · split
      · exact .trap h
      · refine .read h fun ds => ?_
        split
        · exact hk _ _ _ h
        · split
          · exact hk _ _ _ h
          · exact hk _ _ _ (.logSkip h)
          · exact .wait h
          · exact hk _ _ _ (.keyReads h)

theorem Outcome.Inv.execRuquery {d a : SReg} (h : s.Inv) : Outcome.Inv (execRuquery d a s) := by
  simp only [Machine.execRuquery]
  refine .scalar (fun _ h => .impureOnly (fun _ h => .afterViq (fun _ h => .queryKey (fun _ _ _ h => ?_) h) h) h) h
  split
  · exact .done (.retire h)
  · exact .done (.retire h)

theorem Outcome.Inv.execRuinval {a : SReg} (h : s.Inv) : Outcome.Inv (execRuinval a s) := by
  simp only [Machine.execRuinval]
  refine .scalar (fun _ h => .impureOnly (fun _ h => .afterViq (fun _ h => .queryKey (fun _ _ _ h => ?_) h) h) h) h
  split
  · exact .trap h
  · exact .done (.advance h)
  · split
    · exact .done (.advance (.dropEntries h))
    · exact .done (.advance h)

theorem Outcome.Inv.execRustat {d a : SReg} (h : s.Inv) : Outcome.Inv (execRustat d a s) :=
  .scalar (fun _ h => .impureOnly (fun _ h => .done (.retire h)) h) h

theorem Outcome.Inv.execRuflush {a : SReg} (h : s.Inv) : Outcome.Inv (execRuflush a s) := by
  simp only [Machine.execRuflush]
  refine .scalar (fun _ h => ?_) h
  split
  · exact .trap h
  · exact .impureOnly (fun _ h => .done (.advance (.dropEntries h))) h

theorem State.Inv.shrinkHeld {tenant n : Nat} (h : s.Inv) : (s.shrinkHeld tenant n).Inv := by
  induction n generalizing s with
  | zero => exact h
  | succ n ih =>
    simp only [State.shrinkHeld]
    split
    · exact h
    · split
      · exact h
      · exact ih (.dropEntries (.freeBelow h))

theorem Outcome.Inv.execRuquotaWrite (h : s.Inv) : Outcome.Inv (execRuquotaWrite s) := by
  simp only [Machine.execRuquotaWrite]
  split
  · exact .next (.csrDone (.shrinkHeld (.withTenant h)))
  · exact .next h

theorem Outcome.Inv.execRupoolWrite (h : s.Inv) : Outcome.Inv (execRupoolWrite s) := by
  simp only [Machine.execRupoolWrite]
  split
  · split
    · exact .next (.dropEntries h)
    · exact .next (.csrDone (.withTenant (.dropEntries h)))
  · exact .next h

theorem State.Inv.notePool {w : Who} (h : s.Inv) : (s.notePool w).Inv := by
  simp only [State.notePool]
  refine .fold (fun _ _ h => ?_) h
  split
  · exact .entryOnce h
  · exact h

theorem State.Inv.logOutputs {w : Who} {outs : List (Nat × Nat)} (h : s.Inv) : (s.logOutputs w outs).Inv := by
  simp only [State.logOutputs]
  refine .fold (fun _ _ h => ?_) h
  split
  · exact .optElim h (fun _ => .logEcc h)
  · exact h
  · split
    · exact .logEcc h
    · exact h
  · exact h

theorem State.Inv.drainQuiet {k : Nat} (h : s.Inv) : (s.drainQuiet k).Inv := by
  simp only [State.drainQuiet]
  split
  · split
    · exact .withKernel h
    · exact h
  · exact h

theorem State.Inv.goIdle {r : HartRef} (h : s.Inv) : (s.goIdle r).Inv :=
  .drainQuiet (.update (.withHart h))

theorem State.Inv.abandonInsertion {r : HartRef} {claim : Option Nat} (h : s.Inv) : (s.abandonInsertion r claim).Inv :=
  .goIdle (.count (.releaseClaim h))

theorem State.Inv.insertClaim {tenant : Nat} {p : PureState} {k : Keyed} (h : s.Inv) :
    (s.insertClaim tenant p k).2.Inv := by
  simp only [State.insertClaim]
  split
  · exact h
  · split
    · exact h
    · exact .claim h

theorem Outcome.Inv.execInsertionDone (h : s.Inv) : Outcome.Inv (execInsertionDone s) := by
  simp only [Machine.execInsertionDone]
  split
  · exact .next h
  · split
    · split
      · exact .next h
      · split
        · exact .next (.abandonInsertion (.insertClaim h))
        · split
          · exact .next (.abandonInsertion (.notePool (.insertClaim h)))
          · split
            · exact .next h
            · split
              · exact .next (.abandonInsertion (.logOutputs (.notePool (.insertClaim h))))
              · split
                · exact .next (.abandonInsertion (.notePool (.insertClaim h)))
                · split
                  · exact .next (.abandonInsertion (.writeCopy' (.freeBelow (.notePool (.insertClaim h)))))
                  · split
                    · exact .next (.abandonInsertion (.writeCopy' (.freeBelow (.notePool (.insertClaim h)))))
                    · exact .next (.goIdle (.count (.update (.writeCopy' (.freeBelow (.notePool (.insertClaim h)))))))
    · exact .next h

/-! The order of QUEUED kernels, placement, the start of a context, and reservation. -/

theorem State.Inv.closeSlots {taken : List Nat} (h : s.Inv) : (s.closeSlots taken).Inv := h

theorem State.Inv.newGroup (h : s.Inv) : s.newGroup.2.Inv := h

theorem State.Inv.place {k : Nat} {x : Kernel} {cores : List Nat} (h : s.Inv) : (s.place k x cores).Inv :=
  .update (.closeSlots (.withKernel (.fold (fun _ _ h => .withCtx h) (.newGroup h))))

theorem State.Inv.updateReserve (h : s.Inv) : s.updateReserve.Inv := by
  simp only [State.updateReserve]
  split
  · exact .update h
  · split
    · exact .update (.update h)
    · exact .update h

theorem Outcome.Inv.execPlacement {s0 : State} (h0 : s0.Inv) : Outcome.Inv (execPlacement s0) := by
  simp only [Machine.execPlacement]
  split
  · exact .next (.updateReserve h0)
  · split
    · exact .next (.updateReserve h0)
    · exact .next (.updateReserve (.place (.updateReserve h0)))

/-! Launch records and their checks, submission, LAUNCH, doorbells and the taking of queue entries. -/

theorem State.Inv.logChannels {r : LaunchRec} (h : s.Inv) : (s.logChannels r).Inv := by
  simp only [State.logChannels]
  refine .fold (fun _ _ h => ?_) h
  split
  · exact h
  · exact .logBadEntry h

theorem State.Inv.submit {tenant : Nat} {r : LaunchRec} {reason : Option Nat} (h : s.Inv) :
    (s.submit tenant r reason).Inv := by
  simp only [State.submit]
  split
  · exact .updateReserve (.withKernel (.update h))
  · refine .payCompletion (.withKernel ?_)
    split
    · exact .logChannels (.update h)
    · exact .update h

theorem Outcome.Inv.execLaunch {d a : SReg} (h : s.Inv) : Outcome.Inv (execLaunch d a s) := by
  simp only [Machine.execLaunch]
  refine .scalar (fun _ h => .impureOnly (fun _ h => .afterViq (fun _ h => .afterWrites (fun _ h => ?_) h) h) h) h
  split
  · exact .done (.retire h)
  · refine .read h (fun _ => ?_)
    split
    · split
      · exact .done (.retire h)
      · exact .done (.retire (.submit h))
    · refine .read h (fun _ => ?_)
      split
      · exact .done (.retire h)
      · exact .done (.retire (.submit h))

theorem State.Inv.withKqueue {f q : Nat} {x : KQueue} (h : s.Inv) : (s.withKqueue f q x).Inv := h

theorem Outcome.Inv.overCxl {s1 : State} (h : s.Inv) (h1 : s1.Inv) : Outcome.Inv (overCxl s s1) := by
  simp only [Machine.overCxl]
  refine .next ?_
  split
  · exact h
  · exact h1

theorem Outcome.Inv.execDoorbell (h : s.Inv) : Outcome.Inv (execDoorbell s) := by
  simp only [Machine.execDoorbell]
  split
  · exact .next h
  · split
    · exact .overCxl h (.withKqueue h)
    · split
      · exact .overCxl h (.withKqueue h)
      · exact .overCxl h (.withKqueue h)

theorem State.Inv.logTake {f at_ : Nat} {addr : Option Nat} (h : s.Inv) : (s.logTake f at_ addr).Inv :=
  .optElim h (fun _ => .logUncorr h)

theorem Outcome.Inv.execKqEntryTake (h : s.Inv) : Outcome.Inv (execKqEntryTake s) := by
  simp only [Machine.execKqEntryTake]
  split
  · exact .next h
  · split
    · exact .next h
    · split
      · exact .next (.withKqueue (.submit (.logTake h)))
      · exact .next (.withKqueue (.submit h))

/-! The matrix engine. -/

theorem Res.Inv.effMzero {d : AReg} {e : VEntry} {s : State} (h : s.Inv) : (effMzero d e s).Inv :=
  .done (.withMyCtx h)

theorem Res.Inv.tileOut {inside : Ctx → Nat → Bool} {word : Ctx → Nat → Val} {k : MReg} {d : VReg} {a : AReg}
    {e : VEntry} (h : s.Inv) : (tileOut inside word k d a e s).Inv :=
  .vChecked h (.vecMap h)

theorem Res.Inv.effMwrow {d : AReg} {a : VReg} {row : BitVec 7} {e : VEntry} (h : s.Inv) :
    (effMwrow d a row e s).Inv := by
  simp only [Machine.effMwrow]
  refine .vChecked h ?_
  split
  · exact .done (.raise (.withMyCtx h))
  · exact .done h

/-! Sorus registers. -/

theorem Res.Inv.sorusWrite {d : DReg} {tag : BitVec 8} {rs : List (Nat × List Point × FFlags)} (h : s.Inv) :
    (sorusWrite d tag rs s).Inv :=
  .done (.raise (.withMyCtx h))

theorem Res.Inv.sorusBinary {f : Val → Val → Val × FFlags} {d a b : DReg} {e : VEntry} (h : s.Inv) :
    (sorusBinary f d a b e s).Inv := by
  simp only [Machine.sorusBinary]
  split
  · exact .trap h
  · exact .sorusWrite h

theorem Res.Inv.effDfma {d a b : DReg} {e : VEntry} (h : s.Inv) : (effDfma d a b e s).Inv := by
  simp only [Machine.effDfma]
  split
  · exact .trap h
  · exact .sorusWrite h

theorem State.Inv.sorusOut {d : VReg} {f : Nat → Val × FFlags} {e : VEntry} (h : s.Inv) : (sorusOut d f e s).Inv := h

theorem MemRes.Holds.storeImage {a : Nat} {bs : List Byte} (h : s.Inv) : (s.storeImage a bs).Holds State.Inv := by
  simp only [State.storeImage]
  refine .bind (.any _) (fun _ _ => ?_)
  split
  · exact .trap
  · split
    · exact .stall
    · exact .ok (.fold (fun _ _ h => .writeRegion' h) h)

theorem Res.Inv.pureImage {write : Bool} {a n : Nat} {k : State → Res} (hk : ∀ s, s.Inv → (k s).Inv) (h : s.Inv) :
    (pureImage write a n k s).Inv := by
  simp only [Machine.pureImage]
  split
  · exact hk _ h
  · split
    · exact hk _ h
    · exact .violation h hk

theorem Res.Inv.effDld {d : DReg} {e : VEntry} (h : s.Inv) : (effDld d e s).Inv := by
  simp only [Machine.effDld]
  split
  · exact .trap h
  · exact .pureImage (fun _ h => .read h (fun _ => .done (.withMyCtx h))) h

theorem Res.Inv.effDst {d : DReg} {e : VEntry} (h : s.Inv) : (effDst d e s).Inv := by
  simp only [Machine.effDst]
  split
  · exact .trap h
  · exact .pureImage (fun _ h => .elim h (.storeImage h) (fun _ h => .done h)) h

/-! VCMP. -/

theorem Res.Inv.vecCompare {rel : Val → Val → Bool} {nan signals : Bool} {xs : BitVec 1} {k d : MReg} {a : VReg}
    {b : BitVec 5} {e : VEntry} (h : s.Inv) : (vecCompare rel nan signals xs k d a b e s).Inv :=
  .vChecked h (.done (.raise (.withMyCtx h)))

theorem Res.Inv.maskLogic {f : Bool → Bool → Bool} {d a b : MReg} {e : VEntry} (h : s.Inv) :
    (maskLogic f d a b e s).Inv :=
  .vChecked h (.done (.withMyCtx h))

/-! VPERM. -/

theorem Res.Inv.permWrite {d a : VReg} {xs : Ctx → List (Nat × Nat)} (h : s.Inv) : (permWrite d a xs s).Inv :=
  .done (.withMyCtx h)

theorem Res.Inv.effVins {d : VReg} {e : VEntry} (h : s.Inv) : (effVins d e s).Inv := by
  simp only [Machine.effVins]
  refine .vChecked h (.done ?_)
  split
  · exact .withMyCtx h
  · exact h

/-! VRED. -/

theorem Res.Inv.redWrite {d : VReg} {rs : List (Nat × Nat × FFlags)} {f : FFlags} (h : s.Inv) :
    (redWrite d rs f s).Inv :=
  .done (.raise (.writeResults h))

theorem Res.Inv.effVredSum {k : MReg} {d a : VReg} {e : VEntry} (h : s.Inv) : (effVredSum k d a e s).Inv := by
  simp only [Machine.effVredSum]
  refine .vChecked h ?_
  split
  · exact .redWrite h
  · exact .redWrite h

theorem Res.Inv.redMinMax {max : Bool} {k : MReg} {d a : VReg} {e : VEntry} (h : s.Inv) :
    (redMinMax max k d a e s).Inv :=
  .vChecked h (.redWrite h)

theorem Res.Inv.redBits {f : Nat → Nat → Nat} {one : Bool} {k : MReg} {d a : VReg} {e : VEntry} (h : s.Inv) :
    (redBits f one k d a e s).Inv :=
  .vChecked h (.redWrite h)

theorem Res.Inv.redIndex {max : Bool} {k : MReg} {d a : VReg} {e : VEntry} (h : s.Inv) : (redIndex max k d a e s).Inv :=
  .vChecked h (.redWrite h)

/-! VSCAN. -/

theorem Res.Inv.scanChannels {cin : CarryIn} {cout : CarryOut} {k : State → Res} {s : State}
    (hk : ∀ s, s.Inv → (k s).Inv) (h : s.Inv) : (scanChannels cin cout k s).Inv := by
  unfold Machine.scanChannels
  extract_lets inOk
  have hin : ∀ r, inOk = some r → r.Inv := by
    intro r hr
    simp only [inOk] at hr
    split at hr
    · split at hr <;> cases hr
      · exact .wait h
      · exact .trap h
    · cases hr
  clear_value inOk
  split
  next r => exact hin r rfl
  · split
    · split
      · split
        · exact .wait h
        · exact hk s h
      · exact .wait h
    · exact hk s h

theorem Res.Inv.scanPure {cin : CarryIn} {cout : CarryOut} {k : State → Res} (hk : ∀ s, s.Inv → (k s).Inv)
    (h : s.Inv) : (scanPure cin cout k s).Inv := by
  simp only [Machine.scanPure]
  split
  · exact .impureOnly hk h
  · exact .impureOnly hk h
  · exact hk _ h

theorem State.Inv.deliverCarry {e : VEntry} {cin : CarryIn} {cout : CarryOut} {int : Bool} {x : Word} {v : Val}
    (h : s.Inv) : (deliverCarry e cin cout int x v s).Inv := by
  simp only [Machine.deliverCarry]
  split
  · split
    · exact .modChan h
    · exact h
  · refine .writeS ?_
    split
    · exact .modChan h
    · exact h
  · refine .raise (.withMyCtx ?_)
    split
    · exact .modChan h
    · exact h
  · refine .modChan ?_
    split
    · exact .modChan h
    · exact h

theorem State.Inv.carryOutWord {v : Val} (h : s.Inv) : (s.carryOutWord v).2.Inv := by
  simp only [State.carryOutWord]
  split
  · exact h
  · exact .freeWord h

theorem Res.Inv.scanPlain {m : ScanForm} {k : MReg} {d a : VReg} {cin : CarryIn} {cout : CarryOut} {e : VEntry}
    (h : s.Inv) : (scanPlain m k d a cin cout e s).Inv := by
  simp only [Machine.scanPlain]
  refine .vChecked h (.scanPure (fun _ h => .scanChannels (fun _ h => .done (.deliverCarry (.raise
      (.writeResults ?_)))) h) h)
  split
  · exact .carryOutWord h
  · exact h

theorem Res.Inv.effVscanLin {k : MReg} {d a b : VReg} {cin : CarryIn} {cout : CarryOut} {e : VEntry} (h : s.Inv) :
    (effVscanLin k d a b cin cout e s).Inv :=
  .vChecked h (.scanPure (fun _ h => .scanChannels (fun _ h => .done (.deliverCarry (.raise (.writeResults h)))) h) h)

/-! The vector unit. -/

theorem Res.Inv.effectOf {e : VEntry} (h : s.Inv) : (effectOf e s).Inv := by
  unfold Machine.effectOf
  generalize e.instr = i
  cases i with
  | chsend => exact .effChsend h
  | chrecv => exact .effChrecv h
  | vadd xs k d a b => exact show Res.Inv (effVadd xs k d a b e s) from .vecBinary h
  | vsub xs k d a b => exact show Res.Inv (effVsub xs k d a b e s) from .vecBinary h
  | vmul xs k d a b => exact show Res.Inv (effVmul xs k d a b e s) from .vecBinary h
  | vdiv xs k d a b => exact show Res.Inv (effVdiv xs k d a b e s) from .vecBinary h
  | vmin xs k d a b => exact show Res.Inv (effVmin xs k d a b e s) from .vecBinary h
  | vmax xs k d a b => exact show Res.Inv (effVmax xs k d a b e s) from .vecBinary h
  | vand xs k d a b => exact show Res.Inv (effVand xs k d a b e s) from .vecBits h
  | vor xs k d a b => exact show Res.Inv (effVor xs k d a b e s) from .vecBits h
  | vxor xs k d a b => exact show Res.Inv (effVxor xs k d a b e s) from .vecBits h
  | vsll xs k d a b => exact show Res.Inv (effVsll xs k d a b e s) from .vecShiftOp h
  | vsrl xs k d a b => exact show Res.Inv (effVsrl xs k d a b e s) from .vecShiftOp h
  | vsra xs k d a b => exact show Res.Inv (effVsra xs k d a b e s) from .vecShiftOp h
  | vfma xs k d a b => exact show Res.Inv (effVfma xs k d a b e s) from .vecFused h
  | vfms xs k d a b => exact show Res.Inv (effVfms xs k d a b e s) from .vecFused h
  | vabs k d a => exact show Res.Inv (effVabs k d a e s) from .vecUnary h
  | vneg k d a => exact show Res.Inv (effVneg k d a e s) from .vecUnary h
  | vsqrt k d a => exact show Res.Inv (effVsqrt k d a e s) from .vecUnary h
  | vrcp k d a => exact show Res.Inv (effVrcp k d a e s) from .vecUnary h
  | vrsq k d a => exact show Res.Inv (effVrsq k d a e s) from .vecUnary h
  | vexp2 k d a => exact show Res.Inv (effVexp2 k d a e s) from .vecUnary h
  | vlog2 k d a => exact show Res.Inv (effVlog2 k d a e s) from .vecUnary h
  | vtanh k d a => exact show Res.Inv (effVtanh k d a e s) from .vecUnary h
  | vsigm k d a => exact show Res.Inv (effVsigm k d a e s) from .vecUnary h
  | vmov k d a => exact show Res.Inv (effVmov k d a e s) from .vChecked h (.done (.withMyCtx h))
  | vceq xs k d a b => exact show Res.Inv (effVceq xs k d a b e s) from .vecCompare h
  | vcne xs k d a b => exact show Res.Inv (effVcne xs k d a b e s) from .vecCompare h
  | vclt xs k d a b => exact show Res.Inv (effVclt xs k d a b e s) from .vecCompare h
  | vcle xs k d a b => exact show Res.Inv (effVcle xs k d a b e s) from .vecCompare h
  | vcgt xs k d a b => exact show Res.Inv (effVcgt xs k d a b e s) from .vecCompare h
  | vcge xs k d a b => exact show Res.Inv (effVcge xs k d a b e s) from .vecCompare h
  | mand d a b => exact show Res.Inv (effMand d a b e s) from .maskLogic h
  | mor d a b => exact show Res.Inv (effMor d a b e s) from .maskLogic h
  | mxor d a b => exact show Res.Inv (effMxor d a b e s) from .maskLogic h
  | mnot d a => exact show Res.Inv (effMnot d a e s) from .maskLogic h
  | vmerge xs k d a b => exact show Res.Inv (effVmerge xs k d a b e s) from .vChecked h (.done (.writeResults h))
  | vcvt k d a => exact show Res.Inv (effVcvt k d a e s) from .vecUnary h
  | vqnt k d a => exact show Res.Inv (effVqnt k d a e s) from .vChecked h (.vecMap h)
  | vhad d a b => exact show Res.Inv (effVhad d a b e s) from .vChecked h (.done (.raise (.writeResults h)))
  | vtag sc blk bank type d => exact show Res.Inv (effVtag sc blk bank type d e s) from .done (.withMyCtx h)
  | vld => exact .effVld h
  | vst => exact .effVst h
  | vlds => exact .effVlds h
  | vsts => exact .effVsts h
  | vldx => exact .effVldx h
  | vldff => exact .effVldff h
  | vscadd => exact .effVscadd h
  | vspill => exact .effVspill h
  | vreload => exact .effVreload h
  | vlenq d => exact show Res.Inv (effVlenq d e s) from .vChecked h (.done (.writeS h))
  | scld => exact .effScld h
  | vslideup k d a _ => exact show Res.Inv (effVslideup k d a e s) from .vChecked h (.permWrite h)
  | vslidedn k d a _ => exact show Res.Inv (effVslidedn k d a e s) from .vChecked h (.permWrite h)
  | vshuf xs k d a b => exact show Res.Inv (effVshuf xs k d a b e s) from .vChecked h (.permWrite h)
  | vcompress k d a => exact show Res.Inv (effVcompress k d a e s) from .vChecked h (.permWrite h)
  | vsplat k d _ => exact show Res.Inv (effVsplat k d e s) from .vChecked h (.done (.withMyCtx h))
  | vins => exact .effVins h
  | vext d a _ => exact show Res.Inv (effVext d a e s) from .vChecked h (.done (.writeS h))
  | vredSum => exact .effVredSum h
  | vredMin k d a => exact show Res.Inv (effVredMin k d a e s) from .redMinMax h
  | vredMax k d a => exact show Res.Inv (effVredMax k d a e s) from .redMinMax h
  | vredAnd k d a => exact show Res.Inv (effVredAnd k d a e s) from .redBits h
  | vredOr k d a => exact show Res.Inv (effVredOr k d a e s) from .redBits h
  | vredXor k d a => exact show Res.Inv (effVredXor k d a e s) from .redBits h
  | vredMini k d a => exact show Res.Inv (effVredMini k d a e s) from .redIndex h
  | vredMaxi k d a => exact show Res.Inv (effVredMaxi k d a e s) from .redIndex h
  | vscanAdd k d a cin cout => exact show Res.Inv (effVscanAdd k d a cin cout e s) from .scanPlain h
  | vscanMax k d a cin cout => exact show Res.Inv (effVscanMax k d a cin cout e s) from .scanPlain h
  | vscanMin k d a cin cout => exact show Res.Inv (effVscanMin k d a cin cout e s) from .scanPlain h
  | vscanLin => exact .effVscanLin h
  | mop k d a b cmask =>
    exact show Res.Inv (effMop k d a b cmask e s) from .vChecked h (.done (.raise (.withMyCtx h)))
  | mzero => exact .effMzero h
  | mrow k d a row => exact show Res.Inv (effMrow k d a row e s) from .tileOut h
  | mcol k d a row => exact show Res.Inv (effMcol k d a row e s) from .tileOut h
  | mwrow => exact .effMwrow h
  | dadd d a b => exact show Res.Inv (effDadd d a b e s) from .sorusBinary h
  | dsub d a b => exact show Res.Inv (effDsub d a b e s) from .sorusBinary h
  | dmul d a b => exact show Res.Inv (effDmul d a b e s) from .sorusBinary h
  | dmin d a b => exact show Res.Inv (effDmin d a b e s) from .sorusBinary h
  | dmax d a b => exact show Res.Inv (effDmax d a b e s) from .sorusBinary h
  | dfma => exact .effDfma h
  | daff xs d a b => exact show Res.Inv (effDaff xs d a b e s) from .vChecked h (.sorusWrite h)
  | dpt d a => exact show Res.Inv (effDpt d a e s) from .vChecked h (.sorusWrite h)
  | dset d a b => exact show Res.Inv (effDset d a b e s) from .vChecked h (.done (.raise (.withMyCtx h)))
  | dget d a b => exact show Res.Inv (effDget d a b e s) from .vChecked h (.done (.sorusOut (.sorusOut h)))
  | dtag d _ => exact show Res.Inv (effDtag d e s) from .done (.withMyCtx h)
  | dmom d a b => exact show Res.Inv (effDmom d a b e s) from .vChecked h (.done (.sorusOut h))
  | dqnt d a b => exact show Res.Inv (effDqnt d a b e s) from .vChecked h (.done (.sorusOut h))
  | dcdf d a b => exact show Res.Inv (effDcdf d a b e s) from .vChecked h (.done (.sorusOut h))
  | dld => exact .effDld h
  | dst => exact .effDst h
  | fmtset nf _ => exact show Res.Inv (effFmtset nf e s) from .done (.withMyCtx h)
  | sbind => exact .effSbind h
  | sfree => exact .effSfree h
  | csrw _ _ => exact show Res.Inv (effMaxlen (fun _ y => y) e s) from .done (.withMyCtx h)
  | csrs _ _ => exact show Res.Inv (effMaxlen (fun x y => x ||| y) e s) from .done (.withMyCtx h)
  | csrc _ _ => exact show Res.Inv (effMaxlen (fun x y => x &&& ~~~y) e s) from .done (.withMyCtx h)
  | _ => exact .done h

theorem Res.Inv.popTrap {c : Ctx} {rs : List VReg} {e : VEntry} {own : Res} {s : State} {r : Res} (ho : own.Inv)
    (h : s.Inv) (hr : popTrap c rs e own s = some r) : r.Inv := by
  have hrest : ∀ r, (if streamsIllFormed c rs then some (Res.trap { cause := .illfmt } s)
      else if (vDests e.instr).any (fun r => (tget c.streams r.toNat).isSome) then some (.trap (e.illegal 8) s)
      else none) = some r → r.Inv := by
    intro r hr
    split at hr
    · cases hr; exact .trap h
    · split at hr <;> cases hr
      exact .trap h
  cases ho with
  | done => exact hrest r hr
  | wait => exact hrest r hr
  | trap ht =>
    simp only [Machine.popTrap] at hr
    split at hr
    · cases hr
      split
      · exact .trap h
      · exact .trap ht
    · exact hrest r hr

theorem Res.Inv.pureOwn {e : VEntry} {k : State → Res} (hk : ∀ s, s.Inv → (k s).Inv) (h : s.Inv) :
    (pureOwn e k s).Inv := by
  simp only [Machine.pureOwn]
  split
  · exact .impureOnly hk h
  · exact hk _ h

theorem Res.Inv.runPopped {f : VEntry → State → Res} {rs : List VReg} {e : VEntry} {s : State}
    (hf : ∀ e s, s.Inv → (f e s).Inv) (h : s.Inv) : (runPopped f rs e s).Inv := by
  simp only [Machine.runPopped]
  split
  next t s' heq => exact .trap (.unpopAll ((hf e s h).get_trap heq))
  · exact hf e s h

theorem Res.Inv.popAndRun {f : VEntry → State → Res} {rs : List VReg} {e : VEntry} {s : State}
    (hf : ∀ e s, s.Inv → (f e s).Inv) (h : s.Inv) : (popAndRun f rs e s).Inv := by
  simp only [Machine.popAndRun]
  split
  · exact .trap h
  · exact .wait h
  next s1 heq => exact .runPopped hf (.withMyCtx ((MemRes.Holds.popAll h).get heq))

theorem Res.Inv.runBound {f : VEntry → State → Res} {e : VEntry} {s : State}
    (hf : ∀ e s, s.Inv → (f e s).Inv) (h : s.Inv) : (runBound f e s).Inv := by
  simp only [Machine.runBound]
  split
  · exact hf e s h
  · split
    next r heq => exact .popTrap (hf e s h) h heq
    · split
      · exact hf e s h
      · split
        · exact .runPopped hf h
        · exact .pureOwn (fun s h => .pureStreams (fun s h => .popAndRun hf h) h) h

theorem Res.Inv.runEntry {f : VEntry → State → Res} {e : VEntry} (hf : ∀ a s, s.Inv → (f a s).Inv) (h : s.Inv) :
    (runEntry f e s).Inv :=
  .codeGuard (fun _ h => .runBound hf h) h

theorem State.Inv.completeHead {e : VEntry} (h : s.Inv) : (completeHead e s).Inv := h

theorem State.Inv.stepHead {f : VEntry → State → Res} {s : State} (hf : ∀ e s, s.Inv → (f e s).Inv) (h : s.Inv) :
    (stepHead f s).1.Inv := by
  simp only [Machine.stepHead]
  split
  · exact h
  next e _ _ =>
    have hrun : (Machine.runEntry f e s).Inv := .runEntry hf h
    split
    · exact h
    · split
      next s' heq => exact .completeHead (hrun.get_done heq)
      next t s' heq => exact .takeTrap (hrun.get_trap heq)
      next y s' heq => exact hrun.get_wait heq

theorem State.Inv.drainFuel {n : Nat} {s : State} (h : s.Inv) : (drainFuel n s).Inv := by
  induction n generalizing s with
  | zero => exact h
  | succ n ih =>
    have hstep : (Machine.stepHead Machine.effectOf s).1.Inv := .stepHead (fun e s h => .effectOf h) h
    simp only [Machine.drainFuel]
    split
    · exact ih hstep
    · exact hstep

theorem State.Inv.drain (h : s.Inv) : (drain s).Inv :=
  .drainFuel h

theorem State.Inv.asHart {r : HartRef} {f : State → State} (h : s.Inv) (hf : ∀ s, s.Inv → (f s).Inv) :
    (s.asHart r f).Inv :=
  .update (hf _ (.update h))

theorem State.Inv.serveHead {cid : Nat} {f : VEntry → State → Res} (h : s.Inv) (hf : ∀ a s, s.Inv → (f a s).Inv) :
    (s.serveHead cid f).Inv := by
  simp only [State.serveHead]
  refine .asHart h (fun _ h => ?_)
  split
  · exact .drain (.stepHead hf h)
  · exact .stepHead hf h

theorem State.Inv.viqMove {cid : Nat} (h : s.Inv) : (s.viqMove cid).Inv := by
  simp only [State.viqMove]
  split
  · exact h
  · split
    · exact .serveHead h (fun _ _ h => .effectOf h)
    · exact h

theorem Outcome.Inv.execMaxlenWrite (h : s.Inv) : Outcome.Inv (execMaxlenWrite s) := by
  simp only [Machine.execMaxlenWrite]
  split
  · split
    · exact .next (.asHart h (fun _ h => .drain h))
    · exact .next h
  · exact .next h

theorem Outcome.Inv.execGatherServe (h : s.Inv) : Outcome.Inv (execGatherServe s) := by
  simp only [Machine.execGatherServe]
  split
  · split
    · split
      · exact .next (.serveHead h (fun _ _ h => .gather h))
      · exact .next h
    · exact .next h
  · exact .next h

theorem Outcome.Inv.execScatterUpdate (h : s.Inv) : Outcome.Inv (execScatterUpdate s) := by
  simp only [Machine.execScatterUpdate]
  split
  · split
    · split
      · refine .next (.serveHead h (fun e s h => ?_))
        split
        next y s' heq => exact .scatterOne ((Res.Inv.effVscadd h).get_wait heq)
        · exact .effVscadd h
      · exact .next h
    · exact .next h
  · exact .next h

/-! The issue of copy commands. -/

theorem State.Inv.enqueue {x : CopyCmd} (h : s.Inv) : (s.enqueue x).Inv := by
  simp only [State.enqueue]
  split
  · exact .withMe (.withCopyQueue (.update h))
  · exact .withCopyQueue (.update h)

theorem Res.Inv.copyWaits {waits : TagView × VEntry → Bool} {k : State → Res} (hk : ∀ s, s.Inv → (k s).Inv)
    (h : s.Inv) : (copyWaits waits k s).Inv := by
  simp only [Machine.copyWaits]
  split
  · exact .wait h
  · split
    · exact .wait h
    · exact hk _ h

theorem Res.Inv.issueCopy {n : Nat} {waits : TagView × VEntry → Bool} {cmd : State → CopyCmd} {s : State} (h : s.Inv) :
    (issueCopy n waits cmd s).Inv :=
  .copyWaits (fun _ h => .done (.advance (.enqueue h))) h

theorem Res.Inv.unboundGroup {rs : List VReg} {k : State → Res} (hk : ∀ s, s.Inv → (k s).Inv) (h : s.Inv) :
    (unboundGroup rs k s).Inv := by
  simp only [Machine.unboundGroup]
  split
  · exact .trap h
  · exact hk _ h

theorem Res.Inv.boundGroup {rs : List VReg} {k : State → Res} (hk : ∀ s, s.Inv → (k s).Inv) (h : s.Inv) :
    (boundGroup rs k s).Inv := by
  simp only [Machine.boundGroup]
  split
  · exact hk _ h
  · exact .unboundGroup hk h

theorem Res.Inv.pureCopy {ranges : PureState → List (Nat × Nat)} {a n : Nat} {k : State → Res}
    (hk : ∀ s, s.Inv → (k s).Inv) (h : s.Inv) : (pureCopy ranges a n k s).Inv := by
  simp only [Machine.pureCopy]
  split
  · exact hk _ h
  · split
    · exact hk _ h
    · exact .violation h hk

theorem Outcome.Inv.execCpyin {d : SReg} {a : BitVec 5} {b sz bar : SReg} {vdst : BitVec 1} {vg : BitVec 2}
    {comp : BitVec 1} {toa : BitVec 3} {aoff boff : BitVec 16} (h :
    s.Inv) : Outcome.Inv (execCpyin d a b sz bar vdst vg comp toa aoff boff s) := by
  simp only [Machine.execCpyin]
  split
  · exact .onlyOn (fun _ h => .scalar (fun _ h => .boundGroup (fun _ h => .pureCopy (fun _ h => .copyWaits
      (fun _ h => .unboundGroup (fun _ h => .done (.advance (.enqueue h))) h) h) h) h) h) h
  · exact .scalar (fun _ h => .pureCopy (fun _ ha => .issueCopy ha) h) h

theorem Outcome.Inv.execCpyout {d a b sz bar : SReg} {comp : BitVec 1} {toa : BitVec 3} {aoff boff : BitVec 16}
    (h : s.Inv) : Outcome.Inv (execCpyout d a b sz bar comp toa aoff boff s) :=
  .scalar (fun _ h => .pureCopy (fun _ ha => .issueCopy ha) h) h

theorem Outcome.Inv.execCpyreg {d : SReg} {a b : VReg} {sz bar aux : SReg} {vg : BitVec 2} {comp : BitVec 1}
    {toa : BitVec 3} (h : s.Inv) : Outcome.Inv (execCpyreg d a b sz bar aux vg comp toa s) :=
  .onlyOn (fun _ h => .scalar (fun _ h => .boundGroup (fun _ h => .impureOnly (fun _ h => .copyWaits
      (fun _ h => .unboundGroup (fun _ h => .done (.advance (.enqueue h))) h) h) h) h) h) h

theorem Outcome.Inv.execCpyfold {d a b sz bar : SReg} {fold : BitVec 2} {ordered comp : BitVec 1} {toa : BitVec 3}
    {aoff boff : BitVec 16} (h : s.Inv) : Outcome.Inv (execCpyfold d a b sz bar fold ordered comp toa aoff boff s) :=
  .scalar (fun _ h => .impureOnly (fun _ ha => .issueCopy ha) h) h

theorem Outcome.Inv.execScpy {d a b sz bar : SReg} {comp : BitVec 1} {toa : BitVec 3} {aoff boff : BitVec 16}
    (h : s.Inv) : Outcome.Inv (execScpy d a b sz bar comp toa aoff boff s) :=
  .scalar (fun _ h => .impureOnly (fun _ ha => .issueCopy ha) h) h

theorem Outcome.Inv.execExportPage {d b : SReg} (h : s.Inv) : Outcome.Inv (execExportPage d b s) :=
  .scalar (fun _ h => .impureOnly (fun _ ha => .issueCopy ha) h) h

theorem Outcome.Inv.execTcpyIn {d a b bar : SReg} {comp : BitVec 1} {toa : BitVec 3} {t0 t1 t2 t3 aoff : BitVec 16}
    (h : s.Inv) : Outcome.Inv (execTcpyIn d a b bar comp toa t0 t1 t2 t3 aoff s) :=
  .scalar (fun _ h => .impureOnly (fun _ ha => .issueCopy ha) h) h

theorem Outcome.Inv.execTcpyOut {d a b bar : SReg} {comp : BitVec 1} {toa : BitVec 3} {t0 t1 t2 t3 aoff : BitVec 16}
    (h : s.Inv) : Outcome.Inv (execTcpyOut d a b bar comp toa t0 t1 t2 t3 aoff s) :=
  .scalar (fun _ h => .impureOnly (fun _ ha => .issueCopy ha) h) h

/-! Groups, tasks, counters, suspension and the strip farm. -/

theorem State.Inv.enterReady {k : Nat} {i : ReadyItem} (h : s.Inv) : (s.enterReady k i).Inv :=
  .modKernel h

theorem State.Inv.admitCtx {cid : Nat} (h : s.Inv) : (s.admitCtx cid).Inv := by
  simp only [State.admitCtx]
  split
  · exact h
  · refine .fold (fun _ _ h => ?_) h
    split
    · exact .enterReady (.withCtx h)
    · exact h

theorem State.Inv.admitConts {k : Nat} (h : s.Inv) : (s.admitConts k).Inv :=
  .fold (fun _ _ h => .admitCtx h) h

theorem State.Inv.startRecord {r : HartRef} {t : TaskRec} (h : s.Inv) : (s.startRecord r t).Inv := by
  simp only [State.startRecord]
  split
  · exact .lookup (.setPure (.withHart h))
  · exact .beginTask (.withHart h)

theorem State.Inv.startCont {r : HartRef} {cid id : Nat} (h : s.Inv) : (s.startCont r cid id).Inv := by
  simp only [State.startCont]
  split
  · exact h
  · exact .withHart (.withCtx h)

theorem State.Inv.takeReady {r : HartRef} {k i : Nat} (h : s.Inv) : (s.takeReady r k i).Inv := by
  simp only [State.takeReady]
  split
  · exact h
  · refine .admitConts ?_
    split
    · exact .startRecord (.modKernel h)
    · exact .startCont (.modKernel h)

theorem State.Inv.takeDeque {r : HartRef} {cid i : Nat} (h : s.Inv) : (s.takeDeque r cid i).Inv := by
  simp only [State.takeDeque]
  split
  · exact h
  · exact .startRecord (.withCtx h)

theorem Outcome.Inv.execDispatch (h : s.Inv) : Outcome.Inv (execDispatch s) := by
  simp only [Machine.execDispatch]
  split
  · exact .next h
  · split
    · split
      · exact .next h
      · exact .next (.takeReady h)
      · exact .next (.takeDeque h)
    · exact .next (.lookup h)
    · exact .next h

theorem Outcome.Inv.execTspawn {a : SReg} (h : s.Inv) : Outcome.Inv (execTspawn a s) := by
  simp only [Machine.execTspawn]
  refine .scalar (fun _ h => .impureOnly (fun _ h => .afterViq (fun _ h => .afterWrites (fun _ h => ?_) h) h) h) h
  split
  · exact .trap h
  · split
    · split
      · exact .trap h
      · exact .done (.advance (.enterReady h))
    · exact .done (.advance (.withMyCtx h))

theorem MemRes.Holds.decrement {w : Who} {k pa va : Nat} {release : Bool} (h : s.Inv) :
    (s.decrement w k pa va release).Holds State.Inv := by
  simp only [State.decrement]
  split
  · exact .stall
  · split
    · exact .trap
    · split
      · exact .trap
      · split
        · exact .trap
        · split
          · exact .trap
          · split
            · exact .ok (.enterReady (.syncWrite' (.syncWrite' h)))
            · exact .ok (.syncWrite' h)

theorem MemRes.Holds.decrementAt {r : HartRef} {a : Nat} {release : Bool} (h : s.Inv) :
    (s.decrementAt r a release).Holds State.Inv :=
  .bind (.any _) (fun _ _ => .decrement h)

theorem Outcome.Inv.execTdec {a : SReg} (h : s.Inv) : Outcome.Inv (execTdec a s) :=
  .scalar (fun _ h => .pureSync (fun _ h => .afterViq (fun _ h => .afterWrites (fun _ h => .elim h (.decrementAt h)
      (fun _ h' => .done (.advance h'))) h) h) h) h

theorem Outcome.Inv.execTdep {a b c : SReg} (h : s.Inv) : Outcome.Inv (execTdep a b c s) := by
  simp only [Machine.execTdep]
  refine .scalar (fun _ h => .pureSync (fun _ h => .afterViq (fun _ h => .afterWrites (fun _ h => .read h
      (fun _ => ?_)) h) h) h) h
  split
  · exact .trap h
  · split
    · exact .wait h
    · split
      · exact .trap h
      · split
        · exact .trap h
        · refine .done (.advance ?_)
          split
          · exact .enterReady (.syncWrite' h)
          · exact .syncWrite' h

theorem State.Inv.raiseOutputs {r : HartRef} {p : PureState} (h : s.Inv) : (s.raiseOutputs r p).Inv := by
  simp only [State.raiseOutputs]
  split
  · refine .fold (fun _ _ h => ?_) h
    split
    · exact .update h
    · exact h
  · refine .dropStrips (.fold (fun _ _ h => ?_) h)
    split
    · exact .update h
    · exact h

theorem MemRes.Holds.endDecrement {r : HartRef} (h : s.Inv) : (s.endDecrement r).Holds State.Inv := by
  simp only [State.endDecrement]
  split
  · exact .ok h
  · exact .decrementAt h

theorem State.Inv.beginInsertion {r : HartRef} {p : PureState} (h : s.Inv) : (s.beginInsertion r p).Inv := h

theorem Outcome.Inv.execTdone (h : s.Inv) : Outcome.Inv (execTdone s) := by
  simp only [Machine.execTdone]
  refine .scalar (fun _ h => .afterViqEmpty (fun _ h => .afterWrites (fun _ h => ?_) h) h) h
  split
  · exact .wait h
  · split
    · exact .trap h
    · split
      · exact .done (.goIdle (.advance h))
      · split
        · exact .done (.advance h)
        · split
          · exact .elim h (.endDecrement h) (fun _ h' => .done (.goIdle (.advance h')))
          · split
            · exact .wait h
            · refine .elim h (.endDecrement (.raiseOutputs h)) (fun _ h' => ?_)
              split
              · exact .done (.beginInsertion (.advance h'))
              · exact .done (.goIdle (.advance h'))

theorem Outcome.Inv.execSfarm {a : SReg} (h : s.Inv) : Outcome.Inv (execSfarm a s) := by
  simp only [Machine.execSfarm]
  refine .scalar (fun _ h => .impureOnly (fun _ h => ?_) h) h
  split
  · exact .trap h
  · split
    · exact .done (.advance (.withMe h))
    · split
      · exact .wait h
      · split
        · exact .done (.advance (.withMe (.withKernel h)))
        · split
          · exact .trap h
          · exact .done (.advance (.withMe h))

theorem Outcome.Inv.execSnext {d : SReg} (h : s.Inv) : Outcome.Inv (execSnext d s) := by
  simp only [Machine.execSnext]
  refine .scalar (fun _ h => .impureOnly (fun _ h => ?_) h) h
  split
  · split
    · exact .done (.retire (.withKernel h))
    · exact .done (.retire h)
  · exact .done (.retire h)

theorem State.Inv.suspend {a : SReg} {m : BitVec 32} (h : s.Inv) : (s.suspend a m).Inv := by
  simp only [State.suspend]
  refine .update (.goIdle (.advance (.withMe ?_)))
  split
  · exact .withCopy (.withMyCtx h)
  · exact .withMyCtx h

theorem Outcome.Inv.execTsusp {a : SReg} {m : BitVec 32} (h : s.Inv) : Outcome.Inv (execTsusp a m s) := by
  simp only [Machine.execTsusp]
  refine .scalar (fun _ h => .afterViqEmpty (fun _ h => .afterWrites (fun _ h => ?_) h) h) h
  split
  · exact .trap h
  · split
    · exact .trap h
    · split
      · exact .wait h
      · split
        · exact .trap h
        · split
          · split
            · exact .violation h (fun _ h => .done (.admitConts (.suspend h)))
            · exact .done (.admitConts (.suspend h))
          · exact .done (.admitConts (.suspend h))

theorem State.Inv.retireHit {r : HartRef} (h : s.Inv) : (s.retireHit r).Inv := by
  simp only [State.retireHit]
  split
  next s1 heq =>
    exact .goIdle ((MemRes.Holds.endDecrement h).get heq)
  · exact h
  · exact .lookupTrap h

theorem Outcome.Inv.execHitCopyDone (h : s.Inv) : Outcome.Inv (execHitCopyDone s) := by
  simp only [Machine.execHitCopyDone]
  split
  next s1 _ heq =>
    exact .next ((Opt.Inv.lateHit h).get heq)
  · exact .next h
  · split
    · split
      · exact .next h
      · split
        · exact .next (.startPure (.endRead (.logImage h)))
        next s1 heq =>
          refine .next ?_
          split
          · exact .retireHit (.setPure (.endRead ((Opt.Inv.hitCopy h).get heq)))
          · exact .setPure (.endRead ((Opt.Inv.hitCopy h).get heq))
    · refine .next ?_
      split
      · exact .retireHit h
      · exact h
    · exact .next h

/-! The copy engine. -/

theorem Eng.Holds.engWrite {x : CopyCmd} {i a : Nat} {bs : List Byte} (h : s.Inv) :
    (s.engWrite x i a bs).Holds State.Inv := by
  simp only [State.engWrite]
  refine .bind (.any _) (fun _ _ => ?_)
  split
  · exact .fail
  · exact .ok (.writeTurned h)

theorem State.Inv.putIs {cid a : Nat} {bs : List Byte} (h : s.Inv) : (s.putIs cid a bs).Inv := h

theorem State.Inv.putGroup {cid : Nat} {r : VReg} {off : Nat} {bs : List Byte} (h : s.Inv) :
    (s.putGroup cid r off bs).Inv := h

theorem Eng.Holds.tensorWrite {x : CopyCmd} {off : Nat} {bs : List Byte} {s : State} (h : s.Inv) :
    (tensorWrite x off bs s).Holds State.Inv := by
  refine Eng.Holds.fold (fun i s h => ?_) (.ok h)
  split
  · exact .ok h
  · exact .bind (.any _) fun _ _ => .engWrite h

theorem Eng.Holds.compWrite {x : CopyCmd} {pl : Place} {va : Nat} {bs : List Byte} (h : s.Inv) :
    (s.compWrite x pl va bs).Holds State.Inv := by
  simp only [State.compWrite]
  split
  · exact .fail
  · split
    · exact .fail
    · split
      · exact .wait
      · split
        · exact .fail
        · exact .ok (.fold (fun _ _ h => .update h) (.writeCopy' h))

theorem State.Inv.regWrite {x : CopyCmd} {cid : Nat} {r : VReg} {off : Nat} {bs : List Byte} (h : s.Inv) :
    (s.regWrite x cid r off bs).Inv := by
  simp only [State.regWrite]
  split
  · exact .putGroup h
  · exact .lostWrite' h

theorem Eng.Holds.copyWrite {x : CopyCmd} {off : Nat} {bs : List Byte} (h : s.Inv) :
    (s.copyWrite x off bs).Holds State.Inv := by
  simp only [State.copyWrite]
  split
  · split
    · exact .ok (.putGroup h)
    · exact .ok (.putIs h)
  · exact .ok (.putIs h)
  · exact .tensorWrite h
  · split
    · split
      · exact .ok (.regWrite h)
      · exact .wait
    · exact .fail
  · split
    · split
      · exact .compWrite h
      · exact .engWrite h
    · exact .engWrite h
  · exact .engWrite h

theorem Eng.Holds.encodeUnit {x : CopyCmd} {k : Nat} (h : s.Inv) : (s.encodeUnit x k).Holds (fun p => p.1.Inv) := by
  simp only [State.encodeUnit]
  refine .bind (.any _) (fun _ _ => ?_)
  split
  · exact .fail
  · refine .ok (.putIs (.putIs ?_))
    split
    · exact .putIs h
    · exact h

theorem Eng.Holds.decodeUnit {x : CopyCmd} {k : Nat} (h : s.Inv) : (s.decodeUnit x k).Holds (fun p => p.1.Inv) := by
  simp only [State.decodeUnit]
  split
  · exact .fail
  · exact .bind (.copyWrite h) (fun _ h1 => .ok h1)

theorem Eng.Holds.ascendUnit {x : CopyCmd} {p : Nat} (h : s.Inv) : (s.ascendUnit x p).Holds (fun p => p.1.Inv) := by
  simp only [State.ascendUnit]
  split
  · split
    · exact .decodeUnit h
    · exact .encodeUnit h
  · exact .bind (.any _) (fun _ _ => .bind (.any _) (fun _ _ => .bind (.copyWrite h) (fun _ h1 => .ok h1)))

theorem Eng.Holds.foldUnit {x : CopyCmd} {op : Nat} {ordered : Bool} {j : Nat} (h : s.Inv) :
    (s.foldUnit x op ordered j).Holds (fun p => p.1.Inv) := by
  simp only [State.foldUnit]
  refine .bind (.any _) (fun _ _ => .bind (.any _) (fun _ _ => ?_))
  split
  · split
    · exact .fail
    · split
      · exact .wait
      · split
        · exact .fail
        · exact .ok (.syncWrite' (.update h))
  · exact .fail

theorem State.Inv.exportTurn {core pa : Nat} (h : s.Inv) : (s.exportTurn core pa).1.Inv := by
  simp only [State.exportTurn]
  exact .dropStrips (.foldFst (fun _ _ h => .turnCopy h) h)

theorem Eng.Holds.exportUnit {x : CopyCmd} (h : s.Inv) :
    (s.exportUnit x).Holds (fun p => p.1.Inv) := by
  unfold State.exportUnit
  extract_lets w a
  refine .bind (.any _) (fun r _ => ?_)
  split
  · split
    · exact .fail
    · split
      · exact .wait
      · extract_lets r s1 base ws
        have h1 : s1.Inv := .exportTurn h
        split
        · exact .fail
        · split
          · exact .fail
          · split
            · exact .ok h1
            · split
              · exact .fail
              · split
                next heq => exact .ok ((Opt.Inv.ringPut h1).get heq)
                · exact .wait
  · exact .fail

theorem State.Inv.exportRaise {x : CopyCmd} (h : s.Inv) : (s.exportRaise x).Inv := by
  simp only [State.exportRaise]
  split
  · split
    · split
      · exact .exportTurn h
      · exact h
    · exact h
  · exact h

theorem State.Inv.postBytes {x : CopyCmd} {n : Nat} (h : s.Inv) : (s.postBytes x n).Inv := by
  simp only [State.postBytes]
  split
  · exact .withBarrier h
  · exact h

theorem State.Inv.retireBytes {x : CopyCmd} {n : Nat} (h : s.Inv) : (s.retireBytes x n).1.Inv := by
  simp only [State.retireBytes]
  split
  · exact h
  · exact .postBytes h

theorem State.Inv.retireAtoms {n : Nat} {p : State × CopyCmd} (h : p.1.Inv) : (retireAtoms n p).1.Inv := by
  induction n generalizing p with
  | zero => exact h
  | succ n ih =>
    simp only [Machine.retireAtoms]
    split
    · exact ih (.retireBytes h)
    · exact h

theorem State.Inv.logCopy {x : CopyCmd} {code a : Nat} (h : s.Inv) : (s.logCopy x code a).Inv := by
  simp only [State.logCopy]
  split
  · exact .logEcc h
  · exact h

theorem State.Inv.copyFault {x : CopyCmd} {t : Trap} {fails : CopyCmd} (h : s.Inv) : (s.copyFault x t fails).Inv := by
  simp only [State.copyFault]
  split
  · exact .withCopy h
  · exact .update (.withCopy h)

theorem State.Inv.startWith {x : CopyCmd} (h : s.Inv) : (s.startWith x).Inv := by
  simp only [State.startWith]
  split
  · exact .withCopy h
  · exact .withCopy h

theorem Outcome.Inv.descr {x : CopyCmd} (h : s.Inv) : Outcome.Inv (execCopyStart.descr s x) := by
  simp only [execCopyStart.descr]
  split
  · exact .next (.startWith h)
  · exact .next (.withCopy (.logCopy h))
  · exact .next (.copyFault h)
  · exact .next h

theorem Outcome.Inv.execCopyStart (h : s.Inv) : Outcome.Inv (execCopyStart s) := by
  simp only [Machine.execCopyStart]
  split
  · exact .next h
  · split
    · exact .next h
    · split
      · exact .next (.withCopy h)
      · split
        · exact .descr h
        · exact .descr h
        · exact .next (.startWith h)

theorem State.Inv.stepUnit {x : CopyCmd} {r : Eng (State × CopyCmd × Nat)} (h : s.Inv)
    (hr : r.Holds (fun p => p.1.Inv)) : (s.stepUnit x r).Inv := by
  cases hr with
  | ok h1 => exact .withCopy (.retireBytes h1)
  | fail => exact .withCopy (.logCopy h)
  | fault => exact .copyFault h
  | wait => exact h

theorem State.Inv.advanceCopy {x : CopyCmd} (h : s.Inv) : (s.advanceCopy x).Inv :=
  .withCopy (.retireAtoms h)

theorem State.Inv.stepAscending {x : CopyCmd} {p : Nat} (h : s.Inv) : (s.stepAscending x p).Inv := by
  simp only [State.stepAscending]
  split
  next s1 _ _ heq =>
    exact .advanceCopy ((Eng.Holds.ascendUnit h).get heq)
  · exact .advanceCopy (.logCopy h)
  · exact .copyFault h
  · exact .advanceCopy h

theorem State.Inv.landAtom {x : CopyCmd} {r : VReg} {i : Nat} {bs : List Byte} (h : s.Inv) :
    (s.landAtom x r i bs).1.Inv := by
  simp only [State.landAtom]
  split
  · exact .putGroup h
  · exact h

theorem State.Inv.stepAtom {x : CopyCmd} {i : Nat} (h : s.Inv) : (s.stepAtom x i).Inv := by
  unfold State.stepAtom
  extract_lets n moved
  have hmoved : moved.Holds (fun p => p.1.Inv) := by
    refine .bind (.any _) fun bs _ => ?_
    split
    · exact .ok (.landAtom h)
    · exact .bind (.copyWrite h) fun s1 h1 => .ok h1
  clear_value moved
  cases hmoved with
  | ok h1 => exact .advanceCopy h1
  | fail => exact .advanceCopy (.logCopy h)
  | fault => exact .copyFault h
  | wait => exact h

theorem Outcome.Inv.execCopyAtom (h : s.Inv) : Outcome.Inv (execCopyAtom s) := by
  simp only [Machine.execCopyAtom]
  split
  · exact .next h
  · split
    · exact .next h
    · split
      · exact .next (.stepUnit h (.foldUnit h))
      · split
        · exact .next (.withCopy (.logCopy (.exportRaise h)))
        · exact .next (.stepUnit h (.exportUnit h))
      · split
        · exact .next (.stepAscending h)
        · split
          · exact .next (.advanceCopy h)
          · split
            · exact .next (.stepAtom h)
            · exact .next (.advanceCopy h)

theorem State.Inv.endStamp {x : CopyCmd} (h : s.Inv) : (s.endStamp x).Inv := by
  simp only [State.endStamp]
  split
  · exact .withCopy (.retireBytes h)
  · exact .withCopy h

theorem Outcome.Inv.execScpyStamp (h : s.Inv) : Outcome.Inv (execScpyStamp s) := by
  simp only [Machine.execScpyStamp]
  split
  · exact .next h
  · split
    · exact .next h
    · split
      · exact .next (.endStamp h)
      · split
        next s1 heq =>
          exact .next (.endStamp ((Eng.Holds.bind (.any _) (fun _ _ => .engWrite h)).get heq))
        · exact .next (.withCopy (.logCopy h))
        · exact .next (.copyFault h)
        · exact .next h

theorem State.Inv.dropCopy {x : CopyCmd} (h : s.Inv) : (s.dropCopy x).Inv := by
  simp only [State.dropCopy]
  split
  · exact .update (.withCopyQueue h)
  · exact .withCopyQueue h

theorem State.Inv.deliverToken {x : CopyCmd} {w : Word} (h : s.Inv) : (s.deliverToken x w).Inv := by
  simp only [State.deliverToken]
  split
  · exact h
  · split
    · exact .withHart h
    · exact .admitConts (.withCtx h)
    · split
      · exact .withHart h
      · exact h

theorem Outcome.Inv.execTokenWrite (h : s.Inv) : Outcome.Inv (execTokenWrite s) := by
  simp only [Machine.execTokenWrite]
  split
  · exact .next h
  · split
    · exact .next h
    · split
      · exact .next (.deliverToken (.dropCopy h))
      · exact .next h

/-! The supervisor. -/

theorem Outcome.Inv.execTrapRecordWrite (h : s.Inv) : Outcome.Inv (execTrapRecordWrite s) := by
  simp only [Machine.execTrapRecordWrite]
  split
  · split
    · exact .next h
    · split
      · split
        · exact .next (.logOnce h)
        · split
          · exact .next h
          · split
            · split
              · exact .next h
              · exact .next (.update (.writeCopy' (.writeCopy' h)))
            · exact .next (.entryOnce h)
      · exact .next (.entryOnce (.entryOnce h))
  · exact .next h

theorem State.Inv.dropRecord {id : Nat} (h : s.Inv) : (s.dropRecord id).Inv := h

theorem Outcome.Inv.execEngerrAsync (h : s.Inv) : Outcome.Inv (execEngerrAsync s) := by
  simp only [Machine.execEngerrAsync]
  split
  · exact .next h
  · split
    · exact .next h
    · split
      · split
        · exact .next (.killCtx (.withHart h))
        · exact .next (.update (.hold (.interrupt (.interruptOthers (.withHart h)))))
      · split
        · exact .next h
        · exact .next (.takeTrap (.interrupt (.withHart h)))

theorem State.Inv.noteReply {t : TrapRec} (h : s.Inv) : (s.noteReply t).Inv :=
  .optElim h (fun _ => .logUncorr h)

theorem Outcome.Inv.onReply {actions : List Nat} {f : TrapRec → State → State} (hf : ∀ a s, s.Inv → (f a s).Inv)
    (h : s.Inv) : Outcome.Inv (onReply actions f s) := by
  simp only [Machine.onReply]
  split
  · exact .next h
  · split
    · exact .next h
    · exact .next (.dropRecord (hf _ _ h))

theorem State.Inv.endCopyFault {id : Nat} {retry : Bool} (h : s.Inv) : (s.endCopyFault id retry).Inv := by
  simp only [State.endCopyFault]
  split
  · exact h
  · exact .withCopy h

theorem State.Inv.unhold {cid : Nat} (h : s.Inv) : (s.unhold cid).Inv := by
  simp only [State.unhold]
  split
  · exact .withCtx h
  · exact h

theorem State.Inv.unstall {t : TrapRec} (h : s.Inv) : (s.unstall t).Inv := h

theorem State.Inv.resume {t : TrapRec} (h : s.Inv) : (s.resume t).Inv := by
  simp only [State.resume]
  split
  · exact .unstall h
  · split
    · exact .unhold h
    · refine .withHart ?_
      split
      · exact .withCtx (.unhold h)
      · exact .unhold h

theorem State.Inv.discardViq {cid : Nat} (h : s.Inv) : (s.discardViq cid).Inv := h

theorem State.Inv.stopWhole {t : TrapRec} (h : s.Inv) : (s.stopWhole t).Inv := by
  simp only [State.stopWhole]
  split
  · exact .leaveLookup (.unstall (.abandon (.interruptOthers h)))
  · exact h

theorem Outcome.Inv.execReplyResume (h : s.Inv) : Outcome.Inv (execReplyResume s) := by
  simp only [Machine.execReplyResume]
  refine .onReply (fun _ _ h => ?_) h
  split
  · exact .endCopyFault h
  · exact .resume h

theorem Outcome.Inv.execReplyResumeAt (h : s.Inv) : Outcome.Inv (execReplyResumeAt s) := by
  simp only [Machine.execReplyResumeAt]
  refine .onReply (fun _ _ h => ?_) h
  split
  · exact .endCopyFault h
  · refine .noteReply (.withHart ?_)
    split
    · exact .discardViq (.unhold (.stopWhole h))
    · exact .unhold (.stopWhole h)

theorem Outcome.Inv.execReplyReturn (h : s.Inv) : Outcome.Inv (execReplyReturn s) := by
  simp only [Machine.execReplyReturn]
  refine .onReply (fun _ _ h => ?_) h
  split
  · exact .endCopyFault h
  · exact .noteReply (.resume (.withHart h))

theorem State.Inv.deliver {s0 : State} {t : TrapRec} (h0 : s0.Inv) : (s0.deliver t).Inv := by
  simp only [State.deliver]
  split
  · exact .killCtx (.finishStore h0)
  · exact .enterHandler (.unhold (.stopWhole (.finishStore h0)))

theorem Outcome.Inv.execReplyDeliver (h : s.Inv) : Outcome.Inv (execReplyDeliver s) := by
  simp only [Machine.execReplyDeliver]
  refine .onReply (fun _ _ h => ?_) h
  split
  · exact .endCopyFault h
  · exact .deliver h

theorem Outcome.Inv.execReplyKill (h : s.Inv) : Outcome.Inv (execReplyKill s) := by
  simp only [Machine.execReplyKill]
  refine .onReply (fun _ _ h => ?_) h
  split
  · exact .endCopyFault h
  · exact .killCtx h

theorem State.Inv.noteWord {r : HartRef} (h : s.Inv) : (s.noteWord r).Inv := by
  simp only [State.noteWord]
  split
  · split
    · exact .logEcc h
    · exact h
  · exact h

theorem State.Inv.skip {t : TrapRec} (h : s.Inv) : (s.skip t).Inv := by
  simp only [State.skip]
  split
  · split
    · exact .withCtx (.stopWhole h)
    · exact .resume (.withCtx (.stopWhole h))
  · split
    · refine .withHart ?_
      split
      · exact .noteWord (.stopWhole h)
      · exact .stopWhole h
    · refine .resume (.withCtx ?_)
      split
      · exact .noteWord (.stopWhole h)
      · exact .stopWhole h

theorem Outcome.Inv.execReplySkip (h : s.Inv) : Outcome.Inv (execReplySkip s) := by
  simp only [Machine.execReplySkip]
  split
  · exact .next h
  · refine .onReply (fun _ _ h => ?_) h
    split
    · exact .endCopyFault h
    · exact .skip h

/-! Contexts. -/

theorem State.Inv.giveRights {core cid : Nat} (h : s.Inv) : (s.giveRights core cid).Inv := by
  simp only [State.giveRights]
  refine .update (.withCtx ?_)
  split
  · exact .withCtx (.fold (fun _ _ h => .interrupt h) h)
  · exact h

theorem Outcome.Inv.execSlotSwap (h : s.Inv) : Outcome.Inv (execSlotSwap s) := by
  simp only [Machine.execSlotSwap]
  split
  · exact .next (.giveRights h)
  · exact .next h

theorem Outcome.Inv.execFairShareExpiry (h : s.Inv) : Outcome.Inv (execFairShareExpiry s) := by
  simp only [Machine.execFairShareExpiry]
  split
  · exact .next h
  · split
    · split
      · exact .next (.giveRights h)
      · exact .next h
    · exact .next h

theorem Outcome.Inv.execTimedStartSwap (h : s.Inv) : Outcome.Inv (execTimedStartSwap s) := by
  simp only [Machine.execTimedStartSwap]
  split
  · exact .next h
  · exact .next (.giveRights h)

theorem State.Inv.saveRegion {core tenant pa n : Nat} {f : Nat → Byte} (h : s.Inv) :
    (s.saveRegion core tenant pa n f).Inv :=
  .fold (fun _ _ h => .devWrite' h) h

theorem State.Inv.saveFree {core tenant pa n : Nat} (h : s.Inv) : (s.saveFree core tenant pa n).Inv := by
  simp only [State.saveFree]
  exact .saveRegion (.update h)

theorem State.Inv.writeImage {cid : Nat} (h : s.Inv) : (s.writeImage cid).Inv :=
  .saveRegion (.saveRegion (.saveFree (.fold (fun _ _ h => .saveRegion h) (.saveRegion (.saveRegion (.fold
      (fun _ _ h => .saveRegion h) (.fold (fun _ _ h => .saveRegion h) (.saveFree h))))))))

theorem State.Inv.readImage {cid : Nat} (h : s.Inv) : (s.readImage cid).Inv := h

theorem State.Inv.unpopHead {cid : Nat} (h : s.Inv) : (s.unpopHead cid).Inv := by
  simp only [State.unpopHead]
  refine .asHart h (fun _ h => ?_)
  split
  · split
    · exact .unpopAll h
    · exact h
  · exact h

theorem Outcome.Inv.execContextSave (h : s.Inv) : Outcome.Inv (execContextSave s) := by
  simp only [Machine.execContextSave]
  split
  · exact .next h
  · exact .next (.withCtx (.writeImage (.unpopHead h)))

theorem Outcome.Inv.execSaveDone (h : s.Inv) : Outcome.Inv (execSaveDone s) := by
  simp only [Machine.execSaveDone]
  split
  · exact .next h
  · exact .next (.withCtx (.leaveSorus h))

theorem State.Inv.without {ks : List Nat} (h : s.Inv) : (s.without ks).Inv := h

theorem State.Inv.afterSaves (h : s.Inv) : s.afterSaves.Inv := h

theorem Outcome.Inv.execContextRestore (h : s.Inv) : Outcome.Inv (execContextRestore s) := by
  simp only [Machine.execContextRestore]
  split
  · exact .next h
  · split
    · exact .next h
    · exact .next (.update (.closeSlots (.withKernel h)))

theorem State.Inv.backToRunning {k : Nat} (h : s.Inv) : (s.backToRunning k).Inv := by
  simp only [State.backToRunning]
  split
  · split
    · exact .drainQuiet (.admitConts (.withKernel h))
    · exact h
  · exact h

theorem State.Inv.restoreError {cid pa : Nat} (h : s.Inv) : (s.restoreError cid pa).Inv := by
  simp only [State.restoreError]
  split
  · exact .killCtx (.logUncorr h)
  · exact .holdForSupervisor (.logUncorr h)

theorem Outcome.Inv.execRestoreDone (h : s.Inv) : Outcome.Inv (execRestoreDone s) := by
  simp only [Machine.execRestoreDone]
  split
  · exact .next h
  · refine .next (.backToRunning ?_)
    split
    · exact .restoreError (.withCtx (.readImage h))
    · exact .withCtx (.readImage h)

/-! Queues. -/

theorem Res.Inv.checkHandle {h : Word} {k : Nat → Window → State → Res} (hk : ∀ a b s, s.Inv → (k a b s).Inv)
    (hs : s.Inv) : (checkHandle h k s).Inv := by
  simp only [Machine.checkHandle]
  split
  · exact .trap hs
  · split
    · exact .trap hs
    · split
      · exact .trap hs
      · exact hk _ _ _ hs

theorem Outcome.Inv.execQcreate {d a : SReg} (h : s.Inv) : Outcome.Inv (execQcreate d a s) := by
  simp only [Machine.execQcreate]
  refine .scalar (fun _ h => .impureOnly (fun _ h => .afterViq (fun _ h => ?_) h) h) h
  split
  · exact .trap h
  · refine .read h (fun _ => ?_)
    split
    · exact .trap h
    · split
      · split
        · exact .done (.retire h)
        · exact .done (.retire (.withWindow h))
      · refine .read h (fun _ => ?_)
        split
        · exact .done (.retire h)
        · exact .done (.retire (.withWindow h))

theorem State.Inv.placeRecord {i : Nat} {w : Window} {bs : List Byte} (h : s.Inv) : (s.placeRecord i w bs).Inv := by
  simp only [State.placeRecord]
  split
  · exact .withWindow h
  · exact .withWindow (.syncWrite' h)

theorem State.Inv.afterClose {i : Nat} {w : Window} {k : QKind} (h : s.Inv) : (s.afterClose i w k).Inv := by
  simp only [State.afterClose]
  split
  · exact h
  · split
    · exact .withWindow h
    · exact .withWindow h

theorem Outcome.Inv.execQpush {d a b : SReg} (h : s.Inv) : Outcome.Inv (execQpush d a b s) := by
  simp only [Machine.execQpush]
  refine .scalar (fun _ h => .impureOnly (fun _ h => .afterViq (fun _ h => .afterWrites (fun _ h => .checkHandle
      (fun _ _ _ h => ?_) h) h) h) h) h
  split
  · exact .trap h
  · refine .read h (fun _ => ?_)
    split
    · exact .done (.retire (.afterClose h))
    · split
      · exact .done (.retire h)
      · split
        · exact .wait h
        · split
          · exact .wait h
          · exact .done (.retire (.placeRecord h))

theorem Outcome.Inv.execQpop {d a b : SReg} (h : s.Inv) : Outcome.Inv (execQpop d a b s) := by
  simp only [Machine.execQpop]
  refine .scalar (fun _ h => .impureOnly (fun _ h => .afterViq (fun _ h => .checkHandle (fun _ _ _ h => ?_) h) h) h) h
  split
  · exact .trap h
  · refine .read h (fun _ => ?_)
    split
    · exact .done (.retire (.afterClose h))
    · split
      · exact .wait h
      · split
        · exact .trap (.withWindow h)
        · exact .done (.retire (.writeRegion' (.withWindow h)))

theorem Outcome.Inv.execQinfo {d a : SReg} (h : s.Inv) : Outcome.Inv (execQinfo d a s) := by
  simp only [Machine.execQinfo]
  refine .scalar (fun _ h => .impureOnly (fun _ h => .afterViq (fun _ h => ?_) h) h) h
  split
  · exact .trap h
  · split
    · exact .done (.retire h)
    · split
      · exact .trap h
      · exact .done (.retire (.afterClose h))

theorem State.Inv.closeQueue {i : Nat} {w : Window} (h : s.Inv) : (s.closeQueue i w).Inv := by
  simp only [State.closeQueue]
  split
  · exact .withWindow h
  · exact .withWindow h
  · split
    · exact .withWindow h
    · split
      · exact .withWindow (.freeBelow h)
      · exact .afterClose (.freeBelow h)
  · exact h

theorem Outcome.Inv.execQclose {a : SReg} (h : s.Inv) : Outcome.Inv (execQclose a s) :=
  .scalar (fun _ h => .impureOnly (fun _ h => .afterViq (fun _ h => .afterWrites (fun _ h => .checkHandle
      (fun _ _ _ h => .done (.advance (.closeQueue h))) h) h) h) h) h

theorem Outcome.Inv.execQueueRefill (h : s.Inv) : Outcome.Inv (execQueueRefill s) := by
  simp only [Machine.execQueueRefill]
  split
  · exact .next h
  · refine .next (.withWindow ?_)
    split
    · exact .logUncorr h
    · exact h

theorem State.Inv.freeQueues {tenant : Nat} (h : s.Inv) : (s.freeQueues tenant).Inv := h

/-! The host. -/

theorem State.Inv.noteFrame {pa : Nat} (h : s.Inv) : (s.noteFrame pa).Inv := by
  simp only [State.noteFrame]
  split
  · exact h
  · exact .fold (fun _ _ h => .entryOnce h) h

theorem State.Inv.hostReadError {pa n : Nat} (h : s.Inv) : (s.hostReadError pa n).2.Inv := by
  simp only [State.hostReadError]
  exact .logUncorr h

theorem State.Inv.hostReadPiece {pa n : Nat} (h : s.Inv) : (s.hostReadPiece pa n).2.Inv := by
  simp only [State.hostReadPiece]
  split
  · exact h
  · split
    · exact .hostReadError h
    · split
      · dsimp only
        exact .logEvent' (.noteFrame h)
      · split
        · exact .hostReadError h
        · exact h

theorem Outcome.Inv.execHostMemRead (h : s.Inv) : Outcome.Inv (execHostMemRead s) := by
  unfold Machine.execHostMemRead
  split
  · exact .next h
  · split
    · exact .next (.update h)
    · split
      · exact .next h
      · extract_lets r s1
        have h1 : s1.Inv := .foldSnd (fun _ _ h => .hostReadPiece h) h
        exact .next (.update h1)

theorem State.Inv.hostWritePiece {pa : Nat} {bs : List Byte} (h : s.Inv) : (s.hostWritePiece pa bs).Inv := by
  simp only [State.hostWritePiece]
  split
  · exact .cleanWrite' h
  · exact .lostWrite' h

theorem Outcome.Inv.execHostMemWrite (h : s.Inv) : Outcome.Inv (execHostMemWrite s) := by
  simp only [Machine.execHostMemWrite]
  split
  · exact .next h
  · split
    · refine .next ?_
      split
      · exact .update h
      · exact h
    · split
      · exact .next h
      · exact .next (.fold (fun _ _ h => .hostWritePiece h) h)

theorem Outcome.Inv.execHostRegWrite (h : s.Inv) : Outcome.Inv (execHostRegWrite s) := by
  simp only [Machine.execHostRegWrite]
  split
  · exact .next h
  · split
    · exact .overCxl h (.withKqueue h)
    · split
      · exact .next h
      · split
        · exact .overCxl h (.update h)
        · split
          · exact .overCxl h (.update h)
          · split
            · exact .overCxl h (.withTenant h)
            · exact .next h

theorem Outcome.Inv.execAlarmpolWrite (h : s.Inv) : Outcome.Inv (execAlarmpolWrite s) := by
  simp only [Machine.execAlarmpolWrite]
  split
  · exact .next h
  · exact .overCxl h (.update h)

theorem Outcome.Inv.execFwVerifyDone (h : s.Inv) : Outcome.Inv (execFwVerifyDone s) := by
  simp only [Machine.execFwVerifyDone]
  split
  · exact .next h
  · split
    · exact .next (.update h)
    · exact .next (.update (.logEvent' h))

theorem Outcome.Inv.execTkeyWrite (h : s.Inv) : Outcome.Inv (execTkeyWrite s) := by
  simp only [Machine.execTkeyWrite]
  split
  · exact .next h
  · exact .overCxl h (.withTenant h)

theorem State.Inv.dropTenant {t : Nat} (h : s.Inv) : (s.dropTenant t).Inv :=
  .dropEntries h

theorem Outcome.Inv.execTkctlLoad (h : s.Inv) : Outcome.Inv (execTkctlLoad s) := by
  simp only [Machine.execTkctlLoad]
  split
  · exact .next h
  · split
    · exact .overCxl h (.withTenant (.dropTenant h))
    · exact .overCxl h (.withTenant h)

theorem State.Inv.eraseKey {t : Nat} (h : s.Inv) : (s.eraseKey t).Inv :=
  .withTenant (.dropTenant h)

theorem Outcome.Inv.execTkctlErase (h : s.Inv) : Outcome.Inv (execTkctlErase s) := by
  simp only [Machine.execTkctlErase]
  split
  · exact .next h
  · exact .overCxl h (.eraseKey h)

theorem State.Inv.resetTenant {t : Nat} (h : s.Inv) : (s.resetTenant t).Inv :=
  .withTenant (.dropTenant (.freeQueues (.fold (fun _ _ h => .killKernel h) h)))

theorem Outcome.Inv.execTresetGo (h : s.Inv) : Outcome.Inv (execTresetGo s) := by
  simp only [Machine.execTresetGo]
  split
  · exact .next h
  · exact .overCxl h (.resetTenant h)

theorem Outcome.Inv.execFunctionLevelReset (h : s.Inv) : Outcome.Inv (execFunctionLevelReset s) := by
  simp only [Machine.execFunctionLevelReset]
  split
  · exact .next h
  · exact .overCxl h (.resetTenant h)

theorem State.Inv.warmReset {lastRst : BitVec 2} (h : s.Inv) : (s.warmReset lastRst).Inv := h

theorem Outcome.Inv.execColdReset (h : s.Inv) : Outcome.Inv (execColdReset s) :=
  .next ⟨rfl, h.2⟩

theorem Outcome.Inv.execSecurityAlarm (h : s.Inv) : Outcome.Inv (execSecurityAlarm s) := by
  simp only [Machine.execSecurityAlarm]
  split
  · exact .next h
  · refine .next (.update (.warmReset (.fold (fun _ _ h => ?_) (.logEvent' h))))
    split
    · exact .eraseKey h
    · exact h

theorem Outcome.Inv.execPatrolScrub (h : s.Inv) : Outcome.Inv (execPatrolScrub s) := by
  simp only [Machine.execPatrolScrub]
  split
  · exact .next (.update (.logCorrected h))
  · exact .next h

theorem State.Inv.logWidth (h : s.Inv) : s.logWidth.Inv := by
  simp only [State.logWidth]
  exact .logEvent' (.freeWord h)

theorem Outcome.Inv.execHalfWidth (h : s.Inv) : Outcome.Inv (execHalfWidth s) := by
  simp only [Machine.execHalfWidth]
  split
  · exact .next h
  · split
    · split
      · exact .next h
      · exact .next (.update h)
    · exact .next (.logWidth (.update h))

theorem Outcome.Inv.execFullWidth (h : s.Inv) : Outcome.Inv (execFullWidth s) := by
  simp only [Machine.execFullWidth]
  split
  · exact .next (.logWidth (.update h))
  · exact .next h

/-! The scheduler's other moves and the heartbeat. -/

theorem State.Inv.saveContext {cid : Nat} (h : s.Inv) : (s.saveContext cid).Inv :=
  .modKernel (.withCtx (.fold (fun _ _ h => .interrupt h) h))

theorem Outcome.Inv.execPreemption (h : s.Inv) : Outcome.Inv (execPreemption s) := by
  simp only [Machine.execPreemption]
  split
  · exact .next (.saveContext h)
  · split
    · exact .next h
    · split
      · exact .next h
      · split
        · exact .next (.fold (fun _ _ h => .optElim h (fun _ => .saveContext h)) h)
        · exact .next h

theorem Outcome.Inv.execAgingStep (h : s.Inv) : Outcome.Inv (execAgingStep s) := by
  simp only [Machine.execAgingStep]
  split
  · split
    · exact .next (.updateReserve (.withKernel h))
    · exact .next h
  · exact .next h

theorem Outcome.Inv.execLaunchTick (h : s.Inv) : Outcome.Inv (execLaunchTick s) := by
  simp only [Machine.execLaunchTick]
  split
  · split
    · split
      · exact .next (.update (.modKernel (.update h)))
      · exact .next h
    · exact .next h
  · exact .next h

theorem Outcome.Inv.execKernelRetire (h : s.Inv) : Outcome.Inv (execKernelRetire s) := by
  simp only [Machine.execKernelRetire]
  split
  · split
    · exact .next (.payCompletion h)
    · split
      · exact .next (.drainQuiet h)
      · split
        · exact .next h
        · exact .next (.endKernel h)
  · exact .next h

theorem Outcome.Inv.execWatchdog (h : s.Inv) : Outcome.Inv (execWatchdog s) := by
  simp only [Machine.execWatchdog]
  split
  · split
    · exact .next (.killKernel h)
    · exact .next h
  · exact .next h

theorem Outcome.Inv.execHeartbeatTick (h : s.Inv) : Outcome.Inv (execHeartbeatTick s) := by
  simp only [Machine.execHeartbeatTick]
  split
  · exact .next h
  · exact .next (.update h)

/-! The link protocol, sleep, deadlock probes, and the delivery of packets. -/

theorem State.Inv.withLink {l : Nat} {x : Link} (h : s.Inv) : (s.withLink l x).Inv := h

theorem State.Inv.countLink {die : Nat} {f : LinkCounts → LinkCounts} (h : s.Inv) : (s.countLink die f).Inv := h

theorem State.Inv.resendLink {l : Nat} {x : Link} (h : s.Inv) : (s.resendLink l x).Inv := h

theorem State.Inv.retrainLink {l : Nat} {x : Link} (h : s.Inv) : (s.retrainLink l x).Inv := h

theorem Outcome.Inv.execTrainingDone (h : s.Inv) : Outcome.Inv (execTrainingDone s) := by
  simp only [Machine.execTrainingDone]
  split
  · exact .next h
  · split
    · exact .next (.withLink h)
    · exact .next (.resendLink h)
    · exact .next h

theorem State.Inv.handFlits {from_ : Nat} {route : Option (List Nat)} {fs : List (List Byte)} (h : s.Inv) :
    (s.handFlits from_ route fs).Inv := by
  simp only [State.handFlits]
  split
  · exact .withLink h
  · exact h

theorem State.Inv.failLink {l : Nat} (h : s.Inv) : (s.failLink l).Inv := by
  simp only [State.failLink]
  split
  · exact .withLink h
  · exact .handFlits (.handFlits (.withLink h))

theorem Outcome.Inv.execTrainingFail (h : s.Inv) : Outcome.Inv (execTrainingFail s) := by
  simp only [Machine.execTrainingFail]
  split
  · exact .next h
  · split
    · exact .next (.withLink h)
    · exact .next (.failLink h)

theorem State.Inv.bigGap {l : Nat} {x : Link} {up : Bool} (h : s.Inv) : (s.bigGap l x up).Inv := by
  simp only [State.bigGap]
  split
  · exact .retrainLink h
  · split
    · exact .withLink h
    · exact .withLink (.resendLink h)

theorem State.Inv.receiveFlit {l : Nat} {y : Link} {up : Bool} {f : Flit} (h : s.Inv) :
    (s.receiveFlit l y up f).Inv := by
  simp only [State.receiveFlit]
  split
  · exact .withLink h
  · split
    · exact .withLink h
    · split
      · split
        · exact .withLink h
        · exact .bigGap h
      · split
        · exact .countLink (.withLink h)
        · exact .bigGap h
      · exact .bigGap h

theorem State.Inv.withRouter {r : Nat} {x : Router} (h : s.Inv) : (s.withRouter r x).Inv := h

theorem State.Inv.wakeRouter {r : Nat} (h : s.Inv) : (s.wakeRouter r).Inv := by
  simp only [State.wakeRouter]
  refine .fold (fun _ _ h => ?_) (.withRouter h)
  split
  · exact .withLink h
  · exact h

theorem Outcome.Inv.execFlitReceive (h : s.Inv) : Outcome.Inv (execFlitReceive s) := by
  simp only [Machine.execFlitReceive]
  split
  · exact .next h
  · split
    · exact .next (.fold (fun _ _ h => .wakeRouter h) (.withLink h))
    · split
      · exact .next (.withLink h)
      · split
        · exact .next (.withLink h)
        · split
          · split
            · exact .next (.receiveFlit h)
            · exact .next (.withLink h)
          · exact .next (.withLink h)

theorem Outcome.Inv.execNakReceive (h : s.Inv) : Outcome.Inv (execNakReceive s) := by
  simp only [Machine.execNakReceive]
  split
  · exact .next h
  · split
    · exact .next (.withLink h)
    · exact .next (.withLink h)
    · exact .next h

theorem Outcome.Inv.execAckReceive (h : s.Inv) : Outcome.Inv (execAckReceive s) := by
  simp only [Machine.execAckReceive]
  split
  · exact .next h
  · exact .next (.withLink h)

theorem Outcome.Inv.execNakRepeat (h : s.Inv) : Outcome.Inv (execNakRepeat s) := by
  simp only [Machine.execNakRepeat]
  split
  · exact .next h
  · split
    · exact .next (.retrainLink h)
    · exact .next (.withLink h)

theorem Outcome.Inv.execNakTimeout (h : s.Inv) : Outcome.Inv (execNakTimeout s) := by
  simp only [Machine.execNakTimeout]
  split
  · exact .next h
  · exact .next (.resendLink h)

theorem Outcome.Inv.execPacketDeliver (h : s.Inv) : Outcome.Inv (execPacketDeliver s) := by
  simp only [Machine.execPacketDeliver]
  split
  · exact .next h
  · split
    · refine .next ?_
      split
      · refine .writeCopy' (.update ?_)
        split
        · exact h
        · exact .update h
      · refine .dropStrips (.writeCopy' (.update ?_))
        split
        · exact h
        · exact .update h
    · split
      · exact .next (.update h)
      · exact .next h

theorem Outcome.Inv.execRouterSleep (h : s.Inv) : Outcome.Inv (execRouterSleep s) := by
  simp only [Machine.execRouterSleep]
  split
  · exact .next h
  · refine .next (.fold (fun _ _ h => ?_) (.withRouter h))
    split
    · split
      · exact .withLink h
      · exact h
    · exact h

theorem Outcome.Inv.execWake (h : s.Inv) : Outcome.Inv (execWake s) := by
  simp only [Machine.execWake]
  split
  · exact .next h
  · exact .next (.wakeRouter h)

theorem State.Inv.dropProbe {o : Nat} (h : s.Inv) : (s.dropProbe o).Inv := h

theorem State.Inv.probeTo {o b : Nat} (h : s.Inv) : (s.probeTo o b).Inv := by
  simp only [State.probeTo]
  split
  · refine .withRouter ?_
    split
    · exact .wakeRouter h
    · exact h
  · split
    · refine .dropProbe (.withRouter ?_)
      split
      · exact .wakeRouter h
      · exact h
    · split
      · split
        · exact .wakeRouter h
        · exact h
      · refine .dropProbe ?_
        split
        · exact .wakeRouter h
        · exact h

theorem State.Inv.sendProbe {r b : Nat} (h : s.Inv) : (s.sendProbe r b).Inv := by
  simp only [State.sendProbe]
  split
  · exact .dropProbe (.withRouter h)
  · exact h
  · exact .probeTo (.countLink (.withRouter h))

theorem Outcome.Inv.execDeadlockProbeSend (h : s.Inv) : Outcome.Inv (execDeadlockProbeSend s) := by
  simp only [Machine.execDeadlockProbeSend]
  split
  · exact .next h
  · exact .next (.sendProbe (.withRouter h))

theorem Outcome.Inv.execProbeReceive (h : s.Inv) : Outcome.Inv (execProbeReceive s) := by
  simp only [Machine.execProbeReceive]
  split
  · exact .next h
  · split
    · exact .next (.withRouter h)
    · split
      · exact .next (.dropProbe (.withRouter h))
      · split
        · exact .next h
        · exact .next (.dropProbe (.withRouter h))
        · exact .next (.probeTo (.withRouter h))

theorem State.Inv.enterBuffer {r packet : Nat} (h : s.Inv) : (s.enterBuffer r packet).Inv := h

theorem Outcome.Inv.execDeadlockStep (h : s.Inv) : Outcome.Inv (execDeadlockStep s) := by
  simp only [Machine.execDeadlockStep]
  split
  · exact .next h
  · refine .next (.countLink (.withRouter (.fold (fun _ _ hacc => ?_) (.fold (fun _ _ h => .withRouter h) h))))
    split
    · exact .enterBuffer hacc
    · exact hacc

theorem Outcome.Inv.execProbeRetry (h : s.Inv) : Outcome.Inv (execProbeRetry s) := by
  simp only [Machine.execProbeRetry]
  split
  · exact .next h
  · split
    · exact .next (.sendProbe h)
    · exact .next (.withRouter h)

/-! Cached translations, XINV, migration and the hot-page tracker. -/

theorem State.Inv.walked {die tenant va n : Nat} (h : s.Inv) : (s.walked die tenant va n).Inv := h

theorem Outcome.Inv.execPageWalkDone (h : s.Inv) : Outcome.Inv (execPageWalkDone s) := by
  simp only [Machine.execPageWalkDone]
  split
  · exact .next h
  · split
    · exact .next h
    · exact .next (.walked (.update h))

theorem State.Inv.dropTlb {p : TlbEntry → Bool} (h : s.Inv) : (s.dropTlb p).Inv := h

theorem State.Inv.noteImage {e : ReuseEntry} (h : s.Inv) : (s.noteImage e).Inv :=
  .entryOnce h

theorem State.Inv.xinv {r : HartRef} {covers : Nat → Nat → Nat → Bool} {drop : TlbEntry → Bool} (h : s.Inv) :
    (s.xinv r covers drop).Inv := by
  simp only [State.xinv]
  split
  · refine .dropEntries (.fold (fun _ _ h => ?_) (.dropTlb h))
    split
    · exact .noteImage h
    · exact h
  · refine .csrDone (.dropEntries (.fold (fun _ _ h => ?_) (.dropTlb h)))
    split
    · exact .noteImage h
    · exact h

theorem Outcome.Inv.xinvEvent {scope : Nat} {k : HartRef → Word → State} (hk : ∀ a b, (k a b).Inv) (h : s.Inv) :
    Outcome.Inv (xinvEvent scope k s) := by
  simp only [Machine.xinvEvent]
  split
  · split
    · exact .next (hk _ _)
    · exact .next h
  · exact .next h

theorem State.Inv.takeFrame {die : Nat} (h : s.Inv) : (s.takeFrame die).2.Inv := by
  simp only [State.takeFrame]
  split
  · exact .withDie h
  · exact .withDie h

theorem State.Inv.giveFrame {die f : Nat} (h : s.Inv) : (s.giveFrame die f).Inv := by
  simp only [State.giveFrame]
  split
  · exact .withDie h
  · exact .withDie h

theorem State.Inv.startMigration {tenant va : Nat} {l : Leaf} {die : Nat} {starter : Option Nat} (h : s.Inv) :
    (s.startMigration tenant va l die starter).Inv :=
  .update (.fresh (.takeFrame h))

theorem Outcome.Inv.execMigcmdGo (h : s.Inv) : Outcome.Inv (execMigcmdGo s) := by
  simp only [Machine.execMigcmdGo]
  split
  · split
    · exact .next (.csrDone h)
    · split
      · split
        · exact .next h
        · exact .next (.withCtx (.startMigration (.csrDone (.logBadEntry h))))
      · exact .next (.withCtx (.freeBelow (.csrDone (.logBadEntry h))))
  · exact .next h

theorem State.Inv.noteUnread {die : Nat} (h : s.Inv) : (s.noteUnread die).Inv :=
  .optElim h (fun _ => .logOnce h)

theorem State.Inv.startHot {die : Nat} {l : List HotCand} {n : Nat} (h : s.Inv) :
    (s.startHot die l n).Inv := by
  induction l generalizing s n with
  | nil => exact h
  | cons c r ih =>
    simp only [State.startHot]
    split
    · exact ih (.logUncorr h)
    · split
      · exact ih (.withDie h)
      · split
        · exact ih h
        · exact ih (.startMigration h)

theorem Outcome.Inv.execHotWindowEnd (h : s.Inv) : Outcome.Inv (execHotWindowEnd s) := by
  simp only [Machine.execHotWindowEnd]
  split
  · exact .next h
  · split
    · exact .next h
    · refine .next (.startHot ?_)
      split
      · exact .withDie (.update h)
      · exact .noteUnread (.withDie (.update h))

theorem State.Inv.writeMigLog {d : Die} {m : Migration} (h : s.Inv) : (s.writeMigLog d m).Inv :=
  .writeCopy' (.writeCopy' h)

theorem State.Inv.setMigstat {starter : Option Nat} {x : Word} (h : s.Inv) : (s.setMigstat starter x).Inv := by
  simp only [State.setMigstat]
  split
  · split
    · exact .withCtx h
    · exact h
  · exact h

theorem State.Inv.logLost {core : Nat} {m : Migration} (h : s.Inv) : (s.logLost core m).Inv :=
  .fold (fun _ _ h => .logUncorr h) h

theorem State.Inv.switchFails {m : Migration} (h : s.Inv) : (s.switchFails m).Inv :=
  .setMigstat (.giveFrame h)

theorem Outcome.Inv.execMigrationSwitch (h : s.Inv) : Outcome.Inv (execMigrationSwitch s) := by
  simp only [Machine.execMigrationSwitch]
  split
  · exact .next h
  · split
    · exact .next (.switchFails (.logUncorr (.dropTlb (.update h))))
    · split
      · exact .next (.switchFails (.dropTlb (.update h)))
      · split
        · refine .next ?_
          split
          · exact .noteUnread h
          · exact h
        · split
          · exact .next (.setMigstat (.writeCopy' (.movePage' (.logLost (.dropTlb (.update h))))))
          · exact .next (.writeMigLog (.withDie (.writeCopy' (.movePage' (.logLost (.dropTlb (.update h)))))))

/-! The SYS major. -/

theorem Outcome.Inv.execPsend {a : SReg} {s : State} (h : s.Inv) : Outcome.Inv (execPsend a s) := by
  refine .onlyOn (fun s h => .scalar (fun s h => .impureOnly (fun s h => ?_) h) h) h
  extract_lets c out pipe
  split
  · exact .afterWrites (fun s h => .afterViq (fun s h => .done (.advance (.withMyCtx h))) h) h
  · exact .wait h

theorem Outcome.Inv.execPrecv {d : SReg} (h : s.Inv) : Outcome.Inv (execPrecv d s) := by
  simp only [Machine.execPrecv]
  refine .onlyOn (fun _ h => .scalar (fun _ h => .impureOnly (fun _ h => ?_) h) h) h
  split
  · exact .done (.retire (.withMyCtx h))
  · exact .wait h

theorem Outcome.Inv.fence {x : Level} {s : State} (h : s.Inv) : Outcome.Inv (fence x s) := by
  have hdone : ∀ s : State, s.Inv → (Machine.afterViq (fun s =>
      if s.copiesDone s.cur then .done (s.advance 4) else .wait false s) s).Inv := by
    refine fun s h => .afterViq (fun s h => ?_) h
    split
    · exact .done (.advance h)
    · exact .wait h
  refine .scalar (fun s h => ?_) h
  split
  · exact .afterWrites hdone h
  · exact hdone s h

theorem Outcome.Inv.execFenceEng (h : s.Inv) : Outcome.Inv (execFenceEng s) := by
  simp only [Machine.execFenceEng]
  refine .scalar (fun _ h => ?_) h
  split
  · exact .done (.advance h)
  · exact .wait h

theorem Outcome.Inv.execFenceSc (h : s.Inv) : Outcome.Inv (execFenceSc s) := by
  simp only [Machine.execFenceSc]
  refine .scalar (fun _ h => ?_) h
  split
  · split
    · exact .wait h
    · exact .done (.advance (.withMe h))
  · refine .afterWrites (fun _ h => .afterEntries (fun _ h => .afterViq (fun _ h => ?_) h) h) h
    split
    · exact .wait (.withMe h)
    · exact .wait h

theorem Outcome.Inv.execHbread {d : SReg} (h : s.Inv) : Outcome.Inv (execHbread d s) :=
  .scalar (fun _ h => .impureOnly (fun _ h => .done (.retire h)) h) h

theorem Outcome.Inv.execHbwait {a : SReg} (h : s.Inv) : Outcome.Inv (execHbwait a s) := by
  simp only [Machine.execHbwait]
  refine .scalar (fun _ h => .impureOnly (fun _ h => ?_) h) h
  split
  · exact .done (.advance h)
  · exact .wait h

theorem Outcome.Inv.execEret (h : s.Inv) : Outcome.Inv (execEret s) := by
  simp only [Machine.execEret]
  refine .scalar (fun _ h => ?_) h
  split
  · exact .afterViqEmpty (fun _ h => .done (.leaveHandler h)) h
  · exact .trap h

/-! The test access port. -/

theorem Outcome.Inv.execUnlock (h : s.Inv) : Outcome.Inv (execUnlock s) := by
  simp only [Machine.execUnlock]
  split
  · exact .next (.update h)
  · exact .next (.update h)

theorem Outcome.Inv.execReadout (h : s.Inv) : Outcome.Inv (execReadout s) := by
  simp only [Machine.execReadout]
  split
  · exact .next (.update h)
  · split
    · exact .next (.update h)
    · exact .next (.update h)

/-! The push of vector, matrix and sorus instructions into the queue. -/

theorem State.Inv.pushEntry {i : Instr} {ops : List Word} {writes : List SReg} (h : s.Inv) :
    (s.pushEntry i ops writes).Inv := h

theorem Outcome.Inv.issueV {i : Instr} {n : Nat} {reads writes : List SReg} {early late : State → Option Trap}
    (h : s.Inv) : Outcome.Inv (issueV i n reads writes early late s) := by
  simp only [Machine.issueV]
  split
  · exact .outcome (.trap h)
  · refine .onlyOn (fun _ h => .framed (fun _ h => ?_) h) h
    split
    · exact .trap h
    · split
      · exact .done (.drain (.advance (.pushEntry h)))
      · exact .wait h

theorem Outcome.Inv.execSbind {d : VReg} {a : SReg} (h : s.Inv) : Outcome.Inv (execSbind d a s) := by
  simp only [Machine.execSbind]
  split
  · exact .issueV h
  · exact .onlyOn (fun _ h => .scalar (fun _ h => .impureOnly (fun _ h => .bindStream (fun _ h => .done
      (.advance h)) h) h) h) h

theorem Outcome.Inv.execSfree {d : VReg} (h : s.Inv) : Outcome.Inv (execSfree d s) := by
  simp only [Machine.execSfree]
  split
  · exact .issueV h
  · exact .onlyOn (fun _ h => .scalar (fun _ h => .done (.advance (.withMyCtx h))) h) h

/-! The meaning of an instruction. -/

theorem Outcome.Inv.exec {i : Instr} (h : s.Inv) : Outcome.Inv (exec i s) := by
  cases i with
  | add d a b => exact show Outcome.Inv (execAdd d a b s) from .aluRR h
  | sub d a b => exact show Outcome.Inv (execSub d a b s) from .aluRR h
  | and d a b => exact show Outcome.Inv (execAnd d a b s) from .aluRR h
  | or d a b => exact show Outcome.Inv (execOr d a b s) from .aluRR h
  | xor d a b => exact show Outcome.Inv (execXor d a b s) from .aluRR h
  | sll d a b => exact show Outcome.Inv (execSll d a b s) from .aluRR h
  | srl d a b => exact show Outcome.Inv (execSrl d a b s) from .aluRR h
  | sra d a b => exact show Outcome.Inv (execSra d a b s) from .aluRR h
  | setlt d a b => exact show Outcome.Inv (execSetlt d a b s) from .aluRR h
  | setltu d a b => exact show Outcome.Inv (execSetltu d a b s) from .aluRR h
  | min d a b => exact show Outcome.Inv (execMin d a b s) from .aluRR h
  | max d a b => exact show Outcome.Inv (execMax d a b s) from .aluRR h
  | minu d a b => exact show Outcome.Inv (execMinu d a b s) from .aluRR h
  | maxu d a b => exact show Outcome.Inv (execMaxu d a b s) from .aluRR h
  | andn d a b => exact show Outcome.Inv (execAndn d a b s) from .aluRR h
  | orn d a b => exact show Outcome.Inv (execOrn d a b s) from .aluRR h
  | rol d a b => exact show Outcome.Inv (execRol d a b s) from .aluRR h
  | ror d a b => exact show Outcome.Inv (execRor d a b s) from .aluRR h
  | mul d a b => exact show Outcome.Inv (execMul d a b s) from .aluRR h
  | mulhiSs d a b => exact show Outcome.Inv (execMulhiSs d a b s) from .aluRR h
  | mulhiUu d a b => exact show Outcome.Inv (execMulhiUu d a b s) from .aluRR h
  | mulhiSu d a b => exact show Outcome.Inv (execMulhiSu d a b s) from .aluRR h
  | div d a b => exact show Outcome.Inv (execDiv d a b s) from .aluRR h
  | divu d a b => exact show Outcome.Inv (execDivu d a b s) from .aluRR h
  | rem d a b => exact show Outcome.Inv (execRem d a b s) from .aluRR h
  | remu d a b => exact show Outcome.Inv (execRemu d a b s) from .aluRR h
  | pmul d a b => exact show Outcome.Inv (execPmul d a b s) from .aluRR h
  | pmulhi d a b => exact show Outcome.Inv (execPmulhi d a b s) from .aluRR h
  | popc d a => exact show Outcome.Inv (execPopc d a s) from .aluR h
  | clz d a => exact show Outcome.Inv (execClz d a s) from .aluR h
  | ctz d a => exact show Outcome.Inv (execCtz d a s) from .aluR h
  | brev d a => exact show Outcome.Inv (execBrev d a s) from .aluR h
  | bswap d a => exact show Outcome.Inv (execBswap d a s) from .aluR h
  | addi d a imm => exact show Outcome.Inv (execAddi d a imm s) from .aluR h
  | andi d a imm => exact show Outcome.Inv (execAndi d a imm s) from .aluR h
  | ori d a imm => exact show Outcome.Inv (execOri d a imm s) from .aluR h
  | xori d a imm => exact show Outcome.Inv (execXori d a imm s) from .aluR h
  | setlti d a imm => exact show Outcome.Inv (execSetlti d a imm s) from .aluR h
  | setltiu d a imm => exact show Outcome.Inv (execSetltiu d a imm s) from .aluR h
  | slli d a sh => exact show Outcome.Inv (execSlli d a sh s) from .aluR h
  | srli d a sh => exact show Outcome.Inv (execSrli d a sh s) from .aluR h
  | srai d a sh => exact show Outcome.Inv (execSrai d a sh s) from .aluR h
  | rori d a sh => exact show Outcome.Inv (execRori d a sh s) from .aluR h
  | bext d a offset width =>
    exact show Outcome.Inv (execBext d a offset width s) from .scalar (fun _ h => .done (.retire h)) h
  | bexts d a offset width =>
    exact show Outcome.Inv (execBexts d a offset width s) from .scalar (fun _ h => .done (.retire h)) h
  | bins d a offset width =>
    exact show Outcome.Inv (execBins d a offset width s) from .scalar (fun _ h => .done (.retire h)) h
  | li d imm => exact show Outcome.Inv (execLi d imm s) from .literal h
  | li64 d imm => exact show Outcome.Inv (execLi64 d imm s) from .literal h
  | li96 d lo hi => exact show Outcome.Inv (execLi96 d lo hi s) from .literal h
  | la d imm => exact show Outcome.Inv (execLa d imm s) from .literal h
  | beq a b off => exact show Outcome.Inv (execBeq a b off s) from .branch h
  | bne a b off => exact show Outcome.Inv (execBne a b off s) from .branch h
  | blt a b off => exact show Outcome.Inv (execBlt a b off s) from .branch h
  | bge a b off => exact show Outcome.Inv (execBge a b off s) from .branch h
  | bltu a b off => exact show Outcome.Inv (execBltu a b off s) from .branch h
  | bgeu a b off => exact show Outcome.Inv (execBgeu a b off s) from .branch h
  | jal => exact .execJal h
  | jalr => exact .execJalr h
  | lb d a off => exact show Outcome.Inv (execLb d a off s) from .loadOp h
  | lh d a off => exact show Outcome.Inv (execLh d a off s) from .loadOp h
  | lw d a off => exact show Outcome.Inv (execLw d a off s) from .loadOp h
  | ld d a off => exact show Outcome.Inv (execLd d a off s) from .loadOp h
  | lbu d a off => exact show Outcome.Inv (execLbu d a off s) from .loadOp h
  | lhu d a off => exact show Outcome.Inv (execLhu d a off s) from .loadOp h
  | lwu d a off => exact show Outcome.Inv (execLwu d a off s) from .loadOp h
  | sb d a off => exact show Outcome.Inv (execSb d a off s) from .storeOp h
  | sh d a off => exact show Outcome.Inv (execSh d a off s) from .storeOp h
  | sw d a off => exact show Outcome.Inv (execSw d a off s) from .storeOp h
  | st d a off => exact show Outcome.Inv (execSt d a off s) from .storeOp h
  | stLocal d a off => exact show Outcome.Inv (execStLocal d a off s) from .storeOp h
  | lbL d a off => exact show Outcome.Inv (execLbL d a off s) from .loadOp h
  | lhL d a off => exact show Outcome.Inv (execLhL d a off s) from .loadOp h
  | lwL d a off => exact show Outcome.Inv (execLwL d a off s) from .loadOp h
  | ldL d a off => exact show Outcome.Inv (execLdL d a off s) from .loadOp h
  | lbuL d a off => exact show Outcome.Inv (execLbuL d a off s) from .loadOp h
  | lhuL d a off => exact show Outcome.Inv (execLhuL d a off s) from .loadOp h
  | lwuL d a off => exact show Outcome.Inv (execLwuL d a off s) from .loadOp h
  | sbL d a off => exact show Outcome.Inv (execSbL d a off s) from .storeOp h
  | shL d a off => exact show Outcome.Inv (execShL d a off s) from .storeOp h
  | swL d a off => exact show Outcome.Inv (execSwL d a off s) from .storeOp h
  | stL d a off => exact show Outcome.Inv (execStL d a off s) from .storeOp h
  | stLocalL d a off => exact show Outcome.Inv (execStLocalL d a off s) from .storeOp h
  | atomSwap ord d a b => exact show Outcome.Inv (execAtomSwap ord d a b s) from .amo h
  | atomAdd ord d a b => exact show Outcome.Inv (execAtomAdd ord d a b s) from .amo h
  | atomAnd ord d a b => exact show Outcome.Inv (execAtomAnd ord d a b s) from .amo h
  | atomOr ord d a b => exact show Outcome.Inv (execAtomOr ord d a b s) from .amo h
  | atomXor ord d a b => exact show Outcome.Inv (execAtomXor ord d a b s) from .amo h
  | atomMin ord d a b => exact show Outcome.Inv (execAtomMin ord d a b s) from .amo h
  | atomMax ord d a b => exact show Outcome.Inv (execAtomMax ord d a b s) from .amo h
  | atomMinu ord d a b => exact show Outcome.Inv (execAtomMinu ord d a b s) from .amo h
  | atomMaxu ord d a b => exact show Outcome.Inv (execAtomMaxu ord d a b s) from .amo h
  | atomCas => exact .execAtomCas h
  | ldAcq => exact .execLdAcq h
  | stRel => exact .execStRel h
  | waitv => exact .execWaitv h
  | psend => exact .execPsend h
  | precv => exact .execPrecv h
  | hbread => exact .execHbread h
  | hbwait => exact .execHbwait h
  | csrr => exact .execCsrr h
  | csrw csr a => exact show Outcome.Inv (execCsrw csr a s) from .csrWrite h
  | csrs csr a => exact show Outcome.Inv (execCsrs csr a s) from .csrWrite h
  | csrc csr a => exact show Outcome.Inv (execCsrc csr a s) from .csrWrite h
  | turn => exact .execTurn h
  | twait => exact .execTwait h
  | cpyin => exact .execCpyin h
  | cpyout => exact .execCpyout h
  | cpyreg => exact .execCpyreg h
  | cpyfold => exact .execCpyfold h
  | scpy => exact .execScpy h
  | exportPage => exact .execExportPage h
  | tcpyIn => exact .execTcpyIn h
  | tcpyOut => exact .execTcpyOut h
  | sbind => exact .execSbind h
  | sfree => exact .execSfree h
  | tspawn => exact .execTspawn h
  | tdep => exact .execTdep h
  | tdec => exact .execTdec h
  | sfarm => exact .execSfarm h
  | snext => exact .execSnext h
  | launch => exact .execLaunch h
  | tsusp => exact .execTsusp h
  | qcreate => exact .execQcreate h
  | qpush => exact .execQpush h
  | qpop => exact .execQpop h
  | qinfo => exact .execQinfo h
  | qclose => exact .execQclose h
  | barinit => exact .execBarinit h
  | bararr => exact .execBararr h
  | bartx => exact .execBartx h
  | barwait => exact .execBarwait h
  | bartest => exact .execBartest h
  | coll => exact .execColl h
  | cdreg => exact .execCdreg h
  | ruquery => exact .execRuquery h
  | ruinval => exact .execRuinval h
  | rustat => exact .execRustat h
  | ruflush => exact .execRuflush h
  | chsend c a => exact show Outcome.Inv (execChsend c a s) from .issueV h
  | chsendS => exact .execChsendS h
  | chrecv d c => exact show Outcome.Inv (execChrecv d c s) from .issueV h
  | chrecvS => exact .execChrecvS h
  | vadd xs k d a b => exact show Outcome.Inv (execVadd xs k d a b s) from .issueV h
  | vsub xs k d a b => exact show Outcome.Inv (execVsub xs k d a b s) from .issueV h
  | vmul xs k d a b => exact show Outcome.Inv (execVmul xs k d a b s) from .issueV h
  | vdiv xs k d a b => exact show Outcome.Inv (execVdiv xs k d a b s) from .issueV h
  | vmin xs k d a b => exact show Outcome.Inv (execVmin xs k d a b s) from .issueV h
  | vmax xs k d a b => exact show Outcome.Inv (execVmax xs k d a b s) from .issueV h
  | vand xs k d a b => exact show Outcome.Inv (execVand xs k d a b s) from .issueV h
  | vor xs k d a b => exact show Outcome.Inv (execVor xs k d a b s) from .issueV h
  | vxor xs k d a b => exact show Outcome.Inv (execVxor xs k d a b s) from .issueV h
  | vsll xs k d a b => exact show Outcome.Inv (execVsll xs k d a b s) from .issueV h
  | vsrl xs k d a b => exact show Outcome.Inv (execVsrl xs k d a b s) from .issueV h
  | vsra xs k d a b => exact show Outcome.Inv (execVsra xs k d a b s) from .issueV h
  | vfma xs k d a b => exact show Outcome.Inv (execVfma xs k d a b s) from .issueV h
  | vfms xs k d a b => exact show Outcome.Inv (execVfms xs k d a b s) from .issueV h
  | vabs k d a => exact show Outcome.Inv (execVabs k d a s) from .issueV h
  | vneg k d a => exact show Outcome.Inv (execVneg k d a s) from .issueV h
  | vsqrt k d a => exact show Outcome.Inv (execVsqrt k d a s) from .issueV h
  | vrcp k d a => exact show Outcome.Inv (execVrcp k d a s) from .issueV h
  | vrsq k d a => exact show Outcome.Inv (execVrsq k d a s) from .issueV h
  | vexp2 k d a => exact show Outcome.Inv (execVexp2 k d a s) from .issueV h
  | vlog2 k d a => exact show Outcome.Inv (execVlog2 k d a s) from .issueV h
  | vtanh k d a => exact show Outcome.Inv (execVtanh k d a s) from .issueV h
  | vsigm k d a => exact show Outcome.Inv (execVsigm k d a s) from .issueV h
  | vmov k d a => exact show Outcome.Inv (execVmov k d a s) from .issueV h
  | vceq xs k d a b => exact show Outcome.Inv (execVceq xs k d a b s) from .issueV h
  | vcne xs k d a b => exact show Outcome.Inv (execVcne xs k d a b s) from .issueV h
  | vclt xs k d a b => exact show Outcome.Inv (execVclt xs k d a b s) from .issueV h
  | vcle xs k d a b => exact show Outcome.Inv (execVcle xs k d a b s) from .issueV h
  | vcgt xs k d a b => exact show Outcome.Inv (execVcgt xs k d a b s) from .issueV h
  | vcge xs k d a b => exact show Outcome.Inv (execVcge xs k d a b s) from .issueV h
  | mand d a b => exact show Outcome.Inv (execMand d a b s) from .issueV h
  | mor d a b => exact show Outcome.Inv (execMor d a b s) from .issueV h
  | mxor d a b => exact show Outcome.Inv (execMxor d a b s) from .issueV h
  | mnot d a => exact show Outcome.Inv (execMnot d a s) from .issueV h
  | vmerge xs k d a b => exact show Outcome.Inv (execVmerge xs k d a b s) from .issueV h
  | vcvt k d a => exact show Outcome.Inv (execVcvt k d a s) from .issueV h
  | vqnt k d a => exact show Outcome.Inv (execVqnt k d a s) from .issueV h
  | vhad d a b => exact show Outcome.Inv (execVhad d a b s) from .issueV h
  | vtag sc blk bank type d => exact show Outcome.Inv (execVtag sc blk bank type d s) from .issueV h
  | vconf wid sat rm grp d a => exact show Outcome.Inv (execVconf wid sat rm grp d a s) from .vconfOp h
  | vconfR d a b => exact show Outcome.Inv (execVconfR d a b s) from .vconfOp h
  | vld k d a => exact show Outcome.Inv (execVld k d a s) from .issueV h
  | vst k d a => exact show Outcome.Inv (execVst k d a s) from .issueV h
  | vlds k d a b => exact show Outcome.Inv (execVlds k d a b s) from .issueV h
  | vsts k d a b => exact show Outcome.Inv (execVsts k d a b s) from .issueV h
  | vldx k d a b => exact show Outcome.Inv (execVldx k d a b s) from .issueV h
  | vldff k d a => exact show Outcome.Inv (execVldff k d a s) from .issueV h
  | vscadd k d a b => exact show Outcome.Inv (execVscadd k d a b s) from .issueV h
  | vspill d a => exact show Outcome.Inv (execVspill d a s) from .issueV h
  | vreload d a => exact show Outcome.Inv (execVreload d a s) from .issueV h
  | vlenq d => exact show Outcome.Inv (execVlenq d s) from .issueV h
  | scld d a b => exact show Outcome.Inv (execScld d a b s) from .issueV h
  | vslideup k d a b => exact show Outcome.Inv (execVslideup k d a b s) from .issueV h
  | vslidedn k d a b => exact show Outcome.Inv (execVslidedn k d a b s) from .issueV h
  | vshuf xs k d a b => exact show Outcome.Inv (execVshuf xs k d a b s) from .issueV h
  | vcompress k d a => exact show Outcome.Inv (execVcompress k d a s) from .issueV h
  | vsplat k d a => exact show Outcome.Inv (execVsplat k d a s) from .issueV h
  | vins d a b => exact show Outcome.Inv (execVins d a b s) from .issueV h
  | vext d a b => exact show Outcome.Inv (execVext d a b s) from .issueV h
  | vredSum k d a => exact show Outcome.Inv (execVredSum k d a s) from .issueV h
  | vredMin k d a => exact show Outcome.Inv (execVredMin k d a s) from .issueV h
  | vredMax k d a => exact show Outcome.Inv (execVredMax k d a s) from .issueV h
  | vredAnd k d a => exact show Outcome.Inv (execVredAnd k d a s) from .issueV h
  | vredOr k d a => exact show Outcome.Inv (execVredOr k d a s) from .issueV h
  | vredXor k d a => exact show Outcome.Inv (execVredXor k d a s) from .issueV h
  | vredMini k d a => exact show Outcome.Inv (execVredMini k d a s) from .issueV h
  | vredMaxi k d a => exact show Outcome.Inv (execVredMaxi k d a s) from .issueV h
  | vscanAdd k d a cin cout => exact show Outcome.Inv (execVscanAdd k d a cin cout s) from .issueV h
  | vscanMax k d a cin cout => exact show Outcome.Inv (execVscanMax k d a cin cout s) from .issueV h
  | vscanMin k d a cin cout => exact show Outcome.Inv (execVscanMin k d a cin cout s) from .issueV h
  | vscanLin k d a b cin cout => exact show Outcome.Inv (execVscanLin k d a b cin cout s) from .issueV h
  | mop k d a b cmask => exact show Outcome.Inv (execMop k d a b cmask s) from .issueV h
  | mzero d => exact show Outcome.Inv (execMzero d s) from .issueV h
  | mrow k d a row => exact show Outcome.Inv (execMrow k d a row s) from .issueV h
  | mcol k d a row => exact show Outcome.Inv (execMcol k d a row s) from .issueV h
  | mwrow d a row => exact show Outcome.Inv (execMwrow d a row s) from .issueV h
  | dadd d a b => exact show Outcome.Inv (execDadd d a b s) from .issueV h
  | dsub d a b => exact show Outcome.Inv (execDsub d a b s) from .issueV h
  | dmul d a b => exact show Outcome.Inv (execDmul d a b s) from .issueV h
  | dmin d a b => exact show Outcome.Inv (execDmin d a b s) from .issueV h
  | dmax d a b => exact show Outcome.Inv (execDmax d a b s) from .issueV h
  | dfma d a b => exact show Outcome.Inv (execDfma d a b s) from .issueV h
  | daff xs d a b => exact show Outcome.Inv (execDaff xs d a b s) from .issueV h
  | dpt d a => exact show Outcome.Inv (execDpt d a s) from .issueV h
  | dset d a b => exact show Outcome.Inv (execDset d a b s) from .issueV h
  | dget d a b => exact show Outcome.Inv (execDget d a b s) from .issueV h
  | dtag d a => exact show Outcome.Inv (execDtag d a s) from .issueV h
  | dmom d a b => exact show Outcome.Inv (execDmom d a b s) from .issueV h
  | dqnt d a b => exact show Outcome.Inv (execDqnt d a b s) from .issueV h
  | dcdf d a b => exact show Outcome.Inv (execDcdf d a b s) from .issueV h
  | dld d a => exact show Outcome.Inv (execDld d a s) from .issueV h
  | dst d a => exact show Outcome.Inv (execDst d a s) from .issueV h
  | fmtset nf a => exact show Outcome.Inv (execFmtset nf a s) from .issueV h
  | hint n => exact show Outcome.Inv (execHint n s) from .next (.advance h)
  | hint64 n p1 => exact show Outcome.Inv (execHint64 n p1 s) from .next (.advance h)
  | hint96 n p1 p2 => exact show Outcome.Inv (execHint96 n p1 p2 s) from .next (.advance h)
  | hint160 n p1 p2 p3 p4 => exact show Outcome.Inv (execHint160 n p1 p2 p3 p4 s) from .next (.advance h)
  | fenceCore => exact show Outcome.Inv (execFenceCore s) from .fence h
  | fenceQuad => exact show Outcome.Inv (execFenceQuad s) from .fence h
  | fenceDie => exact show Outcome.Inv (execFenceDie s) from .fence h
  | fenceDev => exact show Outcome.Inv (execFenceDev s) from .fence h
  | fenceFab => exact show Outcome.Inv (execFenceFab s) from .fence h
  | fenceEng => exact .execFenceEng h
  | fenceSc => exact .execFenceSc h
  | ecall => exact show Outcome.Inv (execEcall s) from .scalar (fun _ h => .trap h) h
  | ebreak => exact show Outcome.Inv (execEbreak s) from .scalar (fun _ h => .trap h) h
  | eret => exact .execEret h
  | tdone => exact .execTdone h
  | maxlenWrite => exact .execMaxlenWrite h
  | copyStart => exact .execCopyStart h
  | copyAtom => exact .execCopyAtom h
  | scpyStamp => exact .execScpyStamp h
  | tokenWrite => exact .execTokenWrite h
  | streamRefill => exact .execStreamRefill h
  | gatherServe => exact .execGatherServe h
  | scatterUpdate => exact .execScatterUpdate h
  | dispatch => exact .execDispatch h
  | queueRefill => exact .execQueueRefill h
  | collectiveRun => exact .execCollectiveRun h
  | hitCopyDone => exact .execHitCopyDone h
  | insertionDone => exact .execInsertionDone h
  | messageArrival => exact show Outcome.Inv (execMessageArrival s) from .next (.modKernel h)
  | trapRecordWrite => exact .execTrapRecordWrite h
  | engerrAsync => exact .execEngerrAsync h
  | replyResume => exact .execReplyResume h
  | replyResumeAt => exact .execReplyResumeAt h
  | replyReturn => exact .execReplyReturn h
  | replyDeliver => exact .execReplyDeliver h
  | replyKill => exact .execReplyKill h
  | replySkip => exact .execReplySkip h
  | slotSwap => exact .execSlotSwap h
  | fairShareExpiry => exact .execFairShareExpiry h
  | contextSave => exact .execContextSave h
  | saveDone => exact .execSaveDone h
  | contextRestore => exact .execContextRestore h
  | restoreDone => exact .execRestoreDone h
  | preemption => exact .execPreemption h
  | doorbell => exact .execDoorbell h
  | kqEntryTake => exact .execKqEntryTake h
  | placement => exact .execPlacement h
  | agingStep => exact .execAgingStep h
  | launchTick => exact .execLaunchTick h
  | timedStartSwap => exact .execTimedStartSwap h
  | kernelRetire => exact .execKernelRetire h
  | watchdog => exact .execWatchdog h
  | heartbeatTick => exact .execHeartbeatTick h
  | pageWalkDone => exact .execPageWalkDone h
  | xinvPage => exact show Outcome.Inv (execXinvPage s) from .xinvEvent (fun _ _ => .xinv h) h
  | xinvTenant => exact show Outcome.Inv (execXinvTenant s) from .xinvEvent (fun _ _ => .xinv h) h
  | xinvAll => exact show Outcome.Inv (execXinvAll s) from .xinvEvent (fun _ _ => .xinv h) h
  | migcmdGo => exact .execMigcmdGo h
  | hotWindowEnd => exact .execHotWindowEnd h
  | migrationSwitch => exact .execMigrationSwitch h
  | ruquotaWrite => exact .execRuquotaWrite h
  | rupoolWrite => exact .execRupoolWrite h
  | hostMemRead => exact .execHostMemRead h
  | hostMemWrite => exact .execHostMemWrite h
  | hostRegWrite => exact .execHostRegWrite h
  | alarmpolWrite => exact .execAlarmpolWrite h
  | fwGo => exact show Outcome.Inv (execFwGo s) from .overCxl h (.update h)
  | fwVerifyDone => exact .execFwVerifyDone h
  | tkeyWrite => exact .execTkeyWrite h
  | tkctlLoad => exact .execTkctlLoad h
  | tkctlErase => exact .execTkctlErase h
  | tresetGo => exact .execTresetGo h
  | functionLevelReset => exact .execFunctionLevelReset h
  | securityAlarm => exact .execSecurityAlarm h
  | coldReset => exact .execColdReset h
  | warmReset => exact show Outcome.Inv (execWarmReset s) from .next (.warmReset h)
  | hbmReady => exact show Outcome.Inv (execHbmReady s) from .next (.update h)
  | freeze => exact show Outcome.Inv (execFreeze s) from .next (.update h)
  | idcode => exact show Outcome.Inv (execIdcode s) from .next (.update h)
  | bypass => exact show Outcome.Inv (execBypass s) from .next (.update h)
  | unlock => exact .execUnlock h
  | readout => exact .execReadout h
  | patrolScrub => exact .execPatrolScrub h
  | halfWidth => exact .execHalfWidth h
  | fullWidth => exact .execFullWidth h
  | powerGate => exact show Outcome.Inv (execPowerGate s) from .next (.update h)
  | trainingDone => exact .execTrainingDone h
  | trainingFail => exact .execTrainingFail h
  | flitReceive => exact .execFlitReceive h
  | nakReceive => exact .execNakReceive h
  | ackReceive => exact .execAckReceive h
  | nakRepeat => exact .execNakRepeat h
  | nakTimeout => exact .execNakTimeout h
  | packetDeliver => exact .execPacketDeliver h
  | routerSleep => exact .execRouterSleep h
  | wake => exact .execWake h
  | deadlockProbeSend => exact .execDeadlockProbeSend h
  | probeReceive => exact .execProbeReceive h
  | deadlockStep => exact .execDeadlockStep h
  | probeRetry => exact .execProbeRetry h
  | twaitTimeout => exact .execTwaitTimeout h
  | cxlCacheSnoop => exact show Outcome.Inv (execCxlCacheSnoop s) from .next (.fold (fun _ _ h => .writePiece' h) h)

/-! Instruction fetch. -/

theorem State.Inv.firstCome (h : s.Inv) : s.firstCome.Inv := h

theorem State.Inv.hartIssues (h : s.Inv) : s.hartIssues.Inv := h

theorem State.Inv.nowRunning {s0 : State} (h0 : s0.Inv) : (s0.nowRunning).Inv := by
  simp only [State.nowRunning]
  split
  · split
    · exact .withKernel (.hartIssues (.withMe h0))
    · exact .hartIssues (.withMe h0)
  · exact .hartIssues (.withMe h0)

/-! What a step is made of. -/

theorem State.Inv.yieldBack {pc : Word} (h : s.Inv) : (yieldBack pc s).Inv := by
  simp only [Machine.yieldBack]
  split
  · exact .update h
  · exact h

theorem State.Inv.notLeft {pc : Word} {ws : Table Window} (h : s.Inv) : (notLeft pc ws s).Inv := by
  simp only [Machine.notLeft]
  split
  · exact .update h
  · exact h

theorem Outcome.Inv.afterExec {pc : Word} {ws : Table Window} {o : Host.Outcome State Fault Refusal}
    (h : Outcome.Inv o) : Outcome.Inv (afterExec pc ws o) := by
  cases h with
  | next h => exact .next (.yieldBack (.notLeft h))
  | fault => exact .fault
  | refused => exact .refused

theorem Outcome.Inv.runInstr (h : s.Inv) : Outcome.Inv s.runInstr := by
  simp only [State.runInstr]
  split
  · exact .afterExec (.exec (.update (.nowRunning h)))
  · refine .outcome (.trap ?_)
    split
    · exact .firstCome h
    · exact .hartIssues h
  · exact .outcome (.wait (.firstCome h))

theorem Outcome.Inv.turn (h : s.Inv) : Outcome.Inv s.turn := by
  simp only [State.turn]
  split
  · exact .next (.viqMove h)
  · split
    · exact .next (.goOnStore h)
    · exact .runInstr h

theorem Outcome.Inv.event {i : Instr} {a : EventArg} (h : s.Inv) : Outcome.Inv (s.event i a) :=
  .exec (.update h)

theorem Outcome.Inv.hartMove {r : HartRef} (h : s.Inv) : Outcome.Inv (s.hartMove r) := by
  simp only [State.hartMove]
  split
  · exact .turn (.update h)
  · split
    · exact .next (.viqMove h)
    · exact .next h

theorem Outcome.Inv.thenDo {f : State → Host.Outcome State Fault Refusal} {o : Host.Outcome State Fault Refusal}
    (hf : ∀ s, s.Inv → Outcome.Inv (f s)) (h : Outcome.Inv o) : Outcome.Inv (thenDo f o) := by
  cases h with
  | next h => exact hf _ (.update h)
  | fault => exact .fault
  | refused => exact .refused

theorem Outcome.Inv.hartThen {r : HartRef} {x : Nat} {f : State → Host.Outcome State Fault Refusal}
    (h : s.Inv) (hf : ∀ s, s.Inv → Outcome.Inv (f s)) : Outcome.Inv (s.hartThen r x f) := by
  refine .thenDo hf (.hartMove ?_)
  split
  · exact .update h
  · exact h

theorem Outcome.Inv.endBytes {o : Host.Outcome State Fault Refusal} (h : Outcome.Inv o) : Outcome.Inv (endBytes o) := by
  cases h with
  | next h => exact .next (.update h)
  | fault => exact .fault
  | refused => exact .refused

theorem State.Inv.flipped {h : Nat} {lasting : Bool} (hs : s.Inv) : (s.flipped h lasting).Inv := by
  simp only [State.flipped]
  split
  · exact hs
  · split
    · exact .update hs
    · split
      · exact hs
      · exact .update hs

theorem Outcome.Inv.makeMove {m : Move} {rest : List Move} (h : s.Inv) : Outcome.Inv (s.makeMove m rest) := by
  simp only [State.makeMove]
  split
  · exact .event (.update h)
  · exact .hartMove (.update h)
  · exact .endBytes (.hartMove (.update (.update h)))
  · exact .hartThen (.update h) (fun _ h => .event h)
  · exact .hartThen (.update h) (fun _ h => .hartMove h)
  · exact .next (.flipped (.update h))

theorem State.Inv.otherMove {s t : State} {i : Option Instr} (h : s.Inv) (ht : s.otherMove = some (i, t)) : t.Inv := by
  simp only [State.otherMove] at ht
  split at ht
  next s1 heq =>
    cases ht
    obtain ⟨e, -, he⟩ := List.exists_of_findSome?_eq_some heq
    split at he <;> cases he
    exact .viqMove h
  next =>
    obtain ⟨e, -, he⟩ := List.exists_of_findSome?_eq_some ht
    split at he
    next s1 hs1 =>
      split at he <;> cases he
      exact (Outcome.Inv.event h).get hs1
    next => cases he

theorem State.Inv.rotate (h : s.Inv) : s.rotate.Inv := by
  simp only [State.rotate]
  split
  · exact .update h
  · exact h

theorem State.Inv.tick (h : s.Inv) : s.tick.Inv := by
  simp only [State.tick]
  split
  next s1 heq =>
    exact ((Outcome.Inv.execHeartbeatTick h).get heq)
  · exact h

theorem State.Inv.arbiter (h : s.Inv) : s.arbiter.Inv := by
  unfold State.arbiter
  extract_lets s0 s1
  have h0 : s0.Inv := .update h
  have h1 : s1.Inv := by
    simp only [s1]
    split
    next t heq => exact .tick (.otherMove h0 heq)
    next t _ heq => exact .otherMove h0 heq
    · split
      · exact h0
      · exact .tick h0
  split
  · exact h1
  · exact .rotate h1

theorem Outcome.Inv.nextMove (h : s.Inv) : Outcome.Inv s.nextMove := by
  simp only [State.nextMove]
  split
  · exact .makeMove h
  · split
    · exact .next (.arbiter h)
    · exact .turn h

theorem Outcome.Inv.corrected {f : State → Host.Outcome State Fault Refusal}
    (h : s.Inv) (hf : ∀ s, s.Inv → Outcome.Inv (f s)) : Outcome.Inv (s.corrected f) := by
  simp only [State.corrected]
  split
  next t heq => exact .next (.fold (fun _ _ h => .logCorrected h) ((hf s h).get heq))
  · exact .fault
  · exact .refused

/-! The step of the device. -/

theorem Outcome.Inv.step (h : s.Inv) : Outcome.Inv (step s) := by
  simp only [Machine.step]
  split
  · exact .fault
  · exact .corrected h (fun _ h => .nextMove h)

end steps

end Sys2Proof.Machine

namespace Sys2Proof

open Machine

/-- Settles O4: each operation that a step is made of keeps the canonical form of both memories, so the step does. -/
theorem stepKeepsMemories : Obligations.StepKeepsMemories := by
  unfold Obligations.StepKeepsMemories
  exact fun s t h ht => (Outcome.Inv.step h).get ht

end Sys2Proof
end

section

namespace Sys2Proof.Machine

section host

variable {s : State}

/-! Writes of the host arrive over CXL alone. -/

theorem overCxl_down (h : s.cxlDown = true) {u : State} : overCxl s u = .next s := by simp [overCxl, h]

theorem overCxl_up (h : s.cxlDown = false) {u : State} : overCxl s u = .next u := by simp [overCxl, h]

/-! Reads of memory within one granule, one equation for each branch of `State.hostReadPiece`. -/

variable {pa n : Nat}

theorem State.hostReadPiece_unpopulated (hp : populated pa n = false) : s.hostReadPiece pa n = (allOnes n, s) := by
  simp [State.hostReadPiece, hp]

theorem State.hostReadPiece_unrouted (hp : populated pa n = true) (hr : s.hostRoute pa = false) :
    s.hostReadPiece pa n = (allOnes n, s.logUncorr 0 0 pa) := by
  simp [State.hostReadPiece, State.hostReadError, hp, hr]

theorem State.hostReadPiece_clean (hp : populated pa n = true) (hr : s.hostRoute pa = true) (ht : s.hostTurn pa = none)
    (he : s.ecc.find? (fun h => decide (pa / 32 ≤ h ∧ h ≤ (pa + n - 1) / 32)) = none) :
    s.hostReadPiece pa n = (s.memBytes pa n, s) := by
  simp only [State.hostReadPiece, hp, hr, ht, he, Bool.not_true, Bool.false_eq_true, if_false]

theorem State.hostReadPiece_turned (hp : populated pa n = true) (hr : s.hostRoute pa = true) {g : Gran}
    (ht : s.hostTurn pa = some g) : s.hostReadPiece pa n =
      (allOnes n, (s.noteFrame pa).logEvent .hostturn g.tenant g.writer g.level (BitVec.ofNat 64 pa) 0) := by
  simp [State.hostReadPiece, hp, hr, ht]

/-- A host read of one granule shows the host what the piece answers. -/
theorem execHostMemRead_piece (hready : s.dev.ready = true) (hc : s.cxlDown = false) (hf : s.evArg.f = false)
    {q : Nat × Nat} (hq : granPieces s.evArg.a s.evArg.b = [q]) {bs : List Byte} {u : State}
    (hx : s.hostReadPiece q.1 q.2 = (bs, u)) :
    execHostMemRead s = .next { u with hostSeen := { bytes := bs, error := false } } := by
  simp [execHostMemRead, hready, hc, hf, hq, hx]

/-- A host write that no migration holds writes its pieces in order. -/
theorem execHostMemWrite_pieces (hready : s.dev.ready = true) (hc : s.cxlDown = false)
    (hm : (granPieces s.evArg.a s.evArg.bytes.length).any (fun q => s.migrating .stream q.1) = false) :
    execHostMemWrite s = .next ((granPieces s.evArg.a s.evArg.bytes.length).foldl
      (fun t q => t.hostWritePiece q.1 ((s.evArg.bytes.drop (q.1 - s.evArg.a)).take q.2)) s) := by
  simp only [execHostMemWrite, hready, hc, hm, Bool.not_true, Bool.false_eq_true, if_false]

/-- The detail word of ECCUNCORR is free (notes/assumptions/91). -/
theorem State.logUncorr_eq (s : State) (tenant core pa : Nat) : s.logUncorr tenant core pa =
    ({ s with freeCtr := s.freeCtr + 1 } : State).logEvent .eccuncorr tenant core .none (BitVec.ofNat 64 pa)
      (Config.freeWord s.freeCtr) := by
  simp only [State.logUncorr, State.freeWord]

/-! What a write of the host to a granule does. -/

theorem State.hostWritePiece_routed {bs : List Byte} (hr : s.hostRoute pa = true) :
    s.hostWritePiece pa bs = s.cleanWrite pa bs := by
  simp [State.hostWritePiece, hr]

theorem State.hostWritePiece_unrouted {bs : List Byte} (hr : s.hostRoute pa = false) : s.hostWritePiece pa bs =
    s.logEvent .lostwrite 0 0 .none (BitVec.ofNat 64 pa) (BitVec.ofNat 64 bs.length) := by
  simp [State.hostWritePiece, State.lostWrite, hr]

/-- An entry taken out of a table is gone. -/
theorem tget_tdel_same {α : Type} (t : Table α) (i : Nat) : tget (tdel t i) i = none := by
  induction t with
  | nil => rfl
  | cons e r ih =>
    obtain ⟨k, v⟩ := e
    by_cases hk : k = i
    · simpa [tdel, hk] using ih
    · have hi : ¬ i = k := fun h => hk h.symm
      simpa [tdel, tget, hk, hi] using ih

/-- Counting drops changes neither the granules nor the reuse table. -/
theorem State.countDrops_gran_reuse (l : List Nat) (s : State) :
    (s.countDrops l).gran = s.gran ∧ (s.countDrops l).reuse = s.reuse := by
  induction l generalizing s with
  | nil => exact ⟨rfl, rfl⟩
  | cons t r ih => exact ih _

/-- A write of the host to device memory arrives CLEAN: the granule has no state any more. -/
theorem State.gran_writePiece_host (s : State) (pa : Nat) (bs : List Byte) :
    (s.writePiece .stream pa bs 0 .host 0).gran = tdel s.gran (pa / 64) := by
  simp [State.writePiece, State.checkWatches, State.countDrops_gran_reuse, PageKind.governed, granKey]

theorem State.gran_cleanPiece {bs : List Byte} (hc : s.compFrame pa = false) :
    tget (s.cleanPiece pa bs).gran (pa / 64) = none := by
  have hgone := tget_tdel_same s.gran (pa / 64)
  simp only [State.cleanPiece, hc, Bool.false_eq_true, if_false]
  split
  · simpa only [State.gran_writePiece_host] using hgone
  · simpa only [State.gran_writePiece_host] using hgone

/-! Until READY the host's requests of memory are held, and a write that a warm reset met ends in an error. -/

theorem execHostMemWrite_held (hready : s.dev.ready = false) (hf : s.evArg.f = false) :
    execHostMemWrite s = .next s := by
  simp [execHostMemWrite, hready, hf]

theorem execHostMemRead_held (hready : s.dev.ready = false) (hf : s.evArg.f = false) :
    execHostMemRead s = .next s := by
  simp [execHostMemRead, hready, hf]

theorem execHostMemWrite_error (hready : s.dev.ready = false) (hf : s.evArg.f = true) (hl : s.dev.lastRst ≠ 0)
    (hc : s.cxlDown = false) :
    execHostMemWrite s = .next { s with hostSeen := { bytes := [], error := true } } := by
  simp only [execHostMemWrite, hready, hf, hl, hc, Bool.not_false, Bool.false_eq_true, ne_eq, not_false_eq_true,
    and_self, if_false, if_true]

theorem execHostMemRead_register (hc : s.cxlDown = false) (hf : s.evArg.f = true) : execHostMemRead s =
    .next { s with hostSeen := { bytes := bytesOfWord 8 (s.hostReg s.evArg.a s.evArg.b), error := false } } := by
  simp [execHostMemRead, hc, hf]

/-! Reads of registers. -/

/-- The fields of DEVSTAT (20_system R445). -/
theorem devstat_fields : ∀ (alarm ready : Bool) (lastRst : BitVec 2),
    let x : Word := BitVec.ofNat 64 ((if alarm then 8 else 0) + (if ready then 4 else 0) + lastRst.toNat)
    bit x 3 = alarm ∧ bit x 2 = ready ∧ bits x 0 2 = lastRst.toNat ∧ bits x 4 60 = 0 := by decide

/-- The fields of ALARMPOL (20_system R445). -/
theorem alarmpol_fields : ∀ lock policy : Bool,
    let x : Word := BitVec.ofNat 64 ((if lock then 256 else 0) + (if policy then 1 else 0))
    bit x 8 = lock ∧ bit x 0 = policy := by decide

/-- The fields of TKCTL that are read (20_system R446). -/
theorem tkctl_fields : ∀ badload present : Bool,
    let x : Word := BitVec.ofNat 64 ((if badload then 512 else 0) + (if present then 256 else 0))
    bit x 9 = badload ∧ bit x 8 = present ∧ bits x 0 8 = 0 := by decide

/-- Where the offsets of the device block lie among the registers. -/
theorem deviceBlock_bounds {off : Nat} (h8 : off % 8 = 0) (hoff : off < 0x48) :
    (0x3000 + off) % 8 = 0 ∧ ¬ (0x1000 ≤ 0x3000 + off ∧ 0x3000 + off < 0x1080) ∧
      ¬ (0x2000 ≤ 0x3000 + off ∧ 0x3000 + off < 0x2100) ∧ (0x3000 ≤ 0x3000 + off ∧ 0x3000 + off < 0x3048) := by omega

/-- Where the offsets of a tenant's block lie among the registers, and which tenant and register they name. -/
theorem tenantBlock_bounds {t off : Nat} (ht : t < 128) (h8 : off % 8 = 0) (hoff : off < 0x40) :
    let at_ := 0x4000 + 0x40 * t + off
    at_ % 8 = 0 ∧ ¬ (0x1000 ≤ at_ ∧ at_ < 0x1080) ∧ ¬ (0x2000 ≤ at_ ∧ at_ < 0x2100) ∧
      ¬ (0x3000 ≤ at_ ∧ at_ < 0x3048) ∧ (0x4000 ≤ at_ ∧ at_ < 0x6000) ∧ (at_ - 0x4000) / 0x40 = t ∧
      at_ % 0x40 = off := by omega

theorem State.hostReg_device {off : Nat} (h8 : off % 8 = 0) (hoff : off < 0x48) :
    s.hostReg 128 (0x3000 + off) = s.dev.read off := by
  obtain ⟨halign, hqueue, hlink, hdev⟩ := deviceBlock_bounds h8 hoff
  simp only [State.hostReg, halign, hqueue, hlink, hdev, Nat.add_sub_cancel_left]
  simp

theorem State.hostReg_tenant {t off : Nat} (ht : t < 128) (h8 : off % 8 = 0) (hoff : off < 0x40) :
    s.hostReg 128 (0x4000 + 0x40 * t + off) = (s.tenant t).read off := by
  obtain ⟨halign, hqueue, hlink, hdev, hten, hno, hreg⟩ := tenantBlock_bounds ht h8 hoff
  simp only [State.hostReg, halign, hqueue, hlink, hdev, hten, hno, hreg]
  simp

theorem State.hostReg_virtual {f off : Nat} (hf : f < 128) (hoff : 0x1080 ≤ off) : s.hostReg f off = 0 := by
  have hlow : ¬ (0x1000 ≤ off ∧ off < 0x1080) := by omega
  simp only [State.hostReg, hlow, hf, if_false, if_true, ite_self]

theorem State.hostReg_devstat (s : State) : let x := s.hostReg 128 0x3000
    bit x 3 = s.dev.alarm ∧ bit x 2 = s.dev.ready ∧ bits x 0 2 = s.dev.lastRst.toNat ∧ bits x 4 60 = 0 := by
  have hread : s.hostReg 128 0x3000 = s.dev.read 0 := State.hostReg_device (off := 0) rfl (by decide)
  simp only [hread]
  exact devstat_fields ..

theorem State.hostReg_alarmpol (s : State) : let x := s.hostReg 128 0x3010
    bit x 8 = s.dev.lock ∧ bit x 0 = s.dev.policy := by
  have hread : s.hostReg 128 0x3010 = s.dev.read 0x10 := State.hostReg_device (off := 0x10) rfl (by decide)
  simp only [hread]
  exact alarmpol_fields ..

theorem State.hostReg_tkctl (s : State) {t : Nat} (ht : t < 128) : let x := s.hostReg 128 (0x4018 + 0x40 * t)
    bit x 9 = (s.tenant t).badload ∧ bit x 8 = (s.tenant t).key.isSome ∧ bits x 0 8 = 0 := by
  have hat : 0x4018 + 0x40 * t = 0x4000 + 0x40 * t + 0x18 := by omega
  have hread : s.hostReg 128 (0x4018 + 0x40 * t) = (s.tenant t).read 0x18 := by
    rw [hat, State.hostReg_tenant ht rfl (by decide)]
  simp only [hread]
  exact tkctl_fields ..

/-- TKEY and TRESET are written only: they read as zero. -/
theorem State.hostReg_writeOnly (s : State) {t : Nat} (ht : t < 128) :
    s.hostReg 128 (0x4010 + 0x40 * t) = 0 ∧ s.hostReg 128 (0x4020 + 0x40 * t) = 0 := by
  have hkey : 0x4010 + 0x40 * t = 0x4000 + 0x40 * t + 0x10 := by omega
  have hrst : 0x4020 + 0x40 * t = 0x4000 + 0x40 * t + 0x20 := by omega
  rw [hkey, hrst, State.hostReg_tenant ht rfl (by decide), State.hostReg_tenant ht rfl (by decide)]
  exact ⟨rfl, rfl⟩

/-! A write of the host to its own memory, as the device sees it. -/

/-- A state that differs in neither device memory nor contexts, and in host memory at most in one line. -/
def State.SameButLine (s : State) (line : Nat) (u : State) : Prop :=
  u.mem = s.mem ∧ u.ctxs = s.ctxs ∧
    ∀ x, x < 64 * line ∨ 64 * line + 64 ≤ x → sget 0 u.hostMem x = sget 0 s.hostMem x

theorem execCxlCacheSnoop_sameButLine : ∃ u, execCxlCacheSnoop s = .next u ∧ s.SameButLine s.evArg.a u := by
  refine ⟨_, rfl, List.foldlRecOn _ _ (motive := s.SameButLine s.evArg.a) ⟨rfl, rfl, fun _ _ => rfl⟩ ?_⟩
  rintro u ⟨hmem, hctxs, hhost⟩ q hq
  obtain ⟨hlo, hhi⟩ := pieces_within _ _ _ _ q hq
  rw [List.length_take] at hhi
  refine ⟨by rw [State.writePiece_mem, if_pos rfl, hmem], (writePiece_ctxs ..).1.trans hctxs, fun x hx => ?_⟩
  rw [State.writePiece_hostMem, if_pos rfl, sget_ssetList_other _ _ _ _ _ ?_, hhost x hx]
  rw [List.length_take]
  omega

/-! Writes of registers. -/

theorem execHostRegWrite_device (ha : s.evArg.a = 128) (hc : s.cxlDown = false) {off : Nat} (h8 : off % 8 = 0)
    (hoff : off < 0x48) (hb : s.evArg.b = 0x3000 + off) :
    execHostRegWrite s = .next { s with dev := s.dev.write off s.evArg.w } := by
  obtain ⟨halign, hqueue, hlink, hdev⟩ := deviceBlock_bounds h8 hoff
  simp only [execHostRegWrite, ha, hb, halign, hqueue, hlink, hdev, Nat.add_sub_cancel_left, overCxl_up hc]
  simp

theorem execHostRegWrite_tenant (ha : s.evArg.a = 128) (hc : s.cxlDown = false) {t off : Nat} (ht : t < 128)
    (h8 : off % 8 = 0) (hoff : off < 0x40) (hb : s.evArg.b = 0x4000 + 0x40 * t + off) :
    execHostRegWrite s = .next (s.withTenant t ((s.tenant t).write off s.evArg.w)) := by
  obtain ⟨halign, hqueue, hlink, hdev, hten, hno, hreg⟩ := tenantBlock_bounds ht h8 hoff
  simp only [execHostRegWrite, ha, hb, halign, hqueue, hlink, hdev, hten, hno, hreg, overCxl_up hc]
  simp

theorem execHostRegWrite_queue (hf : s.evArg.a ≤ 128) (hc : s.cxlDown = false) {q : Nat} (hq : q < 4)
    (hb : s.evArg.b = 0x1000 + 0x20 * q) :
    execHostRegWrite s =
      .next (s.withKqueue s.evArg.a q ((s.kqueue s.evArg.a q).write 0 s.evArg.w)) := by
  have hok : ¬ ((0x1000 + 0x20 * q) % 8 ≠ 0 ∨ 128 < s.evArg.a) := by omega
  have hlow : 0x1000 ≤ 0x1000 + 0x20 * q ∧ 0x1000 + 0x20 * q < 0x1080 := by omega
  have hno : (0x1000 + 0x20 * q - 0x1000) / 0x20 = q := by omega
  have hreg : (0x1000 + 0x20 * q) % 0x20 = 0 := by omega
  simp only [execHostRegWrite, hb, hok, hlow, hno, hreg, overCxl_up hc, if_false, and_self, if_true]

/-! Without the CXL link none of the host's requests arrives. -/

theorem execHostMemRead_down (hc : s.cxlDown = true) : execHostMemRead s = .next s := by
  simp only [execHostMemRead, hc, if_true]

theorem execHostMemWrite_down (hc : s.cxlDown = true) : execHostMemWrite s = .next s := by
  simp only [execHostMemWrite, hc, if_true]

theorem execHostRegWrite_down (hc : s.cxlDown = true) : execHostRegWrite s = .next s := by
  simp only [execHostRegWrite, overCxl_down hc, ite_self]

theorem execAlarmpolWrite_down (hc : s.cxlDown = true) : execAlarmpolWrite s = .next s := by
  simp only [execAlarmpolWrite, overCxl_down hc, ite_self]

theorem execDoorbell_down (hc : s.cxlDown = true) : execDoorbell s = .next s := by
  simp only [execDoorbell, overCxl_down hc, ite_self]
  split
  · rfl
  · split <;> rfl

theorem execTkeyWrite_down (hc : s.cxlDown = true) : execTkeyWrite s = .next s := by
  simp only [execTkeyWrite, overCxl_down hc, ite_self]

theorem execTkctlLoad_down (hc : s.cxlDown = true) : execTkctlLoad s = .next s := by
  simp only [execTkctlLoad, overCxl_down hc, ite_self]

theorem execTkctlErase_down (hc : s.cxlDown = true) : execTkctlErase s = .next s := by
  simp only [execTkctlErase, overCxl_down hc, ite_self]

theorem execTresetGo_down (hc : s.cxlDown = true) : execTresetGo s = .next s := by
  simp only [execTresetGo, overCxl_down hc, ite_self]

/-! ALARMPOL. -/

theorem execAlarmpolWrite_locked (hl : s.dev.lock = true) : execAlarmpolWrite s = .next s := by
  simp only [execAlarmpolWrite, hl, if_true]

theorem execAlarmpolWrite_unlocked (hl : s.dev.lock = false) (hc : s.cxlDown = false) : execAlarmpolWrite s =
    .next { s with dev := { s.dev with lock := bit s.evArg.w 8, policy := bit s.evArg.w 0 } } := by
  simp only [execAlarmpolWrite, hl, Bool.false_eq_true, if_false, overCxl_up hc]

/-! Firmware: the verification of an image. -/

/-- The version of the image whose verification ends. -/
def State.fwVersion (s : State) : BitVec 16 := BitVec.ofNat 16 s.evArg.b

theorem execFwVerifyDone_accepts (hv : s.dev.fwState = .verifying) (ha : s.evArg.a = 0)
    (hnew : ¬ s.fwVersion.toNat < Config.rollback.toNat) : execFwVerifyDone s =
      .next { s with dev := { s.dev.install s.fwVersion with fwState := .accepted, fwRej := 0 } } := by
  have hcheck : fwCheck 0 (BitVec.ofNat 16 s.evArg.b) = 0 := if_neg fun h => hnew h.2
  simp [execFwVerifyDone, hv, ha, hcheck, State.fwVersion]

/-- The state after an image is rejected for a failed check: the rejection is logged and counts, and the eighth in a row
is a cause of the alarm (20_system R449). -/
def State.fwRejected (s : State) (why : Nat) : State :=
  let s1 := s.logEvent .fwreject 0 0 .none 0 (BitVec.ofNat 64 why)
  { s1 with dev := { s1.dev with
    fwState := .rejected, fwRej := if 7 ≤ s1.dev.fwRej then 0 else s1.dev.fwRej + 1
    causes := if 7 ≤ s1.dev.fwRej then (s1.dev.causes ++ [3]).dedup else s1.dev.causes } }

theorem DeviceBlock.fwRejects_eq (d : DeviceBlock) : d.fwRejects =
    { d with
      fwRej := if 7 ≤ d.fwRej then 0 else d.fwRej + 1
      causes := if 7 ≤ d.fwRej then (d.causes ++ [3]).dedup else d.causes } := by
  simp only [DeviceBlock.fwRejects, DeviceBlock.due]
  split
  · rfl
  · rfl

/-- A verification that ends with a failed check rejects the image, where the check that it tells of is not the one of
the version or the version is indeed too old. -/
theorem execFwVerifyDone_rejects (hv : s.dev.fwState = .verifying) {why : Nat} (hwhy : why ≠ 0) (ha : s.evArg.a ≤ 4)
    (hcheck : fwCheck s.evArg.a s.fwVersion = why) (hold : s.evArg.a = 4 → fwCheck 0 s.fwVersion ≠ 0) :
    execFwVerifyDone s = .next (s.fwRejected why) := by
  have hgo : ¬ (s.dev.fwState ≠ .verifying ∨ 4 < s.evArg.a ∨ s.evArg.a = 4 ∧ fwCheck 0 s.fwVersion = 0) := by
    rintro (h | h | ⟨h4, h0⟩)
    · exact h hv
    · omega
    · exact hold h4 h0
  unfold State.fwVersion at hgo hcheck
  simp only [execFwVerifyDone, hgo, hcheck, hwhy, if_false, DeviceBlock.fwRejects_eq, State.fwRejected]

theorem execFwVerifyDone_rejects_told (hv : s.dev.fwState = .verifying) (h1 : 1 ≤ s.evArg.a) (h3 : s.evArg.a ≤ 3) :
    execFwVerifyDone s = .next (s.fwRejected s.evArg.a) :=
  execFwVerifyDone_rejects hv (by omega) (by omega) (if_neg fun h => by omega) (fun h => by omega)

theorem execFwVerifyDone_rejects_old (hv : s.dev.fwState = .verifying) (ha : s.evArg.a = 0 ∨ s.evArg.a = 4)
    (hold : s.fwVersion.toNat < Config.rollback.toNat) : execFwVerifyDone s = .next (s.fwRejected 4) := by
  have hzero : fwCheck 0 s.fwVersion = 4 := if_pos ⟨rfl, hold⟩
  refine execFwVerifyDone_rejects hv (by decide) (by omega) ?_ (fun _ => by rw [hzero]; decide)
  rcases ha with ha | ha
  · rw [ha, hzero]
  · rw [ha]
    exact if_neg fun h => absurd h.1 (by decide)

theorem execFwVerifyDone_ignores (ha : s.evArg.a = 4) (hnew : ¬ s.fwVersion.toNat < Config.rollback.toNat) :
    execFwVerifyDone s = .next s := by
  have hcheck : fwCheck 0 (BitVec.ofNat 16 s.evArg.b) = 0 := if_neg fun h => hnew h.2
  simp [execFwVerifyDone, ha, hcheck]

/-! The keys of tenants. -/

theorem State.tenant_withTenant (s : State) (t : Nat) (x : Tenant) : (s.withTenant t x).tenant t = x := by
  simp [State.tenant, State.withTenant]

theorem State.dropEntries_mem (s : State) (p : Nat → ReuseEntry → Bool) : (s.dropEntries p).mem = s.mem :=
  (State.countDrops_mems ..).1

/-- An entry of the tenant that is left when its entries are dropped is DEAD. -/
theorem State.dead_of_mem_dropTenant {t : Nat} {e : Nat × ReuseEntry} (he : e ∈ (s.dropTenant t).reuse)
    (ht : e.2.tenant = t) : e.2.state = .dead := by
  simp only [State.dropTenant, State.dropEntries, State.sweepDead, State.countDrops_gran_reuse, emptied] at he
  obtain ⟨e0, -, rfl⟩ := List.mem_map.1 (List.mem_of_mem_filter he)
  by_cases hd : decide (e0.2.tenant = t) = true ∧ e0.2.state ≠ .dead
  · rw [if_pos hd]
  · rw [if_neg hd] at ht ⊢
    by_contra hs
    exact hd ⟨decide_eq_true ht, hs⟩

theorem State.eraseKey_key (s : State) (t : Nat) : ((s.eraseKey t).tenant t).key = none := by
  simp only [State.eraseKey, State.tenant_withTenant]

theorem State.eraseKey_mem (s : State) (t : Nat) : (s.eraseKey t).mem = s.mem :=
  show (s.dropTenant t).mem = s.mem from State.dropEntries_mem s _

theorem execTkeyWrite_stages (ht : s.evArg.a < 128) (hc : s.cxlDown = false) :
    execTkeyWrite s = .next (s.withTenant s.evArg.a
      { s.tenant s.evArg.a with tkey := (s.tenant s.evArg.a).tkey ++ [s.evArg.w] }) := by
  simp only [execTkeyWrite, Nat.not_le.2 ht, if_false, overCxl_up hc]

theorem execTkctlLoad_loads (ht : s.evArg.a < 128) (hc : s.cxlDown = false)
    (hfour : (s.tenant s.evArg.a).tkey.length = 4) :
    execTkctlLoad s = .next (let s1 := s.dropTenant s.evArg.a
      s1.withTenant s.evArg.a
        { s1.tenant s.evArg.a with key := some (bytesOfWords (s.tenant s.evArg.a).tkey), tkey := [] }) := by
  simp only [execTkctlLoad, Nat.not_le.2 ht, hfour, if_false, if_true, overCxl_up hc]

theorem execTkctlLoad_bad (ht : s.evArg.a < 128) (hc : s.cxlDown = false)
    (hfour : (s.tenant s.evArg.a).tkey.length ≠ 4) :
    execTkctlLoad s = .next (s.withTenant s.evArg.a { s.tenant s.evArg.a with badload := true, tkey := [] }) := by
  simp only [execTkctlLoad, Nat.not_le.2 ht, hfour, if_false, overCxl_up hc]

theorem execTkctlErase_erases (ht : s.evArg.a < 128) (hc : s.cxlDown = false) :
    execTkctlErase s = .next (s.eraseKey s.evArg.a) := by
  simp only [execTkctlErase, Nat.not_le.2 ht, if_false, overCxl_up hc]

end host

end Sys2Proof.Machine

namespace Sys2Proof

open Machine

/-- Settles O58, clause by clause: each clause is the equation of the branch of the host's operation that it names. -/
theorem hostAccess : Obligations.HostAccess := by
  unfold Obligations.HostAccess
  refine ⟨fun s hready hc => ⟨fun q hf hq => ⟨fun hp => ?_, fun hp hr => ?_, fun hp hr ht he => ?_,
      fun g hp hr ht => ?_⟩, execHostMemWrite_pieces hready hc⟩,
    fun s tenant core pa => ⟨_, s.logUncorr_eq tenant core pa⟩,
    fun s pa bs => ⟨State.hostWritePiece_routed, State.hostWritePiece_unrouted, fun _ _ => State.gran_cleanPiece⟩,
    fun s hready => ⟨fun hf => ⟨execHostMemWrite_held hready hf, execHostMemRead_held hready hf⟩,
      execHostMemWrite_error hready⟩,
    fun s => execHostMemRead_register,
    fun s => ⟨s.hostReg_devstat, s.hostReg_alarmpol, fun t ht => ?tenant, fun f off => State.hostReg_virtual⟩,
    fun s _ => execCxlCacheSnoop_sameButLine,
    fun s hc => ⟨execHostMemRead_down hc, execHostMemWrite_down hc, execHostRegWrite_down hc, execAlarmpolWrite_down hc,
      overCxl_down hc, execDoorbell_down hc, execTkeyWrite_down hc, execTkctlLoad_down hc, execTkctlErase_down hc,
      execTresetGo_down hc⟩,
    fun s ha hc => ⟨fun hb => execHostRegWrite_device (off := 0x08) ha hc rfl (by decide) hb,
      fun hb => execHostRegWrite_device (off := 0x18) ha hc rfl (by decide) hb,
      fun hb => execHostRegWrite_device (off := 0x38) ha hc rfl (by decide) hb,
      fun hb hw => ?alarm, fun t ht hb => execHostRegWrite_tenant (off := 0) ha hc ht rfl (by decide) hb⟩,
    fun s f q hf hle hq hb hc => ?queue,
    fun s => ⟨execAlarmpolWrite_locked, execAlarmpolWrite_unlocked, fun hc => overCxl_up hc, fun hv =>
      ⟨fun ha hold => execFwVerifyDone_accepts hv ha (of_decide_eq_false hold), execFwVerifyDone_rejects_told hv,
        fun ha hold => execFwVerifyDone_rejects_old hv ha (of_decide_eq_true hold),
        fun ha hold => execFwVerifyDone_ignores ha (of_decide_eq_false hold)⟩⟩,
    fun s ht hc => ⟨execTkeyWrite_stages ht hc, execTkctlLoad_loads ht hc, execTkctlLoad_bad ht hc,
      _, execTkctlErase_erases ht hc, s.eraseKey_key _, s.eraseKey_mem _, fun e => State.dead_of_mem_dropTenant⟩⟩
  · exact execHostMemRead_piece hready hc hf hq (State.hostReadPiece_unpopulated hp)
  · exact execHostMemRead_piece hready hc hf hq (State.hostReadPiece_unrouted hp hr)
  · exact execHostMemRead_piece hready hc hf hq (State.hostReadPiece_clean hp hr ht he)
  · exact execHostMemRead_piece hready hc hf hq (State.hostReadPiece_turned hp hr ht)
  case tenant =>
    obtain ⟨hbad, hkey, hlow⟩ := s.hostReg_tkctl ht
    obtain ⟨htkey, htreset⟩ := s.hostReg_writeOnly ht
    exact ⟨hbad, hkey, hlow, htkey, htreset⟩
  case alarm =>
    have hset : s.dev.write 0 s.evArg.w = { s.dev with alarm := false } := if_pos hw
    exact hset ▸ execHostRegWrite_device (off := 0) ha hc rfl (by decide) hb
  case queue =>
    subst hf
    exact execHostRegWrite_queue hle hc hq hb

end Sys2Proof

end

section
/-! SUPPORT. Registers, the moving hart, and the checks of an access (02_machine R25, R35; 03_encoding R61; 05_scalar
R97–R99). -/

namespace Sys2Proof.Machine

section hart

variable (h : Hart) (r q : SReg) (x : Word)

theorem Hart.writeS_of_ne {r : SReg} (hr : r ≠ 0) : h.writeS r x = { h with regs := sset 0 h.regs r.toNat x } := if_neg hr

/-- ReadS after WriteS (03_encoding R61), s0 on either side included. -/
theorem Hart.readS_writeS (hw : swf 0 h.regs = true) :
    (h.writeS r x).readS q = if q = 0 then 0 else if q = r then x else h.readS q := by
  by_cases hq : q = 0
  · rw [if_pos hq, hq, Hart.readS_zero]
  rw [if_neg hq]
  by_cases hr : r = 0
  · rw [hr, Hart.writeS_zero, if_neg hq]
  rw [Hart.writeS_of_ne h x hr]
  simp only [Hart.readS, if_neg hq]
  by_cases hqr : q = r
  · rw [if_pos hqr, hqr, sget_sset_same _ _ _ _ hw]
  · rw [if_neg hqr, sget_sset_other]
    exact fun e => hqr (BitVec.eq_of_toNat_eq e)

theorem Hart.swf_writeS (hw : swf 0 h.regs = true) : swf 0 (h.writeS r x).regs = true := by
  by_cases hr : r = 0
  · rwa [hr, Hart.writeS_zero]
  · rw [Hart.writeS_of_ne h x hr]
    exact swf_sset _ _ _ _ hw

theorem Hart.writeS_rest :
    h.writeS r x = { h with regs := (h.writeS r x).regs } := by
  by_cases hr : r = 0
  · rw [hr, Hart.writeS_zero]
  · rw [Hart.writeS_of_ne h x hr]

end hart

section retire

variable (s : State) (n : Nat) (d : SReg) (x : Word)

/-- The moving hart after an instruction that writes one register. -/
theorem State.me_retire :
    (s.retire n d x).me = { s.me.writeS d x with pc := s.me.pc + BitVec.ofNat 64 n } := by
  have hpc : (s.me.writeS d x).pc = s.me.pc := by rw [Hart.writeS_rest]
  simp only [State.retire, State.advance, State.writeS, State.me_withMe, hpc]

theorem State.retire_eq : s.retire n d x = s.withMe (s.retire n d x).me := by
  simp only [State.retire, State.advance, State.writeS, State.me_withMe, State.withMe_withMe]

end retire

section checks

variable (s : State) (w : Who) (acc : Nat) (need : Need) (a n : Nat)

/-- An access that ends past 2^57 faults before any other check (02_machine R35). -/
theorem State.locate_past (h : 2 ^ 57 < a + n) : s.locate w acc need a n = .trap (pageFault acc 2 a) :=
  if_pos (.inl h)

/-- An access that lies in a window of the accessor's context. -/
theorem State.locate_window {i : Bool} {off : Nat} (htop : a + n ≤ 2 ^ 57) (hpos : a < 2 ^ 57)
    (htouch : touchesWindows a n = true) (hwin : (s.ctx w.ref.cid).windowOf a = some (i, off))
    (hin : off + n ≤ if i then (s.ctx w.ref.cid).isBytes else (s.ctx w.ref.cid).osBytes) :
    s.locate w acc need a n = .ok (.window i off) := by
  unfold State.locate
  rw [if_neg (by omega), if_pos htouch]
  simp only [hwin, if_pos hin]

theorem Ctx.isBytes_le (c : Ctx) : c.isBytes ≤ 1048576 := by unfold Ctx.isBytes; split <;> omega
theorem Ctx.osBytes_le (c : Ctx) : c.osBytes ≤ 262144 := by unfold Ctx.osBytes; split <;> omega

/-- An access inside the IS window (R35). -/
theorem State.locate_is {off : Nat} (hn : 0 < n) (h : off + n ≤ (s.ctx w.ref.cid).isBytes) :
    s.locate w acc need (windowLo + off) n = .ok (.window true off) := by
  have hle := Ctx.isBytes_le (s.ctx w.ref.cid)
  refine s.locate_window w acc need _ n ?_ ?_ ?_ ?_ h
  · unfold windowLo; omega
  · unfold windowLo; omega
  · unfold touchesWindows windowHi windowLo
    exact Bool.and_eq_true_iff.2 ⟨decide_eq_true (by omega), decide_eq_true (by omega)⟩
  · unfold Ctx.windowOf
    rw [if_pos (by omega), Nat.add_sub_cancel_left]

/-- An access inside the OS window (R35), which begins where the largest IS window ends. -/
theorem State.locate_os {off : Nat} (hn : 0 < n) (h : off + n ≤ (s.ctx w.ref.cid).osBytes) :
    s.locate w acc need (osBase + off) n = .ok (.window false off) := by
  have hle := Ctx.osBytes_le (s.ctx w.ref.cid)
  have his := Ctx.isBytes_le (s.ctx w.ref.cid)
  refine s.locate_window w acc need _ n ?_ ?_ ?_ ?_ h
  · unfold osBase; omega
  · unfold osBase; omega
  · unfold touchesWindows windowHi windowLo osBase
    exact Bool.and_eq_true_iff.2 ⟨decide_eq_true (by omega), decide_eq_true (by omega)⟩
  · unfold Ctx.windowOf
    rw [if_neg (by unfold windowLo osBase; omega), if_pos (by omega), Nat.add_sub_cancel_left]

/-- A read that is no fetch begins with the place of its bytes (05_scalar R99). -/
theorem State.loadFor_trap {kinds : PageKind → Bool} {align : Nat} {t : Trap} (hacc : acc ≠ 3)
    (h : s.locate w acc need a n = .trap t) : s.loadFor w acc need kinds align a n = .trap t := by
  simp only [State.loadFor, hacc, false_and, if_false, h, MemRes.bind]

/-- A read inside a window: the IS window answers its bytes, the OS window cannot be read (R97, R98). -/
theorem State.loadFor_window {kinds : PageKind → Bool} {align off : Nat} {i : Bool} (hacc : acc ≠ 3)
    (h : s.locate w acc need a n = .ok (.window i off)) : s.loadFor w acc need kinds align a n =
      if i then .ok ((s.ctx w.ref.cid).windowBytes true off n) else .trap (pageAttr acc a) := by
  simp only [State.loadFor, hacc, false_and, if_false, h, MemRes.bind]
  cases i <;> rfl

theorem State.storeCheck_trap {kinds : PageKind → Bool} {align : Nat} {l : Level} {lo : Bool} {t : Trap}
    (h : s.locate w 2 need a n = .trap t) : s.storeCheck w need kinds align l lo a n = .trap t := by
  simp only [State.storeCheck, h, MemRes.bind]

/-- A store inside a window: only the compute and the drain hart store, and to the OS window alone (R97, R98). -/
theorem State.storeCheck_window {kinds : PageKind → Bool} {align off : Nat} {l : Level} {lo i : Bool}
    (h : s.locate w 2 need a n = .ok (.window i off)) : s.storeCheck w need kinds align l lo a n =
      if i = true ∨ w.ref.kind = .fh then .trap (pageAttr 2 a) else .ok (.window false off) := by
  simp only [State.storeCheck, h, MemRes.bind]
  cases i
  · simp only [Bool.false_eq_true, false_or]
  · rfl

end checks

end Sys2Proof.Machine

namespace Sys2Proof

open Machine

/-- Settles O7: s0 apart, a register is a key of sparse data; an instruction that writes one register changes the moving
hart alone. -/
theorem scalarRegisters : Obligations.ScalarRegisters := by
  unfold Obligations.ScalarRegisters
  refine ⟨fun h r q x hw => ⟨h.readS_writeS r q x hw, h.swf_writeS r x hw, h.writeS_zero x⟩, fun s reads d n x => ?_⟩
  have hu := (s.reading reads).retire_eq n d x
  refine ⟨?hart, ?ctx, fun cid hc => ?others, ?rest⟩
  case hart =>
    rw [State.me_retire, State.me_reading]
    by_cases hd : d = 0
    · rw [hd, Hart.writeS_zero, Hart.writeS_zero]; rfl
    · rw [Hart.writeS_of_ne _ _ hd, Hart.writeS_of_ne _ _ hd]; rfl
  case ctx =>
    rw [hu, State.myCtx_withMe, State.me_withMe, State.reading, State.myCtx_withMe]
    exact Ctx.withHart_withHart _ _ _ _
  case others =>
    rw [hu, ctx_withMe_other (s.reading reads) _ _ hc]
    exact ctx_withMe_other s cid _ hc
  case rest =>
    rw [hu, withMe_rest]
    exact withMe_rest s _ _

/-- Settles O17: both checks begin with `State.locate`, which refuses what ends past 2^57 and otherwise tells the windows. -/
theorem addressChecks : Obligations.AddressChecks := by
  unfold Obligations.AddressChecks
  refine ⟨fun s w a n kinds align l lo h => ⟨?_, ?_⟩, fun s r off n hn => ⟨fun h => ⟨?_, ?_⟩, fun h => ⟨?_, ?_⟩⟩⟩
  · exact s.loadFor_trap w 1 .read a n (by decide) (s.locate_past w 1 .read a n h)
  · exact s.storeCheck_trap w .write a n (s.locate_past w 2 .write a n h)
  · exact s.loadFor_window (s.who r) 1 .read _ n (by decide) (s.locate_is (s.who r) 1 .read n hn h)
  · exact s.storeCheck_window (s.who r) .write _ n (s.locate_is (s.who r) 2 .write n hn h)
  · exact s.loadFor_window (s.who r) 1 .read _ n (by decide) (s.locate_os (s.who r) 1 .read n hn h)
  · rw [s.storeCheck_window (s.who r) .write _ n (s.locate_os (s.who r) 2 .write n hn h)]
    simp only [Bool.false_eq_true, false_or]
    rfl

/-- Settles O5: the reset state, field by field; a tenant and a die that no table lists hold their reset values. -/
theorem resetState : Obligations.ResetState := by
  unfold Obligations.ResetState
  exact ⟨⟨rfl, rfl⟩, rfl, rfl, fun _ => rfl, fun _ => rfl, fun _ => ⟨rfl, rfl, rfl⟩, rfl, rfl, rfl, rfl, rfl, rfl, rfl, rfl,
    rfl, fun _ => rfl⟩

end Sys2Proof
end

section
/-! SUPPORT. The waits of a scalar instruction, and what pipes and watches do (02_machine R21–R23; 05_scalar R107,
R109). -/

namespace Sys2Proof.Machine

section waits

variable (s u : State) (reads writes : List SReg) (k : State → Res) (y : Bool)

@[simp] theorem State.me_waitHere : (s.waitHere y).me = { s.me with yielding := y } :=
  State.me_withMe s { s.me with yielding := y }

@[simp] theorem State.mem_waitHere : (s.waitHere y).mem = s.mem := rfl

@[simp] theorem State.withMe_me_waitHere : (s.withMe s.me).waitHere y = s.waitHere y := by
  simp only [State.waitHere, State.me_withMe, State.withMe_withMe]

/-- What an instruction that cannot complete leaves of the reads that it has made: nothing (notes/assumptions/13). -/
theorem State.reading_undone :
    (s.reading reads).withHart s.cur { (s.reading reads).hart s.cur with unread := s.me.unread } = s.here := by
  have hh : (s.reading reads).hart s.cur = s.me.clearRead reads := State.me_reading s reads
  rw [hh]
  exact State.withMe_withMe s _ _

/-- A scalar instruction whose registers are ready and that waits. -/
theorem scalar_wait (h : s.Ready reads writes) (hk : k (s.reading reads) = .wait y u) :
    scalar reads writes k s =
      .next ((u.withHart s.cur { u.hart s.cur with unread := s.me.unread }).waitHere y) := by
  rw [scalar_ready _ _ _ _ h, hk]
  rfl

/-- A scalar instruction that waits and leaves nothing else. -/
theorem scalar_wait_same (h : s.Ready reads writes) (hk : k (s.reading reads) = .wait y (s.reading reads)) :
    scalar reads writes k s = .next (s.waitHere y) := by
  rw [scalar_wait _ _ _ _ _ _ h hk, State.reading_undone, State.here, State.withMe_me_waitHere]

/-- An instruction that a pure task may not execute, on a hart that runs none. -/
theorem impureOnly_plain (detail : Nat) (h : s.Plain) : impureOnly detail k (s.reading reads) = k (s.reading reads) := by
  have hp : (s.reading reads).me.checkedBy = none := by rw [State.me_reading, checkedBy_clearRead]; exact h
  simp only [impureOnly, hp]

theorem afterViq_quiet (h : s.Quiet) : afterViq k s = k s := by
  simp only [afterViq, show s.myCtx.viq = [] from h, List.any_nil, Bool.false_eq_true, and_false, if_false]

theorem State.quiet_reading (h : s.Quiet) : (s.reading reads).Quiet := by
  have hv : (s.reading reads).myCtx.viq = s.myCtx.viq := by rw [State.reading, State.myCtx_withMe, Ctx.withHart_viq]
  exact hv.trans h

theorem afterWrites_done (h : s.outstanding = false) : afterWrites k s = k s := by
  simp only [afterWrites, h, Bool.false_eq_true, if_false]

theorem afterWrites_wait (h : s.outstanding = true) : afterWrites k s = .wait false s := by
  simp only [afterWrites, h, if_true]

/-- An instruction on a hart that its classes leave out (R20, 03_encoding R50). -/
theorem onlyOn_other {kinds : List HartKind} {k : State → Host.Outcome State Fault Refusal}
    (h : kinds.contains s.cur.kind = false) : onlyOn kinds k s = .next (s.scalarTrap (illegal s 7 0)) := by
  simp only [onlyOn, h, Bool.false_eq_true, if_false, Res.outcome]

theorem onlyOn_own {kinds : List HartKind} {k : State → Host.Outcome State Fault Refusal}
    (h : kinds.contains s.cur.kind = true) : onlyOn kinds k s = k s := by
  simp only [onlyOn, h, if_true]

end waits

section pipes

variable {s : State} {a d : SReg} {x : Word} {r : List Word} {k : HartKind} (hk : s.cur.kind = k)

/-- The pipe that a hart sends on (02_machine R21). -/
def Ctx.outPipe (c : Ctx) (k : HartKind) : List Word := if k = .ch then c.pipeOut else c.pipeIn

/-- A context with the pipe that a hart sends on changed. -/
def Ctx.withOutPipe (c : Ctx) (k : HartKind) (q : List Word) : Ctx :=
  if k = .ch then { c with pipeOut := q } else { c with pipeIn := q }

/-- The pipe that a hart receives from (02_machine R21). -/
def Ctx.inPipe (c : Ctx) (k : HartKind) : List Word := if k = .ch then c.pipeIn else c.pipeOut

/-- A context with the pipe that a hart receives from changed. -/
def Ctx.withInPipe (c : Ctx) (k : HartKind) (q : List Word) : Ctx :=
  if k = .ch then { c with pipeIn := q } else { c with pipeOut := q }

theorem outPipe_reading (rs : List SReg) : (s.reading rs).myCtx.outPipe k = s.myCtx.outPipe k := by
  simp only [Ctx.outPipe, State.reading, State.myCtx_withMe, Ctx.withHart_pipeIn, Ctx.withHart_pipeOut]

theorem inPipe_reading (rs : List SReg) : (s.reading rs).myCtx.inPipe k = s.myCtx.inPipe k := by
  simp only [Ctx.inPipe, State.reading, State.myCtx_withMe, Ctx.withHart_pipeIn, Ctx.withHart_pipeOut]

section psend

variable (hs : [HartKind.ch, .fh].contains k = true)
include hk hs

/-- PSEND on a hart that sends: it waits for room in the pipe first. -/
theorem execPsend_eq : execPsend a s =
    scalar [a] [] (impureOnly 6 (fun s =>
      if (s.myCtx.outPipe s.cur.kind).length < 16 then
        afterWrites (afterViq (fun t => .done ((t.withMyCtx
          (s.myCtx.withOutPipe s.cur.kind (s.myCtx.outPipe s.cur.kind ++ [t.readS a]))).advance 4))) s
      else .wait true s)) s := by
  rw [execPsend, onlyOn_own s (by rw [hk]; exact hs)]
  simp only [Ctx.outPipe, Ctx.withOutPipe, decide_eq_true_eq]
  rfl

variable (h : s.Ready [a] []) (hp : s.Plain)
include h hp

theorem execPsend_sends (hq : s.Quiet) (ho : s.outstanding = false) (hroom : (s.myCtx.outPipe k).length < 16) :
    execPsend a s = .next (((s.reading [a]).withMyCtx ((s.reading [a]).myCtx.withOutPipe k
      (s.myCtx.outPipe k ++ [s.readS a]))).advance 4) := by
  rw [execPsend_eq hk hs]
  refine scalar_done _ _ _ _ _ h ?_
  rw [impureOnly_plain s [a] _ 6 hp, State.cur_reading, hk, outPipe_reading, if_pos hroom,
    afterWrites_done (s.reading [a]) _ ho, afterViq_quiet _ _ (s.quiet_reading [a] hq), State.readS_reading]

theorem execPsend_full (hfull : 16 ≤ (s.myCtx.outPipe k).length) : execPsend a s = .next (s.waitHere true) := by
  rw [execPsend_eq hk hs]
  refine scalar_wait_same _ _ _ _ _ h ?_
  rw [impureOnly_plain s [a] _ 6 hp, State.cur_reading, hk, outPipe_reading, if_neg (Nat.not_lt.2 hfull)]

/-- PSEND waits for the hart's own multicasts (notes/assumptions/14). -/
theorem execPsend_outstanding (ho : s.outstanding = true) (hroom : (s.myCtx.outPipe k).length < 16) :
    execPsend a s = .next (s.waitHere false) := by
  rw [execPsend_eq hk hs]
  refine scalar_wait_same _ _ _ _ _ h ?_
  rw [impureOnly_plain s [a] _ 6 hp, State.cur_reading, hk, outPipe_reading, if_pos hroom,
    afterWrites_wait (s.reading [a]) _ ho]

end psend

section precv

variable (hr : [HartKind.ch, .dh].contains k = true)
include hk hr

/-- PRECV on a hart that receives: it takes the oldest entry. -/
theorem execPrecv_eq : execPrecv d s =
    scalar [] [d] (impureOnly 6 (fun s =>
      match s.myCtx.inPipe s.cur.kind with
      | x :: rest => .done ((s.withMyCtx (s.myCtx.withInPipe s.cur.kind rest)).retire 4 d x)
      | [] => .wait true s)) s := by
  rw [execPrecv, onlyOn_own s (by rw [hk]; exact hr)]
  simp only [Ctx.inPipe, Ctx.withInPipe, decide_eq_true_eq] <;> rfl

variable (h : s.Ready [] [d]) (hp : s.Plain)
include h hp

theorem execPrecv_empty (he : s.myCtx.inPipe k = []) : execPrecv d s = .next (s.waitHere true) := by
  rw [execPrecv_eq hk hr]
  refine scalar_wait_same _ _ _ _ _ h ?_
  rw [impureOnly_plain s [] _ 6 hp, State.cur_reading, hk, inPipe_reading, he]

theorem execPrecv_takes (he : s.myCtx.inPipe k = x :: r) : execPrecv d s =
    .next (((s.reading []).withMyCtx ((s.reading []).myCtx.withInPipe k r)).retire 4 d x) := by
  rw [execPrecv_eq hk hr]
  refine scalar_done _ _ _ _ _ h ?_
  rw [impureOnly_plain s [] _ 6 hp, State.cur_reading, hk, inPipe_reading, he]

end precv

end pipes

section waitv

variable {s : State} {d a b : SReg}

/-- A read of a doubleword with the checks of an atomic (05_scalar R103). -/
theorem atomicAt_read (rs : List SReg) {acc : Nat} {k : State → Place → Res} {pl : Place} (hp : s.Plain) (hq : s.Quiet)
    (h : (s.reading rs).atomicCheck ((s.reading rs).who s.cur) acc .read 8 (s.readS a).toNat 8 = .ok pl) :
    atomicAt acc .read false a k (s.reading rs) = k (s.reading rs) pl := by
  unfold atomicAt
  rw [impureOnly_plain _ _ _ 3 hp]
  simp only [Bool.false_eq_true, if_false, id]
  rw [afterViq_quiet _ _ (s.quiet_reading rs hq), State.cur_reading, State.readS_reading, h]
  simp only [MemRes.elim, ne_eq, not_true_eq_false, false_and, if_false]

theorem execWaitv_shown (h : s.Ready [a, b] [d]) {w : Watch} (hw : s.watchOf s.cur = some w) (hit : w.hit = true) :
    execWaitv d a b s = .next (((s.reading [a, b]).unwatch s.cur).retire 4 d w.want) := by
  refine scalar_done _ _ _ _ _ h ?_
  rw [show (s.reading [a, b]).watchOf (s.reading [a, b]).cur = some w from hw]
  simp only [hit, if_true, State.cur_reading]

variable {pl : Place} (h : s.Ready [a, b] [d]) (hq : s.Quiet) (hp : s.Plain) (hw : s.watchOf s.cur = none)
  (hc : (s.reading [a, b]).atomicCheck ((s.reading [a, b]).who s.cur) 1 .read 8 (s.readS a).toNat 8 = .ok pl)
include h hq hp hw hc

theorem execWaitv_holds (he : s.memWord pl.pa = s.readS b) :
    execWaitv d a b s = .next ((s.reading [a, b]).retire 4 d (s.readS b)) := by
  refine scalar_done _ _ _ _ _ h ?_
  rw [show (s.reading [a, b]).watchOf (s.reading [a, b]).cur = none from hw]
  simp only [atomicAt_read [a, b] hp hq hc, State.readS_reading]
  exact if_pos he

/-- WAITV that waits leaves its watch at the home slice (05_scalar R107). -/
theorem execWaitv_watches (he : s.memWord pl.pa ≠ s.readS b) : execWaitv d a b s =
    .next (({ s.here with watches := s.watches ++
      [{ ref := s.cur, pa := pl.pa, want := s.readS b, hit := false }] } : State).waitHere true) := by
  rw [← State.reading_undone s [a, b]]
  refine scalar_wait s { s.reading [a, b] with watches := s.watches ++ [_] } _ _ _ true h ?_
  rw [show (s.reading [a, b]).watchOf (s.reading [a, b]).cur = none from hw]
  simp only [atomicAt_read [a, b] hp hq hc, State.readS_reading]
  exact if_neg he

end waitv

end Sys2Proof.Machine

namespace Sys2Proof

open Machine

/-- Settles O19: a pipe is seen through the hart that sends on it or receives from it, and WAITV through its watch. -/
theorem pipesAndWaits : Obligations.PipesAndWaits := by
  unfold Obligations.PipesAndWaits
  refine ⟨⟨fun s a h hp => ?psend, fun s d x r h hp => ?precv⟩, fun s d a b h hq hp =>
    ⟨fun pl hw hc => ⟨fun he => ?_, fun he => ?_⟩, fun w hw hit => ?_⟩⟩
  case psend =>
    exact ⟨fun hcan hk hroom => execPsend_sends hk rfl h hp hcan.1 hcan.2 hroom,
      fun hcan hk hroom => execPsend_sends hk rfl h hp hcan.1 hcan.2 hroom,
      fun hk hfull => execPsend_full hk rfl h hp hfull, fun hk hfull => execPsend_full hk rfl h hp hfull,
      fun ho hk hroom => execPsend_outstanding hk rfl h hp ho hroom,
      fun ho hk hroom => execPsend_outstanding hk rfl h hp ho hroom,
      fun hk => ⟨illegal s 7 0, rfl, rfl, onlyOn_other s (by rw [hk]; rfl)⟩⟩
  case precv =>
    exact ⟨fun hk he => execPrecv_empty hk rfl h hp he, fun hk he => execPrecv_empty hk rfl h hp he,
      fun hk he => execPrecv_takes (k := .ch) (r := r) hk rfl h hp he,
      fun hk he => execPrecv_takes (k := .dh) (r := r) hk rfl h hp he,
      fun hk => ⟨illegal s 7 0, rfl, rfl, onlyOn_other s (by rw [hk]; rfl)⟩⟩
  · exact execWaitv_holds h hq hp hw hc he
  · have hme : ∀ ws : List Watch, ({ s.here with watches := ws } : State).me = s.me := fun _ => State.me_withMe s s.me
    refine ⟨_, execWaitv_watches h hq hp hw hc he, ?_, ?_, ?_, rfl, rfl⟩ <;> rw [State.me_waitHere, hme]
  · exact execWaitv_shown h hw hit

end Sys2Proof
end

section
/-! SUPPORT. What the vector unit does with the entry at the head of its queue, one lemma an answer of the entry, and what
the issue of an entry leaves (02_machine R20; 12_context R283, R284). -/

namespace Sys2Proof.Machine

section head

variable {s u : State} {e : VEntry} {r : List VEntry} {f : VEntry → State → Res}

/-- An entry that no pure task checks and no stream feeds does what its instruction does. -/
theorem runEntry_plain (hs : s.myCtx.streams = []) (hg : e.outside = false ∨ s.me.checkedBy = none) :
    runEntry f e s = f e s := by
  simp only [runEntry, codeGuard_inside _ _ _ _ hg, runBound, hs, if_true]

/-- An entry that another unit serves stays at the head (10_copies R250, R251). -/
theorem stepHead_served (hq : s.myCtx.viq = e :: r) (hj : e.job.isSome = true) : stepHead f s = (s, false) := by
  simp only [stepHead, hq, hj, Bool.true_or, if_true]

/-- An entry that nothing holds back is run. -/
theorem stepHead_runs (hq : s.myCtx.viq = e :: r) (hj : e.job = none) (hb : s.copyBlocks e = false)
    (hs : s.myCtx.streams = []) (hg : e.outside = false ∨ s.me.checkedBy = none) : stepHead f s =
      match f e s with
      | .done u => (completeHead e u, true)
      | .trap t u => (u.takeTrap s.cur true t, false)
      | .wait _ u => (u, false) := by
  simp only [stepHead, hq, hj, hb, Option.isSome_none, Bool.or_self, Bool.false_eq_true, if_false,
    runEntry_plain hs hg] <;> rfl

/-- The unit stops where the head does not complete. -/
theorem drain_stops (h : stepHead effectOf s = (u, false)) : drain s = u := by
  have hd : drain s = drainFuel (64 + 1) s := rfl
  rw [hd, drainFuel]
  simp only [h, Bool.false_eq_true, if_false]

/-- The unit stops at an empty queue. -/
theorem drain_empty (h : s.myCtx.viq = []) : drain s = s := drain_stops (by simp only [stepHead, h])

theorem completeHead_viq (e : VEntry) (s : State) : (completeHead e s).myCtx.viq = s.myCtx.viq.drop 1 := by
  simp only [completeHead, State.myCtx_withMe, Ctx.withHart_viq, State.myCtx_withMyCtx]

end head

section issue

variable {s : State} {i : Instr} {n : Nat} {reads writes : List SReg} {early late : State → Option Trap}

/-- An instruction for the queue on another hart is Illegal (02_machine R20). -/
theorem issueV_other (he : early s = none) (hk : s.cur.kind ≠ .ch) :
    issueV i n reads writes early late s = .next (s.scalarTrap (illegal s 7 0)) := by
  unfold issueV
  rw [he]
  refine onlyOn_other s ?_
  simpa using hk

/-- On the compute hart the issue is that of an instruction whose registers are ready. -/
theorem issueV_ready (he : early s = none) (hl : late (s.reading reads) = none) (hk : s.cur.kind = .ch)
    (hr : s.Ready reads writes) : issueV i n reads writes early late s =
      ((if s.myCtx.viq.length < 64 then Res.done (drain (s.issued i n reads writes))
        else .wait false (s.reading reads)).settle s s.me.unread).outcome := by
  have hread : (s.reading reads).readS = s.readS := by funext r; exact State.readS_reading s reads r
  have hviq : (s.reading reads).myCtx.viq = s.myCtx.viq := by rw [State.reading, State.myCtx_withMe, Ctx.withHart_viq]
  unfold issueV
  rw [he]
  simp only
  rw [onlyOn_ch _ _ hk, framed_ready _ _ _ _ hr.1 hr.2.1]
  simp only [hl, hviq, State.issued, hread]
  rfl

theorem issueV_full (he : early s = none) (hl : late (s.reading reads) = none) (hk : s.cur.kind = .ch)
    (hr : s.Ready reads writes) (hfull : 64 ≤ s.myCtx.viq.length) :
    issueV i n reads writes early late s = .next (s.here.waitHere false) := by
  rw [issueV_ready he hl hk hr, if_neg (Nat.not_lt.2 hfull), ← State.reading_undone s reads]
  rfl

theorem issueV_pushes (he : early s = none) (hl : late (s.reading reads) = none) (hk : s.cur.kind = .ch)
    (hr : s.Ready reads writes) (hroom : s.myCtx.viq.length < 64) :
    issueV i n reads writes early late s = .next (drain (s.issued i n reads writes)) := by
  rw [issueV_ready he hl hk hr, if_pos hroom]
  rfl

/-- The queue behind the entries under way (02_machine R20). -/
theorem State.viq_issued_behind : (s.issued i n reads writes).myCtx.viq = s.myCtx.viq ++ [s.entryOf i reads] := by
  simp [State.issued, State.pushEntry, State.advance, State.reading, State.entryOf, Ctx.entry]

theorem State.pc_issued : (s.issued i n reads writes).me.pc = s.me.pc + BitVec.ofNat 64 n := by
  have hpush : ((s.reading reads).pushEntry i (reads.map s.readS) writes).me.pc = s.me.pc := by
    have hh : (s.reading reads).myCtx.hart s.cur.kind = s.me.clearRead reads := State.me_reading s reads
    simp only [State.pushEntry, State.me_withMe, State.me_withMyCtx, Hart.markBusy, State.cur_reading, Ctx.hart_viq, hh,
      Hart.clearRead]
  simp only [State.issued, State.advance, State.me_withMe, hpush]

/-- What the vector unit needs of an entry issued alone, but for its effect. -/
theorem State.VReady.head (h : s.VReady reads writes) : (s.issued i n reads writes).myCtx.viq = [s.entryOf i reads] ∧
    (s.issued i n reads writes).copyBlocks (s.entryOf i reads) = false ∧ (s.issued i n reads writes).myCtx.streams = [] ∧
    ((s.entryOf i reads).outside = false ∨ (s.issued i n reads writes).me.checkedBy = none) := by
  obtain ⟨hk, hq, hs, hr, hc⟩ := h
  refine ⟨State.viq_issued s i n reads writes hq, State.copyBlocks_none _ _ ?_, ?_, ?_⟩
  · simpa [State.issued, State.pushEntry, State.advance, State.reading, State.copyQueue] using hc
  · simpa [State.issued, State.pushEntry, State.advance, State.reading] using hs
  · rw [checkedBy_issued]
    exact hr.2.2

/-- The issue of an entry on an empty queue: the vector unit runs it in the same step (notes/assumptions/17). -/
theorem issueV_runs (he : early s = none) (hl : late (s.reading reads) = none) (h : s.VReady reads writes) :
    issueV i n reads writes early late s = .next (drain (s.issued i n reads writes)) := by
  refine issueV_pushes he hl h.1 h.2.2.2.1 ?_
  rw [show s.myCtx.viq = [] from h.2.1]
  exact Nat.zero_lt_succ _

theorem State.VReady.stepHead_issued (h : s.VReady reads writes) : stepHead effectOf (s.issued i n reads writes) =
    match effectOf (s.entryOf i reads) (s.issued i n reads writes) with
    | .done u => (completeHead (s.entryOf i reads) u, true)
    | .trap t u => (u.takeTrap s.cur true t, false)
    | .wait _ u => (u, false) := by
  obtain ⟨hq, hb, hs, hg⟩ := State.VReady.head h (i := i) (n := n)
  exact stepHead_runs hq rfl hb hs hg

/-- An entry issued alone that traps at VCP. -/
theorem State.VReady.drain_trap (h : s.VReady reads writes) {t : Trap} {u : State}
    (hu : effectOf (s.entryOf i reads) (s.issued i n reads writes) = .trap t u) :
    drain (s.issued i n reads writes) = u.takeTrap s.cur true t :=
  drain_stops (by rw [h.stepHead_issued, hu])

/-- An entry issued alone that waits in the queue. -/
theorem State.VReady.drain_wait (h : s.VReady reads writes) {y : Bool} {u : State}
    (hu : effectOf (s.entryOf i reads) (s.issued i n reads writes) = .wait y u) :
    drain (s.issued i n reads writes) = u :=
  drain_stops (by rw [h.stepHead_issued, hu])

end issue

/-- ILL of the VTYPE that an entry carries comes before all its other checks (06_vector R122). -/
theorem vecCheck_ill {c : Ctx} {e : VEntry} {fmts : List Nat} {masks : List MReg} {spans : List Span}
    (h : e.ill = true) : vecCheck c e fmts masks spans = some { cause := .illvtype } := if_pos h

theorem exec_vadd (xs : BitVec 1) (k : MReg) (d a : VReg) (b : BitVec 5) (s : State) : exec (.vadd xs k d a b) s =
    issueV (.vadd xs k d a b) 4 (if xs = 1 then [b] else []) [] noCheck noCheck s := rfl

theorem exec_vabs (k : MReg) (d a : VReg) (s : State) :
    exec (.vabs k d a) s = issueV (.vabs k d a) 4 [] [] noCheck noCheck s := rfl

end Sys2Proof.Machine

namespace Sys2Proof

open Machine

/-- Settles O42: where the issue ends, at the wrong hart, at a full queue, behind the entries under way, or at once. -/
theorem vectorQueue : Obligations.VectorQueue := by
  unfold Obligations.VectorQueue
  refine ⟨fun s xs k d a b hk => ⟨illegal s 7 0, rfl, rfl, ?_, ?_⟩, fun s k d a hk hr hfull => ?_,
    fun s k d a e r hk hr hq hj hroom => ?behind, fun s k d a h hill => ?ill⟩
  · rw [exec_vadd, issueV_other rfl hk]
  · rw [exec_vabs, issueV_other rfl hk]
  · rw [exec_vabs, issueV_full rfl rfl hk hr hfull]
  case behind =>
    have hview : (s.issued (.vabs k d a) 4 [] []).myCtx.viq = s.myCtx.viq ++ [s.entryOf (.vabs k d a) []] :=
      State.viq_issued_behind
    refine ⟨s.issued (.vabs k d a) 4 [] [], ?_, State.pc_issued, rfl, hview⟩
    have hd : drain (s.issued (.vabs k d a) 4 [] []) = s.issued (.vabs k d a) 4 [] [] :=
      drain_stops (stepHead_served (hview.trans (by rw [hq]; rfl)) hj)
    rw [exec_vabs, issueV_pushes rfl rfl hk hr hroom, hd]
  case ill =>
    have hu : effectOf (s.entryOf (.vabs k d a) []) (s.issued (.vabs k d a) 4 [] []) =
        .trap { cause := .illvtype } (s.issued (.vabs k d a) 4 [] []) := by
      have hc := fun c fmts masks spans => vecCheck_ill (c := c) (fmts := fmts) (masks := masks) (spans := spans)
        (show (s.entryOf (.vabs k d a) []).ill = true from hill)
      simp only [effectOf, entryOf_instr, effVabs, vecUnary, hc, vChecked]
    refine ⟨{ cause := .illvtype }, rfl, ?_⟩
    rw [exec_vabs, issueV_runs rfl rfl h, h.drain_trap hu]

end Sys2Proof
end

section
/-! SUPPORT. The control registers: what CSRR reads, when a write is made, waits or traps, and what it leaves (02_machine
R30–R34; 03_encoding R60; 05_scalar R110). -/

namespace Sys2Proof.Machine

section reads

variable (s : State)

/-- A read of scalar registers changes no control register. -/
theorem State.csrValue_reading (rs : List SReg) (r : Csr) : (s.reading rs).csrValue r = s.csrValue r := by
  have hctx : (s.reading rs).ctx s.cur.cid = s.myCtx.withHart s.cur.kind (s.me.clearRead rs) := s.myCtx_withMe _
  have hg : (s.reading rs).grpid s.cur.cid = s.grpid s.cur.cid := by
    simp only [State.grpid, hctx, Ctx.withHart_kernel, Ctx.withHart_member, State.myCtx]
    rfl
  have hme : (s.reading rs).me = s.me.clearRead rs := s.me_reading rs
  have hmy : (s.reading rs).myCtx = s.myCtx.withHart s.cur.kind (s.me.clearRead rs) := s.myCtx_withMe _
  cases r <;> simp only [State.csrValue, hmy, hme, State.cur_reading, hg, Ctx.vtypeNow, Ctx.trapvecWord, Ctx.coridWord,
    Ctx.reuseTenant, Ctx.withHart_core, Ctx.withHart_slot, Ctx.withHart_super, Ctx.withHart_tenant, Ctx.withHart_vl,
    Ctx.withHart_vtype, Ctx.withHart_epoch, Ctx.withHart_vfill, Ctx.withHart_maxlen, Ctx.withHart_vcp, Ctx.withHart_spc,
    Ctx.withHart_trapvec, Ctx.withHart_handler, Ctx.withHart_viq, Ctx.withHart_xtsel, Ctx.withHart_migva,
    Ctx.withHart_migstat, Ctx.withHart_rutsel] <;> rfl

theorem State.grpid_of_kernel {cid : Nat} {k : Kernel} (h : s.kernel (s.ctx cid).kernel = some k) :
    s.grpid cid = BitVec.ofNat 64 (k.group * 2 ^ 32 + k.size * 2 ^ 16 + (s.ctx cid).member) := by
  simp only [State.grpid, h]

theorem afterEntries_quiet (p : Instr → Bool) (k : State → Res) (h : s.Quiet) : afterEntries p k s = k s := by
  simp only [afterEntries, show s.myCtx.viq = [] from h, List.any_nil, Bool.false_eq_true, and_false, if_false]

/-- CSRR with no entry under way (R60). -/
theorem execCsrr_reads {d : SReg} {r : Csr} (hq : s.Quiet) (hp : s.Plain) (h : s.Ready [] [d]) :
    execCsrr d r s = .next ((s.reading []).retire 4 d (s.csrValue r)) := by
  refine scalar_done _ _ _ _ _ h ?_
  have hq' := s.quiet_reading [] hq
  have hl : (s.reading []).vlPending = false := by
    simp only [State.vlPending, show (s.reading []).myCtx.viq = [] from hq', List.any_nil, Bool.and_false]
  have hi : ∀ k, (if csrImpure r = true then impureOnly 5 else id) k (s.reading []) = k (s.reading []) := by
    intro k
    split
    · exact impureOnly_plain s [] k 5 hp
    · rfl
  have hw : ∀ k, (if csrReadWaits r = true then afterViqEmpty else id) k (s.reading []) = k (s.reading []) := by
    intro k
    split
    · exact afterEntries_quiet (s.reading []) _ k hq'
    · rfl
  rw [hi]
  simp only [hl, Bool.false_eq_true, and_false, if_false, hw, s.csrValue_reading []]

end reads

section writes

variable {s : State} {i : Instr} {f : Word → Word → Word} {r : Csr} {a : SReg}

/-- A trap of a scalar instruction leaves the reads undone (notes/assumptions/13); with no entry under way it is taken. -/
theorem scalar_trap {reads writes : List SReg} {k : State → Res} {t : Trap} (h : s.Ready reads writes) (hq : s.Quiet)
    (hk : k (s.reading reads) = .trap t (s.reading reads)) : scalar reads writes k s = .next (s.here.scalarTrap t) := by
  have hl : s.trapsLater = false := by
    simp only [State.trapsLater, show s.myCtx.viq = [] from hq, List.isEmpty_nil, Bool.not_true, Bool.and_false]
  rw [scalar_ready _ _ _ _ h, hk, ← State.reading_undone s reads]
  simp only [Res.settle, hl, Bool.false_eq_true, if_false, Res.outcome]

/-- The hart may write the register (02_machine R30). -/
structure State.MayWrite (s : State) (r : Csr) : Prop where
  user : s.myCtx.super = false → csrUser r = true
  super : csrSuper r = true
  vector : r = .vfill ∨ r = .maxlen → s.cur.kind = .ch

/-- The registers that USER may write. -/
theorem csrUser_false : csrUser r = false ↔ r ≠ .fflags ∧ r ≠ .vfill := by cases r <;> simp [csrUser]

/-- Code at SUPER may write a register of its own on every hart. -/
theorem State.MayWrite.of_super (hs : s.myCtx.super = true) (hr : csrSuper r = true) (hv : r ≠ .vfill) (hm : r ≠ .maxlen) :
    s.MayWrite r :=
  ⟨fun hu => absurd (hs.symm.trans hu) (by decide), hr, fun h => (h.elim hv hm).elim⟩

/-- The privileged registers that are written at once. -/
theorem csrSuper_direct (hr : r ∈ [Csr.vcp, .spc, .trapinfo, .trapaddr, .trapvec, .xtsel, .xroot, .hotctl, .hotres, .hotlog,
    .hotstat, .migva, .rutsel]) : csrSuper r = true ∧ r ≠ .vfill ∧ r ≠ .maxlen ∧ ∀ c x, csrPends c r x = false := by
  revert hr
  cases r <;> simp [csrSuper, csrPends]

/-- The registers that no code may write. -/
theorem csrSuper_readOnly (hr : r ∈ [Csr.pc, .vl, .vtype, .hb, .grpid, .corid, .hartid, .tenant, .turncap, .xwalk,
    .migstat]) : csrSuper r = false ∧ ¬ (r = .vfill ∨ r = .maxlen) := by
  revert hr
  cases r <;> simp [csrSuper]

theorem super_reading (rs : List SReg) : (s.reading rs).myCtx.super = s.myCtx.super := by
  rw [State.reading, State.myCtx_withMe, Ctx.withHart_super]

theorem csrPends_reading (rs : List SReg) (r : Csr) (x : Word) :
    csrPends (s.reading rs).myCtx r x = csrPends s.myCtx r x := by
  have hm : (s.reading rs).myCtx.migstat = s.myCtx.migstat := by
    rw [State.reading, State.myCtx_withMe, Ctx.withHart_migstat]
  cases r <;> simp only [csrPends, Ctx.migBusy, hm]

/-- The state of a hart whose write of a register another unit is to do. -/
def State.holdCsr (s : State) (r : Csr) (x : Word) : State :=
  s.withMe { s.me with pendCsr := some (r, x &&& csrMask r) }

/-- The write of a register other than MAXLEN by a hart that may write it, where no write of the hart waits. -/
theorem csrWrite_allowed (hw : s.MayWrite r) (hm : r ≠ .maxlen) (hn : s.me.pendCsr = none) (hq : s.Quiet)
    (h : s.Ready [a] []) : csrWrite i f r a s =
      ((if ¬ (r = .fflags ∨ r = .vfill) ∧ csrPends s.myCtx r (f (s.csrValue r) (s.readS a)) = true then
          .wait false ((s.reading [a]).holdCsr r (f (s.csrValue r) (s.readS a)))
        else .done (((s.reading [a]).setCsr r (f (s.csrValue r) (s.readS a))).advance 4) : Res).settle
        s s.me.unread).outcome := by
  have hu : ¬ (s.myCtx.super = false ∧ csrUser r = false) := by
    rintro ⟨h1, h2⟩
    rw [hw.user h1] at h2
    cases h2
  have hv : ¬ ((r = .vfill ∨ r = .maxlen) ∧ s.cur.kind ≠ .ch) := fun hx => hx.2 (hw.vector hx.1)
  have hpend : (s.me.clearRead [a]).pendCsr = none := hn
  rw [csrWrite, scalar_ready _ _ _ _ h]
  simp only [super_reading, State.cur_reading, State.me_reading, Bool.not_eq_true', hu, hw.super, hv, hpend,
    Option.isSome_none, Bool.false_eq_true, if_false, Bool.true_eq_false, State.csrValue_reading, State.readS_reading,
    csrPends_reading, afterViqEmpty, afterEntries_quiet (s.reading [a]) _ _ (s.quiet_reading [a] hq)]
  rw [if_neg hm]
  by_cases hr : r = .fflags ∨ r = .vfill
  · rw [if_pos hr, if_neg (fun hx => hx.1 hr)]
  · simp only [hr, if_false, not_false_iff, true_and, State.holdCsr, State.me_reading]

/-- A write that is made at once. -/
theorem csrWrite_now (hw : s.MayWrite r) (hm : r ≠ .maxlen) (hn : s.me.pendCsr = none) (hq : s.Quiet)
    (h : s.Ready [a] []) (hp : csrPends s.myCtx r (f (s.csrValue r) (s.readS a)) = false) :
    csrWrite i f r a s = .next (((s.reading [a]).setCsr r (f (s.csrValue r) (s.readS a))).advance 4) := by
  rw [csrWrite_allowed hw hm hn hq h, hp, if_neg (by simp)]
  rfl

/-- The moving hart of an instruction that waits: what it holds, but for its reads. -/
theorem State.me_undone {u : State} (hc : u.cur = s.cur) (un : List Nat) :
    (u.withHart s.cur { u.hart s.cur with unread := un }).me = { u.me with unread := un } := by
  rw [← hc]
  exact State.me_withMe u _

/-- A write that another unit does: the hart waits (09_page R202, R207; 17_reuse R384, R385). -/
theorem csrWrite_pends (hw : s.MayWrite r) (hm : r ≠ .maxlen) (hu : csrUser r = false) (hn : s.me.pendCsr = none)
    (hq : s.Quiet) (h : s.Ready [a] []) (hp : csrPends s.myCtx r (f (s.csrValue r) (s.readS a)) = true) :
    ∃ u, csrWrite i f r a s = .next u ∧ u.me.pc = s.me.pc ∧
      u.me.pendCsr = some (r, f (s.csrValue r) (s.readS a) &&& csrMask r) ∧ u.mem = s.mem := by
  have hr : ¬ (r = .fflags ∨ r = .vfill) := by
    rintro (rfl | rfl) <;> cases hu
  have hh : ∀ x, ((s.reading [a]).holdCsr r x).me = { s.me.clearRead [a] with pendCsr := some (r, x &&& csrMask r) } :=
    fun x => by rw [State.holdCsr, State.me_withMe, State.me_reading]
  rw [csrWrite_allowed hw hm hn hq h, if_pos ⟨hr, hp⟩]
  refine ⟨_, rfl, ?_, ?_, ?mem⟩
  case mem => rw [State.mem_waitHere, State.withHart_mem, State.holdCsr, State.withMe_mem, State.reading, State.withMe_mem]
  all_goals rw [State.me_waitHere, State.me_undone (s := s) (u := (s.reading [a]).holdCsr r _) rfl, hh]
  rfl

/-- A write that USER may not make (R30). -/
theorem csrWrite_user (hs : s.myCtx.super = false) (hu : csrUser r = false) (hq : s.Quiet) (h : s.Ready [a] []) :
    csrWrite i f r a s = .next (s.here.scalarTrap (illegal (s.reading [a]) 6 0)) := by
  refine scalar_trap h hq ?_
  simp only [super_reading, hs, hu, Bool.not_false, and_self, if_true]

/-- A write that no code may make (R30). -/
theorem csrWrite_readOnly (hs : s.myCtx.super = true) (hr : csrSuper r = false) (hq : s.Quiet) (h : s.Ready [a] []) :
    csrWrite i f r a s = .next (s.here.scalarTrap (illegal (s.reading [a]) 5 0)) := by
  refine scalar_trap h hq ?_
  simp only [super_reading, hs, hr, Bool.not_true, Bool.false_eq_true, false_and, if_false, Bool.not_false, if_true]

/-- A write of VFILL or MAXLEN on another hart than the compute hart (R30). -/
theorem csrWrite_otherHart (hk : s.cur.kind ≠ .ch) (hr : r = .vfill ∨ (r = .maxlen ∧ s.myCtx.super = true)) (hq : s.Quiet)
    (h : s.Ready [a] []) : csrWrite i f r a s = .next (s.here.scalarTrap (illegal (s.reading [a]) 7 0)) := by
  refine scalar_trap h hq ?_
  rcases hr with rfl | ⟨rfl, hs⟩
  · simp only [csrUser, csrSuper, State.cur_reading, Bool.not_true, Bool.false_eq_true, and_false, if_false, true_or,
      ne_eq, hk, not_false_iff, and_self, if_true]
  · simp only [super_reading, hs, csrSuper, State.cur_reading, Bool.not_true, Bool.false_eq_true, false_and, if_false,
      or_true, ne_eq, hk, not_false_iff, and_self, if_true]

end writes

section set

variable (s : State) (x : Word)

/-- A change of the context that leaves its harts leaves the moving hart. -/
theorem State.me_withMyCtx_same {c : Ctx} (h : c.hart s.cur.kind = s.myCtx.hart s.cur.kind) :
    (s.withMyCtx c).me = s.me := (s.me_withMyCtx c).trans h

theorem tenant_withTenant_other (t t' : Nat) (y : Tenant) (h : t' ≠ t) : (s.withTenant t y).tenant t' = s.tenant t' := by
  simp only [State.tenant, State.withTenant, tget_tput_other _ _ _ _ h]

theorem State.dieOf_withDie (d : Nat) (y : Die) : (s.withDie d y).dieOf d = y := by
  simp only [State.dieOf, State.withDie, tget_tput_same, Option.getD_some]

/-- What a write of a control register leaves alone. -/
theorem State.setCsr_keeps (r : Csr) : (s.setCsr r x).mem = s.mem ∧ (s.setCsr r x).gran = s.gran ∧
    (s.setCsr r x).me.regs = s.me.regs ∧ (s.setCsr r x).me.pc = s.me.pc ∧ (s.setCsr r x).hb = s.hb := by
  have hctx : ∀ c : Ctx, c.hart s.cur.kind = s.myCtx.hart s.cur.kind → (s.withMyCtx c).mem = s.mem ∧
      (s.withMyCtx c).gran = s.gran ∧ (s.withMyCtx c).me.regs = s.me.regs ∧ (s.withMyCtx c).me.pc = s.me.pc ∧
      (s.withMyCtx c).hb = s.hb := by
    intro c hc
    rw [s.me_withMyCtx_same hc]
    exact ⟨rfl, rfl, rfl, rfl, rfl⟩
  have hme : ∀ h : Hart, h.regs = s.me.regs → h.pc = s.me.pc → (s.withMe h).mem = s.mem ∧
      (s.withMe h).gran = s.gran ∧ (s.withMe h).me.regs = s.me.regs ∧ (s.withMe h).me.pc = s.me.pc ∧
      (s.withMe h).hb = s.hb := by
    intro h hr hp
    rw [s.me_withMe]
    exact ⟨rfl, rfl, hr, hp, rfl⟩
  cases r
  case fflags | trapinfo | trapaddr => exact hme _ rfl rfl
  case vfill | vcp | spc | trapvec | xtsel | migva | rutsel =>
    refine hctx _ ?_
    cases s.cur.kind <;> rfl
  all_goals exact ⟨rfl, rfl, rfl, rfl, rfl⟩

end set

theorem exec_csrw (r : Csr) (a : SReg) (s : State) :
    exec (.csrw r a) s = csrWrite (.csrw r a) (fun _ y => y) r a s := rfl
theorem exec_csrs (r : Csr) (a : SReg) (s : State) :
    exec (.csrs r a) s = csrWrite (.csrs r a) (fun x y => x ||| y) r a s := rfl
theorem exec_csrc (r : Csr) (a : SReg) (s : State) :
    exec (.csrc r a) s = csrWrite (.csrc r a) (fun x y => x &&& ~~~y) r a s := rfl

end Sys2Proof.Machine

namespace Sys2Proof

open Machine

/-- Settles O24: a write is made, waits or traps by `csrWrite_now`, `csrWrite_pends` and the three traps; what it leaves and
what CSRR reads are said register by register. -/
theorem controlRegisters : Obligations.ControlRegisters := by
  unfold Obligations.ControlRegisters
  refine ⟨fun s d a r hq hp => ⟨fun h => execCsrr_reads s hq hp h, fun h hn => ⟨?now, ?pends, ?done⟩⟩, fun s x => ?set,
    fun s a r h hq hs hf hv => ?user, fun s a r h hq hr => ?traps, fun s => ?reads⟩
  case now =>
    intro hr
    have hw : s.MayWrite r ∧ r ≠ .maxlen ∧ ∀ x, csrPends s.myCtx r x = false := by
      rcases hr with rfl | ⟨rfl, hk⟩ | ⟨hs, hr⟩
      · exact ⟨⟨fun _ => rfl, rfl, by simp⟩, by simp, fun _ => rfl⟩
      · exact ⟨⟨fun _ => rfl, rfl, fun _ => hk⟩, by simp, fun _ => rfl⟩
      · obtain ⟨hsup, hv, hm, hx⟩ := csrSuper_direct hr
        exact ⟨.of_super hs hsup hv hm, hm, hx _⟩
    obtain ⟨hw, hm, hx⟩ := hw
    rw [exec_csrw, exec_csrs, exec_csrc]
    exact ⟨csrWrite_now hw hm hn hq h (hx _), csrWrite_now hw hm hn hq h (hx _), csrWrite_now hw hm hn hq h (hx _)⟩
  case pends =>
    intro hs hr
    have hw : s.MayWrite r ∧ r ≠ .maxlen ∧ csrUser r = false ∧ csrPends s.myCtx r (s.readS a) = true := by
      rcases hr with rfl | rfl | ⟨rfl, hb⟩ | ⟨rfl, hb, hbusy⟩
      · exact ⟨.of_super hs rfl (by simp) (by simp), by simp, rfl, rfl⟩
      · exact ⟨.of_super hs rfl (by simp) (by simp), by simp, rfl, rfl⟩
      · exact ⟨.of_super hs rfl (by simp) (by simp), by simp, rfl, decide_eq_true hb⟩
      · refine ⟨.of_super hs rfl (by simp) (by simp), by simp, rfl, ?_⟩
        simp only [csrPends, hb, Ctx.migBusy, decide_eq_false hbusy]
        rfl
    obtain ⟨hw, hm, hr, hx⟩ := hw
    rw [exec_csrw]
    exact csrWrite_pends hw hm hr hn hq h hx
  case done =>
    intro hs hr
    have hw : s.MayWrite r ∧ r ≠ .maxlen ∧ csrPends s.myCtx r (s.readS a) = false ∧
        (s.reading [a]).setCsr r (s.readS a) = s.reading [a] := by
      rcases hr with ⟨rfl, hb⟩ | ⟨rfl, hb | hb⟩
      · exact ⟨.of_super hs rfl (by simp) (by simp), by simp, decide_eq_false (not_not.2 hb), rfl⟩
      · refine ⟨.of_super hs rfl (by simp) (by simp), by simp, ?_, rfl⟩
        simp only [csrPends, hb, Bool.false_and]
      · refine ⟨.of_super hs rfl (by simp) (by simp), by simp, ?_, rfl⟩
        simp only [csrPends, Ctx.migBusy, decide_eq_true hb, Bool.not_true, Bool.and_false]
    obtain ⟨hw, hm, hx, hset⟩ := hw
    rw [exec_csrw, csrWrite_now hw hm hn hq h hx, hset]
  case set =>
    have ones : ∀ y, y = x &&& BitVec.allOnes 64 → y = x := fun y hy => hy.trans BitVec.and_allOnes
    exact ⟨congrArg Hart.fflags (s.me_withMe _), ones _ (congrArg Ctx.vfill (s.myCtx_withMyCtx _)),
      ones _ (congrArg Ctx.vcp (s.myCtx_withMyCtx _)), congrArg Ctx.spc (s.myCtx_withMyCtx _),
      congrArg Hart.trapinfo (s.me_withMe _), ones _ (congrArg Hart.trapaddr (s.me_withMe _)),
      congrArg Ctx.trapvec (s.myCtx_withMyCtx _), congrArg Ctx.xtsel (s.myCtx_withMyCtx _),
      congrArg Tenant.xroot (s.tenant_withTenant _ _), fun t' ht => tenant_withTenant_other _ _ _ _ ht,
      congrArg Die.hotctl (s.dieOf_withDie _ _), congrArg Die.hotres (s.dieOf_withDie _ _),
      ones _ (congrArg Die.hotlog (s.dieOf_withDie _ _)), ones _ (congrArg Die.hotstat (s.dieOf_withDie _ _)),
      ones _ (congrArg Ctx.migva (s.myCtx_withMyCtx _)), congrArg Ctx.rutsel (s.myCtx_withMyCtx _), s.setCsr_keeps x⟩
  case user =>
    have hu : csrUser r = false := csrUser_false.2 ⟨hf, hv⟩
    rw [exec_csrw, exec_csrs, exec_csrc]
    exact ⟨_, rfl, rfl, csrWrite_user hs hu hq h, csrWrite_user hs hu hq h, csrWrite_user hs hu hq h⟩
  case traps =>
    rw [exec_csrw, exec_csrs, exec_csrc]
    rcases hr with ⟨hs, hr⟩ | ⟨hk, hr⟩
    · have hro := csrSuper_readOnly hr
      refine ⟨illegal (s.reading [a]) 5 0, rfl, ?_, csrWrite_readOnly hs hro.1 hq h, csrWrite_readOnly hs hro.1 hq h,
        csrWrite_readOnly hs hro.1 hq h⟩
      rw [if_neg hro.2]
      rfl
    · refine ⟨illegal (s.reading [a]) 7 0, rfl, ?_, csrWrite_otherHart hk hr hq h, csrWrite_otherHart hk hr hq h,
        csrWrite_otherHart hk hr hq h⟩
      rw [if_pos (hr.imp_right And.left)]
      rfl
  case reads =>
    refine ⟨rfl, rfl, ?kind, rfl, fun k hk => ?group, rfl, fun hq => ?vtypeNow, rfl, rfl, rfl, rfl, rfl, rfl, rfl, rfl,
      rfl, rfl, rfl, rfl, rfl, rfl, rfl, rfl, rfl, rfl, rfl, rfl, rfl, rfl⟩
    case kind =>
      unfold State.csrValue
      cases s.cur.kind <;> rfl
    case group =>
      exact s.grpid_of_kernel hk
    case vtypeNow =>
      simp only [State.csrValue, Ctx.vtypeNow, hq, List.any_nil, Bool.false_eq_true, if_false, vtypeWord]

end Sys2Proof
end

section
/-! SUPPORT. VCONF and VCONF.R: what they do, and the state that tells it from the statement (03_encoding R54, R55). -/

namespace Sys2Proof.Machine

section vconf

variable (s : State) {reads : List SReg} {d a : SReg} {req : State → BitVec 10}

theorem Ctx.hart_configure (c : Ctx) (req : BitVec 10) (ask : Word) (k : HartKind) :
    (c.configure req ask).1.hart k = c.hart k := by
  simp only [Ctx.configure]
  split <;> cases k <;> rfl

/-- VCONF and VCONF.R with no entry under way: the context that the reads have left is configured (R54, R55). -/
theorem vconfOp_configures (hk : s.cur.kind = .ch) (hq : s.Quiet) (h : s.Ready reads [d]) :
    vconfOp d reads req a s = .next (((s.reading reads).withMyCtx
      ((s.reading reads).myCtx.configure (req (s.reading reads)) (s.readS a)).1).retire 4 d
      ((s.reading reads).myCtx.configure (req (s.reading reads)) (s.readS a)).2) := by
  rw [vconfOp, onlyOn_ch _ _ hk]
  refine scalar_done _ _ _ _ _ h ?_
  rw [afterEntries_quiet _ _ _ (s.quiet_reading reads hq), State.readS_reading]

theorem exec_vconf (wid : BitVec 3) (sat rm : BitVec 2) (grp : BitVec 3) (d a : SReg) : exec (.vconf wid sat rm grp d a) s =
    vconfOp d [a] (fun _ => wid ++ sat ++ rm ++ grp) a s := rfl

theorem State.unread_retire (n : Nat) (x : Word) : (s.retire n d x).me.unread = s.me.unread := by
  rw [State.me_retire, Hart.writeS_rest]

end vconf

/-- A reset compute hart with an unread error in s1 (12_context R287). -/
def unreadS1 : State := State.reset.withMe { Hart.reset with unread := [1] }

end Sys2Proof.Machine

namespace Sys2Proof

open Machine

/-- Refutes O34 in its clause on VCONF: a VCONF that reads s1 clears the unread-error bit of s1 (12_context R287), as every
read does, where the statement puts back the hart as it stood before the read, with that bit still set. -/
theorem not_vectorConfiguration : ¬ Obligations.VectorConfiguration := by
  unfold Obligations.VectorConfiguration
  rintro ⟨hconf, -⟩
  obtain ⟨hvconf, -⟩ := hconf unreadS1 0 0 0 0 2 1 0 rfl rfl
  obtain ⟨hclaimed, -⟩ := hvconf (by decide)
  have hstated := hclaimed (by decide)
  rw [exec_vconf, vconfOp_configures unreadS1 rfl rfl (by decide)] at hstated
  have hsame := congrArg (fun u => u.me.unread) (Host.Outcome.next.inj hstated)
  simp only [State.unread_retire, State.me_withMyCtx, Ctx.hart_configure] at hsame
  exact absurd hsame (by decide)

end Sys2Proof
end

section
/-! SUPPORT. VSCADD: its targets, its wait in the queue, and the update that ends it (06_vector R138; 10_copies R251). -/

namespace Sys2Proof.Machine

section effect

variable {s : State} {k : MReg} {d b : VReg} {e : VEntry} {a : SReg}

/-- VSCADD whose operands pass their checks, in no pure task. -/
theorem effVscadd_plain (hp : s.Plain) (hv : vecCheck s.myCtx e [] [k] [s.myCtx.span d, s.myCtx.span b] = none)
    (ht : scaddType (s.myCtx.regType d) = true) : effVscadd k d b e s =
      (scaddTargets s.myCtx k d b e s).elim s
        (fun t => if scaddLeft e t = [] then scaddEnd t.fault s else .wait false s) := by
  have hc : memCheck s.myCtx e k [s.myCtx.span d, s.myCtx.span b] (!scaddType (s.myCtx.regType d)) = none := by
    simp only [memCheck, hv, ht, Bool.not_true, Bool.false_eq_true, if_false]
  simp only [effVscadd, vChecked_none _ _ _ hc, show s.me.checkedBy = none from hp, ite_self]

theorem effVscadd_waits {x : Scatter} (hp : s.Plain)
    (hv : vecCheck s.myCtx e [] [k] [s.myCtx.span d, s.myCtx.span b] = none)
    (ht : scaddType (s.myCtx.regType d) = true) (hx : scaddTargets s.myCtx k d b e s = .ok x)
    (hl : scaddLeft e x ≠ []) : effVscadd k d b e s = .wait false s := by
  rw [effVscadd_plain hp hv ht, hx]
  exact if_neg hl

/-- The targets of a VSCADD with no active element: there are none, and no fault. -/
theorem scaddTargets_inactive {c : Ctx} (hs : e.scatter = none) (ha : c.actives e k = []) :
    scaddTargets c k d b e s = .ok { targets := [], fault := none } := by
  simp only [scaddTargets, hs, Ctx.pendingElems, ha, List.filter_nil, scaddChecks, MemRes.bind, List.foldl_nil]

end effect

section issue

variable {s : State} {k : MReg} {d b : VReg} {a : SReg}

theorem exec_vscadd (k : MReg) (d : VReg) (a : SReg) (b : VReg) (s : State) : exec (.vscadd k d a b) s =
    issueV (.vscadd k d a b) 4 [a] [] noCheck noCheck s := rfl

/-- The effect of a VSCADD issued alone, by the registers as they stood at its issue. -/
theorem effectOf_vscadd_issued (hk : s.cur.kind = .ch) (hp : s.Plain)
    (hv : vecCheck s.myCtx (s.entryOf (.vscadd k d a b) [a]) [] [k] [s.myCtx.span d, s.myCtx.span b] = none)
    (ht : scaddType (s.myCtx.regType d) = true) :
    effectOf (s.entryOf (.vscadd k d a b) [a]) (s.issued (.vscadd k d a b) 4 [a] []) =
      (scaddTargets s.myCtx k d b (s.entryOf (.vscadd k d a b) [a]) (s.issued (.vscadd k d a b) 4 [a] [])).elim
        (s.issued (.vscadd k d a b) 4 [a] []) (fun t =>
          if scaddLeft (s.entryOf (.vscadd k d a b) [a]) t = [] then
            scaddEnd t.fault (s.issued (.vscadd k d a b) 4 [a] [])
          else .wait false (s.issued (.vscadd k d a b) 4 [a] [])) := by
  obtain ⟨h, hctx⟩ := issued_myCtx s (.vscadd k d a b) 4 [a] [] hk
  have hp' : (s.issued (.vscadd k d a b) 4 [a] []).Plain := (checkedBy_issued s _ 4 [a] []).trans hp
  have heff := effVscadd_plain (k := k) (d := d) (b := b) (e := s.entryOf (.vscadd k d a b) [a]) hp'
    (by rw [hctx]; exact hv) (by rw [hctx]; exact ht)
  rw [hctx] at heff
  exact heff

end issue

section update

variable {s : State} {k : MReg} {d b : VReg} {a : SReg} {e : VEntry} {ts : Scatter} {n : Nat} {t : Target} {pl : Place}

theorem syncWrite_cur (w : Who) (pa : Nat) (bs : List Byte) : (s.syncWrite w pa bs).cur = s.cur :=
  (writeCopy_ctxs ..).2

theorem syncWrite_myCtx (w : Who) (pa : Nat) (bs : List Byte) : (s.syncWrite w pa bs).myCtx = s.myCtx := by
  simp only [State.myCtx, State.ctx, syncWrite_cur,
    show (s.syncWrite w pa bs).ctxs = s.ctxs from (writeCopy_ctxs ..).1]

/-- What the update of a target adds to it at the home slice (R138): the bits that it stores, and its flags. -/
def State.scaddSum (s : State) (d : VReg) (e : VEntry) (t : Target) (pa : Nat) : Nat × FFlags :=
  scaddCombine (s.myCtx.regType d) e (natOfBytes (s.memBytes pa (s.myCtx.regWidth d / 8))) t.part

/-- The flags of a VSCADD once a target has been updated. -/
def State.scaddFlags (s : State) (d : VReg) (e : VEntry) (t : Target) (pa : Nat) : BitVec 5 :=
  e.flags ||| t.flags ||| (s.scaddSum d e t pa).2.toBits

/-- The state in which the last target of a VSCADD, alone in the queue, has been updated at its home slice. -/
def State.scaddLast (s : State) (d : VReg) (e : VEntry) (ts : Scatter) (n : Nat) (t : Target) (pa : Nat) : State :=
  (s.syncWrite (s.who s.cur) pa (bytesOfNat (s.myCtx.regWidth d / 8) (s.scaddSum d e t pa).1)).withMyCtx { s.myCtx with
    viq := [{ e with scatter := some ts, marks := insertNat e.marks n, flags := s.scaddFlags d e t pa }] }

theorem scaddLast_mem {pa : Nat} : (s.scaddLast d e ts n t pa).mem =
    (s.syncWrite (s.who s.cur) pa (bytesOfNat (s.myCtx.regWidth d / 8) (s.scaddSum d e t pa).1)).mem := rfl

theorem raise_mem (s : State) (m : BitVec 6) (f : FFlags) : (s.raise m f).mem = s.mem := rfl

/-- The update of the last target ends the instruction, whose flags are raised (02_machine R33). -/
theorem scatterOne_last (hq : s.myCtx.viq = [e]) (hx : scaddTargets s.myCtx k d b e s = .ok ts)
    (hl : scaddLeft e ts = [n]) (hn : ts.targets[n]? = some t) (hf : ts.fault = none)
    (hc : s.atomicCheck (s.who s.cur) 2 .rmw (s.myCtx.regWidth d / 8) t.va (s.myCtx.regWidth d / 8) = .ok pl)
    (hm : s.migrating .sync pl.pa = false)
    (hb : s.behind s.myCtx.core .sync pl.pa (s.myCtx.regWidth d / 8) = false) (choice : Nat) :
    scatterOne choice k d b e s =
      .done ((s.scaddLast d e ts n t pl.pa).raise 0x36 (FFlags.ofBits (s.scaddFlags d e t pl.pa))) := by
  have hupdate : scaddUpdate s.myCtx d e ts n t true pl.pa s =
      .done ((s.scaddLast d e ts n t pl.pa).raise 0x36 (FFlags.ofBits (s.scaddFlags d e t pl.pa))) := by
    simp only [scaddUpdate, hm, hb, Bool.false_eq_true, or_self, if_false, if_true, syncWrite_myCtx, hq, modifyAt,
      scaddEnd, hf, State.myCtx_withMyCtx, List.head?_cons, Option.map_some, Option.getD_some]
    rfl
  simp only [scatterOne, hx, MemRes.elim, hl, List.length_singleton, Nat.mod_one, List.getElem?_cons_zero,
    Option.bind_some, hn, Option.map_some, hc, decide_true, hupdate]

end update

section complete

variable (e : VEntry) (s : State)

theorem completeHead_cur : (completeHead e s).cur = s.cur := rfl

theorem completeHead_mem : (completeHead e s).mem = s.mem := rfl

theorem completeHead_v : (completeHead e s).myCtx.v = s.myCtx.v := by
  simp only [completeHead, State.myCtx_withMe, Ctx.withHart_v, State.myCtx_withMyCtx]

theorem completeHead_fflags : (completeHead e s).me.fflags = s.me.fflags := by
  simp only [completeHead, State.me_withMe, State.me_withMyCtx, Ctx.hart_viq]
  rfl

/-- What another agent leaves of a context that it has acted for, once the move is its own hart's again. -/
theorem State.ctx_givenBack {u : State} {r : HartRef} (h : u.cur = r) (r' : HartRef) :
    ({ u with cur := r' } : State).ctx r.cid = u.myCtx := by
  subst h
  rfl

theorem State.hart_givenBack {u : State} {r : HartRef} (h : u.cur = r) (r' : HartRef) :
    ({ u with cur := r' } : State).hart r = u.me := by
  subst h
  rfl

/-- The service of an entry alone in the queue, where that completes it: it leaves the queue, and no entry follows. -/
theorem serveHead_completes {s u : State} {cid : Nat} {e : VEntry} {f : VEntry → State → Res}
    (h : stepHead f { s with cur := { cid := cid, kind := .ch } } = (completeHead e u, true))
    (hv : u.myCtx.viq.drop 1 = []) : s.serveHead cid f = { completeHead e u with cur := s.cur } := by
  have hd : drain (completeHead e u) = completeHead e u := drain_empty ((completeHead_viq e u).trans hv)
  simp only [State.serveHead, State.asHart, h, hd, ite_self]

end complete

section serve

variable {s : State} {k : MReg} {d b : VReg} {a : SReg} {e : VEntry} {r : List VEntry}

/-- How SCATTER_UPDATE runs a VSCADD: by its own effect, and where that waits by the update of one target. -/
def scaddServed (k : MReg) (d b : VReg) (e : VEntry) (s : State) : Res :=
  match effVscadd k d b e s with
  | .wait _ s' => scatterOne s.evArg.b k d b e s'
  | r => r

theorem execScatterUpdate_serves (hq : (s.ctx s.evArg.a).viq = e :: r) (hi : e.instr = .vscadd k d a b)
    (hr : (s.ctx s.evArg.a).vectorRuns = true) :
    execScatterUpdate s = .next (s.serveHead s.evArg.a (scaddServed k d b)) := by
  simp only [execScatterUpdate, hq, hi, Ctx.headRuns, hr, Bool.true_or, if_true]
  rfl

end serve

end Sys2Proof.Machine

namespace Sys2Proof

open Machine

/-- Settles O37: a VSCADD is seen through its targets, at its issue and at the update that leaves none. -/
theorem scatterAdds : Obligations.ScatterAdds := by
  unfold Obligations.ScatterAdds
  refine ⟨fun s k d b a hp => ?issue, fun s e k d b a n t pl => ?update, fun c k d b e s x hx => ?begun⟩
  case issue =>
    intro c i e hv ht
    have heff := fun h : s.VReady [a] [] => effectOf_vscadd_issued (s := s) (k := k) (d := d) (b := b) (a := a) h.1 hp hv ht
    refine ⟨fun hact => ?_, fun x hx hl h => ?_, fun hx h => ?_⟩
    · refine entryGives_of s i 4 [a] [] noCheck noCheck _ (exec_vscadd k d a b s) rfl rfl (fun h => ?_) (raise_viq _ _ _)
      rw [heff h, scaddTargets_inactive rfl hact]
      have hviq := State.viq_issued s i 4 [a] [] h.2.1
      simp only [MemRes.elim, scaddLeft, List.length_nil, List.range_zero, List.filter_nil, if_true, scaddEnd]
      rw [hviq, show FFlags.none = FFlags.ofBits 0 by decide]
      rfl
    · rw [exec_vscadd, issueV_runs rfl rfl h, h.drain_wait (y := false) (u := s.issued i 4 [a] [])]
      rw [heff h, hx]
      exact if_neg hl
    · rw [exec_vscadd, issueV_runs rfl rfl h, h.drain_wait (y := false) (u := s.issued i 4 [a] [])]
      rw [heff h, hx]
      rfl
  case update =>
    intro s1 c w ts hx hq hi hj hs hr hp hcopy hv ht hf hl hn hc hm hb r
    have hrun : stepHead (scaddServed k d b) s1 =
        (completeHead e ((s1.scaddLast d e ts n t pl.pa).raise 0x36 (FFlags.ofBits (s1.scaddFlags d e t pl.pa))), true) := by
      rw [stepHead_runs hq hj (State.copyBlocks_none s1 e hcopy) hs (.inr hp), scaddServed,
        effVscadd_waits hp hv ht hx (by rw [hl]; exact List.cons_ne_nil _ _)]
      simp only [scatterOne_last hq hx hl hn hf hc hm hb]
    have hviq : ((s1.scaddLast d e ts n t pl.pa).raise 0x36
        (FFlags.ofBits (s1.scaddFlags d e t pl.pa))).myCtx.viq.drop 1 = [] := by
      rw [raise_viq, State.scaddLast, State.myCtx_withMyCtx]
      rfl
    have hcur : ((s1.scaddLast d e ts n t pl.pa).raise 0x36 (FFlags.ofBits (s1.scaddFlags d e t pl.pa))).cur = s1.cur :=
      syncWrite_cur _ _ _
    have hctx := State.ctx_givenBack ((completeHead_cur e _).trans hcur) s.cur
    have hhart := State.hart_givenBack ((completeHead_cur e _).trans hcur) s.cur
    refine ⟨_, (execScatterUpdate_serves (s := s) hq hi hr).trans
      (congrArg _ (serveHead_completes (s := s) hrun hviq)), rfl, ?_, ?_, ?_, ?_⟩
    · rw [hctx, completeHead_viq]
      exact hviq
    · rw [completeHead_mem, raise_mem, scaddLast_mem]
      rfl
    · rw [hctx, completeHead_v, State.raise, State.myCtx_withMe, Ctx.withHart_v, State.scaddLast, State.myCtx_withMyCtx]
    · rw [hhart, completeHead_fflags, State.raise, State.me_withMe, State.scaddLast, State.me_withMyCtx, syncWrite_cur,
        Ctx.hart_viq]
      rfl
  case begun =>
    simp only [scaddTargets, hx]

end Sys2Proof
end

section
/-! SUPPORT. Writes and interruptions leave the kernels (13_kernel R308). -/

namespace Sys2Proof.Machine

section keeps

variable (s : State)

theorem countDrops_kernels (l : List Nat) : (s.countDrops l).kernels = s.kernels := by
  induction l generalizing s with
  | nil => rfl
  | cons t r ih => exact ih _

theorem writePiece_kernels (kind : PageKind) (pa : Nat) (bs : List Byte) (w : Nat) (l : Level) (t : Nat) :
    (s.writePiece kind pa bs w l t).kernels = s.kernels := by
  simp only [State.writePiece, State.checkWatches, countDrops_kernels]
  split <;> split <;> rfl

theorem ringPut_kernels {s u : State} {base : Nat} {tail : Word} {ws : List Word} (h : s.ringPut base tail ws = some u) :
    u.kernels = s.kernels := by
  simp only [State.ringPut] at h
  split at h <;> cases h
  rfl

theorem logEvent_kernels (t : EventType) (tenant core : Nat) (l : Level) (addr detail : Word) :
    (s.logEvent t tenant core l addr detail).kernels = s.kernels := by
  unfold State.logEvent
  split
  · rfl
  · dsimp only
    split
    next s1 h1 => exact ringPut_kernels h1
    next =>
      split
      next s1 h1 => exact (ringPut_kernels h1).trans rfl
      next => rfl

theorem writeBlock_kernels (kind : PageKind) (pa : Nat) (bs : List Byte) (w : Nat) (l : Level) (t : Nat) :
    (s.writeBlock kind pa bs w l t).kernels = s.kernels := by
  unfold State.writeBlock
  split
  · exact logEvent_kernels ..
  · exact foldl_keeps State.kernels _ (fun _ _ => writePiece_kernels ..) _ _

theorem writeCopy_kernels (kind : PageKind) (pa : Nat) (bs : List Byte) (w : Nat) (l : Level) (t : Nat) :
    (s.writeCopy kind pa bs w l t).kernels = s.kernels :=
  foldl_keeps State.kernels _ (fun _ _ => writeBlock_kernels ..) _ _

theorem multicast_kernels (pl : Place) (bs : List Byte) (part : Option (Nat × Nat)) (w : Who) (l : Level) :
    (s.multicast pl bs part w l).kernels = s.kernels :=
  foldl_keeps State.kernels (fun s pa => s.sendPacket w l part bs pa) (fun _ _ => rfl) _ _

theorem writePlace_kernels (pl : Place) (bs : List Byte) (w : Who) (l : Level) (lo : Bool) :
    (s.writePlace pl bs w l lo).kernels = s.kernels := by
  unfold State.writePlace
  split
  · split
    · exact (multicast_kernels ..).trans (writeCopy_kernels ..)
    · exact foldl_keeps State.kernels _ (fun _ _ => writeCopy_kernels ..) _ _
  · exact writeCopy_kernels ..

theorem writeRegion_kernels (w : Who) (l : Level) (lo : Bool) (a : Nat) (bs : List Byte) (r : Region) :
    (s.writeRegion w l lo a bs r).kernels = s.kernels := by
  match r with
  | .window true _ => rfl
  | .window false _ => rfl
  | .pages _ => exact foldl_keeps State.kernels _ (fun _ _ => writePlace_kernels ..) _ _

theorem splitWrite_kernels (x : Split) (w : Who) (js : List Nat) : (x.write w js s).kernels = s.kernels := by
  unfold Split.write
  split
  · exact writeRegion_kernels ..
  · exact foldl_keeps State.kernels _ (fun _ _ => writeRegion_kernels ..) _ _

theorem finishStore_kernels (r : HartRef) : (s.finishStore r).kernels = s.kernels := by
  unfold State.finishStore
  split
  · rfl
  · exact splitWrite_kernels ..

theorem interrupt_kernels (r : HartRef) : (s.interrupt r).kernels = s.kernels :=
  finishStore_kernels s r

end keeps

section interrupt

variable {s : State}

/-- The harts of a context have no store under way (05_scalar R100). -/
def State.NoStore (s : State) (cid : Nat) : Prop := ∀ k, ((s.ctx cid).hart k).split = none

theorem finishStore_none {r : HartRef} (h : (s.hart r).split = none) : s.finishStore r = s := by
  simp only [State.finishStore, h]

theorem interrupt_mem {cid : Nat} (h : s.NoStore cid) (k : HartKind) :
    (s.interrupt { cid := cid, kind := k }).mem = s.mem := by
  simp only [State.interrupt, finishStore_none (r := { cid := cid, kind := k }) (h k), State.withHart_mem]

theorem State.NoStore.interrupt {cid : Nat} (h : s.NoStore cid) (k : HartKind) :
    (s.interrupt { cid := cid, kind := k }).NoStore cid := by
  intro j
  have hs : (s.interrupt { cid := cid, kind := k }).ctx cid = (s.ctx cid).withHart k
      { (s.ctx cid).hart k with twait := none, barwait := none, fenceHb := none, part := [], yielding := false,
                                pure := ((s.ctx cid).hart k).pure.map PureState.interrupted } := by
    simp only [State.interrupt, finishStore_none (r := { cid := cid, kind := k }) (h k)]
    exact State.ctx_withCtx s cid _
  rw [hs]
  by_cases hj : j = k
  · rw [hj, Ctx.hart_withHart]
    exact h k
  · rw [Ctx.hart_withHart_other _ _ _ _ hj]
    exact h j

end interrupt

theorem State.modKernel_eq {s : State} {k : Nat} {x : Kernel} {f : Kernel → Kernel} (h : s.kernel k = some x) :
    s.modKernel k f = s.withKernel k (f x) := by
  simp only [State.modKernel, h]

section save

variable (s : State) (cid : Nat)

/-- The state in which the three harts of a context have been interrupted. -/
def State.interruptAll : State :=
  [HartKind.ch, .fh, .dh].foldl (fun (s : State) h => s.interrupt { cid := cid, kind := h }) s

theorem interruptAll_kernels : (s.interruptAll cid).kernels = s.kernels :=
  foldl_keeps State.kernels _ (fun _ _ => interrupt_kernels ..) _ _

theorem interruptAll_mem (h : s.NoStore cid) : (s.interruptAll cid).mem = s.mem :=
  (interrupt_mem ((h.interrupt .ch).interrupt .fh) .dh).trans
    ((interrupt_mem (h.interrupt .ch) .fh).trans (interrupt_mem h .ch))

/-- A save begins with the harts stopped, the context SAVING and its kernel PREEMPTED (R308). -/
theorem saveContext_eq {x : Kernel} (h : s.kernel (cid / 384) = some x) : s.saveContext cid =
    (((s.interruptAll cid).withCtx cid { (s.interruptAll cid).ctx cid with slotState := .saving }).withKernel (cid / 384)
      { x with state := .preempted }) := by
  have hk : ((s.interruptAll cid).withCtx cid
      { (s.interruptAll cid).ctx cid with slotState := .saving }).kernel (cid / 384) = some x := by
    rw [State.kernel, State.withCtx_kernels, interruptAll_kernels]
    exact h
  exact State.modKernel_eq hk

end save

end Sys2Proof.Machine
end

section
/-! SUPPORT. The scheduler's moves, one equation a branch (13_kernel R305–R309, R313, R314). -/

namespace Sys2Proof.Machine

section placement

variable {s : State} {k : Nat} {x : Kernel} {rest : List (Nat × Kernel)} {cores : List Nat}

/-- The order of R305 depends on the kernels alone. -/
theorem State.queued_of_kernels {s u : State} (h : u.kernels = s.kernels) : u.queued = s.queued := by
  simp only [State.queued, State.inOrder, h]

theorem updateReserve_kernels : s.updateReserve.kernels = s.kernels := by
  unfold State.updateReserve
  dsimp only
  split
  · rfl
  · split <;> rfl

/-- Where the head of the order is below effective priority 7, reservations only end (notes/assumptions/51). -/
theorem updateReserve_low (h : s.queued = (k, x) :: rest) (he : x.eff < 7) : s.updateReserve =
    { s with reserve := s.reserve.filter (fun e => (s.kernel e.1).any (fun x => decide (x.state = .queued))) } := by
  have hq : ({ s with reserve := s.reserve.filter (fun e => (s.kernel e.1).any (fun x => decide (x.state = .queued))) } :
      State).queued = (k, x) :: rest := (State.queued_of_kernels rfl).trans h
  simp only [State.updateReserve, hq, Nat.ne_of_lt he, false_and, if_false]

theorem updateReserve_same (h : s.queued = (k, x) :: rest) (hr : s.reserve = []) (he : x.eff < 7) :
    s.updateReserve = s := by
  rw [updateReserve_low h he, hr, List.filter_nil, ← hr]

theorem execPlacement_places (h : s.queued = (k, x) :: rest) (hf : s.updateReserve.fit k x = some cores)
    (hr : s.updateReserve.kernels.any
      (fun y => s.updateReserve.restorable y.1 y.2 && decide (x.eff ≤ y.2.eff)) = false) :
    execPlacement s = .next (s.updateReserve.place k x cores).updateReserve := by
  have hq := (State.queued_of_kernels updateReserve_kernels).trans h
  simp only [execPlacement, hq, List.findSome?_cons, hf, Option.map_some, hr, Bool.false_eq_true, if_false]

/-- A kernel that has been placed. -/
theorem place_kernel : ∃ y, (s.place k x cores).kernel k = some y ∧ y.state = .placed ∧ y.eff = x.prio ∧
    y.cores = cores ∧ y.startAt =
      if bit x.rcd.shape 5 then some (if x.rcd.tick.toNat ≤ s.hb.toNat then s.hb + 1 else x.rcd.tick) else none := by
  refine ⟨_, tget_tput_same _ _ _, rfl, rfl, rfl, ?_⟩
  by_cases hb : bit x.rcd.shape 5 = true
  · simp only [hb, if_true, Bool.true_and, decide_eq_true_eq]
  · simp only [hb, if_false, Bool.false_eq_true]

end placement

section preemption

variable {s : State} {k : Nat} {x : Kernel} {rest : List (Nat × Kernel)}

theorem execPreemption_saves (h : s.queued = (k, x) :: rest) {ws : List Nat} (hn : s.nextSave = none)
    (hf : s.fit k x = none) (hs : s.ctxs.any (fun e => decide (e.2.slotState = .saving)) = false)
    (hw : s.chooseVictims k x (s.victims x.eff) = some ws) :
    execPreemption s = .next (ws.foldl (fun s w => (s.savable w).head?.elim s s.saveContext) s) := by
  simp only [execPreemption, hn, h, hf, hs, Option.isSome_none, Bool.false_eq_true, or_self, if_false, hw]

theorem execPreemption_next {cid : Nat} (h : s.nextSave = some cid) : execPreemption s = .next (s.saveContext cid) := by
  simp only [execPreemption, h]

end preemption

section kernel

/-- The states in which a kernel's ticks count against WATCH (R314). -/
theorem Kernel.counts_iff (x : Kernel) :
    x.counts = true ↔ x.state = .running ∨ x.state = .preempted ∨ x.state = .draining := by
  unfold Kernel.counts
  cases x.state <;> simp

variable {s : State} {x : Kernel} (h : s.kernel s.evArg.a = some x)
include h

theorem execAgingStep_ages (hx : x.state = .queued ∨ x.state = .preempted) : execAgingStep s =
    .next (s.withKernel s.evArg.a { x with eff := min 7 (x.eff + 1) }).updateReserve := by
  simp only [execAgingStep, h, hx, if_true]

/-- Which of two timed kernels yields the start (R309; notes/assumptions/96). -/
theorem yieldsStart_iff {l : Nat} {y : Kernel} (hl : s.kernel l = some y) : s.yieldsStart s.evArg.a l = true ↔
    s.evArg.a ≠ l ∧ x.startAt = y.startAt ∧ (y.prio < x.prio ∨ (y.prio = x.prio ∧ x.placedAt < y.placedAt)) ∧
      s.shareCore s.evArg.a l = true := by
  simp only [State.yieldsStart, h, hl, Kernel.startsFirst, Bool.and_eq_true, Bool.or_eq_true, decide_eq_true_eq, and_assoc]

theorem execLaunchTick_early {t : Word} (hx : x.state = .placed) (ht : x.startAt = some t) (hb : s.hb.toNat < t.toNat) :
    execLaunchTick s = .next s := by
  simp only [execLaunchTick, h, hx, ht, Nat.not_le.2 hb, if_false]

theorem execKernelRetire_retires (hx : x.state = .draining) (ho : x.owed = false) (he : x.expired = false)
    (hw : s.writesLeft s.evArg.a = false) (ht : s.traps.any (fun t => t.ref.ofKernel s.evArg.a) = false)
    (hc : (s.ctxsOf s.evArg.a).any (fun cid => [HartKind.ch, .fh, .dh].any (fun h =>
      !((s.ctx cid).hart h).engErr.isEmpty)) = false) :
    execKernelRetire s = .next (s.endKernel s.evArg.a .retired 0) := by
  simp only [execKernelRetire, h, ho, Bool.false_eq_true, if_false, hx, he, hw, ht, hc, reduceCtorEq, ne_eq,
    not_true_eq_false, or_self]

theorem execKernelRetire_expired (ho : x.owed = false) (hx : x.state ≠ .running) (he : x.expired = true) :
    execKernelRetire s = .next s := by
  simp only [execKernelRetire, h, ho, Bool.false_eq_true, if_false, hx, he, true_or, or_true, if_true]

theorem execKernelRetire_running (ho : x.owed = false) (hx : x.state = .running) : execKernelRetire s =
    .next (if s.quiet s.evArg.a x then s.withKernel s.evArg.a { x with state := .draining } else s) := by
  simp only [execKernelRetire, h, ho, Bool.false_eq_true, if_false, hx, if_true, State.drainQuiet, true_and]

theorem execKernelRetire_owed (ho : x.owed = true) (hw : s.writesLeft s.evArg.a = false) (hc : s.complWaits x = false) :
    execKernelRetire s = .next ((s.withKernel s.evArg.a { x with owed := false }).writeCompletion x) := by
  simp only [execKernelRetire, h, ho, if_true, State.payCompletion, hw, hc, Bool.not_true, Bool.or_self, Bool.false_eq_true,
    if_false]

theorem execWatchdog_kills (hw : x.rcd.watch ≠ 0) (hr : x.rcd.watch.toNat ≤ x.ran) (hx : x.counts = true) :
    execWatchdog s = .next (s.killKernel s.evArg.a 10) := by
  simp only [execWatchdog, h, Kernel.expired, hw, hr, hx, ne_eq, not_false_iff, decide_true,
    Bool.and_self, and_self, if_true]

theorem execWatchdog_off (hw : x.rcd.watch = 0) : execWatchdog s = .next s := by
  simp only [execWatchdog, h, Kernel.expired, hw, ne_eq, not_true_eq_false, decide_false, Bool.false_and, Bool.false_eq_true,
    false_and, if_false]

end kernel

theorem State.ctx_withKernel (s : State) (k : Nat) (x : Kernel) (cid : Nat) : (s.withKernel k x).ctx cid = s.ctx cid := rfl

theorem State.kernel_withKernel (s : State) (k : Nat) (x : Kernel) : (s.withKernel k x).kernel k = some x :=
  tget_tput_same _ _ _

theorem exec_launchTick (s : State) : exec .launchTick s = execLaunchTick s := rfl

/-- The ticks of a kernel after a heartbeat (R314). -/
theorem Kernel.ran_ticked (e : Nat × Kernel) :
    (if e.2.counts = true then (e.1, { e.2 with ran := e.2.ran + 1 }) else e).2.ran =
      if e.2.state = .running ∨ e.2.state = .preempted ∨ e.2.state = .draining then e.2.ran + 1 else e.2.ran := by
  simp only [← Kernel.counts_iff]
  split <;> rfl

end Sys2Proof.Machine

namespace Sys2Proof

open Machine

/-- Settles O56, clause by clause: each clause is the branch of the scheduler's move that it names. -/
theorem kernelEvents : Obligations.KernelEvents := by
  unfold Obligations.KernelEvents
  refine ⟨fun s k x rest hq =>
      ⟨fun ws => execPreemption_saves hq, fun cores => execPlacement_places hq, updateReserve_same hq⟩,
    fun s cid => execPreemption_next, fun s cid x h => ?save, fun s k x cores => place_kernel,
    fun s x h => ⟨execAgingStep_ages h, fun t hx ht hb => ?launch, fun l y => yieldsStart_iff h,
      fun t => execLaunchTick_early h, execKernelRetire_retires h, execKernelRetire_expired h,
      execKernelRetire_running h, execKernelRetire_owed h,
      fun hw hr hx => execWatchdog_kills h hw hr (x.counts_iff.2 hx), execWatchdog_off h⟩,
    fun s hd => ?due, fun s hd => ?tick⟩
  case save =>
    rw [saveContext_eq s cid h]
    refine ⟨?_, fun hn => ?_, ?_⟩
    · rw [State.ctx_withKernel, State.ctx_withCtx]
    · rw [State.withKernel_mem, State.withCtx_mem, interruptAll_mem s cid hn]
    · rw [State.kernel_withKernel]
      rfl
  case launch =>
    rw [exec_launchTick]
    simp only [execLaunchTick, h, hx, ht, hb, if_true]
  case due =>
    exact if_pos hd
  case tick =>
    refine ⟨_, if_neg (by rw [hd]; exact Bool.false_ne_true), rfl, rfl, rfl, rfl, ?_⟩
    exact List.map_map.trans (List.map_congr_left fun e _ => Kernel.ran_ticked e)

end Sys2Proof
end

section

/-! The decoder and the encoder (03_encoding R43–R51): what the decoder reads from an instruction's encoding, its first check,
and the step that runs what it reads. -/

namespace Sys2Proof.Laws

/-- The decoder reads back what the encoder writes: one case a row of the opcode table, the rows without an encoding excluded. -/
theorem decode_encode (i : Instr) (hw : i.wf = true) (he : i.isEvent = false) : decode (encode i) = .ok i := by
  cases i with
  | add d a b => exact Roundtrip.add d a b hw he
  | sub d a b => exact Roundtrip.sub d a b hw he
  | and d a b => exact Roundtrip.and d a b hw he
  | or d a b => exact Roundtrip.or d a b hw he
  | xor d a b => exact Roundtrip.xor d a b hw he
  | sll d a b => exact Roundtrip.sll d a b hw he
  | srl d a b => exact Roundtrip.srl d a b hw he
  | sra d a b => exact Roundtrip.sra d a b hw he
  | setlt d a b => exact Roundtrip.setlt d a b hw he
  | setltu d a b => exact Roundtrip.setltu d a b hw he
  | min d a b => exact Roundtrip.min d a b hw he
  | max d a b => exact Roundtrip.max d a b hw he
  | minu d a b => exact Roundtrip.minu d a b hw he
  | maxu d a b => exact Roundtrip.maxu d a b hw he
  | andn d a b => exact Roundtrip.andn d a b hw he
  | orn d a b => exact Roundtrip.orn d a b hw he
  | rol d a b => exact Roundtrip.rol d a b hw he
  | ror d a b => exact Roundtrip.ror d a b hw he
  | mul d a b => exact Roundtrip.mul d a b hw he
  | mulhiSs d a b => exact Roundtrip.mulhiSs d a b hw he
  | mulhiUu d a b => exact Roundtrip.mulhiUu d a b hw he
  | mulhiSu d a b => exact Roundtrip.mulhiSu d a b hw he
  | div d a b => exact Roundtrip.div d a b hw he
  | divu d a b => exact Roundtrip.divu d a b hw he
  | rem d a b => exact Roundtrip.rem d a b hw he
  | remu d a b => exact Roundtrip.remu d a b hw he
  | pmul d a b => exact Roundtrip.pmul d a b hw he
  | pmulhi d a b => exact Roundtrip.pmulhi d a b hw he
  | popc d a => exact Roundtrip.popc d a hw he
  | clz d a => exact Roundtrip.clz d a hw he
  | ctz d a => exact Roundtrip.ctz d a hw he
  | brev d a => exact Roundtrip.brev d a hw he
  | bswap d a => exact Roundtrip.bswap d a hw he
  | addi d a imm => exact Roundtrip.addi d a imm hw he
  | andi d a imm => exact Roundtrip.andi d a imm hw he
  | ori d a imm => exact Roundtrip.ori d a imm hw he
  | xori d a imm => exact Roundtrip.xori d a imm hw he
  | setlti d a imm => exact Roundtrip.setlti d a imm hw he
  | setltiu d a imm => exact Roundtrip.setltiu d a imm hw he
  | slli d a sh => exact Roundtrip.slli d a sh hw he
  | srli d a sh => exact Roundtrip.srli d a sh hw he
  | srai d a sh => exact Roundtrip.srai d a sh hw he
  | rori d a sh => exact Roundtrip.rori d a sh hw he
  | bext d a offset width => exact Roundtrip.bext d a offset width hw he
  | bexts d a offset width => exact Roundtrip.bexts d a offset width hw he
  | bins d a offset width => exact Roundtrip.bins d a offset width hw he
  | li d imm => exact Roundtrip.li d imm hw he
  | li64 d imm => exact Roundtrip.li64 d imm hw he
  | li96 d lo hi => exact Roundtrip.li96 d lo hi hw he
  | la d imm => exact Roundtrip.la d imm hw he
  | beq a b off => exact Roundtrip.beq a b off hw he
  | bne a b off => exact Roundtrip.bne a b off hw he
  | blt a b off => exact Roundtrip.blt a b off hw he
  | bge a b off => exact Roundtrip.bge a b off hw he
  | bltu a b off => exact Roundtrip.bltu a b off hw he
  | bgeu a b off => exact Roundtrip.bgeu a b off hw he
  | jal d imm => exact Roundtrip.jal d imm hw he
  | jalr d a imm => exact Roundtrip.jalr d a imm hw he
  | lb d a off => exact Roundtrip.lb d a off hw he
  | lh d a off => exact Roundtrip.lh d a off hw he
  | lw d a off => exact Roundtrip.lw d a off hw he
  | ld d a off => exact Roundtrip.ld d a off hw he
  | lbu d a off => exact Roundtrip.lbu d a off hw he
  | lhu d a off => exact Roundtrip.lhu d a off hw he
  | lwu d a off => exact Roundtrip.lwu d a off hw he
  | sb d a off => exact Roundtrip.sb d a off hw he
  | sh d a off => exact Roundtrip.sh d a off hw he
  | sw d a off => exact Roundtrip.sw d a off hw he
  | st d a off => exact Roundtrip.st d a off hw he
  | stLocal d a off => exact Roundtrip.stLocal d a off hw he
  | lbL d a off => exact Roundtrip.lbL d a off hw he
  | lhL d a off => exact Roundtrip.lhL d a off hw he
  | lwL d a off => exact Roundtrip.lwL d a off hw he
  | ldL d a off => exact Roundtrip.ldL d a off hw he
  | lbuL d a off => exact Roundtrip.lbuL d a off hw he
  | lhuL d a off => exact Roundtrip.lhuL d a off hw he
  | lwuL d a off => exact Roundtrip.lwuL d a off hw he
  | sbL d a off => exact Roundtrip.sbL d a off hw he
  | shL d a off => exact Roundtrip.shL d a off hw he
  | swL d a off => exact Roundtrip.swL d a off hw he
  | stL d a off => exact Roundtrip.stL d a off hw he
  | stLocalL d a off => exact Roundtrip.stLocalL d a off hw he
  | atomSwap ord d a b => exact Roundtrip.atomSwap ord d a b hw he
  | atomAdd ord d a b => exact Roundtrip.atomAdd ord d a b hw he
  | atomAnd ord d a b => exact Roundtrip.atomAnd ord d a b hw he
  | atomOr ord d a b => exact Roundtrip.atomOr ord d a b hw he
  | atomXor ord d a b => exact Roundtrip.atomXor ord d a b hw he
  | atomMin ord d a b => exact Roundtrip.atomMin ord d a b hw he
  | atomMax ord d a b => exact Roundtrip.atomMax ord d a b hw he
  | atomMinu ord d a b => exact Roundtrip.atomMinu ord d a b hw he
  | atomMaxu ord d a b => exact Roundtrip.atomMaxu ord d a b hw he
  | atomCas ord d a b => exact Roundtrip.atomCas ord d a b hw he
  | ldAcq d a => exact Roundtrip.ldAcq d a hw he
  | stRel a b => exact Roundtrip.stRel a b hw he
  | waitv d a b => exact Roundtrip.waitv d a b hw he
  | psend a => exact Roundtrip.psend a hw he
  | precv d => exact Roundtrip.precv d hw he
  | hbread d => exact Roundtrip.hbread d hw he
  | hbwait a => exact Roundtrip.hbwait a hw he
  | csrr d csr => exact Roundtrip.csrr d csr hw he
  | csrw csr a => exact Roundtrip.csrw csr a hw he
  | csrs csr a => exact Roundtrip.csrs csr a hw he
  | csrc csr a => exact Roundtrip.csrc csr a hw he
  | turn lvl d a b => exact Roundtrip.turn lvl d a b hw he
  | twait d a b timeout => exact Roundtrip.twait d a b timeout hw he
  | cpyin d a b sz bar vdst vg comp toa aoff boff => exact Roundtrip.cpyin d a b sz bar vdst vg comp toa aoff boff hw he
  | cpyout d a b sz bar comp toa aoff boff => exact Roundtrip.cpyout d a b sz bar comp toa aoff boff hw he
  | cpyreg d a b sz bar aux vg comp toa => exact Roundtrip.cpyreg d a b sz bar aux vg comp toa hw he
  | cpyfold d a b sz bar fold ordered comp toa aoff boff => exact Roundtrip.cpyfold d a b sz bar fold ordered comp toa aoff boff hw he
  | scpy d a b sz bar comp toa aoff boff => exact Roundtrip.scpy d a b sz bar comp toa aoff boff hw he
  | exportPage d b => exact Roundtrip.exportPage d b hw he
  | tcpyIn d a b bar comp toa t0 t1 t2 t3 aoff => exact Roundtrip.tcpyIn d a b bar comp toa t0 t1 t2 t3 aoff hw he
  | tcpyOut d a b bar comp toa t0 t1 t2 t3 aoff => exact Roundtrip.tcpyOut d a b bar comp toa t0 t1 t2 t3 aoff hw he
  | sbind d a => exact Roundtrip.sbind d a hw he
  | sfree d => exact Roundtrip.sfree d hw he
  | tspawn a => exact Roundtrip.tspawn a hw he
  | tdep a b d => exact Roundtrip.tdep a b d hw he
  | tdec a => exact Roundtrip.tdec a hw he
  | sfarm a => exact Roundtrip.sfarm a hw he
  | snext d => exact Roundtrip.snext d hw he
  | launch d a => exact Roundtrip.launch d a hw he
  | tsusp a mask => exact Roundtrip.tsusp a mask hw he
  | qcreate d a => exact Roundtrip.qcreate d a hw he
  | qpush d a b => exact Roundtrip.qpush d a b hw he
  | qpop d a b => exact Roundtrip.qpop d a b hw he
  | qinfo d a => exact Roundtrip.qinfo d a hw he
  | qclose a => exact Roundtrip.qclose a hw he
  | barinit a b d => exact Roundtrip.barinit a b d hw he
  | bararr a => exact Roundtrip.bararr a hw he
  | bartx a b => exact Roundtrip.bartx a b hw he
  | barwait a => exact Roundtrip.barwait a hw he
  | bartest d a => exact Roundtrip.bartest d a hw he
  | coll d a b => exact Roundtrip.coll d a b hw he
  | cdreg d a b => exact Roundtrip.cdreg d a b hw he
  | ruquery d a => exact Roundtrip.ruquery d a hw he
  | ruinval a => exact Roundtrip.ruinval a hw he
  | rustat d a => exact Roundtrip.rustat d a hw he
  | ruflush a => exact Roundtrip.ruflush a hw he
  | chsend c a => exact Roundtrip.chsend c a hw he
  | chsendS c a => exact Roundtrip.chsendS c a hw he
  | chrecv d c => exact Roundtrip.chrecv d c hw he
  | chrecvS d c => exact Roundtrip.chrecvS d c hw he
  | vadd xs k d a b => exact Roundtrip.vadd xs k d a b hw he
  | vsub xs k d a b => exact Roundtrip.vsub xs k d a b hw he
  | vmul xs k d a b => exact Roundtrip.vmul xs k d a b hw he
  | vdiv xs k d a b => exact Roundtrip.vdiv xs k d a b hw he
  | vmin xs k d a b => exact Roundtrip.vmin xs k d a b hw he
  | vmax xs k d a b => exact Roundtrip.vmax xs k d a b hw he
  | vand xs k d a b => exact Roundtrip.vand xs k d a b hw he
  | vor xs k d a b => exact Roundtrip.vor xs k d a b hw he
  | vxor xs k d a b => exact Roundtrip.vxor xs k d a b hw he
  | vsll xs k d a b => exact Roundtrip.vsll xs k d a b hw he
  | vsrl xs k d a b => exact Roundtrip.vsrl xs k d a b hw he
  | vsra xs k d a b => exact Roundtrip.vsra xs k d a b hw he
  | vfma xs k d a b => exact Roundtrip.vfma xs k d a b hw he
  | vfms xs k d a b => exact Roundtrip.vfms xs k d a b hw he
  | vabs k d a => exact Roundtrip.vabs k d a hw he
  | vneg k d a => exact Roundtrip.vneg k d a hw he
  | vsqrt k d a => exact Roundtrip.vsqrt k d a hw he
  | vrcp k d a => exact Roundtrip.vrcp k d a hw he
  | vrsq k d a => exact Roundtrip.vrsq k d a hw he
  | vexp2 k d a => exact Roundtrip.vexp2 k d a hw he
  | vlog2 k d a => exact Roundtrip.vlog2 k d a hw he
  | vtanh k d a => exact Roundtrip.vtanh k d a hw he
  | vsigm k d a => exact Roundtrip.vsigm k d a hw he
  | vmov k d a => exact Roundtrip.vmov k d a hw he
  | vceq xs k d a b => exact Roundtrip.vceq xs k d a b hw he
  | vcne xs k d a b => exact Roundtrip.vcne xs k d a b hw he
  | vclt xs k d a b => exact Roundtrip.vclt xs k d a b hw he
  | vcle xs k d a b => exact Roundtrip.vcle xs k d a b hw he
  | vcgt xs k d a b => exact Roundtrip.vcgt xs k d a b hw he
  | vcge xs k d a b => exact Roundtrip.vcge xs k d a b hw he
  | mand d a b => exact Roundtrip.mand d a b hw he
  | mor d a b => exact Roundtrip.mor d a b hw he
  | mxor d a b => exact Roundtrip.mxor d a b hw he
  | mnot d a => exact Roundtrip.mnot d a hw he
  | vmerge xs k d a b => exact Roundtrip.vmerge xs k d a b hw he
  | vcvt k d a => exact Roundtrip.vcvt k d a hw he
  | vqnt k d a => exact Roundtrip.vqnt k d a hw he
  | vhad d a b => exact Roundtrip.vhad d a b hw he
  | vtag sc blk bank type d => exact Roundtrip.vtag sc blk bank type d hw he
  | vconf wid sat rm grp d a => exact Roundtrip.vconf wid sat rm grp d a hw he
  | vconfR d a b => exact Roundtrip.vconfR d a b hw he
  | vld k d a => exact Roundtrip.vld k d a hw he
  | vst k d a => exact Roundtrip.vst k d a hw he
  | vlds k d a b => exact Roundtrip.vlds k d a b hw he
  | vsts k d a b => exact Roundtrip.vsts k d a b hw he
  | vldx k d a b => exact Roundtrip.vldx k d a b hw he
  | vldff k d a => exact Roundtrip.vldff k d a hw he
  | vscadd k d a b => exact Roundtrip.vscadd k d a b hw he
  | vspill d a => exact Roundtrip.vspill d a hw he
  | vreload d a => exact Roundtrip.vreload d a hw he
  | vlenq d => exact Roundtrip.vlenq d hw he
  | scld d a b => exact Roundtrip.scld d a b hw he
  | vslideup k d a b => exact Roundtrip.vslideup k d a b hw he
  | vslidedn k d a b => exact Roundtrip.vslidedn k d a b hw he
  | vshuf xs k d a b => exact Roundtrip.vshuf xs k d a b hw he
  | vcompress k d a => exact Roundtrip.vcompress k d a hw he
  | vsplat k d a => exact Roundtrip.vsplat k d a hw he
  | vins d a b => exact Roundtrip.vins d a b hw he
  | vext d a b => exact Roundtrip.vext d a b hw he
  | vredSum k d a => exact Roundtrip.vredSum k d a hw he
  | vredMin k d a => exact Roundtrip.vredMin k d a hw he
  | vredMax k d a => exact Roundtrip.vredMax k d a hw he
  | vredAnd k d a => exact Roundtrip.vredAnd k d a hw he
  | vredOr k d a => exact Roundtrip.vredOr k d a hw he
  | vredXor k d a => exact Roundtrip.vredXor k d a hw he
  | vredMini k d a => exact Roundtrip.vredMini k d a hw he
  | vredMaxi k d a => exact Roundtrip.vredMaxi k d a hw he
  | vscanAdd k d a cin cout => exact Roundtrip.vscanAdd k d a cin cout hw he
  | vscanMax k d a cin cout => exact Roundtrip.vscanMax k d a cin cout hw he
  | vscanMin k d a cin cout => exact Roundtrip.vscanMin k d a cin cout hw he
  | vscanLin k d a b cin cout => exact Roundtrip.vscanLin k d a b cin cout hw he
  | mop k d a b cmask => exact Roundtrip.mop k d a b cmask hw he
  | mzero d => exact Roundtrip.mzero d hw he
  | mrow k d a row => exact Roundtrip.mrow k d a row hw he
  | mcol k d a row => exact Roundtrip.mcol k d a row hw he
  | mwrow d a row => exact Roundtrip.mwrow d a row hw he
  | dadd d a b => exact Roundtrip.dadd d a b hw he
  | dsub d a b => exact Roundtrip.dsub d a b hw he
  | dmul d a b => exact Roundtrip.dmul d a b hw he
  | dmin d a b => exact Roundtrip.dmin d a b hw he
  | dmax d a b => exact Roundtrip.dmax d a b hw he
  | dfma d a b => exact Roundtrip.dfma d a b hw he
  | daff xs d a b => exact Roundtrip.daff xs d a b hw he
  | dpt d a => exact Roundtrip.dpt d a hw he
  | dset d a b => exact Roundtrip.dset d a b hw he
  | dget d a b => exact Roundtrip.dget d a b hw he
  | dtag d a => exact Roundtrip.dtag d a hw he
  | dmom d a b => exact Roundtrip.dmom d a b hw he
  | dqnt d a b => exact Roundtrip.dqnt d a b hw he
  | dcdf d a b => exact Roundtrip.dcdf d a b hw he
  | dld d a => exact Roundtrip.dld d a hw he
  | dst d a => exact Roundtrip.dst d a hw he
  | fmtset nf a => exact Roundtrip.fmtset nf a hw he
  | hint h => exact Roundtrip.hint h hw he
  | hint64 h p1 => exact Roundtrip.hint64 h p1 hw he
  | hint96 h p1 p2 => exact Roundtrip.hint96 h p1 p2 hw he
  | hint160 h p1 p2 p3 p4 => exact Roundtrip.hint160 h p1 p2 p3 p4 hw he
  | fenceCore => exact Roundtrip.fenceCore hw he
  | fenceQuad => exact Roundtrip.fenceQuad hw he
  | fenceDie => exact Roundtrip.fenceDie hw he
  | fenceDev => exact Roundtrip.fenceDev hw he
  | fenceFab => exact Roundtrip.fenceFab hw he
  | fenceEng => exact Roundtrip.fenceEng hw he
  | fenceSc => exact Roundtrip.fenceSc hw he
  | ecall => exact Roundtrip.ecall hw he
  | ebreak => exact Roundtrip.ebreak hw he
  | eret => exact Roundtrip.eret hw he
  | tdone => exact Roundtrip.tdone hw he
  | _ => cases he

end Sys2Proof.Laws

namespace Sys2Proof

/-! The first check of the decoder (R51): the major opcode is assigned, and the length is the major's. -/

section first

variable {p : Parcel} {r : List Parcel} {l : BitVec 2} {i : Instr}

theorem decode_unassignedMajor (h : majorLen (majField p) (lenField p) = none) :
    decode (p :: r) = .error .unassignedMajor := by
  simp only [decode, h]

theorem decode_lengthMismatch (h : majorLen (majField p) (lenField p) = some l) (hl : l ≠ lenField p) :
    decode (p :: r) = .error .lengthMismatch := by
  simp only [decode, h, if_pos hl]

/-- What the decoder accepts has passed its first check. -/
theorem majorLen_of_decode (h : decode (p :: r) = .ok i) : majorLen (majField p) (lenField p) = some (lenField p) := by
  cases hm : majorLen (majField p) (lenField p) with
  | none =>
    rw [decode_unassignedMajor hm] at h
    cases h
  | some l =>
    by_cases hl : l = lenField p
    · rw [hl]
    · rw [decode_lengthMismatch hm hl] at h
      cases h

end first

namespace Machine

/-! The step of a hart that issues an instruction (R40–R42). -/

section issue

variable {s : State} {p0 : Parcel} {rest : List Parcel} {i : Instr} {n : Nat}

@[simp] theorem MemRes.bind_ok {α β : Type} (a : α) (f : α → MemRes β) : (MemRes.ok a).bind f = f a := rfl

/-- A fetch whose parcels decode finds their instruction, with its length in parcels. -/
theorem State.fetchInstr_of_decode (h0 : s.fetchParcels s.cur s.me.pc.toNat 1 = .ok [p0])
    (hr : if parcelsOfLen (lenField p0) = 1 then rest = []
      else s.fetchParcels s.cur (s.me.pc.toNat + 4) (parcelsOfLen (lenField p0) - 1) = .ok rest)
    (hd : decode (p0 :: rest) = .ok i) : s.fetchInstr = .ok (i, parcelsOfLen (lenField p0)) := by
  have tail : (if parcelsOfLen (lenField p0) = 1 then MemRes.ok []
      else s.fetchParcels s.cur (s.me.pc.toNat + 4) (parcelsOfLen (lenField p0) - 1)) = .ok rest := by
    split
    next hn => rw [if_pos hn] at hr; rw [hr]
    next hn => rwa [if_neg hn] at hr
  simp only [State.fetchInstr, h0, MemRes.bind_ok, majorLen_of_decode hd, ne_eq, not_true_eq_false, if_false, tail, hd]

/-- The next move of a device without a schedule is the instruction of the moving hart, where the hart may issue and has no
work of its vector unit and no store under way before it. -/
theorem State.nextMove_runInstr (hq : s.sched = []) (hy : s.yieldNow = false) (hi : s.canIssue s.cur = true)
    (hv : s.vectorMoves = false) (hs : s.me.split = none) : s.nextMove = s.runInstr := by
  simp only [State.nextMove, hq, hy, hi, State.turn, hv, hs, Bool.not_true, Bool.or_self, Bool.false_eq_true, if_false]

theorem State.runInstr_of_fetch (h : s.fetchInstr = .ok (i, n)) :
    s.runInstr = afterExec s.me.pc s.windows (exec i { s.nowRunning with outside := s.outsideCode n }) := by
  simp only [State.runInstr, h]

theorem step_corrected (hf : s.frozen = false) : step s = s.corrected State.nextMove := by
  simp only [step, State.stopped, hf, Bool.false_and, Bool.false_eq_true, if_false]

theorem State.corrected_next {f : State → Host.Outcome State Fault Refusal} {t : State} (h : f s = .next t) :
    s.corrected f = .next ((s.soft.filter (s.reads f)).foldl State.logCorrected t) := by
  simp only [State.corrected, h]

/-- Where memory holds no error that the controller corrects, nothing is logged. -/
theorem State.corrected_of_soft_nil (f : State → Host.Outcome State Fault Refusal) (h : s.soft = []) :
    s.corrected f = f s := by
  cases ho : f s with
  | next t => rw [State.corrected_next ho, h]; rfl
  | fault x => simp only [State.corrected, ho]
  | refused x => simp only [State.corrected, ho]

end issue

end Machine

open Machine

/-- Settles O3: each row of the opcode table that has an encoding is read back by its major's table. -/
theorem roundTrip : Obligations.RoundTrip := by
  unfold Obligations.RoundTrip
  exact Laws.decode_encode

/-- Settles O1: the hart's turn is its next instruction, the fetch finds the one that the parcels decode to, and the step adds
the corrections. -/
theorem stepRunsDecoded : Obligations.StepRunsDecoded := by
  unfold Obligations.StepRunsDecoded
  intro s p0 rest i hq hf hy hi hv hs h0 hr hd o
  have move : s.nextMove = o :=
    (State.nextMove_runInstr hq hy hi hv hs).trans (State.runInstr_of_fetch (State.fetchInstr_of_decode h0 hr hd))
  refine ⟨move, fun hsoft => ?_, fun t ht => ?_⟩
  · rw [step_corrected hf, State.corrected_of_soft_nil _ hsoft, move]
  · rw [step_corrected hf, State.corrected_next (move.trans ht)]

/-- Settles O2: each word of the manual is decoded, and the refusals are the two branches of the decoder's first check. -/
theorem decoding : Obligations.Decoding := by
  unfold Obligations.Decoding
  exact ⟨⟨by decide, by decide, by decide, by decide, by decide, by decide, by decide⟩,
    rfl, fun _ _ => decode_unassignedMajor, fun _ _ _ => decode_lengthMismatch⟩

end Sys2Proof
end

section
/-! SUPPORT. An entry issued alone, whose effect reads the context as it stood at its issue; its front-end traps; VHAD and
the matrix engine, one equation an instruction (07_matrix R145–R154, R160; 03_encoding R50). -/

namespace Sys2Proof.Machine

section issue

variable {s : State} {i : Instr} {n : Nat} {reads writes : List SReg} {early late : State → Option Trap}

/-- The completion of an entry by an effect F of the context's data, under a check P of them: the issue changes neither, as
they look at no queue and at no register of the compute hart. -/
theorem entryGives_of_data {P : Ctx → Prop} {F : Ctx → State → State}
    (hex : exec i s = issueV i n reads writes early late s) (he : early s = none) (hl : late (s.reading reads) = none)
    (heff : ∀ t, P t.myCtx → effectOf (s.entryOf i reads) t = .done (F t.myCtx t))
    (hP : ∀ q h, P { s.myCtx with viq := q, ch := h })
    (hF : ∀ q h, F { s.myCtx with viq := q, ch := h } = F s.myCtx)
    (hv : ∀ t, (F s.myCtx t).myCtx.viq = t.myCtx.viq) : entryGives s i n reads writes (F s.myCtx) := by
  refine entryGives_of s i n reads writes early late _ hex he hl (fun hready => ?_) (hv _)
  obtain ⟨h, hctx⟩ := issued_myCtx s i n reads writes hready.1
  rw [heff _ (hctx ▸ hP _ h), hctx, hF]

/-- With no entry under way a trap is taken at once (12_context R283). -/
theorem State.trapsLater_quiet (hq : s.Quiet) : s.trapsLater = false := by
  simp only [State.trapsLater, show s.myCtx.viq = [] from hq, List.isEmpty_nil, Bool.not_true, Bool.and_false]

/-- A trap that the front end finds once the registers are read: the reads are undone, and with no entry under way it is
taken (02_machine R20; 12_context R283). -/
theorem issueV_trap {t : Trap} (he : early s = none) (hl : late (s.reading reads) = some t) (hk : s.cur.kind = .ch)
    (hq : s.Quiet) (hr : s.Ready reads writes) :
    issueV i n reads writes early late s = .next (s.here.scalarTrap t) := by
  unfold issueV
  rw [he]
  simp only
  rw [onlyOn_ch _ _ hk, framed_ready _ _ _ _ hr.1 hr.2.1, ← State.reading_undone s reads]
  simp only [hl, Res.settle, State.trapsLater_quiet hq, Bool.false_eq_true, if_false, Res.outcome]

theorem full_reading (rs : List SReg) : (s.reading rs).myCtx.full = s.myCtx.full := by
  rw [State.reading, State.myCtx_withMe, Ctx.withHart_full]

/-- An accumulator that the mode of the context has (03_encoding R50). -/
theorem halfTile_legal {t : AReg} (rs : List SReg) (h : t.toNat < 4 ∨ s.myCtx.full = true) :
    halfTile t (s.reading rs) = none := by
  refine if_neg fun ⟨hge, hhalf⟩ => ?_
  rw [full_reading] at hhalf
  rcases h with hlt | hfull
  · omega
  · rw [hfull] at hhalf
    cases hhalf

theorem halfTile_illegal {t : AReg} (rs : List SReg) (hge : 4 ≤ t.toNat) (hhalf : s.myCtx.full = false) :
    halfTile t (s.reading rs) = some (illegal (s.reading rs) 8 0) :=
  if_pos ⟨hge, by rw [full_reading, hhalf]; rfl⟩

end issue

section hadamard

variable (d a : VReg) (p : Nat) (e : VEntry) (c : Ctx)

/-- Element i as it enters a transform (07_matrix R160): rounded to F32, and +0 at or beyond VL. -/
def hadInput (i : Nat) : Val × FFlags :=
  if i < e.vl then
    let v := c.srcVal e a i
    let z := roundF32 e.rm v.1
    (z.1, v.2.or z.2)
  else (Val.zero, FFlags.none)

/-- Block j of a VHAD over blocks of 2^p elements: the elements below VL that it writes, and its flags. -/
def hadResult (j : Nat) : List (Nat × Nat × FFlags) × FFlags :=
  let n := 2 ^ p
  let x := (List.range n).map (fun q => hadInput a e c (j * n + q))
  let y := hadBlock e.rm p (x.map (·.1))
  ((List.range n).filterMap (fun q =>
    if j * n + q < e.vl then some (j * n + q, e.toDest (c.regType d) false (y.1.getD q Val.zero, .none)) else none),
   (orFlags (x.map (·.2))).or y.2)

/-- What a VHAD leaves of a state, where its sources are those of the context c. -/
def hadState (c : Ctx) (t : State) : State :=
  let blocks := (List.range (ceilDiv e.vl (2 ^ p))).map (hadResult d a p e c)
  (t.writeResults d (c.regWidth d) 0x32 (blocks.flatMap (·.1))).raise 0x32 (orFlags (blocks.map (·.2)))

/-- A result enters its destination with no flag raised before, so that the flags are those of its conversion alone. -/
theorem effVhad_checked {d a : VReg} {b : BitVec 5} {e : VEntry} {t : State}
    (h : vecCheck t.myCtx e [tagType (t.myCtx.tag a), tagType (t.myCtx.tag d)] [] [t.myCtx.span d, t.myCtx.span a] = none) :
    effVhad d a b e t = .done (hadState d a (b.toNat + 4) e t.myCtx t) := by
  rw [effVhad, vChecked_none _ _ _ h]
  rfl

end hadamard

section matrix

/-- Writing words of a tile leaves the queue. -/
@[simp] theorem setTile_viq (c : Ctx) (ta : AReg) (ws : List (Nat × Nat × BitVec 32)) : (c.setTile ta ws).viq = c.viq := rfl
/-- Writing the kind of a tile leaves the queue. -/
@[simp] theorem setKind_viq (c : Ctx) (ta : AReg) (x : TileKind) : (c.setKind ta x).viq = c.viq := rfl

/-- The places of a tile, of n rows and n columns, whose row and column a MOP's masks select (07_matrix R150). -/
def mopPlaces (k cm : MReg) (n : Nat) (c : Ctx) : List (Nat × Nat) :=
  (List.range n).flatMap (fun p =>
    if c.maskBit k p then ((List.range n).filter (c.maskBit cm)).map (fun q => (p, q)) else [])

/-- Whether a MOP of two registers is of float kind (R151). -/
def mopOfFloats (a b : VReg) (c : Ctx) : Bool :=
  !(c.regType a).integral || tagScaled (c.tag a) || tagScaled (c.tag b)

/-- The word that a MOP writes at a place, and its flags (04_numbers R80). -/
def mopWord (ta : AReg) (a b : VReg) (e : VEntry) (c : Ctx) (p : Nat × Nat) : BitVec 32 × FFlags :=
  let ts := (mopTerms e (32 / c.regWidth a) p.1 p.2).map (fun q => (c.elemVal a q.1, c.elemVal b q.2))
  if mopOfFloats a b c then
    let r := mopFloat (f32Val (c.tileWord ta p.1 p.2).toNat) (ts.map (fun t => (t.1.1, t.2.1)))
    (BitVec.ofNat 32 (f32Bits r.1), (orFlags (ts.map (fun t => t.1.2.or t.2.2))).or r.2)
  else
    (BitVec.ofInt 32 (ts.foldl (fun x t => x + t.1.1.toInt * t.2.1.toInt) (c.tileWord ta p.1 p.2).toInt), FFlags.none)

/-- What a MOP leaves of a state, where its sources are those of the context c. -/
def mopState (k cm : MReg) (ta : AReg) (a b : VReg) (e : VEntry) (c : Ctx) (t : State) : State :=
  let n := min (ceilDiv e.vl (32 / c.regWidth a)) (16 * c.fronds)
  let places := mopPlaces k cm n c
  let c1 := t.myCtx.setTile ta (places.map (fun p => (p.1, p.2, (mopWord ta a b e c p).1)))
  (t.withMyCtx (if 0 < n then c1.setKind ta (if mopOfFloats a b c then .float else .int) else c1)).raise 0x3A
    (orFlags (places.map (fun p => (mopWord ta a b e c p).2)))

theorem effMop_checked {k cm : MReg} {ta : AReg} {a b : VReg} {e : VEntry} {t : State}
    (h : vecCheck t.myCtx e [tagType (t.myCtx.tag a), tagType (t.myCtx.tag b)] [k, cm] [t.myCtx.span a, t.myCtx.span b] = none)
    (hp : mopPair (tagType (t.myCtx.tag a)) (tagType (t.myCtx.tag b)) (t.myCtx.regType a) (t.myCtx.regType b) = true) :
    effMop k ta a b cm e t = .done (mopState k cm ta a b e t.myCtx t) := by
  simp only [effMop, h, hp, if_true, vChecked_none, mopState, mopWord, List.map_map]
  rfl

/-- Words of a tile and its kind are no part of the queue. -/
theorem mopState_viq (k cm : MReg) (ta : AReg) (a b : VReg) (e : VEntry) (c : Ctx) (t : State) :
    (mopState k cm ta a b e c t).myCtx.viq = t.myCtx.viq := by
  rw [mopState, raise_viq, State.myCtx_withMyCtx]
  split
  · rw [setKind_viq, setTile_viq]
  · rw [setTile_viq]

/-- What MZERO leaves of a state, where its tile is that of the context c. -/
def mzeroState (ta : AReg) (c : Ctx) (t : State) : State :=
  t.withMyCtx (({ t.myCtx with
    tile := sclear c.tile (tileKey ta 0 0) (tileKey ta 0 0 + 16384) }).setKind ta .float)

/-- What a read of a row or a column leaves of a state (R153), where its tile is that of the context c. -/
def tileOutState (inside : Ctx → Nat → Bool) (word : Ctx → Nat → Val) (k : MReg) (d : VReg) (ta : AReg) (e : VEntry)
    (c : Ctx) (t : State) : State :=
  t.writeResults d (c.regWidth d) 0x3A ((c.actives e k).map (fun j =>
    (j, if inside c j then toType (c.regType d) (decide (c.kindOf ta = .int)) e.sat e.rm (word c j)
      else (c.fill (c.regWidth d), .none))))

theorem tileOut_checked {inside : Ctx → Nat → Bool} {word : Ctx → Nat → Val} {k : MReg} {d : VReg} {ta : AReg} {e : VEntry}
    {t : State} (h : vecCheck t.myCtx e [tagType (t.myCtx.tag d)] [k] [t.myCtx.span d] = none) :
    tileOut inside word k d ta e t = .done (tileOutState inside word k d ta e t.myCtx t) := by
  simp only [tileOut, vChecked_none _ _ _ h]
  rfl

/-- The completion of a read of a row or a column, by the tile as it stood at its issue. -/
theorem entryGives_tileOut {inside : Ctx → Nat → Bool} {word : Ctx → Nat → Val} {k : MReg} {d : VReg} {ta : AReg} {s : State}
    {i : Instr} (hex : exec i s = issueV i 8 [] [] noCheck (halfTile ta) s) (hl : halfTile ta (s.reading []) = none)
    (heff : ∀ t, effectOf (s.entryOf i []) t = tileOut inside word k d ta (s.entryOf i []) t)
    (hdata : ∀ q h, inside { s.myCtx with viq := q, ch := h } = inside s.myCtx ∧
      word { s.myCtx with viq := q, ch := h } = word s.myCtx)
    (hcheck : vecCheck s.myCtx (s.entryOf i []) [tagType (s.myCtx.tag d)] [k] [s.myCtx.span d] = none) :
    entryGives s i 8 [] [] (tileOutState inside word k d ta (s.entryOf i []) s.myCtx) := by
  refine entryGives_of_data (F := tileOutState inside word k d ta (s.entryOf i []))
    (P := fun c => vecCheck c (s.entryOf i []) [tagType (c.tag d)] [k] [c.span d] = none) hex rfl hl
    (fun t h => (heff t).trans (tileOut_checked h)) (fun _ _ => hcheck) (fun q h => ?_) (fun t => writeResults_viq t _ _ _ _)
  obtain ⟨hi, hw⟩ := hdata q h
  funext t
  rw [tileOutState, hi, hw]
  rfl

/-- The word that MWROW writes to a column, and its flags: the element in the kind of the tile (R154). -/
def mwrowWord (ta : AReg) (a : VReg) (e : VEntry) (c : Ctx) (j : Nat) : Nat × FFlags :=
  e.toDest (match c.kindOf ta with | .float => .float fmtF32 32 | .int => .int true 32) (c.intReg a) (c.srcVal e a j)

/-- What MWROW leaves of a state, where its source is that of the context c. -/
def mwrowState (ta : AReg) (a : VReg) (row : BitVec 7) (e : VEntry) (c : Ctx) (t : State) : State :=
  if row.toNat < 16 * c.fronds then
    (t.withMyCtx (t.myCtx.setTile ta
      ((List.range 128).map (fun j => (row.toNat, j, BitVec.ofNat 32 (mwrowWord ta a e c j).1))))).raise 0x3A
      (orFlags ((List.range 128).map (fun j => (mwrowWord ta a e c j).2)))
  else t

theorem effMwrow_checked {ta : AReg} {a : VReg} {row : BitVec 7} {e : VEntry} {t : State}
    (h : vecCheck t.myCtx e [tagType (t.myCtx.tag a)] [] [t.myCtx.span a] = none) :
    effMwrow ta a row e t = .done (mwrowState ta a row e t.myCtx t) := by
  simp only [effMwrow, vChecked_none _ _ _ h, List.map_map]
  by_cases hr : row.toNat < t.myCtx.rows
  · rw [if_pos hr, mwrowState, if_pos (show row.toNat < 16 * t.myCtx.fronds from hr)]
    rfl
  · rw [if_neg hr, mwrowState, if_neg (show ¬ row.toNat < 16 * t.myCtx.fronds from hr)]

theorem mwrowState_viq (ta : AReg) (a : VReg) (row : BitVec 7) (e : VEntry) (c : Ctx) (t : State) :
    (mwrowState ta a row e c t).myCtx.viq = t.myCtx.viq := by
  unfold mwrowState
  split
  · rw [raise_viq, State.myCtx_withMyCtx, setTile_viq]
  · rfl

theorem mwrowWord_data (ta : AReg) (a : VReg) (e : VEntry) (c : Ctx) (q : List VEntry) (h : Hart) :
    mwrowWord ta a e { c with viq := q, ch := h } = mwrowWord ta a e c := rfl

theorem mwrowState_data (ta : AReg) (a : VReg) (row : BitVec 7) (e : VEntry) (c : Ctx) (q : List VEntry) (h : Hart) :
    mwrowState ta a row e { c with viq := q, ch := h } = mwrowState ta a row e c := by
  funext t
  simp only [mwrowState, mwrowWord_data]
  rfl

end matrix

section exec

variable (s : State) (k cm : MReg) (d a b : VReg) (ta : AReg) (row : BitVec 7)

theorem exec_vhad (p : BitVec 5) : exec (.vhad d a p) s = issueV (.vhad d a p) 4 [] [] noCheck noCheck s := rfl

theorem exec_mop : exec (.mop k ta a b cm) s = issueV (.mop k ta a b cm) 8 [] [] noCheck (halfTile ta) s := rfl

theorem exec_mzero : exec (.mzero ta) s = issueV (.mzero ta) 8 [] [] noCheck (halfTile ta) s := rfl

theorem exec_mrow : exec (.mrow k d ta row) s = issueV (.mrow k d ta row) 8 [] [] noCheck (halfTile ta) s := rfl

theorem exec_mcol : exec (.mcol k d ta row) s = issueV (.mcol k d ta row) 8 [] [] noCheck (halfTile ta) s := rfl

theorem exec_mwrow : exec (.mwrow ta a row) s = issueV (.mwrow ta a row) 8 [] [] noCheck (halfTile ta) s := rfl

end exec

end Sys2Proof.Machine

namespace Sys2Proof

open Machine

/-- Settles O52: the checks passed, the blocks of a VHAD are those of the context at its issue. -/
theorem vectorHadamard : Obligations.VectorHadamard := by
  unfold Obligations.VectorHadamard
  intro s d a b c p n e rm input block blocks hcheck
  exact entryGives_of_data (F := hadState d a p e)
    (P := fun c => vecCheck c e [tagType (c.tag a), tagType (c.tag d)] [] [c.span d, c.span a] = none)
    (exec_vhad s d a b) rfl rfl (fun _ h => effVhad_checked h) (fun _ _ => hcheck) (fun _ _ => rfl)
    (fun t => (raise_viq _ _ _).trans (writeResults_viq t _ _ _ _))

/-- Settles O39: the checks passed, each instruction of the matrix engine acts by the tile and the registers of the context
at its issue; where the mode has no such tile, all five end at the one trap of the front end. -/
theorem matrixEngine : Obligations.MatrixEngine := by
  unfold Obligations.MatrixEngine
  refine ⟨fun s k cm ta a b hta => ?mop, fun s k d a ta row hta => ?tile, fun s ta k cm d a b row hk hq hr hge hhalf => ?half⟩
  case mop =>
    intro c i e x y hcheck hpair rank n float places word
    exact entryGives_of_data (F := mopState k cm ta a b e)
      (P := fun c => vecCheck c e [tagType (c.tag a), tagType (c.tag b)] [k, cm] [c.span a, c.span b] = none ∧
        mopPair (tagType (c.tag a)) (tagType (c.tag b)) (c.regType a) (c.regType b) = true)
      (exec_mop s k cm a b ta) rfl (halfTile_legal [] hta) (fun _ ⟨h, hp⟩ => effMop_checked h hp)
      (fun _ _ => ⟨hcheck, hpair⟩) (fun _ _ => rfl) (mopState_viq k cm ta a b e s.myCtx)
  case tile =>
    intro c out
    refine ⟨?zero, fun hcheck => ?row, fun hcheck => ?col, fun hcheck => ?write⟩
    case zero =>
      exact entryGives_of_data (F := mzeroState ta) (P := fun _ => True) (exec_mzero s ta) rfl (halfTile_legal [] hta)
        (fun _ _ => rfl) (fun _ _ => trivial) (fun _ _ => rfl) (fun t => by
          rw [mzeroState, State.myCtx_withMyCtx, setKind_viq])
    case row =>
      exact entryGives_tileOut (inside := fun c j => decide (j < 128) && decide (row.toNat < 16 * c.fronds))
        (word := fun c j => c.tileVal ta row.toNat j) (exec_mrow s k d ta row) (halfTile_legal [] hta) (fun _ => rfl)
        (fun _ _ => ⟨rfl, rfl⟩) hcheck
    case col =>
      exact entryGives_tileOut (inside := fun c j => decide (j < 16 * c.fronds))
        (word := fun c j => c.tileVal ta j row.toNat) (exec_mcol s k d ta row) (halfTile_legal [] hta) (fun _ => rfl)
        (fun _ _ => ⟨rfl, rfl⟩) hcheck
    case write =>
      exact entryGives_of_data (F := mwrowState ta a row (s.entryOf (.mwrow ta a row) []))
        (P := fun c => vecCheck c (s.entryOf (.mwrow ta a row) []) [tagType (c.tag a)] [] [c.span a] = none)
        (exec_mwrow s a ta row) rfl (halfTile_legal [] hta) (fun _ h => effMwrow_checked h) (fun _ _ => hcheck)
        (mwrowState_data ta a row _ s.myCtx) (mwrowState_viq ta a row _ s.myCtx)
  case half =>
    have trap : ∀ i, exec i s = issueV i 8 [] [] noCheck (halfTile ta) s →
        exec i s = .next (s.here.scalarTrap (illegal (s.reading []) 8 0)) :=
      fun i hex => hex.trans (issueV_trap rfl (halfTile_illegal [] hge hhalf) hk hq hr)
    exact ⟨_, rfl, rfl, trap _ (exec_mzero s ta), trap _ (exec_mop s k cm a b ta), trap _ (exec_mrow s k d ta row),
      trap _ (exec_mcol s k d ta row), trap _ (exec_mwrow s a ta row)⟩

end Sys2Proof
end

section
/-! SUPPORT. The scalar integer instructions: what each writes, as a function of what it reads (05_scalar R87–R89). -/

namespace Sys2Proof.Machine

section alu

variable {s : State} {i : Instr} {d a b : SReg} {v : Word}

/-- An instruction of two registers writes what its function makes of them, and moves on (R87). -/
theorem exec_aluRR (f : Word → Word → Word) (hi : exec i s = aluRR f d a b s) (h : s.Ready [a, b] [d])
    (hv : f (s.readS a) (s.readS b) = v) : exec i s = .next ((s.reading [a, b]).retire 4 d v) :=
  hi.trans (scalar_done _ _ _ _ _ h (by rw [State.readS_reading, State.readS_reading, hv]))

/-- An instruction of one register writes what its function makes of it, and moves on. -/
theorem exec_aluR (f : Word → Word) (hi : exec i s = aluR f d a s) (h : s.Ready [a] [d]) (hv : f (s.readS a) = v) :
    exec i s = .next ((s.reading [a]).retire 4 d v) :=
  hi.trans (scalar_done _ _ _ _ _ h (by rw [State.readS_reading, hv]))

/-- A literal form writes its literal, and moves on by its own length. -/
theorem exec_literal (n : Nat) (x : State → Word) (hi : exec i s = literal n x d s) (h : s.Ready [] [d])
    (hv : x (s.reading []) = v) : exec i s = .next ((s.reading []).retire n d v) :=
  hi.trans (scalar_done _ _ _ _ _ h (by rw [hv]))

end alu

section functions

variable (x y : Word)

theorem shamt_eq : shamt y = y.toNat % 64 := by
  rw [shamt, bits, Nat.pow_zero, Nat.div_one]
  rfl

theorem sll_eq : sll x y = x <<< (y.toNat % 64) := by rw [sll, shamt_eq]
theorem srl_eq : srl x y = x >>> (y.toNat % 64) := by rw [srl, shamt_eq]
theorem sra_eq : sra x y = x.sshiftRight (y.toNat % 64) := by rw [sra, shamt_eq]
theorem rol_eq : rol x y = x.rotateLeft (y.toNat % 64) := by rw [rol, shamt_eq]
theorem ror_eq : ror x y = x.rotateRight (y.toNat % 64) := by rw [ror, shamt_eq]

theorem setlt_eq : setlt x y = if x.toInt < y.toInt then 1 else 0 := by
  simp only [setlt, boolWord, BitVec.slt, decide_eq_true_eq]

theorem setltu_eq : setltu x y = if x.toNat < y.toNat then 1 else 0 := by
  simp only [setltu, boolWord, BitVec.ult, decide_eq_true_eq]

theorem minS_eq : minS x y = if x.toInt ≤ y.toInt then x else y := by
  simp only [minS, BitVec.slt, decide_eq_true_eq, ← not_le, ite_not]

theorem minU_eq : minU x y = if x.toNat ≤ y.toNat then x else y := by
  simp only [minU, BitVec.ult, decide_eq_true_eq, ← not_le, ite_not]

/-- Of two equal words it does not matter which is the larger. -/
theorem maxS_eq : maxS x y = if x.toInt ≤ y.toInt then y else x := by
  simp only [maxS, BitVec.slt, decide_eq_true_eq]
  by_cases h : x.toInt = y.toInt
  · rw [BitVec.eq_of_toInt_eq h, ite_self, ite_self]
  · simp only [lt_iff_le_and_ne, ne_eq, h, not_false_eq_true, and_true]

theorem maxU_eq : maxU x y = if x.toNat ≤ y.toNat then y else x := by
  simp only [maxU, BitVec.ult, decide_eq_true_eq]
  by_cases h : x.toNat = y.toNat
  · rw [BitVec.eq_of_toNat_eq h, ite_self, ite_self]
  · simp only [lt_iff_le_and_ne, ne_eq, h, not_false_eq_true, and_true]

/-- Of a product of natural numbers the high half is their quotient by 2^64. -/
theorem hi64_natCast (m n : Nat) : hi64 ((m : Int) * (n : Int)) = BitVec.ofNat 64 (m * n / 2 ^ 64) := by
  rw [hi64, ← BitVec.ofInt_natCast]
  norm_cast

theorem field_lowHalf (z : BitVec 128) : field 0 64 z = z.setWidth 64 :=
  BitVec.eq_of_toNat_eq (by rw [BitVec.extractLsb'_toNat, BitVec.toNat_setWidth, Nat.shiftRight_zero])

theorem field_highHalf (z : BitVec 128) : field 64 64 z = (z >>> 64).setWidth 64 :=
  BitVec.eq_of_toNat_eq (by rw [BitVec.extractLsb'_toNat, BitVec.toNat_setWidth, BitVec.toNat_ushiftRight])

end functions

section division

variable (x y : Word)

/-- The signed quotient is that of the word's own division: a divisor of 0 gives 0 (R89). -/
theorem divS_eq_sdiv : divS x y = x.sdiv y := by
  by_cases h : y = 0
  · rw [divS, if_pos h, h]
    exact BitVec.sdiv_zero.symm
  · rw [divS, if_neg h]
    exact BitVec.eq_of_toInt_eq (by rw [BitVec.toInt_sdiv, BitVec.toInt_ofInt])

theorem remS_eq_srem : remS x y = x.srem y := by
  by_cases h : y = 0
  · rw [remS, if_pos h, h]
    exact BitVec.srem_zero.symm
  · rw [remS, if_neg h]
    exact BitVec.eq_of_toInt_eq (by
      rw [BitVec.toInt_ofInt, ← BitVec.toInt_srem, BitVec.toInt_bmod_cancel])

/-- The one quotient that no word holds (R89). -/
theorem divS_overflow (hx : x.toInt = -2 ^ 63) (hy : y.toInt = -1) : divS x y = x := by
  rw [divS_eq_sdiv]
  exact BitVec.eq_of_toInt_eq (by rw [BitVec.toInt_sdiv, hx, hy]; rfl)

theorem remS_overflow (hx : x.toInt = -2 ^ 63) (hy : y.toInt = -1) : remS x y = 0 := by
  rw [remS_eq_srem]
  exact BitVec.eq_of_toInt_eq (by rw [BitVec.toInt_srem, hx, hy]; rfl)

/-- Every other quotient is that of the integers, rounded toward zero (R88). -/
theorem toInt_divS (h : ¬ (x.toInt = -2 ^ 63 ∧ y.toInt = -1)) : (divS x y).toInt = x.toInt.tdiv y.toInt := by
  rw [divS_eq_sdiv]
  refine BitVec.toInt_sdiv_of_ne_or_ne x y ?_
  by_contra hc
  rw [not_or, not_not, not_not] at hc
  exact h ⟨by rw [hc.1]; rfl, by rw [hc.2]; rfl⟩

theorem toInt_remS : (remS x y).toInt = x.toInt - y.toInt * x.toInt.tdiv y.toInt := by
  rw [remS_eq_srem, BitVec.toInt_srem, Int.tmod_def]

theorem toNat_divU (h : y ≠ 0) : (divU x y).toNat = x.toNat / y.toNat := by
  rw [divU, if_neg h, BitVec.toNat_ofNat]
  exact Nat.mod_eq_of_lt (lt_of_le_of_lt (Nat.div_le_self _ _) x.isLt)

theorem toNat_remU (h : y ≠ 0) : (remU x y).toNat = x.toNat - y.toNat * (x.toNat / y.toNat) := by
  rw [remU, if_neg h, BitVec.toNat_ofNat, ← Nat.mod_eq_sub_mul_div]
  exact Nat.mod_eq_of_lt (lt_of_le_of_lt (Nat.mod_le _ _) x.isLt)

end division

end Sys2Proof.Machine

namespace Sys2Proof

open Machine

/-- Settles O8: each instruction writes what its function makes of the two registers; the functions one by one. -/
theorem scalarBinary : Obligations.ScalarBinary := by
  unfold Obligations.ScalarBinary
  intro s d a b h x y n put
  exact ⟨exec_aluRR (· + ·) rfl h rfl, exec_aluRR (· - ·) rfl h rfl, exec_aluRR (· &&& ·) rfl h rfl,
    exec_aluRR (· ||| ·) rfl h rfl, exec_aluRR (· ^^^ ·) rfl h rfl, exec_aluRR sll rfl h (sll_eq x y),
    exec_aluRR srl rfl h (srl_eq x y), exec_aluRR sra rfl h (sra_eq x y), exec_aluRR setlt rfl h (setlt_eq x y),
    exec_aluRR setltu rfl h (setltu_eq x y), exec_aluRR minS rfl h (minS_eq x y), exec_aluRR maxS rfl h (maxS_eq x y),
    exec_aluRR minU rfl h (minU_eq x y), exec_aluRR maxU rfl h (maxU_eq x y), exec_aluRR (· &&& ~~~ ·) rfl h rfl,
    exec_aluRR (· ||| ~~~ ·) rfl h rfl, exec_aluRR rol rfl h (rol_eq x y), exec_aluRR ror rfl h (ror_eq x y),
    exec_aluRR (· * ·) rfl h rfl, exec_aluRR (fun x y => hi64 (x.toInt * y.toInt)) rfl h rfl,
    exec_aluRR (fun x y => hi64 (x.toNat * y.toNat)) rfl h (hi64_natCast x.toNat y.toNat),
    exec_aluRR (fun x y => hi64 (x.toInt * y.toNat)) rfl h rfl,
    exec_aluRR (fun x y => field 0 64 (clmul x y 64)) rfl h (field_lowHalf _),
    exec_aluRR (fun x y => field 64 64 (clmul x y 64)) rfl h (field_highHalf _)⟩

/-- Settles O9: the signed functions are the word's own division and remainder, whose one overflow is the least word by -1;
the unsigned ones are those of the natural numbers. -/
theorem divisionNeverTraps : Obligations.DivisionNeverTraps := by
  unfold Obligations.DivisionNeverTraps
  intro s d a b h x y put
  refine ⟨fun hy => ⟨exec_aluRR divS rfl h (if_pos hy), exec_aluRR divU rfl h (if_pos hy), exec_aluRR remS rfl h (if_pos hy),
    exec_aluRR remU rfl h (if_pos hy)⟩, fun hy => ⟨fun hmin hone => ?overflow, fun hc => ?signed, ?unsigned⟩⟩
  case overflow =>
    exact ⟨exec_aluRR divS rfl h (divS_overflow x y hmin hone), exec_aluRR remS rfl h (remS_overflow x y hmin hone)⟩
  case signed =>
    refine ⟨divS x y, remS x y, exec_aluRR divS rfl h rfl, exec_aluRR remS rfl h rfl, toInt_divS x y hc, ?_⟩
    rw [toInt_divS x y hc, toInt_remS]
  case unsigned =>
    refine ⟨divU x y, remU x y, exec_aluRR divU rfl h rfl, exec_aluRR remU rfl h rfl, toNat_divU x y hy, ?_⟩
    rw [toNat_divU x y hy, toNat_remU x y hy]

end Sys2Proof
end

section
/-! SUPPORT. The unary functions, the bit fields, and the encodings of bit fields that are no instruction (05_scalar R88,
R90–R94; 03_encoding R50). -/

namespace Sys2Proof.Machine

section bits

variable (x : Word)

theorem onesBelow_eq (n : Nat) : onesBelow x n = (List.range n).countP (fun i => x.getLsbD i) := by
  induction n with
  | zero => rfl
  | succ n ih => rw [onesBelow, ih, List.range_succ, List.countP_append, List.countP_singleton]

/-- Below a bit that is 0 up to n. -/
theorem leadingZeros_none {n : Nat} (h : ∀ i < n, x.getLsbD i = false) : leadingZeros x n = n := by
  induction n with
  | zero => rfl
  | succ n ih =>
    rw [leadingZeros, h n (Nat.lt_succ_self n), ih fun i hi => h i (Nat.lt_succ_of_lt hi)]
    rfl

/-- The zeros above the highest 1 bit. -/
theorem leadingZeros_top {n j : Nat} (hj : j < n) (hb : x.getLsbD j = true)
    (h : ∀ i, j < i → i < n → x.getLsbD i = false) : leadingZeros x n = n - 1 - j := by
  induction n with
  | zero => omega
  | succ n ih =>
    rcases Nat.lt_succ_iff_lt_or_eq.1 hj with hn | rfl
    · rw [leadingZeros, h n hn (Nat.lt_succ_self n), ih hn fun i hi hin => h i hi (Nat.lt_succ_of_lt hin)]
      simp only [Bool.false_eq_true, if_false]
      omega
    · rw [leadingZeros, hb, if_pos rfl]
      omega

/-- CLZ: of a word that is not 0 the highest 1 bit is the binary logarithm (R88). -/
theorem clz_eq : BitVec.ofNat 64 (leadingZeros x 64) =
    if x = 0 then 64 else BitVec.ofNat 64 (63 - x.toNat.log2) := by
  by_cases h : x = 0
  · rw [if_pos h, leadingZeros_none x fun i _ => by rw [h]; exact BitVec.getLsbD_zero]
    rfl
  · have hx : x.toNat ≠ 0 := fun he => h (BitVec.eq_of_toNat_eq he)
    rw [if_neg h, leadingZeros_top x (j := x.toNat.log2)]
    · exact (Nat.log2_lt hx).2 x.isLt
    · exact Nat.testBit_log2 hx
    · exact fun i hi _ => Nat.testBit_eq_false_of_lt (lt_of_lt_of_le Nat.lt_log2_self (Nat.pow_le_pow_right (by omega) hi))

/-- The zeros from bit i up: that many bits are 0, and where one of the n is left it is 1. -/
theorem trailingZeros_spec (n i : Nat) : trailingZeros x i n ≤ n ∧
    (∀ k < trailingZeros x i n, x.getLsbD (i + k) = false) ∧
    (trailingZeros x i n < n → x.getLsbD (i + trailingZeros x i n) = true) := by
  induction n generalizing i with
  | zero => exact ⟨Nat.le_refl 0, fun k hk => absurd hk (Nat.not_lt_zero k), fun h => absurd h (Nat.not_lt_zero 0)⟩
  | succ n ih =>
    obtain ⟨hle, hbelow, hat⟩ := ih (i + 1)
    by_cases hb : x.getLsbD i = true
    · rw [trailingZeros, if_pos hb]
      exact ⟨Nat.zero_le _, fun k hk => absurd hk (Nat.not_lt_zero k), fun _ => hb⟩
    · rw [trailingZeros, if_neg hb]
      refine ⟨Nat.succ_le_succ hle, fun k hk => ?_, fun hlt => ?_⟩
      · cases k with
        | zero => exact Bool.eq_false_iff.2 hb
        | succ k =>
          rw [← Nat.add_assoc, Nat.add_right_comm]
          exact hbelow k (Nat.lt_of_succ_lt_succ hk)
      · rw [← Nat.add_assoc, Nat.add_right_comm]
        exact hat (Nat.lt_of_succ_lt_succ hlt)

/-- CTZ: the lowest 1 bit, or 64 where there is none (R88). -/
theorem ctz_spec : (x = 0 → BitVec.ofNat 64 (trailingZeros x 0 64) = 64) ∧
    (x ≠ 0 → x.getLsbD (BitVec.ofNat 64 (trailingZeros x 0 64)).toNat = true ∧
      ∀ i, i < (BitVec.ofNat 64 (trailingZeros x 0 64)).toNat → x.getLsbD i = false) := by
  obtain ⟨hle, hbelow, hat⟩ := trailingZeros_spec x 64 0
  have hn : (BitVec.ofNat 64 (trailingZeros x 0 64)).toNat = trailingZeros x 0 64 := by
    rw [BitVec.toNat_ofNat]
    exact Nat.mod_eq_of_lt (by omega)
  simp only [Nat.zero_add] at hbelow hat
  rw [hn]
  refine ⟨fun h => ?_, fun h => ⟨hat (lt_of_le_of_ne hle fun h64 => h ?_), hbelow⟩⟩
  · have h64 : ¬ trailingZeros x 0 64 < 64 := fun hlt => by
      have hone := hat hlt
      rw [h] at hone
      exact absurd (BitVec.getLsbD_zero.symm.trans hone) Bool.false_ne_true
    rw [Nat.le_antisymm hle (not_lt.1 h64)]
    rfl
  · rw [h64] at hbelow
    exact BitVec.eq_of_getLsbD_eq fun i hi => by rw [hbelow i hi]; exact BitVec.getLsbD_zero.symm

/-- BREV: bit i is bit 63 - i (R88). -/
theorem getLsbD_brev {i : Nat} (hi : i < 64) : (brev x).getLsbD i = x.getLsbD (63 - i) := by
  rw [brev, BitVec.getLsbD_reverse, BitVec.getMsbD, decide_eq_true hi, Bool.true_and]

/-- BSWAP: byte k is byte 7 - k (R88). -/
theorem getLsbD_bswap {i : Nat} (hi : i < 64) : (bswap x).getLsbD i = x.getLsbD (56 - 8 * (i / 8) + i % 8) := by
  obtain ⟨k, j, rfl, hk, hj⟩ : ∃ k j, i = 8 * k + j ∧ k < 8 ∧ j < 8 := ⟨i / 8, i % 8, by omega, by omega, by omega⟩
  rw [show (8 * k + j) / 8 = k by omega, show (8 * k + j) % 8 = j by omega]
  simp only [bswap, BitVec.getLsbD_append, BitVec.getLsbD_extractLsb']
  interval_cases k <;> simp (disch := omega) only [if_pos, if_neg, decide_eq_true, Bool.true_and] <;> congr 1 <;> omega

end bits

section fields

variable (x d : Word) (o w i : Nat)

theorem getLsbD_bextU (hi : i < 64) :
    (bextU x o w).getLsbD i = (decide (i < w) && (decide (o + i ≤ 63) && x.getLsbD (o + i))) := by
  have hb : (decide (o + i ≤ 63) && x.getLsbD (o + i)) = x.getLsbD (o + i) := by
    by_cases h : o + i ≤ 63
    · rw [decide_eq_true h, Bool.true_and]
    · rw [decide_eq_false h, Bool.false_and, BitVec.getLsbD_of_ge _ _ (by omega)]
  rw [hb, bextU, BitVec.getLsbD_ofNat, decide_eq_true hi, Bool.true_and, Nat.testBit_mod_two_pow,
    Nat.testBit_div_two_pow, Nat.add_comm]
  rfl

/-- BEXTS: above the field stands its bit w - 1 (R92). -/
theorem getLsbD_bextS (hi : i < 64) (hw : w ≤ 64) : (bextS x o w).getLsbD i =
    if i < w then decide (o + i ≤ 63) && x.getLsbD (o + i)
    else decide (w ≠ 0) && (decide (o + (w - 1) ≤ 63) && x.getLsbD (o + (w - 1))) := by
  by_cases h0 : w = 0
  · simp [bextS, h0]
  · rw [bextS, if_neg h0, sext, BitVec.getLsbD_signExtend, decide_eq_true hi, Bool.true_and]
    by_cases hiw : i < w
    · rw [if_pos hiw, if_pos hiw, BitVec.getLsbD_setWidth, getLsbD_bextU _ _ _ _ hi, decide_eq_true hiw,
        Bool.true_and, Bool.true_and]
    · rw [if_neg hiw, if_neg hiw, BitVec.msb_eq_getLsbD_last, BitVec.getLsbD_setWidth,
        getLsbD_bextU _ _ _ _ (by omega), decide_eq_true (show w - 1 < w by omega), Bool.true_and, Bool.true_and,
        decide_eq_true h0, Bool.true_and]

/-- BINS: inside the field the low bits of sa, outside it sd as it was (R92). -/
theorem getLsbD_binsW (hi : i < 64) : (binsW d x o w).getLsbD i =
    if o ≤ i ∧ i < o + w then x.getLsbD (i - o) else d.getLsbD i := by
  have hm : (BitVec.ofNat 64 ((2 ^ w - 1) * 2 ^ o)).getLsbD i = decide (o ≤ i ∧ i < o + w) := by
    rw [BitVec.getLsbD_ofNat, decide_eq_true hi, Bool.true_and, Nat.testBit_mul_two_pow, Nat.testBit_two_pow_sub_one,
      ← Bool.decide_and]
    exact decide_eq_decide.2 (by omega)
  rw [binsW]
  simp only [BitVec.getLsbD_or, BitVec.getLsbD_and, BitVec.getLsbD_not, BitVec.getLsbD_shiftLeft, hm, decide_eq_true hi,
    Bool.true_and]
  by_cases h : o ≤ i ∧ i < o + w
  · simp [h, show ¬ i < o by omega]
  · simp [h]

end fields

section encodings

/-- A bit field wider than 64 is no instruction: its second parcel breaks an operand limit (03_encoding R50). -/
theorem decode_wideField (minor d a : BitVec 5) (o : BitVec 6) (w : BitVec 7) (hm : minor.toNat < 3) (hw : 64 < w.toNat) :
    decode [(0#4 ++ minor ++ 0#5 ++ a ++ d ++ 10#6 ++ 1#2 : BitVec 32), (0#19 ++ w ++ o : BitVec 32)] =
      .error (.operandLimit 1) := by
  obtain ⟨hres, hmin, hb, -, -, hmaj, hlen⟩ := Laws.fields_4_5_5_5_5_6_2 0#4 minor 0#5 a d 10#6 1#2
  obtain ⟨hres1, hwidth, -⟩ := Laws.fields_19_7_6 0#19 w o
  have hlim : decide (w.toNat ≤ 64) = false := decide_eq_false (by omega)
  rw [Laws.decode_major0A _ _ hmaj hlen]
  simp only [decodeMajor0A, minField, hmin, hres, hb, hres1, hwidth, hlim, reserved, limit, BitVec.ofNat_eq_ofNat, if_true,
    Bool.false_eq_true, if_false]
  interval_cases minor.toNat <;> rfl

end encodings

section literals

variable (x : Word) (sh : BitVec 6)

theorem shamt_literal : shamt (sh.setWidth 64) = sh.toNat := by
  rw [shamt_eq, BitVec.toNat_setWidth]
  omega

theorem sll_literal : sll x (sh.setWidth 64) = x <<< sh.toNat := by rw [sll, shamt_literal]
theorem srl_literal : srl x (sh.setWidth 64) = x >>> sh.toNat := by rw [srl, shamt_literal]
theorem sra_literal : sra x (sh.setWidth 64) = x.sshiftRight sh.toNat := by rw [sra, shamt_literal]
theorem ror_literal : ror x (sh.setWidth 64) = x.rotateRight sh.toNat := by rw [ror, shamt_literal]

end literals

section jumps

variable {s : State} {i : Instr} {a b : SReg} {off : BitVec 11}

/-- A branch whose registers are ready (R95). -/
theorem exec_branch (cond : Word → Word → Bool) (c : Prop) [Decidable c] (hi : exec i s = branch cond a b off s)
    (h : s.Ready [a, b] []) (hc : cond (s.readS a) (s.readS b) = decide c) :
    exec i s = .next (if c then (s.reading [a, b]).jump (s.me.pc + 4 * off.signExtend 64)
      else (s.reading [a, b]).advance 4) := by
  refine hi.trans (scalar_done _ _ _ _ _ h ?_)
  rw [State.readS_reading, State.readS_reading, hc, State.me_reading, Hart.clearRead_pc]
  simp only [decide_eq_true_eq]
  rfl

theorem State.pc_jump (pc : Word) : (s.jump pc).me.pc = pc &&& ~~~3#64 := by rw [State.jump, State.me_withMe]

end jumps

end Sys2Proof.Machine

namespace Sys2Proof

open Machine

/-- Settles O10: each form writes what its function makes of its register or its literal; a hint only moves on. -/
theorem scalarUnary : Obligations.ScalarUnary := by
  unfold Obligations.ScalarUnary
  refine ⟨fun s d a imm sh h => ?registers, fun s d i19 lo hi h => ?literals, fun s h p1 p2 p3 p4 => ⟨rfl, rfl, rfl, rfl⟩⟩
  case registers =>
    intro x y put
    exact ⟨exec_aluR popc rfl h (congrArg _ (onesBelow_eq x 64)),
      exec_aluR (fun x => BitVec.ofNat 64 (leadingZeros x 64)) rfl h (clz_eq x),
      ⟨_, exec_aluR (fun x => BitVec.ofNat 64 (trailingZeros x 0 64)) rfl h rfl, ctz_spec x⟩,
      ⟨_, exec_aluR brev rfl h rfl, fun _ hi => getLsbD_brev x hi⟩,
      ⟨_, exec_aluR bswap rfl h rfl, fun _ hi => getLsbD_bswap x hi⟩,
      exec_aluR (· + imm14 imm) rfl h rfl, exec_aluR (· &&& imm14 imm) rfl h rfl, exec_aluR (· ||| imm14 imm) rfl h rfl,
      exec_aluR (· ^^^ imm14 imm) rfl h rfl, exec_aluR (setlt · (imm14 imm)) rfl h (setlt_eq x y),
      exec_aluR (setltu · (imm14 imm)) rfl h (setltu_eq x y),
      exec_aluR (sll · (sh.setWidth 64)) rfl h (sll_literal x sh), exec_aluR (srl · (sh.setWidth 64)) rfl h (srl_literal x sh),
      exec_aluR (sra · (sh.setWidth 64)) rfl h (sra_literal x sh), exec_aluR (ror · (sh.setWidth 64)) rfl h (ror_literal x sh)⟩
  case literals =>
    intro t
    have hpc : t.me.pc = s.me.pc := by rw [State.me_reading, Hart.clearRead_pc]
    exact ⟨exec_literal 4 (fun _ => imm19 i19) rfl h rfl, exec_literal 8 (fun _ => sextField lo) rfl h rfl,
      exec_literal 12 (fun _ => hi ++ lo) rfl h rfl,
      exec_literal 4 (fun s => pcRel19 s.me.pc i19) rfl h (by rw [hpc]; rfl)⟩

/-- Settles O11: the three functions bit by bit; a WIDTH above 64 breaks the operand limit of the second parcel. -/
theorem bitFields : Obligations.BitFields := by
  unfold Obligations.BitFields
  refine ⟨fun s d a o w hw => ?fields, fun s d a o w hw => ⟨.operandLimit 1, ?_, ?_, ?_, rfl, rfl⟩⟩
  case fields =>
    intro x f
    refine ⟨fun h => ⟨bextU x o.toNat w.toNat, bextS x o.toNat w.toNat, ?_, ?_, fun i hi =>
      ⟨getLsbD_bextU x _ _ i hi, getLsbD_bextS x _ _ i hi hw⟩⟩,
      fun h => ⟨binsW (s.readS d) x o.toNat w.toNat, ?_, fun i hi => getLsbD_binsW x _ _ _ i hi⟩⟩
    · exact scalar_done _ _ _ _ _ h (by rw [State.readS_reading])
    · exact scalar_done _ _ _ _ _ h (by rw [State.readS_reading])
    · exact scalar_done _ _ _ _ _ h (by rw [State.readS_reading, State.readS_reading])
  · exact decode_wideField 0#5 d a o w (by decide) hw
  · exact decode_wideField 1#5 d a o w (by decide) hw
  · exact decode_wideField 2#5 d a o w (by decide) hw

/-- Settles O12: each branch by its comparison; JAL and JALR read PC and sa before they write sd. -/
theorem branchesAndJumps : Obligations.BranchesAndJumps := by
  unfold Obligations.BranchesAndJumps
  refine ⟨fun s a b off h => ?branch, fun s d off h => ?jal, fun s d a imm h => ?jalr, fun s pc => s.pc_jump pc⟩
  case branch =>
    intro x y t go
    refine ⟨exec_branch (fun x y => decide (x = y)) _ rfl h rfl, exec_branch (fun x y => decide (x ≠ y)) _ rfl h rfl,
      exec_branch (fun x y => x.slt y) _ rfl h rfl, exec_branch (fun x y => !x.slt y) _ rfl h ?_,
      exec_branch (fun x y => x.ult y) _ rfl h rfl, exec_branch (fun x y => !x.ult y) _ rfl h ?_⟩
    · rw [BitVec.slt, ← decide_not, decide_eq_decide, not_lt]
    · rw [BitVec.ult, ← decide_not, decide_eq_decide, not_lt]
  case jal => exact scalar_done _ _ _ _ _ h (by rw [State.me_reading, Hart.clearRead_pc]; rfl)
  case jalr => exact scalar_done _ _ _ _ _ h (by rw [State.readS_reading, State.me_reading, Hart.clearRead_pc]; rfl)

end Sys2Proof
end

section
/-! SUPPORT. What the operations that write memory leave of it: the bytes outside what they store (05_scalar R102; 09_page
R204, R212, R213). -/

namespace Sys2Proof.Machine

section sparse

variable {α β : Type}

/-- Entries left out by their keys leave the other keys. -/
theorem sget_filter_key (d : α) (p : Nat → Bool) (m : Sparse α) {j : Nat} (hj : p j = true) :
    sget d (m.filter (fun e => p e.1)) j = sget d m j := by
  induction m with
  | nil => rfl
  | cons e r ih =>
    obtain ⟨k, v⟩ := e
    by_cases hk : p k = true
    · rw [List.filter_cons_of_pos (by exact hk), sget, sget, ih]
    · have hne : j ≠ k := fun h => hk (h ▸ hj)
      rw [List.filter_cons_of_neg (by exact hk), ih, sget, if_neg hne]

theorem sget_sclear_other (d : α) (m : Sparse α) {lo hi j : Nat} (h : j < lo ∨ hi ≤ j) :
    sget d (sclear m lo hi) j = sget d m j :=
  sget_filter_key d (fun k => decide (k < lo) || decide (hi ≤ k)) m (by simpa using h)

theorem mem_sslice_lt {m : Sparse α} {lo hi : Nat} {e : Nat × α} (h : e ∈ sslice m lo hi) : lo + e.1 < hi := by
  simp only [sslice, List.mem_map, List.mem_filter, Bool.and_eq_true, decide_eq_true_eq] at h
  obtain ⟨x, ⟨-, hlo, hhi⟩, rfl⟩ := h
  show lo + (x.1 - lo) < hi
  omega

/-- A fold leaves a key where its steps do. -/
theorem sget_foldl_other (d : α) (f : Sparse α → β → Sparse α) (l : List β) (j : Nat)
    (h : ∀ m, ∀ b ∈ l, sget d (f m b) j = sget d m j) (m : Sparse α) : sget d (l.foldl f m) j = sget d m j := by
  induction l generalizing m with
  | nil => rfl
  | cons b l ih =>
    rw [List.foldl_cons, ih (fun m b hb => h m b (List.mem_cons_of_mem _ hb)), h m b List.mem_cons_self]

end sparse

section writes

variable (s : State) (x : Nat)

/-- A fold leaves host memory where its steps do. -/
theorem State.hostMem_foldl {β : Type} (f : State → β → State) (l : List β) (h : ∀ s b, (f s b).hostMem = s.hostMem) :
    (l.foldl f s).hostMem = s.hostMem := foldl_keeps State.hostMem f h l s

theorem cleanPiece_mems (pa : Nat) (bs : List Byte) :
    (s.cleanPiece pa bs).mem = (s.writePiece .stream pa bs 0 .host 0).mem ∧
      (s.cleanPiece pa bs).hostMem = (s.writePiece .stream pa bs 0 .host 0).hostMem := by
  simp only [State.cleanPiece]
  split
  · split <;> exact ⟨rfl, rfl⟩
  · exact ⟨rfl, rfl⟩

theorem cleanWrite_hostMem (pa : Nat) (bs : List Byte) : (s.cleanWrite pa bs).hostMem = s.hostMem := by
  refine s.hostMem_foldl _ _ fun s q => ?_
  split
  · rw [(cleanPiece_mems ..).2, State.writePiece_hostMem, if_neg (by decide)]
  · rfl

theorem memByte_cleanPiece (pa : Nat) (bs : List Byte) (h : x < pa ∨ pa + bs.length ≤ x) :
    (s.cleanPiece pa bs).memByte x = s.memByte x := by
  rw [State.memByte, (cleanPiece_mems ..).1]
  exact s.memByte_writePiece .stream pa bs 0 .host 0 x h

/-- A piece of a range takes its bytes from the range's, no more than it has. -/
theorem outside_piece {pa n x : Nat} {q : Nat × Nat} {bs : List Byte} (hq : pa ≤ q.1 ∧ q.1 + q.2 ≤ pa + n)
    (h : x < pa ∨ pa + n ≤ x) : x < q.1 ∨ q.1 + ((bs.drop (q.1 - pa)).take q.2).length ≤ x := by
  have hlen : ((bs.drop (q.1 - pa)).take q.2).length ≤ q.2 := List.length_take_le _ _
  omega

/-- A write of the host, a peer or the device leaves the bytes outside its range. -/
theorem memByte_cleanWrite (pa : Nat) (bs : List Byte) (h : x < pa ∨ pa + bs.length ≤ x) :
    (s.cleanWrite pa bs).memByte x = s.memByte x := by
  refine State.memByte_foldl _ _ x (fun s q hq => ?_) s
  split
  · exact memByte_cleanPiece _ x _ _ (outside_piece (pieces_within 64 _ _ _ q hq) h)
  · rfl

theorem sget_hostMem_writePiece (kind : PageKind) (pa : Nat) (bs : List Byte) (w : Nat) (l : Level) (t : Nat)
    (h : x < pa ∨ pa + bs.length ≤ x) : sget 0 (s.writePiece kind pa bs w l t).hostMem x = sget 0 s.hostMem x := by
  rw [State.writePiece_hostMem]
  split
  · exact sget_ssetList_other _ _ _ _ _ h
  · rfl

theorem populatedPart_le (pa n : Nat) : populatedPart pa n ≤ n := by
  unfold populatedPart
  split
  · exact Nat.min_le_left _ _
  · exact Nat.zero_le _

/-- A migration leaves the bytes outside the new frame (R204). -/
theorem memByte_movePage (src dst : Nat) (h : x < dst ∨ dst + 65536 ≤ x) : (s.movePage src dst).memByte x = s.memByte x := by
  show sget 0 (s.movedBytes src dst) x = sget 0 s.mem x
  have hn := populatedPart_le dst 65536
  unfold State.movedBytes
  generalize populatedPart dst 65536 = n at hn
  simp only
  rw [sget_foldl_other, sget_foldl_other, sget_sclear_other]
  · omega
  · intro m e he
    have := mem_sslice_lt he
    exact sget_sset_other _ _ _ _ _ (by omega)
  · intro m k hk
    exact sget_ssetList_other _ _ _ _ _ (by rw [List.length_replicate]; omega)

/-- A store to a place leaves the bytes outside the copies that it writes at once (R209; 11_ordering R266). -/
theorem memByte_writePlace (pl : Place) (bs : List Byte) (w : Who) (l : Level) (lo : Bool)
    (h : ∀ c ∈ storedCopies pl lo, x < c ∨ c + bs.length ≤ x) : (s.writePlace pl bs w l lo).memByte x = s.memByte x := by
  simp only [State.writePlace]
  by_cases hr : pl.kind = .repl ∧ (!lo) = true
  · rw [if_pos hr]
    by_cases hl : pl.loose = true
    · have hc : storedCopies pl lo = [pl.pa] := if_neg fun hh => by simp [hl] at hh
      rw [hc] at h
      rw [if_pos hl, State.memByte_multicast]
      exact State.memByte_writeCopy _ _ _ _ _ _ _ _ (h pl.pa List.mem_cons_self)
    · have hc : storedCopies pl lo = pl.copies := if_pos ⟨hr.1, hr.2, by simpa using hl⟩
      rw [hc] at h
      rw [if_neg hl]
      exact State.memByte_foldl _ _ x (fun s c hc => State.memByte_writeCopy _ _ _ _ _ _ _ _ (h c hc)) s
  · have hc : storedCopies pl lo = [pl.pa] := if_neg fun hh => hr ⟨hh.1, hh.2.1⟩
    rw [hc] at h
    rw [if_neg hr]
    exact State.memByte_writeCopy _ _ _ _ _ _ _ _ (h pl.pa List.mem_cons_self)

/-- A byte of device memory that a store to a region leaves alone: those of a window, and of pages those outside the copies
of the pieces. -/
def Region.spares (lo : Bool) (x : Nat) : Region → Prop
  | .window _ _ => True
  | .pages ps => ∀ p ∈ ps, ∀ c ∈ storedCopies p.1 lo, x < c ∨ c + p.2.2 ≤ x

theorem writeRegion_window_mems (w : Who) (l : Level) (lo i : Bool) (a off : Nat) (bs : List Byte) :
    (s.writeRegion w l lo a bs (.window i off)).mem = s.mem ∧
      (s.writeRegion w l lo a bs (.window i off)).hostMem = s.hostMem := by
  cases i <;> exact ⟨rfl, rfl⟩

theorem memByte_writeRegion (w : Who) (l : Level) {lo : Bool} (a : Nat) (bs : List Byte) {r : Region}
    (h : r.spares lo x) : (s.writeRegion w l lo a bs r).memByte x = s.memByte x := by
  match r with
  | .window i off => rw [State.memByte, (writeRegion_window_mems ..).1]; rfl
  | .pages ps =>
    refine State.memByte_foldl (fun s (p : Place × Nat × Nat) =>
      s.writePlace p.1 ((bs.drop (p.2.1 - a)).take p.2.2) w l lo) ps x (fun s p hp => ?_) s
    refine memByte_writePlace s x p.1 _ w l lo fun c hc => ?_
    have hlen : ((bs.drop (p.2.1 - a)).take p.2.2).length ≤ p.2.2 := List.length_take_le _ _
    have := h p hp c hc
    omega

end writes

end Sys2Proof.Machine

namespace Sys2Proof

open Machine

/-- Settles O6: each operation keeps the canonical form, and is a fold of writes of which each leaves the bytes outside its
own range. -/
theorem writesKeepMemories : Obligations.WritesKeepMemories := by
  unfold Obligations.WritesKeepMemories
  intro s w l lo a pa bs r kind writer tenant src dst h
  refine ⟨h.writeRegion .., h.cleanWrite .., h.movePage .., h.writePiece .., fun x hx => ⟨?_, ?_, ?_⟩, fun hk => ?_,
    fun hk => ?_, cleanWrite_hostMem s pa bs, fun x hx => memByte_movePage s x src dst hx, rfl, ?_, ?_⟩
  · exact s.memByte_writePiece kind pa bs writer l tenant x hx
  · exact sget_hostMem_writePiece s x kind pa bs writer l tenant hx
  · exact memByte_cleanWrite s x pa bs hx
  · rw [State.writePiece_mem, if_pos hk]
  · rw [State.writePiece_hostMem, if_neg hk]
  · rintro i off rfl
    exact writeRegion_window_mems s w l lo i a off bs
  · rintro ps x rfl hx
    exact memByte_writeRegion s x w l a bs (r := .pages ps) hx

end Sys2Proof
end

section
/-! SUPPORT. The scalar loads and the atomics where their checks find nothing, and their waits (05_scalar R97–R106). -/

namespace Sys2Proof.Machine

section access

variable {s : State} {reads : List SReg}

theorem State.plain_reading (h : s.Plain) : (s.reading reads).Plain := by
  rw [State.Plain, State.me_reading, checkedBy_clearRead]
  exact h

/-- The check of R395, on a hart that runs no pure task. -/
theorem pureAccess_plain {write : Bool} {a n : Nat} {k : State → Res} (h : s.Plain) : pureAccess write a n k s = k s := by
  simp only [pureAccess, show s.me.checkedBy = none from h]

/-- A scalar access before its own checks, where no pure task checks it and no entry is under way (R99, R101, R395). -/
theorem pureAccess_afterViq {write : Bool} {a n : Nat} {k : State → Res} (hp : s.Plain) (hq : s.Quiet) :
    pureAccess write a n (afterViq k) (s.reading reads) = k (s.reading reads) := by
  rw [pureAccess_plain (State.plain_reading hp), afterViq_quiet _ _ (s.quiet_reading reads hq)]

end access

section loads

variable {s : State} {i : Instr} {d a : SReg} {len n : Nat}

/-- A load whose checks find nothing goes on with the bytes that they answer. -/
theorem loadBody {e : Nat} {bs : List Byte} {k : List Byte → State → Res} (hq : s.Quiet) (hp : s.Plain)
    (hl : (s.reading [a]).load ((s.reading [a]).who s.cur) e n = .ok bs) :
    pureAccess false e n (afterViq fun s => (s.load (s.who s.cur) e n).elim s fun bs => s.accessed e n bs k) (s.reading [a]) =
      (s.reading [a]).accessed e n bs k := by
  rw [pureAccess_afterViq hp hq, State.cur_reading, hl]
  rfl

/-- The state of a load that waits: what it has read of its bytes, and nothing of the reads of registers. -/
theorem withPart_undone (reads : List SReg) (p : Table Byte) : ((s.reading reads).withPart p).withHart s.cur
    { ((s.reading reads).withPart p).hart s.cur with unread := s.me.unread } = s.withPart p := by
  have hh : ((s.reading reads).withPart p).hart s.cur = { s.me.clearRead reads with part := p } := by
    rw [← State.me_reading]
    exact State.me_withMe _ _
  rw [hh]
  exact (congrArg (State.withMe · _) (State.withMe_withMe s _ _)).trans (State.withMe_withMe s _ _)

variable (ext ea : Word → Word) (hi : exec i s = loadOp len n ext d a ea s) (h : s.Ready [a] [d]) (hq : s.Quiet)
  (hp : s.Plain)
include hi h hq hp

/-- A load whose checks find nothing: at once within a naturally aligned block, else once every byte has been read (R100). -/
theorem exec_load (bs : List Byte)
    (hl : (s.reading [a]).load ((s.reading [a]).who s.cur) (ea (s.readS a)).toNat n = .ok bs) :
    ((ea (s.readS a)).toNat % n = 0 → exec i s = .next ((s.reading [a]).retire len d (ext (wordOfBytes bs)))) ∧
    ((ea (s.readS a)).toNat % n ≠ 0 →
      let p := (s.reading [a]).partWith bs ((s.reading [a]).bytesOf (ea (s.readS a)).toNat n)
      ((∀ j < n, (tget p j).isSome = true) → exec i s = .next (((s.reading [a]).withPart []).retire len d
        (ext (wordOfBytes ((List.range n).map (fun j => (tget p j).getD 0)))))) ∧
      (∀ j < n, tget p j = none → exec i s = .next ((s.withPart p).waitHere false))) := by
  refine ⟨fun hal => ?_, fun hun => ⟨fun hall => ?_, fun j hj hnone => ?_⟩⟩
  · refine hi.trans (scalar_done _ _ _ _ _ h ?_)
    rw [State.readS_reading, loadBody hq hp hl, State.accessed_aligned _ _ _ _ _ hal]
  · refine hi.trans (scalar_done _ _ _ _ _ h ?_)
    rw [State.readS_reading, loadBody hq hp hl, State.accessed_whole _ _ _ _ _ hun hall]
  · rw [← withPart_undone [a]]
    refine hi.trans (scalar_wait _ _ _ _ _ _ h ?_)
    rw [State.readS_reading, loadBody hq hp hl, State.accessed_waits _ _ _ _ _ j hun hj hnone]

end loads

section bytes

variable (s : State) (bs : List Byte) (js : List Nat) (e n j : Nat)

theorem tget_partWith : tget (s.partWith bs js) j = if j ∈ js then some (bs.getD j 0) else tget s.me.part j := by
  unfold State.partWith
  generalize s.me.part = p
  induction js generalizing p with
  | nil => rfl
  | cons k r ih =>
    rw [List.foldl_cons, ih]
    by_cases hr : j ∈ r
    · rw [if_pos hr, if_pos (List.mem_cons_of_mem _ hr)]
    · by_cases hk : j = k
      · rw [if_neg hr, hk, tget_tput_same, if_pos List.mem_cons_self]
      · rw [if_neg hr, tget_tput_other _ _ _ _ hk, if_neg (by rw [List.mem_cons]; exact not_or.2 ⟨hk, hr⟩)]

/-- The bytes of an unaligned load that a move reads: those left of the ones that the schedule names, or of all (R100). -/
theorem mem_bytesOf (h : e % n ≠ 0) :
    j ∈ s.bytesOf e n ↔ j < n ∧ tget s.me.part j = none ∧ ∀ m, s.bytesNow = some m → j ∈ m := by
  rw [State.bytesOf, if_neg h]
  simp only [List.mem_dedup, List.mem_filter, Bool.and_eq_true, decide_eq_true_eq, Option.isNone_iff_eq_none]
  cases hb : s.bytesNow with
  | none =>
    simp only [Option.getD_none, List.mem_range, reduceCtorEq, false_implies, implies_true, and_true]
    exact ⟨fun hj => hj.2, fun hj => ⟨hj.1, hj⟩⟩
  | some m =>
    simp only [Option.getD_some, Option.some.injEq, forall_eq']
    exact ⟨fun hj => ⟨hj.2.1, hj.2.2, hj.1⟩, fun hj => ⟨hj.2.2, hj.1, hj.2.1⟩⟩

end bytes

section atomics

variable {s : State} {i : Instr} {d a b : SReg} {acc : Nat} {need : Need} {release : Bool} {k : State → Place → Res} {pl : Place}

/-- An atomic whose checks find nothing and whose page does not migrate does what it does at the home slice (R103, R105). -/
theorem atomicAt_ready (reads : List SReg) (hp : s.Plain) (hq : s.Quiet) (ho : s.outstanding = false ∨ release = false)
    (h : (s.reading reads).atomicCheck ((s.reading reads).who s.cur) acc need 8 (s.readS a).toNat 8 = .ok pl)
    (hm : s.migrating .sync pl.pa = false) :
    atomicAt acc need release a k (s.reading reads) = k (s.reading reads) pl := by
  have hm' : (s.reading reads).migrating .sync pl.pa = false := hm
  have hw : ∀ f : State → Res, (if release then afterWrites else id) f (s.reading reads) = f (s.reading reads) := by
    intro f
    rcases ho with ho | rfl
    · cases release
      · rfl
      · exact afterWrites_done (s.reading reads) f ho
    · rfl
  unfold atomicAt
  rw [impureOnly_plain _ _ _ 3 hp, hw, afterViq_quiet _ _ (s.quiet_reading reads hq), State.cur_reading,
    State.readS_reading, h]
  simp only [MemRes.elim, hm', Bool.false_eq_true, and_false, if_false]

/-- One of a releasing order waits while multicasts of the hart are under way (R105; notes/assumptions/14). -/
theorem atomicAt_outstanding (reads : List SReg) (hp : s.Plain) (ho : s.outstanding = true) :
    atomicAt acc need true a k (s.reading reads) = .wait false (s.reading reads) := by
  unfold atomicAt
  rw [impureOnly_plain _ _ _ 3 hp, if_pos rfl]
  exact afterWrites_wait (s.reading reads) _ ho

/-- A read-modify-write that completes: the old doubleword in sd, the new one at the home slice (R104). -/
theorem exec_amo {ord : BitVec 2} {v : Word} (g : Word → Word → Word) (hi : exec i s = amo g ord d a b s)
    (h : s.Ready [a, b] [d]) (hq : s.Quiet) (hp : s.Plain) (ho : s.outstanding = false ∨ ordReleases ord = false)
    (hc : (s.reading [a, b]).atomicCheck ((s.reading [a, b]).who s.cur) 2 .rmw 8 (s.readS a).toNat 8 = .ok pl)
    (hm : s.migrating .sync pl.pa = false) (hv : g (s.memWord pl.pa) (s.readS b) = v) :
    exec i s = .next (((s.reading [a, b]).syncWrite ((s.reading [a, b]).who s.cur) pl.pa (bytesOfNat 8 v.toNat)).retire 4 d
      (s.memWord pl.pa)) := by
  refine hi.trans (scalar_done _ _ _ _ _ h ?_)
  rw [atomicAt_ready [a, b] hp hq ho hc hm, State.readS_reading, ← hv]
  rfl

theorem exec_amo_waits {ord : BitVec 2} (g : Word → Word → Word) (hi : exec i s = amo g ord d a b s)
    (h : s.Ready [a, b] [d]) (hp : s.Plain) (ho : s.outstanding = true) (hr : ordReleases ord = true) :
    exec i s = .next (s.waitHere false) := by
  refine hi.trans (scalar_wait_same _ _ _ _ _ h ?_)
  rw [hr, atomicAt_outstanding [a, b] hp ho]

theorem ordReleases_eq (ord : BitVec 2) : ordReleases ord = decide (2 ≤ ord.toNat) := by
  revert ord
  decide

/-- An atomic off its alignment, on pages that all have their translation and their kind (R103). -/
theorem atomicCheck_misaligned {w : Who} {n e : Nat} {ps : List (Place × Nat × Nat)} (hl : s.locate w acc need e n = .ok (.pages ps))
    (hk : ps.all (fun p => decide (p.1.kind = .sync)) = true) (he : e % 8 ≠ 0) :
    s.atomicCheck w acc need 8 e n = .trap { cause := .misalign, acc := acc, addr := BitVec.ofNat 64 e } := by
  have ha : attrCheck acc syncOnly ps = none := by
    rw [attrCheck, List.find?_eq_none.2, Option.map_none]
    intro p hps
    have : p.1.kind = .sync := of_decide_eq_true (List.all_eq_true.1 hk p hps)
    rw [this]
    decide
  simp only [State.atomicCheck, hl, MemRes.bind, ha, orTrap, if_pos he]

end atomics

end Sys2Proof.Machine

namespace Sys2Proof

open Machine

/-- Settles O14: the fourteen loads differ in length, width, extension and address alone. -/
theorem scalarLoads : Obligations.ScalarLoads := by
  unfold Obligations.ScalarLoads
  refine ⟨fun s d a o11 o32 h hq hp => ?_, fun s bs js e n j he => ⟨tget_partWith s bs js j, mem_bytesOf s e n j he⟩⟩
  intro t go x y
  exact ⟨exec_load (sext 8) (ea11 · o11) rfl h hq hp, exec_load (zext 8) (ea11 · o11) rfl h hq hp,
    exec_load (sext 16) (ea11 · o11) rfl h hq hp, exec_load (zext 16) (ea11 · o11) rfl h hq hp,
    exec_load (sext 32) (ea11 · o11) rfl h hq hp, exec_load (zext 32) (ea11 · o11) rfl h hq hp,
    exec_load id (ea11 · o11) rfl h hq hp,
    exec_load (sext 8) (ea32 · o32) rfl h hq hp, exec_load (zext 8) (ea32 · o32) rfl h hq hp,
    exec_load (sext 16) (ea32 · o32) rfl h hq hp, exec_load (zext 16) (ea32 · o32) rfl h hq hp,
    exec_load (sext 32) (ea32 · o32) rfl h hq hp, exec_load (zext 32) (ea32 · o32) rfl h hq hp,
    exec_load id (ea32 · o32) rfl h hq hp⟩

/-- Settles O18: an atomic that passes its checks acts at the home slice; one that releases first waits for the hart's
multicasts; the alignment comes after the page faults. -/
theorem atomics : Obligations.Atomics := by
  unfold Obligations.Atomics
  refine ⟨fun s ord d a b pl h hq hp ho => ?modify, fun s ord d a b ho hp => ⟨fun hr h => ?waits, fun hr h => ?casWaits,
    fun h => ?relWaits⟩, ordReleases_eq, fun s ord d a b pl h hq hp ho => ?cas, fun s d a pl h hq hp => ?acquire,
    fun s a b pl h hq hp ho => ?release, fun s w acc need a n ps hl hk ha => atomicCheck_misaligned hl hk ha⟩
  case modify =>
    intro t hc hm x y put
    exact ⟨exec_amo (fun _ y => y) rfl h hq hp ho hc hm rfl, exec_amo (· + ·) rfl h hq hp ho hc hm rfl,
      exec_amo (· &&& ·) rfl h hq hp ho hc hm rfl, exec_amo (· ||| ·) rfl h hq hp ho hc hm rfl,
      exec_amo (· ^^^ ·) rfl h hq hp ho hc hm rfl, exec_amo minS rfl h hq hp ho hc hm (minS_eq x y),
      exec_amo maxS rfl h hq hp ho hc hm (maxS_eq x y), exec_amo minU rfl h hq hp ho hc hm (minU_eq x y),
      exec_amo maxU rfl h hq hp ho hc hm (maxU_eq x y)⟩
  case waits =>
    exact ⟨exec_amo_waits (fun _ y => y) rfl h hp ho hr, exec_amo_waits (· + ·) rfl h hp ho hr,
      exec_amo_waits (· &&& ·) rfl h hp ho hr, exec_amo_waits (· ||| ·) rfl h hp ho hr,
      exec_amo_waits (· ^^^ ·) rfl h hp ho hr, exec_amo_waits minS rfl h hp ho hr, exec_amo_waits maxS rfl h hp ho hr,
      exec_amo_waits minU rfl h hp ho hr, exec_amo_waits maxU rfl h hp ho hr⟩
  case casWaits =>
    refine scalar_wait_same _ _ _ _ _ h ?_
    rw [hr, atomicAt_outstanding [a, b, d] hp ho]
  case relWaits =>
    refine scalar_wait_same _ _ _ _ _ h ?_
    rw [atomicAt_outstanding [a, b] hp ho]
  case cas =>
    intro t hc hm x
    refine scalar_done _ _ _ _ _ h ?_
    rw [atomicAt_ready [a, b, d] hp hq ho hc hm]
    simp only [State.readS_reading]
    rfl
  case acquire =>
    intro t hc
    refine scalar_done _ _ _ _ _ h ?_
    rw [atomicAt_read [a] hp hq hc]
    rfl
  case release =>
    intro t hc hm
    refine scalar_done _ _ _ _ _ h ?_
    rw [atomicAt_ready [a, b] hp hq (.inl ho) hc hm, State.readS_reading]
    rfl

end Sys2Proof
end

section
/-! SUPPORT. The scalar stores once their checks have passed: the bytes of a move, what they leave of the context, of the hart
and of memory, and the end of a store under way (05_scalar R97–R102). -/

namespace Sys2Proof.Machine

section windows

/-- A state in which at most the windows of the contexts have changed among all that contexts hold. -/
def State.KeepsButWindows (s u : State) : Prop :=
  u.cur = s.cur ∧ ∀ cid, u.ctx cid = { s.ctx cid with isw := (u.ctx cid).isw, osw := (u.ctx cid).osw }

variable {s t u : State}

theorem State.KeepsButWindows.refl (s : State) : s.KeepsButWindows s := ⟨rfl, fun _ => rfl⟩

theorem State.KeepsButWindows.trans (h : s.KeepsButWindows t) (g : t.KeepsButWindows u) : s.KeepsButWindows u := by
  refine ⟨g.1.trans h.1, fun cid => ?_⟩
  rw [g.2 cid, h.2 cid]

theorem State.KeepsButWindows.foldl {β : Type} {f : State → β → State} (hf : ∀ (s : State) b, s.KeepsButWindows (f s b)) (l : List β)
    (s : State) : s.KeepsButWindows (l.foldl f s) := by
  induction l generalizing s with
  | nil => exact .refl s
  | cons b l ih => exact (hf s b).trans (ih _)

theorem State.KeepsButWindows.hart (h : s.KeepsButWindows u) (r : HartRef) : u.hart r = s.hart r := by
  rw [State.hart, State.hart, h.2 r.cid]
  cases r.kind <;> rfl

theorem State.KeepsButWindows.me (h : s.KeepsButWindows u) : u.me = s.me := by
  rw [State.me, h.1]
  exact h.hart s.cur

theorem State.KeepsButWindows.myCtx (h : s.KeepsButWindows u) :
    u.myCtx = { s.myCtx with isw := u.myCtx.isw, osw := u.myCtx.osw } := by
  unfold State.myCtx
  rw [h.1]
  exact h.2 s.cur.cid

theorem writeRegion_keeps (s : State) (w : Who) (l : Level) (lo : Bool) (a : Nat) (bs : List Byte) (r : Region) :
    s.KeepsButWindows (s.writeRegion w l lo a bs r) := by
  have hwin : ∀ c : Ctx, (c = { s.ctx w.ref.cid with isw := c.isw, osw := c.osw }) →
      s.KeepsButWindows (s.withCtx w.ref.cid c) := fun c hc => by
    refine ⟨rfl, fun cid => ?_⟩
    by_cases h : cid = w.ref.cid
    · rw [h, State.ctx_withCtx]
      exact hc
    · rw [State.ctx_withCtx_other _ _ _ _ h]
  match r with
  | .window true off => exact hwin _ rfl
  | .window false off => exact hwin _ rfl
  | .pages ps =>
    obtain ⟨hctxs, hcur⟩ := foldl_ctxs (f := fun s (p : Place × Nat × Nat) =>
      s.writePlace p.1 ((bs.drop (p.2.1 - a)).take p.2.2) w l lo) (fun s p => writePlace_ctxs ..) ps s
    refine ⟨hcur, fun cid => ?_⟩
    have : (s.writeRegion w l lo a bs (.pages ps)).ctx cid = s.ctx cid := by
      unfold State.ctx
      exact congrArg (fun t => (tget t cid).getD Ctx.reset) hctxs
    rw [this]

theorem splitWrite_keeps (x : Split) (w : Who) (js : List Nat) (s : State) : s.KeepsButWindows (x.write w js s) := by
  unfold Split.write
  split
  · exact writeRegion_keeps ..
  · exact State.KeepsButWindows.foldl (fun s j => writeRegion_keeps ..) js s

end windows

section places

variable (s : State) (x : Split) (js : List Nat) (j : Nat)

theorem mem_after : j ∈ (x.after js).left ↔ j ∈ x.left ∧ j ∉ js := by
  simp only [Split.after, List.mem_filter, Bool.not_eq_true', List.contains_eq_mem, decide_eq_false_iff_not]

theorem after_left_nil : (x.after js).left = [] ↔ ∀ j ∈ x.left, j ∈ js := by
  rw [List.eq_nil_iff_forall_not_mem]
  exact forall_congr' fun j => by rw [mem_after]; tauto

/-- The bytes of a store that a move makes: those left, of an unaligned one those of them that the schedule names (R100). -/
theorem mem_placesNow :
    j ∈ s.placesNow x ↔ j ∈ x.left ∧ (x.base % x.data.length ≠ 0 → ∀ m, s.bytesNow = some m → j ∈ m) := by
  rw [State.placesNow]
  by_cases h : x.base % x.data.length = 0
  · rw [if_pos h]
    exact ⟨fun hj => ⟨hj, fun hn => absurd h hn⟩, fun hj => hj.1⟩
  · rw [if_neg h]
    cases s.bytesNow with
    | none => exact ⟨fun hj => ⟨hj, fun _ m hm => nomatch hm⟩, fun hj => hj.1⟩
    | some m =>
      simp only [List.mem_dedup, List.mem_filter, List.contains_eq_mem, decide_eq_true_eq, Option.some.injEq, forall_eq']
      exact ⟨fun hj => ⟨hj.2, fun _ => hj.1⟩, fun hj => ⟨hj.2 h, hj.1⟩⟩

theorem length_bytesOfNat (n v : Nat) : (bytesOfNat n v).length = n := by
  induction n generalizing v with
  | zero => rfl
  | succ n ih => rw [bytesOfNat, List.length_cons, ih]

end places

section begin

variable {s : State} {i : Instr} {d a : SReg} {len n : Nat} {lo : Bool} {ea : Word → Word} {r : Region}

/-- A store as it begins, at its address with its bytes, all of them left. -/
def storeSplit (len n : Nat) (lo : Bool) (d a : SReg) (e : Nat) (v : Word) (r : Region) : Split :=
  { len := len, reads := [a, d], base := e, data := bytesOfNat n v.toNat, localOnly := lo, region := r,
    left := List.range n }

/-- A store whose checks find nothing begins (R99). -/
theorem storeBody (hq : s.Quiet) (hp : s.Plain) {e : Nat}
    (hc : (s.reading [a, d]).storeCheck ((s.reading [a, d]).who s.cur) .write storeKinds n .none lo e n = .ok r) :
    pureAccess true e n (afterViq fun s =>
      let bs := bytesOfWord n (s.readS d)
      (s.storeCheck (s.who s.cur) .write storeKinds n .none lo e n).elim s (fun r =>
        s.beginStore { len := len, reads := [a, d], base := e, data := bs, localOnly := lo, region := r,
                       left := List.range n })) (s.reading [a, d]) =
      (s.reading [a, d]).beginStore (storeSplit len n lo d a e (s.readS d) r) := by
  rw [pureAccess_afterViq hp hq]
  simp only [State.cur_reading, hc, State.readS_reading]
  rfl

/-- The state of a store that waits with the bytes left, and nothing of the reads of registers. -/
theorem splitState_undone {u : State} {y : Split} {unread : List Nat} (hcur : u.cur = s.cur) :
    (u.withMe { u.me with split := some y }).withHart s.cur
      { (u.withMe { u.me with split := some y }).hart s.cur with unread := unread } =
      u.withMe { u.me with split := some y, unread := unread } := by
  have hm : (u.withMe { u.me with split := some y }).hart u.cur = { u.me with split := some y } := State.me_withMe u _
  rw [← hcur, hm]
  exact State.withMe_withMe u _ _

variable (ea : Word → Word) (hi : exec i s = storeOp len n lo d a ea s) (h : s.Ready [a, d] []) (hq : s.Quiet) (hp : s.Plain)
  (hc : (s.reading [a, d]).storeCheck ((s.reading [a, d]).who s.cur) .write storeKinds n .none lo (ea (s.readS a)).toNat n =
    .ok r)
include hi h hq hp hc

/-- A store that makes all its bytes in one move is the writing of its region (R99). -/
theorem exec_store_whole (hw : (ea (s.readS a)).toNat % n = 0 ∨ s.bytesNow = none) :
    exec i s = .next (((s.reading [a, d]).writeRegion ((s.reading [a, d]).who s.cur) .none lo (ea (s.readS a)).toNat
      (bytesOfNat n (s.readS d).toNat) r).advance len) := by
  have hlen := length_bytesOfNat n (s.readS d).toNat
  refine hi.trans (scalar_done _ _ _ _ _ h ?_)
  rw [State.readS_reading, storeBody hq hp hc, State.beginStore_whole]
  · rfl
  · exact congrArg List.range hlen.symm
  · rcases hw with hw | hw
    · exact State.placesNow_aligned _ _ (by rw [storeSplit, hlen]; exact hw)
    · exact State.placesNow_none _ _ hw

/-- A store whose checks find nothing, by the bytes that the move makes: all, so that it ends, or not (R99, R100). -/
theorem exec_store :
    let t := s.reading [a, d]
    let w := t.who s.cur
    let x := storeSplit len n lo d a (ea (s.readS a)).toNat (s.readS d) r
    let js := t.placesNow x
    let u := x.write w js t
    ((ea (s.readS a)).toNat % n = 0 ∨ s.bytesNow = none →
      exec i s = .next ((t.writeRegion w .none lo (ea (s.readS a)).toNat (bytesOfNat n (s.readS d).toNat) r).advance len)) ∧
    ((∀ j < n, j ∈ js) → exec i s = .next (u.advance len)) ∧
    (∀ j < n, j ∉ js →
      exec i s = .next ((u.withMe { u.me with split := some (x.after js), unread := s.me.unread }).waitHere false)) := by
  intro t w x js u
  have hbody := storeBody (len := len) hq hp hc
  refine ⟨exec_store_whole ea hi h hq hp hc, fun hall => ?_, fun j hj hn => ?_⟩
  · have hnil : (x.after js).left = [] := (after_left_nil x js).2 fun j hj => hall j (List.mem_range.1 hj)
    refine hi.trans (scalar_done _ _ _ _ _ h ?_)
    rw [State.readS_reading, hbody]
    exact if_pos hnil
  · have hcur : u.cur = s.cur := (splitWrite_keeps x w js t).1
    have hleft : (x.after js).left ≠ [] := fun hnil => hn ((after_left_nil x js).1 hnil j (List.mem_range.2 hj))
    rw [← splitState_undone hcur]
    refine hi.trans (scalar_wait _ _ _ _ _ _ h ?_)
    rw [State.readS_reading, hbody]
    exact State.beginStore_part t x hleft

end begin

section goOn

variable {s : State} {x : Split} (hx : s.me.split = some x) (hv : s.vectorMoves = false)
include hx hv

theorem turn_goesOn : s.turn = .next (s.goOnStore x) := by
  rw [State.turn, hv, hx]
  rfl

/-- The move that makes the last bytes of a store leaves the hart behind it (R100). -/
theorem turn_endsStore (h : ∀ j ∈ x.left, j ∈ s.placesNow x) : ∃ v, s.turn = .next v ∧
    v.me.pc = s.me.pc + BitVec.ofNat 64 x.len ∧ v.me.split = none ∧ v.me.regs = s.me.regs ∧
    v.mem = (x.write (s.who s.cur) (s.placesNow x) s).mem ∧ v.hostMem = (x.write (s.who s.cur) (s.placesNow x) s).hostMem := by
  have hme := (splitWrite_keeps x (s.who s.cur) (s.placesNow x) s).me
  refine ⟨_, turn_goesOn hx hv, ?_⟩
  rw [State.goOnStore_end _ _ ((after_left_nil _ _).2 h), State.me_withMe, hme]
  exact ⟨rfl, rfl, rfl, rfl, rfl⟩

theorem turn_leavesBytes {j : Nat} (hj : j ∈ x.left) (hn : j ∉ s.placesNow x) :
    s.turn = .next (((x.write (s.who s.cur) (s.placesNow x) s).withMe { (x.write (s.who s.cur) (s.placesNow x) s).me with
      split := some (x.after (s.placesNow x)) }).waitHere false) := by
  rw [turn_goesOn hx hv, State.goOnStore, if_neg fun hnil => hn ((after_left_nil _ _).1 hnil j hj)]

end goOn

section osw

variable {α : Type} [DecidableEq α] (z : α) (f : Nat → α) (off y : Nat)

/-- Consecutive values are set one by one. -/
theorem ssetList_eq_foldl (m : Sparse α) (xs : List α) : ssetList z m off xs =
    (List.range xs.length).foldl (fun m j => sset z m (off + j) (xs.getD j z)) m := by
  induction xs generalizing m off with
  | nil => rfl
  | cons v xs ih =>
    rw [ssetList, ih, List.length_cons, List.range_succ_eq_map, List.foldl_cons, List.foldl_map]
    simp only [Nat.add_zero, List.getD_cons_zero, List.getD_cons_succ, Nat.succ_eq_add_one, Nat.add_right_comm, Nat.add_assoc]

/-- Values set at some places from an offset on: those places hold theirs, the others what they held. -/
theorem sget_foldl_sset (m : Sparse α) (js : List Nat) (hm : swf z m = true) :
    sget z (js.foldl (fun m j => sset z m (off + j) (f j)) m) y =
      if off ≤ y ∧ y - off ∈ js then f (y - off) else sget z m y := by
  induction js generalizing m with
  | nil => rw [if_neg fun h => List.not_mem_nil h.2]; rfl
  | cons j js ih =>
    rw [List.foldl_cons, ih _ (swf_sset z m _ _ hm)]
    by_cases hin : off ≤ y ∧ y - off ∈ js
    · rw [if_pos hin, if_pos ⟨hin.1, List.mem_cons_of_mem _ hin.2⟩]
    · rw [if_neg hin]
      by_cases hj : y = off + j
      · have hyj : y - off = j := by omega
        rw [hj, sget_sset_same _ _ _ _ hm, if_pos ⟨Nat.le_add_right _ _, by rw [Nat.add_sub_cancel_left]; exact List.mem_cons_self⟩,
          Nat.add_sub_cancel_left]
      · rw [sget_sset_other _ _ _ _ _ hj, if_neg]
        rintro ⟨hle, hmem⟩
        rcases List.mem_cons.1 hmem with rfl | hmem
        · omega
        · exact hin ⟨hle, hmem⟩

end osw

section oswStore

variable {s : State} {x : Split} {js : List Nat} {off : Nat}

/-- A state in which, of both memories and the moving context, at most the OS window has changed: it is m. -/
def State.OswBecomes (s u : State) (m : Sparse Byte) : Prop :=
  u.cur = s.cur ∧ u.myCtx = { s.myCtx with osw := m } ∧ u.mem = s.mem ∧ u.hostMem = s.hostMem

theorem writeRegion_osw {t : State} {m : Sparse Byte} (h : s.OswBecomes t m) (l : Level) (lo : Bool) (a : Nat) (bs : List Byte) :
    s.OswBecomes (t.writeRegion (s.who s.cur) l lo a bs (.window false off)) (ssetList 0 m off bs) := by
  obtain ⟨hcur, hctx, hmem, hhost⟩ := h
  have hcid : t.ctx s.cur.cid = { s.myCtx with osw := m } := by rw [← hctx, State.myCtx, hcur]
  refine ⟨hcur, ?_, hmem, hhost⟩
  show (t.withCtx s.cur.cid { t.ctx s.cur.cid with osw := ssetList 0 (t.ctx s.cur.cid).osw off bs }).ctx t.cur.cid = _
  rw [hcid, hcur, State.ctx_withCtx]

/-- What a store to the OS window does to it: the bytes that the move makes, one by one. -/
theorem splitWrite_osw (hr : x.region = .window false off) : s.OswBecomes (x.write (s.who s.cur) js s)
    (js.foldl (fun m j => sset 0 m (off + j) (x.data.getD j 0)) s.myCtx.osw) := by
  have h0 : s.OswBecomes s s.myCtx.osw := ⟨rfl, rfl, rfl, rfl⟩
  rw [Split.write, hr]
  split
  · rename_i hall
    rw [hall, ← ssetList_eq_foldl]
    exact writeRegion_osw h0 ..
  · have hfold : ∀ (js : List Nat) (t : State) (m : Sparse Byte), s.OswBecomes t m → s.OswBecomes
        (js.foldl (fun t j => t.writeRegion (s.who s.cur) .none x.localOnly (x.base + j) [x.data.getD j 0]
          (Region.byteAt x.base j (.window false off))) t)
        (js.foldl (fun m j => sset 0 m (off + j) (x.data.getD j 0)) m) := by
      intro js
      induction js with
      | nil => exact fun _ _ h => h
      | cons j js ih => exact fun t m h => ih _ _ (writeRegion_osw h ..)
    exact hfold js s _ h0

end oswStore

end Sys2Proof.Machine

namespace Sys2Proof

open Machine

/-- Settles O15: the ten stores differ in length, width, address and copies alone; a store under way goes on as it began, and
to the OS window its bytes are set one by one. -/
theorem scalarStores : Obligations.ScalarStores := by
  unfold Obligations.ScalarStores
  refine ⟨fun s d a o11 o32 r h hq hp => ?first, fun s x hx hv => ?later, fun s x j => ⟨mem_placesNow s x j, fun js => mem_after x js j⟩,
    fun s x js off y hw hr hj => ?window⟩
  case first =>
    intro t w put x y
    exact ⟨exec_store (ea11 · o11) rfl h hq hp, exec_store (ea11 · o11) rfl h hq hp, exec_store (ea11 · o11) rfl h hq hp,
      exec_store (ea11 · o11) rfl h hq hp, exec_store (ea11 · o11) rfl h hq hp,
      exec_store (ea32 · o32) rfl h hq hp, exec_store (ea32 · o32) rfl h hq hp, exec_store (ea32 · o32) rfl h hq hp,
      exec_store (ea32 · o32) rfl h hq hp, exec_store (ea32 · o32) rfl h hq hp⟩
  case later => exact ⟨fun h => turn_endsStore hx hv h, fun j hj hn => turn_leavesBytes hx hv hj hn⟩
  case window =>
    obtain ⟨-, hctx, hmem, hhost⟩ := splitWrite_osw (s := s) (js := js) hr
    refine ⟨?_, hmem, hhost, (splitWrite_keeps ..).me⟩
    rw [hctx]
    exact sget_foldl_sset 0 (x.data.getD · 0) off y s.myCtx.osw js hw

end Sys2Proof
end

section
/-! SUPPORT. The frame of a store: what it leaves of memory, of the windows, of the context and of the hart (05_scalar
R97–R102). -/

namespace Sys2Proof.Machine

section bytes

/-- A place moved up by k bytes. -/
def Place.moveUp (pl : Place) (k : Nat) : Place := { pl with pa := pl.pa + k, copies := pl.copies.map (· + k) }

theorem storedCopies_shift (pl : Place) (k : Nat) (lo : Bool) :
    storedCopies (pl.moveUp k) lo = (storedCopies pl lo).map (· + k) := by
  unfold storedCopies Place.moveUp
  split <;> rfl

theorem mem_granSplit {ps : List (Place × Nat × Nat)} {g : Place × Nat × Nat} (h : g ∈ granSplit ps) :
    ∃ p ∈ ps, ∃ k, g.1 = p.1.moveUp k ∧ g.2.1 = p.2.1 + k ∧ k + g.2.2 ≤ p.2.2 := by
  simp only [granSplit, List.mem_flatMap, List.mem_map] at h
  obtain ⟨p, hp, q, hq, rfl⟩ := h
  obtain ⟨hlo, hhi⟩ := pieces_within 64 _ _ _ q hq
  exact ⟨p, hp, q.1 - p.2.1, rfl, by show q.1 = _; omega, by show _ + q.2 ≤ _; omega⟩

/-- What a store to a region spares, a store of one of its bytes spares. -/
theorem spares_byteAt {r : Region} {lo : Bool} {y : Nat} (a j : Nat) (h : r.spares lo y) : (r.byteAt a j).spares lo y := by
  match r with
  | .window i off => trivial
  | .pages ps =>
    intro b hb c hc
    simp only [List.mem_filterMap] at hb
    obtain ⟨g, hg, hgb⟩ := hb
    split at hgb
    · rename_i hin
      obtain ⟨p, hp, k, hpl, hva, hn⟩ := mem_granSplit hg
      cases hgb
      have hc' : c ∈ storedCopies (g.1.moveUp (a + j - g.2.1)) lo := hc
      rw [storedCopies_shift, hpl, storedCopies_shift, List.mem_map] at hc'
      obtain ⟨c1, hc1, rfl⟩ := hc'
      obtain ⟨c0, hc0, rfl⟩ := List.mem_map.1 hc1
      have := h p hp c0 hc0
      show y < c0 + k + (a + j - g.2.1) ∨ c0 + k + (a + j - g.2.1) + 1 ≤ y
      omega
    · cases hgb

theorem memByte_splitWrite {x : Split} {y : Nat} (w : Who) (js : List Nat) (s : State) (h : x.region.spares x.localOnly y) :
    (x.write w js s).memByte y = s.memByte y := by
  unfold Split.write
  split
  · exact memByte_writeRegion s y w .none _ _ h
  · exact State.memByte_foldl _ js y (fun s j _ => memByte_writeRegion s y w .none _ _ (spares_byteAt _ _ h)) s

end bytes

section context

/-- A byte of the OS window that a store of n bytes to a region leaves alone. -/
def Region.sparesOsw (n y : Nat) : Region → Prop
  | .window _ off => y < off ∨ off + n ≤ y
  | .pages _ => True

variable {s : State}

/-- Where a store may write: the OS window or pages (R35, R98). -/
theorem storeCheck_region {w : Who} {need : Need} {kinds : PageKind → Bool} {align : Nat} {l : Level} {lo : Bool} {a n : Nat}
    {r : Region} (h : s.storeCheck w need kinds align l lo a n = .ok r) :
    (∃ off, r = .window false off) ∨ ∃ ps, r = .pages ps := by
  unfold State.storeCheck at h
  cases hl : s.locate w 2 need a n with
  | trap t => rw [hl] at h; cases h
  | stall => rw [hl] at h; cases h
  | ok r0 =>
    rw [hl] at h
    simp only [MemRes.bind] at h
    split at h
    · cases h
    · split at h
      · cases h
      · cases h; exact .inl ⟨_, rfl⟩
    · right
      simp only [orTrap] at h
      repeat' split at h
      all_goals cases h
      exact ⟨_, rfl⟩

theorem splitWrite_pages {x : Split} {ps : List (Place × Nat × Nat)} (hr : x.region = .pages ps) (w : Who) (js : List Nat) :
    (x.write w js s).ctxs = s.ctxs ∧ (x.write w js s).cur = s.cur := by
  have hpages : ∀ (s : State) (a : Nat) (bs : List Byte) (ps : List (Place × Nat × Nat)),
      (s.writeRegion w .none x.localOnly a bs (.pages ps)).ctxs = s.ctxs ∧
        (s.writeRegion w .none x.localOnly a bs (.pages ps)).cur = s.cur := fun s a bs ps =>
    foldl_ctxs (f := fun s (p : Place × Nat × Nat) => s.writePlace p.1 ((bs.drop (p.2.1 - a)).take p.2.2) w .none x.localOnly)
      (fun s p => writePlace_ctxs ..) ps s
  rw [Split.write, hr]
  split
  · exact hpages ..
  · exact foldl_ctxs (fun s j => hpages s _ _ _) js s

/-- The bytes of a move leave the context but for the OS window, and of that the bytes outside those of the store. -/
theorem splitWrite_myCtx {x : Split} {js : List Nat} (hr : (∃ off, x.region = .window false off) ∨ ∃ ps, x.region = .pages ps)
    (hj : ∀ j ∈ js, j < x.data.length) : ∃ m, (x.write (s.who s.cur) js s).myCtx = { s.myCtx with osw := m } ∧
      ∀ y, x.region.sparesOsw x.data.length y → sget 0 m y = sget 0 s.myCtx.osw y := by
  rcases hr with ⟨off, hr⟩ | ⟨ps, hr⟩
  · refine ⟨_, (splitWrite_osw hr).2.1, fun y hy => sget_foldl_other 0 _ js y (fun m j hjs => ?_) _⟩
    rw [hr] at hy
    have := hj j hjs
    have hy' : y < off ∨ off + x.data.length ≤ y := hy
    exact sget_sset_other _ _ _ _ _ (by omega)
  · obtain ⟨hctxs, hcur⟩ := splitWrite_pages (s := s) hr (s.who s.cur) js
    refine ⟨s.myCtx.osw, ?_, fun _ _ => rfl⟩
    rw [State.myCtx, State.ctx, hctxs, hcur]
    rfl

end context

section frame

/-- The state once a move has made its bytes of a store. -/
def State.bytesMade (s : State) (x : Split) : State := x.write (s.who s.cur) (s.placesNow x) s

variable {s u : State} {i : Instr} {d a : SReg} {len n : Nat} {lo : Bool} {ea : Word → Word} {r : Region}

/-- A store within a naturally aligned block makes all its bytes; another one makes some of them, or all (R100). -/
theorem exec_store_next (hi : exec i s = storeOp len n lo d a ea s) (h : s.Ready [a, d] []) (hq : s.Quiet) (hp : s.Plain)
    (hc : (s.reading [a, d]).storeCheck ((s.reading [a, d]).who s.cur) .write storeKinds n .none lo (ea (s.readS a)).toNat n =
      .ok r) (hu : exec i s = .next u) :
    let x := storeSplit len n lo d a (ea (s.readS a)).toNat (s.readS d) r
    let v := (s.reading [a, d]).bytesMade x
    u = v.advance len ∨ ((ea (s.readS a)).toNat % n ≠ 0 ∧
      ∃ y un, u = (v.withMe { v.me with split := y, unread := un }).waitHere false) := by
  intro x v
  obtain ⟨-, hends, hwaits⟩ := exec_store ea hi h hq hp hc
  have hlen : x.data.length = n := length_bytesOfNat n _
  by_cases hall : ∀ j < n, j ∈ (s.reading [a, d]).placesNow x
  · rw [hends hall] at hu
    cases hu
    exact .inl rfl
  · rw [not_forall₂] at hall
    obtain ⟨j, hj, hn⟩ := hall
    rw [hwaits j hj hn] at hu
    cases hu
    refine .inr ⟨fun hal => hn ((mem_placesNow _ x j).2 ⟨List.mem_range.2 hj, fun hun => absurd ?_ hun⟩), _, _, rfl⟩
    rw [hlen]
    exact hal

/-- The bytes that a move makes of a store leave the moving hart, and its context but for the OS window. -/
theorem bytesMade_myCtx {x : Split} (hl : x.left = List.range x.data.length)
    (hr : (∃ off, x.region = .window false off) ∨ ∃ ps, x.region = .pages ps) :
    ∃ m, (s.bytesMade x).myCtx = { s.myCtx with osw := m } ∧
      ∀ y, x.region.sparesOsw x.data.length y → sget 0 m y = sget 0 s.myCtx.osw y := by
  refine splitWrite_myCtx hr fun j hj => ?_
  rw [← List.mem_range, ← hl]
  exact ((mem_placesNow s x j).1 hj).1

theorem me_withMe_waitHere (v : State) (g : Hart) : ((v.withMe g).waitHere false).me = { g with yielding := false } := by
  rw [State.me_waitHere, State.me_withMe]

theorem myCtx_withMe_waitHere (v : State) (g : Hart) :
    ((v.withMe g).waitHere false).myCtx = v.myCtx.withHart v.cur.kind { g with yielding := false } := by
  show ((v.withMe g).withMe { (v.withMe g).me with yielding := false }).myCtx = _
  rw [State.withMe_withMe, State.myCtx_withMe, State.me_withMe]

/-- What a store adds to the bytes that it has made: PC, the bytes left, the unread-error bits of the moving hart. PC moves on
where no byte is left, as behind a naturally aligned store. -/
theorem exec_store_hart (hi : exec i s = storeOp len n lo d a ea s) (h : s.Ready [a, d] []) (hq : s.Quiet) (hp : s.Plain)
    (hc : (s.reading [a, d]).storeCheck ((s.reading [a, d]).who s.cur) .write storeKinds n .none lo (ea (s.readS a)).toNat n =
      .ok r) (hu : exec i s = .next u) :
    let v := (s.reading [a, d]).bytesMade (storeSplit len n lo d a (ea (s.readS a)).toNat (s.readS d) r)
    ∃ g, u.me = g ∧ u.myCtx = v.myCtx.withHart s.cur.kind g ∧ u.mem = v.mem ∧
      g = { s.me with pc := g.pc, split := g.split, unread := g.unread, yielding := g.yielding } ∧
      ((ea (s.readS a)).toNat % n = 0 → g.pc = s.me.pc + BitVec.ofNat 64 len) ∧
      (g.pc = s.me.pc + BitVec.ofNat 64 len ∨ g.pc = s.me.pc) := by
  intro v
  have hkeep : (s.reading [a, d]).KeepsButWindows v := splitWrite_keeps ..
  have hcur : v.cur = s.cur := hkeep.1
  have hme : v.me = s.me.clearRead [a, d] := hkeep.me.trans (s.me_reading _)
  rcases exec_store_next hi h hq hp hc hu with hu | ⟨hun, y, un, hu⟩
  · refine ⟨{ v.me with pc := v.me.pc + BitVec.ofNat 64 len }, ?_, ?_, ?_, ?_⟩
    · rw [hu, State.advance, State.me_withMe]
    · rw [hu, State.advance, State.myCtx_withMe, hcur]
    · rw [hu, State.advance_mem]
    · rw [hme]
      exact ⟨rfl, fun _ => rfl, .inl rfl⟩
  · refine ⟨{ v.me with split := y, unread := un, yielding := false }, ?_, ?_, ?_, ?_⟩
    · rw [hu, me_withMe_waitHere]
    · rw [hu, myCtx_withMe_waitHere, hcur]
    · rw [hu, State.mem_waitHere, State.withMe_mem]
    · rw [hme]
      exact ⟨rfl, fun hal => absurd hal hun, .inr rfl⟩

end frame

end Sys2Proof.Machine

namespace Sys2Proof

open Machine

/-- Settles O16: the bytes that a move makes leave all but the copies of the pieces and the OS window; what follows them
changes PC, the bytes left and the unread-error bits of the moving hart alone. -/
theorem storeFrame : Obligations.StoreFrame := by
  unfold Obligations.StoreFrame
  intro s u lo d a o11 r h hq hp t w e hc hu
  have hi : exec (if lo then .stLocal d a o11 else .st d a o11) s = storeOp 4 8 lo d a (ea11 · o11) s := by
    cases lo <;> rfl
  obtain ⟨g, hg, hgctx, hgmem, hgrest, hpcAligned, hpc⟩ := exec_store_hart hi h hq hp hc hu
  generalize hx : storeSplit 4 8 lo d a (ea11 (s.readS a) o11).toNat (s.readS d) r = x at hgctx hgmem
  have hlen : x.data.length = 8 := by rw [← hx]; exact length_bytesOfNat 8 _
  have hreg : x.region = r := by rw [← hx]; rfl
  have hlo : x.localOnly = lo := by rw [← hx]; rfl
  obtain ⟨m, hctx, hosw⟩ := bytesMade_myCtx (s := t) (x := x) (by rw [hlen, ← hx]; rfl)
    (by rw [hreg]; exact storeCheck_region hc)
  have hmem : ∀ y, r.spares lo y → u.memByte y = s.memByte y := fun y hy => by
    rw [State.memByte, hgmem]
    exact memByte_splitWrite _ _ t (by rw [hreg, hlo]; exact hy)
  have hbase : t.myCtx = s.myCtx.withHart s.cur.kind (s.me.clearRead [a, d]) := State.myCtx_withMe ..
  have hfield : u.myCtx = ({ s.myCtx with osw := m }).withHart s.cur.kind g := by
    rw [hgctx, hctx, hbase]
    cases s.cur.kind <;> rfl
  rw [hreg, hlen, hbase, Ctx.withHart_osw] at hosw
  refine ⟨fun y hy => hmem y ?_, fun y hy => ?_, fun hal => ?_, ?_, ?_, ?_⟩
  · cases r <;> exact hy
  · rw [hfield, Ctx.withHart_osw]
    refine hosw y ?_
    obtain ⟨off, rfl⟩ | ⟨ps, rfl⟩ := storeCheck_region hc
    · exact hy
    · trivial
  · rw [hg]; exact hpcAligned hal
  · rw [hg]; exact hpc
  · rw [hfield, Ctx.withHart_isw]
  · rw [hg, hgrest]
    simp only [hfield, Ctx.withHart_v, Ctx.withHart_vtag, Ctx.withHart_m, Ctx.withHart_tile, Ctx.withHart_sorus,
      Ctx.withHart_scale, Ctx.withHart_vl, Ctx.withHart_vtype, Ctx.withHart_vfill, Ctx.withHart_spc, Ctx.withHart_vcp,
      Ctx.withHart_trapvec, and_self]

end Sys2Proof
end

section
/-! SUPPORT. The elements of a load, in ascending order: where each of them can be read, and where one of them faults
(06_vector R134–R137; 05_scalar R99). -/

namespace Sys2Proof.Machine

theorem setElem_eq (c : Ctx) (r : VReg) (w i x : Nat) :
    c.setElem r w i x = { c with v := (c.setElem r w i x).v } := by
  unfold Ctx.setElem
  simp only
  split <;> rfl

section element

variable {t : State} {d : VReg} {w : Nat}

/-- Element i of a register of the moving context written. -/
def State.putElem (t : State) (d : VReg) (w i x : Nat) : State := t.withMyCtx (t.myCtx.setElem d w i x)

theorem putElem_myCtx (i x : Nat) : (t.putElem d w i x).myCtx = { t.myCtx with v := (t.myCtx.setElem d w i x).v } := by
  rw [State.putElem, State.myCtx_withMyCtx]
  exact setElem_eq ..

theorem putElem_plain (h : t.Plain) (i x : Nat) : (t.putElem d w i x).Plain := by
  rw [State.Plain, State.putElem, State.me_withMyCtx, setElem_eq]
  exact h

theorem putElem_who (i x : Nat) : (t.putElem d w i x).who t.cur = t.who t.cur := by
  have h : (t.putElem d w i x).ctx t.cur.cid = _ := putElem_myCtx i x
  simp only [State.who, h]
  rfl

/-- What memory holds for the moving hart does not depend on its vector registers. -/
theorem load_putElem (i x a n : Nat) : (t.putElem d w i x).load (t.who t.cur) a n = t.load (t.who t.cur) a n := by
  rw [State.putElem, setElem_eq]
  exact loadFor_withCtx t t.cur.cid _ _ _ _ _ _ _ _ rfl rfl rfl

end element

section loop

/-- The bits that element j takes from its bytes (R135). -/
def loadedBits (w : Nat) (data : Nat → List Byte) (shift : Nat → Nat) (j : Nat) : Nat :=
  natOfBytes (data j) / 2 ^ shift j % 2 ^ w

/-- The state in which the elements js have been loaded, one by one. -/
def State.loadElems (t : State) (d : VReg) (w : Nat) (data : Nat → List Byte) (shift : Nat → Nat) (js : List Nat) : State :=
  js.foldl (fun t j => t.putElem d w j (loadedBits w data shift j)) t

variable {d : VReg} {w : Nat} {data : Nat → List Byte} {shift : Nat → Nat} (js : List Nat) (t : State)

theorem loadElems_cur : (t.loadElems d w data shift js).cur = t.cur :=
  foldl_keeps State.cur (fun t j => State.putElem t d w j (loadedBits w data shift j)) (fun _ _ => rfl) js t

theorem loadElems_mem : (t.loadElems d w data shift js).mem = t.mem :=
  foldl_keeps State.mem (fun t j => State.putElem t d w j (loadedBits w data shift j)) (fun _ _ => rfl) js t

theorem loadElems_myCtx : (t.loadElems d w data shift js).myCtx =
    t.myCtx.setElems d w (js.map fun j => (j, loadedBits w data shift j)) := by
  induction js generalizing t with
  | nil => rfl
  | cons j r ih => exact (ih (t.putElem d w j _)).trans (by rw [State.putElem, State.myCtx_withMyCtx]; rfl)

/-- The elements loaded are lost under a context written over them. -/
theorem loadElems_withMyCtx (c : Ctx) : (t.loadElems d w data shift js).withMyCtx c = t.withMyCtx c := by
  induction js generalizing t with
  | nil => rfl
  | cons j r ih => exact (ih (t.putElem d w j _)).trans (State.withCtx_withCtx ..)

/-- Where the moving context is listed, the elements are loaded into it at once. -/
theorem loadElems_listed (h : t.withMyCtx t.myCtx = t) : t.loadElems d w data shift js =
    t.withMyCtx (t.myCtx.setElems d w (js.map fun j => (j, loadedBits w data shift j))) := by
  have hlisted : ∀ u : State, u.withMyCtx u.myCtx = u →
      (u.loadElems d w data shift js).withMyCtx (u.loadElems d w data shift js).myCtx = u.loadElems d w data shift js := by
    induction js with
    | nil => exact fun u hu => hu
    | cons j r ih =>
      refine fun u _ => ih (u.putElem d w j _) ?_
      rw [State.putElem, State.myCtx_withMyCtx]
      exact State.withCtx_withCtx ..
  rw [← loadElems_myCtx, ← loadElems_withMyCtx js]
  exact (hlisted t h).symm

variable {js t}

/-- The elements loaded leave what the moving hart reads. -/
theorem load_loadElems (a n : Nat) : (t.loadElems d w data shift js).load (t.who t.cur) a n = t.load (t.who t.cur) a n := by
  induction js generalizing t with
  | nil => rfl
  | cons j r ih =>
    have hstep := ih (t := t.putElem d w j (loadedBits w data shift j))
    rw [show (t.putElem d w j _).cur = t.cur from rfl, putElem_who, load_putElem] at hstep
    exact hstep

theorem who_loadElems : (t.loadElems d w data shift js).who t.cur = t.who t.cur := by
  induction js generalizing t with
  | nil => rfl
  | cons j r ih => exact (ih (t := t.putElem d w j _)).trans (putElem_who ..)

theorem plain_loadElems (h : t.Plain) : (t.loadElems d w data shift js).Plain := by
  induction js generalizing t with
  | nil => exact h
  | cons j r ih => exact ih (putElem_plain h ..)

variable {addr : Nat → Nat} {rest : List Nat}

/-- The loop goes on behind elements whose bytes can be read: what it has loaded changes no later read (R134). -/
theorem elemLoop_loads (hp : t.Plain) (h : ∀ j ∈ js, t.load (t.who t.cur) (addr j) (elemBytes w) = .ok (data j)) :
    elemLoop false (elemBytes w) addr (loadElem d w addr shift) (js ++ rest) t =
      elemLoop false (elemBytes w) addr (loadElem d w addr shift) rest (t.loadElems d w data shift js) := by
  induction js generalizing t with
  | nil => rfl
  | cons j r ih =>
    have hrest : ∀ k ∈ r, (t.putElem d w j (loadedBits w data shift j)).load
        ((t.putElem d w j (loadedBits w data shift j)).who t.cur) (addr k) (elemBytes w) = .ok (data k) := fun k hk => by
      rw [putElem_who, load_putElem]
      exact h k (List.mem_cons_of_mem _ hk)
    rw [List.cons_append, elemLoop, pureElem, show t.me.checkedBy = none from hp]
    simp only [loadElem, h j List.mem_cons_self, MemRes.bind]
    exact ih (putElem_plain hp ..) hrest

/-- Every element can be read. -/
theorem elemLoop_loads_all (hp : t.Plain) (h : ∀ j ∈ js, t.load (t.who t.cur) (addr j) (elemBytes w) = .ok (data j)) :
    elemLoop false (elemBytes w) addr (loadElem d w addr shift) js t = .done (t.loadElems d w data shift js) := by
  have := elemLoop_loads (shift := shift) (d := d) (rest := []) hp h
  rwa [List.append_nil] at this

/-- Element j is the first that faults: those before it are loaded (R134). -/
theorem elemLoop_faults {j : Nat} {x : Trap} (hp : t.Plain)
    (h : ∀ i ∈ js, t.load (t.who t.cur) (addr i) (elemBytes w) = .ok (data i))
    (hj : t.load (t.who t.cur) (addr j) (elemBytes w) = .trap x) :
    elemLoop false (elemBytes w) addr (loadElem d w addr shift) (js ++ j :: rest) t =
      .trap { x with elem := j } (t.loadElems d w data shift js) := by
  have hp' : (t.loadElems d w data shift js).Plain := plain_loadElems hp
  rw [elemLoop_loads hp h, elemLoop, pureElem, show (t.loadElems d w data shift js).me.checkedBy = none from hp']
  simp only [loadElem, loadElems_cur, who_loadElems, load_loadElems, hj, MemRes.bind]

end loop


section issued

variable {s : State} {i : Instr} {n : Nat} {reads : List SReg} {k : MReg} {d : VReg} {w : Nat} {data : Nat → List Byte}
  {shift : Nat → Nat}

/-- The issue of an entry lists the moving context. -/
theorem issued_listed (writes : List SReg) :
    (s.issued i n reads writes).withMyCtx (s.issued i n reads writes).myCtx = s.issued i n reads writes := by
  have h : ∀ (t : State) (c : Ctx), (t.withMyCtx c).withMyCtx (t.withMyCtx c).myCtx = t.withMyCtx c := fun t c => by
    rw [State.myCtx_withMyCtx]
    exact State.withCtx_withCtx ..
  exact h _ _

theorem plain_issued (writes : List SReg) (h : s.Plain) : (s.issued i n reads writes).Plain :=
  (checkedBy_issued ..).trans h

theorem memCheck_none {c : Ctx} {e : VEntry} {spans : List Span} {bad : Bool} (hv : vecCheck c e [] [k] spans = none)
    (hb : bad = false) : memCheck c e k spans bad = none := by
  simp only [memCheck, hv, hb, Bool.false_eq_true, if_false]

/-- An entry that has performed nothing has all its active elements left. -/
theorem pendingElems_all {e : VEntry} (c : Ctx) (h : e.step = 0) : c.pendingElems e k = c.actives e k := by
  simp only [Ctx.pendingElems, h, Nat.zero_le, decide_true, List.filter_true]

/-- An entry, alone in the queue, that loads its active elements and does nothing else. -/
theorem entryGives_loads {js : List Nat} {addr : Nat → Nat} (hp : s.Plain)
    (hex : exec i s = issueV i 4 reads [] noCheck noCheck s)
    (hl : ∀ j ∈ js, (s.issued i 4 reads []).load ((s.issued i 4 reads []).who (s.issued i 4 reads []).cur) (addr j)
      (elemBytes w) = .ok (data j))
    (heff : ∀ (t : State) (q : List VEntry) (h : Hart), t.Plain → t.myCtx = { s.myCtx with viq := q, ch := h } →
      (∀ j ∈ js, t.load (t.who t.cur) (addr j) (elemBytes w) = .ok (data j)) →
      effectOf (s.entryOf i reads) t = .done (t.loadElems d w data shift js)) :
    entryGives s i 4 reads [] (fun t =>
      t.withMyCtx (t.myCtx.setElems d w (js.map fun j => (j, loadedBits w data shift j)))) := by
  refine entryGives_of s i 4 reads [] noCheck noCheck _ hex rfl rfl (fun hready => ?_) ?_
  · obtain ⟨h, hctx⟩ := issued_myCtx s i 4 reads [] hready.1
    rw [heff _ _ h (plain_issued [] hp) hctx hl, loadElems_listed js _ (issued_listed [])]
  · rw [State.myCtx_withMyCtx, setElems_viq]

/-- The elements of a contiguous or strided load, by the checks of its entry (R134, R135). -/
theorem checkedLoads {c : Ctx} {e : VEntry} {t : State} {spans : List Span} {bad : Bool} {addr : Nat → Nat} (hs : e.step = 0)
    (hv : vecCheck c e [] [k] spans = none) (hb : bad = false) (hp : t.Plain)
    (hl : ∀ j ∈ c.actives e k, t.load (t.who t.cur) (addr j) (elemBytes w) = .ok (data j)) :
    vChecked (memCheck c e k spans bad) t
      (elemLoop false (elemBytes w) addr (loadElem d w addr shift) (c.pendingElems e k) t) =
        .done (t.loadElems d w data shift (c.actives e k)) := by
  rw [vChecked_none _ _ _ (memCheck_none hv hb), pendingElems_all c hs, elemLoop_loads_all hp hl]

end issued

section instructions

variable {s t : State} {k : MReg} {d b : VReg} {a p : SReg} {e : VEntry} {c : Ctx} {data : Nat → List Byte}

theorem exec_vld (k : MReg) (d : VReg) (a : SReg) (s : State) :
    exec (.vld k d a) s = issueV (.vld k d a) 4 [a] [] noCheck noCheck s := rfl

theorem exec_vldff (k : MReg) (d : VReg) (a : SReg) (s : State) :
    exec (.vldff k d a) s = issueV (.vldff k d a) 4 [a] [] noCheck noCheck s := rfl

theorem exec_vlds (k : MReg) (d : VReg) (a p : SReg) (s : State) :
    exec (.vlds k d a p) s = issueV (.vlds k d a p) 4 [a, p] [] noCheck noCheck s := rfl

theorem exec_vldx (k : MReg) (d : VReg) (a : SReg) (b : VReg) (s : State) :
    exec (.vldx k d a b) s = issueV (.vldx k d a b) 4 [a] [] noCheck noCheck s := rfl

/-- VLDFF where every element can be read is VLD (R137). -/
theorem effVldff_loads (hc : t.myCtx = c) (hs : e.step = 0) (hv : vecCheck c e [] [k] [c.span d] = none) (hp : t.Plain)
    (hl : ∀ j ∈ c.actives e k, t.load (t.who t.cur) (contigAddr (e.op 0) (c.regWidth d) j)
      (elemBytes (c.regWidth d)) = .ok (data j)) :
    effVldff k d e t = .done (t.loadElems d (c.regWidth d) data (fun i => i * c.regWidth d % 8)
      (c.actives e k)) := by
  subst hc
  simp only [effVldff, vChecked_none _ _ _ (memCheck_none hv rfl), pendingElems_all _ hs, elemLoop_loads_all hp hl]

/-- VLDFF at an element behind the first that faults (R137). -/
theorem effVldff_shortens {before after : List Nat} {j : Nat} {x : Trap} (hc : t.myCtx = c) (hs : e.step = 0)
    (hv : vecCheck c e [] [k] [c.span d] = none) (hp : t.Plain)
    (hact : c.actives e k = before ++ j :: after)
    (hl : ∀ i ∈ before, t.load (t.who t.cur) (contigAddr (e.op 0) (c.regWidth d) i)
      (elemBytes (c.regWidth d)) = .ok (data i))
    (hj : t.load (t.who t.cur) (contigAddr (e.op 0) (c.regWidth d) j) (elemBytes (c.regWidth d)) = .trap x)
    (hpos : 0 < j) (hx : ffFault x = true) :
    effVldff k d e t = .done (t.withMyCtx ((c.setElems d (c.regWidth d) (before.map fun i =>
      (i, loadedBits (c.regWidth d) data (fun i => i * c.regWidth d % 8) i))).modEpoch e.epoch (fun _ => j) id)) := by
  have hff : ffFault { x with elem := j } = true := hx
  subst hc
  simp only [effVldff, vChecked_none _ _ _ (memCheck_none hv rfl), pendingElems_all _ hs, hact, elemLoop_faults hp hl hj, hff,
    hpos, and_self, if_true, loadElems_myCtx, loadElems_withMyCtx]

theorem ffFault_iff (x : Trap) : ffFault x = true ↔
    x.cause = .pagefault ∨ x.cause = .pageattr ∨ x.cause = .misalign ∨ x.cause = .turnfault := by
  unfold ffFault
  cases x.cause <;> simp

/-- The addresses of a gather: those it took before, or those of its indices (R115, R136). -/
theorem gatherAddrs_getD {w j : Nat} (hj : j < e.vl) : (gatherAddrs c e b w).getD j 0 =
    if e.index = [] then indexedAddr c e b w (e.op 0) j else e.index.getD j 0 := by
  unfold gatherAddrs
  split
  · simp [List.getD_eq_getElem?_getD, hj]
  · rfl

theorem lt_vl_of_mem_actives {j : Nat} (h : j ∈ c.actives e k) : j < e.vl :=
  List.mem_range.1 (List.mem_filter.1 h).1

/-- A gather whose active elements can be read at its addresses (R136). -/
theorem gather_loads (hc : t.myCtx = c) (hs : e.step = 0) (h8 : 8 ≤ c.regWidth d)
    (hv : vecCheck c e [] [k] [c.span d, c.span b] = none) (hp : t.Plain)
    (hl : ∀ j ∈ c.actives e k, t.load (t.who t.cur)
      (if e.index = [] then indexedAddr c e b (c.regWidth d) (e.op 0) j else e.index.getD j 0)
      (elemBytes (c.regWidth d)) = .ok (data j)) :
    gather k d b e t = .done (t.loadElems d (c.regWidth d) data (fun _ => 0) (c.actives e k)) := by
  have hl' : ∀ j ∈ c.actives e k, t.load (t.who t.cur)
      ((fun i => (gatherAddrs c e b (c.regWidth d)).getD i 0) j) (elemBytes (c.regWidth d)) = .ok (data j) :=
    fun j hj => by
      beta_reduce
      rw [gatherAddrs_getD (lt_vl_of_mem_actives hj)]
      exact hl j hj
  simp only [gather, hc, vChecked_none _ _ _ (memCheck_none hv (decide_eq_false (Nat.not_lt.2 h8))), pendingElems_all _ hs,
    elemLoop_loads_all hp hl', Res.keepIndex]

/-- VLDX with its base in a window is served by the core (R250). -/
theorem effVldx_local (hc : t.myCtx = c) (h : (c.windowOf (e.op 0).toNat).isSome = true) : effVldx k d b e t = gather k d b e t :=
  if_pos (.inl (hc ▸ h))

/-- VLDX with its base outside the windows waits for the gather unit (R250). -/
theorem effVldx_waits (hc : t.myCtx = c) (hs : e.step = 0) (h8 : 8 ≤ c.regWidth d)
    (h : (c.windowOf (e.op 0).toNat).isSome = false)
    (hv : vecCheck c e [] [k] [c.span d, c.span b] = none) (hp : t.Plain)
    (hact : c.actives e k ≠ []) : effVldx k d b e t = .wait false t := by
  subst hc
  refine if_neg ?_
  rw [memCheck_none hv (decide_eq_false (Nat.not_lt.2 h8)), pendingElems_all _ hs, show t.me.checkedBy = none from hp,
    VEntry.local_, h]
  simp [hact]

theorem execGatherServe_serves {r : List VEntry} (hq : (s.ctx s.evArg.a).viq = e :: r) (hi : e.instr = .vldx k d a b)
    (hr : (s.ctx s.evArg.a).vectorRuns = true) :
    exec .gatherServe s = .next (s.serveHead s.evArg.a (gather k d b)) := by
  show execGatherServe s = _
  simp only [execGatherServe, hq, hi, Ctx.headRuns, hr, Bool.true_or, if_true]

end instructions

end Sys2Proof.Machine

namespace Sys2Proof

open Machine

/-- Settles O35: the elements that can be read are loaded in turn, none changing what a later one reads; a VLDX outside the
windows waits, and its service loads the same way. -/
theorem vectorLoads : Obligations.VectorLoads := by
  unfold Obligations.VectorLoads
  refine ⟨fun s k d b a p data hp => ?issue, fun s e k d b a data => ?serve⟩
  case issue =>
    intro c w base put go line
    refine ⟨fun hv hl => ?vld, fun hv hl => ?vldff, fun h8 hv hl => ?vlds, fun h8 hwin hv hl => ?vldx,
      fun before after j x hpos hx => ?shortens, ?waits⟩
    case vld =>
      refine entryGives_loads hp (exec_vld k d a s) hl fun t q h hpt hctx hlt => ?_
      show effVld k d _ t = _
      rw [effVld, hctx]
      exact checkedLoads rfl hv rfl hpt hlt
    case vldff =>
      refine entryGives_loads hp (exec_vldff k d a s) hl fun t q h hpt hctx hlt => ?_
      have hloads := effVldff_loads (e := s.entryOf (.vldff k d a) [a]) hctx rfl hv hpt hlt
      exact hloads
    case vlds =>
      refine entryGives_loads hp (exec_vlds k d a p s) hl fun t q h hpt hctx hlt => ?_
      show effVlds k d _ t = _
      rw [effVlds, hctx]
      exact checkedLoads rfl hv (decide_eq_false (Nat.not_lt.2 h8)) hpt hlt
    case vldx =>
      refine entryGives_loads hp (exec_vldx k d a b s) hl fun t q h hpt hctx hlt => ?_
      have hloads := gather_loads (e := s.entryOf (.vldx k d a b) [a]) hctx rfl h8 hv hpt hlt
      exact (effVldx_local (e := s.entryOf (.vldx k d a b) [a]) hctx hwin).trans hloads
    case shortens =>
      intro e t hv hact hl hj hready
      obtain ⟨h, hctx⟩ := issued_myCtx s (.vldff k d a) 4 [a] [] hready.1
      have heff : effectOf e t = .done (t.withMyCtx
          ((put (fun i => i * w % 8) before t.myCtx).modEpoch c.epoch (fun _ => j) id)) := by
        rw [show t.myCtx = _ from hctx]
        exact effVldff_shortens hctx rfl hv (plain_issued [] hp) hact hl hj hpos ((ffFault_iff x).2 hx)
      refine issueV_done _ _ _ _ noCheck noCheck _ _ hready rfl rfl heff ?_
      rw [State.myCtx_withMyCtx, Ctx.modEpoch, setElems_viq, State.viq_issued _ _ _ _ _ hready.2.1]
      rfl
    case waits =>
      intro e h8 hwin hv hact hready
      obtain ⟨h, hctx⟩ := issued_myCtx s (.vldx k d a b) 4 [a] [] hready.1
      have hwait : effectOf e (s.issued (.vldx k d a b) 4 [a] []) = .wait false (s.issued (.vldx k d a b) 4 [a] []) :=
        effVldx_waits hctx rfl h8 hwin hv (plain_issued [] hp) hact
      rw [exec_vldx, issueV_runs rfl rfl hready, hready.drain_wait hwait]
  case serve =>
    intro s1 c w hq hi hj hs hstreams hr hp hcopy h8 hv hl
    have hrun : stepHead (gather k d b) s1 = (completeHead e (s1.loadElems d w data (fun _ => 0) (c.actives e k)), true) := by
      rw [stepHead_runs hq hj (State.copyBlocks_none s1 e hcopy) hstreams (.inr hp), gather_loads rfl hs h8 hv hp hl]
    have hviq : (s1.loadElems d w data (fun _ => 0) (c.actives e k)).myCtx.viq.drop 1 = [] := by
      rw [loadElems_myCtx, setElems_viq, hq]
      rfl
    have hcur : (s1.loadElems d w data (fun _ => 0) (c.actives e k)).cur = s1.cur := loadElems_cur ..
    have hctx := State.ctx_givenBack ((completeHead_cur e _).trans hcur) s.cur
    refine ⟨_, (execGatherServe_serves (s := s) hq hi hr).trans
      (congrArg _ (serveHead_completes (s := s) hrun hviq)), rfl, ?_, ?_, ?_⟩
    · rw [completeHead_mem, loadElems_mem]
    · rw [hctx, completeHead_viq, hviq]
    · rw [hctx, completeHead_v, loadElems_myCtx]
      simp only [loadedBits, Nat.pow_zero, Nat.div_one]
      rfl

end Sys2Proof
end

section
/-! SUPPORT. The elements of a store, in ascending order: each leaves all that contexts hold but their windows (06_vector
R134, R135; 05_scalar R99). -/

namespace Sys2Proof.Machine

section element

variable {s t u : State}

theorem State.KeepsButWindows.of_ctxs (h : u.ctxs = s.ctxs ∧ u.cur = s.cur) : s.KeepsButWindows u := by
  refine ⟨h.2, fun cid => ?_⟩
  rw [State.ctx, h.1]
  rfl

theorem store_keeps {w : Who} {a : Nat} {bs : List Byte} (h : s.store w a bs = .ok u) : s.KeepsButWindows u := by
  simp only [State.store, MemRes.bind] at h
  split at h
  · cases h; exact writeRegion_keeps ..
  · cases h
  · cases h

theorem storeBits_keeps {w : Who} {a shift width x : Nat} (h : s.storeBits w a shift width x = .ok u) :
    s.KeepsButWindows u := by
  simp only [State.storeBits, MemRes.bind] at h
  split at h
  · split at h
    · cases h; exact writeRegion_keeps ..
    · cases h
      refine State.KeepsButWindows.foldl (fun s p => .of_ctxs ?_) _ s
      obtain ⟨hctxs, hcur⟩ := writeCopy_ctxs s p.1.kind p.1.pa
        [putBits ((s.placeBytes { p.1 with pa := p.1.pa } 1).getD 0 0) shift width x] w.core .none w.tenant
      split
      · exact ⟨hctxs, hcur⟩
      · split
        · obtain ⟨hctxs', hcur'⟩ := multicast_ctxs (s.writeCopy p.1.kind p.1.pa
            [putBits ((s.placeBytes { p.1 with pa := p.1.pa } 1).getD 0 0) shift width x] w.core .none w.tenant) p.1
            [BitVec.ofNat 8 (x * 2 ^ shift)] (some (shift, width)) w .none
          exact ⟨hctxs'.trans hctxs, hcur'.trans hcur⟩
        · exact foldl_ctxs (fun s pa => writeCopy_ctxs ..) _ s
  · cases h
  · cases h

theorem storeElem_keeps {c : Ctx} {d : VReg} {w i : Nat} {addr shift : Nat → Nat}
    (h : storeElem c d w addr shift i s = .ok u) : s.KeepsButWindows u := by
  unfold storeElem at h
  split at h
  · exact store_keeps h
  · exact storeBits_keeps h

theorem State.KeepsButWindows.plain (h : s.KeepsButWindows u) (hp : s.Plain) : u.Plain := by
  rw [State.Plain, h.me]
  exact hp

end element

section loop

variable {t u : State} {body : Nat → State → MemRes State} {js : List Nat}

/-- Accesses one after another all end where the last of them does. -/
theorem ok_of_foldl_bind {r : MemRes State} (h : js.foldl (fun r j => r.bind (body j)) r = .ok u) : ∃ t, r = .ok t := by
  induction js generalizing r with
  | nil => exact ⟨u, h⟩
  | cons j l ih =>
    obtain ⟨t', ht'⟩ := ih h
    cases r with
    | ok t => exact ⟨t, rfl⟩
    | trap x => cases ht'
    | stall => cases ht'

variable {n : Nat} {addr : Nat → Nat} (hbody : ∀ {j : Nat} {t u : State}, body j t = .ok u → t.KeepsButWindows u)
include hbody

/-- The loop over elements that can all be stored ends in the state of the last store (R134). -/
theorem elemLoop_stores (hp : t.Plain) (h : js.foldl (fun r j => r.bind (body j)) (MemRes.ok t) = .ok u) :
    elemLoop true n addr body js t = .done u ∧ t.KeepsButWindows u := by
  induction js generalizing t with
  | nil => cases h; exact ⟨rfl, .refl _⟩
  | cons j l ih =>
    rw [List.foldl_cons] at h
    obtain ⟨t', ht'⟩ := ok_of_foldl_bind h
    have hok : body j t = .ok t' := ht'
    rw [ht'] at h
    obtain ⟨hloop, hkeep⟩ := ih ((hbody hok).plain hp) h
    rw [elemLoop, pureElem, show t.me.checkedBy = none from hp]
    simp only [hok]
    exact ⟨hloop, (hbody hok).trans hkeep⟩

end loop

section issued

variable {s u : State} {i : Instr} {reads : List SReg} {k : MReg} {d : VReg} {w : Nat} {addr shift : Nat → Nat}

theorem exec_vst (k : MReg) (d : VReg) (a : SReg) (s : State) :
    exec (.vst k d a) s = issueV (.vst k d a) 4 [a] [] noCheck noCheck s := rfl

theorem exec_vsts (k : MReg) (d : VReg) (a p : SReg) (s : State) :
    exec (.vsts k d a p) s = issueV (.vsts k d a p) 4 [a, p] [] noCheck noCheck s := rfl

/-- An entry, alone in the queue, that stores its active elements by its checks, and does nothing else. -/
theorem entryGives_stores {bad : Bool} {spans : List Span} (hp : s.Plain)
    (hex : exec i s = issueV i 4 reads [] noCheck noCheck s)
    (hv : vecCheck s.myCtx (s.entryOf i reads) [] [k] spans = none) (hb : bad = false)
    (hstored : (s.myCtx.actives (s.entryOf i reads) k).foldl (fun r j => r.bind (storeElem s.myCtx d w addr shift j))
      (MemRes.ok (s.issued i 4 reads [])) = .ok u)
    (heff : ∀ (t : State) (q : List VEntry) (h : Hart), t.myCtx = { s.myCtx with viq := q, ch := h } →
      effectOf (s.entryOf i reads) t = vChecked (memCheck s.myCtx (s.entryOf i reads) k spans bad) t
        (elemLoop true (elemBytes w) addr (storeElem s.myCtx d w addr shift)
          (s.myCtx.pendingElems (s.entryOf i reads) k) t)) :
    entryGives s i 4 reads [] (fun _ => u) := by
  obtain ⟨hloop, hkeep⟩ := elemLoop_stores (n := elemBytes w) (addr := addr) storeElem_keeps (plain_issued [] hp) hstored
  refine entryGives_of s i 4 reads [] noCheck noCheck _ hex rfl rfl (fun hready => ?_) ?_
  · obtain ⟨h, hctx⟩ := issued_myCtx s i 4 reads [] hready.1
    rw [heff _ _ h hctx, vChecked_none _ _ _ (memCheck_none hv hb), pendingElems_all _ rfl, hloop]
  · rw [hkeep.myCtx]

end issued

end Sys2Proof.Machine

namespace Sys2Proof

open Machine

/-- Settles O36: the loop over the elements is the sequence of their stores, which leave the queue and the register group. -/
theorem vectorStores : Obligations.VectorStores := by
  unfold Obligations.VectorStores
  intro s u k d a p hp c w go
  refine ⟨fun hv hstored => ?_, fun h8 hv hstored => ?_⟩
  · refine entryGives_stores hp (exec_vst k d a s) hv rfl hstored fun t q h hctx => ?_
    show effVst k d _ t = _
    rw [effVst, hctx]
    rfl
  · refine entryGives_stores hp (exec_vsts k d a p s) hv (decide_eq_false (Nat.not_lt.2 h8)) hstored fun t q h hctx => ?_
    show effVsts k d _ t = _
    rw [effVsts, hctx]
    rfl

end Sys2Proof
end

section
/-! SUPPORT. An entry whose checks and effect read the context as it stood at its issue, and the element-wise instructions of
VARITH and VCONV, one lemma a shape of instruction (06_vector R116, R122–R128, R132, R133). -/

namespace Sys2Proof.Machine

section checked

variable {s : State} {i : Instr} {n : Nat} {reads writes : List SReg} {chk : VEntry → Ctx → Option Trap}

/-- The completion of an entry that its checks let through (R122): neither they nor its effect F, which is told the context
of its issue, look at the queue or at the compute hart. -/
theorem entryGives_checked {F : VEntry → Ctx → State → State} (hex : exec i s = issueV i n reads writes noCheck noCheck s)
    (heff : ∀ t, effectOf (s.entryOf i reads) t =
      vChecked (chk (s.entryOf i reads) t.myCtx) t (.done (F (s.entryOf i reads) t.myCtx t)))
    (hdata : ∀ e q h, chk e { s.myCtx with viq := q, ch := h } = chk e s.myCtx ∧
      F e { s.myCtx with viq := q, ch := h } = F e s.myCtx)
    (hv : ∀ e t, (F e s.myCtx t).myCtx.viq = t.myCtx.viq) (hcheck : chk (s.entryOf i reads) s.myCtx = none) :
    entryGives s i n reads writes (F (s.entryOf i reads) s.myCtx) :=
  entryGives_of_data (P := fun c => chk (s.entryOf i reads) c = none) hex rfl rfl
    (fun t h => (heff t).trans (vChecked_none _ t _ h)) (fun q h => (hdata _ q h).1.trans hcheck) (fun q h => (hdata _ q h).2)
    (hv _)

/-- The completion of an entry that writes results and their flags, and nothing else (R123). -/
theorem entryGives_results {d : VReg} {maj : BitVec 6} {R : VEntry → Ctx → List (Nat × Nat × FFlags)}
    (hex : exec i s = issueV i n reads writes noCheck noCheck s)
    (heff : ∀ t, effectOf (s.entryOf i reads) t = vChecked (chk (s.entryOf i reads) t.myCtx) t
      (.done (t.writeResults d (t.myCtx.regWidth d) maj (R (s.entryOf i reads) t.myCtx))))
    (hdata : ∀ e q h, chk e { s.myCtx with viq := q, ch := h } = chk e s.myCtx ∧
      R e { s.myCtx with viq := q, ch := h } = R e s.myCtx)
    (hcheck : chk (s.entryOf i reads) s.myCtx = none) :
    entryGives s i n reads writes (fun t =>
      t.writeResults d (s.myCtx.regWidth d) maj (R (s.entryOf i reads) s.myCtx)) :=
  entryGives_checked (F := fun e c t => t.writeResults d (c.regWidth d) maj (R e c)) hex heff
    (fun e q h => ⟨(hdata e q h).1, by rw [(hdata e q h).2]; rfl⟩) (fun _ t => writeResults_viq t _ _ _ _) hcheck

/-- The completion of an element-wise instruction: f gives the bits and the flags of each active element. -/
theorem entryGives_vecMap {k : MReg} {d : VReg} {maj : BitVec 6} {f : VEntry → Ctx → Nat → Nat × FFlags}
    (hex : exec i s = issueV i n reads writes noCheck noCheck s)
    (heff : ∀ t, effectOf (s.entryOf i reads) t = vChecked (chk (s.entryOf i reads) t.myCtx) t
      (vecMap (s.entryOf i reads) k d maj (f (s.entryOf i reads) t.myCtx) t))
    (hdata : ∀ e q h, chk e { s.myCtx with viq := q, ch := h } = chk e s.myCtx ∧
      f e { s.myCtx with viq := q, ch := h } = f e s.myCtx)
    (hcheck : chk (s.entryOf i reads) s.myCtx = none) :
    entryGives s i n reads writes (fun t => t.writeResults d (s.myCtx.regWidth d) maj
      ((s.myCtx.actives (s.entryOf i reads) k).map (fun j => (j, f (s.entryOf i reads) s.myCtx j)))) :=
  entryGives_results (R := fun e c => (c.actives e k).map (fun j => (j, f e c j))) hex heff
    (fun e q h => ⟨(hdata e q h).1, by rw [(hdata e q h).2]; rfl⟩) hcheck

end checked

section sources

/-- The scalar register that a form with XS reads (R124). -/
def xsReads (xs : BitVec 1) (b : BitVec 5) : List SReg := if xs = 1 then [b] else []

/-- The second source of a form with XS, as it stands at the issue (R124). -/
def State.xsSource (s : State) (xs : BitVec 1) (b : BitVec 5) : Src2 := if xs = 1 then .scalar (s.readS b) else .vec b

theorem src2_xsSource (s : State) (xs : BitVec 1) (b : BitVec 5) (i : Instr) :
    src2 (s.entryOf i (xsReads xs b)) xs b = s.xsSource xs b := src2_entryOf s i xs b

variable (k : MReg) (d a : VReg) (y : Src2)

/-- The checks of a form with XS that uses the values of its operands (R122). -/
def valueCheck (e : VEntry) (c : Ctx) : Option Trap :=
  vecCheck c e ([tagType (c.tag d), tagType (c.tag a)] ++ c.src2Codes y) [k] ([c.span d, c.span a] ++ c.src2Spans y)

/-- The checks of a form with XS that uses stored bits (R122, R126). -/
def bitsCheck (e : VEntry) (c : Ctx) : Option Trap := vecCheck c e [] [k] ([c.span d, c.span a] ++ c.src2Spans y)

/-- The checks of a unary value minor (R122). -/
def unaryCheck (e : VEntry) (c : Ctx) : Option Trap :=
  vecCheck c e [tagType (c.tag d), tagType (c.tag a)] [k] [c.span d, c.span a]

/-- Element j of a binary value minor (R125). -/
def binaryResult (f : Bool → RMode → Val → Val → Val × FFlags) (e : VEntry) (c : Ctx) (j : Nat) : Nat × FFlags :=
  let int := c.intReg a && c.src2Int a y
  let p := c.srcVal e a j
  let q := c.src2Val e a y j
  let r := f int e.rm p.1 q.1
  e.toDest (c.regType d) int (r.1, (p.2.or q.2).or r.2)

/-- Element j of a fused multiply-add, whose addend is f of the old value of vd (R125). -/
def fusedResult (f : Val → Val) (e : VEntry) (c : Ctx) (j : Nat) : Nat × FFlags :=
  let int := c.intReg a && c.src2Int a y && c.intReg d
  let p := c.srcVal e a j
  let q := c.src2Val e a y j
  let z := c.srcVal e d j
  let r := Val.fma e.rm p.1 q.1 (f z.1)
  e.toDest (c.regType d) int (r.1, ((p.2.or q.2).or z.2).or r.2)

/-- Element j of a bit minor, by f of the width of va's type and the stored bits (R126). -/
def bitsResult (f : Nat → Nat → Nat → Nat) (e : VEntry) (c : Ctx) (j : Nat) : Nat × FFlags :=
  (f (c.regWidth a) (c.src e a (c.regWidth a) j) (c.src2Bits e a y j) % 2 ^ c.regWidth a % 2 ^ c.regWidth d, .none)

/-- Element j of a unary value minor (R127, R132). -/
def unaryResult (intKeeps : Bool) (g : Val → Val × FFlags) (e : VEntry) (c : Ctx) (j : Nat) : Nat × FFlags :=
  let p := c.srcVal e a j
  let r := g p.1
  e.toDest (c.regType d) (intKeeps && c.intReg a) (r.1, p.2.or r.2)

/-- Element j of VQNT: by the scale of the destination, saturating (R133). -/
def quantResult (e : VEntry) (c : Ctx) (j : Nat) : Nat × FFlags :=
  let p := c.srcVal e a j
  let r := if tagScaled (c.tag d) then p.1.div (c.scaleOf (c.tag d) j) else (p.1, .none)
  let q := toType (c.regType d) false true e.rm r.1
  (q.1, (p.2.or r.2).or q.2)

end sources

section instructions

variable {s : State} {i : Instr} {xs : BitVec 1} {k : MReg} {d a : VReg} {b : BitVec 5}

theorem entryGives_binary (f : Bool → RMode → Val → Val → Val × FFlags)
    (hex : exec i s = issueV i 4 (xsReads xs b) [] noCheck noCheck s)
    (heff : ∀ t, effectOf (s.entryOf i (xsReads xs b)) t = vecBinary f xs k d a b (s.entryOf i (xsReads xs b)) t)
    (hcheck : valueCheck k d a (s.xsSource xs b) (s.entryOf i (xsReads xs b)) s.myCtx = none) :
    entryGives s i 4 (xsReads xs b) [] (fun t => t.writeResults d (s.myCtx.regWidth d) 0x30
      ((s.myCtx.actives (s.entryOf i (xsReads xs b)) k).map (fun j =>
        (j, binaryResult d a (s.xsSource xs b) f (s.entryOf i (xsReads xs b)) s.myCtx j)))) := by
  refine entryGives_vecMap (chk := valueCheck k d a (s.xsSource xs b)) (f := binaryResult d a (s.xsSource xs b) f) hex
    (fun t => ?_) (fun _ _ _ => ⟨rfl, rfl⟩) hcheck
  rw [heff, vecBinary, src2_xsSource]
  rfl

theorem entryGives_fused (sub : Bool) (hex : exec i s = issueV i 4 (xsReads xs b) [] noCheck noCheck s)
    (heff : ∀ t, effectOf (s.entryOf i (xsReads xs b)) t = vecFused sub xs k d a b (s.entryOf i (xsReads xs b)) t)
    (hcheck : valueCheck k d a (s.xsSource xs b) (s.entryOf i (xsReads xs b)) s.myCtx = none) :
    entryGives s i 4 (xsReads xs b) [] (fun t => t.writeResults d (s.myCtx.regWidth d) 0x30
      ((s.myCtx.actives (s.entryOf i (xsReads xs b)) k).map (fun j => (j, fusedResult d a (s.xsSource xs b)
        (fun z => if sub then z.negate else z) (s.entryOf i (xsReads xs b)) s.myCtx j)))) := by
  refine entryGives_vecMap (chk := valueCheck k d a (s.xsSource xs b))
    (f := fusedResult d a (s.xsSource xs b) (fun z => if sub then z.negate else z)) hex (fun t => ?_)
    (fun _ _ _ => ⟨rfl, rfl⟩) hcheck
  rw [heff, vecFused, src2_xsSource]
  rfl

/-- The minors AND, OR and XOR, whose second operand is cut to the width of va's type. -/
theorem entryGives_bits (f : Nat → Nat → Nat → Nat) (hex : exec i s = issueV i 4 (xsReads xs b) [] noCheck noCheck s)
    (heff : ∀ t, effectOf (s.entryOf i (xsReads xs b)) t = vecBits f xs k d a b (s.entryOf i (xsReads xs b)) t)
    (hcheck : bitsCheck k d a (s.xsSource xs b) (s.entryOf i (xsReads xs b)) s.myCtx = none) :
    entryGives s i 4 (xsReads xs b) [] (fun t => t.writeResults d (s.myCtx.regWidth d) 0x30
      ((s.myCtx.actives (s.entryOf i (xsReads xs b)) k).map (fun j => (j, bitsResult d a (s.xsSource xs b)
        (fun w x y => f w x (y % 2 ^ w)) (s.entryOf i (xsReads xs b)) s.myCtx j)))) := by
  refine entryGives_vecMap (chk := bitsCheck k d a (s.xsSource xs b))
    (f := bitsResult d a (s.xsSource xs b) (fun w x y => f w x (y % 2 ^ w))) hex (fun t => ?_)
    (fun _ _ _ => ⟨rfl, rfl⟩) hcheck
  rw [heff, vecBits, src2_xsSource]
  rfl

/-- The shift minors, whose amount is taken modulo the width of va's type. -/
theorem entryGives_shift (f : Nat → Nat → Nat → Nat) (hex : exec i s = issueV i 4 (xsReads xs b) [] noCheck noCheck s)
    (heff : ∀ t, effectOf (s.entryOf i (xsReads xs b)) t = vecShiftOp f xs k d a b (s.entryOf i (xsReads xs b)) t)
    (hcheck : bitsCheck k d a (s.xsSource xs b) (s.entryOf i (xsReads xs b)) s.myCtx = none) :
    entryGives s i 4 (xsReads xs b) [] (fun t => t.writeResults d (s.myCtx.regWidth d) 0x30
      ((s.myCtx.actives (s.entryOf i (xsReads xs b)) k).map (fun j => (j, bitsResult d a (s.xsSource xs b)
        (fun w x y => f w x (y % w)) (s.entryOf i (xsReads xs b)) s.myCtx j)))) := by
  refine entryGives_vecMap (chk := bitsCheck k d a (s.xsSource xs b))
    (f := bitsResult d a (s.xsSource xs b) (fun w x y => f w x (y % w))) hex (fun t => ?_) (fun _ _ _ => ⟨rfl, rfl⟩) hcheck
  rw [heff, vecShiftOp, src2_xsSource]
  rfl

theorem entryGives_unary (maj : BitVec 6) (intKeeps : Bool) (g : Val → Val × FFlags)
    (hex : exec i s = issueV i 4 [] [] noCheck noCheck s)
    (heff : ∀ t, effectOf (s.entryOf i []) t = vecUnary maj intKeeps g k d a (s.entryOf i []) t)
    (hcheck : unaryCheck k d a (s.entryOf i []) s.myCtx = none) :
    entryGives s i 4 [] [] (fun t => t.writeResults d (s.myCtx.regWidth d) maj
      ((s.myCtx.actives (s.entryOf i []) k).map (fun j => (j, unaryResult d a intKeeps g (s.entryOf i []) s.myCtx j)))) :=
  entryGives_vecMap (chk := unaryCheck k d a) (f := unaryResult d a intKeeps g) hex heff (fun _ _ _ => ⟨rfl, rfl⟩) hcheck

end instructions

end Sys2Proof.Machine

namespace Sys2Proof

open Machine

/-- Settles O27: the checks passed, each minor is its shape with its function of exact values. -/
theorem vectorArithmetic : Obligations.VectorArithmetic := by
  unfold Obligations.VectorArithmetic
  intro s xs k d a b reads c y rm int two three
  exact ⟨entryGives_binary (fun _ r x y => x.add r y) rfl (fun _ => rfl),
    entryGives_binary (fun _ r x y => x.add r y.negate) rfl (fun _ => rfl),
    entryGives_binary (fun _ _ x y => x.mul y) rfl (fun _ => rfl),
    entryGives_binary (fun int _ x y => if int then (x.intDiv y, .none) else x.div y) rfl (fun _ => rfl),
    entryGives_binary (fun _ _ x y => Val.pick false x y) rfl (fun _ => rfl),
    entryGives_binary (fun _ _ x y => Val.pick true x y) rfl (fun _ => rfl),
    entryGives_fused false rfl (fun _ => rfl), entryGives_fused true rfl (fun _ => rfl)⟩

end Sys2Proof
end

section
/-! SUPPORT. What the write of results, the issue of an entry and its end leave of the moving hart and its context (06_vector
R123, R126; 02_machine R20). -/

namespace Sys2Proof.Machine

section elements

/-- The first byte of element i of the group at a register (06_vector R63). -/
def Ctx.elemAt (c : Ctx) (r : VReg) (w i : Nat) : Nat :=
  (r.toNat + i * w / (8 * c.usedBytes)) * vStride + i * w % (8 * c.usedBytes) / 8

theorem setElem_usedBytes (c : Ctx) (r : VReg) (w i y : Nat) : (c.setElem r w i y).usedBytes = c.usedBytes := by
  rw [setElem_eq]
  rfl

/-- An element written leaves the bytes outside it: one of at least a byte is written whole, a smaller one within its byte. -/
theorem setElem_outside {c : Ctx} {r : VReg} {w i x : Nat} (y : Nat)
    (h : x < c.elemAt r w i ∨ c.elemAt r w i + max 1 (w / 8) ≤ x) : sget 0 (c.setElem r w i y).v x = sget 0 c.v x := by
  by_cases hw : 8 ≤ w
  · rw [Ctx.setElem, if_pos hw]
    refine sget_ssetList_other _ _ _ _ _ (h.imp_right fun h => ?_)
    rw [length_bytesOfNat]
    exact (Nat.add_le_add_left (le_max_right ..) _).trans h
  · rw [Ctx.setElem, if_neg hw]
    refine sget_sset_other _ _ _ _ _ ?_
    have hx : x ≠ c.elemAt r w i := by omega
    exact hx

theorem setElems_eq (c : Ctx) (r : VReg) (w : Nat) (xs : List (Nat × Nat)) :
    c.setElems r w xs = { c with v := (c.setElems r w xs).v } := by
  induction xs generalizing c with
  | nil => rfl
  | cons y ys ih =>
    have hrest : (c.setElem r w y.1 y.2).setElems r w ys =
        { c.setElem r w y.1 y.2 with v := ((c.setElem r w y.1 y.2).setElems r w ys).v } := ih _
    rw [setElem_eq c] at hrest
    rw [Ctx.setElems, List.foldl_cons, setElem_eq c]
    exact hrest

theorem setElems_outside {c : Ctx} {r : VReg} {w x : Nat} {xs : List (Nat × Nat)}
    (h : ∀ y ∈ xs, x < c.elemAt r w y.1 ∨ c.elemAt r w y.1 + max 1 (w / 8) ≤ x) :
    sget 0 (c.setElems r w xs).v x = sget 0 c.v x := by
  induction xs generalizing c with
  | nil => rfl
  | cons y ys ih =>
    have hat : ∀ i, (c.setElem r w y.1 y.2).elemAt r w i = c.elemAt r w i := fun i => by
      rw [Ctx.elemAt, setElem_usedBytes, Ctx.elemAt]
    refine (ih (c := c.setElem r w y.1 y.2) fun z hz => ?_).trans (setElem_outside y.2 (h y List.mem_cons_self))
    rw [hat]
    exact h z (List.mem_cons_of_mem _ hz)

end elements

section frames

variable (s : State) (d : VReg) (w : Nat) (maj : BitVec 6) (rs : List (Nat × Nat × FFlags)) (e : VEntry) (i : Instr) (n : Nat)
  (reads writes : List SReg)

/-- A hart depends on no vector register. -/
theorem Ctx.hart_v (c : Ctx) (v : Sparse Byte) (k : HartKind) : ({ c with v := v } : Ctx).hart k = c.hart k := by
  cases k <;> rfl

theorem Ctx.withHart_setV (c : Ctx) (v : Sparse Byte) (k : HartKind) (h : Hart) :
    ({ c with v := v } : Ctx).withHart k h = { c.withHart k h with v := v } := by cases k <;> rfl

theorem Ctx.withHart_setViq (c : Ctx) (q : List VEntry) (k : HartKind) (h : Hart) :
    ({ c with viq := q } : Ctx).withHart k h = { c.withHart k h with viq := q } := by cases k <;> rfl

theorem Ctx.withHart_withHart_same (c : Ctx) (k : HartKind) (h g : Hart) : (c.withHart k h).withHart k g = c.withHart k g := by
  cases k <;> rfl

theorem writeResults_v : (s.writeResults d w maj rs).myCtx.v = (s.myCtx.setElems d w (rs.map fun r => (r.1, r.2.1))).v := by
  rw [State.writeResults, State.raise, State.myCtx_withMe, Ctx.withHart_v, State.myCtx_withMyCtx]

theorem writeResults_me :
    (s.writeResults d w maj rs).me = { s.me with fflags := (s.writeResults d w maj rs).me.fflags } := by
  rw [State.writeResults, State.raise, State.me_withMe, State.me_withMyCtx, setElems_eq, Ctx.hart_v]
  rfl

theorem writeResults_myCtx : (s.writeResults d w maj rs).myCtx =
    { s.myCtx.withHart s.cur.kind (s.writeResults d w maj rs).me with v := (s.writeResults d w maj rs).myCtx.v } := by
  rw [writeResults_v, State.writeResults, State.raise, State.me_withMe, State.myCtx_withMe, State.myCtx_withMyCtx, setElems_eq,
    Ctx.withHart_setV]
  rfl

/-- The write of results leaves the bytes of vector registers outside the elements that it writes. -/
theorem writeResults_outside {x : Nat}
    (h : ∀ r ∈ rs, x < s.myCtx.elemAt d w r.1 ∨ s.myCtx.elemAt d w r.1 + max 1 (w / 8) ≤ x) :
    sget 0 (s.writeResults d w maj rs).myCtx.v x = sget 0 s.myCtx.v x := by
  rw [writeResults_v]
  refine setElems_outside fun y hy => ?_
  obtain ⟨r, hr, rfl⟩ := List.mem_map.1 hy
  exact h r hr

theorem completeHead_me : (completeHead e s).me = { s.me with busy := (completeHead e s).me.busy } := by
  simp only [completeHead, State.me_withMe, State.me_withMyCtx, Ctx.hart_viq]
  rfl

theorem completeHead_myCtx : (completeHead e s).myCtx =
    { s.myCtx.withHart s.cur.kind (completeHead e s).me with viq := s.myCtx.viq.drop 1 } := by
  simp only [completeHead, State.me_withMe, State.myCtx_withMe, State.myCtx_withMyCtx, Ctx.withHart_setViq]
  rfl

theorem issued_me : (s.issued i n reads writes).me = { s.me with
    pc := s.me.pc + BitVec.ofNat 64 n
    busy := (s.issued i n reads writes).me.busy
    unread := (s.me.clearRead reads).unread } := by
  have hread : (s.reading reads).myCtx.hart s.cur.kind = s.me.clearRead reads := State.me_reading s reads
  simp only [State.issued, State.advance, State.pushEntry, State.me_withMe, State.me_withMyCtx, State.cur_reading,
    Ctx.hart_viq, hread]
  rfl

/-- A push changes of the moving context its hart, whose registers become busy, and the queue. -/
theorem pushEntry_myCtx (ops : List Word) : (s.pushEntry i ops writes).myCtx =
    { s.myCtx.withHart s.cur.kind (s.pushEntry i ops writes).me with
        viq := s.myCtx.viq ++ [s.myCtx.entry i s.me.pc ops s.outside] } := by
  rw [State.pushEntry, State.me_withMe, State.myCtx_withMe, State.myCtx_withMyCtx, Ctx.withHart_setViq]
  rfl

theorem issued_context : (s.issued i n reads writes).myCtx =
    { s.myCtx.withHart s.cur.kind (s.issued i n reads writes).me with viq := s.myCtx.viq ++ [s.entryOf i reads] } := by
  have hread : (s.reading reads).myCtx = s.myCtx.withHart s.cur.kind (s.me.clearRead reads) := State.myCtx_withMe s _
  have hentry : (s.reading reads).myCtx.entry i (s.reading reads).me.pc (reads.map s.readS) (s.reading reads).outside =
      s.entryOf i reads := by
    rw [State.me_reading, hread]
    cases s.cur.kind <;> rfl
  have hcur : ((s.reading reads).pushEntry i (reads.map s.readS) writes).cur = s.cur := rfl
  have hadvance : ∀ t : State, (t.advance n).myCtx = t.myCtx.withHart t.cur.kind (t.advance n).me := fun t => by
    rw [State.advance, State.me_withMe, State.myCtx_withMe]
  rw [State.issued, hadvance, pushEntry_myCtx, hentry, hread, Ctx.withHart_viq, Ctx.withHart_setViq,
    State.cur_reading, Ctx.withHart_withHart_same, hcur, Ctx.withHart_withHart_same]

end frames

end Sys2Proof.Machine

namespace Sys2Proof

open Machine

/-- Settles O28: the checks passed, each minor is its shape with its function of stored bits; the frames are those of the write
of results, of the end of an entry and of its issue. -/
theorem vectorBits : Obligations.VectorBits := by
  unfold Obligations.VectorBits
  refine ⟨fun s xs k d a b => ?minors, fun s d w maj rs _ => ?results, fun s e => ?complete, fun s i n reads writes => ?issue⟩
  case minors =>
    intro reads c y w op
    exact ⟨entryGives_bits (fun _ x y => x &&& y) rfl (fun _ => rfl), entryGives_bits (fun _ x y => x ||| y) rfl (fun _ => rfl),
      entryGives_bits (fun _ x y => x ^^^ y) rfl (fun _ => rfl), entryGives_shift (fun _ x n => x * 2 ^ n) rfl (fun _ => rfl),
      entryGives_shift (fun _ x n => x / 2 ^ n) rfl (fun _ => rfl),
      entryGives_shift (fun w x n => x / 2 ^ n + (if x / 2 ^ (w - 1) % 2 = 1 then 2 ^ w - 2 ^ (w - n) else 0)) rfl
        (fun _ => rfl)⟩
  case results =>
    exact ⟨writeResults_me s d w maj rs, writeResults_myCtx s d w maj rs, fun cid => writeResults_others s d w maj rs cid,
      writeResults_rest s d w maj rs s.ctxs, fun x => writeResults_outside s d w maj rs⟩
  case complete =>
    exact ⟨completeHead_me s e, completeHead_myCtx s e, completeHead_others s e, completeHead_rest s e s.ctxs⟩
  case issue =>
    exact ⟨issued_me s i n reads writes, issued_context s i n reads writes, issued_others s i n reads writes,
      issued_rest s i n reads writes s.ctxs⟩

end Sys2Proof
end

section
/-! SUPPORT. The instructions that move stored bits or write elements of their own, one lemma a shape of instruction (06_vector
R128, R140–R143). -/

namespace Sys2Proof.Machine

section moves

variable {s : State} {i : Instr} {n : Nat} {reads : List SReg} {chk : VEntry → Ctx → Option Trap} {k : MReg} {d a : VReg}

/-- The completion of an entry that moves stored bits into vd, with the tag of va (R128, R140–R142). -/
theorem entryGives_moves {moved : VEntry → Ctx → List (Nat × Nat)} (hex : exec i s = issueV i n reads [] noCheck noCheck s)
    (heff : ∀ t, effectOf (s.entryOf i reads) t =
      vChecked (chk (s.entryOf i reads) t.myCtx) t (permWrite d a (moved (s.entryOf i reads)) t))
    (hdata : ∀ e q h, chk e { s.myCtx with viq := q, ch := h } = chk e s.myCtx ∧
      moved e { s.myCtx with viq := q, ch := h } = moved e s.myCtx)
    (hcheck : chk (s.entryOf i reads) s.myCtx = none) :
    entryGives s i n reads [] (fun t => t.withMyCtx
      ((t.myCtx.setTag d (s.myCtx.tag a)).setElems d (s.myCtx.regWidth a) (moved (s.entryOf i reads) s.myCtx))) := by
  refine entryGives_checked (F := fun e c t =>
    t.withMyCtx ((t.myCtx.setTag d (c.tag a)).setElems d (c.regWidth a) (moved e c))) hex heff (fun e q h => ?_)
    (fun _ t => ?_) hcheck
  · rw [(hdata e q h).1, (hdata e q h).2]
    exact ⟨rfl, rfl⟩
  · rw [State.myCtx_withMyCtx, setElems_viq, setTag_viq]

/-- The completion of an entry that changes data of its context that are neither its queue nor a hart. -/
theorem entryGives_writes {written : VEntry → Ctx → Ctx → Ctx} (hex : exec i s = issueV i n reads [] noCheck noCheck s)
    (heff : ∀ t, effectOf (s.entryOf i reads) t = vChecked (chk (s.entryOf i reads) t.myCtx) t
      (.done (t.withMyCtx (written (s.entryOf i reads) t.myCtx t.myCtx))))
    (hdata : ∀ e q h, chk e { s.myCtx with viq := q, ch := h } = chk e s.myCtx ∧
      written e { s.myCtx with viq := q, ch := h } = written e s.myCtx)
    (hv : ∀ e c, (written e s.myCtx c).viq = c.viq) (hcheck : chk (s.entryOf i reads) s.myCtx = none) :
    entryGives s i n reads [] (fun t => t.withMyCtx (written (s.entryOf i reads) s.myCtx t.myCtx)) := by
  refine entryGives_checked (F := fun e c t => t.withMyCtx (written e c t.myCtx)) hex heff (fun e q h => ?_)
    (fun e t => ?_) hcheck
  · rw [(hdata e q h).1, (hdata e q h).2]
    exact ⟨rfl, rfl⟩
  · rw [State.myCtx_withMyCtx, hv]

/-- An active element of a source lies below VL: its bits are the stored ones, not the fill. -/
theorem src_of_mem_actives {c : Ctx} {e : VEntry} {j : Nat} (h : j ∈ c.actives e k) (r : VReg) (w : Nat) :
    c.src e r w j = c.elem r w j := if_pos (lt_vl_of_mem_actives h)

end moves

section permutes

variable (s : State) (xs : BitVec 1) (k : MReg) (d a : VReg) (b : BitVec 5) (p q : SReg)

/-- The checks of an instruction that gives vd the tag of va (R122, R128, R140–R142). -/
def moveCheck (y : List Span) (e : VEntry) (c : Ctx) : Option Trap := vecCheck c e [] [k] ([c.spanAs d a, c.span a] ++ y)

/-- The bits that VMOV moves (R128). -/
def copiedBits (e : VEntry) (c : Ctx) : List (Nat × Nat) := (c.actives e k).map (fun j => (j, c.src e a (c.regWidth a) j))

/-- The bits that VSLIDEUP by n moves (R140). -/
def slidUpBits (n : Nat) (e : VEntry) (c : Ctx) : List (Nat × Nat) :=
  (c.actives e k).map (fun j => (j, if n ≤ j then c.src e a (c.regWidth a) (j - n) else c.fill (c.regWidth a)))

/-- The bits that VSLIDEDN by n moves (R140). -/
def slidDownBits (n : Nat) (e : VEntry) (c : Ctx) : List (Nat × Nat) :=
  (c.actives e k).map (fun j => (j, c.src e a (c.regWidth a) (j + n)))

/-- The place in va that element j of VSHUF takes its bits from: a scalar index is of 64 bits (R141). -/
def shuffleIndex (y : Src2) (e : VEntry) (c : Ctx) (j : Nat) : Nat :=
  match y with
  | .vec r => c.src e r (c.regWidth r) j
  | .scalar x => x.toNat

/-- The bits that VSHUF moves (R141). -/
def shuffledBits (y : Src2) (e : VEntry) (c : Ctx) : List (Nat × Nat) :=
  (c.actives e k).map (fun j => (j, c.src e a (c.regWidth a) (shuffleIndex y e c j)))

/-- The bits that VCOMPRESS moves: the mask selects sources (R142). -/
def keptBits (e : VEntry) (c : Ctx) : List (Nat × Nat) :=
  let xs := (c.actives e k).map (fun j => c.src e a (c.regWidth a) j)
  (List.range xs.length).map (fun j => (j, xs.getD j 0))

/-- What VEXT writes of element i of va: its bits, sign-extended for a Z type (R143). -/
def extractedWord (i : Nat) (e : VEntry) (c : Ctx) : Word :=
  let x := BitVec.ofNat 64 (c.src e a (c.regWidth a) i)
  if (c.regType a).isZ then sext (c.regWidth a) x else x

theorem entryGives_shuffle
    (hcheck : moveCheck k d a (s.myCtx.src2Spans (s.xsSource xs b)) (s.entryOf (.vshuf xs k d a b) (xsReads xs b)) s.myCtx =
      none) :
    entryGives s (.vshuf xs k d a b) 4 (xsReads xs b) [] (fun t => t.withMyCtx
      ((t.myCtx.setTag d (s.myCtx.tag a)).setElems d (s.myCtx.regWidth a)
        (shuffledBits k a (s.xsSource xs b) (s.entryOf (.vshuf xs k d a b) (xsReads xs b)) s.myCtx))) := by
  refine entryGives_moves (chk := fun e c => moveCheck k d a (c.src2Spans (s.xsSource xs b)) e c)
    (moved := shuffledBits k a (s.xsSource xs b)) rfl (fun t => ?_) (fun _ _ _ => ⟨rfl, rfl⟩) hcheck
  show effVshuf xs k d a b (s.entryOf (.vshuf xs k d a b) (xsReads xs b)) t = _
  rw [effVshuf, src2_xsSource]
  rfl

/-- VINS writes the one element that its index names, where that lies below VL (R143). -/
theorem entryGives_insert (hcheck : vecCheck s.myCtx (s.entryOf (.vins d p q) [p, q]) [] [] [s.myCtx.span d] = none) :
    entryGives s (.vins d p q) 4 [p, q] [] (fun t => if (s.readS q).toNat < s.myCtx.vl then
      t.withMyCtx (t.myCtx.setElem d (s.myCtx.regWidth d) (s.readS q).toNat ((s.readS p).toNat % 2 ^ s.myCtx.regWidth d))
      else t) := by
  refine entryGives_checked (chk := fun e c => vecCheck c e [] [] [c.span d]) (F := fun e c t => if (s.readS q).toNat < e.vl
    then t.withMyCtx (t.myCtx.setElem d (c.regWidth d) (s.readS q).toNat ((s.readS p).toNat % 2 ^ c.regWidth d)) else t) rfl
    (fun _ => rfl) (fun _ _ _ => ⟨rfl, rfl⟩) (fun e t => ?_) hcheck
  split
  · rw [State.myCtx_withMyCtx, setElem_viq]
  · rfl

theorem writeS_viq (t : State) (r : SReg) (x : Word) : (t.writeS r x).myCtx.viq = t.myCtx.viq := by
  rw [State.writeS, State.myCtx_withMe, Ctx.withHart_viq]

end permutes

end Sys2Proof.Machine

namespace Sys2Proof

open Machine

/-- Settles O29: the checks passed, each unary minor is its shape with its function of exact values; what VMOV moves lies below
VL. -/
theorem vectorUnary : Obligations.VectorUnary := by
  unfold Obligations.VectorUnary
  intro s k d a c one
  refine ⟨entryGives_unary 0x30 true valAbs rfl (fun _ => rfl), entryGives_unary 0x30 true valNeg rfl (fun _ => rfl),
    entryGives_unary 0x30 false valSqrt rfl (fun _ => rfl), entryGives_unary 0x30 false valRcp rfl (fun _ => rfl),
    entryGives_unary 0x30 false valRsq rfl (fun _ => rfl), entryGives_unary 0x30 false valExp2 rfl (fun _ => rfl),
    entryGives_unary 0x30 false valLog2 rfl (fun _ => rfl), entryGives_unary 0x30 false valTanh rfl (fun _ => rfl),
    entryGives_unary 0x30 false valSigm rfl (fun _ => rfl), entryGives_unary 0x32 true valSame rfl (fun _ => rfl),
    fun hcheck => ?mov, fun hcheck => ?quant⟩
  case mov =>
    have hcopied : (c.actives (s.entryOf (.vmov k d a) []) k).map (fun j => (j, c.elem a (c.regWidth a) j)) =
        copiedBits k a (s.entryOf (.vmov k d a) []) c :=
      List.map_congr_left fun j hj => by rw [src_of_mem_actives hj]
    rw [hcopied]
    exact entryGives_moves (chk := moveCheck k d a []) (moved := copiedBits k a) rfl (fun _ => rfl)
      (fun _ _ _ => ⟨rfl, rfl⟩) hcheck
  case quant =>
    exact entryGives_vecMap (chk := unaryCheck k d a) (f := quantResult d a) rfl (fun _ => rfl)
      (fun _ _ _ => ⟨rfl, rfl⟩) hcheck

/-- Settles O31: the checks passed, the permutes move bits of the context at their issue; VINS beyond VL writes nothing, and VEXT
writes a scalar register alone. -/
theorem vectorPermutes : Obligations.VectorPermutes := by
  unfold Obligations.VectorPermutes
  intro s xs k d a b p q c w move y
  refine ⟨?up, ?down, entryGives_shuffle s xs k d a b, ?compress, ?splat, entryGives_insert s d p q, ?extract⟩
  case up =>
    exact entryGives_moves (chk := moveCheck k d a []) (moved := slidUpBits k a (s.readS b).toNat) rfl (fun _ => rfl)
      (fun _ _ _ => ⟨rfl, rfl⟩)
  case down =>
    exact entryGives_moves (chk := moveCheck k d a []) (moved := slidDownBits k a (s.readS b).toNat) rfl (fun _ => rfl)
      (fun _ _ _ => ⟨rfl, rfl⟩)
  case compress =>
    exact entryGives_moves (chk := moveCheck k d a []) (moved := keptBits k a) rfl (fun _ => rfl) (fun _ _ _ => ⟨rfl, rfl⟩)
  case splat =>
    exact entryGives_writes (chk := fun e c => vecCheck c e [] [k] [c.span d])
      (written := fun e c c' => c'.setElems d (c.regWidth d)
        ((c.actives e k).map (fun j => (j, (s.readS p).toNat % 2 ^ c.regWidth d))))
      rfl (fun _ => rfl) (fun _ _ _ => ⟨rfl, rfl⟩) (fun _ c => setElems_viq c d _ _)
  case extract =>
    exact entryGives_checked (chk := fun e c => vecCheck c e [] [] [c.span a])
      (F := fun e c t => t.writeS p (extractedWord a (s.readS q).toNat e c)) rfl (fun _ => rfl) (fun _ _ _ => ⟨rfl, rfl⟩)
      (fun _ t => writeS_viq t p _)

end Sys2Proof
end

section
/-! SUPPORT. Comparisons, mask logic and VMERGE, and the reductions (06_vector R118, R129–R131, R144; 04_numbers R81). -/

namespace Sys2Proof.Machine

section masks

variable {s : State} {i : Instr} {xs : BitVec 1} {b : BitVec 5} {k dm : MReg} {a : VReg}

/-- The checks of a comparison (R122). -/
def compareCheck (k dm : MReg) (a : VReg) (y : Src2) (e : VEntry) (c : Ctx) : Option Trap :=
  vecCheck c e (tagType (c.tag a) :: c.src2Codes y) [k, dm] (c.span a :: c.src2Spans y)

/-- Element j of a comparison: its mask bit and its flags, where the relation signals quiet NaNs or not (R129). -/
def compareResult (rel : Val → Val → Bool) (nan signals : Bool) (a : VReg) (y : Src2) (e : VEntry) (c : Ctx) (j : Nat) :
    Bool × FFlags :=
  let p := c.srcVal e a j
  let q := c.src2Val e a y j
  let un := p.1.isNan || q.1.isNan
  (if un then nan else rel p.1 q.1, (p.2.or q.2).or { iv := p.1.sig || q.1.sig || (un && signals) })

/-- What a comparison leaves of a state, where its sources are those of the context c: res gives the elements. -/
def compareState (k dm : MReg) (res : VEntry → Ctx → Nat → Bool × FFlags) (e : VEntry) (c : Ctx) (t : State) : State :=
  (t.withMyCtx (t.myCtx.setMaskBits dm ((c.actives e k).map (fun j => (j, (res e c j).1))))).raise 0x31
    (orFlags ((c.actives e k).map (fun j => (res e c j).2)))

theorem entryGives_compare (rel : Val → Val → Bool) (nan signals : Bool)
    (hex : exec i s = issueV i 4 (xsReads xs b) [] noCheck noCheck s)
    (heff : ∀ t, effectOf (s.entryOf i (xsReads xs b)) t =
      vecCompare rel nan signals xs k dm a b (s.entryOf i (xsReads xs b)) t)
    (hcheck : compareCheck k dm a (s.xsSource xs b) (s.entryOf i (xsReads xs b)) s.myCtx = none) :
    entryGives s i 4 (xsReads xs b) [] (compareState k dm (compareResult rel nan signals a (s.xsSource xs b))
      (s.entryOf i (xsReads xs b)) s.myCtx) := by
  refine entryGives_checked (chk := compareCheck k dm a (s.xsSource xs b))
    (F := compareState k dm (compareResult rel nan signals a (s.xsSource xs b))) hex (fun t => ?_)
    (fun _ _ _ => ⟨rfl, rfl⟩) (fun e t => ?_) hcheck
  · rw [heff, vecCompare, src2_xsSource]
    simp only [List.map_map]
    rfl
  · rw [compareState, raise_viq, State.myCtx_withMyCtx, setMaskBits_viq]

/-- Mask logic acts on every bit below VL (R130). -/
theorem entryGives_logic {d a b : MReg} (f : Bool → Bool → Bool) (hex : exec i s = issueV i 4 [] [] noCheck noCheck s)
    (heff : ∀ t, effectOf (s.entryOf i []) t = maskLogic f d a b (s.entryOf i []) t)
    (hcheck : vecCheck s.myCtx (s.entryOf i []) [] [d, a, b] [] = none) :
    entryGives s i 4 [] [] (fun t => t.withMyCtx (t.myCtx.setMaskBits d
      ((List.range (s.entryOf i []).vl).map (fun j => (j, f (s.myCtx.maskBit a j) (s.myCtx.maskBit b j)))))) :=
  entryGives_writes (chk := fun e c => vecCheck c e [] [d, a, b] [])
    (written := fun e c c' => c'.setMaskBits d
      ((List.range e.vl).map (fun j => (j, f (c.maskBit a j) (c.maskBit b j)))))
    hex heff (fun _ _ _ => ⟨rfl, rfl⟩) (fun _ c => setMaskBits_viq c d _) hcheck

/-- The results of VMERGE, at every element below VL: each source converts as its own kind (R131, R123). -/
def mergeResults (k : MReg) (d a : VReg) (y : Src2) (e : VEntry) (c : Ctx) : List (Nat × Nat × FFlags) :=
  (List.range e.vl).map (fun j => (j, if c.maskBit k j then e.toDest (c.regType d) (c.intReg a) (c.srcVal e a j)
    else e.toDest (c.regType d) (c.src2Int a y) (c.src2Val e a y j)))

theorem entryGives_merge (s : State) (xs : BitVec 1) (k : MReg) (d a : VReg) (b : BitVec 5)
    (hcheck : valueCheck k d a (s.xsSource xs b) (s.entryOf (.vmerge xs k d a b) (xsReads xs b)) s.myCtx = none) :
    entryGives s (.vmerge xs k d a b) 4 (xsReads xs b) [] (fun t => t.writeResults d (s.myCtx.regWidth d) 0x31
      (mergeResults k d a (s.xsSource xs b) (s.entryOf (.vmerge xs k d a b) (xsReads xs b)) s.myCtx)) := by
  refine entryGives_results (chk := valueCheck k d a (s.xsSource xs b)) (R := mergeResults k d a (s.xsSource xs b)) rfl
    (fun t => ?_) (fun _ _ _ => ⟨rfl, rfl⟩) hcheck
  show effVmerge xs k d a b (s.entryOf (.vmerge xs k d a b) (xsReads xs b)) t = _
  rw [effVmerge, src2_xsSource]
  rfl

end masks

section reductions

variable {s : State} {i : Instr} (k : MReg) (d a : VReg)

theorem active_iff (c : Ctx) (e : VEntry) (j : Nat) : c.active e k j = true ↔ j < e.vl ∧ c.maskBit k j = true := by
  rw [Ctx.active, Bool.and_eq_true, decide_eq_true_eq]

/-- The sum of VRED.SUM: exact for the integer kind, else in the order of 04_numbers R81 (R144). -/
def sumResult (e : VEntry) (c : Ctx) : Nat × FFlags :=
  if c.intReg a then
    e.toDest (c.regType d) true
      (.ofInt (((c.actives e k).map (fun j => (c.srcVal e a j).1.toInt)).foldl (· + ·) 0), .none)
  else
    e.toDest (c.regType d) false ((redOrder (sumStep e.rm) (ceilDiv e.vl (16 * c.fronds)) c.fronds (fun j =>
      if j < e.vl ∧ c.maskBit k j then
        let v := c.srcVal e a j
        let z := roundF32 .rne v.1
        some (z.1, v.2.or z.2)
      else none)).getD (Val.zero, .none))

/-- The bits of VRED.AND, VRED.OR and VRED.XOR, from z on (R118, R126, R144). -/
def foldResult (f : Nat → Nat → Nat) (z : Nat) (e : VEntry) (c : Ctx) : Nat × FFlags :=
  (((c.actives e k).map (fun j => c.src e a (c.regWidth a) j)).foldl f z % 2 ^ c.regWidth d, .none)

/-- The extreme value of VRED.MIN and VRED.MAX (R144; 04_numbers R73). -/
def extremeResult (max : Bool) (e : VEntry) (c : Ctx) : Nat × FFlags :=
  let t := ((c.actives e k).map (fun j => c.srcVal e a j)).foldl (fun acc v =>
    match acc with
    | none => some (match v.1 with | .nan g => (.nan false, v.2.or { iv := g }) | _ => v)
    | some p => let r := Val.pick max p.1 v.1; some (r.1, (p.2.or v.2).or r.2)) (none : Option FVal)
  e.toDest (c.regType d) (c.intReg a) (t.getD (minMaxIdentity c a max, .none))

/-- The index and the value of the extreme element that is no NaN, the first of equal ones (R144). -/
def bestElem (max : Bool) (e : VEntry) (c : Ctx) : Option (Nat × Val) :=
  ((c.actives e k).map (fun j => (j, c.srcVal e a j))).foldl (fun acc v =>
    if v.2.1.isNan then acc else
    match acc with
    | none => some (v.1, v.2.1)
    | some p => if (if max then p.2.lt true v.2.1 else v.2.1.lt true p.2) then some (v.1, v.2.1) else some p) none

/-- The two elements of VRED.MINI and VRED.MAXI (R144). -/
def indexResults (max : Bool) (e : VEntry) (c : Ctx) : List (Nat × Nat × FFlags) :=
  let best := bestElem k a max e c
  [(0, e.toDest (c.regType d) (c.intReg a) ((best.map (·.2)).getD (minMaxIdentity c a max), .none)),
   (1, e.toDest (c.regType d) true (.ofInt ((best.map (fun p => (p.1 : Int))).getD (-1)), .none))]

/-- The flags of VRED.MINI and VRED.MAXI (R144). -/
def indexFlags (e : VEntry) (c : Ctx) : FFlags :=
  orFlags (((c.actives e k).map (fun j => (j, c.srcVal e a j))).map (fun v => v.2.2.or { iv := v.2.1.sig }))

variable {k d a}

theorem effVredSum_eq {e : VEntry} {t : State} : effVredSum k d a e t =
    vChecked (redCheck t.myCtx e k d a true) t (redWrite d [(0, sumResult k d a e t.myCtx)] .none t) := by
  simp only [effVredSum, sumResult, active_iff]
  split <;> rfl

/-- The completion of a reduction by its results and flags, at positions that depend on no mask (R144). -/
theorem entryGives_reduction {values : Bool} (rs : VEntry → Ctx → List (Nat × Nat × FFlags)) (f : VEntry → Ctx → FFlags)
    (hex : exec i s = issueV i 4 [] [] noCheck noCheck s)
    (heff : ∀ t, effectOf (s.entryOf i []) t = vChecked (redCheck t.myCtx (s.entryOf i []) k d a values) t
      (redWrite d (rs (s.entryOf i []) t.myCtx) (f (s.entryOf i []) t.myCtx) t))
    (hdata : ∀ e q h, rs e { s.myCtx with viq := q, ch := h } = rs e s.myCtx ∧
      f e { s.myCtx with viq := q, ch := h } = f e s.myCtx)
    (hcheck : redCheck s.myCtx (s.entryOf i []) k d a values = none) :
    entryGives s i 4 [] [] (fun t => (t.writeResults d (s.myCtx.regWidth d) 0x38 (rs (s.entryOf i []) s.myCtx)).raise 0x38
      (f (s.entryOf i []) s.myCtx)) := by
  refine entryGives_checked (chk := fun e c => redCheck c e k d a values)
    (F := fun e c t => (t.writeResults d (c.regWidth d) 0x38 (rs e c)).raise 0x38 (f e c)) hex heff (fun e q h => ?_)
    (fun e t => ?_) hcheck
  · rw [(hdata e q h).1, (hdata e q h).2]
    exact ⟨rfl, rfl⟩
  · rw [raise_viq, writeResults_viq]

/-- The completion of a reduction to element 0. -/
theorem entryGives_reduction_one {values : Bool} (r : VEntry → Ctx → Nat × FFlags)
    (hex : exec i s = issueV i 4 [] [] noCheck noCheck s)
    (heff : ∀ t, effectOf (s.entryOf i []) t = vChecked (redCheck t.myCtx (s.entryOf i []) k d a values) t
      (redWrite d [(0, r (s.entryOf i []) t.myCtx)] .none t))
    (hdata : ∀ e q h, r e { s.myCtx with viq := q, ch := h } = r e s.myCtx)
    (hcheck : redCheck s.myCtx (s.entryOf i []) k d a values = none) :
    entryGives s i 4 [] [] (fun t =>
      (t.writeResults d (s.myCtx.regWidth d) 0x38 [(0, r (s.entryOf i []) s.myCtx)]).raise 0x38 .none) :=
  entryGives_reduction (fun e c => [(0, r e c)]) (fun _ _ => .none) hex heff
    (fun e q h => ⟨by rw [hdata e q h], rfl⟩) hcheck

end reductions

end Sys2Proof.Machine

namespace Sys2Proof

open Machine

/-- Settles O30: the checks passed, each comparison is its shape with its relation, each mask instruction with its function. -/
theorem vectorComparesAndMasks : Obligations.VectorComparesAndMasks := by
  unfold Obligations.VectorComparesAndMasks
  refine ⟨fun s xs k dm d a b => ?compares, fun s d a b => ?masks⟩
  case compares =>
    intro reads c y cmp
    exact ⟨entryGives_compare Val.eqv false false rfl (fun _ => rfl),
      entryGives_compare (fun x y => !x.eqv y) true false rfl (fun _ => rfl),
      entryGives_compare (fun x y => x.lt false y) false true rfl (fun _ => rfl),
      entryGives_compare (fun x y => !y.lt false x) false true rfl (fun _ => rfl),
      entryGives_compare (fun x y => y.lt false x) false true rfl (fun _ => rfl),
      entryGives_compare (fun x y => !x.lt false y) false true rfl (fun _ => rfl),
      entryGives_merge s xs k d a b⟩
  case masks =>
    intro c logic
    exact ⟨entryGives_logic (fun x y => x && y) rfl (fun _ => rfl), entryGives_logic (fun x y => x || y) rfl (fun _ => rfl),
      entryGives_logic (fun x y => x != y) rfl (fun _ => rfl), entryGives_logic (fun x _ => !x) rfl (fun _ => rfl)⟩

/-- Settles O32: the checks passed, each reduction writes its own results, at positions that no mask gates. -/
theorem vectorReductions : Obligations.VectorReductions := by
  unfold Obligations.VectorReductions
  intro s k d a c w red bitsOf sums least index
  exact ⟨entryGives_reduction_one (sumResult k d a) rfl (fun _ => effVredSum_eq) (fun _ _ _ => rfl),
    entryGives_reduction_one (extremeResult k d a false) rfl (fun _ => rfl) (fun _ _ _ => rfl),
    entryGives_reduction_one (extremeResult k d a true) rfl (fun _ => rfl) (fun _ _ _ => rfl),
    entryGives_reduction_one (fun e c => foldResult k d a (fun x y => x &&& y) (2 ^ c.regWidth a - 1) e c) rfl (fun _ => rfl)
      (fun _ _ _ => rfl),
    entryGives_reduction_one (foldResult k d a (fun x y => x ||| y) 0) rfl (fun _ => rfl) (fun _ _ _ => rfl),
    entryGives_reduction_one (foldResult k d a (fun x y => x ^^^ y) 0) rfl (fun _ => rfl) (fun _ _ _ => rfl),
    entryGives_reduction (indexResults k d a false) (indexFlags k a) rfl (fun _ => rfl) (fun _ _ _ => ⟨rfl, rfl⟩),
    entryGives_reduction (indexResults k d a true) (indexFlags k a) rfl (fun _ => rfl) (fun _ _ _ => ⟨rfl, rfl⟩)⟩

end Sys2Proof
end

section
/-! SUPPORT. VSPILL, VRELOAD and SCLD where their checks answer (06_vector R120; 07_matrix R158, R159). -/

namespace Sys2Proof.Machine

/-- Outside a pure task an access of an element is its access alone (17_reuse R395). -/
theorem pureElem_plain {s : State} (h : s.Plain) (write : Bool) (a n i : Nat) (k : State → Res) :
    pureElem write a n i k s = k s := by
  rw [pureElem, show s.me.checkedBy = none from h]

section frames

variable {s t : State} {d : VReg} {a : SReg} {e : VEntry}

theorem exec_vspill (d : VReg) (a : SReg) (s : State) :
    exec (.vspill d a) s = issueV (.vspill d a) 4 [a] [] noCheck noCheck s := rfl

theorem exec_vreload (d : VReg) (a : SReg) (s : State) :
    exec (.vreload d a) s = issueV (.vreload d a) 4 [a] [] noCheck noCheck s := rfl

/-- The checks of a frame at the base of a group that lies within the registers (R120, R122). -/
theorem frameCheck_none (c : Ctx) (hill : e.ill = false) (hbase : d.toNat % e.g = 0) (hend : d.toNat + e.g ≤ 32) :
    memCheck c e 0 [] (frameBad e d) = none := by
  refine memCheck_none ?_ ?_
  · simp only [vecCheck, hill, Bool.false_eq_true, if_false, List.any_nil, List.any_cons, ne_eq, not_true_eq_false,
      decide_false, Bool.false_and, Bool.or_self]
  · simp only [frameBad, hbase, ne_eq, not_true_eq_false, decide_false, Bool.false_or, decide_eq_false_iff_not]
    omega

theorem length_padTo (n : Nat) (bs : List Byte) : (padTo n bs).length = n := by
  rw [padTo, List.length_take, List.length_append, List.length_replicate]
  omega

theorem length_bytesOfWords (ws : List Word) : (bytesOfWords ws).length = 8 * ws.length := by
  induction ws with
  | nil => rfl
  | cons x xs ih =>
    have hword : (bytesOfWord 8 x).length = 8 := length_bytesOfNat 8 x.toNat
    rw [show bytesOfWords (x :: xs) = bytesOfWord 8 x ++ bytesOfWords xs from rfl, List.length_append, hword, ih,
      List.length_cons]
    omega

/-- The image of VSPILL is its header of 64 bytes and its data, padded to the frame (R120). -/
theorem length_spillImage (c : Ctx) (d : VReg) (e : VEntry) : (spillImage c d e).length = e.frameLen := by
  rw [spillImage, List.length_append, length_bytesOfWords, length_padTo]
  simp only [List.length_cons, List.length_nil, VEntry.frameLen]
  omega

/-- VSPILL whose whole range may be written (R120). -/
theorem effVspill_writes {r : Region} (hp : t.Plain) (hcheck : memCheck t.myCtx e 0 [] (frameBad e d) = none)
    (hr : t.storeCheck (t.who t.cur) .write storeKinds 8 .none false (e.op 0).toNat e.frameLen = .ok r) :
    effVspill d e t =
      .done (t.writeRegion (t.who t.cur) .none false (e.op 0).toNat (spillImage t.myCtx d e) r) := by
  rw [effVspill, vChecked_none _ _ _ hcheck, pureFrame, pureElem_plain hp, hr]
  rfl

/-- The data bytes of a frame that a group has room for (R120). -/
def reloadLen (c : Ctx) (e : VEntry) (h : List Byte) : Nat := min ((wordsOfBytes 8 h).getD 3 0).toNat (e.g * c.usedBytes)

/-- What VRELOAD leaves of a state, with a frame of the header h and the bytes bs (R120). -/
def reloadState (d : VReg) (e : VEntry) (h bs : List Byte) (c : Ctx) (t : State) : State :=
  freeGroup d (e.g * c.usedBytes - reloadLen c e h) (reloadLen c e h) (t.withMyCtx
    ((t.myCtx.setElems d 8 ((List.range (reloadLen c e h)).map (fun i => (i, ((bs.drop 64).getD i 0).toNat)))).writeTag
      e.epoch d (((wordsOfBytes 8 h).getD 0 0).setWidth 12)))

/-- VRELOAD whose header and data can be read (R120). -/
theorem effVreload_reads {h bs : List Byte} (hp : t.Plain) (hcheck : memCheck t.myCtx e 0 [] (frameBad e d) = none)
    (hh : t.loadFor (t.who t.cur) 1 .read loadKinds 8 (e.op 0).toNat 64 = .ok h)
    (hbs : t.loadFor (t.who t.cur) 1 .read loadKinds 8 (e.op 0).toNat (64 + reloadLen t.myCtx e h) = .ok bs) :
    effVreload d e t = .done (reloadState d e h bs t.myCtx t) := by
  rw [effVreload, vChecked_none _ _ _ hcheck, pureFrame, pureElem_plain hp, hh]
  simp only [MemRes.elim]
  rw [pureFrame, pureElem_plain hp, show t.loadFor (t.who t.cur) 1 .read loadKinds 8 (e.op 0).toNat
    (64 + min ((wordsOfBytes 8 h).getD 3 0).toNat (e.g * t.myCtx.usedBytes)) = .ok bs from hbs]
  rfl

/-- Bytes that become undefined are no part of the queue. -/
theorem freeGroup_viq (d : VReg) (n i : Nat) (t : State) : (freeGroup d n i t).myCtx.viq = t.myCtx.viq := by
  induction n generalizing i t with
  | zero => rfl
  | succ n ih =>
    rw [freeGroup, ih, State.myCtx_withMyCtx, setElem_viq]
    rfl

/-- A tag written changes no entry's place in the queue. -/
theorem writeTag_viq_length (c : Ctx) (ep : Nat) (d : VReg) (tag : BitVec 12) :
    (c.writeTag ep d tag).viq.length = c.viq.length := by
  unfold Ctx.writeTag
  split
  · exact List.length_map _
  · rfl

theorem reloadState_viq_length (h bs : List Byte) (c : Ctx) :
    (reloadState d e h bs c t).myCtx.viq.length = t.myCtx.viq.length := by
  rw [reloadState, freeGroup_viq, State.myCtx_withMyCtx, writeTag_viq_length, setElems_viq]

end frames

section scales

variable {s t : State} {kb : KReg} {a b : SReg} {e : VEntry} {data : Nat → List Byte}

theorem exec_scld (kb : KReg) (a b : SReg) (s : State) :
    exec (.scld kb a b) s = issueV (.scld kb a b) 4 [a, b] [] noCheck noCheck s := rfl

/-- The scale banks of the moving context replaced. -/
def State.withScale (t : State) (m : Sparse (BitVec 16)) : State := t.withMyCtx { t.myCtx with scale := m }

theorem withScale_withScale (m m' : Sparse (BitVec 16)) : (t.withScale m).withScale m' = t.withScale m' := by
  rw [State.withScale, State.withScale, State.myCtx_withMyCtx]
  exact State.withCtx_withCtx ..

theorem withScale_scale (m : Sparse (BitVec 16)) : (t.withScale m).myCtx.scale = m := by
  rw [State.withScale, State.myCtx_withMyCtx]

theorem withScale_scaleEntries (m : Sparse (BitVec 16)) : (t.withScale m).myCtx.scaleEntries = t.myCtx.scaleEntries := by
  rw [State.withScale, State.myCtx_withMyCtx]
  rfl

theorem withScale_plain (m : Sparse (BitVec 16)) (h : t.Plain) : (t.withScale m).Plain := by
  rw [State.Plain, State.withScale, State.me_withMyCtx]
  exact h

theorem withScale_who (m : Sparse (BitVec 16)) : (t.withScale m).who t.cur = t.who t.cur := by
  have h : (t.withScale m).ctx t.cur.cid = _ := State.myCtx_withMyCtx t _
  simp only [State.who, h]
  rfl

/-- What memory holds for the moving hart does not depend on its scale banks. -/
theorem load_withScale (m : Sparse (BitVec 16)) (x n : Nat) :
    (t.withScale m).load (t.who t.cur) x n = t.load (t.who t.cur) x n :=
  loadFor_withCtx t t.cur.cid _ _ _ _ _ _ _ _ rfl rfl rfl

/-- The scale banks with entry j of an SCLD filled, of a bank of n entries from a start on (R159). -/
def scaleEntry (kb : KReg) (start n : Nat) (data : Nat → List Byte) (m : Sparse (BitVec 16)) (j : Nat) : Sparse (BitVec 16) :=
  sset 0 m (kb.toNat * 512 + (start + j) % n) (BitVec.ofNat 16 (natOfBytes (data j)))

/-- An entry of a scale bank whose bytes can be read (R159). -/
theorem scldEntry_loads {start j : Nat} {byte : Bool} {addr : Nat → Nat}
    (hl : t.load (t.who t.cur) (addr j) (if byte then 1 else 2) = .ok (data j)) : scldEntry kb start byte addr j t =
      .ok (t.withScale (scaleEntry kb start t.myCtx.scaleEntries data t.myCtx.scale j)) := by
  rw [scldEntry, hl]
  rfl

/-- The loop over entries whose bytes can be read: what it has filled changes no later read (R159). -/
theorem elemLoop_scales {start len : Nat} {byte : Bool} {addr : Nat → Nat} {js : List Nat} (m : Sparse (BitVec 16)) (hp : t.Plain)
    (hl : ∀ j ∈ js, t.load (t.who t.cur) (addr j) (if byte then 1 else 2) = .ok (data j)) :
    elemLoop false len addr (scldEntry kb start byte addr) js (t.withScale m) =
      .done (t.withScale (js.foldl (scaleEntry kb start t.myCtx.scaleEntries data) m)) := by
  induction js generalizing m with
  | nil => rfl
  | cons j r ih =>
    have hload : (t.withScale m).load ((t.withScale m).who (t.withScale m).cur) (addr j) (if byte then 1 else 2) =
        .ok (data j) := by
      rw [show (t.withScale m).cur = t.cur from rfl, withScale_who, load_withScale, hl j List.mem_cons_self]
    have hentry : scldEntry kb start byte addr j (t.withScale m) =
        .ok (t.withScale (scaleEntry kb start t.myCtx.scaleEntries data m j)) := by
      rw [scldEntry_loads hload, withScale_scale, withScale_scaleEntries, withScale_withScale]
    rw [elemLoop, pureElem_plain (withScale_plain m hp), hentry]
    exact ih _ fun k hk => hl k (List.mem_cons_of_mem _ hk)

/-- The entries of a scale bank that an SCLD fills (R159). -/
def VEntry.scaleCount (e : VEntry) : Nat := min (bits (e.op 1) 16 10) 512

/-- What SCLD leaves of a state, where the scale banks are those of the context c (R158, R159). -/
def scaledState (kb : KReg) (e : VEntry) (data : Nat → List Byte) (c : Ctx) (t : State) : State :=
  t.withMyCtx { t.myCtx with
    scale := (List.range e.scaleCount).foldl (scaleEntry kb (bits (e.op 1) 32 9) c.scaleEntries data) c.scale
    scaleMode := sset 0 c.scaleMode kb.toNat (BitVec.ofBool (bit (e.op 1) 26)) }

/-- SCLD whose entries can all be read (R159). -/
theorem effScld_loads (hlisted : t.withMyCtx t.myCtx = t) (hp : t.Plain) (hs : e.step = 0) (hill : e.ill = false)
    (hl : ∀ j < e.scaleCount, t.load (t.who t.cur) (e.op 0 + BitVec.ofNat 64 j * sext 16 (e.op 1)).toNat
      (if bit (e.op 1) 27 then 1 else 2) = .ok (data j)) :
    effScld kb e t = .done (scaledState kb e data t.myCtx t) := by
  have hloop := elemLoop_scales (kb := kb) (start := bits (e.op 1) 32 9) (len := if bit (e.op 1) 27 then 1 else 2)
    (js := List.range e.scaleCount) t.myCtx.scale hp fun j hj => hl j (List.mem_range.1 hj)
  rw [show t.withScale t.myCtx.scale = t from hlisted] at hloop
  have hpending : (List.range e.scaleCount).filter (fun j => decide (e.step ≤ j)) = List.range e.scaleCount := by
    simp only [hs, Nat.zero_le, decide_true, List.filter_true]
  simp only [effScld, hill, Bool.false_eq_true, if_false]
  rw [show min (bits (e.op 1) 16 10) 512 = e.scaleCount from rfl, hpending, hloop]
  simp only [State.withScale, State.myCtx_withMyCtx]
  exact congrArg Res.done (State.withCtx_withCtx ..)

end scales

end Sys2Proof.Machine

namespace Sys2Proof

open Machine

/-- Settles O38: where the checks answer, VSPILL is one store, VRELOAD two loads, and SCLD a load an entry. -/
theorem spillsAndScales : Obligations.SpillsAndScales := by
  unfold Obligations.SpillsAndScales
  intro s d kb a b hp hill c g at_
  refine ⟨fun hbase hend => ?spill, fun hbase hend => ?reload, fun data => ?scales⟩
  case spill =>
    intro i e t r hr
    refine ⟨length_spillImage c d e, entryGives_of s i 4 [a] [] noCheck noCheck _ (exec_vspill d a s) rfl rfl
      (fun hready => ?_) ?_⟩
    · obtain ⟨q, hctx⟩ := issued_myCtx s i 4 [a] [] hready.1
      have heff := effVspill_writes (d := d) (e := e) (plain_issued [] hp) (frameCheck_none _ hill hbase hend) hr
      rw [hctx] at heff
      exact heff
    · rw [(writeRegion_keeps ..).myCtx]
  case reload =>
    intro i e t h bs hh hs cap n tag hbs hready
    obtain ⟨q, hctx⟩ := issued_myCtx s i 4 [a] [] hready.1
    have hlen : reloadLen t.myCtx e h = n := by
      rw [show t.myCtx = _ from hctx]
      rfl
    have heff := effVreload_reads (d := d) (e := e) (plain_issued [] hp) (frameCheck_none _ hill hbase hend) hh
      (by rw [hlen]; exact hbs)
    refine issueV_done i 4 [a] [] noCheck noCheck s (reloadState d e h bs s.myCtx t) hready rfl rfl ?_ ?_
    · rw [hctx] at heff
      exact heff
    · refine List.drop_eq_nil_of_le ?_
      rw [reloadState_viq_length, State.viq_issued s i 4 [a] [] hready.2.1]
      exact le_rfl
  case scales =>
    intro i t ctl n len hl
    refine entryGives_of s i 4 [a, b] [] noCheck noCheck
      (scaledState kb (s.entryOf i [a, b]) data s.myCtx) (exec_scld kb a b s) rfl rfl (fun hready => ?_) ?_
    · obtain ⟨q, hctx⟩ := issued_myCtx s i 4 [a, b] [] hready.1
      have heff := effScld_loads (kb := kb) (e := s.entryOf i [a, b]) (issued_listed []) (plain_issued [] hp) rfl hill hl
      rw [hctx] at heff
      exact heff
    · rw [scaledState, State.myCtx_withMyCtx]

end Sys2Proof
end

section
/-! SUPPORT. The channels of a kernel: what the issue of an instruction leaves of them, the sends and the receives that their
checks let through, their traps, and the arrival of a message (07_matrix R166–R173). -/

namespace Sys2Proof.Machine

section channels

variable {s t : State} (n : Nat) (f : Chan → Chan) (rs : List SReg)

/-- The channels of the moving hart are those of its context's kernel. -/
theorem State.chan_congr (hk : t.kernels = s.kernels) (hc : t.myCtx.kernel = s.myCtx.kernel) : t.chan n = s.chan n := by
  simp only [State.chan, State.kernel, hk, hc]

theorem State.chan_reading : (s.reading rs).chan n = s.chan n :=
  State.chan_congr n rfl (by rw [State.reading, State.myCtx_withMe, Ctx.withHart_kernel])

theorem State.member_reading : (s.reading rs).myCtx.member = s.myCtx.member := by
  rw [State.reading, State.myCtx_withMe, Ctx.withHart_member]

theorem State.sends_reading : (s.reading rs).sends n = s.sends n := by
  rw [State.sends, State.chan_reading, State.member_reading]
  rfl

theorem State.receives_reading : (s.reading rs).receives n = s.receives n := by
  rw [State.receives, State.chan_reading, State.member_reading]
  rfl

theorem State.outstanding_congr (hp : t.packets = s.packets) (hc : t.cur = s.cur) : t.outstanding = s.outstanding := by
  rw [State.outstanding, hp, hc, State.outstanding]

/-- A channel is no part of a context. -/
@[simp] theorem State.modChan_myCtx : (s.modChan n f).myCtx = s.myCtx := by
  unfold State.modChan State.modKernel
  split <;> rfl

/-- An instruction that a pure task may not execute, in any state of a hart that runs none. -/
theorem impureOnly_of_plain (detail : Nat) (k : State → Res) (h : t.Plain) : impureOnly detail k t = k t := by
  simp only [impureOnly, show t.me.checkedBy = none from h]

end channels

section issue

variable {s t : State} {i : Instr} {n : Nat} {reads writes : List SReg} {early late : State → Option Trap}

/-- What an entry that uses channels sees in t of the state s in which it was issued: the hart runs no pure task, the channels
are the same, and so are the multicasts under way. -/
structure State.SeesChannels (s t : State) : Prop where
  plain : t.Plain
  chan : ∀ n, t.chan n = s.chan n
  outstanding : t.outstanding = s.outstanding

theorem State.seesChannels_issued (hk : s.cur.kind = .ch) (hp : s.Plain) :
    s.SeesChannels (s.issued i n reads writes) := by
  obtain ⟨h, hctx⟩ := issued_myCtx s i n reads writes hk
  refine ⟨plain_issued writes hp, fun m => State.chan_congr m ?_ (by rw [hctx]), State.outstanding_congr ?_ ?_⟩ <;>
    simp only [State.issued, State.advance, State.pushEntry, State.reading, State.withMe_kernels, State.withMe_packets,
      State.withMe_cur, State.withMyCtx_kernels, State.withMyCtx_packets, State.withMyCtx_cur]

/-- The completion of an entry by an effect F of the context's data, under a check P of them, where its channels stand as they
stood at its issue. -/
theorem entryGives_of_channels {P : Ctx → Prop} {F : Ctx → State → State} (hp : s.Plain)
    (hex : exec i s = issueV i n reads writes early late s) (he : early s = none) (hl : late (s.reading reads) = none)
    (heff : ∀ t, s.SeesChannels t → P t.myCtx → effectOf (s.entryOf i reads) t = .done (F t.myCtx t))
    (hP : ∀ q h, P { s.myCtx with viq := q, ch := h })
    (hF : ∀ q h, F { s.myCtx with viq := q, ch := h } = F s.myCtx)
    (hv : ∀ t, (F s.myCtx t).myCtx.viq = t.myCtx.viq) : entryGives s i n reads writes (F s.myCtx) := by
  refine entryGives_of s i n reads writes early late _ hex he hl (fun hready => ?_) (hv _)
  obtain ⟨h, hctx⟩ := issued_myCtx s i n reads writes hready.1
  rw [heff _ (State.seesChannels_issued hready.1 hp) (hctx ▸ hP _ h), hctx, hF]

/-- A trap that the front end finds before it reads a register (03_encoding R51). -/
theorem issueV_early {x : Trap} (he : early s = some x) :
    issueV i n reads writes early late s = .next (s.scalarTrap x) := by
  rw [issueV, he]
  rfl

end issue

section vector

variable {s t : State} {ch : BitVec 5} {a d : VReg} {e : VEntry} {k : Chan} {m : Msg}

/-- The message of a CHSEND (R168, R170): the stored bits of the elements below VL, whatever the mask. -/
def vectorMsg (a : VReg) (e : VEntry) (c : Ctx) : Msg :=
  { scalar := false, vals := (List.range e.vl).map (fun j => BitVec.ofNat 64 (c.elem a (c.regWidth a) j)), tag := c.tag a,
    len := e.vl, beats := max 1 (ceilDiv (e.vl * c.regWidth a) 512), complete := false }

/-- CHSEND with its slots free and no multicast of the hart's own under way. -/
theorem effChsend_sends (hp : t.Plain) (hcheck : vecCheck t.myCtx e [] [] [t.myCtx.span a] = none)
    (hchan : t.chan ch.toNat = some k) (hfree : (vectorMsg a e t.myCtx).beats ≤ k.free)
    (hslots : (vectorMsg a e t.myCtx).beats ≤ k.decl.slots) (ho : t.outstanding = false) :
    effChsend ch a e t = .done (t.modChan ch.toNat (fun k => k.push (vectorMsg a e t.myCtx))) := by
  have hwait : ¬ (t.outstanding = true ∨ k.free < (vectorMsg a e t.myCtx).beats) := by
    rw [ho, not_or]
    exact ⟨Bool.false_ne_true, Nat.not_lt.2 hfree⟩
  rw [effChsend, vChecked_none _ _ _ hcheck, impureOnly_of_plain _ _ hp]
  simp only [hchan]
  exact (if_neg (Nat.not_lt.2 hslots)).trans (if_neg hwait)

/-- What CHRECV leaves of a context that it gives a message, whose elements are w bits wide for the receiver (R171;
notes/assumptions/87). -/
def recvCtx (w : Nat) (d : VReg) (m : Msg) (e : VEntry) (c : Ctx) : Ctx :=
  (c.setTag d m.tag).setElems d w ((List.range e.vl).map (fun j =>
    (j, if j < m.len then (m.vals.getD j 0).toNat % 2 ^ w else 0)))

/-- A message whose length is the receiver's, or whose channel has no status record, has nothing written for it (R172). -/
theorem statusWrite_none {status len vl : Nat} {g : State → Res} (h : len = vl ∨ status = 0) :
    statusWrite status len vl g t = g t :=
  if_pos h

theorem ill_of_vecCheck {c : Ctx} {fmts : List Nat} {masks : List MReg} {spans : List Span}
    (h : vecCheck c e fmts masks spans = none) : e.ill = false := by
  by_contra hill
  rw [Bool.not_eq_false] at hill
  rw [vecCheck_ill hill] at h
  cases h

/-- CHRECV of a complete vector message at the head. -/
theorem effChrecv_takes (hp : t.Plain) (hcheck : vecCheck t.myCtx e [] [] [{ reg := d, code := tagType m.tag }] = none)
    (hchan : t.chan ch.toNat = some k) (hready : k.ready = some m) (hvector : m.scalar = false)
    (hlen : m.len = e.vl ∨ k.decl.status = 0) :
    effChrecv d ch e t =
      .done ((t.withMyCtx (recvCtx (t.myCtx.widthOf (tagType m.tag)) d m e t.myCtx)).modChan ch.toNat Chan.pop) := by
  rw [effChrecv, ill_of_vecCheck hcheck, if_neg Bool.false_ne_true, impureOnly_of_plain _ _ hp]
  simp only [hchan, hready, hvector, Bool.false_eq_true, if_false]
  rw [vChecked_none _ _ _ hcheck, statusWrite_none hlen]
  rfl

theorem exec_chsend (ch : BitVec 5) (a : VReg) (s : State) :
    exec (.chsend ch a) s = issueV (.chsend ch a) 4 [] [] (cannotSend 0 ch.toNat) noCheck s := rfl

theorem exec_chrecv (d : VReg) (ch : BitVec 5) (s : State) :
    exec (.chrecv d ch) s = issueV (.chrecv d ch) 4 [] [] (cannotReceive 0 ch.toNat) noCheck s := rfl

theorem cannotSend_declared {parcel n : Nat} (h : s.sends n = true) : cannotSend parcel n s = none := if_pos h

theorem cannotSend_other {parcel n : Nat} (h : s.sends n = false) : cannotSend parcel n s = some (illegal s 5 parcel) :=
  if_neg (by rw [h]; exact Bool.false_ne_true)

theorem cannotReceive_declared {parcel n : Nat} (h : s.receives n = true) : cannotReceive parcel n s = none := if_pos h

theorem cannotReceive_other {parcel n : Nat} (h : s.receives n = false) :
    cannotReceive parcel n s = some (illegal s 5 parcel) :=
  if_neg (by rw [h]; exact Bool.false_ne_true)

end vector

section scalar

variable {s : State} {ch : BitVec 5} {a : SReg} {q : Chan} {m : Msg}

/-- CHSEND.S with a slot free, no entry and no multicast of the hart's own under way (R170). -/
theorem execChsendS_sends (h : s.Ready [a] []) (hp : s.Plain) (hq : s.Quiet) (hs : s.sends ch.toNat = true)
    (hchan : s.chan ch.toNat = some q) (hfree : q.free ≠ 0) (ho : s.outstanding = false) : execChsendS ch a s =
      .next (((s.reading [a]).modChan ch.toNat (fun q => q.push (scalarMsg (s.readS a)))).advance 4) := by
  have hq' := s.quiet_reading [a] hq
  refine scalar_done _ _ _ _ _ h ?_
  rw [State.sends_reading, hs, if_neg (by decide), impureOnly_plain s [a] _ 6 hp, afterEntries_quiet _ _ _ hq',
    afterViq_quiet _ _ hq', afterWrites_done (s.reading [a]) _ ho]
  simp only [State.chan_reading, hchan, hfree, if_false, State.readS_reading]

/-- CHSEND.S of another hart than the declared sender (R166). -/
theorem execChsendS_other (h : s.Ready [a] []) (hq : s.Quiet) (hs : s.sends ch.toNat = false) :
    execChsendS ch a s = .next (s.here.scalarTrap (illegal (s.reading [a]) 5 0)) := by
  refine scalar_trap h hq ?_
  rw [State.sends_reading, hs]
  exact if_pos rfl

section receives

variable (h : s.Ready [] [a]) (hp : s.Plain) (hq : s.Quiet) (hr : s.receives ch.toNat = true)
  (hchan : s.chan ch.toNat = some q) (hready : q.ready = some m)
include h hp hq hr hchan hready

/-- CHRECV.S of a complete scalar message at the head (R171). -/
theorem execChrecvS_takes (hscalar : m.scalar = true) : execChrecvS a ch s =
    .next (((s.reading []).modChan ch.toNat Chan.pop).retire 4 a (m.vals.getD 0 0)) := by
  refine scalar_done _ _ _ _ _ h ?_
  rw [State.receives_reading, hr, if_neg (by decide), impureOnly_plain s [] _ 6 hp,
    afterEntries_quiet _ _ _ (s.quiet_reading [] hq)]
  simp only [State.chan_reading, hchan, Option.bind_some, hready, hscalar, Bool.not_true, Bool.false_eq_true, if_false]

/-- CHRECV.S that finds a vector message (R171). -/
theorem execChrecvS_vector (hvector : m.scalar = false) : execChrecvS a ch s = .next (s.here.scalarTrap chanlen) := by
  refine scalar_trap h hq ?_
  rw [State.receives_reading, hr, if_neg (by decide), impureOnly_plain s [] _ 6 hp,
    afterEntries_quiet _ _ _ (s.quiet_reading [] hq)]
  simp only [State.chan_reading, hchan, Option.bind_some, hready, hvector, Bool.not_false, if_true]

end receives

/-- CHRECV.S of another hart than the declared receiver (R166). -/
theorem execChrecvS_other (h : s.Ready [] [a]) (hq : s.Quiet) (hr : s.receives ch.toNat = false) :
    execChrecvS a ch s = .next (s.here.scalarTrap (illegal (s.reading []) 5 0)) := by
  refine scalar_trap h hq ?_
  rw [State.receives_reading, hr]
  exact if_pos rfl

end scalar

section arrival

/-- Only the element at the place matters. -/
theorem modifyAt_congr {α : Type} {f g : α → α} {x : α} (hfg : f x = g x) (l : List α) (n : Nat) (h : l[n]? = some x) :
    modifyAt l n f = modifyAt l n g := by
  induction l generalizing n with
  | nil => rfl
  | cons y r ih =>
    cases n with
    | zero =>
      obtain rfl : y = x := Option.some.inj h
      rw [modifyAt, modifyAt, hfg]
    | succ n => rw [modifyAt, modifyAt, ih n h]

/-- The message that arrives is the first that is not complete (R173). -/
theorem arriveFirst_append {before after : List Msg} {m : Msg} (hb : before.all (·.complete) = true)
    (hm : m.complete = false) : arriveFirst (before ++ m :: after) = before ++ { m with complete := true } :: after := by
  induction before with
  | nil => rw [List.nil_append, arriveFirst, hm, if_neg Bool.false_ne_true, List.nil_append]
  | cons x r ih =>
    rw [List.all_cons, Bool.and_eq_true] at hb
    rw [List.cons_append, arriveFirst, if_pos hb.1, ih hb.2, List.cons_append]

/-- A kernel one of whose channels changes, by what the change makes of that channel. -/
theorem modKernel_chans {s : State} {k n : Nat} {kn : Kernel} {q : Chan} {f g : Chan → Chan} (hk : s.kernel k = some kn)
    (hq : kn.chans[n]? = some q) (hfg : f q = g q) :
    s.modKernel k (fun kn => { kn with chans := modifyAt kn.chans n f }) =
      s.modKernel k (fun kn => { kn with chans := modifyAt kn.chans n g }) := by
  rw [State.modKernel_eq hk, State.modKernel_eq hk, modifyAt_congr hfg _ _ hq]

end arrival

end Sys2Proof.Machine

namespace Sys2Proof

open Machine

/-- Settles O41: an entry sends or takes by the channel and the registers as they stood at its issue; the .S forms, on an empty
queue, act in their own step; and the message that arrives is the first that is under way. -/
theorem channels : Obligations.Channels := by
  unfold Obligations.Channels
  refine ⟨fun s ch a d q hp hchan => ?vector, fun s ch a q hp hq hchan => ?scalar, fun s ch a hq => ?other,
    fun s kn q before after m hk hq hmsgs hb hm => ?arrival⟩
  case vector =>
    intro c
    refine ⟨?send, ?recv, fun _ hs => ?_, fun _ hr => ?_⟩
    case send =>
      intro e w beats hs hcheck hfree hslots ho
      exact entryGives_of_channels (F := fun c t => t.modChan ch.toNat (fun k => k.push (vectorMsg a e c)))
        (P := fun c => vecCheck c e [] [] [c.span a] = none ∧ vectorMsg a e c = vectorMsg a e s.myCtx) hp
        (exec_chsend ch a s) (cannotSend_declared hs) rfl
        (fun t ht ⟨hcheck, hmsg⟩ => effChsend_sends ht.plain hcheck ((ht.chan _).trans hchan) (by rw [hmsg]; exact hfree)
          (by rw [hmsg]; exact hslots) (ht.outstanding.trans ho))
        (fun _ _ => ⟨hcheck, rfl⟩) (fun _ _ => rfl) (fun _ => by rw [State.modChan_myCtx])
    case recv =>
      intro m hr hready hvector e hcheck hlen w
      exact entryGives_of_channels
        (F := fun c t => (t.withMyCtx (recvCtx (c.widthOf (tagType m.tag)) d m e t.myCtx)).modChan ch.toNat Chan.pop)
        (P := fun c => vecCheck c e [] [] [{ reg := d, code := tagType m.tag }] = none) hp
        (exec_chrecv d ch s) (cannotReceive_declared hr) rfl
        (fun t ht hcheck => effChrecv_takes ht.plain hcheck ((ht.chan _).trans hchan) hready hvector hlen)
        (fun _ _ => hcheck) (fun _ _ => rfl)
        (fun _ => by rw [State.modChan_myCtx, State.myCtx_withMyCtx, recvCtx, setElems_viq, setTag_viq])
    · exact ⟨_, rfl, rfl, (exec_chsend ch a s).trans (issueV_early (cannotSend_other hs))⟩
    · exact ⟨_, rfl, rfl, (exec_chrecv d ch s).trans (issueV_early (cannotReceive_other hr))⟩
  case scalar =>
    exact ⟨fun h hs hfree ho => execChsendS_sends h hp hq hs hchan hfree ho,
      fun m h hr hready hscalar => execChrecvS_takes h hp hq hr hchan hready hscalar,
      fun m h hr hready hvector => ⟨chanlen, rfl, execChrecvS_vector h hp hq hr hchan hready hvector⟩⟩
  case other =>
    exact ⟨fun h hs => ⟨_, rfl, rfl, execChsendS_other h hq hs⟩, fun h hr => ⟨_, rfl, rfl, execChrecvS_other h hq hr⟩⟩
  case arrival =>
    refine congrArg _ (modKernel_chans hk hq ?_)
    rw [hmsgs, arriveFirst_append hb hm]

end Sys2Proof
end

section
/-! SUPPORT. VSCAN where its checks and its channels let it through: what it leaves of a state, in the context of its issue
(07_matrix R161–R165; 04_numbers R82, R83). -/

namespace Sys2Proof.Machine

section carry

variable {s t : State} {cin : CarryIn} {cout : CarryOut} {k : State → Res}

/-- An integer is its own truncation toward zero. -/
theorem Val.toInt_ofInt (n : Int) : (Val.ofInt n).toInt = n := by
  simp only [Val.ofInt, Val.toInt, signedNum, Nat.div_one, decide_eq_true_eq]
  split <;> omega

/-- An integer equals itself as a number. -/
theorem Val.eqv_ofInt (n : Int) : (Val.ofInt n).eqv (.ofInt n) = true := by
  simp [Val.eqv, Val.ofInt, Val.isNan, Val.lt]

theorem carryOutWord_ofInt (n : Int) : s.carryOutWord (.ofInt n) = (BitVec.ofInt 64 n, s) := by
  rw [State.carryOutWord, Val.toInt_ofInt, Val.eqv_ofInt, if_pos rfl]

/-- The channels of a scan's carries let it go on (R163–R165): a scalar message stands at the head of the one, and the other
has a free slot, with no multicast of the hart's own under way (notes/assumptions/14). -/
structure State.CarriesReady (s : State) (cin : CarryIn) (cout : CarryOut) : Prop where
  takes : ∀ n, cin = .channel n → ∃ x, carryMsg s n.toNat = some (some x)
  sends : ∀ n, cout = .channel n → ∃ q, s.chan n.toNat = some q ∧ q.free ≠ 0 ∧ s.outstanding = false

theorem State.CarriesReady.seen (h : s.CarriesReady cin cout) (ht : s.SeesChannels t) : t.CarriesReady cin cout where
  takes n hn := by
    obtain ⟨x, hx⟩ := h.takes n hn
    exact ⟨x, by rw [carryMsg, ht.chan]; exact hx⟩
  sends n hn := by
    obtain ⟨q, hq, hfree, ho⟩ := h.sends n hn
    exact ⟨q, (ht.chan _).trans hq, hfree, ht.outstanding.trans ho⟩

theorem scanPure_plain (h : t.Plain) : scanPure cin cout k t = k t := by
  unfold scanPure
  split
  · exact impureOnly_of_plain 6 k h
  · exact impureOnly_of_plain 6 k h
  · rfl

theorem scanChannels_ready (h : t.CarriesReady cin cout) : scanChannels cin cout k t = k t := by
  have hout : ∀ n, cout = .channel n → scanChannels .none cout k t = k t := by
    rintro n rfl
    obtain ⟨q, hq, hfree, ho⟩ := h.sends n rfl
    simp only [scanChannels, hq, hfree, ho, Bool.false_eq_true, or_self, if_false]
  have hin : scanChannels cin cout k t = scanChannels .none cout k t := by
    cases cin with
    | channel n =>
      obtain ⟨x, hx⟩ := h.takes n rfl
      simp only [scanChannels, hx]
    | _ => rfl
  rw [hin]
  cases cout with
  | channel n => exact hout n rfl
  | _ => rfl

/-- The state in which a scan has taken the message of its carry-in (R163). -/
def State.takeCarry (t : State) : CarryIn → State
  | .channel n => t.modChan n.toNat Chan.pop
  | _ => t

theorem State.takeCarry_myCtx : (t.takeCarry cin).myCtx = t.myCtx := by
  cases cin with
  | channel n => exact State.modChan_myCtx _ _
  | _ => rfl

/-- The message is taken first (R165). -/
theorem deliverCarry_takes (e : VEntry) (int : Bool) (x : Word) (v : Val) :
    deliverCarry e cin cout int x v t = deliverCarry e .none cout int x v (t.takeCarry cin) := by
  cases cin <;> rfl

/-- The delivery of a carry writes registers and channels, and no entry of the queue. -/
theorem deliverCarry_viq (e : VEntry) (int : Bool) (x : Word) (v : Val) :
    (deliverCarry e cin cout int x v t).myCtx.viq = t.myCtx.viq := by
  rw [deliverCarry_takes, ← State.takeCarry_myCtx (t := t) (cin := cin)]
  cases cout with
  | none => rfl
  | scalar r => exact writeS_viq _ r x
  | vector r => exact (raise_viq _ _ _).trans (by rw [State.myCtx_withMyCtx, setElem_viq])
  | channel n => exact congrArg Ctx.viq (State.modChan_myCtx _ _)

end carry

section scans

variable {s t : State} {k : MReg} {d a b : VReg} {cin : CarryIn} {cout : CarryOut} {e : VEntry}

/-- The checks of a scan over registers (R162; notes/assumptions/35). -/
def scanCheck (rs : List VReg) (k : MReg) (e : VEntry) (c : Ctx) : Option Trap :=
  vecCheck c e (rs.map (fun r => tagType (c.tag r))) [k] (rs.map c.span)

/-- Element j of a register as it enters a float scan: rounded to F32 (R163). -/
def scanElem (a : VReg) (e : VEntry) (c : Ctx) (j : Nat) : Val × FFlags :=
  let v := c.srcVal e a j
  let z := roundF32 .rne v.1
  (z.1, v.2.or z.2)

/-- Element j of the source of VSCAN.ADD, MAX and MIN: an unscaled integer enters as it is. -/
def scanSource (a : VReg) (e : VEntry) (c : Ctx) (j : Nat) : Val × FFlags :=
  if c.intReg a then c.srcVal e a j else scanElem a e c j

/-- What VSCAN.ADD, MAX and MIN leave of a state t, where their sources are those of the context c. -/
def scanState (m : ScanForm) (k : MReg) (d a : VReg) (cin : CarryIn) (cout : CarryOut) (e : VEntry) (c : Ctx) (t : State) :
    State :=
  let int := c.intReg a
  let ci := carryIn t e int a cin
  let r := scanOrder (if int then scanInt m else scanFloat m e.rm)
    (fun j => if c.active e k j then some (scanSource a e c j).1 else none) (ci.map (fun v => v.1)) (scanFronds c e)
  let v := r.1.getD (scanIdentity c a int m)
  let x := if int then t.carryOutWord v else (BitVec.ofNat 64 (f32Bits v), t)
  deliverCarry e cin cout int x.1 v
    ((x.2.writeResults d (c.regWidth d) 0x39 (scanOutputs c e k d int r.2.1)).raise 0x39
      ((orFlags ((c.actives e k).map (fun j => (scanSource a e c j).2))).or
        (((ci.map (fun v => v.2)).getD FFlags.none).or r.2.2)))

theorem scanPlain_checked (m : ScanForm) (hcheck : scanCheck ([d, a] ++ carryRegs cin cout) k e t.myCtx = none) (hp : t.Plain)
    (hr : t.CarriesReady cin cout) :
    scanPlain m k d a cin cout e t = .done (scanState m k d a cin cout e t.myCtx t) := by
  refine (vChecked_none _ _ _ hcheck).trans ?_
  rw [scanPure_plain hp, scanChannels_ready hr]
  rfl

theorem carryOutWord_viq (v : Val) : (t.carryOutWord v).2.myCtx.viq = t.myCtx.viq := by
  unfold State.carryOutWord
  split <;> rfl

theorem scanState_viq (m : ScanForm) (c : Ctx) : (scanState m k d a cin cout e c t).myCtx.viq = t.myCtx.viq := by
  unfold scanState
  rw [deliverCarry_viq, raise_viq, writeResults_viq]
  split
  · exact carryOutWord_viq _
  · rfl

/-- The completion of a scan that its checks and channels let through. -/
theorem entryGives_scan (m : ScanForm) {i : Instr} (hp : s.Plain) (hr : s.CarriesReady cin cout)
    (hex : exec i s = issueV i 8 (carryInOps cin) (carryOutRegs cout) (carryChannels cin cout) noCheck s)
    (hleg : carryChannels cin cout s = none)
    (heff : ∀ t, effectOf (s.entryOf i (carryInOps cin)) t = scanPlain m k d a cin cout (s.entryOf i (carryInOps cin)) t)
    (hcheck : scanCheck ([d, a] ++ carryRegs cin cout) k (s.entryOf i (carryInOps cin)) s.myCtx = none) :
    entryGives s i 8 (carryInOps cin) (carryOutRegs cout)
      (scanState m k d a cin cout (s.entryOf i (carryInOps cin)) s.myCtx) :=
  entryGives_of_channels (F := scanState m k d a cin cout (s.entryOf i (carryInOps cin)))
    (P := fun c => scanCheck ([d, a] ++ carryRegs cin cout) k (s.entryOf i (carryInOps cin)) c = none) hp hex hleg rfl
    (fun t ht h => (heff t).trans (scanPlain_checked m h ht.plain (hr.seen ht))) (fun _ _ => hcheck) (fun _ _ => rfl)
    (fun _ => scanState_viq m s.myCtx)

/-- What VSCAN.LIN leaves of a state t, where its sources are those of the context c (R83): the carry-in is the second
component of a pair whose first is 1, and the second component is the result. -/
def linState (k : MReg) (d a b : VReg) (cin : CarryIn) (cout : CarryOut) (e : VEntry) (c : Ctx) (t : State) : State :=
  let ci := carryIn t e false a cin
  let r := scanOrder scanLin (fun j => if c.active e k j then some ((scanElem a e c j).1, (scanElem b e c j).1) else none)
    (ci.map (fun v => (Val.fin false 1 1, v.1))) (scanFronds c e)
  let v := (r.1.map (·.2)).getD Val.zero
  deliverCarry e cin cout false (BitVec.ofNat 64 (f32Bits v)) v
    ((t.writeResults d (c.regWidth d) 0x39
      (scanOutputs c e k d false (r.2.1.map (fun o => (o.1, o.2.map (·.2)))))).raise 0x39
      ((orFlags ((c.actives e k).map (fun j => (scanElem a e c j).2.or (scanElem b e c j).2))).or
        (((ci.map (fun v => v.2)).getD FFlags.none).or r.2.2)))

theorem effVscanLin_checked (hcheck : scanCheck ([d, a, b] ++ carryRegs cin cout) k e t.myCtx = none)
    (ha : t.myCtx.intReg a = false) (hb : t.myCtx.intReg b = false) (hp : t.Plain) (hr : t.CarriesReady cin cout) :
    effVscanLin k d a b cin cout e t = .done (linState k d a b cin cout e t.myCtx t) := by
  unfold scanCheck at hcheck
  unfold effVscanLin
  simp only [hcheck, ha, hb, Bool.or_self, Bool.false_eq_true, if_false]
  rw [vChecked_none _ _ _ rfl, scanPure_plain hp, scanChannels_ready hr]
  rfl

theorem linState_viq (c : Ctx) : (linState k d a b cin cout e c t).myCtx.viq = t.myCtx.viq := by
  rw [linState, deliverCarry_viq, raise_viq, writeResults_viq]

theorem exec_vscanAdd : exec (.vscanAdd k d a cin cout) s =
    issueV (.vscanAdd k d a cin cout) 8 (carryInOps cin) (carryOutRegs cout) (carryChannels cin cout) noCheck s := rfl

theorem exec_vscanMax : exec (.vscanMax k d a cin cout) s =
    issueV (.vscanMax k d a cin cout) 8 (carryInOps cin) (carryOutRegs cout) (carryChannels cin cout) noCheck s := rfl

theorem exec_vscanMin : exec (.vscanMin k d a cin cout) s =
    issueV (.vscanMin k d a cin cout) 8 (carryInOps cin) (carryOutRegs cout) (carryChannels cin cout) noCheck s := rfl

theorem exec_vscanLin : exec (.vscanLin k d a b cin cout) s =
    issueV (.vscanLin k d a b cin cout) 8 (carryInOps cin) (carryOutRegs cout) (carryChannels cin cout) noCheck s := rfl

end scans

end Sys2Proof.Machine

namespace Sys2Proof

open Machine

/-- Settles O33: the checks passed and the channels of its carries ready, a scan acts by the registers as they stood at its
issue; an integer is its own truncation, so the word of its carry-out is never free. -/
theorem vectorScans : Obligations.VectorScans := by
  unfold Obligations.VectorScans
  refine ⟨fun s n => carryOutWord_ofInt n, fun s k d a b cin cout hp hleg hin hout => ?_⟩
  have hr : s.CarriesReady cin cout := ⟨hin, hout⟩
  intro c rs ls scan
  refine ⟨?add, ?max, ?min, ?lin⟩
  case add => exact entryGives_scan .add hp hr exec_vscanAdd hleg (fun _ => rfl)
  case max => exact entryGives_scan .max hp hr exec_vscanMax hleg (fun _ => rfl)
  case min => exact entryGives_scan .min hp hr exec_vscanMin hleg (fun _ => rfl)
  case lin =>
    intro e hcheck ha hb
    exact entryGives_of_channels (F := linState k d a b cin cout e)
      (P := fun c => scanCheck ls k e c = none ∧ c.intReg a = false ∧ c.intReg b = false) hp exec_vscanLin hleg rfl
      (fun t ht ⟨hcheck, ha, hb⟩ => effVscanLin_checked hcheck ha hb ht.plain (hr.seen ht))
      (fun _ _ => ⟨hcheck, ha, hb⟩) (fun _ _ => rfl) (fun _ => linState_viq s.myCtx)

end Sys2Proof
end

section
/-! SUPPORT. The sorus instructions: those that fill the points of a register, those that write vector elements, and the
images of DLD and DST (08_sorus R178–R192). -/

namespace Sys2Proof.Machine

section checks

/-- The checks of a sorus instruction without vector operands are those of ILL alone (R186). -/
theorem sorusCheck_nil (c : Ctx) (e : VEntry) :
    sorusCheck c e [] = if e.ill then some { cause := .illvtype } else none := by
  cases hill : e.ill <;> simp [sorusCheck, vecCheck, hill]

theorem sorusCheck_nil_legal (c : Ctx) {e : VEntry} (hill : e.ill = false) : sorusCheck c e [] = none := by
  rw [sorusCheck_nil, hill]
  rfl

theorem illTrap_eq_checked (c : Ctx) (e : VEntry) (t : State) (k : Res) :
    (if e.ill then .trap { cause := .illvtype } t else k) = vChecked (sorusCheck c e []) t k := by
  rw [sorusCheck_nil]
  cases e.ill <;> rfl

end checks

section fills

/-- What an instruction that writes all points of the first n elements of dd leaves of a state (R178, R180, R186). -/
def filledState (d : DReg) (n : Nat) (tag : BitVec 8) (f : Nat → List Point × FFlags) (t : State) : State :=
  (t.withMyCtx (((List.range n).foldl (fun c j => c.setPoints d j (f j).1) t.myCtx).setLtag d tag)).raise 0x3B
    (orFlags ((List.range n).map (fun j => (f j).2)))

theorem sorusWrite_range (d : DReg) (n : Nat) (tag : BitVec 8) (f : Nat → List Point × FFlags) (t : State) :
    sorusWrite d tag ((List.range n).map (fun j => (j, f j))) t = .done (filledState d n tag f t) := by
  rw [sorusWrite, List.foldl_map, List.map_map]
  rfl

/-- A lineage tag is no part of the queue. -/
theorem setLtag_viq (c : Ctx) (d : DReg) (tag : BitVec 8) : (c.setLtag d tag).viq = c.viq := rfl

/-- Points are no part of the queue. -/
theorem setPoints_viq (c : Ctx) (d : DReg) (j : Nat) (ps : List Point) : (c.setPoints d j ps).viq = c.viq :=
  foldl_keeps Ctx.viq (fun c (p : Nat × Point) => Ctx.setPoint c d j p.1 p.2) (fun _ _ => rfl) _ c

theorem filledState_viq (d : DReg) (n : Nat) (tag : BitVec 8) (f : Nat → List Point × FFlags) (t : State) :
    (filledState d n tag f t).myCtx.viq = t.myCtx.viq := by
  rw [filledState, raise_viq, State.myCtx_withMyCtx, setLtag_viq]
  exact foldl_keeps Ctx.viq (fun c j => Ctx.setPoints c d j (f j).1) (fun c j => setPoints_viq c d j _) _ t.myCtx

variable {s : State} {i : Instr} {reads : List SReg} {rs : List VReg} {d a b : DReg}

/-- The completion of an instruction that fills dd, by its checks, with points and a tag that are those of the context at its
issue (R186). -/
theorem entryGives_fills {tag : Ctx → BitVec 8} {f : VEntry → Ctx → Nat → List Point × FFlags}
    (hex : exec i s = issueV i 4 reads [] noCheck noCheck s)
    (heff : ∀ t, effectOf (s.entryOf i reads) t = vChecked (sorusCheck t.myCtx (s.entryOf i reads) rs) t
      (sorusWrite d (tag t.myCtx)
        ((List.range (sorusN (s.entryOf i reads))).map (fun j => (j, f (s.entryOf i reads) t.myCtx j))) t))
    (hdata : ∀ e q h, tag { s.myCtx with viq := q, ch := h } = tag s.myCtx ∧
      f e { s.myCtx with viq := q, ch := h } = f e s.myCtx)
    (hcheck : sorusCheck s.myCtx (s.entryOf i reads) rs = none) :
    entryGives s i 4 reads [] (filledState d (min s.myCtx.vl 128) (tag s.myCtx) (f (s.entryOf i reads) s.myCtx)) := by
  refine entryGives_checked (chk := fun e c => sorusCheck c e rs) (F := fun e c => filledState d (sorusN e) (tag c) (f e c))
    hex (fun t => ?_) (fun e q h => ⟨rfl, ?_⟩) (fun e t => filledState_viq ..) hcheck
  · rw [heff, sorusWrite_range]
  · rw [(hdata e q h).1, (hdata e q h).2]

/-- The tag of a binary pairing (R180). -/
def pairTag (a b : DReg) (c : Ctx) : BitVec 8 := c.ltag a ||| c.ltag b

/-- Element j of a binary pairing, by f of two values (R183, R187). -/
def pairPoints (f : Val → Val → Val × FFlags) (a b : DReg) (c : Ctx) (j : Nat) : List Point × FFlags :=
  pair2 f (linked (c.ltag a) (c.ltag b)) (c.points a j) (c.points b j)

/-- The tag of DFMA (R180). -/
def fusedTag (d a b : DReg) (c : Ctx) : BitVec 8 := (c.ltag a ||| c.ltag b) ||| c.ltag d

/-- Element j of DFMA (R183, R187). -/
def fusedPoints (d a b : DReg) (c : Ctx) (j : Nat) : List Point × FFlags :=
  pair3 (fun x y z => rne (Val.fma .rne x y z)) (linked (c.ltag a) (c.ltag b)) (linked (c.ltag a) (c.ltag d))
    (linked (c.ltag b) (c.ltag d)) (c.points a j) (c.points b j) (c.points d j)

/-- Element j of DAFF, by its two coefficients (R188). -/
def affinePoints (a : DReg) (α β : Ctx → Nat → Val × FFlags) (c : Ctx) (j : Nat) : List Point × FFlags :=
  let r := sortedPoints ((c.points a j).map (fun q =>
    let y := rne (Val.fma .rne (α c j).1 q.v (β c j).1)
    (({ v := y.1, w := q.w } : Point), y.2)))
  (r.1, ((α c j).2.or (β c j).2).or r.2)

/-- Element j of DPT: eight equal points (R189). -/
def equalPoints (v : VReg) (c : Ctx) (j : Nat) : List Point × FFlags :=
  (List.replicate 8 { v := (sorusElem c v j).1, w := .fin false 1 8 }, (sorusElem c v j).2)

/-- A coefficient of DAFF in a scalar register (R188). -/
def scalarCoef (x : Word) (_ : Ctx) (_ : Nat) : Val × FFlags := (f32Val (x.toNat % 2 ^ 32), .none)

theorem entryGives_pairing (f : Val → Val → Val × FFlags) (hex : exec i s = issueV i 4 [] [] noCheck noCheck s)
    (heff : ∀ t, effectOf (s.entryOf i []) t = sorusBinary f d a b (s.entryOf i []) t)
    (hill : bit s.myCtx.vtype 10 = false) :
    entryGives s i 4 [] [] (filledState d (min s.myCtx.vl 128) (pairTag a b s.myCtx) (pairPoints f a b s.myCtx)) := by
  refine entryGives_fills (rs := []) (tag := pairTag a b) (f := fun _ => pairPoints f a b) hex (fun t => ?_)
    (fun _ _ _ => ⟨rfl, rfl⟩) (sorusCheck_nil_legal _ hill)
  rw [heff, sorusBinary]
  exact illTrap_eq_checked ..

theorem entryGives_dfma (hill : bit s.myCtx.vtype 10 = false) : entryGives s (.dfma d a b) 4 [] []
    (filledState d (min s.myCtx.vl 128) (fusedTag d a b s.myCtx) (fusedPoints d a b s.myCtx)) := by
  refine entryGives_fills (rs := []) (tag := fusedTag d a b) (f := fun _ => fusedPoints d a b) rfl (fun t => ?_)
    (fun _ _ _ => ⟨rfl, rfl⟩) (sorusCheck_nil_legal _ hill)
  show effDfma d a b _ t = _
  rw [effDfma]
  exact illTrap_eq_checked ..

end fills

section points

variable (d : DReg) (v : VReg) (u : BitVec 5)

/-- The point that DSET writes to element j, and its flags (R189). -/
def givenPoint (c : Ctx) (j : Nat) : Point × FFlags :=
  let q := setWeight (sorusElem c (v + 1) j).1
  ({ v := (sorusElem c v j).1, w := q.1 }, ((sorusElem c v j).2.or (sorusElem c (v + 1) j).2).or q.2)

/-- What DSET leaves of a state, with its points from the context c (R189). -/
def givenState (n : Nat) (c : Ctx) (t : State) : State :=
  (t.withMyCtx ((List.range n).foldl (fun c' j => c'.setPoint d j u.toNat (givenPoint v c j).1) t.myCtx)).raise 0x3B
    (orFlags ((List.range n).map (fun j => (givenPoint v c j).2)))

theorem effDset_eq (e : VEntry) (t : State) : effDset d v u e t =
    vChecked (sorusCheck t.myCtx e [v, v + 1]) t (.done (givenState d v u (sorusN e) t.myCtx t)) := by
  simp only [effDset, List.foldl_map, List.map_map]
  rfl

theorem givenState_viq (n : Nat) (c : Ctx) (t : State) : (givenState d v u n c t).myCtx.viq = t.myCtx.viq := by
  rw [givenState, raise_viq, State.myCtx_withMyCtx]
  exact foldl_keeps Ctx.viq (fun c' j => Ctx.setPoint c' d j u.toNat (givenPoint v c j).1) (fun _ _ => rfl) _ t.myCtx

end points

section extractions

variable {s : State} {i : Instr} {rs : List VReg} {d : VReg}

/-- The results of an extraction, whose element j is f of the context (R186). -/
def extractions (d : VReg) (f : Ctx → Nat → Val × FFlags) (e : VEntry) (c : Ctx) : List (Nat × Nat × FFlags) :=
  (List.range (sorusN e)).map (fun j => (j, e.toDest (c.regType d) false (f c j)))

theorem entryGives_extraction (f : Ctx → Nat → Val × FFlags) (hex : exec i s = issueV i 4 [] [] noCheck noCheck s)
    (heff : ∀ t, effectOf (s.entryOf i []) t = vChecked (sorusCheck t.myCtx (s.entryOf i []) rs) t
      (.done (sorusOut d (f t.myCtx) (s.entryOf i []) t)))
    (hdata : ∀ q h, f { s.myCtx with viq := q, ch := h } = f s.myCtx)
    (hcheck : sorusCheck s.myCtx (s.entryOf i []) rs = none) :
    entryGives s i 4 [] [] (fun t => t.writeResults d (s.myCtx.regWidth d) 0x3B (extractions d f (s.entryOf i []) s.myCtx)) :=
  entryGives_results (chk := fun e c => sorusCheck c e rs) (R := extractions d f) hex heff
    (fun e q h => ⟨rfl, by rw [extractions, hdata]; rfl⟩) hcheck

/-- The write of results leaves the types of registers. -/
theorem writeResults_regType (t : State) (w : Nat) (maj : BitVec 6) (xs : List (Nat × Nat × FFlags)) (r : VReg) :
    (t.writeResults d w maj xs).myCtx.regType r = t.myCtx.regType r := by
  rw [writeResults_myCtx]
  cases t.cur.kind <;> rfl

/-- The value of point p of element j (R189). -/
def pointValue (a : DReg) (p : Nat) (c : Ctx) (j : Nat) : Val × FFlags := ((c.point a j p).v, .none)

/-- The weight of point p of element j (R189). -/
def pointWeight (a : DReg) (p : Nat) (c : Ctx) (j : Nat) : Val × FFlags := ((c.point a j p).w, .none)

/-- Element j of DQNT (R191). -/
def quantileOf (a : DReg) (u : VReg) (c : Ctx) (j : Nat) : Val × FFlags :=
  let r := quantile (sorusElem c u j).1 (c.points a j)
  (r.1, (sorusElem c u j).2.or r.2)

/-- Element j of DCDF (R191). -/
def cdfOf (a : DReg) (u : VReg) (c : Ctx) (j : Nat) : Val × FFlags :=
  let r := cdf (sorusElem c u j).1 (c.points a j)
  (r.1, (sorusElem c u j).2.or r.2)

/-- What DGET leaves of a state: its second register is written in the types of the context at the issue. -/
def gotState (d : VReg) (a : DReg) (p : Nat) (e : VEntry) (c : Ctx) (t : State) : State :=
  (t.writeResults d (c.regWidth d) 0x3B (extractions d (pointValue a p) e c)).writeResults (d + 1) (c.regWidth (d + 1)) 0x3B
    (extractions (d + 1) (pointWeight a p) e c)

theorem effDget_eq (a : DReg) (b : BitVec 5) (e : VEntry) (t : State) : effDget d a b e t =
    vChecked (sorusCheck t.myCtx e [d, d + 1]) t (.done (gotState d a b.toNat e t.myCtx t)) := by
  simp only [effDget, sorusOut, Ctx.regWidth, writeResults_regType]
  rfl

end extractions

section images

variable {d : DReg} {e : VEntry} {t : State}

/-- Outside a pure task an image is accessed as it is (17_reuse R395). -/
theorem pureImage_plain (h : t.Plain) (write : Bool) (a n : Nat) (k : State → Res) : pureImage write a n k t = k t := by
  rw [pureImage, show t.me.checkedBy = none from h]

/-- What DLD leaves of a state, over the sorus registers of the context c (R192). -/
def imageLoaded (d : DReg) (bs : List Byte) (c : Ctx) (t : State) : State :=
  t.withMyCtx (({ t.myCtx with
    sorus := ssetList 0 c.sorus (d.toNat * 2048) ((List.range 2048).map (fun j =>
      BitVec.ofNat 32 (natOfBytes ((bs.drop (64 + 4 * j)).take 4)))) }).setLtag d (bs.getD 0 0))

theorem imageLoaded_viq (bs : List Byte) (c : Ctx) (t : State) : (imageLoaded d bs c t).myCtx.viq = t.myCtx.viq := by
  rw [imageLoaded, State.myCtx_withMyCtx, setLtag_viq]

theorem effDld_reads {bs : List Byte} (hp : t.Plain) (hill : e.ill = false) (hbs : t.loadImage (e.op 0).toNat 8256 = .ok bs) :
    effDld d e t = .done (imageLoaded d bs t.myCtx t) := by
  rw [effDld, hill]
  simp only [Bool.false_eq_true, if_false]
  rw [pureImage_plain hp, sorusImageLen, hbs]
  rfl

theorem effDst_writes {u : State} (hp : t.Plain) (hill : e.ill = false)
    (hu : t.storeImage (e.op 0).toNat (sorusImage t.myCtx d) = .ok u) : effDst d e t = .done u := by
  rw [effDst, hill]
  simp only [Bool.false_eq_true, if_false]
  rw [pureImage_plain hp, hu]
  rfl

end images

end Sys2Proof.Machine

namespace Sys2Proof

open Machine

/-- Settles O40: the checks passed, each instruction acts by the sorus registers, the tags and the elements of the context at
its issue; DLD and DST are one access of an image. -/
theorem sorusInstructions : Obligations.SorusInstructions := by
  unfold Obligations.SorusInstructions
  intro s d a b v u p hill c N fill two out ok
  refine ⟨entryGives_pairing (fun x y => rne (x.add .rne y)) rfl (fun _ => rfl) hill,
    entryGives_pairing (fun x y => rne (x.add .rne y.negate)) rfl (fun _ => rfl) hill,
    entryGives_pairing (fun x y => rne (x.mul y)) rfl (fun _ => rfl) hill,
    entryGives_pairing (Val.pick false) rfl (fun _ => rfl) hill,
    entryGives_pairing (Val.pick true) rfl (fun _ => rfl) hill,
    entryGives_dfma hill, ⟨fun hcheck => ?affine, ?affineScalar⟩, fun hcheck => ?equal, fun hcheck => ?given,
    fun hcheck => ?got, ?tag, ?moment, ?quantile, ?cdf, fun hp => ⟨fun bs hbs => ?load, fun u' hu hviq => ?store⟩⟩
  case affine =>
    exact entryGives_fills (tag := fun c => c.ltag a)
      (f := fun _ => affinePoints a (fun c => sorusElem c v) (fun c => sorusElem c (v + 1))) rfl (fun _ => rfl)
      (fun _ _ _ => ⟨rfl, rfl⟩) hcheck
  case affineScalar =>
    exact entryGives_fills (rs := []) (tag := fun c => c.ltag a)
      (f := fun _ => affinePoints a (scalarCoef (s.readS p)) (scalarCoef (s.readS (p + 1)))) rfl (fun _ => rfl)
      (fun _ _ _ => ⟨rfl, rfl⟩) (sorusCheck_nil_legal _ hill)
  case equal =>
    exact entryGives_fills (tag := fun _ => 0) (f := fun _ => equalPoints v) rfl (fun _ => rfl)
      (fun _ _ _ => ⟨rfl, rfl⟩) hcheck
  case given =>
    exact entryGives_checked (chk := fun e c => sorusCheck c e [v, v + 1]) (F := fun e => givenState d v u (sorusN e)) rfl
      (effDset_eq d v u _) (fun _ _ _ => ⟨rfl, rfl⟩) (fun _ _ => givenState_viq ..) hcheck
  case got =>
    exact entryGives_checked (chk := fun e c => sorusCheck c e [v, v + 1]) (F := gotState v a u.toNat) rfl
      (effDget_eq a u _) (fun _ _ _ => ⟨rfl, rfl⟩) (fun _ _ => (writeResults_viq ..).trans (writeResults_viq ..)) hcheck
  case tag =>
    exact entryGives_of_data (early := noCheck) (late := noCheck) (P := fun _ => True)
      (F := fun _ t => t.withMyCtx (t.myCtx.setLtag d ((s.readS p).setWidth 8))) rfl rfl rfl (fun _ _ => rfl)
      (fun _ _ => trivial) (fun _ _ => rfl) (fun _ => by rw [State.myCtx_withMyCtx, setLtag_viq])
  case moment =>
    exact entryGives_extraction (fun c j => moment u.toNat (c.points a j)) rfl (fun _ => rfl) (fun _ _ => rfl)
  case quantile => exact entryGives_extraction (quantileOf a u) rfl (fun _ => rfl) (fun _ _ => rfl)
  case cdf => exact entryGives_extraction (cdfOf a u) rfl (fun _ => rfl) (fun _ _ => rfl)
  case load =>
    refine entryGives_of s _ 4 [p] [] noCheck noCheck (imageLoaded d bs c) rfl rfl rfl (fun hready => ?_) ?_
    · obtain ⟨h, hctx⟩ := issued_myCtx s (.dld d p) 4 [p] [] hready.1
      have heff := effDld_reads (d := d) (e := s.entryOf (.dld d p) [p]) (plain_issued [] hp) hill hbs
      rw [hctx] at heff
      exact heff
    · exact imageLoaded_viq bs c _
  case store =>
    refine entryGives_of s _ 4 [p] [] noCheck noCheck _ rfl rfl rfl (fun hready => ?_) hviq
    obtain ⟨h, hctx⟩ := issued_myCtx s (.dst d p) 4 [p] [] hready.1
    refine effDst_writes (d := d) (e := s.entryOf (.dst d p) [p]) (plain_issued [] hp) hill ?_
    rw [hctx]
    exact hu

end Sys2Proof
end

section
/-! SUPPORT. TURN: its range check, a walk that nothing cuts short, what the walk does to one granule copy, and the read check
(09_page R211, R213, R214, R218). -/

namespace Sys2Proof.Machine

section range

variable {x n : Nat}

/-- A region that TURN and TWAIT take (R218, R223). -/
theorem regionFault_none (hn : n < 2 ^ 40) (hx : x + n ≤ 2 ^ 57) : regionFault x n = none :=
  if_neg fun h => h.elim (Nat.not_le.2 hn) (Nat.not_lt.2 hx)

theorem regionFault_some (h : 2 ^ 40 ≤ n ∨ 2 ^ 57 < x + n) : regionFault x n = some (pageFault 0 2 x) := if_pos h

/-- A walk that no interruption stops reaches the end of its region (R221). -/
theorem turnWalk_reaches_end (w : Who) (L : Level) (lo k g : Nat) (p : State × Nat) :
    (turnWalk w L lo none k g p).2.2 = none := by
  induction k generalizing g p with
  | zero => rfl
  | succ k ih =>
    rw [turnWalk, if_neg (by rw [Option.any_none]; exact fun h => Bool.noConfusion h.2.2)]
    exact ih _ _

end range

section turn

variable {s : State} {lvl : BitVec 3} {d a b : SReg} (h : s.Ready [a, b] [d])
include h

theorem execTurn_empty (hn : (s.readS b).toNat = 0) :
    execTurn lvl d a b s = .next ((s.reading [a, b]).retire 4 d 0) := by
  refine scalar_done _ _ _ _ _ h ?_
  simp only [State.readS_reading, if_pos hn]

theorem execTurn_range (hq : s.Quiet) (hn : (s.readS b).toNat ≠ 0)
    (hr : 2 ^ 40 ≤ (s.readS b).toNat ∨ 2 ^ 57 < (s.readS a).toNat + (s.readS b).toNat) :
    execTurn lvl d a b s = .next (s.here.scalarTrap (pageFault 0 2 (s.readS a).toNat)) := by
  refine scalar_trap h hq ?_
  simp only [State.readS_reading, if_neg hn, regionFault_some hr]

/-- TURN over a region that it may raise at once, with no interruption coming: the walk, the strips dropped, the status word. -/
theorem execTurn_walks (hq : s.Quiet) (ho : s.outstanding = false) (hn : (s.readS b).toNat ≠ 0)
    (hr : regionFault (s.readS a).toNat (s.readS b).toNat = none) (hnone : s.turnIntr = none) {lo hi : Nat}
    (hlo : alignDown (s.readS a).toNat 64 = lo) (hhi : alignUp ((s.readS a).toNat + (s.readS b).toNat) 64 = hi)
    {t : State} (ht : s.reading [a, b] = t) (hs : t.turnStalls (t.who s.cur) lo (hi - lo) = false) {r : State × Nat × Option Nat}
    (hw : turnWalk (t.who s.cur) (levelOfCode lvl.toNat) lo none ((hi - lo) / 64) lo (t, 0) = r) :
    execTurn lvl d a b s = .next
      ((r.1.dropStrips ((levelOfCode lvl.toNat).reaches (t.who s.cur).core) (t.rangeKeys (t.who s.cur) true lo (hi - lo))).retire 4 d
        (turnStatus false r.2.1 (s.readS b).toNat)) := by
  have hend : r.2.2 = none := hw ▸ turnWalk_reaches_end ..
  refine scalar_done _ _ _ _ _ h ?_
  have hti : t.turnIntr = none := ht ▸ hnone
  have hcur : t.cur = s.cur := ht ▸ rfl
  have hout : t.outstanding = false := ht ▸ ho
  have hquiet : t.Quiet := ht ▸ s.quiet_reading [a, b] hq
  simp only [State.readS_reading, if_neg hn, hr]
  rw [ht, afterWrites_done _ _ hout, afterViq_quiet _ _ hquiet]
  simp only [hlo, hhi, hti, hcur, hs, hw, hend, Option.getD_none, Bool.false_eq_true, if_false]

end turn

section copy

variable {s : State} {core key f : Nat} {L : Level} {g : Gran} (h : tget s.gran key = some g)
include h

/-- A copy that another core wrote is foreign, and stays (R218). -/
theorem turnCopy_foreign (hw : g.writer ≠ core) : turnCopy core L (s, f) key = (s, f + 1) := by
  simp only [turnCopy, h, if_pos hw]

/-- A copy of the core's own rises to the level; at HOST it is CLEAN (R213, R218). -/
theorem turnCopy_raises (hw : g.writer = core) (hl : g.level.rank < L.rank) : turnCopy core L (s, f) key =
    ({ s with gran := if L = .host then tdel s.gran key else tput s.gran key { g with level := L } }, f) := by
  simp only [turnCopy, h, if_neg (not_not.2 hw), if_pos hl]

/-- A copy of the core's own never falls (R213). -/
theorem turnCopy_stays (hw : g.writer = core) (hl : L.rank ≤ g.level.rank) : turnCopy core L (s, f) key = (s, f) := by
  simp only [turnCopy, h, if_neg (not_not.2 hw), if_neg (Nat.not_lt.2 hl)]

/-- A reader farther away than the level fails its check (R214). -/
theorem readCheck_listed :
    s.readCheck core key = if g.level.rank < (distance g.writer core).rank then some g else none := by
  simp only [State.readCheck, h]
  split
  next hle => rw [if_neg (Nat.not_lt.2 hle)]
  next hgt => rw [if_pos (Nat.not_le.1 hgt)]

end copy

theorem readCheck_clean {s : State} {core key : Nat} (h : tget s.gran key = none) : s.readCheck core key = none := by
  simp only [State.readCheck, h]

end Sys2Proof.Machine

namespace Sys2Proof

open Machine

/-- Settles O25: the range of a TURN decides whether it writes 0, traps or walks, and the rank of a granule copy what the walk does
to it. -/
theorem turn : Obligations.Turn := by
  unfold Obligations.Turn
  refine ⟨fun s lvl d a b h hq ho => ⟨execTurn_empty h, fun hn hlen hend hs hi => ?walks, fun hn hr => ?faults⟩,
    fun s core key L f g hg => ⟨turnCopy_foreign hg, ?clean, ?raises, turnCopy_stays hg⟩, fun s core key => readCheck_clean,
    fun s core key g => readCheck_listed⟩
  case walks =>
    have hst := execTurn_walks (lvl := lvl) h hq ho (Nat.pos_iff_ne_zero.1 hn) (regionFault_none hlen hend) hi rfl rfl rfl hs rfl
    rw [turnStatus, if_neg Bool.false_ne_true, Nat.zero_add] at hst
    exact hst
  case faults =>
    refine ⟨_, rfl, rfl, ?_, execTurn_range h hq (Nat.pos_iff_ne_zero.1 hn) hr⟩
    exact BitVec.ofNat_toNat 64 (s.readS a)
  case clean =>
    intro hw hL hl
    subst hL
    rw [turnCopy_raises (L := .host) hg hw hl, if_pos rfl]
  case raises =>
    intro hw hL hl
    rw [turnCopy_raises hg hw hl, if_neg hL]

end Sys2Proof
end

section
/-! SUPPORT. TWAIT: its range, what it waits for, its answer, and its end by TIMEOUT (09_page R223, R224). -/

namespace Sys2Proof.Machine

/-- A TWAIT that begins, past its faults and the entries that come before it (R223). -/
def twaitChecked (d : SReg) (x n : Nat) (timeout : BitVec 32) (s : State) : Res :=
  if s.unreadyBehind (s.who s.cur) x n then .wait false s
  else if s.unready (s.who s.cur) x n = 0 ∨ timeout = 0 then
    .done ((s.withMe { s.me with twait := none }).retire 8 d (BitVec.ofNat 64 (s.unready (s.who s.cur) x n)))
  else .wait true (s.withMe { s.me with
    twait := some { d := d, start := x, len := n, timeout := timeout.toNat, since := s.hb } })

/-- Two instructions that act alike on ready registers. -/
theorem scalar_congr {s : State} {reads writes : List SReg} {k k' : State → Res} (h : s.Ready reads writes)
    (hk : k (s.reading reads) = k' (s.reading reads)) : scalar reads writes k s = scalar reads writes k' s := by
  rw [scalar_ready _ _ _ _ h, scalar_ready _ _ _ _ h, hk]

/-- The moving hart after an instruction that waits: the reads are undone, and what the instruction left of the hart stands. -/
theorem scalar_wait_me {s u : State} {reads writes : List SReg} {k : State → Res} {y : Bool} (h : s.Ready reads writes)
    (hk : k (s.reading reads) = .wait y u) (hc : u.cur = s.cur) :
    ∃ v, scalar reads writes k s = .next v ∧ v.me = { u.me with unread := s.me.unread, yielding := y } := by
  refine ⟨_, scalar_wait _ _ _ _ _ _ h hk, (State.me_waitHere _ _).trans ?_⟩
  rw [← hc, show ∀ g : Hart, (u.withHart u.cur g).me = g from State.me_withMe u]
  rfl

section twait

variable {s : State} {d a b : SReg} {timeout : BitVec 32} (h : s.Ready [a, b] [d])
include h

theorem execTwait_empty (hn : (s.readS b).toNat = 0) :
    execTwait d a b timeout s = .next ((s.reading [a, b]).retire 8 d 0) := by
  refine scalar_done _ _ _ _ _ h ?_
  simp only [State.readS_reading, if_pos hn]

variable {x n : Nat} (hx : (s.readS a).toNat = x) (hlen : (s.readS b).toNat = n) (hn : 0 < n) (hr : regionFault x n = none)
include hx hlen hn hr

/-- The checks of TWAIT are reads: they come after the entries of the queue that access memory or a window (11_ordering R254). -/
theorem execTwait_queued (hk : s.cur.kind = .ch) (hv : s.myCtx.viq.any (entryMem s.myCtx) = true) :
    execTwait d a b timeout s = .next (s.waitHere false) := by
  refine scalar_wait_same _ _ _ _ _ h ?_
  have hmem : entryMem (s.reading [a, b]).myCtx = entryMem s.myCtx := by
    funext e
    simp only [entryMem, boundSources, State.reading, State.myCtx_withMe, Ctx.withHart_streams]
  have hviq : (s.reading [a, b]).myCtx.viq = s.myCtx.viq := by
    simp only [State.reading, State.myCtx_withMe, Ctx.withHart_viq]
  simp only [State.readS_reading, hx, hlen, if_neg (Nat.pos_iff_ne_zero.1 hn), hr, afterViq, State.cur_reading, hk, hviq, hmem,
    hv, and_self, if_true]

variable (hq : s.Quiet) (hw : s.me.twait = none)
  (hf : (s.reading [a, b]).twaitFault ((s.reading [a, b]).who s.cur) x n = none)
include hq hw hf

theorem execTwait_checked : execTwait d a b timeout s = scalar [a, b] [d] (twaitChecked d x n timeout) s := by
  refine scalar_congr h ?_
  have hme : (s.reading [a, b]).me.twait = none := by rw [State.me_reading]; exact hw
  simp only [State.readS_reading, hx, hlen, if_neg (Nat.pos_iff_ne_zero.1 hn), hr]
  rw [afterViq_quiet _ _ (s.quiet_reading [a, b] hq)]
  simp only [hme, Option.isSome_none, Bool.false_eq_true, if_false, State.cur_reading, hf, Option.map_none, Option.getD_none,
    twaitChecked]
  rfl

variable {t : State} (ht : s.reading [a, b] = t)
include ht

/-- What multicasts of its core have not brought yet holds a TWAIT up (18_link R423). -/
theorem execTwait_behind (hb : t.unreadyBehind (t.who s.cur) x n = true) :
    execTwait d a b timeout s = .next (s.waitHere false) := by
  subst ht
  rw [execTwait_checked h hx hlen hn hr hq hw hf]
  exact scalar_wait_same _ _ _ _ _ h (if_pos hb)

theorem execTwait_answers (hb : t.unreadyBehind (t.who s.cur) x n = false)
    (hu : t.unready (t.who s.cur) x n = 0 ∨ timeout = 0) : execTwait d a b timeout s = .next
      ((t.withMe { t.me with twait := none }).retire 8 d (BitVec.ofNat 64 (t.unready (t.who s.cur) x n))) := by
  subst ht
  rw [execTwait_checked h hx hlen hn hr hq hw hf]
  exact scalar_done _ _ _ _ _ h ((if_neg (Bool.eq_false_iff.1 hb)).trans (if_pos hu))

/-- A TWAIT that cannot answer waits at its PC, and keeps what it waits for and since when. -/
theorem execTwait_waits (hb : t.unreadyBehind (t.who s.cur) x n = false)
    (hu : ¬ (t.unready (t.who s.cur) x n = 0 ∨ timeout = 0)) : ∃ v, execTwait d a b timeout s = .next v ∧
      v.me = { s.me with yielding := true,
                         twait := some { d := d, start := x, len := n, timeout := timeout.toNat, since := s.hb } } := by
  subst ht
  rw [execTwait_checked h hx hlen hn hr hq hw hf]
  obtain ⟨v, hv, hme⟩ := scalar_wait_me (k := twaitChecked d x n timeout) h
    ((if_neg (Bool.eq_false_iff.1 hb)).trans (if_neg hu)) rfl
  refine ⟨v, hv, ?_⟩
  rw [hme, State.me_withMe, State.me_reading]
  rfl

end twait

/-- The end of a TWAIT whose TIMEOUT has passed (R223). -/
theorem execTwaitTimeout_ends {s : State} {w : TWait} {r : HartRef} (hr : { cid := s.evArg.a, kind := s.evArg.h } = r)
    (hw : (s.hart r).twait = some w) (hdue : w.timeout ≤ 64 * (s.hb - w.since).toNat + 63)
    (hb : s.unreadyBehind (s.who r) w.start w.len = false) :
    execTwaitTimeout s = .next (s.withHart r { ((s.hart r).writeS w.d
      (BitVec.ofNat 64 (s.unready (s.who r) w.start w.len))) with
        twait := none, pc := (s.hart r).pc + 8, yielding := false }) := by
  have hd : s.twaitDue w = true := decide_eq_true hdue
  simp only [execTwaitTimeout, hr, hw, hd, hb, Bool.not_true, Bool.false_eq_true, or_self, if_false]

end Sys2Proof.Machine

namespace Sys2Proof

open Machine

/-- Settles O26: past its faults a TWAIT waits for what multicasts bring, answers the count, or waits for it; TIMEOUT ends the wait
with the count that then stands. -/
theorem turnWait : Obligations.TurnWait := by
  unfold Obligations.TurnWait
  refine ⟨fun s d a b timeout h => ⟨execTwait_empty h, fun hn hlen hend hk hv => ?queued, fun hn hlen hend hq hw hf => ?begun⟩,
    fun s w hw hdue hb => execTwaitTimeout_ends rfl hw hdue hb⟩
  case queued => exact execTwait_queued h rfl rfl hn (regionFault_none hlen hend) hk hv
  case begun =>
    have hr := regionFault_none hlen hend
    refine ⟨execTwait_behind h rfl rfl hn hr hq hw hf rfl, execTwait_answers h rfl rfl hn hr hq hw hf rfl, fun hb hu ht => ?_⟩
    obtain ⟨v, hv, hme⟩ := execTwait_waits h rfl rfl hn hr hq hw hf rfl hb (not_or.2 ⟨hu, ht⟩)
    exact ⟨v, hv, by rw [hme], by rw [hme], by rw [hme]⟩

end Sys2Proof
end

section
/-! SUPPORT. What a migration moves: the bytes of a page, the marks of its errors and its write generation (09_page R204; 20_system
R454, R458). -/

namespace Sys2Proof.Machine

theorem sget_unlisted {α : Type} (d : α) {m : Sparse α} {j : Nat} (h : ∀ e ∈ m, e.1 ≠ j) : sget d m j = d := by
  induction m with
  | nil => rfl
  | cons e r ih =>
    obtain ⟨k, v⟩ := e
    rw [sget, if_neg (Ne.symm (h _ List.mem_cons_self)), ih fun e he => h e (List.mem_cons_of_mem _ he)]

theorem sget_sclear_inside {α : Type} (d : α) (m : Sparse α) {lo hi j : Nat} (hlo : lo ≤ j) (hhi : j < hi) :
    sget d (sclear m lo hi) j = d := by
  refine sget_unlisted d fun e he hj => ?_
  have hk := (List.mem_filter.1 he).2
  simp only [Bool.or_eq_true, decide_eq_true_eq] at hk
  omega

section sparse

variable {α : Type} [DecidableEq α] (d : α)

/-- A canonical list written over clear keys, moved from one base to another, reads there as it read. -/
theorem sget_foldl_moved {lo dst i : Nat} {l acc : Sparse α} (hl : swf d l = true) (hbase : ∀ e ∈ l, lo ≤ e.1)
    (hacc : swf d acc = true) (hclear : sget d acc (dst + i) = d) :
    sget d (l.foldl (fun m e => sset d m (dst + (e.1 - lo)) e.2) acc) (dst + i) = sget d l (lo + i) := by
  induction l generalizing acc with
  | nil => exact hclear
  | cons e r ih =>
    obtain ⟨k, v⟩ := e
    obtain ⟨-, hbelow, hr⟩ := (swf_cons d k v r).1 hl
    have hk := hbase _ List.mem_cons_self
    have hrest := fun e he => hbase e (List.mem_cons_of_mem _ he)
    rw [List.foldl_cons, sget]
    by_cases hi : lo + i = k
    · rw [if_pos hi, sget_foldl_other, show dst + (k - lo) = dst + i by omega, sget_sset_same _ _ _ _ hacc]
      intro m e he
      have := hbelow e he
      exact sget_sset_other _ _ _ _ _ (by omega)
    · rw [if_neg hi]
      refine ih hr hrest (swf_sset _ _ _ _ hacc) ?_
      rw [sget_sset_other _ _ _ _ _ (by omega)]
      exact hclear

/-- Whole rows of one value, written over a canonical list: the keys of the rows read the value, the others as before. -/
theorem sget_foldl_rows {dst i len : Nat} (hlen : 0 < len) (v : α) (row : Nat → Nat) (l : List Nat) {acc : Sparse α}
    (hacc : swf d acc = true) :
    sget d (l.foldl (fun m h => ssetList d m (dst + len * row h) (List.replicate len v)) acc) (dst + i) =
      if ∃ h ∈ l, row h = i / len then v else sget d acc (dst + i) := by
  induction l generalizing acc with
  | nil => simp
  | cons h l ih =>
    rw [List.foldl_cons, ih (swf_ssetList _ _ _ _ hacc)]
    by_cases hl : ∃ h ∈ l, row h = i / len
    · obtain ⟨k, hk, hrow⟩ := hl
      rw [if_pos ⟨k, hk, hrow⟩, if_pos ⟨k, List.mem_cons_of_mem _ hk, hrow⟩]
    · rw [if_neg hl]
      have hdiv := Nat.div_add_mod i len
      have hmod := Nat.mod_lt i hlen
      by_cases hh : row h = i / len
      · rw [if_pos ⟨h, List.mem_cons_self, hh⟩, hh, show dst + i = dst + len * (i / len) + i % len by omega,
          sget_ssetList_same _ _ _ _ _ (fun m j x => sget_sset_same d m j x) hacc (by rwa [List.length_replicate]),
          List.getElem_replicate]
      · rw [if_neg (by simpa [hh] using hl), sget_ssetList_other]
        rw [List.length_replicate]
        rcases Nat.lt_or_gt_of_ne hh with hlt | hgt
        · have := Nat.mul_le_mul_left len hlt
          rw [Nat.mul_succ] at this
          omega
        · have := Nat.mul_le_mul_left len hgt
          rw [Nat.mul_succ] at this
          omega

end sparse

section move

variable {s : State} {src dst : Nat}

/-- Of a frame on a die, what lies below the end of the die's memory is populated (R458). -/
theorem populatedPart_on_die (hon : dst / 2 ^ 37 < Config.dies) :
    populatedPart dst 65536 = min 65536 (96000000000 - dst % 2 ^ 37) := if_pos hon

theorem populatedPart_off_die (hoff : ¬ dst / 2 ^ 37 < Config.dies) : populatedPart dst 65536 = 0 := if_neg hoff

theorem populated_byte_iff {pa : Nat} :
    populated pa 1 = true ↔ pa / 2 ^ 37 < Config.dies ∧ pa % 2 ^ 37 + 1 ≤ 96000000000 := by
  rw [populated, Bool.and_eq_true, decide_eq_true_eq, decide_eq_true_eq]
  rfl

/-- A byte of a frame is populated where it lies in the frame's populated part. -/
theorem populated_iff_part (hd : dst % 65536 = 0) {i : Nat} (hi : i < 65536) :
    populated (dst + i) 1 = true ↔ i < populatedPart dst 65536 := by
  rw [populated_byte_iff, show (dst + i) / 2 ^ 37 = dst / 2 ^ 37 by omega, show (dst + i) % 2 ^ 37 = dst % 2 ^ 37 + i by omega]
  by_cases hon : dst / 2 ^ 37 < Config.dies
  · rw [populatedPart_on_die hon, and_iff_right hon]
    omega
  · rw [populatedPart_off_die hon]
    exact ⟨fun h => absurd h.1 hon, fun h => absurd h (Nat.not_lt_zero i)⟩

/-- The populated part of a frame is made of whole half-atoms. -/
theorem populatedPart_halves (hd : dst % 65536 = 0) : populatedPart dst 65536 % 32 = 0 := by
  by_cases hon : dst / 2 ^ 37 < Config.dies
  · rw [populatedPart_on_die hon]
    omega
  · rw [populatedPart_off_die hon]

/-- The bytes beyond the populated part of the new frame stay (R458). -/
theorem sget_movedBytes_beyond (hd : dst % 65536 = 0) {i : Nat} (hi : populatedPart dst 65536 ≤ i) :
    sget 0 (s.movedBytes src dst) (dst + i) = s.memByte (dst + i) := by
  have hn := populatedPart_halves hd
  unfold State.movedBytes
  generalize populatedPart dst 65536 = n at hi hn
  simp only
  rw [sget_foldl_other, sget_foldl_other, sget_sclear_other, State.memByte]
  · omega
  · intro m e he
    have := mem_sslice_lt he
    exact sget_sset_other _ _ _ _ _ (by omega)
  · intro m h hh
    have hlow := of_decide_eq_true (List.mem_filter.1 hh).2
    exact sget_ssetList_other _ _ _ _ _ (by rw [List.length_replicate]; omega)

/-- Within the populated part each byte is the old page's, or all ones in a half-atom that cannot be read
(notes/assumptions/117). -/
theorem sget_movedBytes_within (h : swf 0 s.mem = true) (hs : src % 65536 = 0) {i : Nat} (hi : i < populatedPart dst 65536) :
    sget 0 (s.movedBytes src dst) (dst + i) = if (src + i) / 32 ∈ s.ecc then 0xFF else s.memByte (src + i) := by
  have hle := populatedPart_le dst 65536
  unfold State.movedBytes
  generalize populatedPart dst 65536 = n at hi hle
  simp only
  have hclear := swf_sclear 0 s.mem dst (dst + n) h
  rw [sget_foldl_rows 0 (by decide) _ (fun h => h % 2048) _ (swf_foldl_sset 0 _ _ _ _ hclear)]
  have hbad : (∃ k ∈ (s.badHalves src).filter (fun h => decide (32 * (h % 2048) < n)), k % 2048 = i / 32) ↔
      (src + i) / 32 ∈ s.ecc := by
    constructor
    · rintro ⟨k, hk, hrow⟩
      obtain ⟨hecc, hpage⟩ := List.mem_filter.1 (List.mem_filter.1 hk).1
      have hp := of_decide_eq_true hpage
      rwa [show (src + i) / 32 = k by omega]
    · intro hecc
      refine ⟨_, List.mem_filter.2 ⟨List.mem_filter.2 ⟨hecc, decide_eq_true ?_⟩, decide_eq_true ?_⟩, ?_⟩ <;> omega
  have hmoved : sget 0 ((sslice s.mem src (src + n)).foldl (fun m e => sset 0 m (dst + e.1) e.2)
      (sclear s.mem dst (dst + n))) (dst + i) = s.memByte (src + i) := by
    rw [sslice, List.foldl_map, sget_foldl_moved 0 (swf_filter 0 _ _ h) ?_ hclear (sget_sclear_inside 0 _ (by omega) (by omega)),
      State.memByte]
    · exact sget_filter_key 0 (fun k => decide (src ≤ k) && decide (k < src + n)) s.mem (by
        simp only [Bool.and_eq_true, decide_eq_true_eq]; omega)
    · intro e he
      have := (List.mem_filter.1 he).2
      simp only [Bool.and_eq_true, decide_eq_true_eq] at this
      exact this.1
  rw [hmoved]
  exact if_congr hbad rfl rfl

/-- The bytes of the new frame after the move (R204, R458). -/
theorem memByte_movePage_inside (h : swf 0 s.mem = true) (hs : src % 65536 = 0) (hd : dst % 65536 = 0) {i : Nat}
    (hi : i < 65536) : (s.movePage src dst).memByte (dst + i) =
      if populated (dst + i) 1 = false then s.memByte (dst + i)
      else if (src + i) / 32 ∈ s.ecc then 0xFF else s.memByte (src + i) := by
  show sget 0 (s.movedBytes src dst) (dst + i) = _
  by_cases hp : i < populatedPart dst 65536
  · rw [if_neg (by rw [(populated_iff_part hd hi).2 hp]; exact Bool.noConfusion), sget_movedBytes_within h hs hp]
  · rw [if_pos (Bool.eq_false_iff.2 fun hc => hp ((populated_iff_part hd hi).1 hc)), sget_movedBytes_beyond hd (Nat.not_lt.1 hp)]

/-- The new frame is written whole: no error of it is left. -/
theorem mem_ecc_movePage {k : Nat} (hk : k ∈ (s.movePage src dst).ecc) : k ∈ s.ecc ∧ k / 2048 ≠ dst / 65536 := by
  obtain ⟨hecc, hpage⟩ := List.mem_filter.1 hk
  exact ⟨hecc, of_decide_eq_true hpage⟩

/-- The write generation goes with the page (R210). -/
theorem wgen_movePage : tget (s.movePage src dst).wgen (dst / 65536) = tget s.wgen (src / 65536) := by
  simp only [State.movePage]
  split
  next g hg => rw [tget_tput_same, hg]
  next hg => rw [tget_tdel_same, hg]

end move

end Sys2Proof.Machine
end

section
/-! SUPPORT. What the logging of an event changes (20_system R447). -/

namespace Sys2Proof.Machine

/-- One state is another but for what the logging of events changes: host memory, the event ring's tail, which errors have been
reported, and the free words drawn. -/
def State.LogsOnly (s u : State) : Prop := ∃ m d r c, u = { s with hostMem := m, dev := d, reported := r, freeCtr := c }

namespace State.LogsOnly

variable {s t u : State}

theorem refl (s : State) : s.LogsOnly s := ⟨_, _, _, _, rfl⟩

theorem trans (h : s.LogsOnly t) (g : t.LogsOnly u) : s.LogsOnly u := by
  obtain ⟨_, _, _, _, rfl⟩ := h
  obtain ⟨_, _, _, _, rfl⟩ := g
  exact ⟨_, _, _, _, rfl⟩

theorem ringPut {base : Nat} {tail : Word} {ws : List Word} (h : s.ringPut base tail ws = some u) : s.LogsOnly u := by
  simp only [State.ringPut] at h
  split at h <;> cases h
  exact ⟨_, _, _, _, rfl⟩

theorem logEvent (s : State) (t : EventType) (tenant core : Nat) (l : Level) (addr detail : Word) :
    s.LogsOnly (s.logEvent t tenant core l addr detail) := by
  unfold State.logEvent
  split
  · exact refl s
  · dsimp only
    split
    next h => exact ringPut h
    next =>
      split
      next h => exact trans ⟨_, _, _, _, rfl⟩ (ringPut h)
      next => exact ⟨_, _, _, _, rfl⟩

theorem logUncorr (s : State) (tenant core pa : Nat) : s.LogsOnly (s.logUncorr tenant core pa) :=
  State.logUncorr_eq s tenant core pa ▸ trans ⟨_, _, _, _, rfl⟩ (logEvent { s with freeCtr := s.freeCtr + 1 } ..)

theorem logOnce (s : State) (tenant core half : Nat) : s.LogsOnly (s.logOnce tenant core half) := by
  unfold State.logOnce
  split
  · exact refl s
  · exact trans ⟨_, _, _, _, rfl⟩ (logUncorr ..)

theorem elim {α : Type} (o : Option α) {f : α → State} (h : ∀ a, s.LogsOnly (f a)) : s.LogsOnly (o.elim s f) := by
  cases o with
  | none => exact refl s
  | some a => exact h a

theorem logBadEntry (s : State) (core tenant va : Nat) : s.LogsOnly (s.logBadEntry core tenant va) :=
  elim _ fun _ => logUncorr ..

theorem noteImage (s : State) (e : ReuseEntry) : s.LogsOnly (s.noteImage e) := elim _ fun _ => logOnce ..

theorem foldl {β : Type} {f : State → β → State} (hf : ∀ (s : State) b, s.LogsOnly (f s b)) (l : List β) (s : State) :
    s.LogsOnly (l.foldl f s) := by
  induction l generalizing s with
  | nil => exact refl s
  | cons b l ih => exact trans (hf s b) (ih _)

/-- The look at the pages of some images. -/
theorem noteImages (p : ReuseEntry → Bool) (l : Table ReuseEntry) (s : State) :
    s.LogsOnly (l.foldl (fun t e => if p e.2 = true then t.noteImage e.2 else t) s) := by
  refine foldl (fun t e => ?_) l s
  split
  · exact noteImage t e.2
  · exact refl t

variable (h : s.LogsOnly u)
include h

theorem mem : u.mem = s.mem := by obtain ⟨_, _, _, _, rfl⟩ := h; rfl
theorem tlb : u.tlb = s.tlb := by obtain ⟨_, _, _, _, rfl⟩ := h; rfl
theorem migs : u.migs = s.migs := by obtain ⟨_, _, _, _, rfl⟩ := h; rfl
theorem hart (r : HartRef) : u.hart r = s.hart r := by obtain ⟨_, _, _, _, rfl⟩ := h; rfl

end State.LogsOnly

/-- A walk that reads every entry has none to log. -/
theorem State.logBadEntry_none {s : State} {core tenant va : Nat} (h : s.badWalk core tenant va = false) :
    s.logBadEntry core tenant va = s := by
  have hn : s.badEntry core tenant va = none := Option.not_isSome_iff_eq_none.1 (Bool.eq_false_iff.1 h)
  rw [State.logBadEntry, hn, Option.elim_none]

end Sys2Proof.Machine
end

section
/-! SUPPORT. Cached translations: the end of a walk, and XINV (09_page R199, R202; 17_reuse R402). -/

namespace Sys2Proof.Machine

section walk

variable {s : State}

/-- A walk that ends with a leaf gives the core a translation (R199). -/
theorem execPageWalkDone_caches {core t va : Nat} {l : Leaf} (hcore : s.evArg.a = core) (ht : s.evArg.b = t)
    (hva : s.evArg.c % 2 ^ 57 = va) (hc : core < 384) (htn : t < 128) (hmiss : s.tlbFind core t va = none)
    (hl : s.walk t va = some l) (hgood : s.badWalk core t va = false) {e : TlbEntry}
    (he : { tenant := t, va := va - va % 2 ^ l.shift, shift := l.shift, leaf := l.word, frames := l.frames } = e) :
    execPageWalkDone s = .next
      (({ s with tlb := tput s.tlb core (e :: (tget s.tlb core).getD []) } : State).walked (coreDie core) t va s.evArg.w.toNat) := by
  have hskip : ¬ (Config.cores ≤ core ∨ Config.tenants ≤ t ∨ (s.tlbFind core t va).isSome = true) := by
    rw [hmiss]
    exact not_or.2 ⟨Nat.not_le.2 hc, not_or.2 ⟨Nat.not_le.2 htn, Bool.noConfusion⟩⟩
  simp only [execPageWalkDone, hcore, ht, hva, if_neg hskip, hgood, Bool.false_eq_true, if_false, hl, he]

/-- A walk that maps nothing, or meets what it cannot read, gives none (notes/assumptions/71). -/
theorem execPageWalkDone_fails (h : s.walk s.evArg.b (s.evArg.c % 2 ^ 57) = none ∨
    s.badWalk s.evArg.a s.evArg.b (s.evArg.c % 2 ^ 57) = true) : execPageWalkDone s = .next s := by
  have hnone : (if s.badWalk s.evArg.a s.evArg.b (s.evArg.c % 2 ^ 57) = true then none
      else s.walk s.evArg.b (s.evArg.c % 2 ^ 57)) = none := by
    split
    · rfl
    next hb => exact h.resolve_right hb
  simp only [execPageWalkDone, hnone, ite_self]

/-- The walker's die counts at most 512 walks, and has recorded the leaf (R199, R205). -/
theorem walked_records (die t va n : Nat) : ((s.walked die t va n).dieOf die).walks ≤ 512 ∧
    (t, va - va % 65536) ∈ ((s.walked die t va n).dieOf die).leaves := by
  have hpage : alignDown va 65536 = va - va % 65536 := by
    unfold alignDown
    omega
  simp only [State.walked, State.dieOf_withDie, hpage]
  refine ⟨Nat.min_le_left _ _, ?_⟩
  split
  next hin => exact List.contains_iff_mem.1 hin
  next => exact List.mem_cons_self

end walk

section xinv

variable {s : State} {r : HartRef} {covers : Nat → Nat → Nat → Bool} {drop : TlbEntry → Bool}

/-- XINV acts by the event of its own SCOPE (R202). -/
theorem xinvEvent_scope {x : Word} {scope : Nat} {k : HartRef → Word → State}
    (h : (s.hart { cid := s.evArg.a, kind := s.evArg.h }).pendCsr = some (.xinv, x)) (hs : bits x 0 2 = scope) :
    xinvEvent scope k s = .next (k { cid := s.evArg.a, kind := s.evArg.h } x) := by
  simp only [xinvEvent, h, if_pos hs]

section scopes

variable {x : Word} (hr : { cid := s.evArg.a, kind := s.evArg.h } = r) (h : (s.hart r).pendCsr = some (.xinv, x))
include hr h

theorem execXinvPage_drops (hs : bits x 0 2 = 0) : execXinvPage s = .next (s.xinv r
    (fun t va n => decide (t = bits x 9 7) && decide (va / 2 ^ n = bits x 16 41 * 65536 / 2 ^ n))
    (fun e => decide (e.tenant = bits x 9 7) && decide (bits x 16 41 * 65536 / 2 ^ e.shift = e.va / 2 ^ e.shift))) := by
  subst hr
  rw [execXinvPage, xinvEvent_scope h hs]

theorem execXinvTenant_drops (hs : bits x 0 2 = 1) : execXinvTenant s = .next (s.xinv r
    (fun t _ _ => decide (t = bits x 9 7)) (fun e => decide (e.tenant = bits x 9 7))) := by
  subst hr
  rw [execXinvTenant, xinvEvent_scope h hs]

theorem execXinvAll_drops (hs : bits x 0 2 = 2) :
    execXinvAll s = .next (s.xinv r (fun _ _ _ => true) (fun _ => true)) := by
  subst hr
  rw [execXinvAll, xinvEvent_scope h hs]

end scopes

theorem tget_map_values {α β : Type} (f : α → β) (t : Table α) (i : Nat) :
    tget (t.map (fun e => (e.1, f e.2))) i = (tget t i).map f := by
  induction t with
  | nil => rfl
  | cons e t ih =>
    obtain ⟨k, v⟩ := e
    rw [List.map_cons, tget, tget, ih]
    split <;> rfl

/-- What a core still has cached it had before, and no test named it. -/
theorem mem_dropTlb {core : Nat} {e : TlbEntry} (he : e ∈ (tget (s.dropTlb drop).tlb core).getD []) :
    e ∈ (tget s.tlb core).getD [] ∧ drop e = false := by
  rw [State.dropTlb, tget_map_values] at he
  cases hc : tget s.tlb core with
  | none => rw [hc] at he; exact absurd he List.not_mem_nil
  | some l =>
    rw [hc] at he
    obtain ⟨hl, hp⟩ := List.mem_filter.1 he
    exact ⟨hl, by simpa using hp⟩

theorem countDrops_tlb (l : List Nat) (s : State) : (s.countDrops l).tlb = s.tlb := by
  induction l generalizing s with
  | nil => rfl
  | cons t l ih => exact ih _

theorem dropEntries_tlb (p : Nat → ReuseEntry → Bool) : (s.dropEntries p).tlb = s.tlb := countDrops_tlb ..

/-- A table without entries has none to drop. -/
theorem dropEntries_empty (p : Nat → ReuseEntry → Bool) (h : s.reuse = []) : s.dropEntries p = s := by
  cases s
  cases h
  rfl

/-- XINV with its translations dropped and its entries DEAD completes, or waits for a hit: memory and the translations stay. -/
theorem xinv_mem_tlb : (s.xinv r covers drop).mem = s.mem ∧ (s.xinv r covers drop).tlb = (s.dropTlb drop).tlb := by
  have hlog := State.LogsOnly.noteImages (fun e => decide (0 < e.imgLen) && covers e.tenant e.imgVa e.imgShift) s.reuse
    (s.dropTlb drop)
  have hkeeps := fun p => And.intro ((State.dropEntries_mem _ p).trans hlog.mem) ((dropEntries_tlb p).trans hlog.tlb)
  have hdone : ∀ t : State, (t.csrDone r).mem = t.mem ∧ (t.csrDone r).tlb = t.tlb := fun _ => ⟨rfl, rfl⟩
  simp only [State.xinv]
  split
  · exact hkeeps _
  · rw [(hdone _).1, (hdone _).2]
    exact hkeeps _

/-- With an empty reuse table no hit reads a freed page: XINV completes (17_reuse R402). -/
theorem xinv_completes (h : s.reuse = []) : s.xinv r covers drop = (s.dropTlb drop).csrDone r := by
  have hr : (s.dropTlb drop).reuse = [] := h
  simp only [State.xinv, hr, List.foldl_nil, dropEntries_empty _ hr, List.any_nil, Bool.false_eq_true, if_false]

theorem hart_csrDone : (s.csrDone r).hart r = { s.hart r with pendCsr := none, pc := (s.hart r).pc + 4 } := State.hart_withHart ..

end xinv

end Sys2Proof.Machine
end

section
/-! SUPPORT. Migrations: what MIGCMD starts or refuses, the window of the tracker, and the switch (09_page R203–R207). -/

namespace Sys2Proof.Machine

/-- MIGSTAT is no part of a hart. -/
theorem hart_withMigstat (s : State) (r : HartRef) (x : Word) :
    (s.withCtx r.cid { s.ctx r.cid with migstat := x }).hart r = s.hart r := by
  obtain ⟨cid, kind⟩ := r
  rw [State.hart, State.ctx_withCtx]
  cases kind <;> rfl

/-- The state after a MIGCMD that is refused: a leaf that cannot be read is logged, and WHY names one of the reasons, which one
is free (R207; notes/assumptions/55, 117). -/
def State.migRefused (s : State) (r : HartRef) (core tenant va : Nat) (why : List Nat) : State :=
  let f := ((s.logBadEntry core tenant va).csrDone r).freeBelow why.length
  f.2.withCtx r.cid { f.2.ctx r.cid with migstat := BitVec.ofNat 64 (why.getD f.1 2 * 4 + 3) }

theorem migRefused_names_reason (s : State) (r : HartRef) (core tenant va : Nat) {why : List Nat} (h : why ≠ []) :
    ∃ n ∈ why, ((s.migRefused r core tenant va why).ctx r.cid).migstat = BitVec.ofNat 64 (n * 4 + 3) := by
  have hlen := Nat.mod_lt (Config.freeChoice ((s.logBadEntry core tenant va).csrDone r).freeCtr) (List.length_pos_iff.2 h)
  refine ⟨_, List.getElem_mem hlen, ?_⟩
  rw [State.migRefused, State.ctx_withCtx, ← List.getD_eq_getElem why 2 hlen]
  rfl

/-- A MIGCMD that is refused completes, moves nothing and starts no migration. -/
theorem migRefused_keeps (s : State) (r : HartRef) (core tenant va : Nat) (why : List Nat) :
    (s.migRefused r core tenant va why).mem = s.mem ∧ (s.migRefused r core tenant va why).migs = s.migs ∧
      ((s.migRefused r core tenant va why).hart r).pc = (s.hart r).pc + 4 := by
  have hlog := State.LogsOnly.logBadEntry s core tenant va
  unfold State.migRefused
  generalize s.logBadEntry core tenant va = u at hlog
  refine ⟨hlog.mem, hlog.migs, ?_⟩
  rw [hart_withMigstat, show ∀ n, ((u.csrDone r).freeBelow n).2.hart r = (u.csrDone r).hart r from fun _ => rfl, hart_csrDone,
    hlog.hart]

section migcmd

variable {s : State} {r : HartRef} {x : Word} (hc : s.evArg.a = r.cid) (hk : s.evArg.h = r.kind)
  (hp : (s.hart r).pendCsr = some (.migcmd, x))
include hc hk hp

/-- While STATE is BUSY a MIGCMD is ignored (R207). -/
theorem execMigcmdGo_busy (hb : (s.ctx r.cid).migBusy = true) : execMigcmdGo s = .next (s.csrDone r) := by
  simp only [execMigcmdGo, hc, hk, hp, hb, if_true]

variable (hb : (s.ctx r.cid).migBusy = false) {tenant die va : Nat} (ht : bits x 9 7 = tenant) (hd : bits x 2 2 = die)
  (hva : bits (s.ctx r.cid).migva 16 41 * 65536 = va) {l : Option Leaf}
  (hl : (if s.badWalk (s.ctx r.cid).core tenant va then none else s.walk tenant va) = l)
include hb ht hd hva hl

theorem execMigcmdGo_storing {leaf : Leaf} (hleaf : l = some leaf) (hwhy : s.migRefusals l die = [])
    (hs : s.storing (entryAddr leaf.word) = true) : execMigcmdGo s = .next s := by
  subst hleaf
  simp only [execMigcmdGo, hc, hk, hp, hb, ht, hd, hva, hl, hwhy, hs, Bool.false_eq_true, if_false, if_true]

/-- A MIGCMD that nothing speaks against starts its migration (R203, R207). -/
theorem execMigcmdGo_starts {leaf : Leaf} (hleaf : l = some leaf) (hwhy : s.migRefusals l die = [])
    (hs : s.storing (entryAddr leaf.word) = false) {u : State}
    (hu : (s.csrDone r).startMigration tenant va leaf die (some r.cid) = u) :
    execMigcmdGo s = .next (u.withCtx r.cid { u.ctx r.cid with migstat := 1 }) := by
  subst hleaf
  have hgood : s.badWalk (s.ctx r.cid).core tenant va = false := by
    refine Bool.eq_false_iff.2 fun hbad => ?_
    rw [if_pos hbad] at hl
    cases hl
  simp only [execMigcmdGo, hc, hk, hp, hb, ht, hd, hva, hl, hwhy, hs, State.logBadEntry_none hgood, hu, Bool.false_eq_true, if_false]

/-- A MIGCMD that a reason speaks against is refused (R207). -/
theorem execMigcmdGo_refuses (hwhy : s.migRefusals l die ≠ []) : execMigcmdGo s =
    .next (s.migRefused r (s.ctx r.cid).core tenant va (s.migRefusals l die)) := by
  obtain ⟨n, ns, hn⟩ := List.exists_cons_of_ne_nil hwhy
  cases l with
  | none => simp only [execMigcmdGo, hc, hk, hp, hb, ht, hd, hva, hl, hn, Bool.false_eq_true, if_false, State.migRefused]
  | some leaf => simp only [execMigcmdGo, hc, hk, hp, hb, ht, hd, hva, hl, hn, Bool.false_eq_true, if_false, State.migRefused]

end migcmd

section window

variable {s : State}

/-- A window of a tracker that is on ends: its candidates start in order (R205). -/
theorem execHotWindowEnd_ends {die : Nat} (hdie : s.evArg.a = die) (hlt : die < 4) (hon : bit (s.dieOf die).hotctl 0 = true)
    (hlong : 65536 ≤ (s.hb - (s.dieOf die).hotSince).toNat)
    (hs : (s.hotCands die).any (fun c => s.storing (entryAddr c.page.leaf.word)) = false) {u : State}
    (hu : ({ s with freeCtr := s.freeCtr + 1 } : State).withDie die { s.dieOf die with hotSince := s.hb } = u) :
    execHotWindowEnd s = .next ((if s.hotCands die = [] then u else u.noteUnread die).startHot die (s.hotCands die)
      (bits (s.dieOf die).hotctl 16 16)) := by
  have hgo : ¬ (Config.dies ≤ die ∨ (!bit (s.dieOf die).hotctl 0) = true ∨ (s.hb - (s.dieOf die).hotSince).toNat < 65536) := by
    rw [hon]
    exact not_or.2 ⟨Nat.not_le.2 hlt, not_or.2 ⟨Bool.noConfusion, Nat.not_lt.2 hlong⟩⟩
  simp only [execHotWindowEnd, hdie, if_neg hgo, hs, hu, Bool.false_eq_true, if_false]

theorem execHotWindowEnd_idle (h : bit (s.dieOf s.evArg.a).hotctl 0 = false ∨
    (s.hb - (s.dieOf s.evArg.a).hotSince).toNat < 65536) : execHotWindowEnd s = .next s := by
  have hstop : Config.dies ≤ s.evArg.a ∨ (!bit (s.dieOf s.evArg.a).hotctl 0) = true ∨
      (s.hb - (s.dieOf s.evArg.a).hotSince).toNat < 65536 := .inr (h.imp_left fun hoff => by rw [hoff, Bool.not_false])
  simp only [execHotWindowEnd, if_pos hstop]

end window

/-- The state without a migration that has ended, and without the translations of its page (R202, R204). -/
def State.withoutMigration (s : State) (m : Migration) : State :=
  ({ s with migs := s.migs.filter (fun y => decide (y.id ≠ m.id)) } : State).dropTlb (fun e =>
    decide (e.tenant = m.tenant) && decide (m.va / 2 ^ e.shift = e.va / 2 ^ e.shift))

section switch

variable {s : State} {m : Migration} {cid : Nat}

/-- What the switch of a migration of MIGCMD waits for: a route to the new frame, the page of the leaf, multicasts under way to
where the leaf goes. -/
theorem switchWaits_of_starter (hst : m.starter = some cid) : s.switchWaits m = true ↔
    s.reaches (96 * paDie m.src) m.dst 65536 = false ∨ s.migrating .sync m.leafAddr = true ∨
      s.behind 0 .sync m.leafAddr 8 = true := by
  simp only [State.switchWaits, hst, Option.isNone_some, Bool.false_and, Bool.or_false, Bool.or_eq_true, Bool.not_eq_true', or_assoc,
    Config.coresPerDie]

variable (hm : s.migs.find? (fun y => decide (y.id = s.evArg.a)) = some m)
include hm

/-- A leaf that cannot be read fails the switch, and is logged (notes/assumptions/117). -/
theorem execMigrationSwitch_unread (hbad : s.imageBad (96 * paDie m.src) m.leafAddr 8 = true) : execMigrationSwitch s =
    .next (((s.withoutMigration m).logUncorr m.tenant (96 * paDie m.src) m.leafAddr).switchFails m) := by
  simp only [execMigrationSwitch, hm]
  exact if_pos hbad

variable (hgood : s.imageBad (96 * paDie m.src) m.leafAddr 8 = false)
include hgood

/-- A leaf that has changed since the start fails the switch (R204). -/
theorem execMigrationSwitch_changed (hw : s.memWord m.leafAddr ≠ m.leafWord) :
    execMigrationSwitch s = .next ((s.withoutMigration m).switchFails m) := by
  simp only [execMigrationSwitch, hm]
  exact (if_neg (Bool.eq_false_iff.1 hgood)).trans (if_pos hw)

variable (hw : s.memWord m.leafAddr = m.leafWord) (hst : m.starter = some cid)
include hw hst

/-- A switch that something holds leaves everything as it is. -/
theorem execMigrationSwitch_waits (h : s.reaches (96 * paDie m.src) m.dst 65536 = false ∨
    (s.withoutMigration m).migrating .sync m.leafAddr = true ∨ s.behind 0 .sync m.leafAddr 8 = true) :
    execMigrationSwitch s = .next s := by
  simp only [execMigrationSwitch, hm, hst, Option.isNone_some, Bool.false_eq_true, if_false]
  exact (if_neg (Bool.eq_false_iff.1 hgood)).trans ((if_neg (not_not.2 hw)).trans (if_pos ((switchWaits_of_starter hst).2 h)))

/-- The switch moves the page and writes the leaf of the new frame (R204). -/
theorem execMigrationSwitch_moves (hr : s.reaches (96 * paDie m.src) m.dst 65536 = true)
    (hmig : (s.withoutMigration m).migrating .sync m.leafAddr = false) (hb : s.behind 0 .sync m.leafAddr 8 = false) :
    execMigrationSwitch s = .next (((((s.withoutMigration m).logLost (96 * paDie m.src) m).movePage m.src m.dst).writeCopy .sync
      (movedPa m.src m.dst m.leafAddr) (bytesOfWord 8 ((m.leafWord &&& 0xFFF00000000000FF) ||| BitVec.ofNat 64 m.dst)) 0 .host
        m.tenant).setMigstat m.starter 2) := by
  have hfree : ({ s with migs := s.migs.filter (fun y => decide (y.id ≠ m.id)) } : State).switchWaits m = false := by
    refine Bool.eq_false_iff.2 fun hwait => ?_
    rcases (switchWaits_of_starter hst).1 hwait with hno | hno | hno
    · exact Bool.false_ne_true (hno.symm.trans hr)
    · exact Bool.false_ne_true (hmig.symm.trans hno)
    · exact Bool.false_ne_true (hb.symm.trans hno)
  simp only [execMigrationSwitch, hm, hst, hfree]
  exact (if_neg (Bool.eq_false_iff.1 hgood)).trans ((if_neg (not_not.2 hw)).trans (if_neg Bool.false_ne_true))

end switch

end Sys2Proof.Machine

namespace Sys2Proof

open Machine

/-- Settles O57: each event has one equation a branch; a migration's bytes are those of the old page as far as the new frame is
populated. -/
theorem pagesAndMigration : Obligations.PagesAndMigration := by
  unfold Obligations.PagesAndMigration
  refine ⟨?walk, ?scope, ?xinv, ?migcmd, ?window, ?switch, ?page⟩
  case walk =>
    intro s l core t va hc ht hmiss
    exact ⟨fun hl hgood => execPageWalkDone_caches rfl rfl rfl hc ht hmiss hl hgood rfl,
      fun die n => walked_records .., execPageWalkDone_fails⟩
  case scope =>
    intro s x r hp t va
    exact ⟨execXinvPage_drops rfl hp, execXinvTenant_drops rfl hp, execXinvAll_drops rfl hp⟩
  case xinv =>
    intro s r covers drop u
    obtain ⟨hmem, htlb⟩ : u.mem = s.mem ∧ u.tlb = (s.dropTlb drop).tlb := xinv_mem_tlb
    refine ⟨hmem, fun core e he => mem_dropTlb (htlb ▸ he), fun hreuse => ?_⟩
    have hhart : u.hart r = { s.hart r with pendCsr := none, pc := (s.hart r).pc + 4 } :=
      (congrArg (fun v => v.hart r) (xinv_completes hreuse)).trans hart_csrDone
    exact ⟨congrArg Hart.pc hhart, congrArg Hart.pendCsr hhart⟩
  case migcmd =>
    intro s x r hp va l why _
    refine ⟨execMigcmdGo_busy rfl rfl hp, fun leaf hb hl hwhy hs => execMigcmdGo_storing rfl rfl hp hb rfl rfl rfl rfl hl hwhy hs,
      fun leaf hb hl hwhy hs => execMigcmdGo_starts rfl rfl hp hb rfl rfl rfl rfl hl hwhy hs rfl, fun hb hwhy => ?_⟩
    obtain ⟨n, hn, hstat⟩ := migRefused_names_reason s r (s.ctx r.cid).core (bits x 9 7) va hwhy
    exact ⟨_, n, execMigcmdGo_refuses rfl rfl hp hb rfl rfl rfl rfl hwhy, hn, hstat, migRefused_keeps ..⟩
  case window =>
    intro s hdie d
    exact ⟨fun hon hlong hs => execHotWindowEnd_ends rfl hdie hon hlong hs rfl, execHotWindowEnd_idle⟩
  case switch =>
    intro s m cid hm hst s0 core
    exact ⟨execMigrationSwitch_unread hm, execMigrationSwitch_changed hm, fun hgood hw => execMigrationSwitch_waits hm hgood hw hst,
      fun hgood hw => execMigrationSwitch_moves hm hgood hw hst⟩
  case page =>
    intro s src dst hinv hs hd _ u
    exact ⟨fun i hi => memByte_movePage_inside hinv.1 hs hd hi, fun x hx => memByte_movePage s x src dst hx,
      fun h hh => mem_ecc_movePage hh, wgen_movePage⟩

end Sys2Proof
end

section
/-! SUPPORT. The registers of a scalar instruction: the waits for those that are busy, and the unread errors that it would
overwrite (10_copies R232; 12_context R287). -/

namespace Sys2Proof.Machine

section unread

variable {s : State} {reads writes : List SReg} {k : State → Res} {r : SReg}

/-- An unread error stands after the reads of an instruction where it did, off the registers read (R287). -/
theorem Hart.clearRead_contains (h : Hart) (reads : List SReg) (r : SReg) :
    (h.clearRead reads).unread.contains r.toNat = (!reads.contains r && h.unread.contains r.toNat) := by
  have hread : (∃ q ∈ reads, q.toNat = r.toNat) ↔ r ∈ reads :=
    ⟨fun ⟨q, hq, he⟩ => BitVec.eq_of_toNat_eq he ▸ hq, fun hr => ⟨r, hr, rfl⟩⟩
  rw [Bool.eq_iff_iff]
  simp only [Hart.clearRead, List.contains_iff_mem, List.mem_filter, Bool.and_eq_true, Bool.not_eq_true', ← Bool.not_eq_true,
    List.any_eq_true, decide_eq_true_eq, hread]
  exact And.comm

/-- The register whose unread error an instruction would overwrite: the first that it writes and does not read. -/
theorem Hart.overwrites_clearRead (h : Hart) (reads writes : List SReg) : (h.clearRead reads).overwrites writes =
    (writes.find? (fun w => decide (w ≠ 0) && !reads.contains w && h.unread.contains w.toNat)).map (·.toNat) := by
  simp only [Hart.overwrites, Hart.clearRead_contains, Bool.and_assoc]

/-- An instruction that overwrites no unread error, in no pure task's code from outside, is ready once its registers are
free. -/
theorem State.ready_of_read (hfree : (reads ++ writes).all s.me.free = true) (hin : s.outside = false)
    (hun : ∀ r ∈ writes, r ≠ 0 → r ∉ reads → s.me.unread.contains r.toNat = false) : s.Ready reads writes := by
  refine ⟨hfree, ?_, .inl hin⟩
  rw [Hart.overwrites_clearRead, Option.map_eq_none_iff, List.find?_eq_none]
  intro r hr hbad
  simp only [Bool.and_eq_true, decide_eq_true_eq, Bool.not_eq_true', ← Bool.not_eq_true, List.contains_iff_mem] at hbad
  obtain ⟨⟨hzero, hread⟩, hset⟩ := hbad
  have hclear := hun r hr hzero hread
  rw [← Bool.not_eq_true, List.contains_iff_mem] at hclear
  exact hclear hset

/-- A violation by the place of an instruction is none of the traps that come before its own faults (03_encoding R51). -/
theorem codeGuard_early (outside : Bool) (addr : Word) (h : ∀ t, (k t).early = false) :
    (codeGuard outside addr k s).early = false := by
  unfold codeGuard
  split
  · split
    · exact h s
    · split
      · exact h s
      · unfold violation violationAt
        split
        · exact h _
        · rfl
  · exact h s

/-- An instruction that would overwrite an unread error traps with ENGERR, unless it is Illegal (R287; 03_encoding R51). -/
theorem scalar_unread (hfree : (reads ++ writes).all s.me.free = true)
    (hr : writes.find? (fun w => decide (w ≠ 0) && !reads.contains w && s.me.unread.contains w.toNat) = some r)
    (hk : (codeGuard s.outside s.me.pc k (s.reading reads)).early = false) :
    scalar reads writes k s = .next (s.scalarTrap (engErr s.me r.toNat)) := by
  have hover : (s.me.clearRead reads).overwrites writes = some r.toNat := by
    rw [Hart.overwrites_clearRead, hr, Option.map_some]
  have hguard : (codeGuard (s.reading reads).outside (s.reading reads).me.pc k (s.reading reads)).early = false := by
    rw [State.me_reading]
    exact hk
  simp only [scalar, framed, hfree, hover]
  rw [show s.withMe (s.me.clearRead reads) = s.reading reads from rfl, hguard]
  rfl

/-- The one register that an instruction writes and does not read. -/
theorem find_unread (hzero : r ≠ 0) (hread : r ∉ reads) (hset : s.me.unread.contains r.toNat = true) :
    [r].find? (fun w => decide (w ≠ 0) && !reads.contains w && s.me.unread.contains w.toNat) = some r := by
  refine List.find?_cons_of_pos ?_
  have hcontains : reads.contains r = false := Bool.eq_false_iff.2 (mt List.contains_iff_mem.1 hread)
  simp only [hcontains, hset, hzero, ne_eq, not_false_eq_true, decide_true, Bool.not_false, Bool.and_self]

end unread

section copies

/-- The waits of a copy are no trap, and where what follows them is none, it makes none. -/
theorem copyWaits_early {waits : TagView × VEntry → Bool} {k : State → Res} {s : State} (h : (k s).early = false) :
    (copyWaits waits k s).early = false := by
  simp only [copyWaits]
  split
  · rfl
  · split
    · rfl
    · exact h

end copies

end Sys2Proof.Machine

namespace Sys2Proof

open Machine

/-- Settles O13: a scalar instruction waits, traps with ENGERR, or does what it does, whatever that is; the four named ones are
scalar instructions with the registers that they name. -/
theorem busyAndUnreadRegisters : Obligations.BusyAndUnreadRegisters := by
  unfold Obligations.BusyAndUnreadRegisters
  refine ⟨fun s reads writes k => ⟨scalar_busy _ _ _ _, fun hfree hin => ⟨fun u hun hk => ?_, fun r hr hk => ?_⟩, ?_⟩,
    fun s d a b sz bar off comp toa x y => ⟨scalar_busy [a, b] [d] _ s,
      fun hbusy => ⟨scalar_busy [a] [d] _ s hbusy, scalar_busy [a, d] [] _ s hbusy⟩,
      scalar_busy [a, b, sz, bar] [d] _ s, fun hzero hset =>
        ⟨engErr s.me d.toNat, rfl, rfl, rfl, fun hfree ha hb => ?add, fun hfree hd hp => ?scpy⟩⟩⟩
  · exact scalar_done _ _ _ _ _ (State.ready_of_read hfree hin hun) hk
  · exact ⟨engErr s.me r.toNat, rfl, rfl, rfl, scalar_unread hfree hr (by rwa [codeGuard_inside _ _ _ _ (.inl hin)])⟩
  · rw [State.me_reading]
    rfl
  case add =>
    have hread : d ∉ [a, b] := by simpa using And.intro ha hb
    exact scalar_unread (reads := [a, b]) hfree (find_unread hzero hread hset) (codeGuard_early _ _ fun _ => rfl)
  case scpy =>
    refine scalar_unread (reads := [a, b, sz, bar]) hfree (find_unread hzero hd hset) ?_
    rw [codeGuard_inside _ _ _ _ (.inr (State.plain_reading hp)), impureOnly_plain _ _ _ _ hp]
    exact copyWaits_early rfl

end Sys2Proof
end

section
/-! SUPPORT. The issue of a copy: what it waits for, what it may not write, and what the queue and the moving hart are once its
command has entered it (10_copies R225, R226, R232, R234, R241, R249). -/

namespace Sys2Proof.Machine

/-- What the issue of a copy by the moving hart needs beside its registers: no entry under way, the hart's multicasts performed,
and room in the queue of its core (R225, R234; notes/assumptions/14). -/
structure State.CopyReady (s : State) : Prop where
  quiet : s.Quiet
  done  : s.outstanding = false
  room  : (s.copyQueue s.myCtx.core).length < 16

/-- The state in which the moving hart has issued a copy of n bytes of code (R225). -/
def State.copyIssued (s : State) (reads : List SReg) (n : Nat) (x : CopyCmd) : State := ((s.reading reads).enqueue x).advance n

section body

variable {s : State} {reads : List SReg} {i : Instr} {d bar : SReg} {dst src len aux : Word} {k : State → Res}
  {waits : TagView × VEntry → Bool} {rs : List VReg}

theorem core_reading : (s.reading reads).myCtx.core = s.myCtx.core := by
  rw [State.reading, State.myCtx_withMe, Ctx.withHart_core]

theorem streams_reading : (s.reading reads).myCtx.streams = s.myCtx.streams := by
  rw [State.reading, State.myCtx_withMe, Ctx.withHart_streams]

/-- The command of an instruction is made of what stood before its reads were noted. -/
theorem copyCmd_reading : copyCmd (s.reading reads) i d bar dst src len aux = copyCmd s i d bar dst src len aux := by
  simp only [copyCmd, core_reading, State.readS_reading]
  rfl

theorem State.CopyReady.reading (h : s.CopyReady) : (s.reading reads).CopyReady where
  quiet := s.quiet_reading reads h.quiet
  done := h.done
  room := by
    rw [core_reading]
    exact h.room

theorem copyWaits_goes (h : s.CopyReady) : copyWaits waits k s = k s := by
  have hview : s.myCtx.viqViews = [] := by
    rw [Ctx.viqViews, show s.myCtx.viq = [] from h.quiet]
    rfl
  have hgo : ¬ (s.outstanding = true ∨ Config.copyCap ≤ (s.copyQueue s.myCtx.core).length) := by
    rw [h.done]
    exact not_or.2 ⟨Bool.false_ne_true, Nat.not_le.2 h.room⟩
  simp only [copyWaits, hview, List.any_nil, Bool.false_eq_true, and_false, if_false, if_neg hgo]

/-- A copy waits for the hart's multicasts, and while the queue is full. -/
theorem copyWaits_waits (hq : s.Quiet) (h : s.outstanding = true ∨ 16 ≤ (s.copyQueue s.myCtx.core).length) :
    copyWaits waits k s = .wait false s := by
  have hview : s.myCtx.viqViews = [] := by
    rw [Ctx.viqViews, show s.myCtx.viq = [] from hq]
    rfl
  have hstop : s.outstanding = true ∨ Config.copyCap ≤ (s.copyQueue s.myCtx.core).length := h
  simp only [copyWaits, hview, List.any_nil, Bool.false_eq_true, and_false, if_false, if_pos hstop]

theorem pureCopy_plain {ranges : PureState → List (Nat × Nat)} {a n : Nat} (h : s.Plain) : pureCopy ranges a n k s = k s := by
  simp only [pureCopy, show s.me.checkedBy = none from h]

theorem unboundGroup_free (h : rs.all (fun r => (tget s.myCtx.streams r.toNat).isNone) = true) : unboundGroup rs k s = k s := by
  refine if_neg fun hb => ?_
  obtain ⟨r, hr, hsome⟩ := List.any_eq_true.1 hb
  have hnone := List.all_eq_true.1 h r hr
  rw [Option.isNone_iff_eq_none.1 hnone] at hsome
  cases hsome

theorem unboundGroup_bound (h : rs.any (fun r => (tget s.myCtx.streams r.toNat).isSome) = true) :
    unboundGroup rs k s = .trap (illegal s 8 0) s := if_pos h

/-- With no entry under way a bound register is found before the waits of the copy (R249; 03_encoding R51). -/
theorem boundGroup_quiet (h : s.Quiet) : boundGroup rs k s = unboundGroup rs k s := by
  refine if_neg ?_
  rw [show s.myCtx.viq = [] from h]
  exact Bool.false_ne_true

/-- A copy of the moving hart whose checks are over enters the queue, and the hart goes on (R225). -/
theorem exec_copyIssued {n : Nat} {cmd : State → CopyCmd} {x : CopyCmd} (hs : s.CopyReady)
    (hi : exec i s = scalar reads [d] k s) (h : s.Ready reads [d])
    (hk : k (s.reading reads) = issueCopy n waits cmd (s.reading reads)) (hx : cmd (s.reading reads) = x) :
    exec i s = .next (s.copyIssued reads n x) := by
  subst hx
  refine hi.trans (scalar_done _ _ _ _ _ h (hk.trans ?_))
  rw [issueCopy, copyWaits_goes hs.reading]
  rfl

/-- The checks and waits of a copy into the registers of a group none of which is bound (R249), where those that stand between
let it go on. -/
theorem boundGroup_goes {f : (State → Res) → State → Res} (h : s.CopyReady)
    (hf : ∀ k, f k (s.reading reads) = k (s.reading reads))
    (hfree : rs.all (fun r => (tget s.myCtx.streams r.toNat).isNone) = true) :
    boundGroup rs (f (copyWaits waits (unboundGroup rs k))) (s.reading reads) = k (s.reading reads) := by
  have hfree' : rs.all (fun r => (tget (s.reading reads).myCtx.streams r.toNat).isNone) = true := by rwa [streams_reading]
  rw [boundGroup_quiet h.reading.quiet, unboundGroup_free hfree', hf, copyWaits_goes h.reading, unboundGroup_free hfree']

/-- A copy into the registers of a group one of which is bound is Illegal (R249; notes/assumptions/108). -/
theorem boundGroup_bound (hq : s.Quiet) (h : rs.any (fun r => (tget s.myCtx.streams r.toNat).isSome) = true) :
    boundGroup rs k (s.reading reads) = .trap (illegal (s.reading reads) 8 0) (s.reading reads) := by
  rw [boundGroup_quiet (s.quiet_reading reads hq)]
  exact unboundGroup_bound (by rwa [streams_reading])

end body

section enqueued

variable (s : State) (x : CopyCmd)

theorem State.copyQueue_withCopyQueue (core : Nat) (q : List CopyCmd) : (s.withCopyQueue core q).copyQueue core = q := by
  rw [State.copyQueue, State.withCopyQueue, tget_tput_same, Option.getD_some]

/-- A command enters the queue of its core behind the others (R225). -/
theorem State.copyQueue_enqueue : (s.enqueue x).copyQueue x.core = s.copyQueue x.core ++ [x] := by
  unfold State.enqueue
  cases x.tok <;> exact State.copyQueue_withCopyQueue _ _ _

theorem State.mem_enqueue : (s.enqueue x).mem = s.mem := by
  unfold State.enqueue
  cases x.tok <;> rfl

/-- The entering of a command changes the moving hart by its token register alone, which is busy from then on (R232). -/
theorem State.me_enqueue : (s.enqueue x).me = { s.me with busy := match x.tok with
    | .reg n => insertNat s.me.busy n
    | _ => s.me.busy } := by
  unfold State.enqueue
  cases x.tok with
  | none => rfl
  | reg n => exact State.me_withMe _ _
  | cont id => rfl

end enqueued

section forms

variable {s : State} {d a b sz bar aux : SReg} {va vb : VReg} {vg fold : BitVec 2} {ordered comp : BitVec 1} {toa : BitVec 3}
  {ao bo t0 t1 t2 t3 : BitVec 16}

/-- The registers of its own context that a CPYREG writes, by its target's core (R238). -/
theorem cpyregOwn_reading (reads : List SReg) :
    cpyregOwn (s.reading reads) va aux vg = if bits (s.readS aux) 0 9 = s.myCtx.core then copyGroup va vg else [] := by
  rw [cpyregOwn, State.readS_reading, core_reading]

/-- CPYIN into registers, on a hart that may issue it (R226). -/
theorem exec_cpyin_one (hk : s.cur.kind ≠ .dh) : exec (.cpyin d va b sz bar 1 vg comp toa ao bo) s =
    scalar [b, sz, bar] [d] (fun t => boundGroup (copyGroup va vg)
      (pureCopy (·.inputs) (ea16 (t.readS b) bo).toNat (t.readS sz).toNat (copyWaits (groupWaits (copyGroup va vg))
        (unboundGroup (copyGroup va vg) (fun u => .done ((u.enqueue (copyCmd u (.cpyin d va b sz bar 1 vg comp toa ao bo) d bar
          (va.setWidth 64) (ea16 (t.readS b) bo) (t.readS sz) 0)).advance 12))))) t) s := by
  refine onlyOn_own s ?_
  cases hc : s.cur.kind with
  | ch => rfl
  | fh => rfl
  | dh => exact absurd hc hk

/-- CPYREG on the compute hart (R226). -/
theorem exec_cpyreg_ch (hk : s.cur.kind = .ch) : exec (.cpyreg d va vb sz bar aux vg comp toa) s =
    scalar [sz, bar, aux] [d] (fun t => boundGroup (cpyregOwn t va aux vg) (impureOnly 7
      (copyWaits (cpyregWaits t va vb aux vg) (unboundGroup (cpyregOwn t va aux vg) (fun u => .done ((u.enqueue
        (copyCmd u (.cpyreg d va vb sz bar aux vg comp toa) d bar (va.setWidth 64) (vb.setWidth 64) (u.readS sz)
          (u.readS aux))).advance 12))))) t) s := onlyOn_ch _ s hk

section issued

variable (hp : s.Plain) (hs : s.CopyReady)
include hp hs

theorem exec_cpyin_window (h : s.Ready [a, b, sz, bar] [d]) : exec (.cpyin d a b sz bar 0 vg comp toa ao bo) s =
    .next (s.copyIssued [a, b, sz, bar] 12 (copyCmd s (.cpyin d a b sz bar 0 vg comp toa ao bo) d bar (ea16 (s.readS a) ao)
      (ea16 (s.readS b) bo) (s.readS sz) 0)) :=
  exec_copyIssued hs rfl h (pureCopy_plain (State.plain_reading hp)) (by simp only [copyCmd_reading, State.readS_reading])

theorem exec_cpyin_group (h : s.Ready [b, sz, bar] [d]) (hk : s.cur.kind ≠ .dh)
    (hfree : (copyGroup va vg).all (fun r => (tget s.myCtx.streams r.toNat).isNone) = true) :
    exec (.cpyin d va b sz bar 1 vg comp toa ao bo) s = .next (s.copyIssued [b, sz, bar] 12
      (copyCmd s (.cpyin d va b sz bar 1 vg comp toa ao bo) d bar (va.setWidth 64) (ea16 (s.readS b) bo) (s.readS sz) 0)) := by
  refine (exec_cpyin_one hk).trans (scalar_done _ _ _ _ _ h ?_)
  rw [boundGroup_goes hs (fun _ => pureCopy_plain (State.plain_reading hp)) hfree]
  simp only [copyCmd_reading, State.readS_reading]
  rfl

theorem exec_cpyreg (h : s.Ready [sz, bar, aux] [d]) (hk : s.cur.kind = .ch)
    (hfree : bits (s.readS aux) 0 9 = s.myCtx.core →
      (copyGroup va vg).all (fun r => (tget s.myCtx.streams r.toNat).isNone) = true) :
    exec (.cpyreg d va vb sz bar aux vg comp toa) s = .next (s.copyIssued [sz, bar, aux] 12
      (copyCmd s (.cpyreg d va vb sz bar aux vg comp toa) d bar (va.setWidth 64) (vb.setWidth 64) (s.readS sz)
        (s.readS aux))) := by
  have hown : (cpyregOwn (s.reading [sz, bar, aux]) va aux vg).all (fun r => (tget s.myCtx.streams r.toNat).isNone) = true := by
    rw [cpyregOwn_reading]
    split
    next hcore => exact hfree hcore
    next => rfl
  refine (exec_cpyreg_ch hk).trans (scalar_done _ _ _ _ _ h ?_)
  rw [boundGroup_goes hs (fun k => impureOnly_plain s _ k 7 hp) hown]
  simp only [copyCmd_reading, State.readS_reading]
  rfl

theorem exec_cpyout (h : s.Ready [a, b, sz, bar] [d]) : exec (.cpyout d a b sz bar comp toa ao bo) s =
    .next (s.copyIssued [a, b, sz, bar] 12 (copyCmd s (.cpyout d a b sz bar comp toa ao bo) d bar (ea16 (s.readS a) ao)
      (ea16 (s.readS b) bo) (s.readS sz) 0)) :=
  exec_copyIssued hs rfl h (pureCopy_plain (State.plain_reading hp)) (by simp only [copyCmd_reading, State.readS_reading])

theorem exec_cpyfold (h : s.Ready [a, b, sz, bar] [d]) : exec (.cpyfold d a b sz bar fold ordered comp toa ao bo) s =
    .next (s.copyIssued [a, b, sz, bar] 12 (copyCmd s (.cpyfold d a b sz bar fold ordered comp toa ao bo) d bar
      (ea16 (s.readS a) ao) (ea16 (s.readS b) bo) (s.readS sz) 0)) :=
  exec_copyIssued hs rfl h (impureOnly_plain s _ _ 7 hp) (by simp only [copyCmd_reading, State.readS_reading])

theorem exec_scpy (h : s.Ready [a, b, sz, bar] [d]) : exec (.scpy d a b sz bar comp toa ao bo) s =
    .next (s.copyIssued [a, b, sz, bar] 12 (copyCmd s (.scpy d a b sz bar comp toa ao bo) d bar (ea16 (s.readS a) ao)
      (ea16 (s.readS b) bo) (s.readS sz) 0)) :=
  exec_copyIssued hs rfl h (impureOnly_plain s _ _ 7 hp) (by simp only [copyCmd_reading, State.readS_reading])

theorem exec_exportPage (h : s.Ready [b] [d]) : exec (.exportPage d b) s =
    .next (s.copyIssued [b] 12 (copyCmd s (.exportPage d b) d 0 0 (s.readS b) 65536 0)) :=
  exec_copyIssued hs rfl h (impureOnly_plain s _ _ 7 hp) (by simp only [copyCmd_reading, State.readS_reading])

theorem exec_tcpyIn (h : s.Ready [a, b, bar] [d]) : exec (.tcpyIn d a b bar comp toa t0 t1 t2 t3 ao) s =
    .next (s.copyIssued [a, b, bar] 20 (copyCmd s (.tcpyIn d a b bar comp toa t0 t1 t2 t3 ao) d bar (ea16 (s.readS a) ao) 0 0
      (s.readS b))) :=
  exec_copyIssued hs rfl h (impureOnly_plain s _ _ 7 hp) (by simp only [copyCmd_reading, State.readS_reading])

theorem exec_tcpyOut (h : s.Ready [a, b, bar] [d]) : exec (.tcpyOut d a b bar comp toa t0 t1 t2 t3 ao) s =
    .next (s.copyIssued [a, b, bar] 20 (copyCmd s (.tcpyOut d a b bar comp toa t0 t1 t2 t3 ao) d bar 0 (ea16 (s.readS a) ao) 0
      (s.readS b))) :=
  exec_copyIssued hs rfl h (impureOnly_plain s _ _ 7 hp) (by simp only [copyCmd_reading, State.readS_reading])

end issued

/-- A copy waits where the hart's multicasts are under way or the queue is full, shown for EXPORT. -/
theorem exec_exportPage_waits (hp : s.Plain) (hq : s.Quiet) (h : s.Ready [b] [d])
    (hw : s.outstanding = true ∨ 16 ≤ (s.copyQueue s.myCtx.core).length) :
    exec (.exportPage d b) s = .next (s.here.waitHere false) := by
  rw [State.here, State.withMe_me_waitHere]
  refine scalar_wait_same _ _ _ _ _ h ((impureOnly_plain s _ _ 7 hp).trans (copyWaits_waits (s.quiet_reading [b] hq) ?_))
  rwa [core_reading]

section bound

variable (hq : s.Quiet) (hb : (copyGroup va vg).any (fun r => (tget s.myCtx.streams r.toNat).isSome) = true)
include hq hb

theorem exec_cpyin_bound (h : s.Ready [b, sz, bar] [d]) (hk : s.cur.kind ≠ .dh) :
    exec (.cpyin d va b sz bar 1 vg comp toa ao bo) s = .next (s.here.scalarTrap (illegal (s.reading [b, sz, bar]) 8 0)) :=
  (exec_cpyin_one hk).trans (scalar_trap h hq (boundGroup_bound hq hb))

theorem exec_cpyreg_bound (h : s.Ready [sz, bar, aux] [d]) (hk : s.cur.kind = .ch)
    (hcore : bits (s.readS aux) 0 9 = s.myCtx.core) :
    exec (.cpyreg d va vb sz bar aux vg comp toa) s = .next (s.here.scalarTrap (illegal (s.reading [sz, bar, aux]) 8 0)) :=
  (exec_cpyreg_ch hk).trans (scalar_trap h hq (boundGroup_bound hq (by rwa [cpyregOwn_reading, if_pos hcore])))

end bound

end forms

end Sys2Proof.Machine

namespace Sys2Proof

open Machine

/-- Settles O43: each copy of a hart that may issue it makes its command from the registers that it reads, and the command enters
the queue; what keeps one from it is a wait, or a bound register of its group. -/
theorem copyIssue : Obligations.CopyIssue := by
  unfold Obligations.CopyIssue
  refine ⟨fun s d a b sz bar aux va vb vg fold ordered comp toa ao bo t0 t1 t2 t3 hp hq ho hroom => ?issue,
    fun s x => ⟨s.copyQueue_enqueue x, s.mem_enqueue x, ?regs, fun n hn => ?busy⟩,
    fun s d b hp hq h hw => exec_exportPage_waits hp hq h hw,
    fun s d b sz bar aux va vb vg comp toa ao bo hq hb =>
      ⟨fun h hk => ⟨_, rfl, rfl, exec_cpyin_bound hq hb h hk⟩,
        fun h hk hcore => ⟨_, rfl, rfl, exec_cpyreg_bound hq hb h hk hcore⟩⟩⟩
  case issue =>
    intro go A B
    have hs : s.CopyReady := ⟨hq, ho, hroom⟩
    exact ⟨exec_cpyin_window hp hs, fun hk hfree h => exec_cpyin_group hp hs h hk hfree, exec_cpyout hp hs, exec_cpyfold hp hs,
      exec_scpy hp hs, fun hk hfree h => exec_cpyreg hp hs h hk hfree, exec_exportPage hp hs, exec_tcpyIn hp hs,
      exec_tcpyOut hp hs⟩
  case regs => rw [State.me_enqueue]
  case busy => rw [State.me_enqueue, hn]

end Sys2Proof
end

section
/-! SUPPORT. The copy engine: the start of a command, and which unit of it a move makes (10_copies R228–R230, R235, R239, R245,
R246, R457). -/

namespace Sys2Proof.Machine

section start

variable {s : State} {x : CopyCmd} {w : Word}

/-- A command that ends at its last checks (R457). -/
theorem startWith_ends (h : s.checkLast x = some w) : s.startWith x = s.withCopy { x with started := true, status := some w } := by
  simp only [State.startWith, h]

/-- A command that its last checks let go on. -/
theorem startWith_goes (h : s.checkLast x = none) : s.startWith x = s.withCopy { x with started := true }.settle := by
  simp only [State.startWith, h]

/-- A command that the engine may start: no other that comes before it, and no translation fault, holds it back (R235). -/
structure State.CopyStarts (s : State) (x : CopyCmd) : Prop where
  named  : s.copy s.evArg.a = some x
  fresh  : x.started = false
  served : x.record = none
  free   : s.mayStart x = true

theorem State.CopyStarts.not_held (h : s.CopyStarts x) :
    ¬ (x.started = true ∨ x.record.isSome = true ∨ (!s.mayStart x) = true) := by
  simp only [h.fresh, h.served, h.free, Option.isSome_none, Bool.not_true, Bool.false_eq_true, or_self, not_false_eq_true]

section checked

variable (hs : s.CopyStarts x)
include hs

/-- A command that the range checker lets start ends at its first checks (R235, R457). -/
theorem execCopyStart_ends (h : s.checkFirst x = some w) :
    execCopyStart s = .next (s.withCopy { x with started := true, status := some w }) := by
  simp only [execCopyStart, hs.named, if_neg hs.not_held, h]

/-- A command without a descriptor goes from its first checks to its last (R457). -/
theorem execCopyStart_untiled (ht : x.tile = []) (h : s.checkFirst x = none) : execCopyStart s = .next (s.startWith x) := by
  simp only [execCopyStart, hs.named, if_neg hs.not_held, h]
  split
  next hi => simp only [CopyCmd.tile, hi, reduceCtorEq] at ht
  next hi => simp only [CopyCmd.tile, hi, reduceCtorEq] at ht
  next => rfl

/-- A command on a tensor reads its descriptor between its first checks and its last (R241; notes/assumptions/77). -/
theorem execCopyStart_tiled (ht : x.tile ≠ []) (h : s.checkFirst x = none) {bs : List Byte}
    (hl : s.loadFor (s.copyWho x) 1 .read loadKinds 1 x.aux.toNat 64 = .ok bs) :
    execCopyStart s = .next (s.startWith { x with desc := wordsOfBytes 8 bs }) := by
  have hread : execCopyStart.descr s x = .next (s.startWith { x with desc := wordsOfBytes 8 bs }) := by
    simp only [execCopyStart.descr, hl, MemRes.eng]
  simp only [execCopyStart, hs.named, if_neg hs.not_held, h]
  split
  next => exact hread
  next => exact hread
  next hin hout =>
    refine absurd ?_ ht
    unfold CopyCmd.tile
    split
    next hi => exact absurd hi (hin _ _ _ _ _ _ _ _ _ _ _)
    next hi => exact absurd hi (hout _ _ _ _ _ _ _ _ _ _ _)
    next => rfl

end checked

/-- A copy of a tile of a tensor. -/
def CopyCmd.ofTile (x : CopyCmd) : Prop :=
  match x.instr with
  | .tcpyIn .. => True
  | .tcpyOut .. => True
  | _ => False

theorem tile_ne_nil (hi : x.ofTile) : x.tile ≠ [] := by
  unfold CopyCmd.ofTile at hi
  unfold CopyCmd.tile
  split at hi
  next h => simp only [h, ne_eq, reduceCtorEq, not_false_eq_true]
  next h => simp only [h, ne_eq, reduceCtorEq, not_false_eq_true]
  next => exact hi.elim

/-- A CPYIN or a CPYOUT. -/
def CopyCmd.inOrOut (x : CopyCmd) : Prop :=
  match x.instr with
  | .cpyin .. => True
  | .cpyout .. => True
  | _ => False

/-- A CPYIN or CPYOUT of no bytes ends with 0 (R230). -/
theorem checkFirst_zero (hi : x.inOrOut) (hz : x.len = 0) : s.checkFirst x = some 0 := by
  unfold CopyCmd.inOrOut at hi
  unfold State.checkFirst
  split at hi
  next h => simp only [h, hz, decide_true, if_true]
  next h => simp only [h, hz, decide_true, if_true]
  next => exact hi.elim

/-- A command that has retired all its bytes ends with their number, SCPY apart (R231, R240). -/
theorem settle_ends (hf : x.fail = none) (hr : x.retired = x.total) (hs : x.stamps = false) :
    x.settle.status = some (BitVec.ofNat 64 x.total) := by
  simp only [CopyCmd.settle, hf, hr, hs, Bool.not_false, and_self, if_true]
  rfl

end start

section unit

/-- A command that is moved atom by atom: no CPYFOLD, and no EXPORT. -/
def CopyCmd.byAtoms (x : CopyCmd) : Prop :=
  match x.instr with
  | .cpyfold .. => False
  | .exportPage .. => False
  | _ => True

/-- A command of which a move may make a unit: it has started and has not ended, no translation fault stalls it, its barrier runs
no collective, and bytes of it are left. -/
structure State.CopyGoes (s : State) (x : CopyCmd) : Prop where
  named   : s.copy s.evArg.a = some x
  started : x.started = true
  going   : x.status = none
  served  : x.record = none
  posts   : s.postWaits x = false
  left    : x.retired < x.total

variable {s : State} {x : CopyCmd}

theorem State.CopyGoes.not_held (h : s.CopyGoes x) :
    ¬ ((!x.started) = true ∨ x.status.isSome = true ∨ x.record.isSome = true ∨ s.postWaits x = true ∨ x.total ≤ x.retired) := by
  simp only [h.started, h.going, h.served, h.posts, Bool.not_true, Option.isSome_none, Bool.false_eq_true, false_or, Nat.not_le]
  exact h.left

/-- A move of a command whose atoms go in any order moves the atom that it names (R230). The unit of an EXPORT, which is another
branch, is named before the form is looked at, so that nothing looks into it. -/
theorem execCopyAtom_atom (h : s.CopyGoes x) (hf : x.byAtoms) (ha : s.ascending x = false) (ho : x.atomOpen s.evArg.b = true) :
    execCopyAtom s = .next (s.stepAtom x s.evArg.b) := by
  unfold CopyCmd.byAtoms at hf
  obtain ⟨r, hr⟩ : ∃ r, s.exportUnit x = r := ⟨_, rfl⟩
  simp only [execCopyAtom, h.named, if_neg h.not_held, hr, ha, ho, Bool.false_eq_true, false_and, if_false, if_true]
  split
  next hi => rw [hi] at hf; exact hf.elim
  next hi => rw [hi] at hf; exact hf.elim
  next => rfl

/-- A move of a command whose units ascend makes the next one (R245). -/
theorem execCopyAtom_ascends (h : s.CopyGoes x) (hf : x.byAtoms) (ha : s.ascending x = true) (hfail : x.fail = none)
    (hp : max x.upTo x.retired < x.total) : execCopyAtom s = .next (s.stepAscending x (max x.upTo x.retired)) := by
  unfold CopyCmd.byAtoms at hf
  obtain ⟨r, hr⟩ : ∃ r, s.exportUnit x = r := ⟨_, rfl⟩
  simp only [execCopyAtom, h.named, if_neg h.not_held, hr, ha, hfail, hp, Option.isNone_none, and_self, if_true]
  split
  next hi => rw [hi] at hf; exact hf.elim
  next hi => rw [hi] at hf; exact hf.elim
  next => rfl

/-- A move of a CPYFOLD updates its next element (R239; notes/assumptions/42). -/
theorem execCopyAtom_fold (h : s.CopyGoes x) {d a b sz bar : SReg} {fold : BitVec 2} {ordered comp : BitVec 1} {toa : BitVec 3}
    {ao bo : BitVec 16} (hi : x.instr = .cpyfold d a b sz bar fold ordered comp toa ao bo) : execCopyAtom s =
      .next (s.stepUnit x (s.foldUnit { x with moved := x.moved ++ [x.moved.length] } (fold.toNat + 1) (decide (ordered = 1))
        x.moved.length)) := by
  simp only [execCopyAtom, h.named, if_neg h.not_held, hi]

section exports

variable {d b : SReg} (h : s.CopyGoes x) (hi : x.instr = .exportPage d b)
include h hi

/-- An EXPORT that ends in error keeps what it has raised (R246). -/
theorem execCopyAtom_exportFails {c i a : Nat} (hf : s.exportUnit x = .fail c i a) :
    execCopyAtom s = .next (((s.exportRaise x).logCopy x c a).withCopy (x.endError c i)) := by
  simp only [execCopyAtom, h.named, if_neg h.not_held, hf]
  rw [hi]

theorem execCopyAtom_exportEnds {p : State × CopyCmd × Nat} (hf : s.exportUnit x = .ok p) :
    execCopyAtom s = .next (s.stepUnit x (.ok p)) := by
  simp only [execCopyAtom, h.named, if_neg h.not_held, hf]
  rw [hi]

theorem execCopyAtom_exportWaits (hf : s.exportUnit x = .wait) : execCopyAtom s = .next s := by
  simp only [execCopyAtom, h.named, if_neg h.not_held, hf]
  rw [hi]
  rfl

end exports

/-- What has been moved retires and is reported (R230), by the bytes of the command. -/
theorem advanceCopy_eq {n : Nat} (ht : x.total = n) : s.advanceCopy x =
    (retireAtoms (n / 64 + 1) (s, x)).1.withCopy (retireAtoms (n / 64 + 1) (s, x)).2.settle := by
  subst ht
  rfl

/-- An atom that is moved to where its form writes it. -/
theorem stepAtom_moves {i : Nat} {bs : List Byte} {t : State} (hr : s.copyRead x (64 * i) (min 64 (x.total - 64 * i)) = .ok bs)
    (hv : x.vdst = none) (hw : s.copyWrite x (64 * i) bs = .ok t) :
    s.stepAtom x i = t.advanceCopy { x with moved := insertNat x.moved i } := by
  simp only [State.stepAtom, hr, hv, hw, Eng.bind]

/-- An atom of a register group waits for its element group, or lands with it (R237). -/
theorem stepAtom_lands {i : Nat} {bs : List Byte} {g : VReg × Nat}
    (hr : s.copyRead x (64 * i) (min 64 (x.total - 64 * i)) = .ok bs) (hv : x.vdst = some g) :
    s.stepAtom x i = (s.landAtom x g.1 i bs).1.advanceCopy (s.landAtom x g.1 i bs).2 := by
  simp only [State.stepAtom, hr, hv, Eng.bind]

theorem landAtom_total (r : VReg) (i : Nat) (bs : List Byte) : (s.landAtom x r i bs).2.total = x.total := by
  unfold State.landAtom
  dsimp only
  split <;> rfl

/-- A unit of a command whose units ascend. -/
theorem stepAscending_moves {p n : Nat} {t : State} {y : CopyCmd} (h : s.ascendUnit x p = .ok (t, y, n)) :
    s.stepAscending x p = t.advanceCopy (y.movedTo (p + n)) := by
  simp only [State.stepAscending, h]

/-- A unit that retires as a whole. -/
theorem stepUnit_ok {t : State} {y : CopyCmd} {n : Nat} :
    s.stepUnit x (.ok (t, y, n)) = (t.retireBytes y n).1.withCopy (t.retireBytes y n).2.settle := rfl

end unit

end Sys2Proof.Machine
end

section
/-! SUPPORT. The copy engine: what each form of a copy reads and writes, the update of a CPYFOLD, and the unit of an EXPORT
(10_copies R228, R229, R237–R242, R246). -/

namespace Sys2Proof.Machine

section forms

variable {s : State} {x : CopyCmd} {off n : Nat} {bs : List Byte} {d a b sz bar aux : SReg} {va vb : VReg} {vdst : BitVec 1}
  {vg : BitVec 2} {comp : BitVec 1} {toa : BitVec 3} {ao bo t0 t1 t2 t3 : BitVec 16}

/-- A form that takes global memory only meets no window where its bytes touch none (R229). -/
theorem globalOnly_outside (h : touchesWindows off n = false) : s.globalOnly x off n = .ok () := by
  simp only [State.globalOnly, h, Bool.false_eq_true, if_false]

/-- A form whose source is read as it stands: no TCPY.IN, no CPYREG and no CPYIN. -/
def CopyCmd.readsPlain (x : CopyCmd) : Prop :=
  match x.instr with
  | .tcpyIn .. => False
  | .cpyreg .. => False
  | .cpyin .. => False
  | _ => True

/-- The result of the read is named before the form is looked at, so that nothing looks into the read. -/
theorem copyRead_plain (h : x.readsPlain) : s.copyRead x off n = s.engRead x copySrcKinds (x.src.toNat + off) n := by
  unfold CopyCmd.readsPlain at h
  obtain ⟨r, hr⟩ : ∃ r, s.engRead x copySrcKinds (x.src.toNat + off) n = r := ⟨_, rfl⟩
  simp only [State.copyRead, hr]
  split
  next hi => rw [hi] at h; exact h.elim
  next hi => rw [hi] at h; exact h.elim
  next hi => rw [hi] at h; exact h.elim
  next => rfl

section cpyin

variable (hi : x.instr = .cpyin d va b sz bar vdst vg comp toa ao bo)
include hi

theorem copyRead_cpyin : s.copyRead x off n = s.inRead x vdst (x.src.toNat + off) n := by
  obtain ⟨f, hf⟩ : ∃ f, State.inRead s x = f := ⟨_, rfl⟩
  simp only [State.copyRead, hf]
  rw [hi]

theorem copyRead_cpyin_group (h : vdst = 1) : s.copyRead x off n = s.engRead x anyKind (x.src.toNat + off) n := by
  rw [copyRead_cpyin hi, State.inRead, h]
  exact if_neg fun hand => absurd hand.1 (by decide)

/-- A source of a CPYIN that touches no window is read whatever its class (R229). -/
theorem copyRead_cpyin_outside (h : touchesWindows (x.src.toNat + off) n = false) :
    s.copyRead x off n = s.engRead x anyKind (x.src.toNat + off) n := by
  rw [copyRead_cpyin hi, State.inRead, globalOnly_outside h]
  exact ite_self _

theorem copyWrite_cpyin_group (h : vdst = 1) : s.copyWrite x off bs = .ok (s.putGroup x.ref.cid va off bs) := by
  simp only [State.copyWrite, hi, if_pos h]

theorem copyWrite_cpyin_window (h : vdst ≠ 1) : s.copyWrite x off bs = .ok (s.putIs x.ref.cid (x.dst.toNat + off) bs) := by
  simp only [State.copyWrite, hi, if_neg h]

end cpyin

/-- A CPYOUT writes a page that is no COMP page as it stands (R228, R245). -/
theorem copyWrite_cpyout (hi : x.instr = .cpyout d a b sz bar comp toa ao bo) {pl : Place}
    (hp : s.dstPlace x (x.dst.toNat + off) = some pl) (hk : pl.kind ≠ .comp) :
    s.copyWrite x off bs = s.engWrite x (off / 64) (x.dst.toNat + off) bs := by
  obtain ⟨r, hr⟩ : ∃ r, s.engWrite x (off / 64) (x.dst.toNat + off) bs = r := ⟨_, rfl⟩
  simp only [State.copyWrite, hr, hp, if_neg hk]
  rw [hi]

theorem copyWrite_scpy (hi : x.instr = .scpy d a b sz bar comp toa ao bo) :
    s.copyWrite x off bs = s.engWrite x (off / 64) (x.dst.toNat + off) bs := by
  obtain ⟨r, hr⟩ : ∃ r, s.engWrite x (off / 64) (x.dst.toNat + off) bs = r := ⟨_, rfl⟩
  simp only [State.copyWrite, hr]
  rw [hi]

theorem copyRead_cpyreg (hi : x.instr = .cpyreg d va vb sz bar aux vg comp toa) :
    s.copyRead x off n = .ok ((s.ctx x.ref.cid).groupBytes vb off n) := by
  simp only [State.copyRead, hi]

/-- A CPYREG writes the registers of its target, where the context is resident and a route leads to its core (R238; 18_link
R422). -/
theorem copyWrite_cpyreg (hi : x.instr = .cpyreg d va vb sz bar aux vg comp toa) {cid : Nat} (ht : s.cpyregTarget x = some cid)
    (hp : (s.ctx cid).present = true) (hr : (s.coreRoute x.core (s.ctx cid).core).isSome = true) :
    s.copyWrite x off bs = .ok (s.putGroup cid va off bs) := by
  simp only [State.copyWrite, hi, ht, hp, State.regWrite, hr, Bool.or_true, if_true]

/-- The elements of a tile at packed offsets, read one by one: zeros outside the tensor (R242). -/
def State.tensorElems (s : State) (x : CopyCmd) (off n : Nat) : List (Eng (List Byte)) :=
  (List.range (n / tdEsz x.desc)).map (fun i =>
    match tdAddr x.desc x.tile (off / tdEsz x.desc + i) with
    | none => .ok (List.replicate (tdEsz x.desc) 0)
    | some a => (s.globalOnly x a (tdEsz x.desc)).bind (fun _ => s.engRead x copySrcKinds a (tdEsz x.desc)))

theorem copyRead_tcpyIn (hi : x.instr = .tcpyIn d a b bar comp toa t0 t1 t2 t3 ao) {z : List (List Byte)}
    (hz : Eng.all (s.tensorElems x off n) = .ok z) : s.copyRead x off n = .ok z.flatten := by
  have hread : s.tensorRead x off n = .ok z.flatten := by
    exact congrArg (fun m : Eng (List (List Byte)) => m.bind fun bss => Eng.ok bss.flatten) hz
  simp only [State.copyRead, hread]
  rw [hi]

theorem copyWrite_tcpyIn (hi : x.instr = .tcpyIn d a b bar comp toa t0 t1 t2 t3 ao) :
    s.copyWrite x off bs = .ok (s.putIs x.ref.cid (x.dst.toNat + off) bs) := by
  simp only [State.copyWrite, hi]

theorem copyWrite_tcpyOut (hi : x.instr = .tcpyOut d a b bar comp toa t0 t1 t2 t3 ao) :
    s.copyWrite x off bs = tensorWrite x off bs s := by
  obtain ⟨r, hr⟩ : ∃ r, tensorWrite x off bs s = r := ⟨_, rfl⟩
  simp only [State.copyWrite, hr]
  rw [hi]

end forms

section fold

/-- What the terms of a fold make together: in order as they stand, or in an order that is free (R239; notes/assumptions/6). -/
def State.foldedTerms (s : State) (op : Nat) (ordered : Bool) (vs : List Val) : Val × Nat :=
  if ordered then ((match vs with | [] => Val.zero | v :: rest => rest.foldl (foldVal op) v), s.freeCtr)
  else foldFree op vs.length s.freeCtr vs

variable {s : State} {y : CopyCmd} {vs : List Val} {pl : Place} {va m : Nat} {r : List (Place × Nat × Nat)}

/-- The update of an element of a CPYFOLD, whose terms have been read and whose target is a SYNC page that nothing holds up. -/
theorem foldUnit_updates {op j : Nat} {ordered : Bool} (ht : s.foldTerms y j = .ok vs)
    (hl : s.locate (s.copyWho y) 2 .write (y.dst.toNat + 4 * j) 4 = .ok (.pages ((pl, va, m) :: r))) (hk : pl.kind = .sync)
    (hm : s.migrating .sync pl.pa = false) (hb : s.behind y.core .sync pl.pa 4 = false)
    (he : s.eccCheck y.core 2 [(pl, va, 4)] = none) : s.foldUnit y op ordered j =
      .ok (({ s with freeCtr := (s.foldedTerms op ordered vs).2 } : State).syncWrite (s.copyWho y) pl.pa (bytesOfNat 4
        (f32Bits (foldVal op (f32Val (natOfBytes (s.memBytes pl.pa 4))) (s.foldedTerms op ordered vs).1))), y, 4 * vs.length) := by
  simp only [State.foldUnit, ht, hl, MemRes.eng, Eng.bind, hk, hm, hb, he, ne_eq, not_true_eq_false, Bool.or_self, Bool.false_eq_true,
    Option.isSome_none, if_false]
  rfl

end fold

section exports

variable {s : State} {x : CopyCmd} {pl : Place} {va m : Nat} {r : List (Place × Nat × Nat)}

/-- The page of an EXPORT: a COMP page that nothing holds up (R246). -/
structure State.ExportsPage (s : State) (x : CopyCmd) (pl : Place) : Prop where
  located : ∃ va m r, s.locate (s.copyWho x) 1 .nothing (x.src.toNat / 65536 * 65536) 65536 = .ok (.pages ((pl, va, m) :: r))
  comp    : pl.kind = .comp
  stays   : s.migrating .comp pl.pa = false
  free    : s.behind x.core .comp pl.pa 65536 = false

/-- The record of an EXPORT of a page (R246). -/
def State.exportRecord (s : State) (x : CopyCmd) (pa : Nat) : List Word :=
  [BitVec.ofNat 64 (x.src.toNat / 65536 * 65536), BitVec.ofNat 64 pa, BitVec.ofNat 64 (imageLength (s.frameImage pa)),
    s.wgenOf (frameKey .comp pa)]

/-- What an EXPORT of a page does after its raise, by what the raise has left and found (R246). -/
def exportEnd (w : Who) (x : CopyCmd) (pa : Nat) (k : State × Nat) : Eng (State × CopyCmd × Nat) :=
  let ring := (k.1.tenant w.tenant).texport.toNat
  if 0 < k.2 then .fail 8 0
  else match k.1.badHalf x.core pa 136 with
    | some half => .fail 6 0 (x.src.toNat / 65536 * 65536 + (32 * half - pa))
    | none =>
      if ring = 0 then .ok (k.1, x, 65536)
      else if !k.1.routeTo x.core .hostmem ring then .fail 6 0 (x.src.toNat / 65536 * 65536)
      else match k.1.ringPut ring (k.1.hostWord (ring + 8)) (k.1.exportRecord x pa) with
        | some t => .ok (t, x, 65536)
        | none => .wait

theorem MemRes.eng_ok {α : Type} (a : α) : (MemRes.ok a).eng = .ok a := rfl

theorem Eng.bind_ok {α β : Type} (a : α) (f : α → Eng β) : (Eng.ok a).bind f = f a := rfl

/-- The unit of an EXPORT whose page nothing holds up. The functions that walk over the page's granules are named first, so that
nothing looks into them. -/
theorem exportUnit_eq (h : s.ExportsPage x pl) :
    s.exportUnit x = exportEnd (s.copyWho x) x pl.pa (s.exportTurn x.core pl.pa) := by
  obtain ⟨va, m, r, hl⟩ := h.located
  have hfree := h.free
  obtain ⟨turn, hturn⟩ : ∃ f, s.exportTurn = f := ⟨_, rfl⟩
  obtain ⟨locate, hlocate⟩ : ∃ f, s.locate (s.copyWho x) 1 .nothing = f := ⟨_, rfl⟩
  obtain ⟨behind, hbehind⟩ : ∃ f, s.behind x.core .comp = f := ⟨_, rfl⟩
  have hnot : ¬ pl.kind ≠ .comp := fun hne => hne h.comp
  rw [hlocate] at hl
  rw [hbehind] at hfree
  simp only [State.exportUnit, hlocate, hturn, hbehind]
  rw [hl, MemRes.eng_ok, Eng.bind_ok]
  refine (if_neg hnot).trans ((if_neg ?_).trans ?_)
  · rw [h.stays, hfree]
    exact Bool.false_ne_true
  · generalize turn x.core pl.pa = k
    unfold exportEnd State.exportRecord
    refine if_congr Iff.rfl rfl ?_
    cases k.1.badHalf x.core pl.pa 136 with
    | some half => rfl
    | none =>
      refine if_congr Iff.rfl rfl (if_congr Iff.rfl rfl ?_)
      generalize State.ringPut .. = put
      cases put <;> rfl

/-- The raises stay where an EXPORT ends so. -/
theorem exportRaise_eq (h : s.ExportsPage x pl) {d b : SReg} (hi : x.instr = .exportPage d b) :
    s.exportRaise x = (s.exportTurn x.core pl.pa).1 := by
  obtain ⟨va, m, r, hl⟩ := h.located
  obtain ⟨turn, hturn⟩ : ∃ f, s.exportTurn = f := ⟨_, rfl⟩
  simp only [State.exportRaise, hturn]
  simp only [hl, h.comp, if_true]
  rw [hi]

section ends

variable {w : Who} {k : State × Nat} {pa : Nat}

/-- A raise that has found a copy of another core ends the EXPORT with code 8. -/
theorem exportEnd_foreign (hf : 0 < k.2) : exportEnd w x pa k = .fail 8 0 := if_pos hf

variable (hf : k.2 = 0) (hbad : k.1.badHalf x.core pa 136 = none)
include hf hbad

/-- An EXPORT ends without a record where its tenant has no ring (notes/assumptions/44). -/
theorem exportEnd_silent (hz : (k.1.tenant w.tenant).texport.toNat = 0) : exportEnd w x pa k = .ok (k.1, x, 65536) := by
  rw [exportEnd, hf, hbad]
  exact if_pos hz

variable {ring : Nat} (hb : (k.1.tenant w.tenant).texport.toNat = ring) (hz : ring ≠ 0)
  (hr : k.1.routeTo x.core .hostmem ring = true)
include hb hz hr

/-- An EXPORT writes its record to the ring (R246). -/
theorem exportEnd_records {t : State} (hp : k.1.ringPut ring (k.1.hostWord (ring + 8)) (k.1.exportRecord x pa) = some t) :
    exportEnd w x pa k = .ok (t, x, 65536) := by
  rw [exportEnd, hf, hbad, hb, hr, hp]
  exact if_neg hz

/-- An EXPORT waits while its ring is full (notes/assumptions/44). -/
theorem exportEnd_waits (hp : k.1.ringPut ring (k.1.hostWord (ring + 8)) (k.1.exportRecord x pa) = none) :
    exportEnd w x pa k = .wait := by
  rw [exportEnd, hf, hbad, hb, hr, hp]
  exact if_neg hz

end ends

/-- The walk of an EXPORT's raise over the granules of its page. -/
theorem exportTurn_eq (core pa : Nat) : s.exportTurn core pa =
    ((((List.range 1024).map (fun g => granKey .comp (pa + 64 * g))).foldl (turnCopy core .host) (s, 0)).1.dropStrips
      (fun _ => true) ((List.range 1024).map (fun g => granKey .comp (pa + 64 * g))),
      (((List.range 1024).map (fun g => granKey .comp (pa + 64 * g))).foldl (turnCopy core .host) (s, 0)).2) := rfl

/-- A step of an EXPORT, by what its raise `k` has left and found. -/
theorem exec_exports (hc : s.CopyGoes x) {d b : SReg} (hi : x.instr = .exportPage d b) (h : s.ExportsPage x pl) {k : State × Nat}
    (hk : s.exportTurn x.core pl.pa = k) {ring : Nat} (hring : (k.1.tenant (s.copyWho x).tenant).texport.toNat = ring) :
    (0 < k.2 → exec .copyAtom s = .next (k.1.withCopy { x with status := some (errStatus 8 0 x.retired) })) ∧
    (k.2 = 0 → k.1.badHalf x.core pl.pa 136 = none →
      (ring = 0 → exec .copyAtom s = .next ((k.1.retireBytes x 65536).1.withCopy (k.1.retireBytes x 65536).2.settle)) ∧
      (ring ≠ 0 → k.1.routeTo x.core .hostmem ring = true →
        (∀ t, k.1.ringPut ring (k.1.hostWord (ring + 8)) (k.1.exportRecord x pl.pa) = some t →
          exec .copyAtom s = .next ((t.retireBytes x 65536).1.withCopy (t.retireBytes x 65536).2.settle)) ∧
        (k.1.ringPut ring (k.1.hostWord (ring + 8)) (k.1.exportRecord x pl.pa) = none → exec .copyAtom s = .next s))) := by
  have hunit := exportUnit_eq h
  have hraise := exportRaise_eq h hi
  rw [hk] at hunit hraise
  refine ⟨fun hf => ?_, fun hf hbad => ⟨fun hz => ?_, fun hz hr => ⟨fun t ht => ?_, fun ht => ?_⟩⟩⟩
  · refine (execCopyAtom_exportFails hc hi (hunit.trans (exportEnd_foreign hf))).trans ?_
    rw [hraise]
    rfl
  · exact execCopyAtom_exportEnds hc hi (hunit.trans (exportEnd_silent hf hbad (hring.trans hz)))
  · exact execCopyAtom_exportEnds hc hi (hunit.trans (exportEnd_records hf hbad hring hz hr ht))
  · exact execCopyAtom_exportWaits hc hi (hunit.trans (exportEnd_waits hf hbad hring hz hr ht))


end exports

end Sys2Proof.Machine
end

section
/-! SUPPORT. The end of a copy: what retires and is posted, the stamp of SCPY, and the token (10_copies R230–R233, R240; 12_context
R287). -/

namespace Sys2Proof.Machine

section retire

variable {s : State} {x : CopyCmd}

/-- Nothing retires while the next atom has not been moved, or a multicast of it is under way, or the barrier runs a collective,
or all has retired. -/
theorem retireAtoms_stops (n : Nat) (h : x.moved.contains (x.retired / 64) = false ∨ s.atomDone x (x.retired / 64) = false ∨
    s.postWaits x = true ∨ x.total ≤ x.retired) : retireAtoms n (s, x) = (s, x) := by
  cases n with
  | zero => rfl
  | succ n =>
    refine if_neg fun ⟨hleft, hmoved, hdone, hpost⟩ => ?_
    rcases h with hno | hno | hno | hno
    · exact Bool.false_ne_true (hno.symm.trans hmoved)
    · exact Bool.false_ne_true (hno.symm.trans hdone)
    · rw [hno] at hpost
      exact Bool.false_ne_true hpost
    · exact absurd hleft (Nat.not_lt.2 hno)

/-- The next atom retires with its bytes, at most 64 (R230, R233). -/
theorem retireAtoms_next (n : Nat) (hm : x.moved.contains (x.retired / 64) = true) (hd : s.atomDone x (x.retired / 64) = true)
    (hp : s.postWaits x = false) (hl : x.retired < x.total) :
    retireAtoms (n + 1) (s, x) = retireAtoms n (s.retireBytes x (min 64 (x.total - x.retired))) :=
  if_pos ⟨hl, hm, hd, by rw [hp]; rfl⟩

end retire

section stamp

variable {s t : State} {x : CopyCmd} {bs : List Byte}

/-- An SCPY that may write its stamp (R240): its payload has retired, and its barrier runs no collective. -/
structure State.StampGoes (s : State) (x : CopyCmd) : Prop where
  named   : s.copy s.evArg.a = some x
  stamps  : x.stamps = true
  started : x.started = true
  going   : x.status = none
  served  : x.record = none
  sound   : x.fail = none
  retired : x.retired = x.total
  posts   : s.postWaits x = false

theorem State.StampGoes.not_held (h : s.StampGoes x) : ¬ ((!x.stamps) = true ∨ (!x.started) = true ∨ x.status.isSome = true ∨
    x.record.isSome = true ∨ x.fail.isSome = true ∨ x.retired ≠ x.total ∨ s.postWaits x = true) := by
  simp only [h.stamps, h.started, h.going, h.served, h.sound, h.retired, h.posts, Bool.not_true, Option.isSome_none,
    Bool.false_eq_true, ne_eq, not_true_eq_false, or_self, not_false_eq_true]

theorem execScpyStamp_writes (h : s.StampGoes x) (hn : x.stamped = false)
    (hr : s.engRead x copySrcKinds (x.src.toNat + x.total) 8 = .ok bs)
    (hw : s.engWrite x (x.total / 64 + 1) (x.dst.toNat + x.total) bs = .ok t) :
    execScpyStamp s = .next (t.endStamp { x with stamped := true }) := by
  simp only [execScpyStamp, h.named, if_neg h.not_held, hn, Bool.false_eq_true, if_false, hr, hw, Eng.bind]

theorem execScpyStamp_written (h : s.StampGoes x) (hs : x.stamped = true) : execScpyStamp s = .next (s.endStamp x) := by
  simp only [execScpyStamp, h.named, if_neg h.not_held, hs, if_true]

/-- The stamp ends the command once every replica has it (R240). -/
theorem endStamp_ends (h : s.effectsDone x = true) : s.endStamp x = (s.retireBytes x 8).1.withCopy { (s.retireBytes x 8).2 with
    status := some (BitVec.ofNat 64 (x.total + 8)) } := if_pos h

theorem endStamp_waits (h : s.effectsDone x = false) : s.endStamp x = s.withCopy x :=
  if_neg (Bool.eq_false_iff.1 h)

/-- A multicast of an atom that is under way keeps its atom and its command from being done (11_ordering R265). -/
theorem packet_holds {i : Nat} {p : Packet} (hp : p ∈ s.packets) (hc : p.copy = some (x.id, i)) :
    s.effectsDone x = false ∧ s.atomDone x i = false := by
  unfold State.effectsDone State.atomDone
  rw [Bool.not_eq_false', Bool.not_eq_false', List.any_eq_true, List.any_eq_true]
  exact ⟨⟨p, hp, by simp only [hc, decide_true]⟩, ⟨p, hp, decide_eq_true hc⟩⟩

end stamp

section token

variable {s : State} {x : CopyCmd} {w : Word} (hx : s.copy s.evArg.a = some x) (hw : x.status = some w)
include hx hw

theorem execTokenWrite_waits (h : s.effectsDone x = false) : execTokenWrite s = .next s := by
  simp only [execTokenWrite, hx, hw, h, Bool.false_eq_true, if_false]

theorem execTokenWrite_delivers (h : s.effectsDone x = true) : execTokenWrite s = .next ((s.dropCopy x).deliverToken x w) := by
  simp only [execTokenWrite, hx, hw, h, if_true]

omit hx hw

/-- A command of a context that lives leaves its queue, and nothing else changes. -/
theorem dropCopy_live (h : (s.ctx x.ref.cid).slotState ≠ .free) : s.dropCopy x =
    s.withCopyQueue x.core ((s.copyQueue x.core).filter (fun y => decide (y.id ≠ x.id))) :=
  if_neg fun hfree => h hfree.1

/-- The hart whose register a token has reached: the word is written, the register is free, and where the word says ERROR its
unread-error bit is set (R231, R232; 12_context R287). -/
def Hart.tokened (h : Hart) (n : Nat) (w : Word) : Hart :=
  { h.writeS (BitVec.ofNat 5 n) w with
    busy := h.busy.filter (fun m => decide (m ≠ n))
    unread := if bit w 63 then insertNat h.unread n else h.unread }

theorem deliverToken_reg {n : Nat} (ht : x.tok = .reg n) (h : (s.ctx x.ref.cid).slotState ≠ .free) :
    s.deliverToken x w = s.withHart x.ref ((s.hart x.ref).tokened n w) := by
  simp only [State.deliverToken, ht, if_neg h]
  rfl

end token

end Sys2Proof.Machine

namespace Sys2Proof

open Machine

/-- Settles O44: the engine's moves, one equation a branch, from the start of a command over its units and what retires to its
token. -/
theorem copyEngine : Obligations.CopyEngine := by
  unfold Obligations.CopyEngine
  refine ⟨fun s x hx hnew hrec hmay => ?start, fun x => settle_ends,
    fun s x hx hst hgo hrec hpost hleft hform => ?atoms, fun s x off n bs => ?forms,
    fun s x vs pl va m r hx hst hgo hrec hpost hleft d a b sz bar fold ordered comp toa ao bo hi => ?fold,
    fun s x d b pl va m r hx hst hgo hrec hpost hleft hi => ?exports, fun n s x => ⟨retireAtoms_stops n, retireAtoms_next n⟩,
    fun s x bs t hx hstamps hst hgo hrec hfail hret hpost => ?stamp, fun s x i p => packet_holds,
    fun s x w hx hw => execTokenWrite_waits hx hw, fun s x w n hx hw hdone ht hpos hlt hlive => ?token⟩
  case start =>
    have hs : s.CopyStarts x := ⟨hx, hnew, hrec, hmay⟩
    refine ⟨fun w => execCopyStart_ends hs, fun ht h1 w hw => ?_, fun ht h1 hw => ?_, fun hform h1 bs hl => ?_,
      checkFirst_zero⟩
    · exact (execCopyStart_untiled hs ht h1).trans (by rw [startWith_ends hw])
    · exact (execCopyStart_untiled hs ht h1).trans (by rw [startWith_goes hw])
    · have hread := execCopyStart_tiled hs (tile_ne_nil hform) h1 hl
      exact ⟨fun w hw => hread.trans (by rw [startWith_ends hw]), fun hw => hread.trans (by rw [startWith_goes hw])⟩
  case atoms =>
    have hc : s.CopyGoes x := ⟨hx, hst, hgo, hrec, hpost, hleft⟩
    refine ⟨?_, ?_⟩
    · intro hasc hopen off bs hr
      have hmove := execCopyAtom_atom hc hform hasc hopen
      refine ⟨fun t hv hw => hmove.trans ?_, fun g hv => hmove.trans ?_⟩
      · rw [stepAtom_moves hr hv hw, advanceCopy_eq rfl]
        rfl
      · rw [stepAtom_lands hr hv, advanceCopy_eq (landAtom_total ..)]
        rfl
    · intro hasc hfail p t y n hp hu
      refine (execCopyAtom_ascends hc hform hasc hfail hp).trans ?_
      rw [stepAscending_moves hu, advanceCopy_eq rfl]
  case forms =>
    intro src dst
    split
    next hi =>
      exact ⟨fun h => ⟨copyRead_cpyin_group hi h, copyWrite_cpyin_group hi h⟩, copyWrite_cpyin_window hi,
        copyRead_cpyin_outside hi⟩
    next hi => exact ⟨copyRead_plain (by rw [CopyCmd.readsPlain, hi]; trivial), fun pl => copyWrite_cpyout hi⟩
    next hi => exact ⟨copyRead_plain (by rw [CopyCmd.readsPlain, hi]; trivial), copyWrite_scpy hi⟩
    next hi => exact ⟨copyRead_cpyreg hi, fun cid => copyWrite_cpyreg hi⟩
    next hi => exact ⟨copyWrite_tcpyIn hi, fun z => copyRead_tcpyIn hi⟩
    next hi => exact ⟨copyRead_plain (by rw [CopyCmd.readsPlain, hi]; trivial), copyWrite_tcpyOut hi⟩
    next => trivial
  case fold =>
    intro j y ht hl hk hm hb he f z s1 p
    have hc : s.CopyGoes x := ⟨hx, hst, hgo, hrec, hpost, hleft⟩
    have hz : s.foldedTerms (fold.toNat + 1) (decide (ordered = 1)) vs = z := by
      simp only [State.foldedTerms, decide_eq_true_eq]
      rfl
    refine (execCopyAtom_fold hc hi).trans ?_
    rw [foldUnit_updates (y := y) ht hl hk hm hb he, stepUnit_ok, hz]
    rfl
  case exports =>
    intro a hl hk hm hb
    have hc : s.CopyGoes x := ⟨hx, hst, hgo, hrec, hpost, hleft⟩
    exact exec_exports hc hi ⟨⟨va, m, _, hl⟩, hk, hm, hb⟩ (exportTurn_eq ..) rfl
  case stamp =>
    have hs : s.StampGoes x := ⟨hx, hstamps, hst, hgo, hrec, hfail, hret, hpost⟩
    exact ⟨execScpyStamp_writes hs, execScpyStamp_written hs, endStamp_ends, endStamp_waits⟩
  case token =>
    have hctx : ((s.dropCopy x).ctx x.ref.cid).slotState ≠ .free := by rwa [dropCopy_live hlive]
    have hhart : (s.dropCopy x).hart x.ref = s.hart x.ref := by rw [dropCopy_live hlive]; rfl
    refine ⟨_, execTokenWrite_delivers hx hw hdone, ?_⟩
    rw [deliverToken_reg ht hctx, State.hart_withHart, hhart, dropCopy_live hlive]
    exact ⟨rfl, rfl, rfl, rfl, State.copyQueue_withCopyQueue ..⟩

end Sys2Proof
end

section
/-! SUPPORT. Streams: a register bound and unbound, what a refill and a strip hold, and an entry that pops
the strip of a bound register (10_copies R247–R249). -/

namespace Sys2Proof.Machine

section readings

variable {α : Type} {l : List (MemRes α)} {xs : List α}

/-- A list of readings answers where each of them does. -/
theorem MemRes.all_ok (h : MemRes.all l = .ok xs) : l = xs.map .ok := by
  induction l generalizing xs with
  | nil =>
    cases h
    rfl
  | cons m r ih =>
    cases m with
    | ok x =>
      rw [MemRes.all] at h
      cases hr : MemRes.all r with
      | ok ys =>
        rw [hr] at h
        cases h
        rw [List.map_cons, ih hr]
      | trap t => rw [hr] at h; cases h
      | stall => rw [hr] at h; cases h
    | trap t => cases h
    | stall => cases h

theorem MemRes.all_length (h : MemRes.all l = .ok xs) : xs.length = l.length := by
  rw [MemRes.all_ok h, List.length_map]

end readings

section binding

variable {s : State} {d : VReg} {a : SReg} {bs : List Byte}

/-- A register bound to the stream of a descriptor at its element 0, beside the streams of a table; its tag is the type of the
output (R248). -/
def State.bindTo (s : State) (d : VReg) (desc : List Word) (table : Table Stream) : State :=
  s.withMyCtx { s.myCtx.setTag d (BitVec.ofNat 12 (strOut desc)) with
    streams := tput table d.toNat { desc := desc, pos := 0, strips := [] } }

theorem bindStream_binds {n : Nat} {ill : Nat → Trap} {k : State → Res}
    (hl : s.loadFor (s.who s.cur) 1 .read loadKinds 8 n 64 = .ok bs) (hm : strMalformed s.myCtx (wordsOfBytes 8 bs) = false)
    (hroom : s.myCtx.streams.length < 4) : bindStream d n ill k s = k (s.bindTo d (wordsOfBytes 8 bs) s.myCtx.streams) := by
  have hfree : ¬ (4 ≤ s.myCtx.streams.length ∧ (tget s.myCtx.streams d.toNat).isNone = true) :=
    fun hfull => absurd hroom (Nat.not_lt.2 hfull.1)
  simp only [bindStream, hl, MemRes.elim, hm, Bool.false_eq_true, if_false, if_neg hfree]
  rfl

/-- Whether a descriptor is malformed does not look at the harts. -/
theorem strMalformed_withHart (c : Ctx) (k : HartKind) (h : Hart) : strMalformed (c.withHart k h) = strMalformed c := by
  cases k <;> rfl

/-- SBIND on the fetch hart binds at once (R248). -/
theorem exec_sbind_fetch (hp : s.Plain) (hk : s.cur.kind = .fh) (hr : s.Ready [a] [])
    (hl : (s.reading [a]).loadFor (s.who s.cur) 1 .read loadKinds 8 (s.readS a).toNat 64 = .ok bs)
    (hm : strMalformed s.myCtx (wordsOfBytes 8 bs) = false) (hroom : s.myCtx.streams.length < 4) :
    exec (.sbind d a) s = .next (((s.reading [a]).bindTo d (wordsOfBytes 8 bs) s.myCtx.streams).advance 4) := by
  have hctx : (s.reading [a]).myCtx = s.myCtx.withHart s.cur.kind (s.me.clearRead [a]) := State.myCtx_withMe ..
  have hwho : (s.reading [a]).who (s.reading [a]).cur = s.who s.cur := by
    have hcore : ((s.reading [a]).ctx s.cur.cid).core = (s.ctx s.cur.cid).core := core_reading
    have htenant : ((s.reading [a]).ctx s.cur.cid).tenant = (s.ctx s.cur.cid).tenant :=
      congrArg Ctx.tenant hctx |>.trans (by rw [hk]; rfl)
    rw [State.cur_reading, State.who, hcore, htenant]
    rfl
  have hfetch : exec (.sbind d a) s = onlyOn [.ch, .fh] (scalar [a] [] (impureOnly 7 (fun s =>
      bindStream d (s.readS a).toNat (fun n => illegal s n 0) (fun s => .done (s.advance 4)) s))) s :=
    if_neg (by rw [hk]; decide)
  refine hfetch.trans ((onlyOn_own s (by rw [hk]; rfl)).trans ?_)
  refine scalar_done _ _ _ _ _ hr ?_
  rw [impureOnly_plain _ _ _ _ hp]
  rw [← streams_reading (reads := [a])] at hroom ⊢
  refine bindStream_binds ?_ ?_ hroom
  · rwa [hwho, State.readS_reading]
  · rwa [hctx, strMalformed_withHart]

/-- SBIND on the compute hart binds in its place in the queue (R248). -/
theorem effectOf_sbind (hp : s.Plain) (hk : s.cur.kind = .ch) {t : State} (ht : t = s.issued (.sbind d a) 4 [a] [])
    (hl : t.loadFor (t.who t.cur) 1 .read loadKinds 8 (s.readS a).toNat 64 = .ok bs)
    (hm : strMalformed s.myCtx (wordsOfBytes 8 bs) = false) (hroom : s.myCtx.streams.length < 4) :
    effectOf (s.entryOf (.sbind d a) [a]) t = .done (t.bindTo d (wordsOfBytes 8 bs) s.myCtx.streams) := by
  obtain ⟨h, hctx⟩ := issued_myCtx s (.sbind d a) 4 [a] [] hk
  have hplain : t.me.checkedBy = none := by rwa [ht, checkedBy_issued]
  have heff : effectOf (s.entryOf (.sbind d a) [a]) t = bindStream d (s.readS a).toNat (s.entryOf (.sbind d a) [a]).illegal
      (fun s => .done s) t := by
    show impureOnly 7 _ t = _
    simp only [impureOnly, hplain, entryOf_op0]
  rw [← ht] at hctx
  have hstreams : s.myCtx.streams = t.myCtx.streams := by rw [hctx]
  rw [heff, hstreams]
  refine bindStream_binds hl ?_ (hstreams ▸ hroom)
  rw [hctx]
  exact hm

/-- SFREE on the fetch hart unbinds at once (R248). -/
theorem exec_sfree_fetch (hk : s.cur.kind = .fh) (hr : s.Ready [] []) :
    exec (.sfree d) s = .next (((s.reading []).withMyCtx ((s.reading []).myCtx.unbind d)).advance 4) := by
  have hfetch : exec (.sfree d) s = onlyOn [.ch, .fh] (scalar [] [] (fun s =>
      .done ((s.withMyCtx (s.myCtx.unbind d)).advance 4))) s := if_neg (by rw [hk]; decide)
  exact hfetch.trans ((onlyOn_own s (by rw [hk]; rfl)).trans (scalar_done _ _ _ _ _ hr rfl))

/-- SFREE on the drain hart is Illegal 7 (02_machine R20). -/
theorem exec_sfree_drain (hk : s.cur.kind = .dh) : exec (.sfree d) s = .next (s.scalarTrap (illegal s 7 0)) := by
  have hother : exec (.sfree d) s = onlyOn [.ch, .fh] (scalar [] [] (fun s =>
      .done ((s.withMyCtx (s.myCtx.unbind d)).advance 4))) s := if_neg (by rw [hk]; decide)
  exact hother.trans (onlyOn_other s (by rw [hk]; rfl))

/-- SFREE on the compute hart unbinds in its place in the queue (R248). -/
theorem exec_sfree_queue (hk : s.cur.kind = .ch) : exec (.sfree d) s = issueV (.sfree d) 4 [] [] noCheck noCheck s := if_pos hk

end binding

section strips

variable {s : State} {st : Stream} {w : Who} {vs xs : List Nat} {fill n : Nat}

/-- The words of a strip are those of the elements read (R249). -/
theorem buffered_words (d : List Word) (pos : Nat) (h : xs.length = n) :
    (((List.range n).zip xs).map (fun p => s.buffered w d (pos + p.1) p.2)).map (·.word) = xs.map (BitVec.ofNat 64) := by
  have hword : ((·.word) ∘ fun p : Nat × Nat => s.buffered w d (pos + p.1) p.2) = BitVec.ofNat 64 ∘ Prod.snd := rfl
  rw [List.map_map, hword, ← List.map_map, List.map_snd_zip (by rw [List.length_range, h])]

/-- A refill buffers the next strip where fewer than two stand, while the context issues (R249). -/
theorem execStreamRefill_buffers (hst : tget (s.ctx s.evArg.a).streams s.evArg.b = some st) (hlen : st.strips.length < 2)
    (hissues : (s.ctx s.evArg.a).slotState = .issuing) (hne : xs ≠ [])
    (hw : s.who { cid := s.evArg.a, kind := .ch } = w) {pos : Nat} (hpos : st.pos + st.strips.flatten.length = pos)
    (hn : min (s.ctx s.evArg.a).vl (strLen st.desc - pos) = n)
    (hxs : MemRes.all ((List.range n).map (fun i => s.strElem w st.desc (pos + i))) = .ok xs) :
    execStreamRefill s = .next (s.withCtx s.evArg.a { s.ctx s.evArg.a with
      streams := tput (s.ctx s.evArg.a).streams s.evArg.b { st with
        strips := st.strips ++ [((List.range n).zip xs).map (fun p => s.buffered w st.desc (pos + p.1) p.2)] } }) := by
  have hgo : ¬ (2 ≤ st.strips.length ∨ (s.ctx s.evArg.a).slotState ≠ .issuing) :=
    not_or.2 ⟨Nat.not_le.2 hlen, fun h => h hissues⟩
  simp only [execStreamRefill, hst, if_neg hgo, hpos, hn, hw, hxs, if_neg hne]

/-- The reading of a position answers what the element is. -/
theorem stripElem_ok {d : List Word} {k i x : Nat} (h : s.stripElem w d k i = .ok x) : s.strElem w d (k + i) = .ok x := by
  unfold State.stripElem at h
  split at h
  · cases h
  · exact h

/-- A strip holds at each position the fill past the end, what is buffered, or what is read (R249). -/
theorem strip_holds (h : s.strip w st fill n = .ok vs) : vs.length = n ∧ ∀ i < n,
    (strLen st.desc ≤ st.pos + i → vs[i]? = some fill) ∧
    (∀ x, st.pos + i < strLen st.desc → st.strips.flatten[i]? = some x → vs[i]? = some x.word.toNat) ∧
    (st.pos + i < strLen st.desc → st.strips.flatten[i]? = none → s.strElem w st.desc (st.pos + i) = .ok (vs.getD i 0)) := by
  have hall := MemRes.all_ok h
  have hlen : vs.length = n := (MemRes.all_length h).trans (by rw [List.length_map, List.length_range])
  refine ⟨hlen, fun i hi => ?_⟩
  have hx : vs[i]? = some (vs.getD i 0) := by
    rw [List.getD_eq_getElem?_getD, List.getElem?_eq_getElem (hlen ▸ hi), Option.getD_some]
  have hget := congrArg (·[i]?) hall
  simp only [List.getElem?_map, List.getElem?_range hi, hx, Option.map_some, Option.some.injEq] at hget
  rw [hx]
  refine ⟨fun hend => ?_, fun b hin hb => ?_, fun hin hnone => ?_⟩
  · rw [if_pos hend, MemRes.ok.injEq] at hget
    rw [hget]
  · rw [if_neg (Nat.not_le.2 hin), hb, MemRes.ok.injEq] at hget
    rw [hget]
  · rw [if_neg (Nat.not_le.2 hin), hnone] at hget
    exact stripElem_ok hget

end strips

section pops

variable {s t u : State} {f : VEntry → State → Res} {e : VEntry} {a : VReg} {st : Stream} {vs : List Nat} {rs : List VReg}

/-- A context in which an entry has popped n positions of the stream of a register: they hold the strip, and the stream has moved
on (R249). -/
def Ctx.afterPop (c : Ctx) (a : VReg) (w : Nat) (st : Stream) (n : Nat) (vs : List Nat) : Ctx :=
  let p := c.setElems a w ((List.range n).zip vs)
  { p with
    streams := tput p.streams a.toNat (st.popped n)
    viq := modifyAt p.viq 0 (fun x => { x with popped := true }) }

theorem setElems_streams (c : Ctx) (r : VReg) (w : Nat) (xs : List (Nat × Nat)) : (c.setElems r w xs).streams = c.streams := by
  rw [setElems_eq]

/-- Neither a pop nor an issue changes what the checks of an entry look at. -/
theorem valueCheck_afterPop {k : MReg} {d : VReg} {y : Src2} {c : Ctx} {w n : Nat} :
    valueCheck k d a y e (c.afterPop a w st n vs) = valueCheck k d a y e c := by
  rw [Ctx.afterPop, setElems_eq]
  rfl

theorem viq_afterPop {c : Ctx} {w n : Nat} :
    (c.afterPop a w st n vs).viq = modifyAt c.viq 0 (fun x => { x with popped := true }) := by
  show modifyAt (c.setElems a w ((List.range n).zip vs)).viq 0 _ = _
  rw [setElems_viq]

theorem regWidth_afterPop {c : Ctx} {w n : Nat} (d : VReg) : (c.afterPop a w st n vs).regWidth d = c.regWidth d := by
  rw [Ctx.afterPop, setElems_eq]
  rfl

/-- An entry with one bound register pops its strip, and then has its effect (R249). -/
theorem popAndRun_one (hst : tget s.myCtx.streams a.toNat = some st)
    (hv : s.strip (s.who s.cur) st (s.myCtx.fill (s.myCtx.regWidth a)) e.vl = .ok vs) :
    popAndRun f [a] e s = runPopped f [a] e (s.withMyCtx (s.myCtx.afterPop a (s.myCtx.regWidth a) st e.vl vs)) := by
  have hpop : popAll e [a] s = .ok (s.withMyCtx { s.myCtx.setElems a (s.myCtx.regWidth a) ((List.range e.vl).zip vs) with
      streams := tput s.myCtx.streams a.toNat (st.popped e.vl) }) := by
    simp only [popAll, popOne, hst, hv, MemRes.bind]
  have hagain : ∀ c c', (s.withMyCtx c).withMyCtx c' = s.withMyCtx c' := fun c c' => State.withCtx_withCtx ..
  simp only [popAndRun, hpop, State.myCtx_withMyCtx, hagain, Ctx.afterPop, setElems_streams]

/-- An effect that completes, into a register that is not bound, lets an entry pop (R249; 03_encoding R51). -/
theorem popTrap_none {c : Ctx} (hill : streamsIllFormed c rs = false)
    (hfree : (vDests e.instr).any (fun r => (tget c.streams r.toNat).isSome) = false) : popTrap c rs e (.done u) s = none := by
  simp only [popTrap, hill, hfree, Bool.false_eq_true, if_false]

/-- An entry of no pure task whose strips have not been popped pops them, where nothing traps before (R249). -/
theorem runEntry_pops (hp : s.Plain) (hs : s.myCtx.streams ≠ []) (hb : boundSources s.myCtx e.instr = rs) (hne : rs ≠ [])
    (ht : popTrap s.myCtx rs e (f e s) s = none) (hnew : e.popped = false) (hd : entryDetail e.instr = none) :
    runEntry f e s = popAndRun f rs e s := by
  have hplain : s.me.checkedBy = none := hp
  rw [runEntry, codeGuard_inside _ _ _ _ (.inr hp)]
  simp only [runBound, if_neg hs, hb, ht, if_neg hne, hnew, Bool.false_eq_true, if_false, pureOwn, hd, pureStreams, hplain]

theorem runPopped_done (h : f e s = .done u) : runPopped f rs e s = .done u := by
  simp only [runPopped, h]

/-- An entry that nothing holds back and that completes leaves the queue. -/
theorem stepHead_completes {r : List VEntry} (hq : s.myCtx.viq = e :: r) (hj : e.job = none) (hb : s.copyBlocks e = false)
    (h : runEntry f e s = .done u) : stepHead f s = (completeHead e u, true) := by
  simp only [stepHead, hq, hj, hb, h, Option.isSome_none, Bool.or_self, Bool.false_eq_true, if_false]

theorem drainFuel_empty (n : Nat) (h : s.myCtx.viq = []) : drainFuel n s = s := by
  cases n with
  | zero => rfl
  | succ n => simp only [drainFuel, stepHead, h, Bool.false_eq_true, if_false]

/-- The unit stops once the last entry of the queue has completed. -/
theorem drain_last (h : stepHead effectOf s = (u, true)) (hv : u.myCtx.viq = []) : drain s = u := by
  rw [drain, drainFuel]
  simp only [h, if_true]
  exact drainFuel_empty _ hv

end pops

section vadd

variable {s u : State} {xs : BitVec 1} {k : MReg} {d a : VReg} {b : BitVec 5} {st : Stream} {vs : List Nat}

/-- Element j of VADD over what a pop has left in c2: its types are those of the context before (R249; 06_vector R125). -/
def poppedSum (d a : VReg) (y : Src2) (e : VEntry) (c c2 : Ctx) (j : Nat) : Nat × FFlags :=
  let m := c2.srcVal e a j
  let q := c2.src2Val e a y j
  let z := m.1.add e.rm q.1
  e.toDest (c.regType d) (c.intReg a && c.src2Int a y) (z.1, (m.2.or q.2).or z.2)

theorem binaryResult_afterPop {y : Src2} {e : VEntry} {c c2 : Ctx} {w n : Nat} (h : c.afterPop a w st n vs = c2) :
    binaryResult d a y (fun _ r x y => x.add r y) e c2 = poppedSum d a y e c c2 := by
  have htype : c2.regType = c.regType := by rw [← h, Ctx.afterPop, setElems_eq]; rfl
  have hint : c2.intReg = c.intReg := by rw [← h, Ctx.afterPop, setElems_eq]; rfl
  have hsource : c2.src2Int = c.src2Int := by rw [← h, Ctx.afterPop, setElems_eq]; rfl
  funext j
  simp only [binaryResult, poppedSum, htype, hint, hsource]

/-- The entry of VADD at its issue. -/
def State.vaddEntry (s : State) (xs : BitVec 1) (k : MReg) (d a : VReg) (b : BitVec 5) : VEntry :=
  s.entryOf (.vadd xs k d a b) (xsReads xs b)

variable {e : VEntry} (he : s.vaddEntry xs k d a b = e)
include he

/-- The effect of VADD, its checks passed. -/
theorem effectOf_vadd (h : valueCheck k d a (s.xsSource xs b) e u.myCtx = none) :
    effectOf e u = .done (u.writeResults d (u.myCtx.regWidth d) 0x30 ((u.myCtx.actives e k).map (fun j =>
      (j, binaryResult d a (s.xsSource xs b) (fun _ r x y => x.add r y) e u.myCtx j)))) := by
  subst he
  show vecBinary (fun _ r x y => x.add r y) xs k d a b (s.entryOf _ (xsReads xs b)) u = _
  rw [vecBinary, src2_xsSource]
  exact vChecked_none _ _ _ h

variable (hfree : tget u.myCtx.streams d.toNat = none)
include hfree

/-- VADD whose checks pass goes on to its pops: va is bound, and vd is not (R249). -/
theorem popTrap_vadd (hill : streamsIllFormed u.myCtx [a] = false)
    (hcheck : valueCheck k d a (s.xsSource xs b) e u.myCtx = none) : popTrap u.myCtx [a] e (effectOf e u) u = none := by
  rw [effectOf_vadd he hcheck]
  refine popTrap_none hill ?_
  subst he
  show ((tget u.myCtx.streams d.toNat).isSome || false) = false
  rw [hfree]
  rfl

/-- VADD at the head whose va is bound adds what its pop has left (R249; 06_vector R125). -/
theorem runEntry_vadd_bound (hst : tget u.myCtx.streams a.toNat = some st) (hp : u.Plain)
    (hsrc : boundSources u.myCtx (.vadd xs k d a b) = [a]) (hill : streamsIllFormed u.myCtx [a] = false)
    (hcheck : valueCheck k d a (s.xsSource xs b) e u.myCtx = none)
    (hv : u.strip (u.who u.cur) st (u.myCtx.fill (u.myCtx.regWidth a)) e.vl = .ok vs) {c2 : Ctx}
    (hc2 : u.myCtx.afterPop a (u.myCtx.regWidth a) st e.vl vs = c2) :
    runEntry effectOf e u = .done ((u.withMyCtx c2).writeResults d (u.myCtx.regWidth d) 0x30
      ((c2.actives e k).map (fun j => (j, poppedSum d a (s.xsSource xs b) e u.myCtx c2 j)))) := by
  have hbound : u.myCtx.streams ≠ [] := fun hnil => by
    rw [hnil] at hst
    cases hst
  have hinstr : e.instr = .vadd xs k d a b := by rw [← he]; rfl
  have hpops : runEntry effectOf e u = popAndRun effectOf [a] e u :=
    runEntry_pops hp hbound (by rw [hinstr, hsrc]) (List.cons_ne_nil _ _) (popTrap_vadd he hfree hill hcheck)
      (by rw [← he]; rfl) (by rw [hinstr]; rfl)
  have hcheck2 : valueCheck k d a (s.xsSource xs b) e (u.withMyCtx c2).myCtx = none := by
    rw [State.myCtx_withMyCtx, ← hc2, valueCheck_afterPop, hcheck]
  rw [hpops, popAndRun_one hst hv, hc2]
  refine runPopped_done ?_
  rw [effectOf_vadd he hcheck2, State.myCtx_withMyCtx, binaryResult_afterPop hc2, ← hc2, regWidth_afterPop]

omit he hfree

/-- What holds no entry back at its issue holds none back once it stands in the queue: no copy of the context is queued. -/
theorem copyBlocks_issued {i : Instr} {n : Nat} {reads writes : List SReg} (e : VEntry)
    (h : (s.copyQueue s.myCtx.core).all (fun x => decide (x.ref.cid ≠ s.cur.cid)) = true) :
    (s.issued i n reads writes).copyBlocks e = false := by
  refine State.copyBlocks_none _ _ ?_
  simpa [State.issued, State.pushEntry, State.advance, State.reading, State.copyQueue] using h

/-- VADD of a bound register that is issued on an empty queue (R249). The issue changes neither the types nor the streams. -/
theorem exec_vadd_bound (hu : s.issued (.vadd xs k d a b) 4 (xsReads xs b) [] = u) (he : s.vaddEntry xs k d a b = e)
    (hk : s.cur.kind = .ch) (hq : s.Quiet) (hp : s.Plain) (hr : s.Ready (xsReads xs b) [])
    (hcopy : (s.copyQueue s.myCtx.core).all (fun x => decide (x.ref.cid ≠ s.cur.cid)) = true)
    (hst : tget s.myCtx.streams a.toNat = some st) (hfree : tget s.myCtx.streams d.toNat = none)
    (hsrc : boundSources s.myCtx (.vadd xs k d a b) = [a]) (hill : streamsIllFormed s.myCtx [a] = false)
    (hcheck : valueCheck k d a (s.xsSource xs b) e s.myCtx = none)
    (hv : u.strip (u.who u.cur) st (s.myCtx.fill (s.myCtx.regWidth a)) e.vl = .ok vs) {c2 : Ctx}
    (hc2 : u.myCtx.afterPop a (s.myCtx.regWidth a) st e.vl vs = c2) :
    exec (.vadd xs k d a b) s = .next (completeHead e ((u.withMyCtx c2).writeResults d (s.myCtx.regWidth d) 0x30
      ((c2.actives e k).map (fun j => (j, poppedSum d a (s.xsSource xs b) e s.myCtx c2 j))))) := by
  obtain ⟨h, hctx⟩ := issued_myCtx s (.vadd xs k d a b) 4 (xsReads xs b) [] hk
  have hviq : u.myCtx.viq = [e] := by rw [← hu, State.viq_issued _ _ _ _ _ hq]; exact congrArg (fun x => [x]) he
  have hplain : u.Plain := by rwa [State.Plain, ← hu, checkedBy_issued]
  have hroom : s.myCtx.viq.length < 64 := by rw [show s.myCtx.viq = [] from hq]; exact Nat.zero_lt_succ _
  rw [hu] at hctx
  have hstreams : u.myCtx.streams = s.myCtx.streams := by rw [hctx]
  have hwidth : u.myCtx.regWidth = s.myCtx.regWidth := by rw [hctx]; rfl
  have hfill : u.myCtx.fill = s.myCtx.fill := by rw [hctx]; rfl
  have hsum : poppedSum d a (s.xsSource xs b) e u.myCtx c2 = poppedSum d a (s.xsSource xs b) e s.myCtx c2 := by rw [hctx]; rfl
  have hrun := runEntry_vadd_bound he (hstreams ▸ hfree) (hstreams ▸ hst) hplain (by rw [hctx]; exact hsrc)
    (by rw [hctx]; exact hill) (by rw [hctx]; exact hcheck) (by rwa [hwidth, hfill])
    ((congrArg (fun w => u.myCtx.afterPop a (w a) st e.vl vs) hwidth).trans hc2)
  rw [hwidth, hsum] at hrun
  have hissue : exec (.vadd xs k d a b) s = .next (drain u) := by
    rw [← hu]
    exact issueV_pushes (early := noCheck) (late := noCheck) rfl rfl hk hr hroom
  rw [hissue, drain_last (stepHead_completes hviq (by rw [← he]; rfl) (hu ▸ copyBlocks_issued e hcopy) hrun)]
  rw [completeHead_viq, writeResults_viq, State.myCtx_withMyCtx, ← hc2, viq_afterPop, hviq]
  rfl

end vadd

end Sys2Proof.Machine

namespace Sys2Proof

open Machine

/-- Settles O45: SBIND and SFREE on each hart, the refill, VADD on a bound register through its pop, and what a strip holds. -/
theorem streams : Obligations.Streams := by
  unfold Obligations.Streams
  refine ⟨fun s d a bs hp => ?sbind, fun s d => ⟨exec_sfree_fetch, ?sfree,
      fun hk => ⟨illegal s 7 0, rfl, rfl, exec_sfree_drain hk⟩⟩,
    fun s st xs => ?refill, fun s xs k d a b st vs => ?vadd, fun s w st fill n vs h => ?strip⟩
  case sbind =>
    intro desc bound hm hroom
    refine ⟨fun hk hr hl => ?_, ?_⟩
    · exact exec_sbind_fetch hp hk hr hl hm hroom
    · intro t hl hready
      refine entryGives_of s _ 4 [a] [] noCheck noCheck bound (if_pos hready.1) rfl rfl
        (fun _ => effectOf_sbind hp hready.1 rfl hl hm hroom) ?_ hready
      rw [State.myCtx_withMyCtx]
      rfl
  case sfree =>
    intro hready
    refine entryGives_of s _ 4 [] [] noCheck noCheck (fun t => t.withMyCtx (t.myCtx.unbind d))
      (exec_sfree_queue hready.1) rfl rfl (fun _ => rfl) ?_ hready
    rw [State.myCtx_withMyCtx]
    rfl
  case refill =>
    intro c pos w n hst hlen hissues hne hxs strip
    have hlength : xs.length = n := (MemRes.all_length hxs).trans (by rw [List.length_map, List.length_range])
    exact ⟨buffered_words st.desc pos hlength, execStreamRefill_buffers hst hlen hissues hne rfl rfl rfl hxs⟩
  case vadd =>
    intro c i reads y e u w hk hq hp hr hcopy hst hfree hsrc hill hcheck hv p c2
    exact exec_vadd_bound rfl rfl hk hq hp hr hcopy hst hfree hsrc hill hcheck hv rfl
  case strip =>
    obtain ⟨hlength, hholds⟩ := strip_holds h
    exact ⟨hlength, rfl, hholds⟩

end Sys2Proof
end

section
/-! SUPPORT. The fences, HBREAD and HBWAIT on a hart whose registers are ready (11_ordering R268–R270; 13_kernel R315). -/

namespace Sys2Proof.Machine

/-- The state in which the moving hart's FENCE.SC has drained, at the present heartbeat (R270). -/
def State.drained (s : State) : State := s.withMe { s.me with fenceHb := some s.hb }

section fence

variable {s : State} (h : s.Ready [] [])
include h

/-- Only a fence of DEV or FAB waits for the hart's own multicasts (R269; notes/assumptions/14). -/
theorem fence_outstanding {x : Level} (hx : 4 ≤ x.rank) (ho : s.outstanding = true) :
    fence x s = .next (s.waitHere false) := by
  refine scalar_wait_same _ _ _ _ _ h ?_
  rw [if_pos hx, afterWrites_wait (s.reading []) _ ho]

theorem execFenceSc_nextHeartbeat {hb : Word} (hf : s.me.fenceHb = some hb) (hne : hb ≠ s.hb) :
    execFenceSc s = .next (((s.reading []).withMe { (s.reading []).me with fenceHb := none }).advance 4) := by
  refine scalar_done _ _ _ _ _ h ?_
  have hread : (s.reading []).me.fenceHb = some hb := by rw [State.me_reading]; exact hf
  simp only [hread]
  exact if_neg hne.symm

variable (hc : s.copiesDone s.cur = true)
include hc

theorem execFenceEng_completes : execFenceEng s = .next ((s.reading []).advance 4) :=
  scalar_done _ _ _ _ _ h (if_pos hc)

variable (hq : s.Quiet)
include hq

/-- A fence completes where neither the queue nor a copy holds it, nor, at a scope that takes in other dies, a multicast. -/
theorem fence_completes {x : Level} (hx : x.rank < 4 ∨ s.outstanding = false) :
    fence x s = .next ((s.reading []).advance 4) := by
  have hviq : afterViq (fun t : State => if t.copiesDone t.cur then .done (t.advance 4) else .wait false t) (s.reading []) =
      .done ((s.reading []).advance 4) := (afterViq_quiet _ _ (s.quiet_reading [] hq)).trans (if_pos hc)
  refine scalar_done _ _ _ _ _ h ?_
  split
  case isTrue hrank =>
    rw [afterWrites_done (s.reading []) _ (hx.resolve_left (Nat.not_lt.2 hrank))]
    exact hviq
  case isFalse => exact hviq

/-- A FENCE.SC that has drained notes the heartbeat, and waits for the next (R270). -/
theorem execFenceSc_drained (ho : s.outstanding = false) (hf : s.me.fenceHb = none) :
    ∃ u, execFenceSc s = .next u ∧ u.me.fenceHb = some s.hb ∧ u.me.pc = s.me.pc := by
  have hread : (s.reading []).me.fenceHb = none := by rw [State.me_reading]; exact hf
  refine ⟨_, scalar_wait s (s.reading []).drained _ _ _ false h ?_, ?_, ?_⟩
  · simp only [hread]
    rw [afterWrites_done (s.reading []) _ ho, afterEntries_quiet _ _ _ (s.quiet_reading [] hq),
      afterViq_quiet _ _ (s.quiet_reading [] hq)]
    exact if_pos hc
  all_goals
    rw [State.me_waitHere, State.me_undone (s := s) (u := (s.reading []).drained) rfl, State.drained, State.me_withMe,
      State.me_reading]
    rfl

end fence

section heartbeat

variable {s : State} {a d : SReg} (hp : s.Plain)
include hp

theorem execHbread_reads (h : s.Ready [] [d]) : execHbread d s = .next ((s.reading []).retire 4 d s.hb) :=
  scalar_done _ _ _ _ _ h (impureOnly_plain s [] _ 5 hp)

variable (h : s.Ready [a] [])
include h

theorem execHbwait_reached (hle : (s.readS a).toNat ≤ s.hb.toNat) : execHbwait a s = .next ((s.reading [a]).advance 4) := by
  refine scalar_done _ _ _ _ _ h ?_
  rw [impureOnly_plain s [a] _ 5 hp, State.readS_reading]
  exact if_pos hle

theorem execHbwait_early (hlt : s.hb.toNat < (s.readS a).toNat) : execHbwait a s = .next (s.waitHere true) := by
  refine scalar_wait_same _ _ _ _ _ h ?_
  rw [impureOnly_plain s [a] _ 5 hp, State.readS_reading]
  exact if_neg (Nat.not_le.2 hlt)

end heartbeat

end Sys2Proof.Machine

namespace Sys2Proof

open Machine

/-- Settles O20: each fence by what it waits for, in the order of the model, and the heartbeat instructions by the comparison. -/
theorem fencesAndHeartbeat : Obligations.FencesAndHeartbeat := by
  unfold Obligations.FencesAndHeartbeat
  refine ⟨fun s h hq hc => ?fences, fun s d a hp => ?heartbeat⟩
  case fences =>
    have own : ∀ x : Level, x.rank < 4 → fence x s = .next ((s.reading []).advance 4) := fun _ hx =>
      fence_completes h hc hq (.inl hx)
    have wide : ∀ x : Level, s.outstanding = false → fence x s = .next ((s.reading []).advance 4) := fun _ ho =>
      fence_completes h hc hq (.inr ho)
    have held : ∀ x : Level, 4 ≤ x.rank → s.outstanding = true → fence x s = .next (s.here.waitHere false) := fun _ hx ho => by
      rw [State.here, State.withMe_me_waitHere]
      exact fence_outstanding h hx ho
    exact ⟨own .core (by decide), own .quad (by decide), own .die (by decide), execFenceEng_completes h hc,
      fun ho => ⟨wide .dev ho, wide .host ho⟩, fun ho => ⟨held .dev (by decide) ho, held .host (by decide) ho⟩,
      fun _ hf hne => execFenceSc_nextHeartbeat h hf hne, execFenceSc_drained h hc hq⟩
  case heartbeat =>
    refine ⟨execHbread_reads hp, execHbwait_reached hp, fun h hlt => ⟨_, execHbwait_early hp h hlt, ?_, ?_, ?_⟩⟩ <;>
      rw [State.me_waitHere]

end Sys2Proof
end

section
/-! SUPPORT. The multicast that its pair awaits, and the buffered strips that it drops where it is a turned copy (02_machine R36;
10_copies R249; 18_link R423). -/

namespace Sys2Proof.Machine

/-- A buffered element whose bytes were read from a granule lies in it. -/
theorem State.bufferedIn_of_key (s : State) (w : Who) {keys : List Nat} {b : Buffered} {k : Nat} (hb : k ∈ b.keys)
    (hk : k ∈ keys) : s.bufferedIn w keys b = true := by
  have hany : b.keys.any keys.contains = true := List.any_eq_true.2 ⟨k, hb, List.contains_iff_mem.2 hk⟩
  rw [State.bufferedIn, hany, Bool.true_or]

/-- A drop of strips that changes no context has found none to drop. -/
theorem State.kept_of_dropStrips {s : State} {core : Nat → Bool} {keys : List Nat}
    (h : (s.dropStrips core keys).ctxs = s.ctxs) {cid : Nat} {c : Ctx} (hc : (cid, c) ∈ s.ctxs) (hcore : core c.core = true)
    {v : Nat} {st : Stream} (hst : (v, st) ∈ c.streams) {l : List Buffered} (hl : l ∈ st.strips) :
    l.any (s.bufferedIn { ref := { cid := cid, kind := .ch }, core := c.core, tenant := c.tenant } keys) = false := by
  have hctx := List.map_inj_left.1 (h.trans (List.map_id _).symm) _ hc
  rw [if_pos hcore] at hctx
  have hstreams := congrArg (fun e : Nat × Ctx => e.2.streams) hctx
  have hstream := List.map_inj_left.1 (hstreams.trans (List.map_id _).symm) _ hst
  have hstrips := congrArg (fun e : Nat × Stream => e.2.strips) hstream
  simpa using List.takeWhile_eq_self_iff.1 hstrips l hl

/-- The state without a multicast that has reached its replica, unless a duplicate of it is under way still, and with the next
sequence number of its pair awaited (18_link R423). -/
def State.awaitNext (s : State) (p : Packet) : State :=
  let n := s.pair (pairKey p.writer p.pa)
  { if s.evArg.f then s else { s with packets := s.packets.filter (fun q => decide (q.id ≠ p.id)) } with
    pairs := tput s.pairs (pairKey p.writer p.pa) (n.1, n.2 + 1) }

theorem awaitNext_ctxs (s : State) (p : Packet) : (s.awaitNext p).ctxs = s.ctxs := by
  unfold State.awaitNext
  split <;> rfl

/-- A turned multicast in the order of its pair writes its replica, and drops the strips that overlap it. -/
theorem execPacketDeliver_turned {s : State} {p : Packet} (hp : s.packets.find? (fun q => decide (q.id = s.evArg.a)) = some p)
    (hseq : p.seq = (s.pair (pairKey p.writer p.pa)).2) (hl : p.level ≠ .none) : execPacketDeliver s =
      .next (((s.awaitNext p).writeCopy .repl p.pa (s.packetBytes p) p.writer p.level p.tenant).dropStrips
        (p.level.reaches p.writer) ((granPieces p.pa p.bytes.length).map (fun q => granKey .repl q.1))) := by
  simp only [execPacketDeliver, hp, if_pos hseq, if_neg hl, State.awaitNext]

/-- A multicast at level DEV from core 0, of one byte to the replica of the second die. -/
def turnedMulticast : Packet :=
  { id := 0, seq := 0, ref := { cid := 0, kind := .ch }, copy := none, pa := 2 ^ 37, bytes := [1], part := none, writer := 0,
    level := .dev, tenant := 0 }

/-- A stream with a strip of one element, read from the granule that the multicast writes. -/
def staleStream : Stream :=
  { desc := List.replicate 8 0, pos := 0, strips := [[{ word := 0, reads := [(0, 1)], keys := [2 ^ 37 / 64] }]] }

/-- A context on core 96, in the second die, with that stream bound to v0. -/
def staleCtx : Ctx := { Ctx.reset with core := 96, streams := [(0, staleStream)] }

/-- A device in which the multicast is under way to the bytes of the stream. -/
def staleStrip : State := { State.reset with packets := [turnedMulticast], ctxs := [(0, staleCtx)] }

end Sys2Proof.Machine

namespace Sys2Proof

open Machine

/-- Refutes O60 in its clause on a packet in the order of its pair: a multicast at a level other than NONE is a turned copy, and
drops the strips buffered within its reach that overlap it (02_machine R36; 10_copies R249), where the statement has it
write its replica alone. -/
theorem not_linksAndRouters : ¬ Obligations.LinksAndRouters := by
  unfold Obligations.LinksAndRouters
  rintro ⟨-, -, -, hpackets, -⟩
  obtain ⟨hclaimed, -⟩ := hpackets staleStrip turnedMulticast rfl
  have hstated := hclaimed rfl
  have hdrops := execPacketDeliver_turned (s := staleStrip) (p := turnedMulticast) rfl rfl (by decide)
  have hsame := congrArg State.ctxs (Host.Outcome.next.inj (hdrops.symm.trans hstated))
  have hctxs := (writeCopy_ctxs (staleStrip.awaitNext turnedMulticast) .repl turnedMulticast.pa
    (staleStrip.packetBytes turnedMulticast) turnedMulticast.writer turnedMulticast.level turnedMulticast.tenant).1.trans
      (awaitNext_ctxs ..)
  have hkept := State.kept_of_dropStrips hsame (cid := 0) (c := staleCtx) (by rw [hctxs]; exact List.mem_singleton.2 rfl)
    (by decide) (v := 0) (st := staleStream) (List.mem_singleton.2 rfl) (List.mem_singleton.2 rfl)
  rw [List.any_cons, State.bufferedIn_of_key _ _ (k := 2 ^ 37 / 64) (List.mem_singleton.2 rfl) (by decide)] at hkept
  exact Bool.noConfusion hkept

end Sys2Proof
end

section
/-! SUPPORT. What the interruption of a context's harts leaves, and the context that a trap leaves behind (12_context R274,
R278–R288, R291). -/

namespace Sys2Proof.Machine

section stops

/-- What an interruption leaves of a hart: its registers and flags, and, where it has no store under way, its PC. -/
structure Hart.StopsAs (h g : Hart) : Prop where
  regs : g.regs = h.regs
  fflags : g.fflags = h.fflags
  split : h.split = none → g.split = none
  pc : h.split = none → g.pc = h.pc

theorem Hart.StopsAs.refl (h : Hart) : h.StopsAs h := ⟨rfl, rfl, id, fun _ => rfl⟩

theorem Hart.StopsAs.trans {h g f : Hart} (a : h.StopsAs g) (b : g.StopsAs f) : h.StopsAs f :=
  ⟨b.regs.trans a.regs, b.fflags.trans a.fflags, fun hn => b.split (a.split hn),
    fun hn => (b.pc (a.split hn)).trans (a.pc hn)⟩

/-- What the interruption of harts of a context leaves: the moving hart, and of every context all but its harts and its
windows. -/
structure State.Stops (s u : State) (cid : Nat) : Prop where
  cur : u.cur = s.cur
  ctx : ∀ j, u.ctx j = { s.ctx j with
    ch := (u.ctx j).ch, fh := (u.ctx j).fh, dh := (u.ctx j).dh, isw := (u.ctx j).isw, osw := (u.ctx j).osw }
  harts : ∀ k, ((s.ctx cid).hart k).StopsAs ((u.ctx cid).hart k)

variable {s t u : State} {cid : Nat} {k : HartKind}

theorem State.Stops.refl (s : State) (cid : Nat) : s.Stops s cid := ⟨rfl, fun _ => rfl, fun _ => .refl _⟩

theorem State.Stops.trans (a : s.Stops t cid) (b : t.Stops u cid) : s.Stops u cid :=
  ⟨b.cur.trans a.cur, fun j => by rw [b.ctx j, a.ctx j], fun k => (a.harts k).trans (b.harts k)⟩

theorem State.Stops.vcp (h : s.Stops u cid) (j : Nat) : (u.ctx j).vcp = (s.ctx j).vcp := by rw [h.ctx j]

theorem State.Stops.trapvec (h : s.Stops u cid) (j : Nat) : (u.ctx j).trapvec = (s.ctx j).trapvec := by rw [h.ctx j]

theorem State.KeepsButWindows.stops (h : s.KeepsButWindows u) (cid : Nat) : s.Stops u cid := by
  refine ⟨h.1, fun j => ?_, fun k => ?_⟩
  · rw [h.2 j]
  · rw [show (u.ctx cid).hart k = (s.ctx cid).hart k from h.hart { cid := cid, kind := k }]
    exact .refl _

theorem State.Stops.withHart {g : Hart} (h : ((s.ctx cid).hart k).StopsAs g) :
    s.Stops (s.withHart { cid := cid, kind := k } g) cid := by
  have hc : (s.withHart { cid := cid, kind := k } g).ctx cid = (s.ctx cid).withHart k g := State.ctx_withCtx ..
  refine ⟨rfl, fun j => ?_, fun m => ?_⟩
  · by_cases hj : j = cid
    · rw [hj, hc]
      cases k <;> rfl
    · rw [State.withHart, State.ctx_withCtx_other _ _ _ _ hj]
  · rw [hc]
    by_cases hm : m = k
    · rw [hm, Ctx.hart_withHart]
      exact h
    · rw [Ctx.hart_withHart_other _ _ _ _ hm]
      exact .refl _

theorem finishStore_stops : s.Stops (s.finishStore { cid := cid, kind := k }) cid ∧
    ((s.finishStore { cid := cid, kind := k }).hart { cid := cid, kind := k }).split = none := by
  unfold State.finishStore
  split
  next hn => exact ⟨.refl s cid, hn⟩
  next x hx =>
    have hkeeps := splitWrite_keeps x (s.who { cid := cid, kind := k }) x.left s
    have hhart := hkeeps.hart { cid := cid, kind := k }
    refine ⟨(hkeeps.stops cid).trans (.withHart ⟨rfl, rfl, fun _ => rfl, fun hn => ?_⟩), ?_⟩
    · have : (s.hart { cid := cid, kind := k }).split = none := by rw [← hhart]; exact hn
      rw [hx] at this
      cases this
    · rw [State.hart_withHart]
      rfl

theorem interrupt_stops : s.Stops (s.interrupt { cid := cid, kind := k }) cid ∧
    ((s.interrupt { cid := cid, kind := k }).hart { cid := cid, kind := k }).split = none := by
  obtain ⟨hstops, hsplit⟩ := finishStore_stops (s := s) (cid := cid) (k := k)
  refine ⟨hstops.trans ?_, (congrArg Hart.split (State.hart_withHart _ _ _)).trans hsplit⟩
  have h := State.Stops.withHart (s := s.finishStore { cid := cid, kind := k }) (cid := cid) (k := k)
    (g := { (s.finishStore { cid := cid, kind := k }).hart { cid := cid, kind := k } with
      twait := none, barwait := none, fenceHb := none, part := [], yielding := false,
      pure := ((s.finishStore { cid := cid, kind := k }).hart { cid := cid, kind := k }).pure.map PureState.interrupted })
    ⟨rfl, rfl, id, fun _ => rfl⟩
  exact ⟨h.cur, h.ctx, h.harts⟩

/-- Interruptions in turn: each hart that is interrupted has then no store under way. -/
theorem State.Stops.foldl {f : State → HartKind → State} {P : HartKind → Prop}
    (hf : ∀ s k, s.Stops (f s k) cid ∧ (P k → (((f s k).ctx cid).hart k).split = none)) (l : List HartKind) (s : State) :
    s.Stops (l.foldl f s) cid ∧ ∀ k ∈ l, P k → (((l.foldl f s).ctx cid).hart k).split = none := by
  induction l generalizing s with
  | nil => exact ⟨.refl s cid, fun _ hk => nomatch hk⟩
  | cons k l ih =>
    obtain ⟨hstops, hsplit⟩ := ih (f s k)
    refine ⟨(hf s k).1.trans hstops, fun m hm hp => ?_⟩
    rcases List.mem_cons.1 hm with rfl | hm
    · exact (hstops.harts m).split ((hf s m).2 hp)
    · exact hsplit m hm hp

theorem interruptAll_stops (s : State) (cid : Nat) : s.Stops (s.interruptAll cid) cid :=
  (State.Stops.foldl (P := fun _ => False) (fun _ _ => ⟨interrupt_stops.1, False.elim⟩) _ s).1

/-- The harts of a context when one of them traps: all are interrupted, and none has a store under way (R282, R283). -/
theorem abandon_stops (s : State) (r : HartRef) : s.Stops ((s.interruptOthers r).abandon r) r.cid ∧
    ∀ k, ((((s.interruptOthers r).abandon r).ctx r.cid).hart k).split = none := by
  obtain ⟨hothers, hsplit⟩ := State.Stops.foldl (cid := r.cid) (P := fun k => k ≠ r.kind)
    (f := fun s k => if k = r.kind then s else s.interrupt { cid := r.cid, kind := k })
    (fun s k => by
      by_cases hk : k = r.kind
      · simp only [hk, if_true, ne_eq, not_true_eq_false, false_imp_iff, and_true]
        exact .refl s r.cid
      · simp only [hk, if_false]
        exact ⟨interrupt_stops.1, fun _ => interrupt_stops.2⟩) [.ch, .fh, .dh] s
  obtain ⟨hown, hownSplit⟩ := interrupt_stops (s := s.interruptOthers r) (cid := r.cid) (k := r.kind)
  have hlast := State.Stops.withHart (s := (s.interruptOthers r).interrupt r) (cid := r.cid) (k := r.kind)
    (g := { ((s.interruptOthers r).interrupt r).hart r with pendCsr := none }) ⟨rfl, rfl, id, fun _ => rfl⟩
  refine ⟨(hothers.trans hown).trans hlast, fun k => (hlast.harts k).split ?_⟩
  by_cases hk : k = r.kind
  · rw [hk]
    exact hownSplit
  · exact (hown.harts k).split (hsplit k (by cases k <;> decide) hk)

/-- A state in which at most contexts and watches have changed. -/
def State.KeepsButHarts (s u : State) : Prop := u = { s with ctxs := u.ctxs, watches := u.watches }

theorem State.KeepsButHarts.trans (a : s.KeepsButHarts t) (b : t.KeepsButHarts u) : s.KeepsButHarts u := by
  unfold State.KeepsButHarts at a b ⊢
  rw [b, a]

theorem State.KeepsButHarts.mem (h : s.KeepsButHarts u) : u.mem = s.mem := by rw [h]

theorem State.KeepsButHarts.gran (h : s.KeepsButHarts u) : u.gran = s.gran := by rw [h]

/-- Where no hart of a context has a store under way, an interruption of one writes no memory. -/
theorem interrupt_keeps (h : s.NoStore cid) (k : HartKind) : s.KeepsButHarts (s.interrupt { cid := cid, kind := k }) := by
  simp only [State.interrupt, finishStore_none (r := { cid := cid, kind := k }) (h k)]
  rfl

theorem interruptOthers_keeps {r : HartRef} (h : s.NoStore r.cid) :
    (s.interruptOthers r).NoStore r.cid ∧ s.KeepsButHarts (s.interruptOthers r) := by
  unfold State.interruptOthers
  generalize [HartKind.ch, .fh, .dh] = l
  induction l generalizing s with
  | nil => exact ⟨h, rfl⟩
  | cons k l ih =>
    rw [List.foldl_cons]
    by_cases hk : k = r.kind
    · rw [if_pos hk]
      exact ih h
    · rw [if_neg hk]
      exact ⟨(ih (h.interrupt k)).1, (interrupt_keeps h k).trans (ih (h.interrupt k)).2⟩

theorem abandon_keeps {r : HartRef} (h : s.NoStore r.cid) : s.KeepsButHarts ((s.interruptOthers r).abandon r) :=
  (interruptOthers_keeps h).2.trans ((interrupt_keeps (interruptOthers_keeps h).1 r.kind).trans rfl)

end stops

section traps

variable {s : State} {r : HartRef} {t : Trap} {info spc vcp : Word}

/-- The context of a trap, with what the trap writes (R279, R280, R283, R284). -/
def Ctx.trapped (c : Ctx) (k : HartKind) (t : Trap) (info spc vcp : Word) : Ctx :=
  { c.withHart k { c.hart k with trapinfo := info, trapaddr := t.addr } with
    spc := spc, vcp := if k = .ch then vcp else c.vcp }

/-- The context of a trap in its handler (R282). -/
def Ctx.enters (c : Ctx) (k : HartKind) (cause : Cause) : Ctx :=
  let c1 := { c with handler := some k }
  let c2 := if k = .ch then
      { c1 with image := some { entries := restart c1.viq, vl := c1.vl, vtype := c1.vtype, epoch := c1.epoch }, viq := [] }
    else c1
  c2.withHart k { c2.hart k with
    pc := BitVec.ofNat 64 (bits c.trapvec 12 45 * 4096 + 64 * cause.code), yielding := false, stalled := none }

theorem trapRegs_eq : s.trapRegs r t info spc vcp = s.withCtx r.cid ((s.ctx r.cid).trapped r.kind t info spc vcp) := by
  simp only [State.trapRegs, State.withHart, State.ctx_withCtx, State.withCtx_withCtx, Ctx.withHart_vcp]
  rfl

/-- The state of a trap in its handler: the context of the stopped harts, with the trap in it. -/
theorem enterHandler_eq : s.enterHandler r t info spc vcp = ((s.interruptOthers r).abandon r).withCtx r.cid
    (((((s.interruptOthers r).abandon r).ctx r.cid).trapped r.kind t info spc vcp).enters r.kind t.cause) := by
  simp only [State.enterHandler, trapRegs_eq, State.withHart, State.hart, State.ctx_withCtx, State.withCtx_withCtx]
  rfl

/-- The hart that traps, in its handler. -/
theorem Ctx.hart_enters (c : Ctx) (k : HartKind) : ((c.trapped k t info spc vcp).enters k t.cause).hart k =
    { c.hart k with
      trapinfo := info, trapaddr := t.addr
      pc := BitVec.ofNat 64 (bits c.trapvec 12 45 * 4096 + 64 * t.cause.code), yielding := false, stalled := none } := by
  cases k <;> rfl

theorem Ctx.split_enters (c : Ctx) (k m : HartKind) :
    (((c.trapped k t info spc vcp).enters k t.cause).hart m).split = (c.hart m).split := by
  cases k <;> cases m <;> rfl

theorem Ctx.spc_enters (c : Ctx) (k : HartKind) : ((c.trapped k t info spc vcp).enters k t.cause).spc = spc := by
  cases k <;> rfl

theorem Ctx.vcp_enters (c : Ctx) (k : HartKind) :
    ((c.trapped k t info spc vcp).enters k t.cause).vcp = if k = .ch then vcp else c.vcp := by
  cases k <;> rfl

theorem Ctx.handler_enters (c : Ctx) (k : HartKind) (cause : Cause) : (c.enters k cause).handler = some k := by
  cases k <;> rfl

theorem trapsLater_of_quiet (h : s.Quiet) : s.trapsLater = false := by
  simp only [State.trapsLater, show s.myCtx.viq = [] from h, List.isEmpty_nil, Bool.not_true, Bool.and_false]

theorem logTrap_other (r : HartRef) (h : t.cause ≠ .eccfatal) : s.logTrap r t = s := if_neg h

/-- A trap that the context's handler takes (R282). -/
theorem scalarTrap_handled (hq : s.Quiet) (hsplit : s.me.split = none) (hh : s.myCtx.handler = none)
    (hv : bit s.myCtx.trapvec 63 = true) (ht : t.toSupervisor = false) : s.scalarTrap t =
      s.enterHandler s.cur t (trapInfo t false false) (resumePc t s.me)
        (if s.cur.kind ≠ .ch then s.myCtx.vcp else resumePc t s.me) := by
  have hecc : t.cause ≠ .eccfatal := fun h => by simp only [Trap.toSupervisor, h, reduceCtorEq] at ht
  have hx : t.isXlat = false := by
    rw [Trap.isXlat, Bool.and_eq_false_imp]
    intro hc
    simpa only [Trap.toSupervisor, of_decide_eq_true hc] using ht
  have hcur : s.hart s.cur = s.me := rfl
  have hctx : s.ctx s.cur.cid = s.myCtx := rfl
  simp only [State.scalarTrap, trapsLater_of_quiet hq, State.takeTrap, logTrap_other s.cur hecc, hx, finishStore_none hsplit,
    hcur, hctx, ht, hh, Ctx.trapEn, hv, Option.isSome_none, Bool.false_eq_true, Bool.not_true, or_self, if_false]

end traps

end Sys2Proof.Machine

namespace Sys2Proof

open Machine

/-- Settles O21: the context of the stopped harts holds what the trap has written, and an interruption leaves the registers of
each hart. -/
theorem trapEntry : Obligations.TrapEntry := by
  unfold Obligations.TrapEntry
  refine ⟨fun s t hq hsplit hh hv ht => ?_, fun s t hk hne => ?later⟩
  case later =>
    have hl : s.trapsLater = true := by
      cases hv : s.myCtx.viq with
      | nil => exact absurd hv hne
      | cons e r => simp only [State.trapsLater, hk, hv, decide_true, List.isEmpty_cons, Bool.not_false, Bool.and_self]
    exact if_pos hl
  rw [scalarTrap_handled hq hsplit hh hv ht, enterHandler_eq]
  obtain ⟨hstops, hnone⟩ := abandon_stops s s.cur
  have hrest : s.NoStore s.cur.cid → _ := abandon_keeps
  revert hstops hnone hrest
  generalize (s.interruptOthers s.cur).abandon s.cur = v
  generalize hspc : resumePc t s.me = spc
  intro hstops hnone hrest u
  have hme := hstops.harts s.cur.kind
  have hmy : u.myCtx = ((v.ctx s.cur.cid).trapped s.cur.kind t (trapInfo t false false) spc
      (if s.cur.kind ≠ .ch then s.myCtx.vcp else spc)).enters s.cur.kind t.cause := by
    show (v.withCtx _ _).ctx v.cur.cid = _
    rw [hstops.cur, State.ctx_withCtx]
  have hhart : u.me = u.myCtx.hart s.cur.kind := by
    show (u.ctx v.cur.cid).hart v.cur.kind = (u.ctx v.cur.cid).hart s.cur.kind
    rw [hstops.cur]
  rw [hhart, hmy, Ctx.hart_enters, Ctx.spc_enters, Ctx.vcp_enters, Ctx.handler_enters]
  refine ⟨?info, rfl, ?spc, fun hk => ?_, fun hk => ?_, rfl, ?pc, hme.regs, hme.fflags, fun k => ?_, fun hn => ?mem⟩
  case info => simp only [trapInfo, Bool.false_eq_true, if_false, Nat.add_zero]
  case spc =>
    have he : t.cause ≠ .ecall := fun h => by simp only [Trap.toSupervisor, h, reduceCtorEq] at ht
    rw [← hspc, resumePc]
    split
    next h => exact absurd h he
    next h => rw [if_pos h]
    next h => rw [if_neg h]
  · rw [if_pos hk, if_neg (not_not.2 hk)]
  · rw [if_neg hk]
    exact hstops.vcp s.cur.cid
  case pc =>
    rw [hstops.trapvec]
    rfl
  · rw [Ctx.split_enters]
    exact hnone k
  case mem =>
    exact ⟨(hrest hn).mem, (hrest hn).gran⟩

end Sys2Proof
end

section
/-! SUPPORT. ECALL, EBREAK and ERET: an instruction that traps at once, and the return from the handler (12_context R285,
R286). -/

namespace Sys2Proof.Machine

variable {s : State} {t : Trap}

/-- A scalar instruction that traps at once: the trap is taken, or waits for the entries under way (R283). -/
theorem scalar_traps {reads writes : List SReg} {k : State → Res}
    (hs : scalar reads writes k s = (Res.settle (.trap t (s.reading reads)) s s.me.unread).outcome) :
    scalar reads writes k s = .next (s.here.scalarTrap t) := by
  have hv : s.here.myCtx.viq = s.myCtx.viq := by rw [State.here, State.myCtx_withMe, Ctx.withHart_viq]
  have hl : s.here.trapsLater = s.trapsLater := congrArg (fun q : List VEntry => decide (s.cur.kind = .ch) && !q.isEmpty) hv
  rw [hs, Res.settle]
  split
  next h =>
    rw [Res.outcome, State.scalarTrap, hl, if_pos h, State.here, State.withMe_me_waitHere]
  next h =>
    rw [State.reading_undone, Res.outcome]

/-- ERET outside a handler is Illegal, whatever else might keep it (R285; 03_encoding R51). -/
theorem execEret_illegal (h : s.myCtx.handler ≠ some s.cur.kind) :
    execEret s = .next (s.here.scalarTrap (illegal (s.reading []) 7 0)) := by
  have hh : (s.reading []).myCtx.handler ≠ some (s.reading []).cur.kind := by
    rw [State.reading, State.myCtx_withMe, Ctx.withHart_handler]
    exact h
  refine scalar_traps ?_
  rw [scalar, framed_ready _ _ _ _ (List.all_nil) rfl]
  congr 2
  simp only [codeGuard, if_neg hh, Res.early, illegal, earlyTrap, Bool.true_or, if_true]
  split
  · split <;> rfl
  · rfl

/-- The context of a handler that returns: the image of the queue, where there is one, is put back (R285). -/
def Ctx.returns (c : Ctx) (k : HartKind) : Ctx :=
  match k, c.image with
  | .ch, some im =>
    { c with handler := none, viq := im.entries, vl := im.vl, vtype := im.vtype, epoch := im.epoch, image := none }
  | _, _ => { c with handler := none }

theorem leaveHandler_eq : s.leaveHandler = (s.withMyCtx (s.myCtx.returns s.cur.kind)).jump s.myCtx.spc := by
  unfold State.leaveHandler Ctx.returns
  rfl

theorem Ctx.hart_returns (c : Ctx) (k j : HartKind) : (c.returns k).hart j = c.hart j := by
  unfold Ctx.returns
  split <;> cases j <;> rfl

theorem Ctx.handler_returns (c : Ctx) (k : HartKind) : (c.returns k).handler = none := by
  unfold Ctx.returns
  split <;> rfl

theorem execEret_returns (hr : s.Ready [] []) (hq : s.Quiet) (h : s.myCtx.handler = some s.cur.kind) :
    execEret s = .next (s.reading []).leaveHandler := by
  have hh : (s.reading []).myCtx.handler = some (s.reading []).cur.kind := by
    rw [State.reading, State.myCtx_withMe, Ctx.withHart_handler]
    exact h
  refine scalar_done _ _ _ _ _ hr ?_
  rw [if_pos hh]
  exact afterEntries_quiet _ _ _ (s.quiet_reading [] hq)

end Sys2Proof.Machine

namespace Sys2Proof

open Machine

/-- Settles O23: ECALL and EBREAK trap at once, and ERET by whether the hart is in its handler. -/
theorem callsAndReturns : Obligations.CallsAndReturns := by
  unfold Obligations.CallsAndReturns
  refine ⟨fun s hr => ⟨⟨{ cause := .ecall }, rfl, rfl, scalar_traps (scalar_ready _ _ _ _ hr)⟩,
      { cause := .ebreak }, rfl, rfl, scalar_traps (scalar_ready _ _ _ _ hr)⟩,
    fun s h => ⟨_, rfl, rfl, execEret_illegal h⟩, fun s hr hq h => ⟨_, execEret_returns hr hq h, ?_⟩⟩
  have hctx : (s.reading []).myCtx = s.myCtx.withHart s.cur.kind (s.me.clearRead []) := State.myCtx_withMe ..
  have hhart : ((s.reading []).myCtx.returns s.cur.kind).hart s.cur.kind = s.me.clearRead [] := by
    rw [Ctx.hart_returns, hctx, Ctx.hart_withHart]
  have hspc : (s.reading []).myCtx.spc = s.myCtx.spc := by rw [hctx, Ctx.withHart_spc]
  rw [leaveHandler_eq, State.cur_reading, hspc, State.jump, State.me_withMyCtx, State.cur_reading, hhart, State.myCtx_withMe,
    State.myCtx_withMyCtx, State.me_withMe, Ctx.withHart_handler, Ctx.handler_returns]
  refine ⟨rfl, rfl, rfl, rfl, fun im hk hi => ?_⟩
  have hi' : (s.reading []).myCtx.image = some im := by rw [hctx, Ctx.withHart_image, hi]
  simp only [Ctx.withHart_viq, Ctx.withHart_vl, Ctx.withHart_vtype, Ctx.withHart_image, Ctx.returns, hk, hi', and_self]

end Sys2Proof
end

section
/-! SUPPORT. A trap that finds a store of another hart under way to the REPLY of a record: completing the store is a write that
the record sees (12_context R274, R282, R290). -/

namespace Sys2Proof.Machine

/-- The frame of the supervisor's ring, as a STREAM page of the context. -/
def replyPlace : Place :=
  { kind := .stream, pa := 0, copies := [0], pageVa := 0, frame := 0, shift := 16, pin := false, loose := false, home := 0,
    leafAt := 0, leaf := 0 }

/-- An unaligned store of four bytes whose third byte, the lowest of a REPLY, is still to be written. -/
def replyStore : Split :=
  { len := 4, reads := [], base := 118, data := [0, 0, 1, 0], localOnly := false
    region := .pages [({ replyPlace with pa := 118, copies := [118] }, 118, 4)], left := [2] }

/-- A record that stands in the ring and waits for its reply. -/
def waitingRecord : TrapRec :=
  { id := 0, ref := { cid := 1, kind := .ch }, info := 0, addr := 0, spc := 0, vcp := 0, hb := 0, s10 := 0, s11 := 0,
    xlat := false, job := none, idle := false, ringAt := some 0, reply := 0 }

/-- The supervisor's context, whose fetch hart has that store under way. -/
def storingCtx : Ctx :=
  { Ctx.reset with slotState := .issuing, super := true, fh := { Hart.reset with split := some replyStore } }

/-- The device with that context and that record. -/
def storingState : State := { State.reset with ctxs := [(0, storingCtx)], traps := [waitingRecord] }

/-- The instruction of its compute hart that traps. -/
def storingTrap : Trap := { cause := .illegal, detail := 1 }

/-- The trap completes the store, and the record that waited has a reply. -/
theorem storing_replies : (storingState.scalarTrap storingTrap).traps.head?.map TrapRec.reply = some 1 := by decide

end Sys2Proof.Machine

namespace Sys2Proof

open Machine

/-- Refutes O22: the records after a trap are not those of before with one more where the stop completes a store of another hart
of the context, and the store writes a REPLY. -/
theorem not_trapToSupervisor : ¬ Obligations.TrapToSupervisor := by
  unfold Obligations.TrapToSupervisor
  intro h
  obtain ⟨_, _, hheld, _⟩ := h storingState storingTrap rfl rfl (.inr (.inl rfl))
  obtain ⟨_, _, _, r, htraps, _⟩ := hheld 0 rfl rfl
  have hold : (storingState.traps ++ [r]).head?.map TrapRec.reply = some 0 := rfl
  have hreply := storing_replies
  rw [htraps, hold] at hreply
  exact absurd hreply (by decide)

end Sys2Proof
end

section
/-! SUPPORT. Tasks: a release on a quiet hart, the decrement of a counter, and the end of a task (14_group R327–R331). -/

namespace Sys2Proof.Machine

section release

variable {s : State} {k : State → Res} (reads : List SReg)

theorem State.myCtx_reading : (s.reading reads).myCtx = s.myCtx.withHart s.cur.kind (s.me.clearRead reads) :=
  State.myCtx_withMe ..

theorem State.readS_of_reading : (s.reading reads).readS = s.readS := funext (s.readS_reading reads)

theorem State.kernelNo_reading : (s.reading reads).myCtx.kernel = s.myCtx.kernel := by
  rw [State.myCtx_reading, Ctx.withHart_kernel]

/-- A release on a hart with no entry and no multicast under way goes on (11_ordering R105; 05_scalar R101). -/
theorem release_goes (hq : s.Quiet) (ho : s.outstanding = false) :
    afterViq (afterWrites k) (s.reading reads) = k (s.reading reads) := by
  rw [afterViq_quiet _ _ (s.quiet_reading reads hq), afterWrites_done (s.reading reads) _ ho]

/-- As `release_goes`, of an instruction that waits for the whole queue. -/
theorem release_goes_empty (hq : s.Quiet) (ho : s.outstanding = false) :
    afterViqEmpty (afterWrites k) (s.reading reads) = k (s.reading reads) := by
  rw [afterViqEmpty, afterEntries_quiet _ _ _ (s.quiet_reading reads hq), afterWrites_done (s.reading reads) _ ho]

theorem pureSync_plain {a : Nat} (hp : s.Plain) : pureSync a k (s.reading reads) = k (s.reading reads) := by
  simp only [pureSync, show (s.reading reads).me.checkedBy = none from State.plain_reading hp]

end release

section decrement

variable {s : State} {w : Who} {k pa va : Nat} {release : Bool}

/-- The record that a counter object holds (R329). -/
def State.counterRec (s : State) (pa : Nat) : TaskRec := taskRecOf (wordsOfBytes 8 (s.memBytes (pa + 64) 64))

/-- A decrement that releases the record of its counter object: it is ready, and no longer in the object (R329). -/
def State.fired (s : State) (w : Who) (k pa : Nat) : State :=
  let s1 := s.syncWrite w pa (bytesOfWord 8 0)
  (s1.syncWrite w (pa + 8) (bytesOfWord 8 (s1.memWord (pa + 8) &&& ~~~1#64))).enterReady k (.record (s.counterRec pa))

theorem decrement_under (hm : s.migrating .sync pa = false) (hn : s.memWord pa = 0) :
    s.decrement w k pa va release = .trap { cause := .depunder } := by
  simp only [State.decrement, hm, hn, Bool.false_eq_true, if_false, if_true]

/-- A decrement that releases no record. -/
theorem decrement_counts (hm : s.migrating .sync pa = false) (hn : s.memWord pa ≠ 0)
    (hr : release = false ∨ s.memWord pa ≠ 1 ∨ bit (s.memWord (pa + 8)) 0 = false) :
    s.decrement w k pa va release = .ok (s.syncWrite w pa (bytesOfWord 8 (s.memWord pa - 1))) := by
  have hf : (release && decide (s.memWord pa = 1) && bit (s.memWord (pa + 8)) 0) = false := by
    rcases hr with hr | hr | hr
    · simp only [hr, Bool.false_and]
    · simp only [hr, decide_false, Bool.and_false, Bool.false_and]
    · simp only [hr, Bool.and_false]
  simp only [State.decrement, hm, hn, hf, Bool.false_and, Bool.false_eq_true, if_false]

/-- A decrement that enters the record of its counter object into the ready queue. -/
theorem decrement_fires (hm : s.migrating .sync pa = false) (hn : s.memWord pa = 1) (hb : bit (s.memWord (pa + 8)) 0 = true)
    (hr : recMalformed (s.counterRec pa) = false) (hi : s.imageBad w.core (pa + 64) 64 = false)
    (hf : s.readyFull k = false) : s.decrement w k pa va true =
      .ok (s.fired w k pa) := by
  rw [State.counterRec] at hr
  simp only [State.decrement, hm, hn, hb, hr, hi, hf, decide_true, Bool.and_true, Bool.and_false, Bool.false_eq_true, if_false,
    if_true]
  rfl

/-- A decrement of a counter whose address passes the checks of an atomic (R329). -/
theorem decrementAt_ok {r : HartRef} {a : Nat} {pl : Place}
    (h : s.atomicCheck (s.who r) 2 .rmw (if release then 128 else 8) a 8 = .ok pl) :
    s.decrementAt r a release = s.decrement (s.who r) (s.ctx r.cid).kernel pl.pa a release := by
  simp only [State.decrementAt, h, MemRes.bind]

end decrement

section spawns

variable {s : State} {a b c : SReg} (hp : s.Plain) (hq : s.Quiet) (ho : s.outstanding = false)

include hp hq ho

theorem execTspawn_pushes (h : s.Ready (regRange a 8) []) (hr : recMalformed (taskRecOf ((regRange a 8).map s.readS)) = false)
    (hl : s.myCtx.deque.length < 64) : execTspawn a s =
      .next (((s.reading (regRange a 8)).withMyCtx { (s.reading (regRange a 8)).myCtx with
        deque := taskRecOf ((regRange a 8).map s.readS) :: s.myCtx.deque }).advance 4) := by
  have hd : (s.reading (regRange a 8)).myCtx.deque = s.myCtx.deque := by rw [State.myCtx_reading, Ctx.withHart_deque]
  refine scalar_done _ _ _ _ _ h ?_
  rw [impureOnly_plain _ _ _ _ hp, release_goes _ hq ho]
  simp only [State.readS_of_reading, hr, hd, Config.dequeCap, not_le.2 hl, Bool.false_eq_true, if_false]

/-- TDEP of a free object: the object is written, and a record whose count is 0 is ready at once (R330). -/
theorem execTdep_builds {pl : Place} (h : s.Ready ([a, b] ++ regRange c 8) [])
    (hc : (s.reading ([a, b] ++ regRange c 8)).atomicCheck ((s.reading ([a, b] ++ regRange c 8)).who s.cur) 2 .rmw 128
      (s.readS a).toNat 8 = .ok pl)
    (hr : recMalformed (taskRecOf ((regRange c 8).map s.readS)) = false) (hm : s.migrating .sync pl.pa = false)
    (hn : s.memWord pl.pa = 0) (hb : bit (s.memWord (pl.pa + 8)) 0 = false) (hf : s.readyFull s.myCtx.kernel = false) :
    let t := s.reading ([a, b] ++ regRange c 8)
    let put := fun (f : Word) => t.syncWrite (t.who s.cur) pl.pa
      (bytesOfWords ([s.readS b, f, 0, 0, 0, 0, 0, 0] ++ (taskRecOf ((regRange c 8).map s.readS)).words))
    execTdep a b c s = .next ((if s.readS b = 0 then
      (put 0).enterReady s.myCtx.kernel (.record (taskRecOf ((regRange c 8).map s.readS))) else put 1).advance 4) := by
  intro t put
  refine scalar_done _ _ _ _ _ h ?_
  have hm' : t.migrating .sync pl.pa = false := hm
  have hn' : t.memWord pl.pa = 0 := hn
  have hb' : bit (t.memWord (pl.pa + 8)) 0 = false := hb
  have hf' : t.readyFull s.myCtx.kernel = false := hf
  rw [pureSync_plain _ hp, release_goes _ hq ho]
  simp only [State.readS_of_reading, State.cur_reading, hc, MemRes.elim, hr, hm', hn', hb', hf', State.kernelNo_reading,
    Bool.false_eq_true, ne_eq, not_true_eq_false, or_self, and_false, if_false, put, t]
  by_cases h0 : s.readS b = 0
  · simp only [h0, if_true]
  · simp only [h0, if_false]

end spawns

section counters

variable {s : State} {a : SReg} {pl : Place} (hp : s.Plain) (hq : s.Quiet) (ho : s.outstanding = false)

include hp hq ho

/-- TDEC of a counter that passes the checks of an atomic: what its decrement does (R331). -/
theorem execTdec_decrements (h : s.Ready [a] [])
    (hc : (s.reading [a]).atomicCheck ((s.reading [a]).who s.cur) 2 .rmw 128 (s.readS a).toNat 8 = .ok pl) :
    execTdec a s = ((((s.reading [a]).decrement ((s.reading [a]).who s.cur) s.myCtx.kernel pl.pa (s.readS a).toNat true).elim
      (s.reading [a]) (fun u => .done (u.advance 4))).settle s s.me.unread).outcome := by
  rw [execTdec, scalar_ready _ _ _ _ h, pureSync_plain _ hp, release_goes _ hq ho, State.readS_reading, State.cur_reading,
    decrementAt_ok (release := true) hc]
  rw [show ((s.reading [a]).ctx s.cur.cid).kernel = s.myCtx.kernel from State.kernelNo_reading _]

end counters

section ends

variable {s : State} {r : HartRef}

/-- The end of a task without a join counter (R328). -/
theorem endDecrement_none (h : (s.hart r).w2 = 0) : s.endDecrement r = .ok s := if_pos h

/-- The end of a task with a join counter: its decrement (R328). -/
theorem endDecrement_some {pl : Place} (h : (s.hart r).w2 ≠ 0) (hc : s.atomicCheck (s.who r) 2 .rmw
    (if bit (s.hart r).w1 6 then 128 else 8) (s.hart r).w2.toNat 8 = .ok pl) : s.endDecrement r =
      s.decrement (s.who r) (s.ctx r.cid).kernel pl.pa (s.hart r).w2.toNat (bit (s.hart r).w1 6) := by
  rw [State.endDecrement, if_neg h, decrementAt_ok hc]

end ends

section tdone

variable {s : State} (hp : s.Plain) (hq : s.Quiet) (ho : s.outstanding = false) (ht : s.tokensOut s.cur 0 = false)
  (hu : s.me.unread = [])

theorem ready_nil (hp : s.Plain) : s.Ready [] [] := ⟨List.all_nil, rfl, .inr hp⟩

theorem lowestUnread_none {h : Hart} (but : Nat) (hu : h.unread = []) : h.lowestUnread but = none := by
  simp only [Hart.lowestUnread, hu, List.find?_eq_none, List.contains_nil, Bool.and_false, Bool.false_eq_true,
    not_false_eq_true, implies_true]

theorem clearRead_nil (h : Hart) : (h.clearRead []).unread = h.unread := by
  simp [Hart.clearRead]

/-- Whether a hart waits for a token says nothing of its registers. -/
theorem tokensOut_reading (reads : List SReg) (r : HartRef) (but : Nat) :
    (s.reading reads).tokensOut r but = s.tokensOut r but := rfl

include hp hq ho ht hu

/-- TDONE where nothing keeps it: what the end of the task does (R328). -/
theorem execTdone_ends : execTdone s =
    (((if s.me.dispatch = .root then .done (((s.reading []).advance 4).goIdle s.cur)
      else if s.me.ending then .done ((s.reading []).advance 4)
      else ((s.reading []).endDecrement s.cur).elim (s.reading []) (fun u => .done ((u.advance 4).goIdle s.cur))) :
      Res).settle s s.me.unread).outcome := by
  have hl : (s.me.clearRead []).lowestUnread 0 = none := lowestUnread_none 0 (by rw [clearRead_nil, hu])
  have hc : (s.me.clearRead []).checkedBy = none := hp
  rw [execTdone, scalar_ready _ _ _ _ (ready_nil hp), release_goes_empty _ hq ho]
  simp only [State.cur_reading, tokensOut_reading, ht, State.me_reading, hl, hc, Bool.false_eq_true, if_false]
  rfl

end tdone

section dispatch

variable {s : State} {r : HartRef} {t : TaskRec} {rest : List TaskRec} {x : Kernel}

theorem readyHead_nil (k : HartKind) : s.readyHead k [] = none := rfl

theorem dequeHead_first {k : HartKind} (h : recEligible k t = true) : dequeHead k (t :: rest) = some 0 := by
  simp [dequeHead, List.length_cons, List.range_succ_eq_map, h]

/-- Where the ready queue is empty a hart takes the eligible record nearest the head of its own deque (R324). -/
theorem work_deque (hx : s.kernel (s.ctx r.cid).kernel = some x) (hr : x.ready = []) (hd : (s.ctx r.cid).deque = t :: rest)
    (he : recEligible r.kind t = true) : s.work r = some (.deque r.cid 0) := by
  simp only [State.work, hx, hr, hd, readyHead_nil, dequeHead_first he]

theorem takeDeque_first (hd : (s.ctx r.cid).deque = t :: rest) :
    s.takeDeque r r.cid 0 = (s.withCtx r.cid { s.ctx r.cid with deque := rest }).startRecord r t := by
  simp only [State.takeDeque, hd, List.getElem?_cons_zero]
  rfl

/-- The start of a record that is not pure (R322). -/
theorem startRecord_impure (h : bit t.w1 3 = false) : s.startRecord r t =
    (s.withHart r { s.hart r with dispatch := .task, w1 := t.w1, w2 := t.w2, pure := none }).beginTask r t.w0 t.args := by
  simp only [State.startRecord, h, Bool.false_eq_true, if_false]

theorem hart_beginTask (w0 : Word) (args : List Word) : (s.beginTask r w0 args).hart r = { s.hart r with
    pc := w0, unread := [], regs := ((List.range 5).zip args).foldl (fun m p => sset 0 m (10 + p.1) p.2) [] } := by
  simp only [State.beginTask, State.hart_withHart]

theorem deque_withHart (h : Hart) : ((s.withHart r h).ctx r.cid).deque = (s.ctx r.cid).deque := by
  rw [State.withHart, State.ctx_withCtx, Ctx.withHart_deque]

/-- DISPATCH of the record at the head of the hart's own deque, while the ready queue is empty (R322, R324). -/
theorem execDispatch_deque (hr : r = { cid := s.evArg.a, kind := s.evArg.h }) (hruns : (s.ctx r.cid).runs r.kind = true)
    (hh : (s.ctx r.cid).handler = none) (hs : (s.hart r).stalled = none) (hi : (s.hart r).dispatch = .idle)
    (hv : r.kind = .ch → (s.ctx r.cid).viq = []) (hx : s.kernel (s.ctx r.cid).kernel = some x) (he : x.ready = [])
    (hd : (s.ctx r.cid).deque = t :: rest) (hel : recEligible r.kind t = true) :
    execDispatch s = .next ((s.withCtx r.cid { s.ctx r.cid with deque := rest }).startRecord r t) := by
  have hv' : ¬ (r.kind = .ch ∧ (s.ctx r.cid).viq ≠ []) := fun ⟨hk, hne⟩ => hne (hv hk)
  rw [execDispatch, ← hr]
  simp only [hruns, hs, hh, hi, hv', work_deque hx he hd hel, takeDeque_first hd, Bool.not_true, Option.isSome_none,
    Bool.false_eq_true, or_self, if_false]

end dispatch

end Sys2Proof.Machine

namespace Sys2Proof

open Machine

/-- Settles O46: each task instruction goes on at once where no entry and no multicast is under way, and the three outcomes of a
decrement are those of TDEC and of the end of a task. -/
theorem tasks : Obligations.Tasks := by
  unfold Obligations.Tasks
  refine ⟨fun s a b c hp hq ho => ⟨?tspawn, ?tdep, ?tdec⟩, fun s hp hq ho ht hu => ⟨?root, ?ending, ?task⟩, ?dispatch⟩
  case tspawn => exact fun h hr hl => execTspawn_pushes hp hq ho h hr hl
  case tdep => exact fun pl h hc hr hm hn hb hf => execTdep_builds hp hq ho h hc hr hm hn hb hf
  case tdec =>
    intro pl t w h hc hm n
    have hexec := execTdec_decrements hp hq ho h hc
    refine ⟨fun hn hr => ?_, fun hn => ⟨{ cause := .depunder }, rfl, scalar_traps (hexec.trans ?_)⟩, fun hn hb hr hi hf => ?_⟩
    · exact hexec.trans (by rw [decrement_counts (s := t) hm hn (.inr hr)]; rfl)
    · rw [decrement_under (s := t) hm hn]
      rfl
    · exact hexec.trans (by rw [decrement_fires (s := t) hm hn hb hr hi hf]; rfl)
  case root =>
    intro hroot
    rw [show exec .tdone s = _ from execTdone_ends hp hq ho ht hu, if_pos hroot]
    rfl
  case ending =>
    intro hroot he
    rw [show exec .tdone s = _ from execTdone_ends hp hq ho ht hu, if_neg hroot, if_pos he]
    rfl
  case task =>
    intro hroot he
    have hexec := execTdone_ends hp hq ho ht hu
    rw [if_neg hroot, if_neg (by rw [he]; decide)] at hexec
    have hme : (s.reading []).hart s.cur = s.me.clearRead [] := State.me_reading s []
    have hmw1 : ((s.reading []).hart s.cur).w1 = s.me.w1 := by rw [hme]; rfl
    have hmw2 : ((s.reading []).hart s.cur).w2 = s.me.w2 := by rw [hme]; rfl
    refine ⟨fun hw => hexec.trans ?_, fun hw pl hc hm => ?_⟩
    · rw [endDecrement_none (s := s.reading []) (r := s.cur) (hmw2.trans hw)]
      rfl
    rw [endDecrement_some (s := s.reading []) (r := s.cur) (by rw [hmw2]; exact hw) (by rw [hmw1, hmw2]; exact hc), hmw1,
      show ((s.reading []).ctx s.cur.cid).kernel = s.myCtx.kernel from State.kernelNo_reading _] at hexec
    refine ⟨fun hn => ⟨{ cause := .depunder }, rfl, scalar_traps (hexec.trans ?_)⟩, fun hn hr => ?_, fun hn h6 hb hr hi hf => ?_⟩
    · rw [decrement_under (s := s.reading []) hm hn]
      rfl
    · exact hexec.trans (by rw [decrement_counts (s := s.reading []) hm hn hr]; rfl)
    · exact hexec.trans (by rw [h6, decrement_fires (s := s.reading []) hm hn hb hr hi hf]; rfl)
  case dispatch =>
    intro s t rest x r c hruns hh hs hi hv hx he hd hel hb
    refine ⟨_, execDispatch_deque rfl hruns hh hs hi hv hx he hd hel, ?_⟩
    rw [startRecord_impure hb, hart_beginTask, State.hart_withHart]
    exact ⟨by rw [State.beginTask, deque_withHart, deque_withHart, State.ctx_withCtx], rfl, rfl, rfl, rfl, rfl, rfl, rfl, rfl⟩

end Sys2Proof
end

section
/-! SUPPORT. TSUSP and the continuation that it builds, the hart that takes one, and the strip farm (14_group R333–R340). -/

namespace Sys2Proof.Machine

section suspends

variable {s : State} {a : SReg} {m : BitVec 32}

theorem drainQuiet_ctxs (k : Nat) : (s.drainQuiet k).ctxs = s.ctxs := by
  unfold State.drainQuiet
  split
  · split <;> rfl
  · rfl

/-- A hart whose task has ended: of its context only its task changes. -/
theorem goIdle_ctx (r : HartRef) : (s.goIdle r).ctx r.cid = (s.ctx r.cid).withHart r.kind
    { s.hart r with dispatch := .idle, pure := none, w1 := 0, w2 := 0 } := by
  rw [State.ctx, State.goIdle, drainQuiet_ctxs]
  exact State.ctx_withCtx ..

theorem goIdle_hart (r : HartRef) :
    (s.goIdle r).hart r = { s.hart r with dispatch := .idle, pure := none, w1 := 0, w2 := 0 } := by
  rw [State.hart, goIdle_ctx, Ctx.hart_withHart]

theorem advance_ctx (n : Nat) : (s.advance n).myCtx.conts = s.myCtx.conts := by
  rw [State.advance, State.myCtx_withMe, Ctx.withHart_conts]

/-- A continuation whose token has come (R333): what it keeps. -/
def State.contOf (s : State) (a : SReg) (m : BitVec 32) : Cont :=
  { id := s.serial, pc := s.me.pc + 8, saved := (maskRegs m).map (fun i => (i, sget 0 s.me.regs i)), mask := m,
    reg := a.toNat, kind := s.cur.kind, w1 := s.me.w1, w2 := s.me.w2, pure := s.me.pure,
    token := some (s.readS a), ready := false }

/-- The building of a continuation whose token has come (R333). -/
theorem suspend_eq (h : s.tokenCopy s.cur a.toNat = none) : s.suspend a m =
    let s1 := s.withMyCtx { s.myCtx with conts := s.myCtx.conts ++ [s.contOf a m] }
    { (((s1.withMe { s1.me with busy := s1.me.busy.filter (fun n => decide (n ≠ a.toNat)), unread := [] }).advance 8).goIdle
        s.cur) with serial := s.serial + 1 } := by
  simp only [State.suspend, h]
  rfl

theorem suspend_conts (h : s.tokenCopy s.cur a.toNat = none) :
    ((s.suspend a m).ctx s.cur.cid).conts = s.myCtx.conts ++ [s.contOf a m] := by
  rw [suspend_eq h]
  refine (congrArg Ctx.conts (goIdle_ctx s.cur)).trans ?_
  rw [Ctx.withHart_conts]
  refine (advance_ctx 8).trans ?_
  rw [State.myCtx_withMe, Ctx.withHart_conts, State.myCtx_withMyCtx]

theorem suspend_idle (h : s.tokenCopy s.cur a.toNat = none) : ((s.suspend a m).hart s.cur).dispatch = .idle := by
  rw [suspend_eq h]
  exact congrArg Hart.dispatch (goIdle_hart s.cur)

/-- TSUSP of a task with no token out but the one of its register (R333). -/
theorem execTsusp_suspends (hp : s.Plain) (hq : s.Quiet) (ho : s.outstanding = false) (hd : s.me.dispatch = .task)
    (he : s.me.ending = false) (hl : s.myCtx.conts.length < 16) (ht : s.tokensOut s.cur a.toNat = false)
    (hb : s.me.busy = []) (hu : s.me.unread = []) :
    execTsusp a m s = .next (((s.reading []).suspend a m).admitConts s.myCtx.kernel) := by
  have hl' : (s.me.clearRead []).lowestUnread a.toNat = none := lowestUnread_none _ (by rw [clearRead_nil, hu])
  have hc : (s.me.clearRead []).checkedBy = none := hp
  have hd' : (s.me.clearRead []).dispatch = .task := hd
  have he' : (s.me.clearRead []).ending = false := he
  have hb' : (s.me.clearRead []).busy = [] := hb
  have hn : (s.reading []).myCtx.conts = s.myCtx.conts := by rw [State.myCtx_reading, Ctx.withHart_conts]
  have hw : ((maskRegs m).any fun _ => false) = false := List.any_eq_false.2 fun _ _ => Bool.false_ne_true
  refine scalar_done _ _ _ _ _ (ready_nil hp) ?_
  rw [release_goes_empty _ hq ho]
  simp only [State.cur_reading, tokensOut_reading, ht, State.me_reading, hl', hc, hd', he', hb', hn, Config.contCap,
    not_le.2 hl, State.kernelNo_reading, List.contains_nil, Bool.and_false, hw, Bool.false_and, Bool.or_self,
    ne_eq, not_true_eq_false, Bool.false_eq_true, or_self, if_false]

end suspends

section resumes

variable {s : State} {r : HartRef} {id : Nat} {x : Cont}

/-- A hart that takes a continuation, before the token is in its register (R335). -/
def Hart.takes (h : Hart) (x : Cont) (core : Nat) : Hart :=
  { h with
    pc := x.pc, regs := x.saved.foldl (fun m p => sset 0 m p.1 p.2) [], unread := [], dispatch := .task, w1 := x.w1
    w2 := x.w2, pure := x.pure.map (fun p => { p with cores := insertNat p.cores core }) }

/-- A hart that takes a continuation has its registers again, and the token (R335). -/
theorem startCont_hart (h : (s.ctx r.cid).conts.find? (fun y => decide (y.id = id)) = some x) :
    ∃ g : Hart, ∃ u, (s.startCont r r.cid id).hart r =
      { (g.takes x (s.ctx r.cid).core).writeS (BitVec.ofNat 5 x.reg) (x.token.getD 0) with unread := u } := by
  simp only [State.startCont, h]
  rw [State.hart_withHart]
  split
  · exact ⟨_, _, rfl⟩
  · exact ⟨_, _, rfl⟩

end resumes

section farm

variable {s : State} {d a : SReg} {x : Kernel} (hp : s.Plain) (hx : s.kernel s.myCtx.kernel = some x)

include hp hx

/-- SFARM of a hart that is the first to come to its next farm (R339). -/
theorem execSfarm_opens (h : s.Ready [a] []) (hn : (s.readS a).toNat < 2 ^ 32) (hf : x.farm = s.me.farm)
    (he : x.farmN ≤ x.farmNext) : execSfarm a s = .next ((((s.reading [a]).withKernel s.myCtx.kernel { x with
      farm := s.me.farm + 1, farmN := (s.readS a).toNat, farmNext := 0 }).withMe
      { (s.reading [a]).me with farm := s.me.farm + 1 }).advance 4) := by
  have hx' : (s.reading [a]).kernel s.myCtx.kernel = some x := hx
  have hm : (s.reading [a]).me.farm = s.me.farm := by rw [State.me_reading]; rfl
  refine scalar_done _ _ _ _ _ h ?_
  rw [impureOnly_plain _ _ _ _ hp]
  simp only [State.readS_reading, State.kernelNo_reading, hx', hm, hf, not_le.2 hn, not_lt.2 he, Nat.lt_succ_self, and_false,
    if_false, if_true]
  rfl

/-- SNEXT where the farm of the hart has indices left (R340). -/
theorem execSnext_index (h : s.Ready [] [d]) (hf : x.farm = s.me.farm) (hl : x.farmNext < x.farmN) : execSnext d s =
    .next (((s.reading []).withKernel s.myCtx.kernel { x with farmNext := x.farmNext + 1 }).retire 4 d
      (BitVec.ofNat 64 x.farmNext)) := by
  have hx' : (s.reading []).kernel s.myCtx.kernel = some x := hx
  have hm : (s.reading []).me.farm = s.me.farm := by rw [State.me_reading]; rfl
  refine scalar_done _ _ _ _ _ h ?_
  rw [impureOnly_plain _ _ _ _ hp]
  simp only [State.kernelNo_reading, hx', hm, hf, hl, and_self, if_true]

/-- SNEXT where the farm of the hart is given out, or is another's (R340). -/
theorem execSnext_none (h : s.Ready [] [d]) (hl : x.farm ≠ s.me.farm ∨ x.farmN ≤ x.farmNext) : execSnext d s =
    .next ((s.reading []).retire 4 d (BitVec.allOnes 64)) := by
  have hx' : (s.reading []).kernel s.myCtx.kernel = some x := hx
  have hm : (s.reading []).me.farm = s.me.farm := by rw [State.me_reading]; rfl
  have hn : ¬ (x.farm = s.me.farm ∧ x.farmNext < x.farmN) := fun ⟨hf, hlt⟩ =>
    hl.elim (fun h => h hf) (fun h => absurd hlt (not_lt.2 h))
  refine scalar_done _ _ _ _ _ h ?_
  rw [impureOnly_plain _ _ _ _ hp]
  simp only [State.kernelNo_reading, hx', hm, hn, if_false]

end farm

end Sys2Proof.Machine

namespace Sys2Proof

open Machine

/-- Settles O47: the continuation keeps what the hart leaves behind, and the farm's counters are the kernel's. -/
theorem suspensionAndFarm : Obligations.SuspensionAndFarm := by
  unfold Obligations.SuspensionAndFarm
  refine ⟨fun s a m hp hq ho hd he hl ht hb hu => execTsusp_suspends hp hq ho hd he hl ht hb hu,
    fun s a m h => ⟨suspend_conts h, suspend_idle h⟩, fun s r id x hx => ?_,
    fun s d a x hp hx => ⟨fun h hn hf he => execSfarm_opens hp hx h hn hf he,
      fun h => ⟨fun hf hl => execSnext_index hp hx h hf hl, fun hl => execSnext_none hp hx h hl⟩⟩⟩
  obtain ⟨g, u, hg⟩ := startCont_hart hx
  rw [hg, Hart.writeS]
  split <;> exact ⟨rfl, rfl, rfl, rfl, rfl⟩

end Sys2Proof
end

section
/-! SUPPORT. Barriers: the barrier that a handle names, the arrivals of a phase and its end, and the collective of a phase
(16_barrier R362–R375). -/

namespace Sys2Proof.Machine

section arrivals

variable {s : State}

theorem mem_tput {α : Type} {t : Table α} {i : Nat} {x : α} {e : Nat × α} (h : e ∈ tput t i x) : e = (i, x) ∨ e ∈ t := by
  induction t with
  | nil => exact .inl (List.mem_singleton.1 h)
  | cons p r ih =>
    simp only [tput] at h
    split at h
    · exact List.mem_cons.1 h
    · split at h
      · exact (List.mem_cons.1 h).imp id (List.mem_cons_of_mem _)
      · rcases List.mem_cons.1 h with rfl | h
        · exact .inr List.mem_cons_self
        · exact (ih h).imp id (List.mem_cons_of_mem _)

theorem mem_of_tget {α : Type} {t : Table α} {i : Nat} {x : α} (h : tget t i = some x) : (i, x) ∈ t := by
  induction t with
  | nil => cases h
  | cons p r ih =>
    simp only [tget] at h
    split at h
    next he => exact List.mem_cons.2 (.inl (by rw [← Option.some.inj h, he]))
    · exact List.mem_cons_of_mem _ (ih h)

/-- Whether a hart of a context waits in a COLL of a handle (R366). -/
def Ctx.anyC (c : Ctx) (handle : Nat) : Bool :=
  (c.ch.arrival handle).c || (c.fh.arrival handle).c || (c.dh.arrival handle).c

theorem anyC_false_iff {k handle : Nat} :
    s.anyC k handle = false ↔ ∀ e ∈ s.ctxs, e.2.kernel = k → e.2.anyC handle = false := by
  simp only [State.anyC, List.any_eq_false, List.mem_filter, decide_eq_true_eq, and_imp, Ctx.anyC, Bool.not_eq_true]

theorem anyC_clearRead (c : Ctx) (k : HartKind) (reads : List SReg) (handle : Nat) :
    (c.withHart k ((c.hart k).clearRead reads)).anyC handle = c.anyC handle := by cases k <;> rfl

/-- Reading registers leaves the arrivals of all harts. -/
theorem anyC_reading (reads : List SReg) {k handle : Nat} (h : s.anyC k handle = false) :
    (s.reading reads).anyC k handle = false := by
  rw [anyC_false_iff] at h ⊢
  intro e he hk
  rcases mem_tput he with rfl | he
  · simp only [Ctx.withHart_kernel] at hk
    refine (anyC_clearRead (s.ctx s.cur.cid) s.cur.kind reads handle).trans ?_
    cases hc : tget s.ctxs s.cur.cid with
    | none =>
      rw [State.ctx, hc]
      rfl
    | some c =>
      rw [State.ctx, hc] at hk ⊢
      exact h _ (mem_of_tget hc) hk
  · exact h e he hk

end arrivals

section phases

variable {x : Barrier} {r : BarArrival}

/-- An arrival that completes a phase without a collective (R363). -/
theorem arrive_completes (ho : x.open_.any (fun y => y.coll.isSome) = false) (hr : r.coll = none) (hl : x.arrived < 8191)
    (he : x.expect ≤ x.arrived + 1) (hp : x.pend = 0) :
    (x.arrive r).phase = x.phase + 1 ∧ (x.arrive r).arrived = 0 := by
  have hm : min 8191 (x.arrived + 1) = x.arrived + 1 := Nat.min_eq_right hl
  have ho' : (x.open_ ++ [r]).any (fun y => y.coll.isSome) = false := by
    simp only [List.any_append, ho, List.any_cons, hr, Option.isSome_none, List.any_nil, Bool.or_self]
  simp only [Barrier.arrive, Barrier.test, hm, he, hp, ho', and_self, if_true, Bool.false_eq_true, if_false, Barrier.complete]

/-- An arrival that leaves its phase open (R363). -/
theorem arrive_stays (hl : x.arrived < 8191) (h : x.arrived + 1 < x.expect ∨ x.pend ≠ 0) :
    (x.arrive r).phase = x.phase ∧ (x.arrive r).arrived = x.arrived + 1 := by
  have hm : min 8191 (x.arrived + 1) = x.arrived + 1 := Nat.min_eq_right hl
  have hn : ¬ (x.expect ≤ x.arrived + 1 ∧ x.pend = 0) := fun ⟨he, hp⟩ => h.elim (fun h => by omega) (fun h => h hp)
  simp only [Barrier.arrive, Barrier.test, hm, hn, if_false, and_self]

end phases

section names

variable {s : State} {a : SReg} {r : BarRef} {k : BarRef → Barrier → State → Res} (reads : List SReg)

theorem barOf_reading :
    (s.reading reads).barOf (s.reading reads).myCtx.kernel (s.readS a) = s.barOf s.myCtx.kernel (s.readS a) := by
  rw [State.kernelNo_reading]
  rfl

theorem barrier_reading : (s.reading reads).barrier r = s.barrier r := by cases r <;> rfl

/-- A barrier instruction on a handle that names a barrier of the kernel (R366). -/
theorem barOp_named (h : s.barOf s.myCtx.kernel (s.readS a) = some r) :
    barOp a k (s.reading reads) = k r (s.barrier r) (s.reading reads) := by
  simp only [barOp, State.readS_reading, barOf_reading, h, barrier_reading]

/-- A barrier instruction on a handle that names none (R366). -/
theorem barOp_unnamed (h : s.barOf s.myCtx.kernel (s.readS a) = none) :
    barOp a k (s.reading reads) = .trap (object 3 1) (s.reading reads) := by
  simp only [barOp, State.readS_reading, barOf_reading, h]

theorem whenIdle_idle {b : Barrier} {q : Res} (h : b.running = false) : whenIdle b s q = q := by
  simp only [whenIdle, h, Bool.false_eq_true, if_false]

theorem me_withBarrier (b : Barrier) : (s.withBarrier r b).me = s.me := by cases r <;> rfl

theorem barrier_withBarrier (b : Barrier) : (s.withBarrier r b).barrier r = b := by
  cases r <;> simp only [State.withBarrier, State.barrier, tget_tput_same, Option.getD_some]

theorem cur_withBarrier (b : Barrier) : (s.withBarrier r b).cur = s.cur := by cases r <;> rfl

/-- A hart that waits after it has changed a barrier and itself. -/
theorem me_waiting (g : Hart) (b : Barrier) (un : List Nat) : ((((s.withMe g).withBarrier r b).withHart s.cur
    { ((s.withMe g).withBarrier r b).hart s.cur with unread := un }).waitHere false).me =
      { g with unread := un, yielding := false } := by
  have hc : ((s.withMe g).withBarrier r b).cur = s.cur := cur_withBarrier b
  rw [← hc]
  refine (State.me_waitHere _ _).trans ?_
  rw [← State.withMe, State.me_withMe, ← State.me, me_withBarrier, State.me_withMe]

theorem barrier_waiting (b : Barrier) (q : HartRef) (h : Hart) :
    (((s.withBarrier r b).withHart q h).waitHere false).barrier r = b := by
  refine Eq.trans ?_ (barrier_withBarrier (s := s) (r := r) b)
  cases r <;> rfl

theorem arrival_clearRead (h : Hart) (n : Nat) : (h.clearRead reads).arrival n = h.arrival n := rfl

theorem arrival_withArrival (h : Hart) (n : Nat) (y : Arrival) : (h.withArrival n y).arrival n = y := by
  simp only [Hart.withArrival, Hart.arrival, tget_tput_same, Option.getD_some]

end names

section barriers

variable {s : State} {a b d : SReg} {r : BarRef} (hp : s.Plain) (hq : s.Quiet) (ho : s.outstanding = false)
  (hb : s.barOf s.myCtx.kernel (s.readS a) = some r)

section
include hp hb

theorem execBarinit_sets (h : s.Ready [a, b, d] []) (h1 : 1 ≤ (s.readS b).toNat) (h2 : (s.readS b).toNat ≤ 4095)
    (ha : (s.barrier r).arrived = 0) (hc : s.anyC s.myCtx.kernel (s.readS a).toNat = false) :
    execBarinit a b d s = .next (((s.reading [a, b, d]).withBarrier r { s.barrier r with
      expect := (s.readS b).toNat, pend := (s.readS d).setWidth 40, ovf := false }).advance 4) := by
  refine scalar_done _ _ _ _ _ h ?_
  rw [impureOnly_plain _ _ _ _ hp, barOp_named _ hb]
  simp only [State.readS_reading, State.kernelNo_reading, anyC_reading _ hc, ha, not_lt.2 h1, not_lt.2 h2, or_self, if_false,
    ne_eq, not_true_eq_false, Bool.false_eq_true]

theorem execBartx_adds (h : s.Ready [a, b] []) (hr : (s.barrier r).running = false) : execBartx a b s =
    .next (((s.reading [a, b]).withBarrier r ((s.barrier r).addPend (s.readS b).toInt).test).advance 4) := by
  refine scalar_done _ _ _ _ _ h ?_
  rw [impureOnly_plain _ _ _ _ hp, barOp_named _ hb, whenIdle_idle hr, State.readS_reading]

theorem execBarwait_completes (h : s.Ready [a] []) (ha : (s.me.arrival (s.readS a).toNat).a = true)
    (hn : (s.barrier r).phase ≠ (s.me.arrival (s.readS a).toNat).arrph) :
    execBarwait a s = .next (((s.reading [a]).withMe { (s.reading [a]).me with barwait := none }).advance 4) := by
  refine scalar_done _ _ _ _ _ h ?_
  rw [impureOnly_plain _ _ _ _ hp, barOp_named _ hb]
  simp only [State.readS_reading, State.me_reading, arrival_clearRead, ha, if_true, if_pos (sub_ne_zero.2 hn)]

theorem execBartest_reads (h : s.Ready [a] [d]) : execBartest d a s = .next ((s.reading [a]).retire 4 d (BitVec.ofNat 64
    ((if (s.me.arrival (s.readS a).toNat).a ∧ (s.barrier r).phase ≠ (s.me.arrival (s.readS a).toNat).arrph then 2 ^ 63 else 0)
      + (if (s.barrier r).ovf then 2 ^ 62 else 0) + (s.barrier r).arrived * 2 ^ 40 + (s.barrier r).pend.toNat))) := by
  refine scalar_done _ _ _ _ _ h ?_
  rw [impureOnly_plain _ _ _ _ hp, barOp_named _ hb]
  simp only [State.readS_reading, State.me_reading, arrival_clearRead, Bool.and_eq_true, decide_eq_true_eq, sub_ne_zero]

include hq ho

theorem execBararr_arrives (h : s.Ready [a] []) (hr : (s.barrier r).running = false) : execBararr a s =
    .next ((((s.reading [a]).withMe ((s.reading [a]).me.withArrival (s.readS a).toNat
      { s.me.arrival (s.readS a).toNat with arrph := (s.barrier r).phase, a := true })).withBarrier r
      ((s.barrier r).arrive { ref := s.cur, coll := none })).advance 4) := by
  refine scalar_done _ _ _ _ _ h ?_
  rw [impureOnly_plain _ _ _ _ hp, release_goes _ hq ho, barOp_named _ hb, whenIdle_idle hr]
  simp only [State.readS_reading, State.me_reading, arrival_clearRead, State.cur_reading]

/-- COLL of a hart whose phase has completed (R373). -/
theorem execColl_returns (h : s.Ready [a, b] [d]) (hc : (s.me.arrival (s.readS a).toNat).c = true)
    (hn : (s.barrier r).phase ≠ (s.me.arrival (s.readS a).toNat).arrph) : execColl d a b s =
    .next (((s.reading [a, b]).withMe ((s.reading [a, b]).me.withArrival (s.readS a).toNat
      { s.me.arrival (s.readS a).toNat with c := false })).retire 4 d (s.barrier r).cstat) := by
  refine scalar_done _ _ _ _ _ h ?_
  rw [impureOnly_plain _ _ _ _ hp, release_goes _ hq ho, barOp_named _ hb]
  simp only [State.readS_reading, State.me_reading, arrival_clearRead, hc, if_true, if_pos (sub_ne_zero.2 hn)]

/-- COLL of a hart that arrives: the arrival stands while the hart waits (R373, R375). -/
theorem execColl_arrives {bs : List Byte} (h : s.Ready [a, b] [d]) (hc : (s.me.arrival (s.readS a).toNat).c = false)
    (hal : (s.readS b).toNat % 64 = 0)
    (hl : (s.reading [a, b]).load ((s.reading [a, b]).who s.cur) (s.readS b).toNat 64 = .ok bs)
    (hm : colMalformed (wordsOfBytes 8 bs) = false) (hr : (s.barrier r).running = false) :
    let u := ((s.reading [a, b]).withMe ((s.reading [a, b]).me.withArrival (s.readS a).toNat
      { arrph := (s.barrier r).phase, a := true, c := true })).withBarrier r
      ((s.barrier r).arrive { ref := s.cur, coll := some (wordsOfBytes 8 bs) })
    execColl d a b s = .next ((u.withHart s.cur { u.hart s.cur with unread := s.me.unread }).waitHere false) := by
  intro u
  refine scalar_wait _ _ _ _ _ _ h ?_
  rw [impureOnly_plain _ _ _ _ hp, release_goes _ hq ho, barOp_named _ hb]
  simp only [State.readS_reading, State.me_reading, arrival_clearRead, State.cur_reading, hc, hal, hl, MemRes.elim, hm,
    whenIdle_idle hr, Bool.false_eq_true, if_false, ne_eq, not_true_eq_false, u]

end

end barriers

section collectives

variable {s : State} {k : Nat} {x : Kernel}

/-- The barrier of the event COLLECTIVE_RUN. -/
def State.runBar (s : State) : Barrier := s.barrier (barRefOf s.evArg.a)

/-- LEN of the first descriptor of a phase (R372), 0 where it has none. -/
def Barrier.colLength (b : Barrier) : Nat := ((b.open_.filterMap (fun (y : BarArrival) => y.coll)).head?.map colLen).getD 0

variable (ho : s.runBar.owner = some k) (hx : s.kernel k = some x) (hr : s.runBar.running = true)

include ho hx hr

/-- COLLECTIVE_RUN of descriptors that do not match (R373). -/
theorem execCollectiveRun_mismatch (h : s.colMismatch s.runBar (x.handleOf (barRefOf s.evArg.a)) = true) :
    execCollectiveRun s =
      .next (s.withBarrier (barRefOf s.evArg.a) { s.runBar with cstat := 0x8100000000000000 }.complete) := by
  simp only [State.runBar] at ho hr h ⊢
  simp only [execCollectiveRun, ho, Option.bind_some, hx, hr, h, Bool.not_true, Bool.false_eq_true, if_false, if_true]

/-- COLLECTIVE_RUN of descriptors that match: the work of the phase, and its end (R373). -/
theorem execCollectiveRun_runs (h : s.colMismatch s.runBar (x.handleOf (barRefOf s.evArg.a)) = false)
    (hs : s.colStalls s.runBar = false) : execCollectiveRun s =
      .next (((s.collective s.runBar).1.logCollective s.runBar (s.collective s.runBar).2).withBarrier (barRefOf s.evArg.a)
        { s.runBar with
          cstat := colStatus (s.collective s.runBar).2 s.runBar.colLength }.complete) := by
  simp only [State.runBar] at ho hr h hs ⊢
  simp only [execCollectiveRun, ho, Option.bind_some, hx, hr, h, hs, Bool.not_true, Bool.false_eq_true, if_false]
  rfl

end collectives

end Sys2Proof.Machine

namespace Sys2Proof

open Machine

/-- Settles O50: each instruction on a named barrier does its own change, an arrival is tested once, and a collective's phase
completes after its work. -/
theorem barriers : Obligations.Barriers := by
  unfold Obligations.Barriers
  refine ⟨⟨fun s a b d hp hq ho => ⟨fun r hb => ⟨?_, ?_, ?_, ?_, ?_⟩, fun hb h => ⟨object 3 1, rfl, rfl, ?_⟩⟩,
      fun x r hopen hr hl => ⟨arrive_completes hopen hr hl, arrive_stays hl⟩⟩,
    fun s d a b r h hp hq ho hb => ⟨execColl_returns hp hq ho hb h, fun bs hc hal hl hm hr => ?_⟩,
    fun s k x hown hx hr => ⟨execCollectiveRun_mismatch hown hx hr, execCollectiveRun_runs hown hx hr,
      fun _ => ⟨rfl, rfl, rfl⟩⟩⟩
  · exact fun h h1 h2 ha hc => execBarinit_sets hp hb h h1 h2 ha hc
  · exact fun h hr => execBararr_arrives hp hq ho hb h hr
  · exact fun h hr => execBartx_adds hp hb h hr
  · exact fun h ha hn => execBarwait_completes hp hb h ha hn
  · exact fun h => execBartest_reads hp hb h
  · exact scalar_trap h hq (by rw [impureOnly_plain _ _ _ _ hp, release_goes _ hq ho, barOp_unnamed _ hb])
  · refine ⟨_, execColl_arrives hp hq ho hb h hc hal hl hm hr, ?_⟩
    rw [← s.cur_reading [a, b], me_waiting, barrier_waiting, State.me_reading]
    exact ⟨rfl, rfl, arrival_withArrival .., rfl⟩

end Sys2Proof
end

section
/-! SUPPORT. Queues: the queue that a handle names, what an operation finds and leaves, and the cycle in which a queue was made
CLOSED (15_queue R345–R358). -/

namespace Sys2Proof.Machine

section cycle

variable {s : State} {w : Window} {k : QKind} {i : Nat}

/-- A window that is CLOSED after an operation that finds it so: the operation may stand in the cycle of the close, or that
cycle has passed (R348). -/
def State.closedAfter (s : State) (w : Window) (k : QKind) : Window :=
  { w with closedBy := if s.sharesCycle w k then w.closedBy.map (fun p => (p.1, s.cyclePlace k)) else none }

theorem afterClose_same (h : w.state ≠ .closed ∨ w.closedBy = none) : s.afterClose i w k = s := if_pos h

theorem afterClose_closed (hc : w.state = .closed) (hb : w.closedBy.isSome = true) :
    s.afterClose i w k = s.withWindow i (s.closedAfter w k) := by
  have hn : ¬ (w.state ≠ .closed ∨ w.closedBy = none) := fun h =>
    h.elim (fun h => h hc) (fun h => by rw [h] at hb; cases hb)
  rw [State.afterClose, if_neg hn, State.closedAfter]
  split <;> rfl

theorem sharesCycle_none (h : w.closedBy = none) : s.sharesCycle w k = false := by
  rw [State.sharesCycle, h]
  rfl

theorem sharesCycle_iff {rs : List HartRef} {p : Nat} (h : w.closedBy = some (rs, p)) :
    s.sharesCycle w k = true ↔ p < s.cyclePlace k := by
  rw [State.sharesCycle, h, Option.any_some, decide_eq_true_eq]

/-- The places in a cycle stand by kind first (R348). -/
theorem cyclePlace_lt {t : State} {l : QKind} (hcore : s.myCtx.core < 384) (hslot : s.myCtx.slot < 2)
    (hk : k.rank < l.rank) : s.cyclePlace k < t.cyclePlace l := by
  have hh : kindNum s.cur.kind < 3 := by cases s.cur.kind <;> decide
  rw [State.cyclePlace, State.cyclePlace, show Config.cores = 384 from rfl]
  omega

/-- An issue of the moving hart: the windows learn of it, and nothing else of them changes (R348). -/
theorem windows_nowRunning : s.nowRunning.windows = s.windows.map (fun e => (e.1, e.2.hartIssues s.cur)) := by
  simp only [State.nowRunning]
  split
  · split <;> rfl
  · rfl

theorem closedBy_nowRunning {rs : List HartRef} {p : Nat} (h : (s.window i).closedBy = some (rs, p)) :
    (s.nowRunning.window i).closedBy = if s.cur ∈ rs then none else some (s.cur :: rs, p) := by
  rw [State.window, windows_nowRunning, tget_map_values (fun w : Window => w.hartIssues s.cur)]
  cases hw : tget s.windows i with
  | none =>
    rw [State.window, hw] at h
    cases h
  | some w =>
    rw [State.window, hw, Option.getD_some] at h
    simp only [Option.map_some, Option.getD_some, Window.hartIssues, h, Option.bind_some, List.contains_iff_mem]

end cycle

section handles

variable {s : State} {a : SReg} {i : Nat} {w : Window} {qk : QKind} {k : Nat → Window → State → Res} (reads : List SReg)

/-- A handle names a queue of the tenant that is live in a window (R345, R351). -/
def State.Names (s : State) (h : Word) (i : Nat) : Prop :=
  handleWindow h = some i ∧ (s.window i).live h = true ∧ (s.window i).tenant = s.myCtx.tenant

theorem tenant_reading : (s.reading reads).myCtx.tenant = s.myCtx.tenant := by
  rw [State.myCtx_reading, Ctx.withHart_tenant]

theorem who_reading : (s.reading reads).who s.cur = s.who s.cur := by
  have hc : (s.reading reads).ctx s.cur.cid = s.myCtx.withHart s.cur.kind (s.me.clearRead reads) := State.myCtx_reading reads
  rw [State.who, hc, Ctx.withHart_core, Ctx.withHart_tenant]
  rfl

theorem cyclePlace_reading : (s.reading reads).cyclePlace qk = s.cyclePlace qk := by
  rw [State.cyclePlace, State.myCtx_reading, Ctx.withHart_core, Ctx.withHart_slot]
  rfl

theorem sharesCycle_reading : (s.reading reads).sharesCycle w qk = s.sharesCycle w qk := by
  rw [State.sharesCycle, State.sharesCycle, cyclePlace_reading]

theorem closedAfter_reading : (s.reading reads).closedAfter w qk = s.closedAfter w qk := by
  rw [State.closedAfter, State.closedAfter, sharesCycle_reading, cyclePlace_reading]

theorem checkHandle_names (h : s.Names (s.readS a) i) :
    checkHandle (s.readS a) k (s.reading reads) = k i (s.window i) (s.reading reads) := by
  obtain ⟨hw, hl, ht⟩ := h
  have hl' : ((s.reading reads).window i).live (s.readS a) = true := hl
  have ht' : ((s.reading reads).window i).tenant = s.myCtx.tenant := ht
  simp only [checkHandle, hw, hl', ht', tenant_reading, Bool.not_true, Bool.false_eq_true, if_false, ne_eq,
    not_true_eq_false]
  rfl

end handles

section creates

variable {s : State} {d a : SReg} {i : Nat} {bs : List Byte} {fs : List Nat}

/-- QCREATE of a descriptor that passes its checks, with a free window in the quadrant (R353). -/
theorem execQcreate_takes (hp : s.Plain) (hq : s.Quiet) (h : s.Ready [a] [d]) (hal : (s.readS a).toNat % 64 = 0)
    (hl : (s.reading [a]).load (s.who s.cur) (s.readS a).toNat 64 = .ok bs) (hm : qdMalformed (wordsOfBytes 8 bs) = false)
    (hf : if qdRcap (wordsOfBytes 8 bs) = 0 then fs = [] else (s.reading [a]).ringFrames (s.who s.cur)
      (pagePieces (qdRbase (wordsOfBytes 8 bs)) (64 * qdRcap (wordsOfBytes 8 bs))) = .ok fs)
    (hi : (List.range 16).find? (fun j => decide ((s.window (coreQuad (s.who s.cur).core * 16 + j)).state = .free)) = some i) :
    let j := coreQuad (s.who s.cur).core * 16 + i
    execQcreate d a s = .next (((s.reading [a]).withWindow j {
      state := .active, gen := (s.window j).gen, tenant := (s.who s.cur).tenant, rbase := qdRbase (wordsOfBytes 8 bs)
      rcap := qdRcap (wordsOfBytes 8 bs), frames := fs, recs := [], rhead := 0, rcount := 0, seq := 0
      closedBy := none }).retire 4 d (queueHandle j (s.window j).gen)) := by
  intro j
  have hi' : (List.range 16).find? (fun j =>
      decide (((s.reading [a]).window (coreQuad (s.who s.cur).core * 16 + j)).state = .free)) = some i := hi
  refine scalar_done _ _ _ _ _ h ?_
  rw [impureOnly_plain _ _ _ _ hp, afterViq_quiet _ _ (s.quiet_reading _ hq)]
  by_cases h0 : qdRcap (wordsOfBytes 8 bs) = 0
  · rw [if_pos h0] at hf
    simp only [State.readS_reading, State.cur_reading, who_reading, hal, hl, MemRes.elim, hm, h0, hi', hf, ne_eq,
      not_true_eq_false, Bool.false_eq_true, if_false, if_true]
    rfl
  · rw [if_neg h0] at hf
    simp only [State.readS_reading, State.cur_reading, who_reading, hal, hl, MemRes.elim, hm, h0, hi', hf, ne_eq,
      not_true_eq_false, Bool.false_eq_true, if_false]
    rfl

end creates

section pushes

variable {s : State} {d a b : SReg} {i : Nat} {bs : List Byte} (hp : s.Plain) (hq : s.Quiet) (ho : s.outstanding = false)
  (h : s.Ready [a, b] [d]) (hn : s.Names (s.readS a) i) (hal : (s.readS b).toNat % 64 = 0)
  (hl : (s.reading [a, b]).load (s.who s.cur) (s.readS b).toNat 64 = .ok bs)

include hp hq ho h hn hal hl

/-- QPUSH of a record that can be read, on a queue that its handle names: by what the queue holds (R354). -/
theorem execQpush_by_queue :
    let t := s.reading [a, b]
    let w := s.window i
    execQpush d a b s = ((
      if w.state = .draining ∨ w.state = .closed then .done ((t.afterClose i w .push).retire 4 d (queueFail 1))
      else if w.count = 32 + w.rcap then .done (t.retire 4 d (queueFail 2))
      else if w.ringFull then .wait false t
      else if (w.rcount ≠ 0 ∨ 32 ≤ w.recs.length) ∧ t.slotWaits (w.slot ((w.rhead + w.rcount) % w.rcap)).2 then .wait false t
      else .done ((t.placeRecord i w bs).retire 4 d (BitVec.ofNat 64 (w.count + 1))) : Res).settle s s.me.unread).outcome := by
  intro t w
  rw [execQpush, scalar_ready _ _ _ _ h, impureOnly_plain _ _ _ _ hp, release_goes _ hq ho, checkHandle_names _ hn]
  simp only [State.readS_reading, State.cur_reading, who_reading, hal, hl, MemRes.elim, ne_eq, not_true_eq_false, if_false]
  rfl

/-- QPUSH onto a queue that takes no more records (R354). -/
theorem execQpush_ended (hs : (s.window i).state = .draining ∨ (s.window i).state = .closed) : execQpush d a b s =
    .next (((s.reading [a, b]).afterClose i (s.window i) .push).retire 4 d (queueFail 1)) := by
  rw [execQpush_by_queue hp hq ho h hn hal hl, if_pos hs]
  rfl

/-- QPUSH onto a queue that is full (R354). -/
theorem execQpush_full (hs : (s.window i).state = .active ∨ (s.window i).state = .spilling)
    (hc : (s.window i).count = 32 + (s.window i).rcap) : execQpush d a b s =
    .next ((s.reading [a, b]).retire 4 d (queueFail 2)) := by
  have hs' : ¬ ((s.window i).state = .draining ∨ (s.window i).state = .closed) := by
    rcases hs with hs | hs <;> rw [hs] <;> decide
  rw [execQpush_by_queue hp hq ho h hn hal hl, if_neg hs', if_pos hc]
  rfl

/-- QPUSH that meets a full ring and a window with room waits for the refill (R348, R349). -/
theorem execQpush_refills (hs : (s.window i).state = .spilling) (hc : (s.window i).count ≠ 32 + (s.window i).rcap)
    (hr : (s.window i).ringFull = true) : execQpush d a b s = .next (s.here.waitHere false) := by
  rw [execQpush_by_queue hp hq ho h hn hal hl, if_neg (by rw [hs]; decide), if_neg hc, if_pos hr, Res.settle,
    State.reading_undone]
  rfl

/-- QPUSH that places its record (R349, R354). -/
theorem execQpush_places (hs : (s.window i).state = .active ∨ (s.window i).state = .spilling)
    (hc : (s.window i).count ≠ 32 + (s.window i).rcap) (hr : (s.window i).ringFull = false)
    (hw : ((s.window i).rcount = 0 ∧ (s.window i).recs.length < 32) ∨ (s.reading [a, b]).slotWaits
      ((s.window i).slot (((s.window i).rhead + (s.window i).rcount) % (s.window i).rcap)).2 = false) :
    execQpush d a b s = .next (((s.reading [a, b]).placeRecord i (s.window i) bs).retire 4 d
      (BitVec.ofNat 64 ((s.window i).count + 1))) := by
  have hs' : ¬ ((s.window i).state = .draining ∨ (s.window i).state = .closed) := by
    rcases hs with hs | hs <;> rw [hs] <;> decide
  rw [execQpush_by_queue hp hq ho h hn hal hl, if_neg hs', if_neg hc, if_neg (by rw [hr]; decide), if_neg ?_]
  · rfl
  · rintro ⟨hroom, hwaits⟩
    rcases hw with ⟨h0, hlt⟩ | hw
    · exact hroom.elim (fun hne => hne h0) (not_le.2 hlt)
    · rw [hw] at hwaits
      cases hwaits

end pushes

section places

variable {s : State} {w : Window} {i : Nat} {bs : List Byte}

theorem ringFull_empty (h : w.rcount = 0) : w.ringFull = false := by
  simp only [Window.ringFull, h, ne_eq, not_true_eq_false, decide_false, Bool.false_and]

theorem ringFull_room (h : w.rcount < w.rcap) : w.ringFull = false := by
  simp only [Window.ringFull, Nat.ne_of_lt h, decide_false, Bool.and_false]

theorem placeRecord_window (h0 : w.rcount = 0) (hl : w.recs.length < 32) :
    s.placeRecord i w bs = s.withWindow i { w with recs := w.recs ++ [bs], seq := w.seq + 1 } := if_pos ⟨h0, hl⟩

theorem placeRecord_ring (h : w.rcount ≠ 0 ∨ 32 ≤ w.recs.length) : s.placeRecord i w bs =
    (s.syncWrite (s.who s.cur) (w.slot ((w.rhead + w.rcount) % w.rcap)).2 bs).withWindow i
      { w with state := .spilling, rcount := w.rcount + 1, seq := w.seq + 1 } :=
  if_neg fun ⟨h0, hl⟩ => h.elim (fun h => h h0) (not_le.2 hl)

end places

section pops

variable {s : State} {d a b : SReg} {i : Nat} {r : Region} (hp : s.Plain) (hq : s.Quiet)
  (h : s.Ready [a, b] [d]) (hn : s.Names (s.readS a) i) (hal : (s.readS b).toNat % 64 = 0)
  (hc : (s.reading [a, b]).storeCheck (s.who s.cur) .write storeKinds 64 .none false (s.readS b).toNat 64 = .ok r)

include hp hq h hn hal hc

/-- QPOP of a queue that has no records (R355). -/
theorem execQpop_empty (he : (s.window i).recs = []) (h0 : (s.window i).rcount = 0) : execQpop d a b s =
    .next (((s.reading [a, b]).afterClose i (s.window i) .pop).retire 4 d
      (queueFail (if (s.window i).state = .closed then 1 else 3))) := by
  have hcount : (s.window i).count = 0 := by rw [Window.count, he, h0, List.length_nil]
  refine scalar_done _ _ _ _ _ h ?_
  rw [impureOnly_plain _ _ _ _ hp, afterViq_quiet _ _ (s.quiet_reading _ hq), checkHandle_names _ hn]
  simp only [State.readS_reading, State.cur_reading, who_reading, hal, hc, MemRes.elim, hcount, ne_eq, not_true_eq_false,
    if_false, if_true]

/-- QPOP of a queue whose window has a record (R355). -/
theorem execQpop_head {bs : List Byte} {rest : List (List Byte)} (he : (s.window i).recs = bs :: rest)
    (hb : bs.length = 64) : execQpop d a b s =
    .next ((((s.reading [a, b]).withWindow i (s.afterPop { s.window i with recs := rest })).writeRegion (s.who s.cur) .none
      false (s.readS b).toNat bs r).retire 4 d (BitVec.ofNat 64 (rest.length + (s.window i).rcount))) := by
  have hcount : (s.window i).count = rest.length + (s.window i).rcount + 1 := by
    rw [Window.count, he, List.length_cons]
    omega
  have hpop (w : Window) : (s.reading [a, b]).afterPop w = s.afterPop w := by
    rw [State.afterPop, State.afterPop, State.closeFor, State.closeFor, cyclePlace_reading, State.cur_reading]
  refine scalar_done _ _ _ _ _ h ?_
  rw [impureOnly_plain _ _ _ _ hp, afterViq_quiet _ _ (s.quiet_reading _ hq), checkHandle_names _ hn]
  simp only [State.readS_reading, State.cur_reading, who_reading, hal, hc, MemRes.elim, hcount, ne_eq, not_true_eq_false,
    if_false, Nat.add_eq_zero_iff, Nat.one_ne_zero, and_false, he, hb, lt_irrefl, hpop, Nat.add_sub_cancel]

end pops

section infos

variable {s : State} {d a : SReg} {i : Nat} (hp : s.Plain) (hq : s.Quiet)

include hp hq

/-- QINFO of a queue that its handle names (R356). -/
theorem execQinfo_reads (h : s.Ready [a] [d]) (hn : s.Names (s.readS a) i) : execQinfo d a s =
    .next (((s.reading [a]).afterClose i (s.window i) .info).retire 4 d (BitVec.ofNat 64 ((s.window i).state.code * 2 ^ 61 +
      (s.window i).rcount * 2 ^ 38 + (s.window i).recs.length * 2 ^ 32 + (s.window i).seq.toNat))) := by
  obtain ⟨hw, hl, ht⟩ := hn
  have hw' : (s.reading [a]).window i = s.window i := rfl
  refine scalar_done _ _ _ _ _ h ?_
  rw [impureOnly_plain _ _ _ _ hp, afterViq_quiet _ _ (s.quiet_reading _ hq)]
  simp only [State.readS_reading, hw, hw', hl, ht, tenant_reading, Bool.not_true, Bool.false_eq_true, if_false, ne_eq,
    not_true_eq_false]

theorem execQinfo_unnamed (h : s.Ready [a] [d]) (hn : handleWindow (s.readS a) = none) :
    execQinfo d a s = .next (s.here.scalarTrap (object 2 1)) := by
  refine scalar_trap h hq ?_
  rw [impureOnly_plain _ _ _ _ hp, afterViq_quiet _ _ (s.quiet_reading _ hq)]
  simp only [State.readS_reading, hn]

/-- QCLOSE of a queue that its handle names (R357). -/
theorem execQclose_closes (ho : s.outstanding = false) (h : s.Ready [a] []) (hn : s.Names (s.readS a) i) :
    execQclose a s = .next (((s.reading [a]).closeQueue i (s.window i)).advance 4) := by
  refine scalar_done _ _ _ _ _ h ?_
  rw [impureOnly_plain _ _ _ _ hp, release_goes _ hq ho, checkHandle_names _ hn]

end infos

section closes

variable {s : State} {i : Nat} {w : Window}

theorem closeQueue_active (h : w.state = .active) :
    s.closeQueue i w = s.withWindow i (if w.count = 0 then s.closeFor w .close else { w with state := .draining }) := by
  simp only [State.closeQueue, h]

theorem closeQueue_spilling (h : w.state = .spilling) : s.closeQueue i w = s.withWindow i { w with state := .draining } := by
  simp only [State.closeQueue, h]

theorem closeQueue_draining (h : w.state = .draining) : s.closeQueue i w = s := by
  simp only [State.closeQueue, h]

/-- QCLOSE of a queue that is CLOSED, in a later cycle: it is freed (R357). -/
theorem closeQueue_later (h : w.state = .closed) (hs : s.sharesCycle w .close = false) :
    s.closeQueue i w = s.withWindow i w.freed := by
  simp only [State.closeQueue, h, hs, Bool.not_false, if_true]

/-- QCLOSE that may stand in the cycle in which the queue was made CLOSED frees it or not (R348, R357). -/
theorem closeQueue_same (h : w.state = .closed) (hs : s.sharesCycle w .close = true) :
    s.closeQueue i w = (s.freeBelow 2).2.withWindow i w.freed ∨
      s.closeQueue i w = (s.freeBelow 2).2.withWindow i (s.closedAfter w .close) := by
  have hb : w.closedBy.isSome = true := by
    cases hb : w.closedBy with
    | none => rw [sharesCycle_none hb] at hs; cases hs
    | some p => rfl
  simp only [State.closeQueue, h, hs, Bool.not_true, Bool.false_eq_true, if_false]
  split
  · exact .inl rfl
  · exact .inr (afterClose_closed (s := (s.freeBelow 2).2) h hb)

/-- An instruction of four bytes that changes a window. -/
theorem window_put (w : Window) : ((s.withWindow i w).advance 4).me.pc = s.me.pc + 4 ∧
    ((s.withWindow i w).advance 4).mem = s.mem ∧ ((s.withWindow i w).advance 4).window i = w := by
  refine ⟨congrArg Hart.pc (State.me_withMe _ _), rfl, ?_⟩
  exact congrArg (fun o => Option.getD o Window.reset) (tget_tput_same s.windows i w)

end closes

section refill

variable {s : State} {i : Nat}

/-- QUEUE_REFILL of the head of a ring that can be read (R349). -/
theorem execQueueRefill_moves (hi : i = s.evArg.a) (hs : (s.window i).state ≠ .free) (hr : 0 < (s.window i).rcount)
    (hl : (s.window i).recs.length < 32)
    (hbad : s.imageBad (i / 16 * 24) ((s.window i).slot (s.window i).rhead).2 64 = false)
    (hbehind : s.behind (i / 16 * 24) .sync ((s.window i).slot (s.window i).rhead).2 64 = false) :
    execQueueRefill s = .next (s.withWindow i { s.window i with
      recs := (s.window i).recs ++ [s.memBytes ((s.window i).slot (s.window i).rhead).2 64]
      rhead := ((s.window i).rhead + 1) % (s.window i).rcap, rcount := (s.window i).rcount - 1
      state := if (s.window i).state = .spilling ∧ (s.window i).rcount = 1 then .active else (s.window i).state }) := by
  have hr' : (s.window i).rcount ≠ 0 := Nat.ne_of_gt hr
  subst hi
  simp only [execQueueRefill, Config.coresPerQuad, Config.windowCap, hs, hr', not_le.2 hl, hbad, hbehind, Bool.false_eq_true,
    or_self, if_false]

end refill

end Sys2Proof.Machine

namespace Sys2Proof

open Machine

/-- Settles O49: each operation by the state of the queue that its handle names, and the places of a cycle by kind. -/
theorem queues : Obligations.Queues := by
  unfold Obligations.Queues
  refine ⟨fun s d a b i bs hp hq ho => ⟨?create, ?push, ?pop, ?info⟩,
    fun s w k => ⟨sharesCycle_none, fun rs p => sharesCycle_iff⟩, fun s i rs p => closedBy_nowRunning,
    fun s t k l => cyclePlace_lt, fun s => ?refill⟩
  case create => exact fun fs h hal hl hm hf hi => execQcreate_takes hp hq h hal hl hm hf hi
  case push =>
    intro t h hn hal hl
    refine ⟨fun hs h0 hlt => ?_, fun hs hc => ?_, fun hs hr h0 hlt => ?_, fun hs hc hm hb => ?_, fun hs => ?_,
      fun hs hb => ?_⟩
    · refine (execQpush_places hp hq ho h hn hal hl (.inl hs) ?_ (ringFull_empty h0) (.inl ⟨h0, hlt⟩)).trans ?_
      · rw [Window.count, h0]
        omega
      · rw [placeRecord_window h0 hlt, Window.count, h0]
    · exact execQpush_full hp hq ho h hn hal hl hs hc
    · refine execQpush_refills hp hq ho h hn hal hl hs ?_ ?_
      · rw [Window.count, hr]
        omega
      · simp only [Window.ringFull, hr, Nat.ne_of_gt (hr ▸ h0), decide_true, Bool.and_self, ne_eq, not_false_eq_true]
    · have hwaits : (s.reading [a, b]).slotWaits
          ((s.window i).slot (((s.window i).rhead + (s.window i).rcount) % (s.window i).rcap)).2 = false := by
        rw [State.slotWaits, core_reading]
        exact Bool.or_eq_false_iff.2 ⟨hm, hb⟩
      obtain ⟨hst, hfull, hroom⟩ : ((s.window i).state = .active ∨ (s.window i).state = .spilling) ∧
          (s.window i).ringFull = false ∧ ((s.window i).rcount ≠ 0 ∨ 32 ≤ (s.window i).recs.length) := by
        rcases hs with ⟨hst, h0, hlt⟩ | ⟨hst, h0, hle⟩
        · exact ⟨.inr hst, ringFull_room hlt, .inl (Nat.ne_of_gt h0)⟩
        · exact ⟨.inl hst, ringFull_empty h0, .inr hle⟩
      refine (execQpush_places hp hq ho h hn hal hl hst hc hfull (.inr hwaits)).trans ?_
      rw [placeRecord_ring hroom, State.cur_reading, who_reading]
      rfl
    · refine (execQpush_ended hp hq ho h hn hal hl (hs.imp id And.left)).trans ?_
      rw [afterClose_same (hs.imp (fun hs => by rw [hs]; decide) And.right)]
      rfl
    · refine (execQpush_ended hp hq ho h hn hal hl (.inr hs)).trans ?_
      rw [afterClose_closed hs hb, closedAfter_reading]
      rfl
  case pop =>
    intro t h hn hal r hc
    refine ⟨fun he h0 hs => ?_, fun he h0 hs hb => ?_, fun he h0 hs hb => ?_, fun rest he hlen => ?_⟩
    · refine (execQpop_empty hp hq h hn hal hc he h0).trans ?_
      rw [afterClose_same (.inl (by rw [hs]; decide)), hs]
      rfl
    · refine (execQpop_empty hp hq h hn hal hc he h0).trans ?_
      rw [afterClose_closed hs hb, closedAfter_reading, if_pos hs]
      rfl
    · refine (execQpop_empty hp hq h hn hal hc he h0).trans ?_
      rw [afterClose_same (.inr hb), if_pos hs]
      rfl
    · refine (execQpop_head hp hq h hn hal hc he hlen).trans ?_
      rw [State.afterPop, Window.count]
      rfl
  case info =>
    refine ⟨fun h hn hs => ?_, fun h hn hs hb => ?_, fun h hn => ⟨object 2 1, rfl, rfl, execQinfo_unnamed hp hq h hn⟩,
      fun h hn hs => ?_, fun h hn hs => ?_, fun h hn hs => ?_, fun h hn hs => ⟨fun hc => ?_, fun hc => ?_⟩⟩
    · refine (execQinfo_reads hp hq h hn).trans ?_
      rw [afterClose_same hs]
    · refine (execQinfo_reads hp hq h hn).trans ?_
      rw [afterClose_closed hs hb, closedAfter_reading]
      rfl
    · refine (execQclose_closes hp hq ho h hn).trans ?_
      rw [closeQueue_active hs, State.closeFor, cyclePlace_reading]
      rfl
    · refine (execQclose_closes hp hq ho h hn).trans ?_
      rw [closeQueue_spilling hs]
    · refine (execQclose_closes hp hq ho h hn).trans ?_
      rw [closeQueue_draining hs]
    · refine (execQclose_closes hp hq ho h hn).trans ?_
      rw [closeQueue_later hs (by rw [sharesCycle_reading]; exact hc)]
      rfl
    · refine ⟨_, execQclose_closes hp hq ho h hn, ?_⟩
      have hpc4 : ((s.reading [a]).freeBelow 2).2.me.pc = s.me.pc :=
        (congrArg Hart.pc (s.me_reading [a]) : (s.reading [a]).me.pc = (s.me.clearRead [a]).pc)
      rcases closeQueue_same (s := s.reading [a]) (i := i) hs (by rw [sharesCycle_reading]; exact hc) with hclose | hclose
      · rw [hclose]
        obtain ⟨hpc, hmem, hwin⟩ := window_put (s := ((s.reading [a]).freeBelow 2).2) (i := i) (s.window i).freed
        exact ⟨hpc.trans (by rw [hpc4]), hmem, .inl hwin⟩
      · rw [hclose, closedAfter_reading]
        obtain ⟨hpc, hmem, hwin⟩ := window_put (s := ((s.reading [a]).freeBelow 2).2) (i := i)
          (s.closedAfter (s.window i) .close)
        exact ⟨hpc.trans (by rw [hpc4]), hmem, .inr hwin⟩
  case refill => exact execQueueRefill_moves rfl

end Sys2Proof
end

section
/-! SUPPORT. LAUNCH, doorbells and the entries of kernel queues, by the check that decides each (13_kernel R299–R304). -/

namespace Sys2Proof.Machine

section launch

variable {s : State} {d a : SReg}

/-- The two reads of LAUNCH (R296, R303): the header, and the channels that it names. -/
def State.ReadsRecord (s : State) (x : Nat) (hb tb : List Byte) : Prop :=
  let n := 16 * shNchan ((wordsOfBytes 16 hb).getD 3 0)
  s.loadFor (s.who s.cur) 1 .read loadKinds 1 x 128 = .ok hb ∧
    (if n = 0 then tb = [] else s.loadFor (s.who s.cur) 1 .read loadKinds 1 (x + 128) n = .ok tb)

/-- What LAUNCH answers of a record that it submits (R300). -/
def launchWord (why : Option Nat) (k : Nat) : Nat :=
  match why with
  | some e => 2 ^ 63 + e * 2 ^ 56 + k
  | none => k

variable (h : s.Ready [a] [d]) (hp : s.Plain) (hq : s.Quiet) (ho : s.outstanding = false)

include h hp hq ho

/-- LAUNCH of an address off its alignment (R303). -/
theorem execLaunch_misaligned (hal : (s.readS a).toNat % 64 ≠ 0) :
    execLaunch d a s = .next ((s.reading [a]).retire 4 d 0x8100000000000000) := by
  refine scalar_done _ _ _ _ _ h ?_
  rw [impureOnly_plain _ _ _ _ hp, release_goes _ hq ho]
  simp only [State.readS_reading, hal, ne_eq, not_false_eq_true, if_true]

variable {hb tb : List Byte} (hal : (s.readS a).toNat % 64 = 0)
  (hr : (s.reading [a]).ReadsRecord (s.readS a).toNat hb tb)

include hal hr

/-- LAUNCH of a record that can be read: by the number of kernels that wait (R303). -/
theorem execLaunch_reads :
    let t := s.reading [a]
    let r := launchRecOf (wordsOfBytes 16 hb) (wordsOfBytes (16 * shNchan ((wordsOfBytes 16 hb).getD 3 0) / 8) tb)
    let why := t.refusal (.hart s.myCtx.tenant s.myCtx.super) (s.readS a).toNat r
    execLaunch d a s = .next (if 256 ≤ s.queuedOf s.myCtx.tenant then t.retire 4 d 0x8600000000000000
      else (t.submit r.tenant r why).retire 4 d (BitVec.ofNat 64 (launchWord why s.kernelNo.toNat))) := by
  intro t r why
  obtain ⟨hhdr, htab⟩ := hr
  rw [State.cur_reading] at hhdr htab
  have hqueued (n : Nat) : (s.reading [a]).queuedOf n = s.queuedOf n := rfl
  refine scalar_done _ _ _ _ _ h ?_
  rw [impureOnly_plain _ _ _ _ hp, release_goes _ hq ho]
  simp only [State.readS_reading, State.cur_reading, hal, hhdr, MemRes.elim, tenant_reading, super_reading, hqueued, ne_eq,
    not_true_eq_false, if_false]
  split at htab
  next h0 =>
    rw [if_pos h0, ← htab]
    exact (apply_ite Res.done _ _ _).symm
  next h0 =>
    rw [if_neg h0, htab]
    exact (apply_ite Res.done _ _ _).symm

end launch

section doorbells

variable {s : State} {n : Nat}

/-- The queue that an event names. -/
def State.evQueue (s : State) : KQueue := s.kqueue s.evArg.a s.evArg.b

variable (hb : s.evArg.b < 4) (hcxl : s.cxlDown = false)

include hb hcxl

/-- A doorbell of a queue that is not enabled (R302). -/
theorem execDoorbell_disabled (h : s.evQueue.entries = none) :
    execDoorbell s = .next (s.withKqueue s.evArg.a s.evArg.b { s.evQueue with err := true }) := by
  rw [State.evQueue] at h
  simp only [execDoorbell, not_le.2 hb, h, overCxl_up hcxl, if_false]
  rfl

/-- A doorbell of an enabled queue that is refused (R302; 20_system R450, R451). -/
theorem execDoorbell_refused (h : s.evQueue.entries = some n) (hr : s.dev.ready = false ∨ s.resetting s.evArg.a = true ∨
    n < (s.evArg.w.setWidth 32 - s.evQueue.head).toNat) :
    execDoorbell s = .next (s.withKqueue s.evArg.a s.evArg.b { s.evQueue with err := true }) := by
  rw [State.evQueue] at h hr
  have hr' : !s.dev.ready ∨ s.resetting s.evArg.a ∨
      n < (s.evArg.w.setWidth 32 - (s.kqueue s.evArg.a s.evArg.b).head).toNat :=
    hr.imp_left (fun hr => by rw [hr]; rfl)
  simp only [execDoorbell, not_le.2 hb, h, overCxl_up hcxl, if_false, if_pos hr']
  rfl

/-- A doorbell of an enabled queue within its size (R302). -/
theorem execDoorbell_sets (h : s.evQueue.entries = some n) (hd : s.dev.ready = true) (hr : s.resetting s.evArg.a = false)
    (hn : (s.evArg.w.setWidth 32 - s.evQueue.head).toNat ≤ n) : execDoorbell s =
      .next (s.withKqueue s.evArg.a s.evArg.b { s.evQueue with tail := s.evArg.w.setWidth 32 }) := by
  rw [State.evQueue] at h hn
  simp only [execDoorbell, not_le.2 hb, h, overCxl_up hcxl, if_false, hd, hr, Bool.not_true, Bool.false_eq_true, false_or,
    not_lt.2 hn]
  rfl

end doorbells

section takes

variable {s : State} {n : Nat}

/-- Where the next entry of the queue that an event names stands. -/
def State.entryAt (s : State) (n : Nat) : Nat := bits s.evQueue.base 0 57 + 8 * (s.evQueue.head.toNat % n)

/-- The address of a record that the next entry gives, where it can be read. -/
def State.entryAddr (s : State) (n : Nat) : Option Nat :=
  (s.funcRead s.evArg.a (s.entryAt n) 8).map (fun bs => (wordOfBytes bs).toNat)

variable (hn : s.evQueue.entries = some n) (hne : s.evQueue.head ≠ s.evQueue.tail) (hd : s.dev.ready = true)

include hn hne hd

/-- KQ_ENTRY_TAKE of an entry whose record can be read (R302). -/
theorem execKqEntryTake_submits {addr : Nat} {r : LaunchRec} (ha : s.entryAddr n = some addr)
    (hr : s.readRecord s.evArg.a addr = some r) : execKqEntryTake s =
      .next ((s.submit r.tenant r (s.refusal (.func s.evArg.a) addr r)).withKqueue s.evArg.a s.evArg.b
        { s.evQueue with head := s.evQueue.head + 1 }) := by
  simp only [State.entryAddr, State.entryAt, State.evQueue] at hn hne ha
  simp only [execKqEntryTake, hn, hne, hd, ha, hr, Option.bind_some, Option.map_some, Bool.not_true, Bool.false_eq_true,
    or_self, if_false]
  rfl

/-- KQ_ENTRY_TAKE of an entry that cannot be read, or whose record cannot (R302). -/
theorem execKqEntryTake_unreadable (hr : (s.entryAddr n).bind (s.readRecord s.evArg.a) = none) : execKqEntryTake s =
    .next (((s.logTake s.evArg.a (s.entryAt n) (s.entryAddr n)).submit s.evArg.a noRecord (some 7)).withKqueue s.evArg.a
      s.evArg.b { s.evQueue with head := s.evQueue.head + 1, err := true }) := by
  have hb : (s.entryAddr n).bind (fun a => (s.readRecord s.evArg.a a).map (fun r => (a, r))) = none := by
    cases ha : s.entryAddr n with
    | none => rfl
    | some addr =>
      rw [ha, Option.bind_some] at hr
      rw [Option.bind_some, hr, Option.map_none]
  simp only [State.entryAddr, State.entryAt, State.evQueue] at hn hne hb
  simp only [execKqEntryTake, hn, hne, hd, hb, Bool.not_true, Bool.false_eq_true, or_self, if_false]
  rfl

end takes

end Sys2Proof.Machine

namespace Sys2Proof

open Machine

/-- Settles O48: LAUNCH, a doorbell and the take of an entry, each by the first check that decides it. -/
theorem launches : Obligations.Launches := by
  unfold Obligations.Launches
  refine ⟨fun s d a hb tb h hp hq ho => ⟨fun hal => execLaunch_misaligned h hp hq ho hal, fun hal hr hl => ?_,
      fun hal hr hl => ?_⟩, fun s hb hcxl hr => ?_, fun s n hb hn hd hr hcxl => ⟨fun hle => ?_, fun hlt => ?_⟩,
    fun s n bs r hn hne hd ha hr => ?_, fun s n hn hne hd hr => ?_⟩
  · refine (execLaunch_reads h hp hq ho hal hr).trans ?_
    rw [if_neg (not_le.2 hl)]
    rfl
  · refine (execLaunch_reads h hp hq ho hal hr).trans ?_
    rw [if_pos hl]
  · cases hn : s.evQueue.entries with
    | none => exact execDoorbell_disabled hb hcxl hn
    | some n =>
      refine execDoorbell_refused hb hcxl hn (hr.imp_right (fun hr => hr.elim .inl (fun hr => ?_)))
      exact nomatch hn.symm.trans hr
  · exact execDoorbell_sets hb hcxl hn hd hr hle
  · exact execDoorbell_refused hb hcxl hn (.inr (.inr hlt))
  · exact execKqEntryTake_submits hn hne hd (congrArg (Option.map fun bs => (wordOfBytes bs).toNat) ha) hr
  · exact execKqEntryTake_unreadable hn hne hd hr

end Sys2Proof
end

section
/-! SUPPORT. The REUSE major: the registration of code, the key of a record in memory, and what RUQUERY and RUINVAL make of it
(17_reuse R381, R406–R409). -/

namespace Sys2Proof.Machine

section readings

variable {s : State}

/-- Readings of WGEN leave everything else. -/
theorem foldl_wgenRead (fs : List Nat) (s : State) :
    fs.foldl (fun s f => s.wgenRead f) s = { s with wgen := (fs.foldl (fun s f => s.wgenRead f) s).wgen } := by
  induction fs generalizing s with
  | nil => rfl
  | cons f fs ih =>
    rw [List.foldl_cons, ih]
    rfl

theorem tenant_foldl_wgenRead (fs : List Nat) (n : Nat) : (fs.foldl (fun s f => s.wgenRead f) s).tenant n = s.tenant n := by
  rw [foldl_wgenRead]
  rfl

theorem myCtx_keyReads (byAddr : Bool) (q : Keyed) : (s.keyReads byAddr q).myCtx = s.myCtx := by
  rw [State.keyReads]
  split
  · rw [foldl_wgenRead]
    rfl
  · rfl

theorem rangePlaces_reading (reads : List SReg) (w : Who) (need : Need) (r : Nat × Nat) :
    (s.reading reads).rangePlaces w need r = s.rangePlaces w need r := by
  simp only [State.rangePlaces, State.reading, State.withMe, State.withHart, translate_withCtx]

end readings

section cdreg

variable {s : State} {d a b : SReg} {bs : List Byte} {i : Nat} {frames : List Nat}

/-- The frames that a fetch of code reads (R381). -/
def State.codeFrames (s : State) (x n : Nat) : List Nat :=
  ((s.rangePlaces (s.who s.cur) .fetch (x, n)).getD []).map (fun p => frameKey p.2.kind p.2.pa)

/-- The slot of newly registered code (R381, R382). -/
def State.codeSlot (s : State) (x n i : Nat) (bs : List Byte) : CodeSlot :=
  { frames := allFrames ((s.rangePlaces (s.who s.cur) .fetch (x, n)).getD []), used := true
    gen := ((tget (s.tenant (s.who s.cur).tenant).slots i).map (·.gen)).getD 0, start := x, len := n
    digest := sha256 bs, wgens := (s.codeFrames x n).map (fun f => (f, s.wgenOf f)) }

/-- CDREG of code that can be read, for a tenant with no used slot (R381). -/
theorem execCdreg_registers (hp : s.Plain) (hq : s.Quiet) (h : s.Ready [a, b] [d]) (h0 : 0 < (s.readS b).toNat)
    (hn : (s.readS b).toNat ≤ 65536) (hx4 : (s.readS a).toNat % 4 = 0) (hn4 : (s.readS b).toNat % 4 = 0)
    (hl : (s.reading [a, b]).loadFor ((s.reading [a, b]).who s.cur) 3 .fetch fetchKinds 4 (s.readS a).toNat
      (s.readS b).toNat = .ok bs)
    (hused : (s.tenant (s.who s.cur).tenant).slots.all (fun e => !e.2.used) = true)
    (hi : (List.range 64).find? (fun i => !((tget (s.tenant (s.who s.cur).tenant).slots i).map (·.used)).getD false) = some i) :
    execCdreg d a b s = .next (((
      (s.codeFrames (s.readS a).toNat (s.readS b).toNat).foldl (fun s f => s.wgenRead f) (s.reading [a, b])).withTenant
        (s.who s.cur).tenant { s.tenant (s.who s.cur).tenant with
          slots := tput (s.tenant (s.who s.cur).tenant).slots i (s.codeSlot (s.readS a).toNat (s.readS b).toNat i bs) }).retire
        4 d (handleOf i (s.codeSlot (s.readS a).toNat (s.readS b).toNat i bs))) := by
  have hnone (p : Nat × CodeSlot → Bool) :
      (s.tenant (s.who s.cur).tenant).slots.find? (fun e => e.2.used && p e) = none := by
    rw [List.find?_eq_none]
    intro e he
    rw [Bool.eq_false_of_not_eq_true' (List.all_eq_true.1 hused e he)]
    exact Bool.false_ne_true
  have ht : (s.reading [a, b]).tenant (s.who s.cur).tenant = s.tenant (s.who s.cur).tenant := rfl
  rw [who_reading] at hl
  refine scalar_done _ _ _ _ _ h ?_
  rw [impureOnly_plain _ _ _ _ hp, afterViq_quiet _ _ (s.quiet_reading _ hq)]
  simp only [State.readS_reading, State.cur_reading, who_reading, Nat.ne_of_gt h0, hx4, hn4, not_lt.2 hn, hl, MemRes.elim, ht,
    rangePlaces_reading, tenant_foldl_wgenRead, Bool.and_assoc, hnone, hi, ne_eq, not_true_eq_false, or_self, if_false]
  rfl

end cdreg

section query

variable {s : State} {a : SReg} {k : Except NoKey Keyed → PureState → State → Res} {bs ds : List Byte}

/-- What a query makes of the forming of a key (R406). -/
def KeyRes.query (r : KeyRes) (w : Who) (p : PureState) (k : Except NoKey Keyed → PureState → State → Res) (s : State) : Res :=
  match r with
  | .noKey c => k (.error c) p s
  | .skip t => k (.error .skipped) p (s.logSkip w t)
  | .wait => .wait false s
  | .key q => k (.ok q) p (s.keyReads p.byAddr q)

variable {x : Nat} {w : Who} (hx : (s.readS a).toNat = x) (hw : s.who s.cur = w) (hal : x % 64 = 0)
  (hl : s.loadFor w 1 .read loadKinds 8 x 64 = .ok bs)

include hx hw hal hl

/-- A query of a record that is not pure (R406). -/
theorem queryKey_impure (h3 : bit (taskRecOf (wordsOfBytes 8 bs)).w1 3 = false) :
    queryKey a k s = k (.error .notPure) (pureOf (taskRecOf (wordsOfBytes 8 bs)) w.core) s := by
  simp only [queryKey, hx, hw, hal, hl, MemRes.elim, h3, Bool.not_false, ne_eq, not_true_eq_false, if_false, if_true]

/-- A query of a pure record whose descriptor can be read: by the forming of its key (R406). -/
theorem queryKey_pure {p : PureState} (h3 : bit (taskRecOf (wordsOfBytes 8 bs)).w1 3 = true)
    (hpure : pureOf (taskRecOf (wordsOfBytes 8 bs)) w.core = p) (hd : p.desc % 64 = 0)
    (hl2 : s.loadFor w 1 .read loadKinds 8 p.desc 320 = .ok ds) (hm : descMalformed (wordsOfBytes 40 ds) = false) :
    queryKey a k s = (s.keyOf w (p.withDesc (wordsOfBytes 40 ds))).query w (p.withDesc (wordsOfBytes 40 ds)) k s := by
  simp only [queryKey, hx, hw, hpure, hal, hl, MemRes.elim, h3, hd, hl2, hm, Bool.not_true, Bool.false_eq_true, ne_eq,
    not_true_eq_false, if_false]
  rfl

end query

section reuse

variable {s : State} {d a : SReg}

/-- What RUQUERY answers of the forming of a key (R407). -/
def answerKey (d : SReg) (r : Except NoKey Keyed) (_ : PureState) (s : State) : Res :=
  match r with
  | .error c => .done (s.retire 4 d (BitVec.ofNat 64 (2 ^ 63 + c.code * 2 ^ 56)))
  | .ok k => .done (s.retire 4 d (match s.matching s.myCtx.tenant k.key with
      | some e => if e.2.state = .valid then 2 else 1
      | none => 0))

/-- What RUINVAL does with the key of a record (R406). -/
def invalKey (r : Except NoKey Keyed) (_ : PureState) (s : State) : Res :=
  match r with
  | .error .malformed => .trap (object 4 1) s
  | .error _ => .done (s.advance 4)
  | .ok k =>
    match s.matching s.myCtx.tenant k.key with
    | some e => .done ((s.dropEntries (fun i _ => decide (i = e.1))).advance 4)
    | none => .done (s.advance 4)

variable {k : Except NoKey Keyed → PureState → State → Res} {writes : List SReg}

/-- The two instructions of a key are a query. -/
theorem execRuquery_eq : execRuquery d a s = scalar [a] [d] (impureOnly 6 (afterViq (queryKey a (answerKey d)))) s := rfl

theorem execRuinval_eq : execRuinval a s = scalar [a] [] (impureOnly 6 (afterViq (queryKey a invalKey))) s := by
  unfold execRuinval invalKey
  rfl

section
variable (hp : s.Plain) (hq : s.Quiet) (h : s.Ready [a] writes)
include hp hq h

theorem query_done {u : State} (hk : queryKey a k (s.reading [a]) = .done u) :
    scalar [a] writes (impureOnly 6 (afterViq (queryKey a k))) s = .next u :=
  scalar_done _ _ _ _ _ h (by
    rw [impureOnly_plain _ _ _ _ hp, afterViq_quiet _ _ (s.quiet_reading _ hq), hk])

theorem query_wait (hk : queryKey a k (s.reading [a]) = .wait false (s.reading [a])) :
    scalar [a] writes (impureOnly 6 (afterViq (queryKey a k))) s = .next (s.waitHere false) :=
  scalar_wait_same _ _ _ _ _ h (by
    rw [impureOnly_plain _ _ _ _ hp, afterViq_quiet _ _ (s.quiet_reading _ hq), hk])

end

/-- RUSTAT (R408). -/
theorem execRustat_reads (hp : s.Plain) (h : s.Ready [a] [d]) : execRustat d a s = .next ((s.reading [a]).retire 4 d
    (if 7 < (s.readS a).toNat then 0 else if (s.readS a).toNat = 6 then BitVec.ofNat 64 (s.held s.myCtx.tenant)
      else sget 0 (s.tenant s.myCtx.tenant).counts (s.readS a).toNat)) := by
  refine scalar_done _ _ _ _ _ h ?_
  rw [impureOnly_plain _ _ _ _ hp]
  simp only [State.readS_reading, tenant_reading]
  rfl

/-- RUFLUSH at SUPER (R409). -/
theorem execRuflush_drops (hp : s.Plain) (h : s.Ready [a] []) (hs : s.myCtx.super = true) : execRuflush a s =
    .next (((s.reading [a]).dropEntries (fun _ e => bit (s.readS a) 9 || decide (e.tenant = bits (s.readS a) 0 7))).advance
      4) := by
  refine scalar_done _ _ _ _ _ h ?_
  simp only [super_reading, hs, Bool.not_true, Bool.false_eq_true, if_false]
  rw [impureOnly_plain _ _ _ _ hp]
  simp only [State.readS_reading]

/-- RUFLUSH below SUPER (R409). -/
theorem execRuflush_illegal (hq : s.Quiet) (h : s.Ready [a] []) (hs : s.myCtx.super = false) :
    execRuflush a s = .next (s.here.scalarTrap (illegal (s.reading [a]) 6 0)) := by
  refine scalar_trap h hq ?_
  simp only [super_reading, hs, Bool.not_false, if_true]

end reuse

end Sys2Proof.Machine

namespace Sys2Proof

open Machine

/-- Settles O51: the registration of code, and each query by what the forming of its key comes to. -/
theorem reuseInstructions : Obligations.ReuseInstructions := by
  unfold Obligations.ReuseInstructions
  intro s d a b hp hq w x
  have hw : (s.reading [a]).who s.cur = w := who_reading _
  have hx : ((s.reading [a]).readS a).toNat = x := by rw [State.readS_reading]
  refine ⟨fun bs i h h0 hn hx4 hn4 hl hused hi => execCdreg_registers hp hq h h0 hn hx4 hn4 hl hused hi,
    fun bs ds q => ?key, fun bs hal hl h3 h => ?impure, fun h => execRustat_reads hp h,
    fun h hs => execRuflush_drops hp h hs, fun h hs => ⟨illegal (s.reading [a]) 6 0, rfl, rfl, execRuflush_illegal hq h hs⟩⟩
  case impure => exact query_done hp hq h ((queryKey_impure hx hw hal (by rw [← hw]; exact hl) h3).trans rfl)
  case key =>
    intro p p1 hal hl h3 hd hl2 hm
    rw [hw] at hl hl2 ⊢
    have hquery (k : Except NoKey Keyed → PureState → State → Res) : queryKey a k (s.reading [a]) =
        ((s.reading [a]).keyOf w p1).query w p1 k (s.reading [a]) :=
      queryKey_pure hx hw hal hl h3 rfl hd hl2 hm
    have htenant : ((s.reading [a]).keyReads p1.byAddr q).myCtx.tenant = w.tenant := by
      rw [myCtx_keyReads, tenant_reading]
      rfl
    refine ⟨fun f hf h => ?_, fun hf h => ?_, fun hf => ⟨fun h => ?_, fun h => ?_⟩⟩
    · exact query_done hp hq h (by rw [hquery, hf]; rfl)
    · exact query_wait hp hq h (by rw [hquery, hf]; rfl)
    · refine query_done hp hq h ?_
      rw [hquery, hf]
      simp only [KeyRes.query, htenant]
    · refine execRuinval_eq.trans (query_done hp hq h ?_)
      rw [hquery, hf]
      simp only [KeyRes.query, invalKey, htenant]
      cases ((s.reading [a]).keyReads p1.byAddr q).matching w.tenant q.key <;> rfl

end Sys2Proof
end

section
/-! SUPPORT. The events of reuse, by the phase of the hart's pure task: the copy of a hit, the insertion, and the waiting writes
of RUQUOTA and RUPOOL (17_reuse R384–R386, R392, R399–R402, R412). -/

namespace Sys2Proof.Machine

section events

variable {s : State} {p : PureState} {e : Nat}

/-- The hart that an event names. -/
def State.evHart (s : State) : HartRef := { cid := s.evArg.a, kind := s.evArg.h }

/-- Whether a hart may go on: its context runs it, no handler is active, and it is not stalled. -/
def State.mayGoOn (s : State) (r : HartRef) : Bool :=
  (s.ctx r.cid).runs r.kind && (s.ctx r.cid).handler.isNone && (s.hart r).stalled.isNone

section hits

variable (hp : (s.hart s.evHart).pure = some p) (hl : s.lateHit s.evHart = none)

include hp hl

/-- HIT_COPY_DONE of a hart whose hit is being copied, while the copy waits (R392). -/
theorem execHitCopyDone_waits (he : p.phase = .hit e) (hw : s.hitWaits (s.who s.evHart) p.outputs e = true) :
    execHitCopyDone s = .next s := by
  simp only [State.evHart] at hp hl hw
  simp only [execHitCopyDone, hl, hp, he, hw, if_true]

/-- HIT_COPY_DONE of a copy that cannot be made: the task starts (R392). -/
theorem execHitCopyDone_starts (he : p.phase = .hit e) (hw : s.hitWaits (s.who s.evHart) p.outputs e = false)
    (hc : s.hitCopy (s.who s.evHart) p.outputs e = none) : execHitCopyDone s =
      .next (((s.logImage (s.who s.evHart) p.outputs e).endRead e).startPure s.evHart p) := by
  simp only [State.evHart] at hp hl hw hc ⊢
  simp only [execHitCopyDone, hl, hp, he, hw, hc, Bool.false_eq_true, if_false]

/-- HIT_COPY_DONE of a copy that is made: the task retires once its hart may go on (R392). -/
theorem execHitCopyDone_copies {s1 : State} (he : p.phase = .hit e)
    (hw : s.hitWaits (s.who s.evHart) p.outputs e = false) (hc : s.hitCopy (s.who s.evHart) p.outputs e = some s1) :
    let s2 := (s1.endRead e).setPure s.evHart (some { p with phase := .retire })
    execHitCopyDone s = .next (if s.mayGoOn s.evHart then s2.retireHit s.evHart else s2) := by
  intro s2
  simp only [State.evHart] at hp hl hw hc
  simp only [execHitCopyDone, hl, hp, he, hw, hc, Bool.false_eq_true, if_false]
  rfl

/-- HIT_COPY_DONE of a hart whose hit has been copied (R392). -/
theorem execHitCopyDone_retire (he : p.phase = .retire) : execHitCopyDone s =
    .next (if s.mayGoOn s.evHart then s.retireHit s.evHart else s) := by
  simp only [State.evHart, State.mayGoOn] at hp hl ⊢
  simp only [execHitCopyDone, hl, hp, he]
  rfl

end hits

/-- The retirement of a hit whose decrement is made (R392). -/
theorem retireHit_ok {r : HartRef} {u : State} (h : s.endDecrement r = .ok u) : s.retireHit r = u.goIdle r := by
  simp only [State.retireHit, h]

/-- HIT_COPY_DONE of a hart that a KILL has taken a copy from (R412). -/
theorem execHitCopyDone_late {x : LateHit} (hx : s.hits.find? (fun h => decide (h.ref = s.evHart)) = some x) :
    execHitCopyDone s = .next (if s.hitWaits x.who x.outputs x.entry then s
      else ({ s with hits := s.hits.filter (fun h => decide (h ≠ x)) } : State).endCopy x.who x.outputs x.entry) := by
  have hl : s.lateHit s.evHart = some (if s.hitWaits x.who x.outputs x.entry then s
      else ({ s with hits := s.hits.filter (fun h => decide (h ≠ x)) } : State).endCopy x.who x.outputs x.entry) := by
    rw [State.lateHit, hx, Option.map_some]
  simp only [State.evHart] at hl
  simp only [execHitCopyDone, hl]

end events

section insertions

variable {s : State} {p : PureState} {key : Keyed} (hp : (s.hart s.evHart).pure = some p) (he : p.phase = .insert)
  (hk : p.key = some key)

include hp he hk

/-- INSERTION_DONE of a hart that may not issue, or is in a handler (R399). -/
theorem execInsertionDone_kept (h : (s.ctx s.evHart.cid).runs s.evHart.kind = false ∨
    (s.ctx s.evHart.cid).handler.isSome = true) : execInsertionDone s = .next s := by
  have h' : !(s.ctx s.evHart.cid).runs s.evHart.kind ∨ (s.ctx s.evHart.cid).handler.isSome :=
    h.imp_left (fun h => by rw [h]; rfl)
  simp only [State.evHart] at hp h'
  simp only [execInsertionDone, hp, he, hk, if_pos h']

variable (hr : (s.ctx s.evHart.cid).runs s.evHart.kind = true) (hh : (s.ctx s.evHart.cid).handler = none)

include hr hh

/-- INSERTION_DONE of a task that comes to no claim (R399). -/
theorem execInsertionDone_unclaimed {u : State} (hc : s.insertClaim (s.who s.evHart).tenant p key = (none, u)) :
    execInsertionDone s = .next (u.abandonInsertion s.evHart none) := by
  simp only [State.evHart] at hp hr hh hc ⊢
  simp only [execInsertionDone, hp, he, hk, hr, hh, hc, Bool.not_true, Bool.false_eq_true, Option.isSome_none, or_self, if_false]

variable {id pa : Nat} {u : State} {page : Nat × Nat} {image : List Byte} {x : ReuseEntry}
  (hc : s.insertClaim (s.who s.evHart).tenant p key = (some id, u))

/-- The place of an image that an insertion writes, of those that the pool has for it (R400). -/
def State.imageSpace (v : State) (w : Who) (n : Nat) : Option ((Nat × Nat) × Nat) :=
  (v.poolSpaces w n)[(v.freeBelow (v.poolSpaces w n).length).1]?

/-- The state in which an insertion has chosen the place of its image (R400). -/
def State.spaceChosen (v : State) (w : Who) (n : Nat) : State := (v.freeBelow (v.poolSpaces w n).length).2

/-- Whether the task of a hart wrote over its outputs after its end (R399). -/
def State.overwritten (v : State) (r : HartRef) : Bool := v.outWatch.any (fun o => decide (o.ref = r) && o.dirty)

variable (hs : (u.notePool (s.who s.evHart)).imageSpace (s.who s.evHart) (imageSize p.outputs) = some (page, pa))
  (hi : ((u.notePool (s.who s.evHart)).spaceChosen (s.who s.evHart) (imageSize p.outputs)).imageOf (s.who s.evHart) p.outputs =
    some image)
  (hm : s.migrating .pool pa = false) (hw : s.insertWaits (s.who s.evHart) pa p.outputs = false)

include hc hs hi hm hw

/-- INSERTION_DONE of a task that wrote over its outputs (R399). -/
theorem execInsertionDone_dirty (hd : (u.notePool (s.who s.evHart)).overwritten s.evHart = true) : execInsertionDone s =
      .next ((u.notePool (s.who s.evHart)).abandonInsertion s.evHart (some id)) := by
  simp only [State.evHart, State.imageSpace, State.spaceChosen] at hp hr hh hc hs hi hw hd ⊢
  simp only [execInsertionDone, hp, he, hk, hr, hh, hc, hs, hi, hm, hw, Bool.not_true, Bool.false_eq_true,
    Option.isSome_none, or_self, if_false]
  exact if_pos hd

/-- INSERTION_DONE of a task whose outputs stand: its entry, where it is not DEAD, is VALID (R399). -/
theorem execInsertionDone_inserts (hd : (u.notePool (s.who s.evHart)).overwritten s.evHart = false)
    (hx : tget (((u.notePool (s.who s.evHart)).spaceChosen (s.who s.evHart) (imageSize p.outputs)).writeCopy .pool pa image
      (s.who s.evHart).core .host (s.who s.evHart).tenant).reuse id = some x) :
    let s2 := ((u.notePool (s.who s.evHart)).spaceChosen (s.who s.evHart) (imageSize p.outputs)).writeCopy .pool pa image
      (s.who s.evHart).core .host (s.who s.evHart).tenant
    execInsertionDone s = .next (if x.state = .dead then s2.abandonInsertion s.evHart (some id)
      else (({ s2 with reuse := tput s2.reuse id (x.filled pa page (imageSize p.outputs) key.inputs) } : State).count
        (s.who s.evHart).tenant 2).goIdle s.evHart) := by
  simp only [State.evHart, State.imageSpace, State.spaceChosen] at hp hr hh hc hs hi hw hd hx ⊢
  simp only [execInsertionDone, hp, he, hk, hr, hh, hc, hs, hi, hm, hw, hx, Bool.not_true, Bool.false_eq_true,
    Option.isSome_none, or_self, if_false]
  refine (if_neg (Bool.eq_false_iff.1 hd)).trans ?_
  split <;> rfl

end insertions

section writes

variable {s : State} {x : Word}

/-- RUQUOTA_WRITE of a hart whose write waits (R384). -/
theorem execRuquotaWrite_writes (h : (s.hart s.evHart).pendCsr = some (.ruquota, x)) :
    let t := (s.ctx s.evHart.cid).reuseTenant
    execRuquotaWrite s =
      .next (((s.withTenant t { s.tenant t with ruquota := x }).shrinkHeld t s.reuse.length).csrDone s.evHart) := by
  simp only [State.evHart] at h
  simp only [execRuquotaWrite, h]
  rfl

/-- RUPOOL_WRITE of a hart whose write waits (R385). -/
theorem execRupoolWrite_writes (h : (s.hart s.evHart).pendCsr = some (.rupool, x)) :
    let t := (s.ctx s.evHart.cid).reuseTenant
    let s1 := s.dropTenant t
    execRupoolWrite s = .next (if s1.reuse.any (fun e => decide (e.2.tenant = t) && decide (e.2.readers ≠ 0)) then s1
      else (s1.withTenant t { s1.tenant t with rupool := x }).csrDone s.evHart) := by
  simp only [State.evHart] at h
  simp only [execRupoolWrite, h]
  exact (apply_ite Host.Outcome.next _ _ _).symm

theorem csrDone_hart (r : HartRef) :
    (s.csrDone r).hart r = { s.hart r with pendCsr := none, pc := (s.hart r).pc + 4 } := State.hart_withHart ..

/-- An entry that is left after every entry of its tenant is dropped is DEAD, and read or claimed (R386, R389). -/
theorem dropTenant_left {t : Nat} {e : Nat × ReuseEntry} (h : e ∈ (s.dropTenant t).reuse) (ht : e.2.tenant = t) :
    e.2.state = .dead ∧ (e.2.readers ≠ 0 ∨ e.2.claimed = true) := by
  have hdead := State.dead_of_mem_dropTenant h ht
  refine ⟨hdead, ?_⟩
  have hkept := List.of_mem_filter h
  simp only [hdead, decide_true, Bool.true_and, Bool.not_eq_true', Bool.and_eq_false_iff, decide_eq_false_iff_not,
    Bool.not_eq_false'] at hkept
  exact hkept

end writes

end Sys2Proof.Machine

namespace Sys2Proof

open Machine

/-- Settles O53: each event by the phase of its hart's pure task, and what a drop of a tenant's entries leaves. -/
theorem reuseEvents : Obligations.ReuseEvents := by
  unfold Obligations.ReuseEvents
  refine ⟨fun s p hp hl => ⟨fun e he hw => execHitCopyDone_waits hp hl he hw, fun e he hw => ⟨fun hc =>
      execHitCopyDone_starts hp hl he hw hc, fun s1 hc => ?copied⟩, fun he s3 hruns hs3 => ?retire, ?insert⟩,
    fun s x hx => ⟨fun hw => ?_, fun hw => ?_⟩, fun s x => ⟨execRuquotaWrite_writes, fun h => ⟨fun hn => ?_, fun hn => ?_⟩⟩,
    fun s r => ?_, fun s t e => dropTenant_left, fun s r => ?_⟩
  case copied =>
    have hexec := execHitCopyDone_copies hp hl he hw hc
    refine ⟨fun hruns => hexec.trans ?_, fun s3 hruns hs3 => hexec.trans ?_⟩
    · exact congrArg Host.Outcome.next (if_neg (Bool.eq_false_iff.1 hruns))
    · exact congrArg Host.Outcome.next ((if_pos hruns).trans (retireHit_ok hs3))
  case retire =>
    exact (execHitCopyDone_retire hp hl he).trans
      (congrArg Host.Outcome.next ((if_pos hruns).trans (retireHit_ok hs3)))
  case insert =>
    refine fun key he hk => ⟨fun h => execInsertionDone_kept hp he hk h, fun id hid => ?_, fun hid hmt hr hh => ?_,
      fun id u page pa image x hr hh hc hs hi hm hw => ⟨fun hd => execInsertionDone_dirty hp he hk hr hh hc hs hi hm hw hd,
        fun hd hx => ?_⟩⟩
    · simp only [State.insertClaim, hid]
    · exact execInsertionDone_unclaimed hp he hk hr hh (by simp only [State.insertClaim, hid]; exact if_pos hmt)
    · have hexec := execInsertionDone_inserts hp he hk hr hh hc hs hi hm hw hd hx
      exact ⟨fun hdead => hexec.trans (by rw [if_pos hdead]; rfl), fun hdead => hexec.trans (by rw [if_neg hdead]; rfl)⟩
  · exact (execHitCopyDone_late hx).trans (congrArg Host.Outcome.next (if_pos hw))
  · exact (execHitCopyDone_late hx).trans (congrArg Host.Outcome.next (if_neg (Bool.eq_false_iff.1 hw)))
  · exact (execRupoolWrite_writes h).trans (congrArg Host.Outcome.next (if_neg (Bool.eq_false_iff.1 hn)))
  · exact (execRupoolWrite_writes h).trans (congrArg Host.Outcome.next (if_pos hn))
  · rw [csrDone_hart]
    exact ⟨rfl, rfl⟩
  · rw [goIdle_hart]
    exact ⟨rfl, rfl⟩

end Sys2Proof
end

section
/-! SUPPORT. The supervisor: the record that is appended to its ring, the error of a copy at a boundary, and the replies, by
ACTION (12_context R287–R293). -/

namespace Sys2Proof.Machine

section ring

variable {s : State} {t : TrapRec} {sup h z : Nat}

/-- The ring of a supervisor's kernel (R288). -/
def State.supRing (s : State) (sup : Nat) : Nat := ((s.kernel (s.ctx sup).kernel).map (fun x => x.rcd.ring.toNat)).getD 0

variable (ht : s.nextRecord = some t) (hs : s.supervisor = some sup) (hid : t.id = s.evArg.a)
  (hh : s.syncAddr (s.ctx sup).tenant (s.supRing sup) = some h)
  (hz : s.syncAddr (s.ctx sup).tenant (s.supRing sup + 16) = some z)

include ht hs hid hh hz

/-- A ring whose header cannot be read: the error is logged once (R288). -/
theorem execTrapRecordWrite_unread {half : Nat} (hr : s.ringUnread (s.ctx sup).core h z = some half) :
    execTrapRecordWrite s = .next (s.logOnce (s.ctx sup).tenant (s.ctx sup).core half) := by
  simp only [State.supRing] at hh hz
  simp only [execTrapRecordWrite, ht, hs, hid, hh, hz, hr, ne_eq, not_true_eq_false, if_false]

variable (hr : s.ringUnread (s.ctx sup).core h z = none)

include hr

/-- A ring that is full: the record waits (R288). -/
theorem execTrapRecordWrite_full (hf : ringFull (s.memWord h) (s.memWord (h + 8)) (s.memWord z) = true) :
    execTrapRecordWrite s = .next s := by
  simp only [State.supRing] at hh hz
  simp only [execTrapRecordWrite, ht, hs, hid, hh, hz, hr, hf, ne_eq, not_true_eq_false, if_false, if_true]

/-- The oldest record is appended, and then HEAD (R288). -/
theorem execTrapRecordWrite_appends {a : Nat}
    (hf : ringFull (s.memWord h) (s.memWord (h + 8)) (s.memWord z) = false)
    (ha : s.syncAddr (s.ctx sup).tenant (s.supRing sup + 64 + 128 * ((s.memWord h).toNat % (s.memWord z).toNat)) = some a)
    (hma : s.migrating .sync a = false) (hmh : s.migrating .sync h = false)
    (hba : s.behind (s.ctx sup).core .sync a 128 = false) (hbh : s.behind (s.ctx sup).core .sync h 8 = false) :
    let s1 := s.writeCopy .sync a (bytesOfWords (s.recordWords t)) (s.ctx sup).core .host (s.ctx sup).tenant
    let s2 := s1.writeCopy .sync h (bytesOfWord 8 (s.memWord h + 1)) (s.ctx sup).core .host (s.ctx sup).tenant
    execTrapRecordWrite s = .next { s2 with traps := s2.traps.map (fun (x : TrapRec) =>
      if x.id = t.id then { x with ringAt := some a, reply := 0 } else x) } := by
  simp only [State.supRing] at hh hz ha
  simp only [execTrapRecordWrite, ht, hs, hid, hh, hz, hr, hf, ha, hma, hmh, hba, hbh, Bool.false_eq_true, or_self, ne_eq,
    not_true_eq_false, if_false]

end ring

section engerr

variable {s : State} {w : Word} {rest : List Word}

/-- ENGERR_ASYNC at a boundary of its hart (R287, R293). -/
theorem execEngerrAsync_traps (he : (s.hart s.evHart).engErr = w :: rest) (hp : (s.ctx s.evHart.cid).present = true)
    (hh : (s.ctx s.evHart.cid).slotState ≠ .held) (hs : (s.hart s.evHart).stalled = none)
    (ha : s.answered s.evHart.cid = false)
    (hb : ((s.ctx s.evHart.cid).handler = none ∧ (s.hart s.evHart).dispatch ≠ .idle) ∨
      (s.ctx s.evHart.cid).handler = some s.evHart.kind)
    (hv : s.evHart.kind = .ch → (s.ctx s.evHart.cid).viq = []) :
    execEngerrAsync s = .next (((s.withHart s.evHart { s.hart s.evHart with engErr := rest }).interrupt s.evHart).takeTrap
      s.evHart false { cause := .engerr, detail := 0, addr := w }) := by
  have hv' : ¬ (s.evHart.kind = .ch ∧ (s.ctx s.evHart.cid).viq ≠ []) := fun ⟨hk, hne⟩ => hne (hv hk)
  simp only [State.evHart] at he hp hh hs ha hb hv' ⊢
  rcases hb with ⟨hn, hd⟩ | hown
  · simp only [execEngerrAsync, he, hp, hh, hs, ha, hn, hd, hv', Bool.not_true, Bool.false_eq_true, Option.isSome_none,
      false_and, or_self, if_false]
  · simp only [execEngerrAsync, he, hp, hh, hs, ha, hown, hv', decide_true, Bool.not_true, Bool.false_eq_true,
      Option.isSome_none, and_false, or_self, if_false]

end engerr

section replies

variable {s : State} {t : TrapRec} {actions : List Nat} {f : TrapRec → State → State}

/-- A reply of an ACTION that an event is for acts on its record, which then is gone (R290). -/
theorem onReply_acts (ht : s.trapRec s.evArg.a = some t) (hr : t.reply ≠ 0) (hp : (s.ctx t.ref.cid).present = true)
    (ha : actions.contains t.action = true) : onReply actions f s = .next ((f t s).dropRecord t.id) := by
  simp only [onReply, ht, hr, ha, hp, Bool.not_true, Bool.false_eq_true, or_self, if_false]

/-- A trap that stopped its context whole leaves it so (R291). -/
theorem stopWhole_stopped (h : t.xlat = false) : s.stopWhole t = s := by
  simp only [State.stopWhole, h, Bool.false_eq_true, if_false]

/-- DELIVER to a context that is in no handler, of a hart with no store under way (R290). -/
theorem deliver_enters (hh : (s.ctx t.ref.cid).handler = none) (hx : t.xlat = false) (hs : (s.hart t.ref).split = none) :
    s.deliver t = (s.unhold t.ref.cid).enterHandler t.ref { cause := infoCause t.info, addr := t.addr } t.info t.spc t.vcp := by
  simp only [State.deliver, finishStore_none hs, hh, hx, stopWhole_stopped hx, Option.isSome_none, Bool.false_and,
    Bool.false_eq_true, if_false]

/-- SKIP of an instruction whose word cannot be fetched yet (R290). -/
theorem execReplySkip_waits (ht : s.trapRec s.evArg.a = some t) (hj : t.job = none) (hw : t.skipsWord = true)
    (hs : s.wordAt t.ref = .stall) : execReplySkip s = .next s := by
  simp only [execReplySkip, ht, Option.any_some, hj, hw, hs, Option.isNone_none, decide_true, Bool.and_self, if_true]

/-- SKIP that need not wait for a word. -/
theorem execReplySkip_goes (ht : s.trapRec s.evArg.a = some t)
    (hw : t.job ≠ none ∨ (t.skipsWord = true → s.wordAt t.ref ≠ .stall)) : execReplySkip s =
      onReply [6] (fun t s => match t.job with
        | some id => s.endCopyFault id false
        | none => s.skip t) s := by
  refine if_neg ?_
  rw [ht, Option.any_some, Bool.and_eq_true, Bool.and_eq_true, decide_eq_true_eq, Option.isNone_iff_eq_none]
  exact fun ⟨⟨hj, hk⟩, hs⟩ => hw.elim (fun h => h hj) (fun h => h hk hs)

section acts

variable (ht : s.trapRec s.evArg.a = some t) (hr : t.reply ≠ 0) (hp : (s.ctx t.ref.cid).present = true)

include ht hr hp

theorem execReplyResume_acts (ha : t.action = 1) : execReplyResume s =
    .next ((match t.job with | some id => s.endCopyFault id true | none => s.resume t).dropRecord t.id) :=
  onReply_acts ht hr hp (by rw [ha]; rfl)

theorem execReplyResumeAt_acts (ha : t.action = 2) : execReplyResumeAt s =
    .next ((match t.job with
      | some id => s.endCopyFault id false
      | none =>
        let s1 := (s.stopWhole t).unhold t.ref.cid
        let s2 := if t.ref.kind = HartKind.ch then s1.discardViq t.ref.cid else s1
        (s2.withHart t.ref ((s2.hart t.ref).resumeAt (s.replyValue t))).noteReply t).dropRecord t.id) :=
  onReply_acts ht hr hp (by rw [ha]; rfl)

theorem execReplyReturn_acts (ha : t.action = 3) : execReplyReturn s =
    .next ((match t.job with
      | some id => s.endCopyFault id false
      | none => ((s.withHart t.ref ((s.hart t.ref).writeS 10 (s.replyValue t))).resume t).noteReply t).dropRecord t.id) :=
  onReply_acts ht hr hp (by rw [ha]; rfl)

theorem execReplyDeliver_acts (ha : t.action = 4) : execReplyDeliver s =
    .next ((match t.job with | some id => s.endCopyFault id false | none => s.deliver t).dropRecord t.id) :=
  onReply_acts ht hr hp (by rw [ha]; rfl)

theorem execReplyKill_acts (ha : t.action = 5 ∨ t.action = 7) : execReplyKill s =
    .next ((match t.job with | some id => s.endCopyFault id false | none => s.killCtx t.ref.cid).dropRecord t.id) :=
  onReply_acts ht hr hp (List.contains_iff_mem.2 (by simpa only [List.mem_cons, List.not_mem_nil, or_false] using ha))

theorem execReplySkip_acts (ha : t.action = 6)
    (hw : t.job ≠ none ∨ (t.skipsWord = true → s.wordAt t.ref ≠ .stall)) : execReplySkip s =
      .next ((match t.job with | some id => s.endCopyFault id false | none => s.skip t).dropRecord t.id) :=
  (execReplySkip_goes ht hw).trans (onReply_acts ht hr hp (by rw [ha]; rfl))

end acts

end replies

section resumes

variable {s : State} {t : TrapRec}

theorem unhold_held {cid : Nat} (h : (s.ctx cid).slotState = .held) :
    s.unhold cid = s.withCtx cid { s.ctx cid with slotState := .resident } := if_pos h

theorem unhold_other {cid : Nat} (h : (s.ctx cid).slotState ≠ .held) : s.unhold cid = s := if_neg h

theorem unhold_mem (cid : Nat) : (s.unhold cid).mem = s.mem := by
  by_cases h : (s.ctx cid).slotState = .held
  · rw [unhold_held h]
    rfl
  · rw [unhold_other h]

/-- A context that is no longer HELD: nothing else of it changes. -/
theorem unhold_ctx (cid : Nat) : (s.unhold cid).ctx cid = { s.ctx cid with
    slotState := if (s.ctx cid).slotState = .held then .resident else (s.ctx cid).slotState } := by
  by_cases h : (s.ctx cid).slotState = .held
  · rw [unhold_held h, State.ctx_withCtx, if_pos h]
  · rw [unhold_other h, if_neg h]

/-- RESUME of a hart whose trap stopped its context whole (R290). -/
theorem resume_stopped (hx : t.xlat = false) (hi : t.idle = false) : s.resume t =
    let s1 := s.unhold t.ref.cid
    let s2 := if t.ref.kind = .ch then
        s1.withCtx t.ref.cid { s1.ctx t.ref.cid with viq := restart (s1.ctx t.ref.cid).viq } else s1
    s2.withHart t.ref { s2.hart t.ref with pc := (s1.ctx t.ref.cid).spc &&& ~~~3#64 } := by
  simp only [State.resume, hx, hi, Bool.false_eq_true, if_false]

/-- What RESUME leaves and changes: the context is not HELD, and the hart is at SPC (R290). -/
theorem resume_hart (hx : t.xlat = false) (hi : t.idle = false) :
    ((s.resume t).ctx t.ref.cid).slotState = ((s.unhold t.ref.cid).ctx t.ref.cid).slotState ∧
    (s.resume t).hart t.ref = { s.hart t.ref with pc := (s.ctx t.ref.cid).spc &&& ~~~3#64 } ∧ (s.resume t).mem = s.mem := by
  have hc := unhold_ctx (s := s) t.ref.cid
  have hspc : ((s.unhold t.ref.cid).ctx t.ref.cid).spc = (s.ctx t.ref.cid).spc := by rw [hc]
  have hhart (k : HartKind) : ((s.unhold t.ref.cid).ctx t.ref.cid).hart k = (s.ctx t.ref.cid).hart k := by
    rw [hc]
    cases k <;> rfl
  simp only [resume_stopped hx hi, State.hart_withHart, State.withHart_mem, hspc]
  split
  next hk =>
    refine ⟨?_, ?_, unhold_mem _⟩
    · rw [State.withHart, State.ctx_withCtx, Ctx.withHart_slotState, State.ctx_withCtx]
    · rw [State.hart, State.ctx_withCtx, State.hart, ← hhart]
      cases t.ref.kind <;> rfl
  next hk =>
    refine ⟨?_, ?_, unhold_mem _⟩
    · rw [State.withHart, State.ctx_withCtx, Ctx.withHart_slotState]
    · rw [State.hart, State.hart, hhart]

end resumes

end Sys2Proof.Machine

namespace Sys2Proof

open Machine

/-- Settles O54: the ring by its header, an error at its boundary, and each reply by its ACTION and the record's copy. -/
theorem supervisor : Obligations.Supervisor := by
  unfold Obligations.Supervisor
  refine ⟨fun s t sup h z ht hs hid hh hz => ⟨fun half hr => execTrapRecordWrite_unread ht hs hid hh hz hr,
      fun hr hf => execTrapRecordWrite_full ht hs hid hh hz hr hf, fun a hr hf ha hma hmh hba hbh =>
        execTrapRecordWrite_appends ht hs hid hh hz hr hf ha hma hmh hba hbh⟩,
    fun s w rest he hp hh hs ha hb hv => execEngerrAsync_traps he hp hh hs ha hb hv,
    fun s t ht hr hp => ⟨fun id hj => ?copy, fun hj => ?hart⟩, fun s t hx hi => ?resume⟩
  case copy =>
    refine ⟨fun ha => (execReplyResume_acts ht hr hp ha).trans ?_, fun ha => (execReplyResumeAt_acts ht hr hp ha).trans ?_,
      fun ha => (execReplyReturn_acts ht hr hp ha).trans ?_, fun ha => (execReplyDeliver_acts ht hr hp ha).trans ?_,
      fun ha => (execReplyKill_acts ht hr hp ha).trans ?_,
      fun ha => (execReplySkip_acts ht hr hp ha (.inl (by rw [hj]; exact Option.some_ne_none id))).trans ?_⟩
    all_goals simp only [hj]
  case hart =>
    refine ⟨fun ha => (execReplyResume_acts ht hr hp ha).trans ?_,
      fun ha hx => (execReplyResumeAt_acts ht hr hp ha).trans ?_, fun ha => (execReplyReturn_acts ht hr hp ha).trans ?_, rfl,
      fun ha hh hx hs => (execReplyDeliver_acts ht hr hp ha).trans ?_, fun ha => (execReplyKill_acts ht hr hp ha).trans ?_,
      fun ha hk hw => execReplySkip_waits ht hj hk hw, fun ha hk => (execReplySkip_acts ht hr hp ha (.inr hk)).trans ?_⟩
    · simp only [hj]
    · simp only [hj, stopWhole_stopped hx]
      rfl
    · simp only [hj]
    · simp only [hj, deliver_enters hh hx hs]
    · simp only [hj]
    · simp only [hj]
  case resume =>
    obtain ⟨hslot, hhart, hmem⟩ := resume_hart (s := s) hx hi
    exact ⟨by rw [hhart], hmem, by rw [hslot, unhold_ctx], by rw [hhart]⟩

end Sys2Proof
end

section
/-! SUPPORT. Issue rights: to which context the scheduler passes them, and what their passing leaves; the save and the reading
back of a context (12_context R272–R277; 13_kernel R308–R311). -/

namespace Sys2Proof.Machine

section rights

variable {s : State} {core h o : Nat}

/-- A context that stands in its slot and waits for the rights, none of whose replies has still to act (R273, R290). -/
def State.takesRights (s : State) (cid : Nat) : Bool := decide ((s.ctx cid).slotState = .resident) && !s.answered cid

theorem passes_of_prio (hr : s.ctxReady o = true) (hs : s.starting h = false) (hp : s.ctxPrio h < s.ctxPrio o) :
    s.passes h o = true := by
  simp only [State.passes, hr, hs, hp, decide_true, Bool.not_false, Bool.and_self, Bool.true_or]

theorem passes_of_idle (hr : s.ctxReady o = true) (hs : s.starting h = false) (hp : s.ctxPrio h ≤ s.ctxPrio o)
    (hn : s.ctxReady h = false) : s.passes h o = true := by
  simp only [State.passes, hr, hs, hp, hn, decide_true, Bool.not_false, Bool.and_self, Bool.or_true]

theorem passes_lower (hp : s.ctxPrio o < s.ctxPrio h) : s.passes h o = false := by
  simp only [State.passes, not_lt.2 (Nat.le_of_lt hp), not_le.2 hp, decide_false, Bool.and_false, Bool.or_self]

variable (hh : s.cidIn core (s.issueSlot core) = some h) (ho : s.otherCtx core = some o)

include ho in
/-- The context that waits for the rights of a core stands in the other slot. -/
theorem otherCtx_some : s.cidIn core (1 - s.issueSlot core) = some o ∧ (s.ctx o).slotState = .resident := by
  obtain ⟨hin, hres⟩ := Option.filter_eq_some_iff.1 ho
  exact ⟨hin, of_decide_eq_true hres⟩

include hh ho

/-- The rights pass to the other context (R311). -/
theorem rightsTo_other (ha : s.answered o = false) (hp : s.passes h o = true) : s.rightsTo core = some o := by
  obtain ⟨hin, hres⟩ := otherCtx_some ho
  simp only [State.rightsTo, hin, hh, Option.filter_some, hres, ha, hp, decide_true, Bool.not_false, Bool.and_self, if_true]

/-- The holder keeps the rights that do not pass (R311). -/
theorem rightsTo_kept (hp : s.passes h o = false) (hi : (s.ctx h).slotState = .issuing) : s.rightsTo core = none := by
  obtain ⟨hin, hres⟩ := otherCtx_some ho
  simp only [State.rightsTo, hin, hh, Option.filter_some, hres, hi, decide_true, Bool.true_and, reduceCtorEq, decide_false,
    Bool.false_and, Bool.false_eq_true, if_false]
  cases s.answered o with
  | true => rfl
  | false => simp only [Bool.not_false, if_true, hp, Bool.false_eq_true, if_false]

end rights

section gives

variable {s : State} {core cid : Nat}

/-- The state in which the harts of the context that held the rights have stopped (R275). -/
def State.issuerStopped (s : State) (core : Nat) : State :=
  match s.issuer core with
  | some old => (s.interruptAll old).withCtx old { ((s.interruptAll old).ctx old).dropBuffers with slotState := .resident }
  | none => s

theorem giveRights_eq : s.giveRights core cid =
    { (s.issuerStopped core).withCtx cid { (s.issuerStopped core).ctx cid with slotState := .issuing } with
      issue := tput (s.issuerStopped core).issue core ((s.issuerStopped core).ctx cid).slot
      fair := tdel (s.issuerStopped core).fair core } := by
  unfold State.giveRights State.issuerStopped
  rfl

theorem issuerStopped_some {old : Nat} (h : s.issuer core = some old) : s.issuerStopped core =
    (s.interruptAll old).withCtx old { ((s.interruptAll old).ctx old).dropBuffers with slotState := .resident } := by
  simp only [State.issuerStopped, h]

theorem issuerStopped_none (h : s.issuer core = none) : s.issuerStopped core = s := by
  simp only [State.issuerStopped, h]

theorem Ctx.slot_dropBuffers (c : Ctx) (x : SlotState) : ({ c.dropBuffers with slotState := x } : Ctx).slot = c.slot := rfl

/-- A stop moves no context to another slot. -/
theorem issuerStopped_slot (j : Nat) : ((s.issuerStopped core).ctx j).slot = (s.ctx j).slot := by
  cases h : s.issuer core with
  | none => rw [issuerStopped_none h]
  | some old =>
    have hs (j : Nat) : ((s.interruptAll old).ctx j).slot = (s.ctx j).slot := by rw [(interruptAll_stops s old).ctx j]
    rw [issuerStopped_some h]
    by_cases hj : j = old
    · rw [hj, State.ctx_withCtx, Ctx.slot_dropBuffers, hs]
    · rw [State.ctx_withCtx_other _ _ _ _ hj, hs]

theorem giveRights_ctx_same : ((s.giveRights core cid).ctx cid).slotState = .issuing := by
  rw [giveRights_eq]
  exact congrArg Ctx.slotState (State.ctx_withCtx ..)

theorem giveRights_ctx_old {old : Nat} (h : s.issuer core = some old) (hne : old ≠ cid) :
    ((s.giveRights core cid).ctx old).slotState = .resident := by
  rw [giveRights_eq]
  refine (congrArg Ctx.slotState (State.ctx_withCtx_other _ _ _ _ hne)).trans ?_
  rw [issuerStopped_some h, State.ctx_withCtx]

theorem giveRights_issueSlot : (s.giveRights core cid).issueSlot core = (s.ctx cid).slot := by
  rw [giveRights_eq]
  exact (congrArg (fun x => Option.getD x 0) (tget_tput_same _ _ _)).trans (issuerStopped_slot cid)

theorem giveRights_fair : tget (s.giveRights core cid).fair core = none := by
  rw [giveRights_eq]
  exact tget_tdel_same _ _

theorem giveRights_mem (h : ∀ old, s.issuer core = some old → s.NoStore old) : (s.giveRights core cid).mem = s.mem := by
  have hm : (s.issuerStopped core).mem = s.mem := by
    cases hi : s.issuer core with
    | none => rw [issuerStopped_none hi]
    | some old =>
      rw [issuerStopped_some hi, State.withCtx_mem, interruptAll_mem _ _ (h old hi)]
  rw [giveRights_eq]
  exact hm

end gives

section timed

variable {s : State} {o : Nat}

/-- FAIR_SHARE_EXPIRY of a core whose other context has waited 65,536 cycles (R311). -/
theorem execFairShareExpiry_gives {h : Nat} (hi : s.issuer s.evArg.a = some h) (ho : s.otherCtx s.evArg.a = some o)
    (hr : s.ctxReady o = true) (hs : s.starting h = false) (ha : s.answered o = false) (hp : s.ctxPrio o = s.ctxPrio h)
    (hf : 1024 ≤ (tget s.fair s.evArg.a).getD 0) : execFairShareExpiry s = .next (s.giveRights s.evArg.a o) := by
  simp only [execFairShareExpiry, hi, ho, hr, hs, ha, hp, hf, Bool.not_false, and_self, if_true]

/-- A context that waits for the rights of its core, and whose timed start is near (R309). -/
def State.timedWaits (s : State) (cid : Nat) : Bool := decide ((s.ctx cid).slotState = .resident) && s.startsSoon cid

/-- The timed context of a core is that in slot 0, or in slot 1 where that in slot 0 is none (R309). -/
theorem timedSwap_some {core : Nat} (ho : s.timedWaits o = true)
    (hin : s.cidIn core 0 = some o ∨ (s.cidIn core 1 = some o ∧ ∀ p, s.cidIn core 0 = some p → s.timedWaits p = false))
    (hi : ∀ h, s.issuer core = some h → s.timedFirst o h = true ∧ ∀ k, s.firstDue { cid := h, kind := k } = false) :
    s.timedSwap core = some o := by
  have hpick : ((s.cidIn core 0).filter s.timedWaits).orElse (fun _ => (s.cidIn core 1).filter s.timedWaits) = some o := by
    rcases hin with h0 | ⟨h1, h0⟩
    · rw [h0, Option.filter_some, if_pos ho]
      rfl
    · have hnone : (s.cidIn core 0).filter s.timedWaits = none := by
        cases hc : s.cidIn core 0 with
        | none => rfl
        | some p => rw [Option.filter_some, h0 p hc]; rfl
      rw [hnone, h1, Option.filter_some, if_pos ho]
      rfl
  refine Option.filter_eq_some_iff.2 ⟨hpick, ?_⟩
  cases hh : s.issuer core with
  | none => rfl
  | some h =>
    obtain ⟨hfirst, hdue⟩ := hi h hh
    simp only [hfirst, hdue, List.any_cons, List.any_nil, Bool.or_self, Bool.not_false, Bool.and_self]

/-- Of two contexts of one start: the higher PRIO, then that placed first (R309). -/
theorem timedFirst_iff {a b : Nat} {x y : Kernel} (hx : s.kernel (s.ctx a).kernel = some x)
    (hy : s.kernel (s.ctx b).kernel = some y) (he : x.startAt = y.startAt) :
    s.timedFirst a b = true ↔ y.prio < x.prio ∨ (y.prio = x.prio ∧ x.placedAt < y.placedAt) := by
  simp only [State.timedFirst, hx, hy, he, if_true, Kernel.startsFirst, Bool.or_eq_true, Bool.and_eq_true, decide_eq_true_eq]

end timed

section saves

variable {s : State} {cid : Nat}

/-- Whether the entry at the head of a context's queue has begun. -/
def Ctx.headBegun (c : Ctx) : Bool := ((c.viq.head?).map VEntry.begun).getD false

section image
variable (hcid : cid = s.evArg.a) (hs : (s.ctx cid).slotState = .saving) (hi : (s.ctx cid).imaged = false)
  (hc : s.allCopies.any (fun x => decide (x.ref.cid = cid)) = false) (hst : s.saveStalls cid = false)

include hcid hs hi hc hst

/-- CONTEXT_SAVE waits for a send and for an entry that has begun (R276). -/
theorem execContextSave_waits (h : s.sending cid = true ∨ (s.ctx cid).headBegun = true) : execContextSave s = .next s := by
  subst hcid
  rw [Ctx.headBegun] at h
  refine if_pos ?_
  rcases h with h | h
  · exact .inr (.inr (.inr (.inl h)))
  · exact .inr (.inr (.inr (.inr (.inr h))))

/-- CONTEXT_SAVE writes the image (R276). -/
theorem execContextSave_writes (hsend : s.sending cid = false) (hb : (s.ctx cid).headBegun = false) :
    let u := (s.unpopHead cid).writeImage cid
    execContextSave s = .next (u.withCtx cid { u.ctx cid with imaged := true }) := by
  subst hcid
  rw [Ctx.headBegun] at hb
  refine if_neg ?_
  simp only [hs, hi, hc, hst, hsend, hb, ne_eq, not_true_eq_false, Bool.false_eq_true, or_self, not_false_eq_true]

end image

/-- SAVE_DONE of a context whose image is written (R276). -/
theorem execSaveDone_saves (hs : (s.ctx s.evArg.a).slotState = .saving) (hi : (s.ctx s.evArg.a).imaged = true) :
    execSaveDone s = .next ((s.leaveSorus (s.ctx s.evArg.a)).withCtx s.evArg.a { (s.ctx s.evArg.a).dropBuffers with
      slotState := .saved, imaged := false, imgCause := 17
      viq := (s.ctx s.evArg.a).viq.map (fun (e : VEntry) =>
        { e with step := 0, scatter := none, marks := [], popped := false, flags := 0, index := [] }) }) := by
  refine if_neg ?_
  simp only [hs, hi, ne_eq, not_true_eq_false, Bool.not_true, Bool.false_eq_true, or_self, not_false_eq_true]

/-- CONTEXT_RESTORE of a kernel whose slots are FREE, with none QUEUED before it (R277). -/
theorem execContextRestore_restores {k : Nat} {x : Kernel} (hk : k = (s.ctx s.evArg.a).kernel) (hx : s.kernel k = some x)
    (hr : s.restorable k x = true) (hq : s.queued = []) :
    let slots := s.ctxs.flatMap (fun e => if e.2.kernel = k then slotsTaken e.2.full e.2.core e.2.slot else [])
    let s1 := (s.withKernel k { x with eff := x.prio }).closeSlots slots
    execContextRestore s = .next { s1 with ctxs := s1.ctxs.map (fun (e : Nat × Ctx) =>
      if e.2.kernel = k ∧ e.2.slotState = .saved then (e.1, { e.2 with slotState := .restoring }) else e) } := by
  intro slots s1
  subst hk
  simp only [execContextRestore, hx, hr, hq, List.any_nil, Bool.not_true, Bool.false_eq_true, or_self, if_false]
  rfl

/-- RESTORE_DONE waits for multicasts to the save area (R277). -/
theorem execRestoreDone_waits (h : s.saveBehind s.evArg.a = true) : execRestoreDone s = .next s := if_pos (.inr h)

/-- RESTORE_DONE of an image that can be read (R273, R277). -/
theorem execRestoreDone_reads (hcid : cid = s.evArg.a) (hs : (s.ctx cid).slotState = .restoring)
    (hb : s.saveBehind cid = false) (he : s.imageError cid = none) :
    execRestoreDone s = .next (((s.readImage cid).withCtx cid { (s.readImage cid).ctx cid with
      slotState := if s.heldBy cid then .held else .resident, imgCause := 0 }).backToRunning (s.ctx cid).kernel) := by
  have hk : ((s.readImage cid).ctx cid).kernel = (s.ctx cid).kernel := by rw [State.readImage, State.ctx_withCtx]
  subst hcid
  simp only [execRestoreDone, hs, hb, he, hk, ne_eq, not_true_eq_false, Bool.false_eq_true, or_self, if_false]

end saves

end Sys2Proof.Machine

namespace Sys2Proof

open Machine

/-- Settles O55: the rights by the two contexts of a core, and a context's save and reading back by its state. -/
theorem contextsAndRights : Obligations.ContextsAndRights := by
  unfold Obligations.ContextsAndRights
  refine ⟨fun s => ⟨fun cid h => ?_, fun h => ?_⟩,
    fun s core h o hh ho hr hs => ⟨fun ha hp => rightsTo_other hh ho ha (passes_of_prio hr hs hp),
      fun ha hp hn => rightsTo_other hh ho ha (passes_of_idle hr hs hp hn), fun hp => rightsTo_kept hh ho (passes_lower hp)⟩,
    fun s core cid => ⟨giveRights_ctx_same, fun old => giveRights_ctx_old, giveRights_issueSlot,
      fun h => giveRights_mem fun old hi k => h old k hi, giveRights_fair⟩,
    fun s h o hi ho hr hs ha hp hf => execFairShareExpiry_gives hi ho hr hs ha hp hf, fun s o hres hsoon hin hi => ?timed,
    fun s a b x y hx hy he => timedFirst_iff hx hy he, fun s => ⟨fun hs hi hc hst => ?save, fun hs hi => ?_,
      fun x hx hr hq => execContextRestore_restores rfl hx hr hq, fun _ hb => execRestoreDone_waits hb,
      fun hs hb he => execRestoreDone_reads rfl hs hb he⟩⟩
  · show execSlotSwap s = _
    simp only [execSlotSwap, h]
  · show execSlotSwap s = _
    simp only [execSlotSwap, h]
  case timed =>
    have hswap : s.timedSwap s.evArg.a = some o := by
      refine timedSwap_some ?_ (hin.imp_right fun ⟨h1, h0⟩ => ⟨h1, fun p hp => ?_⟩) hi
      · rw [State.timedWaits, hres, hsoon]
        rfl
      · rw [State.timedWaits, Bool.and_eq_false_iff, decide_eq_false_iff_not]
        exact h0 p hp
    show execTimedStartSwap s = _
    simp only [execTimedStartSwap, hswap]
  case save =>
    exact ⟨fun h => execContextSave_waits rfl hs hi hc hst h, fun hsend hb => execContextSave_writes rfl hs hi hc hst hsend hb⟩
  · exact execSaveDone_saves hs hi

end Sys2Proof
end

section
/-! SUPPORT. Resets, the firmware of a cold reset, the alarm, the width of channels and the power gate (20_system R448–R456). -/

namespace Sys2Proof.Machine

section tenants

variable {s : State} {t : Nat}

theorem freed_unused (c : CodeSlot) : c.freed.used = false := by
  unfold CodeSlot.freed
  split
  · rfl
  next h => exact Bool.eq_false_iff.2 h

/-- What the reset of a tenant leaves of its registers: counters and used code slots are gone (R450). -/
theorem resetTenant_tenant : ((s.resetTenant t).tenant t).counts = [] ∧
    ∀ c ∈ ((s.resetTenant t).tenant t).slots, c.2.used = false := by
  rw [State.resetTenant, State.tenant_withTenant]
  refine ⟨rfl, fun c hc => ?_⟩
  obtain ⟨c0, -, rfl⟩ := List.mem_map.1 hc
  exact freed_unused c0.2

theorem resetTenant_reuse {e : Nat × ReuseEntry} (he : e ∈ (s.resetTenant t).reuse) (ht : e.2.tenant = t) :
    e.2.state = .dead := State.dead_of_mem_dropTenant (t := t) he ht

/-- The reset of a tenant, by TRESET and as that of its function (R450). -/
theorem execTreset_resets (ht : s.evArg.a < 128) (hc : s.cxlDown = false) :
    execTresetGo s = .next (s.resetTenant s.evArg.a) ∧ execFunctionLevelReset s = .next (s.resetTenant s.evArg.a) := by
  simp only [execTresetGo, execFunctionLevelReset, not_le.2 ht, overCxl_up hc, if_false, and_self]

end tenants

section boot

variable {d : DeviceBlock} {a : Nat} {second : Bool} {v : BitVec 16}

/-- The bit of a slot's verdict (R448). -/
theorem bit_verdict : bit (BitVec.ofNat 64 a) (if second then 1 else 0) = decide (a / (if second then 2 else 1) % 2 = 1) := by
  rw [bit, BitVec.getLsbD_ofNat, Nat.testBit_eq_decide_div_mod_eq]
  cases second <;> rfl

/-- A slot verifies as a version when it holds that image, the image is not below the fused counter, and the verdicts of its
header and signatures are good (R448). -/
theorem verifies_iff : d.verifies a second = some v ↔ (if second then d.fwSlots.2 else d.fwSlots.1) = some v ∧
    Config.rollback.toNat ≤ v.toNat ∧ bit (BitVec.ofNat 64 a) (if second then 1 else 0) = true := by
  rw [DeviceBlock.verifies, Option.filter_eq_some_iff, bit_verdict, Bool.and_eq_true, decide_eq_true_eq, decide_eq_true_eq,
    and_comm (a := Config.rollback.toNat ≤ v.toNat)]

theorem verifies_none (h : ∀ v, d.verifies a second ≠ some v) : d.verifies a second = none :=
  Option.eq_none_iff_forall_ne_some.2 h

theorem boot_lock : (d.boot a).ready = false ∧ (d.boot a).lastRst = 0 ∧ (d.boot a).lock = false ∧
    (d.boot a).fwSlots = d.fwSlots := by
  simp only [DeviceBlock.boot]
  split <;> exact ⟨rfl, rfl, rfl, rfl⟩

/-- The image accepted since the last cold reset, where its slot verifies (R448). -/
theorem boot_first (h : d.verifies a (d.fwSecond != d.fwNew) = some v) : (d.boot a).fwVer = v ∧
    (d.boot a).fwSecond = (d.fwSecond != d.fwNew) ∧ (d.boot a).noFw = false := by
  simp only [DeviceBlock.boot, h]
  exact ⟨trivial, trivial, rfl⟩

/-- The other image, where that one's slot does not verify (R448). -/
theorem boot_other (hn : d.verifies a (d.fwSecond != d.fwNew) = none) (h : d.verifies a (!(d.fwSecond != d.fwNew)) = some v) :
    (d.boot a).fwVer = v ∧ (d.boot a).fwSecond = !(d.fwSecond != d.fwNew) ∧ (d.boot a).noFw = false := by
  simp only [DeviceBlock.boot, hn, h]
  exact ⟨trivial, trivial, rfl⟩

/-- No image, where neither slot verifies (R448). -/
theorem boot_none (h : ∀ b, d.verifies a b = none) : (d.boot a).noFw = true := by
  simp only [DeviceBlock.boot, h]

end boot

section logs

variable {s : State}

theorem freeWord_only : s.LogsOnly s.freeWord.2 := ⟨s.hostMem, s.dev, s.reported, s.freeCtr + 1, rfl⟩

theorem logCorrected_only (half : Nat) : s.LogsOnly (s.logCorrected half) := by
  rw [State.logCorrected]
  exact freeWord_only.trans (State.LogsOnly.logEvent ..)

theorem logWidth_only : s.LogsOnly s.logWidth :=
  freeWord_only.trans (State.LogsOnly.logEvent s.freeWord.2 .halfwidth 0 0 .none 0 s.freeWord.1)

/-- PATROL_SCRUB of a half-atom with an error that can be corrected (R454). -/
theorem execPatrolScrub_corrects (h : s.soft.contains s.evArg.a = true) : execPatrolScrub s =
    .next { s.logCorrected s.evArg.a with
      soft := (s.logCorrected s.evArg.a).soft.filter (fun h => decide (h ≠ s.evArg.a)) } := if_pos h

end logs

section alarm

variable {s : State}

theorem alarms_iff {c : Nat} : s.dev.alarms c = true ↔ c = 1 ∨ c = 2 ∨ c ∈ s.dev.causes := by
  simp only [DeviceBlock.alarms, Bool.or_eq_true, decide_eq_true_eq, List.contains_iff_mem, or_assoc]

/-- The state in which the alarm has been logged and the keys of all tenants are erased (R449). -/
def State.keysErased (s : State) : State :=
  (List.range 128).foldl (fun (s : State) t => if (s.tenant t).key.isSome then s.eraseKey t else s)
    (s.logEvent .alarm 0 0 .none 0 (BitVec.ofNat 64 s.evArg.a))

theorem keysErased_mem : s.keysErased.mem = s.mem := by
  refine (foldl_keeps State.mem _ (fun u t => ?_) _ _).trans (State.LogsOnly.logEvent s ..).mem
  split
  · exact State.eraseKey_mem u t
  · rfl

/-- SECURITY_ALARM on a cause for which the alarm may fire (R449). -/
theorem execSecurityAlarm_fires (h : s.dev.alarms s.evArg.a = true) : execSecurityAlarm s =
    .next { s.keysErased.warmReset 2 with
      dev := { (s.keysErased.warmReset 2).dev with
        alarm := true, devKeys := s.dev.devKeys && !s.dev.policy
        causes := s.dev.causes.filter (fun c => decide (c ≠ s.evArg.a)) } } :=
  if_neg (by rw [h]; decide)

end alarm

section width

variable {s : State}

/-- A channel at half width (R455). -/
def State.atHalf (s : State) (stack channel : Nat) : Bool := s.half.any (fun h => decide (h.1 = stack ∧ h.2.1 = channel))

/-- HALF_WIDTH of a channel at full width: it drops (R455). -/
theorem execHalfWidth_drops (h : s.atHalf s.evArg.a s.evArg.b = false) (hf : s.evArg.f = false ∨ 95 < s.evArg.w.toNat) :
    execHalfWidth s = .next ({ s with half := (s.evArg.a, s.evArg.b, s.evArg.f) :: s.half } : State).logWidth := by
  have hn : ¬ (s.evArg.f ∧ s.evArg.w.toNat ≤ 95) := fun ⟨hf', hle⟩ =>
    hf.elim (fun hf => by rw [hf] at hf'; cases hf') (fun hlt => absurd hle (not_le.2 hlt))
  exact (if_neg hn).trans (if_neg (Bool.eq_false_iff.1 h))

/-- HALF_WIDTH of a channel at half width, for a lane fault: it no longer returns (R455). -/
theorem execHalfWidth_faults (h : s.atHalf s.evArg.a s.evArg.b = true) (hf : s.evArg.f = false) : execHalfWidth s = .next { s with
    half := s.half.map (fun h => if h.1 = s.evArg.a ∧ h.2.1 = s.evArg.b then (h.1, h.2.1, false) else h) } := by
  have hn : ¬ s.evArg.f = true := by rw [hf]; exact Bool.false_ne_true
  exact (if_neg fun ⟨hf', _⟩ => hn hf').trans ((if_pos h).trans (if_neg hn))

/-- HALF_WIDTH for heat, of a channel at half width or a stack that is not hot: nothing (R455). -/
theorem execHalfWidth_keeps (hf : s.evArg.f = true) (h : s.atHalf s.evArg.a s.evArg.b = true ∨ s.evArg.w.toNat ≤ 95) :
    execHalfWidth s = .next s := by
  by_cases hw : s.evArg.w.toNat ≤ 95
  · exact if_pos ⟨hf, hw⟩
  · exact (if_neg fun ⟨_, hle⟩ => hw hle).trans ((if_pos (h.resolve_right hw)).trans (if_pos hf))

theorem execFullWidth_returns (h : (s.evArg.a, s.evArg.b, true) ∈ s.half) (hw : s.evArg.w.toNat < 85) : execFullWidth s =
    .next ({ s with half := s.half.filter (fun h => decide (h ≠ (s.evArg.a, s.evArg.b, true))) } : State).logWidth :=
  if_pos ⟨hw, List.any_eq_true.2 ⟨_, h, decide_eq_true rfl⟩⟩

theorem execFullWidth_keeps (h : (s.evArg.a, s.evArg.b, true) ∉ s.half ∨ 85 ≤ s.evArg.w.toNat) : execFullWidth s = .next s := by
  refine if_neg fun ⟨hw, hany⟩ => h.elim (fun h => ?_) (fun h => absurd hw (not_lt.2 h))
  obtain ⟨x, hx, he⟩ := List.any_eq_true.1 hany
  exact h (of_decide_eq_true he ▸ hx)

end width

section power

variable {s : State}

/-- Whether a bound of the power gate is passed (R456). -/
def State.beyondBounds (s : State) : Bool := decide (s.dev.limit.toNat < s.evArg.a) || decide (105 < s.evArg.b)

/-- POWER_GATE (R456). -/
theorem execPowerGate_gates (ha : s.evArg.a < 2 ^ 32) (hb : s.evArg.b < 256) : execPowerGate s =
    .next { s with dev := { s.dev with
      draw := BitVec.ofNat 32 s.evArg.a, temp := BitVec.ofNat 8 s.evArg.b
      gate := if s.beyondBounds then (if s.dev.gate.toNat < 16 then s.dev.gate + 1 else s.dev.gate) else 0 } } := by
  simp only [execPowerGate, BitVec.toNat_ofNat, Nat.mod_eq_of_lt ha, Nat.mod_eq_of_lt hb]
  rfl

end power

end Sys2Proof.Machine

namespace Sys2Proof

open Machine

/-- Settles O59: the resets field by field, and each move of the port, the channels and the gate by its condition. -/
theorem resetsAndPort : Obligations.ResetsAndPort := by
  unfold Obligations.ResetsAndPort
  refine ⟨fun s ht hc => ?tenant, fun s => ⟨?warm, ?cold, rfl, rfl, fun h => if_neg (Bool.eq_false_iff.1 h), fun h => ?scrub⟩,
    fun s hf hs => ?frozen, fun s h => ?alarm, fun s h1 h2 hc => ?quiet, fun s => ?port, fun s => ?width, fun s ha hb => ?power⟩
  case tenant =>
    obtain ⟨htreset, hflr⟩ := execTreset_resets ht hc
    obtain ⟨hcounts, hslots⟩ := resetTenant_tenant (s := s) (t := s.evArg.a)
    exact ⟨htreset, hflr, hcounts, fun e => resetTenant_reuse, hslots⟩
  case warm =>
    refine ⟨_, rfl, rfl, rfl, rfl, rfl, rfl, rfl, rfl, rfl, rfl, rfl, rfl, rfl, rfl, rfl, rfl, rfl, rfl, fun h => ?_⟩
    show (s.dev.lock && s.dev.policy) = s.dev.policy
    rw [h, Bool.true_and]
  case cold =>
    obtain ⟨hready, hrst, hlock, hslots⟩ := boot_lock (d := s.dev) (a := s.evArg.a)
    refine ⟨_, rfl, rfl, rfl, rfl, rfl, rfl, rfl, rfl, rfl, rfl, rfl, rfl, hready, hrst, hlock, hslots,
      fun v h => boot_first (verifies_iff.2 h), fun v hn h => boot_other (verifies_none fun x hx => hn x (verifies_iff.1 hx))
        (verifies_iff.2 h), fun hn => boot_none fun b => verifies_none fun x hx => hn b x (verifies_iff.1 hx)⟩
  case scrub =>
    refine ⟨_, execPatrolScrub_corrects h, ?_⟩
    obtain ⟨m, d, r, c, hlog⟩ := logCorrected_only (s := s) s.evArg.a
    rw [hlog]
    exact ⟨rfl, rfl, rfl, rfl, rfl⟩
  case frozen =>
    refine if_pos ?_
    rw [State.stopped, hf, hs]
    rfl
  case alarm =>
    refine ⟨_, execSecurityAlarm_fires (alarms_iff.2 h), ?_⟩
    have hmem := keysErased_mem (s := s)
    generalize s.keysErased = v at hmem ⊢
    exact ⟨rfl, rfl, rfl, hmem, fun _ => rfl, rfl, rfl⟩
  case quiet =>
    have hn : ¬ s.dev.alarms s.evArg.a = true := fun h => (alarms_iff.1 h).elim h1 (fun h => h.elim h2 hc)
    exact if_pos (by rw [Bool.eq_false_iff.2 hn]; rfl)
  case port =>
    refine ⟨rfl, ⟨_, (List.length_map _).trans List.length_range, rfl⟩, fun hf => if_pos hf,
      fun hf => (if_neg (Bool.eq_false_iff.1 hf)).trans ?_, fun hu => if_pos (by rw [hu]; rfl),
      fun hu hz => (if_neg (by rw [hu]; decide)).trans (if_pos (by rw [hz]; rfl)),
      fun hu hz => ⟨_, (if_neg (by rw [hu]; decide)).trans (if_neg (by rw [hz]; decide))⟩, fun _ _ => ⟨rfl, rfl⟩⟩
    rw [DeviceBlock.unlockFails]
    rfl
  case width =>
    obtain ⟨m, d, r, c, hlog⟩ := logWidth_only (s := s)
    exact ⟨execHalfWidth_drops, execHalfWidth_faults, execHalfWidth_keeps, execFullWidth_returns, execFullWidth_keeps,
      by rw [hlog], by rw [hlog], by rw [hlog]⟩
  case power =>
    refine ⟨_, execPowerGate_gates ha hb, Nat.mod_eq_of_lt ha, Nat.mod_eq_of_lt hb, rfl, rfl, rfl, fun hl ht => ?_,
      fun h hg => ?_⟩
    · refine if_neg ?_
      rw [State.beyondBounds, Bool.or_eq_true, decide_eq_true_eq, decide_eq_true_eq]
      omega
    · refine (if_pos ?_).trans (if_pos hg)
      rw [State.beyondBounds, Bool.or_eq_true, decide_eq_true_eq, decide_eq_true_eq]
      exact h

end Sys2Proof
end
